-- ==== Sys2Proof/Word.lean ====
section
/-! DEFINITION. The word types of the controller (R11, R17) and the keyed table that holds its sparse state. -/

namespace Sys2Proof

/-- A register, descriptor or record word (R11, R17: 64 bits, little-endian). -/
abbrev Word := BitVec 64

/-- One byte of memory. -/
abbrev Byte := BitVec 8

/-- An FP32 code, or any 32-bit field that is added as one (R34). -/
abbrev F32 := BitVec 32

/-- A 16-bit status code: block in the high byte, cause in the low byte (R13). -/
abbrev Status := BitVec 16

/-- Sparse data by key: the pairs stand in strictly rising order of their keys. -/
abbrev Tbl (α : Type) := List (Nat × α)

end Sys2Proof
end

