-- ==== Sys2Proof/Syntax.lean ====
section
/-! DEFINITION. The commands of the controller: one constructor per row of the table of operations and events. An
operand carries what comes from outside the controller: words the host wrote, words of a message, a verdict of a
cryptographic check over keys that no agent can read, a sensor's value. -/

namespace Sys2Proof

/-- A UCIe 2.0 option that link training may offer (R56); the first six are supported. -/
inductive UcieOption where
  | advancedX64 | rate32 | lowerRates | laneRepair | moduleDegrade | sideband
  | standardPackage | ucie3d | retimers | rawProtocol
  deriving DecidableEq, Repr

/-- What a host-memory access was made for (R62, R91). -/
inductive HostAccess where
  /-- A read made by ENABLE (R62). -/
  | enable
  /-- An access made for a context. -/
  | context (ctx : Nat)
  /-- An access that served no context; the descriptor that needed the data, if a single one did, by its identifier. -/
  | shared (flight : Option Nat)
  /-- A mover's read-ahead, whose event is that of R384. -/
  | mover (m : Nat)
  deriving DecidableEq, Repr

/-- The ring a descriptor was read from. -/
structure RingKey where
  ctx : Nat
  ring : Nat
  deriving DecidableEq, Repr

/-- A descriptor that was taken: its ring and its free-running count (R64). -/
structure DescKey where
  ctx : Nat
  ring : Nat
  count : Nat
  deriving DecidableEq, Repr

/-- A descriptor of 64 bytes as its eight words (R71). -/
structure Desc where
  w0 : Word
  w1 : Word
  w2 : Word
  w3 : Word
  w4 : Word
  w5 : Word
  w6 : Word
  w7 : Word
  deriving DecidableEq, Repr

/-- A BAR0 access: byte offset and size in bytes (R543). -/
structure RegAccess where
  off : Nat
  size : Nat
  deriving DecidableEq, Repr

/-- What the home and the owning group answer when a descriptor names a request (R73, R90, R118, R225, R403). -/
inductive HomeView where
  /-- No home record names the request (R90: HPT_REQ_UNKNOWN). -/
  | unknown
  /-- The request is parked or not, its owning group, its lease epoch, its committed length, and whether a reshoot of it
  runs. -/
  | record (parked : Bool) (group epoch committed : Nat) (reshoot : Bool)
  deriving DecidableEq, Repr

/-- The lists a gather or update descriptor names, as the controller read them from host memory: offsets, indexes and
per-index weights or addends. -/
structure GatherLists where
  offsets : List Nat
  indexes : List Nat
  weights : List F32
  rows : List (List Byte)
  deriving DecidableEq, Repr

/-- The scheduler's estimates for the next step: the step's length with the main batch, by request on its main model
or its stand-in (R112). -/
structure StepEstimate where
  base : Nat
  main : List (Nat × Nat)
  standin : List (Nat × Nat)
  deriving DecidableEq, Repr

/-- A CORE unit whose clock is gated when it has no ready work (R470). -/
inductive CoreUnit where
  | matrixCore (c : Nat) | expanderLane (l : Nat) | attentionPipe (p : Nat) | sampler | gatherEngine (e : Nat)
  deriving DecidableEq, Repr

/-- A monitored rail (R533). -/
inductive Rail where
  | vddMgmt | vddMgmtIo | vddSram | vddCore | vddHostio | vddSds | vddaSds | vppHbm | vddHbm | vddIo | vddqNand
  deriving DecidableEq, Repr

/-- A word the patrol scrub read (R308): where it lies, the 32 data bits and 7 check bits as stored, and whether a write
reached its line since the read (R307). -/
structure ScrubWord where
  /-- An SRAM word in the macro `unit`, else an HBM word of the pseudo-channel `unit`. -/
  sram : Bool
  unit : Nat
  row : Nat
  /-- Local offset of the word, for HBM. -/
  offset : Nat
  data : BitVec 32
  check : BitVec 7
  written : Bool
  /-- The bank has a repair resource left (R309). -/
  spare : Bool
  deriving DecidableEq, Repr

/-- An image of the boot bundle as it was fetched and checked (R483, R484). -/
structure BootImage where
  /-- The host read succeeded. -/
  fetched : Bool
  magic : BitVec 32
  hdrVer : Nat
  kind : Nat
  keyClass : Nat
  len : Nat
  svn : Nat
  reservedZero : Bool
  /-- SHA-512 of PUBKEY matches this vendor key hash (0 to 3) or the owner's (4). -/
  keyHash : Option Nat
  sigOk : Bool
  digestOk : Bool
  /-- Payload of PROTECTION as words by byte offset (R487); unlisted words are zero. -/
  payload : Tbl Word
  deriving DecidableEq, Repr

/-- How a matrix-engine unit ended (R103, R168): with its result, or with the status of the kernel that failed. -/
structure UnitResult where
  status : Status
  /-- Tensor and line that failed, for R510. -/
  tensor : Nat
  deriving DecidableEq, Repr

/-- A take known across controllers: its coordinator's node and its take ID. -/
structure TakeRef where
  node : Nat
  id : Nat
  deriving DecidableEq, Repr

/-- Where TAKE_SUBMIT brought a slate (R551): the node, and its own number for the slate where it forwarded it. -/
structure HostSlate where
  node : Nat
  key : Nat
  deriving DecidableEq, Repr

/-- A PREPARE as it arrived (R138): the take, its stamp, the receiver's index, whether TAKE_SUBMIT brought the slate
and from where (R551), and the slate in R124's layout with the receiver's own actions and data. -/
structure PrepareMsg where
  ref : TakeRef
  stamp : Nat
  part : Nat
  host : Option HostSlate
  slate : List Word
  deriving DecidableEq, Repr

/-- A vote as it arrived (R141): STATUS 0x0000 for yes, else the cause, the failing action, and the take that stood in
the way of its locks (R134). -/
structure VoteMsg where
  takeId : Nat
  part : Nat
  stamp : Nat
  status : Status
  action : Nat
  against : Option TakeRef
  deriving DecidableEq, Repr

/-- One row's checksum and recomputed sum (R169). -/
structure ChecksumPair where
  sum : F32
  check : F32
  magnitude : F32
  deriving DecidableEq, Repr

/-- Rows of keys and values that the appender receives for one request and layer (R214). -/
structure AppendBatch where
  req : Nat
  /-- The rows are the stand-in model's (R115). -/
  standin : Bool
  layer : Nat
  head : Nat
  pos : Nat
  keys : List (List F32)
  values : List (List F32)
  deriving DecidableEq, Repr

/-- A page: request, layer, KV head and page index. -/
structure PageKey where
  req : Nat
  layer : Nat
  head : Nat
  page : Nat
  deriving DecidableEq, Repr

/-- One query row of an attention pass: query head, row within the step, position, its tree node when it is a tree row, and
its rotated query. -/
structure PassRow where
  qhead : Nat
  qrow : Nat
  pos : Nat
  node : Option Nat
  query : List F32
  deriving DecidableEq, Repr

/-- A KV group's attention work for one request, layer and KV head (R248): its query rows, with the words of the tree mask and
the positions of the nodes (R237). -/
structure PassKey where
  req : Nat
  layer : Nat
  head : Nat
  rows : List PassRow
  mask : List Word
  nodePos : List Nat
  deriving DecidableEq, Repr

/-- A round B draw of one slice for a row (R267, R270): no kept token, or the token and its g in L32; with it the slice's
top codes of each head, as tokens and codes. -/
structure DrawMsg where
  req : Nat
  node : Nat
  slot : Nat
  kept : Bool
  token : Nat
  g : Nat
  heads : List (List (Nat × Nat))
  deriving DecidableEq, Repr

/-- A step's result for one request (R269, R270): accepted nodes, delivered tokens, the next tree's tokens, what the budget
came to (R114), and the status of the final record where the request ends. -/
structure VerifyMsg where
  req : Nat
  accepted : List Nat
  tokens : List Nat
  tree : List Nat
  late : Bool
  discard : Bool
  final : Option Status
  numeric : Status
  deriving DecidableEq, Repr

/-- A delivery to the controller that fetched the REQ_POST (R269, R443): output position, tokens, flags and status of the
record, or none where the delivery only ends REQ_CANCELs; and the REQ_CANCELs of this controller that it ends (R117). -/
structure DeliveryMsg where
  req : Nat
  record : Bool
  pos : Nat
  tokens : List Nat
  late : Bool
  final : Bool
  status : Status
  cancels : List DescKey
  deriving DecidableEq, Repr

/-- What bring-up found on a flash channel (R316). -/
structure ChanFound where
  trained : Bool
  rate : Nat
  /-- One bit per target in service. -/
  targets : Nat
  blocks : Nat
  /-- 64 KiB units that a block holds. -/
  blockUnits : Nat
  deriving DecidableEq, Repr

/-- Who asks for a sector (R318). -/
inductive FlashClient where
  | kva | gather (tenant : Nat) | mover (tenant : Nat)
  deriving DecidableEq, Repr

/-- How a codeword decoded (R321). -/
inductive CodewordOutcome where
  | hard (data : List Byte) (crcOk : Bool)
  | soft (retries : Nat) (data : List Byte) (crcOk : Bool)
  | fail
  deriving DecidableEq, Repr

/-- What a KEYX exchange came to (R346): the peer's node ID, and whether its chain and signature are good. -/
structure KeyxMsg where
  peer : Nat
  good : Bool
  deriving DecidableEq, Repr

/-- How a frame's checks came out (R340, R341, R347): CRC or header bad, or tag bad. -/
inductive FrameCheck where
  | good | corrupt | tagFail
  deriving DecidableEq, Repr

/-- A CREDIT frame as it arrived (R340): SEQ, ACK_SEQ, NAK and the twelve cumulative counts. -/
structure CreditMsg where
  check : FrameCheck
  seq : Nat
  ack : Nat
  nak : Bool
  counts : List Nat
  deriving DecidableEq, Repr

/-- A DATA frame as it arrived (R340): VC, SEQ, ACK_SEQ, NAK, KEYGEN and bytes with fill. -/
structure DataMsg where
  check : FrameCheck
  vc : Nat
  seq : Nat
  ack : Nat
  nak : Bool
  gen : Nat
  len : Nat
  deriving DecidableEq, Repr

/-- A remote memory operation as it reached this controller (R352): issuer, the port and class it came by, TAG, MAP_EPOCH, OFFSET
and ARG. -/
structure RemoteReq where
  src : Nat
  port : Nat
  tc : Nat
  tag : Nat
  epoch : Nat
  offset : Nat
  arg : Word
  deriving DecidableEq, Repr

/-- A flow: destination, class and stripe (R344). -/
structure FlowKey where
  dest : Nat
  tc : Nat
  stripe : Nat
  deriving DecidableEq, Repr

/-- What starts a Traverse (R415): prefill that completed; a REQ_PARK, with its DST_GROUP, its node and its descriptor there;
a new turn for a parked request, posted to a group. -/
inductive TraverseTrigger where
  | prefillDone (req : Nat)
  | park (req dst origin flight : Nat)
  | handover (req dst : Nat)
  /-- An automatic park (R418), or one that CON_ORPHAN brings about (R450). -/
  | auto (req : Nat)
  deriving DecidableEq, Repr

/-- A probe's answer (R446): the echo on a continuity port, or the twin's CON_STAT read over the fabric, unless the twin is in
controller reset. -/
inductive ProbeAnswer where
  | echo
  | status (stat : Word)
  deriving DecidableEq, Repr

/-- The body of a mirror record by its KIND (R441); every body carries absolute values. -/
inductive MirrorBody where
  /-- ROWS: bytes of a page's frame and of its scale frame, each at an offset. -/
  | rows (page : PageKey) (off : Nat) (bytes : List Byte) (scaleOff : Nat) (scales : List Byte)
  /-- ENTRY: the 16-byte entry. -/
  | entry (page : PageKey) (w0 w1 : Word)
  /-- ROOT: the 64-byte root, and what the controller knows of the request besides (R25). -/
  | root (req : Nat) (words : List Word)
  /-- COMMIT: accepted slots, COMMITTED, counted tokens, and the next tree with the bonus token at its root. -/
  | commit (req step : Nat) (accepted : List Nat) (committed : Nat) (counted tree : List Nat)
  /-- COUNTS: entries of a count table by place, TAG and COUNT. -/
  | counts (req : Nat) (entries : List (Nat × Nat × Nat))
  /-- INTENT: a participant's intents. -/
  | intent (id : TakeRef) (stamp part : Nat) (slate : List Word)
  /-- DECISION: a coordinator's decision. -/
  | decision (takeId : Nat) (stamp : Nat) (status : Status) (nodes : List Nat)
  /-- HOME: a home record, or its removal. -/
  | home (req : Nat) (record : Option (List Word))
  /-- TRANSIT: a transit record, or its removal. -/
  | transit (req : Nat) (words : List Word)
  /-- AUDIT: the CRC of a frame and its scale frame. -/
  | audit (page : PageKey) (crc : BitVec 32)
  /-- RELEASE: the request left the member. -/
  | release (req : Nat)
  /-- HOLDER: a holder's marks. -/
  | holder (node : Nat) (twinLoss revoked : Bool)
  /-- A reserved KIND. -/
  | reserved (kind : Nat)
  deriving DecidableEq, Repr

/-- An acknowledgement of a take (R138), or the coordinator's report to the controller that forwarded the slate: its number
there, and the take's result (R130, R131). -/
inductive AckMsg where
  | ack (takeId node : Nat) (stamp : Nat)
  | ended (key takeId : Nat) (status : Status) (action part : Nat) (partStatus : Status) (tries : Nat)
  deriving DecidableEq, Repr

/-- The leader's answer to the controller that holds the REQ_RELEASE RESHOOT: its descriptor there, the status and the
entries repaired (R226). -/
structure ReshootEnd where
  flight : Nat
  status : Status
  repaired : Nat
  deriving DecidableEq, Repr


/-- The commands (opcode_table.json, one constructor per row). -/
inductive Instr where
  /-- UCIE_LINK_TRAINING (R56): The host port trains the UCIe link and declines any option it does not support. -/
  | ucieLinkTraining (offer : List UcieOption) (modUp rateGt repairs : Nat)
  /-- UCIE_MODULE_FAIL (R58): A UCIe module fails beyond repair; the port continues on the remaining modules, posts LINK_CHANGE with HPT_LINK_DEGRADED and updates HPT_LINK_STAT. -/
  | ucieModuleFail (m : Nat)
  /-- CTX_ENABLE (R62): HPT_CTX_CMD OP ENABLE sets BUSY and starts the reads of the context-table entry and the doorbell line. -/
  | ctxEnable (ctx : Nat)
  /-- CTX_ENABLE_READ_DONE (R62): The ENABLE reads return; the entry is checked, ring heads and producer counts are zeroed and BUSY clears with the status. -/
  | ctxEnableReadDone (entry line : List Word)
  /-- CTX_DISABLE (R63): HPT_CTX_CMD OP DISABLE stops fetching from the context's rings and starts teardown steps 2 to 7 without an ERROR event. -/
  | ctxDisable (ctx : Nat)
  /-- CTX_DISABLE_DONE (R63): Once the context's last completion record is written, BUSY clears with STATUS 0x0000. -/
  | ctxDisableDone (ctx : Nat)
  /-- EVQ_CFG_WRITE (R60): A write to HPT_EVQ_CFG enables or disables the event queue; an enable takes LOG2SIZE and VECTOR and restarts SEQ at 0. -/
  | evqCfgWrite (w : Word)
  /-- HDM_CFG_WRITE (R60): A BW write to HPT_HDM_CFG places the HDM window; EN stays 0 when the size or region is out of range. -/
  | hdmCfgWrite (w : Word)
  /-- DOORBELL_SNOOP (R66): A snoop-invalidate of a context's doorbell line arrives; the controller answers it, marks the context pending and issues a shared re-read. -/
  | doorbellSnoop (ctx : Nat)
  /-- DOORBELL_POLL (R68): The HPT_DB_POLL period expires and every enabled context's doorbell line is re-read as a backstop. -/
  | doorbellPoll
  /-- DOORBELL_LINE_DATA (R66): Doorbell line data returns; the watch is re-armed, the TAILs are compared and descriptor reads are issued for the rings that advanced. -/
  | doorbellLineData (ctx : Nat) (line : List Word)
  /-- CQ_HEAD_SNOOP (R78): A change to a watched CQHEAD line frees space, and the delayed completion records are written. -/
  | cqHeadSnoop (ctx : Nat) (line : List Word)
  /-- HOST_ACCESS_TIMEOUT (R91): A host-memory access exceeds HPT_HOST_TMO; its data is unused, an ERROR event is posted, and the context is torn down or the descriptor is failed. -/
  | hostAccessTimeout (a : HostAccess)
  /-- HOST_DATA_ERROR (R91): A host-memory read returns an error or poisoned data; it is handled as HPT_HOST_DATA_ERR. -/
  | hostDataError (a : HostAccess)
  /-- NOP (R72): A NOP descriptor is validated and completes. -/
  | nop (k : RingKey) (d : Desc)
  /-- RESERVED_OPCODE (R72): A descriptor with a reserved opcode, or with an opcode whose GLB_CAP bit is 0, is rejected with HPT_BAD_OPCODE. -/
  | reservedOpcode (k : RingKey) (d : Desc)
  /-- REQ_POST (R74): REQ_POST posts a new request or a new turn of a parked request, after its header, payload, parameter and model checks. -/
  | reqPost (k : RingKey) (d : Desc) (param : List Word) (input : List (BitVec 32)) (home : HomeView)
  /-- REQ_PARK (R417): REQ_PARK checks the request through the home and starts a Traverse to a CACHE group. -/
  | reqPark (k : RingKey) (d : Desc) (home : HomeView)
  /-- REQ_CANCEL (R117): REQ_CANCEL sends a cancel through the home to the owning group, which removes the request at its next roster. -/
  | reqCancel (k : RingKey) (d : Desc) (home : HomeView)
  /-- REQ_RELEASE_FREE (R225): REQ_RELEASE FREE releases a parked request by a home-coordinated OWNER take, and its frames and flash records are then freed. -/
  | reqReleaseFree (k : RingKey) (d : Desc) (home : HomeView)
  /-- REQ_RELEASE_RESHOOT (R226): REQ_RELEASE RESHOOT asks the owner group's leader to recompute positions 0 to END - 1 through the prompt group. -/
  | reqReleaseReshoot (k : RingKey) (d : Desc) (home : HomeView)
  /-- KERNEL_LOAD (R157): KERNEL_LOAD with OP LOAD reads a kernel image, checks it in order and loads its kernels, tensors and model. -/
  | kernelLoad (k : RingKey) (d : Desc) (image : List Word)
  /-- KERNEL_UNLOAD (R157): KERNEL_LOAD with OP UNLOAD frees a range of the context's kernel handles. -/
  | kernelUnload (k : RingKey) (d : Desc)
  /-- KERNEL_RUN (R162): KERNEL_RUN checks the kernel and its tensors, then divides the product into units for the matrix cores. -/
  | kernelRun (k : RingKey) (d : Desc)
  /-- MOVE (R378): A MOVE descriptor is checked and then queued for a channel of its mover. -/
  | move (k : RingKey) (d : Desc)
  /-- PACK_CODE (R187): PACK with OP CODE counts, builds a 12-bit-limited code table and writes a coded tensor. -/
  | packCode (k : RingKey) (d : Desc)
  /-- PACK_CODE_SAFE (R187): PACK with OP CODE_SAFE codes a tensor under an 8-bit length limit. -/
  | packCodeSafe (k : RingKey) (d : Desc)
  /-- PACK_UNPACK (R186): PACK with OP UNPACK decodes a coded tensor into raw TILE64 form. -/
  | packUnpack (k : RingKey) (d : Desc)
  /-- PACK_FREE (R186): PACK with OP FREE frees a tensor handle that a PACK of the same context made. -/
  | packFree (k : RingKey) (d : Desc)
  /-- TABLE_REGISTER (R278): TABLE_REG REGISTER checks and registers an embedding table, with every row in state TAIL. -/
  | tableRegister (k : RingKey) (d : Desc)
  /-- TABLE_FREE (R279): TABLE_REG FREE frees a table unless a descriptor that uses it is running. -/
  | tableFree (k : RingKey) (d : Desc)
  /-- TABLE_REFRESH (R291): TABLE_REG REFRESH starts hot-set promotions and demotions from a list. -/
  | tableRefresh (k : RingKey) (d : Desc) (list : List Word)
  /-- TABLE_LOAD (R294): TABLE_REG LOAD writes rows to a flash tail and frees their delta entries. -/
  | tableLoad (k : RingKey) (d : Desc) (rows : List (List Byte))
  /-- TABLE_SYNC (R295): TABLE_REG SYNC writes merged rows out, rewrites their flash copies and frees their delta entries. -/
  | tableSync (k : RingKey) (d : Desc) (flash : List (Option (List Byte)))
  /-- GATHER_POOL (R284): GATHER in MODE POOL pools deduplicated rows into bags, window by window. -/
  | gatherPool (k : RingKey) (d : Desc) (g : GatherLists)
  /-- GATHER_COPY (R284): GATHER in MODE COPY copies a row out for each index. -/
  | gatherCopy (k : RingKey) (d : Desc) (g : GatherLists)
  /-- UPDATE (R289): UPDATE pre-sums scaled gradients for each unique row and adds them atomically to an FP32 table. -/
  | update (k : RingKey) (d : Desc) (g : GatherLists)
  /-- TAKE_SUBMIT (R130): TAKE_SUBMIT reads a slate from host memory in order to begin a take. -/
  | takeSubmit (k : RingKey) (d : Desc)
  /-- TAKE_SLATE_READ (R130): The slate read returns; the slate is checked and the take begins, or the slate is forwarded to its coordinator. -/
  | takeSlateRead (k : DescKey) (slate : List Word)
  /-- SEM_SIGNAL_ADD (R108): SEM_SIGNAL with MODE ADD adds VALUE to a semaphore and completes the waits that now fit. -/
  | semSignalAdd (k : RingKey) (d : Desc)
  /-- SEM_SIGNAL_SET (R108): SEM_SIGNAL with MODE SET sets a semaphore count and completes the waits that now fit. -/
  | semSignalSet (k : RingKey) (d : Desc)
  /-- SEM_WAIT (R109): SEM_WAIT takes NEED from a semaphore, or blocks its ring in arrival order. -/
  | semWait (k : RingKey) (d : Desc)
  /-- SEM_WAIT_TIMEOUT (R109): TIMEOUT_US expires on a pending wait, which completes with SCH_SEM_TIMEOUT. -/
  | semWaitTimeout (k : DescKey)
  /-- STEP_ADMISSION (R99): While a step runs, the step leader admits requests for the next step by deficit round robin and sends the roster on TC0. -/
  | stepAdmission (est : StepEstimate)
  /-- PROMPT_ADMISSION (R100): Prompt chunks are admitted by a second deficit round robin instance. -/
  | promptAdmission
  /-- ROSTER (R96): A roster arrives at a member; its epoch and fields are checked, and it marks the member's local step start. -/
  | roster (src : Nat) (words : List Word)
  /-- UNIT_END (R103): A running matrix-engine unit ends, and the scheduler starts the highest-ranking ready unit. -/
  | unitEnd (r : UnitResult)
  /-- CONTEXT_TEARDOWN (R119): A context fault posts an ERROR event, stops the rings and starts teardown of the context. -/
  | contextTeardown (ctx : Nat) (cause : BitVec 16)
  /-- CONTEXT_TEARDOWN_DONE (R120): Once teardown steps 2 to 7 are done, CONTEXT_DOWN is posted and the context is disabled. -/
  | contextTeardownDone (ctx : Nat)
  /-- TAKE_SLATE_FORWARD (R130): A slate forwarded on TC0 reaches its coordinator, which begins the take. -/
  | takeSlateForward (src : Nat) (srcKey : Nat) (retries : Nat) (host : Bool) (slate : List Word)
  /-- TAKE_PREPARE (R138): A PREPARE reaches a participant, which checks the epoch, locks the objects, makes the checks and writes its intents. -/
  | takePrepare (m : PrepareMsg)
  /-- INTENT_MIRROR_ACK (R140): The twin acknowledges the mirrored intents, and the participant votes yes or applies its local take. -/
  | intentMirrorAck (id : TakeRef)
  /-- TAKE_VOTE (R141): A vote reaches the coordinator; a no vote, or the last yes vote, decides the take. -/
  | takeVote (m : VoteMsg)
  /-- TAKE_VOTE_TIMEOUT (R139): VOTE_US passes without a vote, and the coordinator decides abort with TAK_VOTE_TIMEOUT. -/
  | takeVoteTimeout (takeId part : Nat)
  /-- DECISION_MIRROR_ACK (R138): The coordinator's decision is mirrored on its twin, and COMMIT or ABORT is sent. -/
  | decisionMirrorAck (takeId : Nat)
  /-- TAKE_COMMIT (R138): COMMIT reaches a participant, which applies its actions in slate order, releases its locks and acknowledges. -/
  | takeCommit (id : TakeRef) (stamp : Nat)
  /-- TAKE_ABORT (R138): ABORT reaches a participant, which discards its intents and releases its locks. -/
  | takeAbort (id : TakeRef) (stamp : Nat)
  /-- TAKE_ACK (R138): The coordinator collects the acknowledgements, frees the decision record and writes the completion. -/
  | takeAck (m : AckMsg)
  /-- TAKE_INDOUBT_TIMEOUT (R143): A yes-voted participant has no decision within the TC0 response limit, enters doubt, and asks the coordinator or its twin. -/
  | takeIndoubtTimeout (id : TakeRef)
  /-- TAKE_INQUIRY (R143): A coordinator or its twin answers an in-doubt question from its decision record, or with ABORT when it holds none. -/
  | takeInquiry (src : Nat) (id : TakeRef) (stamp : Nat)
  /-- TAKE_ENDED_NOTICE (R134): An ENDED notice tells the coordinator that the conflicting take has released its locks, and the retry begins. -/
  | takeEndedNotice (ended : TakeRef)
  /-- TAKE_RETRY (R134): 1 µs after an abort without an ENDED notice, the coordinator begins the retry with the same stamp. -/
  | takeRetry (takeId : Nat)
  /-- MXE_UNIT_DONE (R170): A matrix unit ends on a core, its checksums are compared, and its output is released or it is queued for a retry. -/
  | mxeUnitDone (flight kernel unit core : Nat) (sums : List ChecksumPair) (numeric : Bool)
  /-- MXE_RETRY_DONE (R170): A retried unit is compared; the outcome sets a strike, retires a core, or completes the kernel with MXE_TILE_FAIL. -/
  | mxeRetryDone (flight kernel unit core : Nat) (sums : List ChecksumPair) (numeric : Bool)
  /-- MXE_CORE_TEST (R174): MXE_CORE_CMD OP TEST resets a retired core alone and starts its self-test. -/
  | mxeCoreTest (core : Nat)
  /-- MXE_CORE_RETIRE (R174): MXE_CORE_CMD OP RETIRE takes a core out of service at the next kernel boundary. -/
  | mxeCoreRetire (core : Nat)
  /-- CORE_SELFTEST_DONE (R174): A core's self-test ends; the core enters REJOIN, or returns to RETIRED with MXE_SELFTEST_FAIL. -/
  | coreSelftestDone (core : Nat) (pass : Bool)
  /-- EXPANDER_BLOCK (R193): A block's data reaches an expander lane, which checks its CRC, header and sub-streams and decodes it into the operand queue. -/
  | expanderBlock (run tensor block : Nat)
  /-- EXPANDER_REREAD (R198): The second read of a block whose CRC failed returns; the kernel continues, or fails with an error event. -/
  | expanderReread (run tensor block : Nat)
  /-- APPEND_ROWS (R211): The appender takes key and value rows from stage memory, checks the lease, quantises them and writes them into pages. -/
  | appendRows (a : AppendBatch)
  /-- KVA_AGE_TICK (R217): On CACHE role, KVA_AGE advances every TICK_US. -/
  | kvaAgeTick
  /-- EVICTION (R218): A class's free frames fall below LOW, and the pool evicts the oldest eligible frames until HIGH is reached. -/
  | eviction (cls : Nat)
  /-- DEMOTE_WRITE_DONE (R220): The flash write of an evicted page completes, and a local take moves the entry to FLASH and frees the frame. -/
  | demoteWriteDone (frame : Nat) (flashAddr : Nat) (ok : Bool)
  /-- PAGE_PROMOTE (R221): A FLASH page read into the page cache completes and is promoted to HBM by a local take. -/
  | pagePromote (page : PageKey) (ok : Bool) (bytes : List Byte)
  /-- DROP_NOTICE (R223): A drop or LOST notice reaches the group leader, which updates END and holds the request. -/
  | dropNotice (src req highest count : Nat) (lost : Bool)
  /-- RESHOOT_REQUEST (R226): The owner group's leader checks a reshoot request, and the prompt group prefills the positions. -/
  | reshootRequest (req inCount origin flight : Nat)
  /-- RESHOOT_COMPLETE (R226): No DROPPED or LOST entry remains below END; the request becomes eligible and the completion record is written. -/
  | reshootComplete (req : Nat) (answer : Option ReshootEnd)
  /-- POOL_ENABLE (R206): A write of KVA_POOL_CTL.EN = 1 checks the class regions and enables the pool with every frame free, or sets ERR. -/
  | poolEnable (w : Word)
  /-- POOL_DISABLE (R206): A write of KVA_POOL_CTL.EN = 0 disables the pool, unless a frame is allocated. -/
  | poolDisable (w : Word)
  /-- ATTENTION_PASS (R248): A KV group's attention work for a layer runs over the member's pages and forms member partials. -/
  | attentionPass (p : PassKey)
  /-- PARTIAL_RECORD (R247): A partial record arrives at its merge home and is merged by the merge procedure. -/
  | partialRecord (tag : Option Nat) (words : List Word) (num : List (BitVec 32))
  /-- PARTIAL_REQUEST (R250): A cache controller checks a partial request and answers each entry with a partial record or a failure. -/
  | partialRequest (hdr entries : List Word)
  /-- PARTIAL_REPLY_TIMEOUT (R251): A cache-pool reply does not arrive within the TC2 limit; the request commits nothing and ATT_REMOTE_TIMEOUT is posted. -/
  | partialReplyTimeout (req tag : Nat)
  /-- ATT_BIND_ENABLE (R233): A write of ATT_BIND[j].EN = 1 checks the binding's profiles and enables it, or sets ERR. -/
  | attBindEnable (j : Nat) (w : Word)
  /-- ATT_BIND_DISABLE (R233): A write of ATT_BIND[j].EN = 0 disables the binding unless a resident request uses the model. -/
  | attBindDisable (j : Nat) (w : Word)
  /-- ATT_PROF_WRITE (R234): A write to an attention profile is judged on the value it would leave and is ignored when that value is invalid. -/
  | attProfWrite (a : RegAccess) (w : Word)
  /-- SAMPLER_PASS (R263): The LM-head logits are in stage memory, and each slice converts them, applies penalties and temperature, and sends round A summaries. -/
  | samplerPass (req node : Nat) (logits : List (BitVec 32)) (heads : List (List (BitVec 32)))
  /-- ROUND_A_SUMMARY (R265): The sampling home merges the slices' summary records and forms the threshold. -/
  | roundASummary (slot : Nat) (words : List Word)
  /-- THRESHOLD_RETURN (R266): The threshold returns to the slices, which run their Gumbel draws and head rankings and send round B. -/
  | thresholdReturn (req node : Nat) (theta : BitVec 16)
  /-- ROUND_B_DRAW (R267): The sampling home takes the winning draw of each row across the slices. -/
  | roundBDraw (m : DrawMsg)
  /-- VERIFY_RESULT (R216): A member receives the accepted slots and splices them, commits COMMITTED, and frees the unused pages. -/
  | verifyResult (m : VerifyMsg)
  /-- MIRRORED_REPORT (R443): A member reports a step as mirrored; when every member has reported, the home releases the tokens. -/
  | mirroredReport (src step : Nat) (reqs : List Nat)
  /-- TOKEN_DELIVERY (R269): The origin controller writes the released tokens at OUT_ADDR and then the completion record. -/
  | tokenDelivery (m : DeliveryMsg)
  /-- LOGIT_SLICE (R272): Under ADJUSTED or RAW, slice logits reach the origin, which writes them and a COUNT 0 record. -/
  | logitSlice (req position slot nslots first : Nat) (codes : List (BitVec 16))
  /-- HOST_CHOICE (R272): The host writes its choice to the watched output entry, and the choice is delivered like a drawn token. -/
  | hostChoice (req : Nat) (entry : BitVec 32)
  /-- GATHER_ROW_DATA (R284): A fetched row returns and is pooled or copied, then placed in the carry cache. -/
  | gatherRowData (k : DescKey) (row : Nat) (ok : Bool) (bytes : List Byte)
  /-- MIGRATION_ADDS_DRAINED (R292): Adds issued before T1 complete at the old copy, and the migration reads and merges the row. -/
  | migrationAddsDrained (table row : Nat)
  /-- MIGRATION_COPY_DONE (R292): The merged row is written to the new location, and take T2 moves the redirect. -/
  | migrationCopyDone (table row : Nat) (st : BitVec 16) (bytes : List Byte)
  /-- PATROL_SCRUB (R308): The patrol scrub reads HBM lines and SRAM words and corrects them. -/
  | patrolScrub (w : ScrubWord)
  /-- PC_INTERFACE_FAIL (R310): A pseudo-channel interface fails without retraining; MEM_PC_FAIL starts a controller fault. -/
  | pcInterfaceFail (pc : Nat) (retrained : Bool)
  /-- PC_SUSPECT_CMD (R310): MEM_RETIRE_CMD OP 0b01 makes a pseudo-channel SUSPECT, to be retired at the next reset. -/
  | pcSuspectCmd (target : Nat)
  /-- STACK_RETIRE_CMD (R310): MEM_RETIRE_CMD OP 0b10 marks a stack for retirement at the next reset. -/
  | stackRetireCmd (target : Nat)
  /-- ATOMIC_ADD_LINE (R313): A pseudo-channel's atomic unit adds 16 FP32 values to one line as one indivisible change. -/
  | atomicAddLine (offset : Nat) (addends : List (BitVec 32))
  /-- HDM_HOST_READ (R315): A host CXL.mem read of the HDM window is checked; an uncorrectable or suspect line is answered with poison. -/
  | hdmHostRead (offset : Nat)
  /-- HDM_HOST_WRITE (R315): A host CXL.mem write to the HDM window is applied; a full-line write removes a listed line. -/
  | hdmHostWrite (offset : Nat) (bytes : List Byte)
  /-- FTL_ENABLE (R329): A write of FLT_CTL.EN = 1 sets BUSY and brings up the flash channels. -/
  | ftlEnable (w : Word)
  /-- FTL_BRINGUP_DONE (R316): Channel training and bad-block reading end; EN becomes 1, or ERR is set. -/
  | ftlBringupDone (chans : List ChanFound) (badBlocks : List Nat)
  /-- FTL_DISABLE (R329): A write of FLT_CTL.EN = 0 disables the flash tier and discards the map. -/
  | ftlDisable (w : Word)
  /-- SECTOR_READ (R321): A client sector read is checked against the grants and issued as a page read. -/
  | sectorRead (c : FlashClient) (sector : Nat)
  /-- SECTOR_READ_DATA (R321): A codeword is transferred and decoded; the plaintext CRC is checked and the data is delivered, or FLT_UNCORR is returned. -/
  | sectorReadData (sector : Nat) (o : CodewordOutcome)
  /-- SECTOR_WRITE (R319): A client write is programmed as a whole unit, or merged in an HBM buffer. -/
  | sectorWrite (c : FlashClient) (sector : Nat) (data : List (List Byte))
  /-- MERGE_TIMEOUT (R319): A partial unit has waited 1 ms; it is read, merged and programmed. -/
  | mergeTimeout (unit : Nat)
  /-- PAGE_PROGRAM_DONE (R322): A page program completes; on failure the block is retired and the data is programmed elsewhere. -/
  | pageProgramDone (unit : Nat) (ok : Bool)
  /-- BLOCK_ERASE_DONE (R322): A block erase completes, or fails and retires the block. -/
  | blockEraseDone (block : Nat) (ok : Bool)
  /-- GARBAGE_COLLECTION (R324): Garbage collection picks the block with the fewest valid units, relocates them by compare and swap, and erases the block. -/
  | garbageCollection
  /-- STATIC_LEVELLING (R322): Erase counts spread beyond WEAR_DELTA, and the least-erased block's data is moved. -/
  | staticLevelling
  /-- ZQ_CALIBRATION (R317): Every 100 ms, the controller runs ZQ calibration on each channel. -/
  | zqCalibration
  /-- FLASH_CHANNEL_FAIL (R327): A channel fails training or stops answering; it becomes FAILED and FLT_CHAN_FAIL is posted. -/
  | flashChannelFail (chan : Nat)
  /-- PORT_ENABLE (R336): A write of GLK_PORT_CTL.EN = 1 starts port training. -/
  | portEnable (n : Nat) (w : Word)
  /-- PORT_DISABLE (R339): A write of GLK_PORT_CTL.EN = 0 makes the port DISABLED at once. -/
  | portDisable (n : Nat) (w : Word)
  /-- PORT_RETRAIN (R336): A write of RETRAIN = 1 to an ACTIVE or REJOIN port retrains it. -/
  | portRetrain (n : Nat)
  /-- PMD_TRAINING_DONE (R336): Lane training ends; a width is chosen, FEC locks and the key exchange starts, or the port returns to TRAIN. -/
  | pmdTrainingDone (n : Nat) (lanes : BitVec 8)
  /-- TRAIN_RETRY (R336): 1 s after a failed training or key exchange, the port trains again. -/
  | trainRetry (n : Nat)
  /-- KEYX_FRAME (R346): A KEYX frame is checked against the trust anchor and the peer, and link keys are derived. -/
  | keyxFrame (n : Nat) (f : KeyxMsg)
  /-- CREDIT_FRAME (R349): A CREDIT frame returns credits and acknowledgements, or carries a NAK. -/
  | creditFrame (n : Nat) (f : CreditMsg)
  /-- LINK_TEST_FRAME (R336): A TC5 link-test echo frame is answered or checked. -/
  | linkTestFrame (n : Nat) (echo : Bool) (ok : Bool)
  /-- LANE_FAULT (R339): A lane loses lock or errs; the port downshifts, or retrains when too few lanes remain. -/
  | laneFault (n : Nat) (good : BitVec 8)
  /-- PORT_RX_TIMEOUT (R339): No valid frame arrives for 10 µs, and the port retrains with GLK_PORT_DOWN. -/
  | portRxTimeout (n : Nat)
  /-- CREDIT_TIMEOUT (R339): No credit is returned within CREDIT_NS on a waiting VC, and the port retrains. -/
  | creditTimeout (n vc : Nat)
  /-- DATA_FRAME (R341): A DATA frame is accepted in sequence, checked and decrypted, or discarded and NAKed. -/
  | dataFrame (n : Nat) (f : DataMsg)
  /-- PUT (R352): A remote PUT is checked and its bytes are written at OFFSET. -/
  | put (r : RemoteReq) (bytes : List Byte)
  /-- GET (R352): A remote GET is checked and the bytes are returned. -/
  | get (r : RemoteReq) (host : List Byte)
  /-- ADD_F32 (R352): A remote ADD_F32 adds 16 FP32 values to one HBM line. -/
  | addF32 (r : RemoteReq) (addends : List (BitVec 32))
  /-- ADD_U64 (R352): A remote ADD_U64 adds to an 8-byte word and returns the old value. -/
  | addU64 (r : RemoteReq) (v : Word)
  /-- CAS64 (R352): A remote CAS64 swaps an 8-byte word when it equals the compare value, and returns the old value. -/
  | cas64 (r : RemoteReq) (cmp swp : Word)
  /-- PUT_SIGNAL (R352): A remote PUT_SIGNAL writes its bytes and then adds 1 to the signal word. -/
  | putSignal (r : RemoteReq) (bytes : List Byte)
  /-- REMOTE_RESPONSE (R351): A response ends an outstanding remote operation; a late response is discarded. -/
  | remoteResponse (tag : Nat) (status : BitVec 16) (arg : Word) (bytes : List Byte)
  /-- RESP_TIMEOUT (R351): RESP_US passes without a response, and the operation ends with GLK_RESP_TIMEOUT. -/
  | respTimeout (tag : Nat)
  /-- BUSY_RETRY (R350): BUSY_NS after a GLK_BUSY answer, the operation is sent again. -/
  | busyRetry (tag : Nat)
  /-- FLOW_MOVE (R344): A flow's outstanding operations finish after its route's ACTIVE ports change, and the flow moves to its new port. -/
  | flowMove (f : FlowKey)
  /-- COLL_TIMEOUT (R356): A collective phase is not complete within the TC1 limit; it ends with GLK_COLL_TIMEOUT and the step commits nothing. -/
  | collTimeout (coll : Nat)
  /-- REEL_SLOT (R363): A Reel slot boundary refills buckets and makes the slot's flows eligible. -/
  | reelSlot
  /-- SHAPER_WRITE (R365): A write to SHP_TC_SHAPE takes effect at the next slot boundary, and flows are recomputed. -/
  | shaperWrite (k : Nat) (w : Word)
  /-- GATE_ENTRY_END (R366): A gate entry's interval ends, and the next entry, the hold or the repeat begins. -/
  | gateEntryEnd (n : Nat)
  /-- GATE_SWAP_REQUEST (R371): A write of PEND = 1 asks for the gate banks to swap at the next anchor. -/
  | gateSwapRequest (n : Nat) (w : Word)
  /-- GATE_ENABLE (R367): A write to SHP_GATE_CTL.EN enables the gates from the next anchor, or opens every gated class at once. -/
  | gateEnable (n : Nat) (w : Word)
  /-- MOVE_CHANNEL_GRANT (R374): A channel frees, and a waiting MOVE takes it and starts. -/
  | moveChannelGrant (mover : Nat) (host : List Byte)
  /-- MOVE_COMPLETE (R382): A MOVE's writes or remote PUT responses are all done, and its record is written. -/
  | moveComplete (mover chan : Nat)
  /-- MOVER_READ_FAULT (R384): A mover's read-ahead read faults; the mover enters STOPPING and discards its read-ahead data. -/
  | moverReadFault (mover : Nat) (st : BitVec 16) (done : List Nat)
  /-- MOVER_STOP_DRAINED (R384): The issued writes complete, the stopped MOVEs write their records, BMV_MOVER_STOP is posted, and the mover returns to RUN. -/
  | moverStopDrained (mover : Nat)
  /-- MOVER_WRITE_FAULT (R385): A write fault stops one channel, and its MOVE completes with the status. -/
  | moverWriteFault (mover chan : Nat) (st : BitVec 16) (done : Nat)
  /-- MOVER_RESET (R387): BMV_MOVER_CMD RESET stops a mover's MOVEs with BMV_RESET and returns the mover to RUN. -/
  | moverReset (mover : Nat) (done : List Nat)
  /-- MAP_LOG_RECORD (R396): A spread map log record is applied, fetched up to, or causes a whole-region copy, and is forwarded by fanout. -/
  | mapLogRecord (src : Nat) (words : List Word)
  /-- SURVEY_ROUND (R397): Each PERIOD_US, a controller sends its epoch to the next entry. -/
  | surveyRound
  /-- SURVEY_EPOCH (R397): A survey epoch arrives; a receiver that is behind fetches, and one that is ahead pushes its records. -/
  | surveyEpoch (src : Nat) (epoch : Nat)
  /-- DTM_JOIN (R395): A write of DTM_CTL.JOIN = 1 starts copying the map region and log from SEED. -/
  | dtmJoin (w : Word)
  /-- JOIN_COPY_DONE (R395): The copy from SEED completes, and the controller takes SEED's epoch. -/
  | joinCopyDone (epoch : Nat) (entries : List (Nat × List Word)) (log : List (List Word)) (ok : Bool)
  /-- JOIN_TIMEOUT (R395): SEED fails to answer within 100 ms, and ERR is set with DTM_JOIN_FAIL. -/
  | joinTimeout
  /-- RENEW_TIMER (R405): Every RENEW_US, a controller sends RENEW to each home it depends on. -/
  | renewTimer
  /-- RENEW (R405): A home receives a RENEW and answers it, noting TWIN_LOSS or answering DTM_LEASE_REVOKED. -/
  | renew (epoch : Nat) (words : List Word)
  /-- LEASE_LAPSE (R405): A holder's lease passes 0.9 × LEN_US without renewal, and it stops writing. -/
  | leaseLapse (home : Nat)
  /-- HOLDER_EXPIRY (R411): At a home, both members of a pair have lapsed; their records are released and DTM_REQUEST_LOST is posted. -/
  | holderExpiry (node : Nat)
  /-- QUERY (R407): A home answers a QUERY with the record's owner and lease epoch. -/
  | query (epoch : Nat) (words : List Word)
  /-- ANSWER (R412): An ANSWER arrives, and the asker serves or stops serving the request. -/
  | answer (src : Nat) (words : List Word)
  /-- QUERY_TIMEOUT (R412): No ANSWER arrives within LEN_US, and the QUERY is sent again. -/
  | queryTimeout (req : Nat)
  /-- CLAIM (R409): A home receives a CLAIM for a twin's requests and refuses it, or revokes the twin. -/
  | claim (epoch : Nat) (words : List Word)
  /-- BUCKET_COPY (R404): After MOVING is set, the old home copies the bucket's records to NEXT by takes. -/
  | bucketCopy (bucket : Nat)
  /-- TRAVERSE_OPEN (R419): A Traverse trigger starts a transit record, a pin and an OPEN, up to 256 Traverses at once. -/
  | traverseOpen (t : TraverseTrigger)
  /-- OPEN (R419): A destination leader checks an OPEN, records it and answers ACCEPT or a refusal. -/
  | openMsg (hdr : List Word) (rec : List Word)
  /-- ACCEPT (R419): The source leader receives ACCEPT, or a refusal that makes it try the next group or abandon. -/
  | accept (hdr : List Word)
  /-- OPEN_TIMEOUT (R419): No ACCEPT arrives within LEG_US, and OPEN is sent again. -/
  | openTimeout (req : Nat)
  /-- LEG_RESERVE_RETRY (R426): A frame is freed, or 100 µs pass, and the destination asks again for the frames a leg still needs. -/
  | legReserveRetry (req : Nat)
  /-- LEG_RESERVE_STALL (R426): A leg's frames are not reserved within STALL_MS, and ABANDON with TRV_NO_FRAMES is sent. -/
  | legReserveStall (req : Nat)
  /-- LEG_REQ (R426): A source member checks a LEG_REQ and PUTs the pages followed by LEG_REPLY. -/
  | legReq (hdr : List Word) (entries : List Word) (flash : List (Option (List Byte)))
  /-- LEG_REPLY (R426): The destination receives the reply, decodes coded data, and commits a leg take. -/
  | legReply (hdr : List Word) (entries : List Word) (coded : List Byte)
  /-- LEG_TIMEOUT (R428): No reply arrives within LEG_US, and the LEG_REQ is sent to the source's twin, alternating between the two. -/
  | legTimeout (req seq : Nat)
  /-- COUNT_ENTRY (R423): Count-table entries arrive and are inserted into the destination slice's table. -/
  | countEntry (req srcSlot : Nat) (entries : List Word) (last : Bool)
  /-- DONE (R430): The destination leader collects DONE from every member and builds the closing take. -/
  | doneMsg (hdr : List Word)
  /-- OWNED (R431): A destination member writes E + 1 into its root and takes the request into rosters. -/
  | owned (hdr : List Word)
  /-- RELEASE (R431): A source member or outside holder frees the request's frames and root, or keeps them unpinned. -/
  | release (hdr : List Word)
  /-- ABANDON (R432): The destination frees the request's frames, reservations and root; at the source leader, it abandons the Traverse. -/
  | abandon (hdr : List Word)
  /-- TRAVERSE_DEST_RETRY (R416): Every STALL_MS, a held source leader tries again to find a destination. -/
  | traverseDestRetry (req : Nat)
  /-- AUTO_PARK (R418): A request held for KVA_POOL_EMPTY for AUTO_PARK_MS is ended with TRV_PARKED and parked. -/
  | autoPark (req : Nat)
  /-- BEAT_SEND (R437): Every 1,600 FAB cycles, a member sends a heartbeat beat to its twin. -/
  | beatSend
  /-- BEAT (R437): A valid beat arrives, clears the miss count, and conveys the twin's state and YIELD. -/
  | beat (sideband : Bool) (w : Word)
  /-- BEAT_MISS (R438): 1,600 FAB cycles pass without a valid beat, and a miss is counted. -/
  | beatMiss
  /-- PROBE_REPLY (R446): A probe is answered; the sideband fault is noted, or the pair becomes DETACHED. -/
  | probeReply (r : ProbeAnswer)
  /-- PROBE_TIMEOUT (R446): Neither probe is answered within 2 µs, and the takeover starts. -/
  | probeTimeout
  /-- MIRROR_RECORD (R441): The twin applies a mirror record in MSEQ order and acknowledges it. -/
  | mirrorRecord (hdr : List Word) (body : MirrorBody)
  /-- MIRROR_ACK_TIMEOUT (R444): A mirror record goes unacknowledged for ACK_US, and the member holds and probes. -/
  | mirrorAckTimeout
  /-- CON_ENABLE (R458): A write to CON_CTL.EN starts or stops Continuity and its beats. -/
  | conEnable (w : Word)
  /-- YIELD (R452): CON_CMD YIELD hands every request to the twin in a planned handover. -/
  | yield
  /-- REINTEGRATE (R453): CON_CMD REINTEGRATE starts supplying state to a returning twin. -/
  | reintegrate (crcMatch : Bool)
  /-- REINT_BULK_DONE (R453): The bulk copy ends and the replay passes begin. -/
  | reintBulkDone
  /-- REINT_REPLAY_PASS_DONE (R453): A replay pass ends; another pass runs, or the cutover starts. -/
  | reintReplayPassDone
  /-- AUDIT_TICK (R456): In compare mode, a frame is audited by CRC against its mirror. -/
  | auditTick
  /-- COMPARE_PROBE (R457): Every PERIOD_MS, the probe kernel runs and its CRC is checked against EXPECT. -/
  | compareProbe (crc : BitVec 32)
  /-- DROOP_TRIP (R466): A droop sensor trips, and CORE runs at 1.05 GHz. -/
  | droopTrip (site : Nat)
  /-- DROOP_CLEAR (R466): Every sensor clears, and the 200 ns recovery wait starts. -/
  | droopClear
  /-- DROOP_RECOVERY (R466): The recovery wait ends, and CORE returns to its former rate. -/
  | droopRecovery
  /-- POWER_WINDOW (R469): A power-estimate window ends, and TRIM is entered or left. -/
  | powerWindow (watts : Nat)
  /-- IDLE_GATE (R470): A CORE unit has no work for IDLE_US, and its clock is gated. -/
  | idleGate (u : CoreUnit)
  /-- HOLD (R471): CLK_PSTATE_CMD HOLD enters HOLD, or is refused. -/
  | hold
  /-- RESUME (R471): CLK_PSTATE_CMD RESUME returns the controller to FULL. -/
  | resume
  /-- CONTROLLER_RESET (R473): CLK_RESET_CMD CONTROLLER with the right KEY starts a controller reset. -/
  | controllerReset (w : Word)
  /-- CRST_FALL (R531): A falling edge of CRST_N starts a controller reset. -/
  | crstFall
  /-- CONTROLLER_FAULT (R472): Once a controller fault's error record is written, a controller reset starts. -/
  | controllerFault (cause : BitVec 16)
  /-- PORST (R472): PORST_N is asserted, or power comes up, and a power-on reset starts. -/
  | porst
  /-- PORST_RELEASE (R535): PORST_N is released, the straps are sampled, and the ROM starts. -/
  | porstRelease (busSel : Bool) (addr : BitVec 3) (coresPass : BitVec 4)
  /-- RAIL_FAULT (R534): A rail lies outside its monitor thresholds for 1 µs, and a power-on reset is held. -/
  | railFault (rail : Rail)
  /-- RAIL_RECOVERY (R534): Every rail has been within its limits for 100 µs, and the power-on reset ends. -/
  | railRecovery
  /-- HBM_CHECK (R476): CLK_HBM_CMD CHECK forms granule CRCs and asks the twin for its CRCs. -/
  | hbmCheck (first countM1 : Nat)
  /-- HBM_CHECK_REPLY (R476): The twin's CRC arrives, and the granule leaves the suspect state or stays suspect. -/
  | hbmCheckReply (r : Option (BitVec 32))
  /-- HBM_CHECK_CRC_REQUEST (R476): A twin computes a granule CRC at scrub priority for its partner. -/
  | hbmCheckCrcRequest (granule : Nat)
  /-- HBM_CLEAR (R476): CLK_HBM_CMD CLEAR writes granules with zeros and valid check bits. -/
  | hbmClear (first countM1 : Nat)
  /-- HBM_CLEAR_DONE (R476): The granules leave the suspect state, and BUSY clears. -/
  | hbmClearDone
  /-- STACK_TEMP_POLL (R536): Every 1 ms, each stack's temperature sensor is read. -/
  | stackTempPoll (temps : List Nat)
  /-- THERMAL_ALERT (R537): A sensor reaches its alert level; THERM_ALERT_N falls and TRIM is entered. -/
  | thermalAlert (dieT : List Nat) (stackT : List Nat)
  /-- THERMAL_ALERT_CLEAR (R537): The temperatures fall below their clear levels, and the alert ends. -/
  | thermalAlertClear (dieT : List Nat) (stackT : List Nat)
  /-- THERMAL_TRIP (R539): A trip temperature is reached; the transmitters and beats stop and THERM_TRIP_N falls. -/
  | thermalTrip
  /-- BOOT_GO (R482): SEC_BOOT_CMD GO starts fetching and checking the boot bundle. -/
  | bootGo
  /-- IMAGE_FETCH_DONE (R484): A boot image is read and checked, and boot continues to its next stage. -/
  | imageFetchDone (img : BootImage)
  /-- PRELOCK_BAR0_ACCESS (R481): Before the lock, a host BAR0 access outside the boot registers gets Unsupported Request; a write is counted. -/
  | prelockBar0Access (a : RegAccess) (write : Bool)
  /-- PROT_WINDOW_WRITE (R494): A write to the protection window or a BW register after the lock is ignored and logged with SEC_LOCKED. -/
  | protWindowWrite (a : RegAccess) (w : Word)
  /-- SPDM_GET_VERSION (R499): The SPDM responder answers GET_VERSION. -/
  | spdmGetVersion
  /-- SPDM_GET_CAPABILITIES (R499): The SPDM responder answers GET_CAPABILITIES. -/
  | spdmGetCapabilities
  /-- SPDM_NEGOTIATE_ALGORITHMS (R499): The SPDM responder answers NEGOTIATE_ALGORITHMS with P-521 and SHA-512. -/
  | spdmNegotiateAlgorithms (offersP521 offersSha512 : Bool)
  /-- SPDM_GET_DIGESTS (R499): The SPDM responder returns certificate digests. -/
  | spdmGetDigests
  /-- SPDM_GET_CERTIFICATE (R499): The SPDM responder returns the slot 0 certificate chain. -/
  | spdmGetCertificate (slot offset length : Nat)
  /-- SPDM_CHALLENGE (R499): The SPDM responder answers CHALLENGE with a measurement summary. -/
  | spdmChallenge (slot : Nat) (nonce : List Byte)
  /-- SPDM_GET_MEASUREMENTS (R499): The SPDM responder returns signed measurements. -/
  | spdmGetMeasurements (index : Nat) (nonce : List Byte)
  /-- ERROR_RECORD_WRITE (R507): A queued error record is written to its NVS slot, or merged into the newest record. -/
  | errorRecordWrite
  /-- REFETCH_RANGE_DATA (R511): A re-fetched range arrives, is checked and written, and the held requests are released after the last range. -/
  | refetchRangeData (tensor offset : Nat) (bytes : List Byte) (blocksOk : Bool)
  /-- REFETCH_FAIL (R512): The re-fetch fails or has no answer within 1 ms, and RAS_REFETCH_FAIL is posted. -/
  | refetchFail (tensor offset : Nat)
  /-- REGISTER_WRITE (R543): A BAR0 write to a register with no row of its own takes effect by its fields' access types. -/
  | registerWrite (a : RegAccess) (w : Word)
  /-- RC_FIELD_READ (R545): A read of a read-clear field returns its count and clears it. -/
  | rcFieldRead (a : RegAccess)
  /-- BAR0_UNSUPPORTED (R543): An undecoded, narrow or unaligned BAR0 access gets Unsupported Request. -/
  | bar0Unsupported (a : RegAccess) (write : Bool)
  /-- CRST_RELEASE (R531): CRST_N rises after being held low, and step 6 of the controller reset (the boot ROM) may begin. -/
  | crstRelease
  /-- CREDIT_FRAME_INTERVAL (R341): A receiver sends a CREDIT frame at least every 100 ns while it owes an acknowledgement, and at least every 1 µs otherwise. -/
  | creditFrameInterval (n : Nat)
  /-- FRAME_ON_WIRE_FINISHES (R348): The frame on a port's wire finishes, and the port picks its next frame by class order, gate window and credits. -/
  | frameOnWireFinishes (n : Nat)
  /-- CANCEL_REACHES_OWNER (R117): A REQ_CANCEL forwarded through the home reaches the owning group's leader, which marks the cancel pending and holds the request. -/
  | cancelReachesOwner (req node : Nat) (src : DescKey)
  /-- CLAIM_RESEND (R408): A RENEW or CLAIM sent to a home that failed before answering goes unanswered for the TC0 response limit and is sent again to the new home. -/
  | claimResend (home seq : Nat)
  deriving DecidableEq, Repr

end Sys2Proof
end

