-- ==== Sys2Proof/Decode.lean ====
section
/-! DEFINITION. The command a table word spells. The table of operations and events gives no row any bits: its rows are
events on rings, links, registers and pins, not words. -/

namespace Sys2Proof

/-- The command that a word of the table's bits spells: none, because no row of opcode_table.json has bits. -/
def decodeTableWord (_nbits _w : Nat) : Option Instr := none

end Sys2Proof
end

