-- ==== Sys2Proof/Config.lean ====
section
/-! DEFINITION. What an implementation fixes and the manual leaves open: opaque constants (free values). -/

namespace Sys2Proof.Config

open Sys2Proof

/-- The interpolation error of log2(1 + f), in units of 2^-32 lb (R46 bounds it by 2^-18 lb and does not give it). -/
opaque log2Error : Nat → Int

/-- The error, in steps, of the correction log2(1 + 2^-d) that lsum adds for a difference of `d` steps at `frac`
fractional bits (R45 bounds it and does not give it). -/
opaque lsumError : Nat → Nat → Int

/-- A detail word of an event whose chapter defines none (R79), by a number that no two events share. -/
opaque eventDetail : Nat → Word

/-- DETAIL of a completion record whose opcode defines none for it (R76), by the descriptor's identifier. -/
opaque recordDetail : Nat → Word

/-- Item `i` of what the attention unit computes in one pass over a row's pages, by a number that no two passes share: the
rounded sums depend on an order of products and on approximations that the manual does not give (R242, R243). -/
opaque attention : Nat → Nat → F32

/-- log2(−ln U) in L32 steps as the sampler forms it, by r, the generator's 24 bits: R267 forms it by two passes of R46, whose
interpolation error the manual bounds and does not give. -/
opaque gumbel : Nat → Int

/-- Accumulation `i` of a kernel run, where its FP32 additions round: R163 and R169 leave the tree inside a block unstated. -/
opaque mxeSum : Nat → Nat → F32

/-- A result of an epilogue operation that R168 only bounds (SiLU, GELU, rotary, norms), or an epilogue operand in an MX
format, whose place in memory the manual does not give: by run, operation and element. -/
opaque mxeApprox : Nat → Nat → Nat → F32

/-- A byte of an MX output tensor, whose element and scale places in memory the manual does not give: by run and address. -/
opaque mxeByte : Nat → Nat → Byte

/-- The generator's 16-bit value for a stochastic rounding, by seed and element index (R49 does not name the generator). -/
opaque mxeRandom : Nat → Nat → BitVec 16

/-- The hash of a destination and class by which a flow picks its port: fixed for the part and not given (R344). -/
opaque routeHash : Nat → Nat → Nat

/-- The local offset of the signal word, and the PUT_SIGNALs it must count, of the collective phase with this number: the step
program gives both, and the manual does not (R355). -/
opaque collSignal : Nat → Nat
opaque collCount : Nat → Nat

/-- SPEC_HEADS of a loaded model, by handle: the image carries it and the manual does not give where (R74). -/
opaque specHeads : Nat → Nat

/-- Whether an AUTO Traverse of a request that opened under a lease epoch runs as MOVE: whether every destination member could
reserve frames for every outside page (R415), which no command tells the controllers that lead it. -/
opaque autoMoves : Nat → Nat → Bool

/-- Length in tokens of the prefix that an outside holder keeps, by request and lease epoch: the transit record has no field for
it (R420), and a destination member needs it to know which group holds a page (R415). -/
opaque outsideLen : Nat → Nat → Nat

/-- The error of a pooled sum or pre-sum, in units of 2^-298, by a number that no two sums share: FP32 additions in an order that
is not fixed (R286, R289); the model keeps it within the bound of R286. -/
opaque gthError : Nat → Int

/-- An element of the pre-sum of an UPDATE where its FP32 additions round: the manual states no bound for it (R289). -/
opaque gthSum : Nat → F32

/-- MiB of HBM that the merge buffers take behind the flash map (R320 gives no size). -/
opaque mergeMib : Nat

end Sys2Proof.Config
end

