-- ==== Sys2Proof/Machine/Bits.lean ====
section
/-! DEFINITION. Bit fields of words, little-endian packing (R17), keyed tables and small list helpers. -/

namespace Sys2Proof.Machine

open Sys2Proof

/-- The field [lo + width - 1 : lo] of a word, as a number (R17). -/
def fld (w : Word) (lo width : Nat) : Nat := (w.toNat >>> lo) % 2 ^ width

/-- The field [hi:lo] of a word, written as the tables of the manual write it. -/
def bits (w : Word) (hi lo : Nat) : Nat := fld w lo (hi + 1 - lo)

/-- Bit `i` of a word. -/
def bit (w : Word) (i : Nat) : Bool := w.getLsbD i

/-- A word with the field [lo + width - 1 : lo] replaced by `v` modulo the field's size. -/
def setFld (w : Word) (lo width v : Nat) : Word :=
  (w &&& ~~~(BitVec.ofNat 64 ((2 ^ width - 1) <<< lo))) ||| BitVec.ofNat 64 ((v % 2 ^ width) <<< lo)

/-- A word with bit `i` set to `b`. -/
def setBit (w : Word) (i : Nat) (b : Bool) : Word := setFld w i 1 b.toNat

/-- A number placed at bit `lo` of an otherwise zero word. -/
def at' (lo width v : Nat) : Word := BitVec.ofNat 64 ((v % 2 ^ width) <<< lo)

/-- The word a list of (low bit, width, value) fields spells. -/
def mkWord (fs : List (Nat × Nat × Nat)) : Word :=
  fs.foldl (fun w f => w ||| at' f.1 f.2.1 f.2.2) 0

/-- The number of set bits among the low `n` bits of `v`. -/
def popcount (v : Nat) : Nat → Nat
  | 0 => 0
  | n + 1 => popcount v n + (v.testBit n).toNat

/-- The indexes of the set bits among the low `n` bits of `v`, rising. -/
def setBits (v n : Nat) : List Nat := (List.range n).filter (fun i => v.testBit i)

/-- The signed value of an `n`-bit two's-complement field. -/
def signed (n v : Nat) : Int := if 2 * v < 2 ^ n then (v : Int) else (v : Int) - (2 : Int) ^ n

/-- The `n`-bit two's-complement code of an integer. -/
def unsigned (n : Nat) (v : Int) : Nat := (v % (2 : Int) ^ n).toNat

/-- Ceiling of a quotient. -/
def ceilDiv (a b : Nat) : Nat := (a + b - 1) / b

/-- `v` rounded up to a multiple of `k`. -/
def roundUp (v k : Nat) : Nat := ceilDiv v k * k

/-- A quotient rounded to nearest, ties to even (R48). -/
def rneDiv (a b : Nat) : Nat :=
  let q := a / b
  let r := a % b
  if 2 * r < b then q else if 2 * r = b then (if q % 2 = 0 then q else q + 1) else q + 1

/-- An integer quotient by a positive divisor rounded to nearest, ties to even (R48). -/
def rneDivInt (a : Int) (b : Nat) : Int :=
  if a < 0 then -((rneDiv a.natAbs b : Nat) : Int) else ((rneDiv a.natAbs b : Nat) : Int)

/-- The number a list of bytes spells, lowest address first (R17). -/
def bytesNat : List Byte → Nat
  | [] => 0
  | b :: bs => b.toNat + 256 * bytesNat bs

/-- The `n` low bytes of a number, lowest address first (R17). -/
def natBytes : Nat → Nat → List Byte
  | 0, _ => []
  | n + 1, v => BitVec.ofNat 8 v :: natBytes n (v / 256)

/-- A word's eight bytes (R17). -/
def wordBytes (w : Word) : List Byte := natBytes 8 w.toNat

/-- The words that a list of 8 n bytes holds. -/
def bytesWords : Nat → List Byte → List Word
  | 0, _ => []
  | n + 1, bs => BitVec.ofNat 64 (bytesNat (bs.take 8)) :: bytesWords n (bs.drop 8)

/-- The bytes of a list of words. -/
def wordsBytes (ws : List Word) : List Byte := ws.flatMap wordBytes

/-- Word `i` of a structure read as a list of words; a word that is not there reads zero. -/
def wordAt (ws : List Word) (i : Nat) : Word := ws.getD i 0

/-! ### Keyed tables -/

/-- The value at a key, if the table lists it. -/
def tget {α : Type} (t : Tbl α) (k : Nat) : Option α := (t.find? (fun p => p.1 == k)).map (fun p => p.2)

/-- A table without its entry at a key. -/
def tdel {α : Type} (t : Tbl α) (k : Nat) : Tbl α := t.filter (fun p => p.1 != k)

/-- The pair put before the first larger key. -/
def tins {α : Type} (k : Nat) (v : α) : Tbl α → Tbl α
  | [] => [(k, v)]
  | p :: t => if k < p.1 then (k, v) :: p :: t else p :: tins k v t

/-- A table with the value `v` at key `k`, whatever stood there. -/
def tset {α : Type} (t : Tbl α) (k : Nat) (v : α) : Tbl α := tins k v (tdel t k)

/-- The value at a key, or a default. -/
def tgetD {α : Type} (t : Tbl α) (k : Nat) (d : α) : α := (tget t k).getD d

/-- A table with the value at `k` changed by `f`, where it is listed. -/
def tmod {α : Type} (t : Tbl α) (k : Nat) (f : α → α) : Tbl α :=
  match tget t k with
  | some v => tset t k (f v)
  | none => t

/-- Whether a key is listed. -/
def thas {α : Type} (t : Tbl α) (k : Nat) : Bool := (tget t k).isSome

/-- A table with every value changed. -/
def tmap {α : Type} (f : Nat → α → α) (t : Tbl α) : Tbl α := t.map (fun p => (p.1, f p.1 p.2))

/-- The keys of a table. -/
def tkeys {α : Type} (t : Tbl α) : List Nat := t.map (fun p => p.1)

/-- The values of a table. -/
def tvals {α : Type} (t : Tbl α) : List α := t.map (fun p => p.2)

/-- The entries that a test keeps. -/
def tkeep {α : Type} (f : Nat → α → Bool) (t : Tbl α) : Tbl α := t.filter (fun p => f p.1 p.2)

/-- The canonical form: keys strictly rising. -/
def twf {α : Type} : Tbl α → Bool
  | [] => true
  | p :: t => t.all (fun q => p.1 < q.1) && twf t

/-! ### Lists -/

/-- The first element with the least key. -/
def minBy {α : Type} (f : α → Nat) : List α → Option α
  | [] => none
  | x :: xs =>
    match minBy f xs with
    | none => some x
    | some y => if f x ≤ f y then some x else some y

/-- A list with an element put in before the first element that ranks after it; equal ranks keep arrival order. -/
def insertBy {α : Type} (lt : α → α → Bool) (x : α) : List α → List α
  | [] => [x]
  | y :: ys => if lt x y then x :: y :: ys else y :: insertBy lt x ys

/-- A stable sort by insertion. -/
def sortBy {α : Type} (lt : α → α → Bool) (l : List α) : List α := l.foldl (fun acc x => insertBy lt x acc) []

/-- Sum of a list of numbers. -/
def sumNat (l : List Nat) : Nat := l.foldl (· + ·) 0

/-- The least number of 0 … n-1 that a test accepts. -/
def firstFree (n : Nat) (f : Nat → Bool) : Option Nat := (List.range n).find? f

/-- The next number after `last`, going round 0 … n-1, that a test accepts (round robin). -/
def nextRound (n last : Nat) (f : Nat → Bool) : Option Nat :=
  ((List.range n).map (fun i => (last + 1 + i) % n)).find? f

/-- A list cut into pieces of `k` elements, at most `n` of them. -/
def chunks {α : Type} (k : Nat) : Nat → List α → List (List α)
  | 0, _ => []
  | n + 1, l => if l.isEmpty then [] else l.take k :: chunks k n (l.drop k)

end Sys2Proof.Machine
end

