-- ==== Sys2Proof/Machine/Num.lean ====
section
/-! DEFINITION. Number formats and the logarithmic domain (chapter "Number formats and the logarithmic domain"). -/

namespace Sys2Proof.Machine

open Sys2Proof

/-! ### Linear formats (R34–R36) -/

/-- One row of R34's table: field widths, bias, largest finite code and the code of a NaN made by a conversion (R35). -/
structure FloatFmt where
  man : Nat
  exp : Nat
  bias : Nat
  maxCode : Nat
  infCode : Option Nat
  nanCode : Option Nat
  deriving DecidableEq, Repr

/-- FP32 (R34). -/
def fmtF32 : FloatFmt := ⟨23, 8, 127, 0x7F7FFFFF, some 0x7F800000, some 0x7FC00000⟩
/-- BF16 (R34, R35: canonical NaN 0x7FC0). -/
def fmtBF16 : FloatFmt := ⟨7, 8, 127, 0x7F7F, some 0x7F80, some 0x7FC0⟩
/-- FP8 E4M3 (R34: largest finite 448, no infinity, NaN S.1111.111). -/
def fmtE4M3 : FloatFmt := ⟨3, 4, 7, 0x7E, none, some 0x7F⟩
/-- FP8 E5M2 (R34: largest finite 57,344, an infinity, R35's NaN 0x7E). -/
def fmtE5M2 : FloatFmt := ⟨2, 5, 15, 0x7B, some 0x7C, some 0x7E⟩
/-- MXFP6 E3M2 element (R34). -/
def fmtE3M2 : FloatFmt := ⟨2, 3, 3, 0x1F, none, none⟩
/-- MXFP6 E2M3 element (R34). -/
def fmtE2M3 : FloatFmt := ⟨3, 2, 1, 0x1F, none, none⟩
/-- MXFP4 E2M1 element (R34). -/
def fmtE2M1 : FloatFmt := ⟨1, 2, 1, 0x7, none, none⟩

/-- What an FP32 code holds: a finite value is ±m × 2^e. -/
inductive F32Val where
  | fin (neg : Bool) (m : Nat) (e : Int)
  | inf (neg : Bool)
  | nan
  deriving DecidableEq, Repr

/-- The value of an FP32 code; subnormals are honoured (R34, R36). -/
def f32Val (x : F32) : F32Val :=
  let neg := x.getLsbD 31
  let ex := (x.toNat >>> 23) % 256
  let mn := x.toNat % 2 ^ 23
  if ex = 255 then (if mn = 0 then .inf neg else .nan)
  else if ex = 0 then .fin neg mn (-149)
  else .fin neg (2 ^ 23 + mn) ((ex : Int) - 150)

/-- The magnitude m × 2^e shifted to the quantum 2^q and rounded to nearest even (R48). -/
def roundAt (m : Nat) (e q : Int) : Nat :=
  if q ≤ e then m <<< (e - q).toNat else rneDiv m (2 ^ (q - e).toNat)

/-- The magnitude code, before any limit, of m × 2^e in a format with `man` mantissa bits and the given bias:
subnormals are produced (R36) and a carry out of the mantissa runs into the exponent. -/
def roundMag (man bias : Nat) (m : Nat) (e : Int) : Nat :=
  if m = 0 then 0
  else
    let emin : Int := 1 - (bias : Int)
    let x : Int := max ((Nat.log2 m : Int) + e) emin
    ((x - emin).toNat <<< man) + roundAt m e (x - man)

/-- The magnitude code of m × 2^e under R35's limits, and whether the value was above the largest finite one. -/
def narrowMag (f : FloatFmt) (m : Nat) (e : Int) : Nat × Bool :=
  let c := roundMag f.man f.bias m e
  if c ≤ f.maxCode then (c, false)
  else
    match f.infCode with
    | some i => (if f = fmtBF16 ∨ f = fmtF32 then i else f.maxCode, true)
    | none => (f.maxCode, true)

/-- The code of a signed magnitude. -/
def withSign (f : FloatFmt) (neg : Bool) (c : Nat) : Nat := neg.toNat * 2 ^ (f.man + f.exp) + c

/-- An FP32 code narrowed to a format (R35). A NaN goes to the format's NaN; an MX element has none (its block's scale
says it) and is written zero (R37). -/
def narrow (f : FloatFmt) (x : F32) : Nat :=
  match f32Val x with
  | .fin neg m e => withSign f neg (narrowMag f m e).1
  | .inf neg => withSign f neg (f.infCode.getD f.maxCode)
  | .nan => f.nanCode.getD 0

/-- A signed exact value m × 2^e rounded to an FP32 code (R39, R48). -/
def toF32 (v : Int) (e : Int) : F32 :=
  BitVec.ofNat 32 (withSign fmtF32 (decide (v < 0)) (narrowMag fmtF32 v.natAbs e).1)

/-- The integer that a finite value is at the quantum 2^q, for q at most the value's own exponent. -/
def scaledInt (neg : Bool) (m : Nat) (e q : Int) : Int :=
  let v : Int := ((m <<< (e - q).toNat : Nat) : Int)
  if neg then -v else v

/-- The canonical FP32 NaN. -/
def f32NaN : F32 := 0x7FC00000#32

/-- FP32 addition, rounded to nearest even (R39, R48). -/
def f32Add (x y : F32) : F32 :=
  match f32Val x, f32Val y with
  | .nan, _ => f32NaN
  | _, .nan => f32NaN
  | .inf a, .inf b => if a = b then x else f32NaN
  | .inf _, _ => x
  | _, .inf _ => y
  | .fin a m e, .fin b n g =>
    let q := min e g
    let s := scaledInt a m e q + scaledInt b n g q
    if s = 0 then (if a && b then 0x80000000#32 else 0#32) else toF32 s q

/-- FP32 multiplication, rounded to nearest even (R48). -/
def f32Mul (x y : F32) : F32 :=
  let neg := x.getLsbD 31 != y.getLsbD 31
  match f32Val x, f32Val y with
  | .nan, _ => f32NaN
  | _, .nan => f32NaN
  | .inf _, .inf _ => BitVec.ofNat 32 (withSign fmtF32 neg 0x7F800000)
  | .inf _, .fin _ m _ => if m = 0 then f32NaN else BitVec.ofNat 32 (withSign fmtF32 neg 0x7F800000)
  | .fin _ m _, .inf _ => if m = 0 then f32NaN else BitVec.ofNat 32 (withSign fmtF32 neg 0x7F800000)
  | .fin _ m e, .fin _ n g => BitVec.ofNat 32 (withSign fmtF32 neg (narrowMag fmtF32 (m * n) (e + g)).1)

/-- An FP32 value times 2^k: an exponent adjustment (R39, "Flush rules and error bounds"). -/
def f32Scale (x : F32) (k : Int) : F32 :=
  match f32Val x with
  | .fin neg m e => BitVec.ofNat 32 (withSign fmtF32 neg (narrowMag fmtF32 m (e + k)).1)
  | .inf _ => x
  | .nan => f32NaN

/-- Whether an FP32 code is a NaN. -/
def f32IsNaN (x : F32) : Bool := f32Val x == .nan

/-- Whether an FP32 code is ±infinity. -/
def f32IsInf (x : F32) : Bool := (x.toNat % 2 ^ 31) == 0x7F800000

/-- FP32 comparison x < y of two codes that are not NaN, by sign and magnitude. -/
def f32Lt (x y : F32) : Bool :=
  let v (c : F32) : Int := if c.getLsbD 31 then -((c.toNat % 2 ^ 31 : Nat) : Int) else (c.toNat : Int)
  decide (v x < v y)

/-- The value of a code of a narrow format as an FP32 code (R34); E4M3's and E5M2's special codes included. -/
def widen (f : FloatFmt) (c : Nat) : F32 :=
  let neg := c.testBit (f.man + f.exp)
  let mag := c % 2 ^ (f.man + f.exp)
  let ex := mag >>> f.man
  let mn := mag % 2 ^ f.man
  if mag > f.maxCode then
    (if f.infCode = some mag then BitVec.ofNat 32 (withSign fmtF32 neg 0x7F800000) else f32NaN)
  else
    let m := if ex = 0 then mn else 2 ^ f.man + mn
    let e : Int := (max ex 1 : Int) - f.bias - f.man
    BitVec.ofNat 32 (withSign fmtF32 neg (narrowMag fmtF32 m e).1)

/-- Conversion into INT8: round to nearest even, saturate at −128 and +127 (R38); a NaN gives 0. -/
def toInt8 (x : F32) : Nat :=
  match f32Val x with
  | .fin neg m e =>
    let k := roundAt m e 0
    unsigned 8 (if neg then -((min k 128 : Nat) : Int) else ((min k 127 : Nat) : Int))
  | .inf neg => if neg then 0x80 else 0x7F
  | .nan => 0

/-- Stochastic rounding of a magnitude at the quantum 2^q (R49): `r` is the 16-bit value of the generator. -/
def stochAt (m : Nat) (e q : Int) (r : Nat) : Nat :=
  if q ≤ e then m <<< (e - q).toNat
  else
    let d := 2 ^ (q - e).toNat
    let f := (m % d) * 65536 / d
    if f + r ≥ 65536 then m / d + 1 else m / d

/-! ### Microscaling blocks (R37) -/

/-- The finite magnitude of an FP32 code as (m, e); an infinity or a NaN has none. -/
def f32Mag (x : F32) : Option (Nat × Int) :=
  match f32Val x with
  | .fin _ m e => some (m, e)
  | _ => none

/-- The largest FP32 magnitude code of a row: magnitudes order as their codes do. -/
def amaxCode (xs : List F32) : Nat := xs.foldl (fun a x => max a (x.toNat % 2 ^ 31)) 0

/-- The value of a magnitude code as (m, e). -/
def magOf (c : Nat) : Nat × Int :=
  let ex := c >>> 23
  let mn := c % 2 ^ 23
  if ex = 0 then (mn, -149) else (2 ^ 23 + mn, (ex : Int) - 150)

/-- An MX block quantised (R37): its E8M0 scale and its element codes. -/
def mxBlock (f : FloatFmt) (xs : List F32) : Nat × List Nat :=
  if xs.any f32IsNaN then (0xFF, xs.map (fun _ => 0))
  else
    let a := amaxCode xs
    if a = 0 then (0, xs.map (fun _ => 0))
    else
      let me := magOf (min a 0x7F7FFFFF)
      let emax : Int := if f = fmtE3M2 then 4 else 2
      let sc : Int := min 254 (max 0 ((Nat.log2 me.1 : Int) + me.2 - emax + 127))
      (sc.toNat, xs.map (fun x =>
        match f32Val x with
        | .fin neg m e => withSign f neg (narrowMag f m (e - (sc - 127))).1
        | .inf neg => withSign f neg f.maxCode
        | .nan => 0))

/-! ### Key and value rows (R40, R41) -/

/-- Whether m × 2^e ≤ lim × 2^(s/256), by comparing 256th powers. -/
def leScaled (m : Nat) (e : Int) (lim : Nat) (s : Int) : Bool :=
  let k : Int := 256 * e - s
  if 0 ≤ k then decide (m ^ 256 * 2 ^ k.toNat ≤ lim ^ 256) else decide (m ^ 256 ≤ lim ^ 256 * 2 ^ (-k).toNat)

/-- The smallest s of a range of `n` halvings above `lo` with the row's largest magnitude within the limit. -/
def searchScale (m : Nat) (e : Int) (lim : Nat) : Nat → Int → Int → Int
  | 0, _, hi => hi
  | n + 1, lo, hi =>
    let mid := (lo + hi) / 2
    if leScaled m e lim mid then searchScale m e lim n lo mid else searchScale m e lim n (mid + 1) hi

/-- R40's scale of a row: the smallest L16 code s with amax / 2^(s/256) ≤ 448, exact zero for a row of zeros. -/
def kv8Scale (a : Nat) : Nat :=
  if a = 0 then 0x8000
  else
    let me := magOf a
    unsigned 16 (searchScale me.1 me.2 448 16 (-32767) 32767)

/-- Whether ±m × 2^e divided by 2^(s/256) rounds to at least the E4M3 magnitude code `c`: the midpoint below `c` is
compared by 256th powers, a tie going to the even code (R48). -/
def kv8AtLeast (m : Nat) (e s : Int) (c : Nat) : Bool :=
  if c = 0 then true
  else
    -- the midpoint of codes c - 1 and c is (2 k + 1) × 2^(q - 1), where code c - 1 has the quantum 2^q
    let ex := (c - 1) >>> 3
    let mn := (c - 1) % 8
    let k := if ex = 0 then mn else 8 + mn
    let q : Int := (max ex 1 : Int) - 10
    let mid := 2 * k + 1
    -- compare m × 2^e with mid × 2^(q - 1) × 2^(s / 256)
    let d : Int := 256 * (e - q + 1) - s
    let l := if 0 ≤ d then m ^ 256 * 2 ^ d.toNat else m ^ 256
    let r := if 0 ≤ d then mid ^ 256 else mid ^ 256 * 2 ^ (-d).toNat
    if c % 2 = 0 then decide (r ≤ l) else decide (r < l)

/-- The E4M3 magnitude code of m × 2^e / 2^(s/256), rounded to nearest even and limited to 0x7E (R40). -/
def kv8Mag (m : Nat) (e s : Int) : Nat :=
  ((List.range 0x7E).filter (fun i => kv8AtLeast m e s (i + 1))).length

/-- One element of a KV8 row under scale code `s` (R40, R35). -/
def kv8Elem (s : Nat) (x : F32) : Byte :=
  if s = 0x8000 then 0
  else
    match f32Val x with
    | .fin neg m e => BitVec.ofNat 8 (withSign fmtE4M3 neg (if m = 0 then 0 else kv8Mag m e (signed 16 s)))
    | .inf neg => BitVec.ofNat 8 (withSign fmtE4M3 neg 0x7E)
    | .nan => 0x7F

/-- The finite part of a row's largest magnitude: what R40 and R41 choose a scale from. -/
def rowAmax (xs : List F32) : Nat :=
  xs.foldl (fun a x => if x.toNat % 2 ^ 31 < 0x7F800000 then max a (x.toNat % 2 ^ 31) else a) 0

/-- A KV8 row: its scale and its elements (R40). -/
def kv8Row (xs : List F32) : Nat × List Byte :=
  let s := kv8Scale (rowAmax xs)
  (s, xs.map (kv8Elem s))

/-- R41's scale code of a group with base exponent B: the smallest e with amax / 2^(B + e) ≤ 6, else 15 and saturation. -/
def kv4Scale (a : Nat) (base : Int) : Nat × Bool :=
  if a = 0 then (0, false)
  else
    let me := magOf a
    let ok (e : Nat) : Bool :=
      let k : Int := me.2 - base - e
      if 0 ≤ k then decide (me.1 * 2 ^ k.toNat ≤ 6) else decide (me.1 ≤ 6 * 2 ^ (-k).toNat)
    match firstFree 16 ok with
    | some e => (e, false)
    | none => (15, true)

/-- One element of a KV4 group with scale code `e` and base exponent B (R41, R35). -/
def kv4Elem (base : Int) (e : Nat) (x : F32) : Nat :=
  match f32Val x with
  | .fin neg m g => withSign fmtE2M1 neg (narrowMag fmtE2M1 m (g - base - e)).1
  | .inf neg => withSign fmtE2M1 neg 7
  | .nan => 0

/-- A KV4 group of 16 elements: scale code, element codes and whether it saturated (R41). -/
def kv4Group (base : Int) (xs : List F32) : Nat × List Nat × Bool :=
  let sc := kv4Scale (rowAmax xs) base
  if rowAmax xs = 0 then (0, xs.map (fun _ => 0), false) else (sc.1, xs.map (kv4Elem base sc.1), sc.2)

/-! ### The L formats (R43–R47) -/

/-- L16's exact zero (R43). -/
def l16Zero : Nat := 0x8000
/-- L32's exact zero (R43). -/
def l32Zero : Nat := 0x80000000

/-- An L result limited to `n` bits: saturated above, exact zero at or below the most negative code (R44). -/
def lSat (n : Nat) (v : Int) : Nat :=
  if v ≥ 2 ^ (n - 1) then 2 ^ (n - 1) - 1
  else if v ≤ -(2 : Int) ^ (n - 1) then 2 ^ (n - 1)
  else unsigned n v

/-- Product: sum of codes, zero when either operand is zero (R44). -/
def lMul (n a b : Nat) : Nat :=
  if a = 2 ^ (n - 1) ∨ b = 2 ^ (n - 1) then 2 ^ (n - 1) else lSat n (signed n a + signed n b)

/-- Quotient and whether it raises NUMERIC (R44). -/
def lDiv (n a b : Nat) : Nat × Bool :=
  if a = 2 ^ (n - 1) then (2 ^ (n - 1), false)
  else if b = 2 ^ (n - 1) then (2 ^ (n - 1) - 1, true)
  else (lSat n (signed n a - signed n b), false)

/-- Power: k × a rounded to nearest even, `k` an unsigned factor with `frac` fractional bits (R44). -/
def lScale (n frac k a : Nat) : Nat :=
  if a = 2 ^ (n - 1) ∨ k = 0 then 2 ^ (n - 1) else lSat n (rneDivInt (signed n a * k) (2 ^ frac))

/-- Larger value: signed comparison of codes (R44). -/
def lMax (n a b : Nat) : Nat := if signed n a < signed n b then b else a

/-- Signed order of codes (R43: zero orders below every nonzero value). -/
def lLt (n a b : Nat) : Bool := decide (signed n a < signed n b)

/-- L16 to L32: exact, zero to zero (R44). -/
def l16to32 (a : Nat) : Nat := if a = l16Zero then l32Zero else unsigned 32 (signed 16 a * 256)

/-- L32 to L16: rounded to nearest even at 2^-8 lb, then limited (R44). -/
def l32to16 (a : Nat) : Nat := if a = l32Zero then l16Zero else lSat 16 (rneDivInt (signed 32 a) 256)

/-- One squaring step of the base-2 logarithm: the mantissa y / 2^48 in [1, 2) squared, and the bit it gives. -/
def logStep (y : Nat) : Nat × Nat :=
  let z := (y * y) >>> 48
  if z ≥ 2 ^ 49 then (z >>> 1, 1) else (z, 0)

/-- `n` bits of log2(y / 2^48) for y / 2^48 in [1, 2). -/
def logBits : Nat → Nat → Nat → Nat
  | 0, _, acc => acc
  | n + 1, y, acc =>
    let p := logStep y
    logBits n p.1 (2 * acc + p.2)

/-- log2(1 + f / 2^23) in units of 2^-32 lb, to within two units. -/
def log2Exact (f : Nat) : Nat := logBits 32 (2 ^ 48 + (f <<< 25)) 0

/-- The unit's log2(1 + f / 2^23) in units of 2^-32 lb: the exact value plus an interpolation error that R46 bounds by
2^-18 lb and does not give. The error is a free value. -/
def log2Unit (f : Nat) : Int :=
  if f = 0 then 0 else (log2Exact f : Int) + max (-16382) (min 16382 (Config.log2Error f))

/-- Linear to L (R46), at `frac` fractional bits and `n` bits, and whether NUMERIC is raised. -/
def toL (n frac : Nat) (x : F32) : Nat × Bool :=
  match f32Val x with
  | .nan => (2 ^ (n - 1), true)
  | .inf neg => if neg then (2 ^ (n - 1), true) else (2 ^ (n - 1) - 1, true)
  | .fin neg m e =>
    if m = 0 then (2 ^ (n - 1), false)
    else if neg then (2 ^ (n - 1), true)
    else
      let k := Nat.log2 m
      let f := (m <<< (23 - k)) % 2 ^ 23
      let v : Int := ((k : Int) + e) * 2 ^ 32 + log2Unit f
      (lSat n (rneDivInt v (2 ^ (32 - frac))), false)

/-- Linear to L16 (R46). -/
def toL16 (x : F32) : Nat × Bool := toL 16 8 x
/-- Linear to L32 (R46). -/
def toL32 (x : F32) : Nat × Bool := toL 32 16 x

/-- The table of 2^(i/256), each entry rounded to nearest at 13 fractional bits; entry 256 is 2 (R47). -/
def pow2Table : List Nat :=
  [8192, 8214, 8236, 8259, 8281, 8304, 8326, 8349, 8371, 8394, 8417, 8440, 8463, 8485, 8508, 8532] ++
  [8555, 8578, 8601, 8624, 8648, 8671, 8695, 8718, 8742, 8766, 8789, 8813, 8837, 8861, 8885, 8909] ++
  [8933, 8958, 8982, 9006, 9031, 9055, 9080, 9104, 9129, 9154, 9179, 9204, 9228, 9253, 9279, 9304] ++
  [9329, 9354, 9380, 9405, 9431, 9456, 9482, 9507, 9533, 9559, 9585, 9611, 9637, 9663, 9689, 9716] ++
  [9742, 9768, 9795, 9821, 9848, 9875, 9902, 9928, 9955, 9982, 10009, 10037, 10064, 10091, 10118, 10146] ++
  [10173, 10201, 10229, 10256, 10284, 10312, 10340, 10368, 10396, 10424, 10453, 10481, 10509, 10538, 10566, 10595] ++
  [10624, 10653, 10681, 10710, 10739, 10769, 10798, 10827, 10856, 10886, 10915, 10945, 10975, 11004, 11034, 11064] ++
  [11094, 11124, 11154, 11185, 11215, 11245, 11276, 11306, 11337, 11368, 11399, 11429, 11460, 11492, 11523, 11554] ++
  [11585, 11617, 11648, 11680, 11711, 11743, 11775, 11807, 11839, 11871, 11903, 11935, 11968, 12000, 12033, 12065] ++
  [12098, 12131, 12164, 12197, 12230, 12263, 12296, 12330, 12363, 12397, 12430, 12464, 12498, 12532, 12566, 12600] ++
  [12634, 12668, 12702, 12737, 12771, 12806, 12841, 12876, 12910, 12945, 12981, 13016, 13051, 13086, 13122, 13157] ++
  [13193, 13229, 13265, 13301, 13337, 13373, 13409, 13446, 13482, 13519, 13555, 13592, 13629, 13666, 13703, 13740] ++
  [13777, 13815, 13852, 13890, 13927, 13965, 14003, 14041, 14079, 14117, 14155, 14194, 14232, 14271, 14310, 14348] ++
  [14387, 14426, 14465, 14505, 14544, 14583, 14623, 14663, 14702, 14742, 14782, 14822, 14862, 14903, 14943, 14984] ++
  [15024, 15065, 15106, 15147, 15188, 15229, 15270, 15312, 15353, 15395, 15437, 15478, 15520, 15562, 15605, 15647] ++
  [15689, 15732, 15775, 15817, 15860, 15903, 15946, 15990, 16033, 16076, 16120, 16164, 16208, 16251, 16296, 16340] ++
  [16384]

/-- L to linear (R47): the FP32 value of an L32 code and whether NUMERIC is raised. -/
def l32ToF32 (a : Nat) : F32 × Bool :=
  if a = l32Zero then (0#32, false)
  else
    let c := signed 32 a
    let n : Int := c / 65536
    let phi := (c % 65536).toNat
    let i := phi / 256
    let t := phi % 256
    let lo := pow2Table.getD i 0
    let hi := pow2Table.getD (i + 1) 0
    if c < -149 * 65536 then (0#32, false)
    else if n ≥ 128 then (0x7F7FFFFF#32, true)
    else
      -- the result is a finite FP32 value (R47): rounding does not carry it to infinity
      let r := toF32 ((256 * lo + t * (hi - lo) : Nat) : Int) (n - 21)
      (if f32IsInf r then 0x7F7FFFFF#32 else r, false)

/-- L16 to linear (R47): L16 codes need no interpolation. -/
def l16ToF32 (a : Nat) : F32 × Bool := l32ToF32 (l16to32 a)

/-- 2^(-2^-k) in units of 2^-48, for k = 1 to 16. -/
def invRoots : List Nat :=
  [199032864766430, 236691298899613, 258113691704612, 269541361132679, 275443548385834, 278442931975303, 279954849561488, 280713884160287] ++
  [281094172843150, 281284510335224, 281379727407067, 281427348029212, 281451161362436, 281463068784661, 281469022684686, 281471999681928]

/-- 2^(-p / 65536) in units of 2^-48, to within a few units. -/
def pow2Neg (p : Nat) : Nat :=
  ((List.range 16).foldl
    (fun a k => if p.testBit (15 - k) then (a * invRoots.getD k 0) >>> 48 else a) (2 ^ 48)) >>> (p / 65536)

/-- log2(1 + 2^-d) in units of 2^-32 lb, to within a few units, for d steps at `frac` fractional bits. -/
def lsumExact (frac d : Nat) : Nat :=
  if d = 0 then 2 ^ 32 else logBits 32 (2 ^ 48 + pow2Neg (d <<< (16 - frac))) 0

/-- The correction that lsum adds for a difference of `d` steps (R44): the exact one plus an error that R45 bounds by one
step plus 2^-12 lb and does not give. The error is a free value; one outside the bound counts as none. -/
def lsumCorr (frac d : Nat) : Nat :=
  let x := lsumExact frac d
  let c := rneDiv x (2 ^ (32 - frac))
  let c' := ((c : Int) + Config.lsumError frac d).toNat
  if d = 0 then 2 ^ frac
  else if ((c' * 2 ^ (32 - frac) : Nat) - (x : Int)).natAbs + 8 ≤ 2 ^ (32 - frac) + 2 ^ 20 then c' else c

/-- lsum of two codes (R44, R45). -/
def lSum (n frac a b : Nat) : Nat :=
  if a = 2 ^ (n - 1) then b
  else if b = 2 ^ (n - 1) then a
  else
    let d := (signed n a - signed n b).natAbs
    if d ≥ 24 * 2 ^ frac then lMax n a b
    else lSat n (signed n (lMax n a b) + (lsumCorr frac d : Int))

end Sys2Proof.Machine
end

