-- ==== Sys2Proof/Machine/Crc.lean ====
section
/-! DEFINITION. Check codes: CRC-32C, CRC-16-CCITT and the SECDED code of R305. -/

namespace Sys2Proof.Machine

open Sys2Proof

/-- One bit of the reflected CRC-32C. -/
def crc32cBit (c : Nat) : Nat := if c % 2 = 1 then (c / 2) ^^^ 0x82F63B78 else c / 2

/-- One byte of the reflected CRC-32C. -/
def crc32cByte (c : Nat) (b : Byte) : Nat := (List.range 8).foldl (fun c _ => crc32cBit c) (c ^^^ b.toNat)

/-- CRC-32C (Castagnoli) of a list of bytes. -/
def crc32c (bs : List Byte) : Nat := (bs.foldl crc32cByte 0xFFFFFFFF) ^^^ 0xFFFFFFFF

/-- One bit of CRC-16-CCITT, polynomial 0x1021, most significant bit first. -/
def crc16Bit (c : Nat) : Nat := if c ≥ 0x8000 then ((c * 2) % 65536) ^^^ 0x1021 else c * 2

/-- CRC-16-CCITT of a list of bytes from the initial value 0xFFFF. -/
def crc16 (bs : List Byte) : Nat :=
  bs.foldl (fun c b => (List.range 8).foldl (fun c _ => crc16Bit c) (c ^^^ (b.toNat * 256))) 0xFFFF

/-- The columns c_0 to c_31 of the (39,32) code: the 7-bit values with three bits set, rising (R305). -/
def secdedCols : List Nat := (List.range 128).filter (fun v => popcount v 7 == 3) |>.take 32

/-- The check byte of a word: the XOR of the columns of its set bits (R305). -/
def secdedCheck (d : BitVec 32) : Nat :=
  (List.range 32).foldl (fun a i => if d.getLsbD i then a ^^^ secdedCols.getD i 0 else a) 0

/-- What a syndrome means (R306). -/
inductive SecdedResult where
  | clean
  /-- Corrected: the data after correction. -/
  | corrected (d : BitVec 32)
  | uncorrectable
  deriving DecidableEq, Repr

/-- The decoding of a word as it was read (R305, R306). -/
def secdedDecode (d : BitVec 32) (chk : BitVec 7) : SecdedResult :=
  let syn := chk.toNat ^^^ secdedCheck d
  if syn = 0 then .clean
  else if popcount syn 7 = 1 then .corrected d
  else
    match secdedCols.findIdx? (· == syn) with
    | some i => .corrected (d ^^^ BitVec.ofNat 32 (2 ^ i))
    | none => .uncorrectable

end Sys2Proof.Machine
end

