-- ==== Sys2Proof/Machine/RegMap.lean ====
section
/-! DEFINITION. The set-up registers: where each lies in BAR0, its fields, their access types and their reset values
(R8, R542 and each block's register tables). -/

namespace Sys2Proof.Machine

open Sys2Proof

/-- Register access types (R8). -/
inductive Acc where
  | rw | ro | rc | w1c | wo | bw
  deriving DecidableEq, Repr

/-- One field of a register: lowest bit, width, access type and reset value. -/
structure FieldDef where
  lo : Nat
  width : Nat
  acc : Acc
  reset : Nat
  deriving DecidableEq, Repr

/-- One register or array of registers: BAR0 offset, stride, count and fields. -/
structure RegDef where
  base : Nat
  stride : Nat
  count : Nat
  fields : List FieldDef
  deriving DecidableEq, Repr

/-- A named field: offset and stride of its register, lowest bit and width. -/
structure Field where
  base : Nat
  stride : Nat
  lo : Nat
  width : Nat
  deriving DecidableEq, Repr

/-- The HPT registers (R60). -/
def regsHpt : List RegDef :=
  [⟨0x30000, 0x8, 1, [⟨20, 44, .rw, 0⟩]⟩,
   ⟨0x30008, 0x8, 1, [⟨30, 2, .wo, 0⟩, ⟨0, 12, .wo, 0⟩]⟩,
   ⟨0x30010, 0x8, 1, [⟨63, 1, .ro, 0⟩, ⟨62, 1, .w1c, 0⟩, ⟨0, 16, .ro, 0⟩]⟩,
   ⟨0x30018, 0x8, 1, [⟨12, 52, .rw, 0⟩]⟩,
   ⟨0x30020, 0x8, 1, [⟨63, 1, .rw, 0⟩, ⟨32, 11, .rw, 0⟩, ⟨0, 5, .rw, 0⟩]⟩,
   ⟨0x30028, 0x8, 1, [⟨63, 1, .bw, 0⟩, ⟨40, 10, .bw, 0⟩, ⟨30, 10, .bw, 0⟩]⟩,
   ⟨0x30030, 0x8, 1, [⟨0, 16, .rw, 100⟩]⟩,
   ⟨0x30038, 0x8, 1, [⟨0, 16, .rw, 100⟩]⟩,
   ⟨0x30040, 0x8, 1, [⟨32, 4, .ro, 0⟩, ⟨24, 8, .ro, 0⟩, ⟨0, 24, .rc, 0⟩]⟩,
   ⟨0x30048, 0x8, 1, [⟨0, 32, .rc, 0⟩]⟩]

/-- The SCH registers (R121). -/
def regsSch : List RegDef :=
  [⟨0x40000, 0x8, 1, [⟨0, 8, .rw, 128⟩]⟩,
   ⟨0x40008, 0x8, 1, [⟨0, 8, .rw, 32⟩]⟩,
   ⟨0x40010, 0x8, 1, [⟨16, 5, .rw, 24⟩, ⟨0, 15, .rw, 4096⟩]⟩,
   ⟨0x40018, 0x8, 1, [⟨0, 8, .rw, 2⟩]⟩,
   ⟨0x40020, 0x8, 1, [⟨0, 32, .rc, 0⟩]⟩,
   ⟨0x40028, 0x8, 1, [⟨0, 32, .rc, 0⟩]⟩,
   ⟨0x40030, 0x8, 1, [⟨0, 32, .rc, 0⟩]⟩,
   ⟨0x40038, 0x8, 1, [⟨0, 32, .rc, 0⟩]⟩,
   ⟨0x41000, 0x8, 1024, [⟨0, 16, .rw, 1⟩]⟩,
   ⟨0x43000, 0x8, 128, [⟨0, 2, .rw, 0⟩, ⟨2, 2, .rw, 0⟩, ⟨4, 2, .rw, 0⟩, ⟨6, 2, .rw, 0⟩, ⟨8, 2, .rw, 0⟩, ⟨10, 2, .rw, 0⟩, ⟨12, 2, .rw, 0⟩, ⟨14, 2, .rw, 0⟩, ⟨16, 2, .rw, 0⟩, ⟨18, 2, .rw, 0⟩, ⟨20, 2, .rw, 0⟩, ⟨22, 2, .rw, 0⟩, ⟨24, 2, .rw, 0⟩, ⟨26, 2, .rw, 0⟩, ⟨28, 2, .rw, 0⟩, ⟨30, 2, .rw, 0⟩, ⟨32, 2, .rw, 0⟩, ⟨34, 2, .rw, 0⟩, ⟨36, 2, .rw, 0⟩, ⟨38, 2, .rw, 0⟩, ⟨40, 2, .rw, 0⟩, ⟨42, 2, .rw, 0⟩, ⟨44, 2, .rw, 0⟩, ⟨46, 2, .rw, 0⟩, ⟨48, 2, .rw, 0⟩, ⟨50, 2, .rw, 0⟩, ⟨52, 2, .rw, 0⟩, ⟨54, 2, .rw, 0⟩, ⟨56, 2, .rw, 0⟩, ⟨58, 2, .rw, 0⟩, ⟨60, 2, .rw, 0⟩, ⟨62, 2, .rw, 0⟩]⟩]

/-- The TAK registers (chapter "Takes", registers). -/
def regsTak : List RegDef :=
  [⟨0x50000, 0x8, 1, [⟨0, 5, .rw, 4⟩]⟩,
   ⟨0x50008, 0x8, 1, [⟨1, 8, .bw, 152⟩]⟩,
   ⟨0x50010, 0x8, 1, [⟨0, 64, .ro, 0⟩]⟩,
   ⟨0x50018, 0x8, 1, [⟨16, 32, .ro, 0⟩, ⟨0, 13, .ro, 0⟩]⟩,
   ⟨0x50020, 0x8, 1, [⟨0, 32, .rc, 0⟩]⟩,
   ⟨0x50028, 0x8, 1, [⟨0, 32, .rc, 0⟩]⟩,
   ⟨0x50030, 0x8, 1, [⟨0, 32, .rc, 0⟩]⟩,
   ⟨0x50038, 0x8, 1, [⟨0, 32, .rc, 0⟩]⟩,
   ⟨0x50040, 0x8, 1, [⟨0, 32, .rc, 0⟩]⟩]

/-- The MXE registers (chapter "Matrix engine", registers). -/
def regsMxe : List RegDef :=
  [⟨0x60000, 0x8, 1, [⟨8, 7, .ro, 0⟩, ⟨0, 7, .ro, 0⟩]⟩,
   ⟨0x60008, 0x8, 1, [⟨0, 5, .rw, 24⟩]⟩,
   ⟨0x60010, 0x8, 1, [⟨8, 2, .wo, 0⟩, ⟨0, 7, .wo, 0⟩]⟩,
   ⟨0x60018, 0x8, 1, [⟨63, 1, .ro, 0⟩, ⟨62, 1, .w1c, 0⟩, ⟨0, 16, .ro, 0⟩]⟩,
   ⟨0x60020, 0x8, 1, [⟨0, 32, .rc, 0⟩]⟩,
   ⟨0x60028, 0x8, 1, [⟨0, 32, .rc, 0⟩]⟩,
   ⟨0x60100, 0x8, 100, [⟨24, 16, .ro, 0⟩, ⟨16, 7, .ro, 0⟩, ⟨8, 1, .ro, 0⟩, ⟨0, 3, .ro, 0⟩]⟩]

/-- The EXP registers (chapter "Packer and expander", registers). -/
def regsExp : List RegDef :=
  [⟨0x70000, 0x8, 1, [⟨0, 7, .rw, 56⟩]⟩,
   ⟨0x70008, 0x8, 1, [⟨0, 48, .rc, 0⟩]⟩,
   ⟨0x70010, 0x8, 1, [⟨0, 48, .rc, 0⟩]⟩,
   ⟨0x70018, 0x8, 1, [⟨0, 32, .rc, 0⟩]⟩,
   ⟨0x70020, 0x8, 1, [⟨0, 32, .rc, 0⟩]⟩]

/-- The KVA registers (chapter "Key/value pages", registers). -/
def regsKva0 : List RegDef :=
  [⟨0x80000, 0x8, 1, [⟨63, 1, .rw, 0⟩, ⟨62, 1, .ro, 0⟩, ⟨0, 20, .rw, 0⟩]⟩,
   ⟨0x80008, 0x8, 1, [⟨16, 10, .rw, 40⟩, ⟨0, 10, .rw, 20⟩]⟩,
   ⟨0x80010, 0x8, 1, [⟨0, 16, .rw, 100⟩]⟩,
   ⟨0x80018, 0x8, 1, [⟨0, 48, .ro, 0⟩]⟩,
   ⟨0x80020, 0x8, 1, [⟨8, 8, .rw, 248⟩, ⟨0, 8, .rw, 248⟩]⟩,
   ⟨0x80028, 0x8, 1, [⟨0, 32, .rc, 0⟩]⟩,
   ⟨0x80030, 0x8, 1, [⟨0, 32, .rc, 0⟩]⟩,
   ⟨0x80038, 0x8, 1, [⟨0, 32, .rc, 0⟩]⟩,
   ⟨0x80040, 0x8, 1, [⟨0, 32, .rc, 0⟩]⟩,
   ⟨0x80048, 0x8, 1, [⟨0, 32, .rc, 0⟩]⟩]

/-- The KVA registers (chapter "Key/value pages", registers). -/
def regsKva1 : List RegDef :=
  [⟨0x80050, 0x8, 1, [⟨0, 32, .rc, 0⟩]⟩,
   ⟨0x80100, 0x8, 4, [⟨32, 30, .rw, 0⟩, ⟨0, 20, .rw, 0⟩]⟩,
   ⟨0x80120, 0x8, 4, [⟨0, 30, .ro, 0⟩]⟩]

/-- The KVA registers (chapter "Key/value pages", registers). -/
def regsKva : List RegDef := regsKva0 ++ regsKva1

/-- The ATT registers (chapter "Attention", registers). -/
def regsAtt : List RegDef :=
  [⟨0x90000, 0x8, 1, [⟨0, 2, .rw, 1⟩]⟩,
   ⟨0x90008, 0x8, 1, [⟨0, 32, .rc, 0⟩]⟩,
   ⟨0x90010, 0x8, 1, [⟨0, 32, .rc, 0⟩]⟩,
   ⟨0x90018, 0x8, 1, [⟨0, 32, .rc, 0⟩]⟩,
   ⟨0x90020, 0x8, 1, [⟨0, 32, .rc, 0⟩]⟩,
   ⟨0x90100, 0x8, 16, [⟨63, 1, .rw, 0⟩, ⟨62, 1, .ro, 0⟩, ⟨16, 8, .rw, 0⟩, ⟨0, 16, .rw, 0⟩]⟩,
   ⟨0x91000, 0x10, 64, [⟨32, 32, .rw, 0⟩, ⟨9, 23, .rw, 0⟩, ⟨7, 2, .rw, 0⟩, ⟨4, 3, .rw, 0⟩, ⟨2, 2, .rw, 0⟩, ⟨1, 1, .rw, 0⟩, ⟨0, 1, .rw, 0⟩]⟩,
   ⟨0x91008, 0x10, 64, [⟨0, 32, .rw, 0⟩]⟩,
   ⟨0x92000, 0x8, 512, [⟨0, 6, .rw, 0⟩, ⟨8, 6, .rw, 0⟩, ⟨16, 6, .rw, 0⟩, ⟨24, 6, .rw, 0⟩, ⟨32, 6, .rw, 0⟩, ⟨40, 6, .rw, 0⟩, ⟨48, 6, .rw, 0⟩, ⟨56, 6, .rw, 0⟩]⟩]

/-- The SMP registers (chapter "Sampler", registers). -/
def regsSmp : List RegDef :=
  [⟨0xA0000, 0x8, 1, [⟨0, 32, .rc, 0⟩]⟩,
   ⟨0xA0008, 0x8, 1, [⟨0, 32, .rc, 0⟩]⟩,
   ⟨0xA0010, 0x8, 1, [⟨0, 32, .rc, 0⟩]⟩,
   ⟨0xA0018, 0x8, 1, [⟨0, 32, .rc, 0⟩]⟩,
   ⟨0xA0020, 0x8, 1, [⟨0, 32, .rc, 0⟩]⟩,
   ⟨0xA0100, 0x8, 16, [⟨0, 21, .rw, 0⟩]⟩]

/-- The GTH registers (chapter "Embedding gather", registers). -/
def regsGth : List RegDef :=
  [⟨0xB0000, 0x8, 1, [⟨0, 16, .rw, 4096⟩]⟩,
   ⟨0xB0008, 0x8, 1, [⟨0, 11, .ro, 0⟩]⟩,
   ⟨0xB0010, 0x8, 1, [⟨0, 32, .rc, 0⟩]⟩,
   ⟨0xB0018, 0x8, 1, [⟨0, 32, .rc, 0⟩]⟩,
   ⟨0xB0020, 0x8, 1, [⟨0, 32, .rc, 0⟩]⟩,
   ⟨0xB0028, 0x8, 1, [⟨0, 32, .rc, 0⟩]⟩]

/-- The MEM registers (R328). -/
def regsMem : List RegDef :=
  [⟨0xC0000, 0x8, 1, [⟨40, 10, .ro, 0⟩, ⟨0, 8, .ro, 0⟩]⟩,
   ⟨0xC0008, 0x8, 1, [⟨16, 16, .rw, 100⟩, ⟨0, 16, .rw, 720⟩]⟩,
   ⟨0xC0010, 0x8, 1, [⟨16, 8, .rw, 32⟩, ⟨0, 8, .rw, 4⟩]⟩,
   ⟨0xC0018, 0x8, 1, [⟨10, 2, .wo, 0⟩, ⟨0, 10, .wo, 0⟩]⟩,
   ⟨0xC0020, 0x8, 1, [⟨0, 7, .ro, 0⟩]⟩,
   ⟨0xC0028, 0x8, 1, [⟨0, 32, .rc, 0⟩]⟩,
   ⟨0xC0030, 0x8, 1, [⟨0, 32, .rc, 0⟩]⟩,
   ⟨0xC0038, 0x8, 1, [⟨0, 32, .rc, 0⟩]⟩,
   ⟨0xC1000, 0x8, 512, [⟨62, 2, .ro, 0⟩, ⟨32, 16, .ro, 0⟩, ⟨0, 32, .ro, 0⟩]⟩]

/-- The FLT registers (R329). -/
def regsFlt0 : List RegDef :=
  [⟨0xD0000, 0x8, 1, [⟨63, 1, .rw, 0⟩, ⟨62, 1, .ro, 0⟩, ⟨61, 1, .ro, 0⟩, ⟨0, 20, .rw, 0⟩]⟩,
   ⟨0xD0008, 0x8, 1, [⟨32, 32, .rw, 50000⟩, ⟨16, 16, .rw, 200⟩, ⟨12, 4, .rw, 6⟩, ⟨0, 8, .rw, 32⟩]⟩,
   ⟨0xD0010, 0x8, 1, [⟨32, 10, .rw, 5⟩, ⟨16, 10, .rw, 20⟩, ⟨0, 7, .rw, 20⟩]⟩,
   ⟨0xD0018, 0x8, 1, [⟨32, 20, .ro, 0⟩, ⟨0, 32, .ro, 0⟩]⟩,
   ⟨0xD0020, 0x8, 1, [⟨0, 48, .rc, 0⟩]⟩,
   ⟨0xD0028, 0x8, 1, [⟨0, 48, .rc, 0⟩]⟩,
   ⟨0xD0030, 0x8, 1, [⟨0, 32, .rc, 0⟩]⟩,
   ⟨0xD0038, 0x8, 1, [⟨0, 32, .rc, 0⟩]⟩,
   ⟨0xD0040, 0x8, 1, [⟨0, 32, .rc, 0⟩]⟩,
   ⟨0xD0048, 0x8, 1, [⟨0, 32, .rc, 0⟩]⟩]

/-- The FLT registers (R329). -/
def regsFlt1 : List RegDef :=
  [⟨0xD0100, 0x8, 16, [⟨62, 2, .ro, 0⟩, ⟨32, 16, .ro, 0⟩, ⟨0, 16, .ro, 0⟩]⟩]

/-- The FLT registers (R329). -/
def regsFlt : List RegDef := regsFlt0 ++ regsFlt1

/-- The GLK registers (chapter "Ghemlink fabric", registers). -/
def regsGlk0 : List RegDef :=
  [⟨0x100000, 0x4000, 60, [⟨63, 1, .rw, 0⟩, ⟨62, 1, .wo, 0⟩, ⟨0, 2, .rw, 3⟩]⟩,
   ⟨0x100008, 0x4000, 60, [⟨61, 3, .ro, 0⟩, ⟨48, 4, .ro, 0⟩, ⟨40, 8, .ro, 0⟩, ⟨20, 20, .ro, 0⟩]⟩,
   ⟨0x100010, 0x4000, 56, [⟨0, 5, .rw, 1⟩, ⟨5, 5, .rw, 1⟩, ⟨10, 5, .rw, 4⟩, ⟨15, 5, .rw, 1⟩, ⟨20, 5, .rw, 6⟩, ⟨25, 5, .rw, 2⟩, ⟨30, 5, .rw, 10⟩, ⟨35, 5, .rw, 2⟩, ⟨40, 5, .rw, 0⟩, ⟨45, 5, .rw, 0⟩, ⟨50, 5, .rw, 1⟩, ⟨55, 5, .rw, 1⟩]⟩,
   ⟨0x1E0010, 0x4000, 4, [⟨0, 5, .rw, 0⟩, ⟨5, 5, .rw, 0⟩, ⟨10, 5, .rw, 0⟩, ⟨15, 5, .rw, 0⟩, ⟨20, 5, .rw, 0⟩, ⟨25, 5, .rw, 0⟩, ⟨30, 5, .rw, 0⟩, ⟨35, 5, .rw, 0⟩, ⟨40, 5, .rw, 28⟩, ⟨45, 5, .rw, 2⟩, ⟨50, 5, .rw, 1⟩, ⟨55, 5, .rw, 1⟩]⟩,
   ⟨0x100018, 0x4000, 60, [⟨48, 16, .rc, 0⟩, ⟨32, 16, .rc, 0⟩, ⟨16, 16, .rc, 0⟩, ⟨8, 8, .rc, 0⟩, ⟨0, 8, .rc, 0⟩]⟩,
   ⟨0x100020, 0x4000, 60, [⟨32, 32, .rc, 0⟩, ⟨0, 32, .rc, 0⟩]⟩,
   ⟨0x1F0000, 0x8, 1, [⟨32, 12, .rw, 500⟩, ⟨24, 6, .rw, 40⟩, ⟨0, 12, .rw, 1000⟩]⟩,
   ⟨0x1F0008, 0x8, 1, [⟨0, 20, .bw, 0⟩]⟩,
   ⟨0x1F0010, 0x8, 1, [⟨0, 20, .rw, 0⟩]⟩,
   ⟨0x1F0018, 0x8, 1, [⟨0, 32, .ro, 0⟩]⟩]

/-- The GLK registers (chapter "Ghemlink fabric", registers). -/
def regsGlk1 : List RegDef :=
  [⟨0x1F0020, 0x8, 6, [⟨0, 7, .rw, 8⟩]⟩,
   ⟨0x1F0050, 0x8, 1, [⟨0, 32, .rc, 0⟩]⟩,
   ⟨0x1F0058, 0x8, 1, [⟨0, 32, .rc, 0⟩]⟩,
   ⟨0x1F0060, 0x8, 1, [⟨0, 32, .rc, 0⟩]⟩]

/-- The GLK registers (chapter "Ghemlink fabric", registers). -/
def regsGlk : List RegDef := regsGlk0 ++ regsGlk1

/-- The SHP registers (chapter "Shaping and time gates", registers). -/
def regsShp : List RegDef :=
  [⟨0x200000, 0x8, 1, [⟨63, 1, .rw, 1⟩, ⟨32, 13, .rw, 256⟩, ⟨0, 24, .rw, 819200⟩]⟩,
   ⟨0x200008, 0x8, 1, [⟨63, 1, .rw, 1⟩, ⟨32, 13, .rw, 128⟩, ⟨0, 24, .rw, 409600⟩]⟩,
   ⟨0x200010, 0x8, 1, [⟨32, 15, .ro, 0⟩, ⟨0, 15, .ro, 0⟩]⟩,
   ⟨0x200018, 0x8, 1, [⟨0, 32, .rc, 0⟩]⟩,
   ⟨0x200020, 0x8, 1, [⟨0, 32, .rc, 0⟩]⟩,
   ⟨0x200028, 0x8, 1, [⟨0, 32, .rc, 0⟩]⟩,
   ⟨0x200100, 0x8, 56, [⟨63, 1, .rw, 0⟩, ⟨62, 1, .rw, 0⟩, ⟨61, 1, .ro, 0⟩, ⟨60, 1, .ro, 0⟩, ⟨17, 1, .rw, 0⟩, ⟨16, 1, .rw, 0⟩, ⟨8, 7, .rw, 0⟩, ⟨0, 7, .rw, 0⟩]⟩,
   ⟨0x202000, 0x8, 7168, [⟨22, 1, .rw, 1⟩, ⟨21, 1, .rw, 1⟩, ⟨20, 1, .rw, 1⟩, ⟨0, 20, .rw, 0⟩]⟩]

/-- The BMV registers (chapter "Bulk movers", registers). -/
def regsBmv : List RegDef :=
  [⟨0x210000, 0x8, 1, [⟨4, 2, .wo, 0⟩, ⟨0, 3, .wo, 0⟩]⟩,
   ⟨0x210008, 0x8, 1, [⟨0, 32, .rc, 0⟩]⟩,
   ⟨0x210010, 0x8, 1, [⟨0, 48, .rc, 0⟩]⟩,
   ⟨0x210100, 0x8, 8, [⟨62, 2, .ro, 0⟩, ⟨32, 6, .ro, 0⟩, ⟨0, 16, .ro, 0⟩]⟩]

/-- The DTM registers (chapter "Datum, homes and leases", registers). -/
def regsDtm : List RegDef :=
  [⟨0x220000, 0x8, 1, [⟨63, 1, .rw, 0⟩, ⟨62, 1, .ro, 0⟩, ⟨61, 1, .ro, 0⟩, ⟨20, 20, .rw, 0⟩, ⟨0, 20, .rw, 0⟩]⟩,
   ⟨0x220008, 0x8, 1, [⟨0, 32, .ro, 0⟩]⟩,
   ⟨0x220010, 0x8, 1, [⟨16, 16, .rw, 15⟩, ⟨0, 16, .rw, 50⟩]⟩,
   ⟨0x220018, 0x8, 1, [⟨0, 16, .rw, 500⟩]⟩,
   ⟨0x220020, 0x8, 1, [⟨16, 4, .rw, 4⟩, ⟨0, 16, .rw, 20⟩]⟩,
   ⟨0x220028, 0x8, 1, [⟨0, 32, .rc, 0⟩]⟩,
   ⟨0x220030, 0x8, 1, [⟨0, 32, .rc, 0⟩]⟩,
   ⟨0x220038, 0x8, 1, [⟨0, 32, .rc, 0⟩]⟩]

/-- The TRV registers (chapter "Traverse", registers). -/
def regsTrv : List RegDef :=
  [⟨0x230000, 0x8, 1, [⟨48, 16, .rw, 0⟩, ⟨32, 16, .rw, 100⟩, ⟨16, 16, .rw, 1000⟩, ⟨8, 1, .rw, 1⟩, ⟨0, 4, .rw, 4⟩]⟩,
   ⟨0x230008, 0x8, 1, [⟨0, 9, .ro, 0⟩]⟩,
   ⟨0x230010, 0x8, 1, [⟨0, 32, .rc, 0⟩]⟩,
   ⟨0x230018, 0x8, 1, [⟨0, 32, .rc, 0⟩]⟩,
   ⟨0x230020, 0x8, 1, [⟨0, 32, .rc, 0⟩]⟩,
   ⟨0x230028, 0x8, 1, [⟨0, 32, .rc, 0⟩]⟩,
   ⟨0x230100, 0x8, 16, [⟨63, 1, .rw, 0⟩, ⟨40, 8, .rw, 0⟩, ⟨32, 8, .rw, 0⟩, ⟨16, 16, .rw, 0⟩, ⟨0, 16, .rw, 0⟩]⟩]

/-- The CON registers (chapter "Continuity", registers). -/
def regsCon0 : List RegDef :=
  [⟨0x240000, 0x8, 1, [⟨63, 1, .rw, 0⟩, ⟨62, 1, .rw, 1⟩]⟩,
   ⟨0x240008, 0x8, 1, [⟨0, 2, .wo, 0⟩]⟩,
   ⟨0x240010, 0x8, 1, [⟨61, 3, .ro, 0⟩, ⟨60, 1, .ro, 1⟩, ⟨57, 3, .ro, 0⟩, ⟨56, 1, .ro, 0⟩, ⟨52, 4, .ro, 0⟩, ⟨0, 16, .ro, 0⟩]⟩,
   ⟨0x240018, 0x8, 1, [⟨8, 16, .rw, 1024⟩, ⟨0, 8, .rw, 2⟩]⟩,
   ⟨0x240020, 0x8, 1, [⟨20, 20, .rw, 0⟩, ⟨0, 20, .rw, 0⟩]⟩,
   ⟨0x240028, 0x8, 1, [⟨32, 16, .rw, 32⟩, ⟨0, 20, .rw, 0⟩]⟩,
   ⟨0x240030, 0x8, 1, [⟨32, 32, .ro, 0⟩, ⟨0, 32, .ro, 0⟩]⟩,
   ⟨0x240038, 0x8, 1, [⟨63, 1, .rw, 0⟩, ⟨62, 1, .rw, 0⟩, ⟨32, 16, .rw, 1000⟩, ⟨0, 12, .rw, 0⟩]⟩,
   ⟨0x240040, 0x8, 1, [⟨32, 32, .rw, 0⟩, ⟨0, 32, .rw, 0⟩]⟩,
   ⟨0x240048, 0x8, 1, [⟨32, 32, .rw, 0⟩, ⟨0, 32, .rw, 0⟩]⟩]

/-- The CON registers (chapter "Continuity", registers). -/
def regsCon1 : List RegDef :=
  [⟨0x240050, 0x8, 1, [⟨0, 32, .rc, 0⟩]⟩,
   ⟨0x240058, 0x8, 1, [⟨0, 32, .rc, 0⟩]⟩,
   ⟨0x240060, 0x8, 1, [⟨0, 32, .rc, 0⟩]⟩,
   ⟨0x240068, 0x8, 1, [⟨0, 32, .rc, 0⟩]⟩]

/-- The CON registers (chapter "Continuity", registers). -/
def regsCon : List RegDef := regsCon0 ++ regsCon1

/-- The CLK registers (R479). -/
def regsClk0 : List RegDef :=
  [⟨0x20000, 0x8, 1, [⟨61, 3, .ro, 0⟩, ⟨60, 1, .ro, 0⟩, ⟨59, 1, .ro, 0⟩, ⟨57, 2, .ro, 0⟩, ⟨32, 16, .ro, 0⟩, ⟨0, 11, .ro, 1400⟩]⟩,
   ⟨0x20008, 0x8, 1, [⟨0, 3, .rw, 3⟩]⟩,
   ⟨0x20010, 0x8, 1, [⟨63, 1, .rw, 0⟩, ⟨32, 16, .rw, 100⟩, ⟨21, 11, .rw, 1050⟩, ⟨0, 10, .rw, 800⟩]⟩,
   ⟨0x20018, 0x8, 1, [⟨0, 16, .rw, 10⟩]⟩,
   ⟨0x20020, 0x8, 1, [⟨0, 2, .wo, 0⟩]⟩,
   ⟨0x20028, 0x8, 1, [⟨8, 8, .wo, 0⟩, ⟨0, 2, .wo, 0⟩]⟩,
   ⟨0x20030, 0x8, 1, [⟨62, 2, .wo, 0⟩, ⟨16, 10, .wo, 0⟩, ⟨0, 10, .wo, 0⟩]⟩,
   ⟨0x20038, 0x8, 1, [⟨63, 1, .ro, 0⟩, ⟨62, 1, .w1c, 0⟩, ⟨32, 10, .ro, 0⟩, ⟨16, 10, .ro, 0⟩, ⟨0, 16, .ro, 0⟩]⟩,
   ⟨0x20040, 0x8, 1, [⟨0, 32, .rc, 0⟩]⟩,
   ⟨0x20048, 0x8, 1, [⟨0, 32, .rc, 0⟩]⟩]

/-- The CLK registers (R479). -/
def regsClk1 : List RegDef :=
  [⟨0x20100, 0x8, 16, [⟨0, 64, .ro, 0⟩]⟩]

/-- The CLK registers (R479). -/
def regsClk : List RegDef := regsClk0 ++ regsClk1

/-- The SEC registers (R501). -/
def regsSec : List RegDef :=
  [⟨0x10000, 0x8, 1, [⟨12, 52, .rw, 0⟩]⟩,
   ⟨0x10008, 0x8, 1, [⟨0, 2, .wo, 0⟩]⟩,
   ⟨0x10010, 0x8, 1, [⟨61, 3, .ro, 0⟩, ⟨16, 2, .ro, 3⟩, ⟨0, 16, .ro, 0⟩]⟩,
   ⟨0x10018, 0x8, 1, [⟨0, 1, .bw, 0⟩]⟩,
   ⟨0x10020, 0x8, 1, [⟨26, 6, .ro, 0⟩, ⟨20, 6, .ro, 0⟩, ⟨14, 6, .ro, 0⟩, ⟨10, 4, .ro, 0⟩, ⟨9, 1, .ro, 0⟩, ⟨8, 1, .ro, 0⟩]⟩,
   ⟨0x10028, 0x8, 1, [⟨0, 32, .rc, 0⟩]⟩]

/-- The RAS registers (R523). -/
def regsRas : List RegDef :=
  [⟨0x250000, 0x8, 1, [⟨63, 1, .ro, 0⟩, ⟨32, 9, .ro, 0⟩, ⟨0, 4, .ro, 0⟩]⟩,
   ⟨0x250008, 0x8, 1, [⟨16, 8, .rw, 3⟩, ⟨0, 16, .rw, 1000⟩]⟩,
   ⟨0x250010, 0x8, 1, [⟨32, 1, .ro, 0⟩, ⟨0, 32, .ro, 0⟩]⟩,
   ⟨0x250018, 0x8, 1, [⟨0, 32, .rc, 0⟩]⟩,
   ⟨0x250020, 0x8, 1, [⟨0, 40, .ro, 0⟩]⟩,
   ⟨0x250028, 0x8, 1, [⟨0, 48, .ro, 0⟩]⟩,
   ⟨0x254000, 0x8, 256, [⟨63, 1, .ro, 0⟩, ⟨52, 4, .ro, 0⟩, ⟨36, 16, .ro, 0⟩, ⟨0, 36, .ro, 0⟩]⟩,
   ⟨0x258000, 0x8, 4096, [⟨0, 64, .ro, 0⟩]⟩]

/-- The MGT registers (chapter "Package and signals", registers). -/
def regsMgt : List RegDef :=
  [⟨0x260100, 0x8, 1, [⟨8, 8, .ro, 115⟩, ⟨0, 8, .rw, 105⟩]⟩,
   ⟨0x260108, 0x8, 1, [⟨56, 8, .ro, 0⟩, ⟨48, 8, .ro, 0⟩, ⟨43, 5, .ro, 0⟩, ⟨40, 3, .ro, 0⟩, ⟨0, 24, .ro, 0⟩]⟩]

/-- The GLB registers (R3, R86, R550). -/
def regsGlb : List RegDef :=
  [⟨0x0, 0x8, 1, [⟨40, 4, .ro, 0⟩, ⟨32, 8, .ro, 0⟩, ⟨16, 16, .ro, 33024⟩, ⟨0, 16, .ro, 7996⟩]⟩,
   ⟨0x8, 0x8, 1, [⟨28, 4, .ro, 1⟩, ⟨7, 1, .ro, 1⟩, ⟨6, 1, .ro, 1⟩, ⟨5, 1, .ro, 1⟩, ⟨4, 1, .ro, 1⟩, ⟨3, 1, .ro, 1⟩, ⟨2, 1, .ro, 1⟩, ⟨1, 1, .ro, 1⟩, ⟨0, 1, .ro, 1⟩]⟩,
   ⟨0x10, 0x8, 1, [⟨63, 1, .ro, 0⟩, ⟨62, 1, .ro, 0⟩, ⟨61, 1, .ro, 1⟩, ⟨60, 1, .ro, 0⟩, ⟨57, 3, .ro, 0⟩, ⟨56, 1, .ro, 0⟩, ⟨55, 1, .ro, 0⟩, ⟨54, 1, .ro, 0⟩, ⟨53, 1, .ro, 1⟩, ⟨32, 6, .ro, 0⟩, ⟨0, 32, .ro, 0⟩]⟩,
   ⟨0x18, 0x8, 1, [⟨0, 64, .ro, 0⟩]⟩,
   ⟨0x20, 0x8, 1, [⟨0, 64, .rw, 0⟩]⟩]

/-- The registers of the block whose range holds an offset (R542). -/
def blockRegs (off : Nat) : List RegDef :=
  let k := off / 0x10000
  if k = 0 then regsGlb
  else if k = 1 then regsSec
  else if k = 2 then regsClk
  else if k = 3 then regsHpt
  else if k = 4 then regsSch
  else if k = 5 then regsTak
  else if k = 6 then regsMxe
  else if k = 7 then regsExp
  else if k = 8 then regsKva
  else if k = 9 then regsAtt
  else if k = 10 then regsSmp
  else if k = 11 then regsGth
  else if k = 12 then regsMem
  else if k = 13 then regsFlt
  else if 16 ≤ k ∧ k ≤ 31 then regsGlk
  else if k = 32 then regsShp
  else if k = 33 then regsBmv
  else if k = 34 then regsDtm
  else if k = 35 then regsTrv
  else if k = 36 then regsCon
  else if k = 37 then regsRas
  else if k = 38 then regsMgt
  else []

/-- Whether a register definition holds a BAR0 offset. -/
def RegDef.holds (r : RegDef) (off : Nat) : Bool :=
  decide (r.base ≤ off) && decide ((off - r.base) % r.stride = 0) && decide ((off - r.base) / r.stride < r.count)

/-- The register at a BAR0 offset, if one lies there. -/
def regAt (off : Nat) : Option RegDef := (blockRegs off).find? (fun r => r.holds off)

/-- A register's reset word. -/
def RegDef.resetWord (r : RegDef) : Word := mkWord (r.fields.map (fun f => (f.lo, f.width, f.reset)))

/-- The reset word at a BAR0 offset; zero where no register lies. -/
def resetWord (off : Nat) : Word :=
  match regAt off with
  | some r => r.resetWord
  | none => 0

/-- The offset of a field's register, for register `i` of an array. -/
def Field.off (f : Field) (i : Nat) : Nat := f.base + f.stride * i

/-- HPT_CTX_TABLE.BASE -/
def F.HPT_CTX_TABLE_BASE : Field := ⟨0x30000, 0x8, 20, 44⟩
/-- HPT_CTX_CMD.OP -/
def F.HPT_CTX_CMD_OP : Field := ⟨0x30008, 0x8, 30, 2⟩
/-- HPT_CTX_CMD.CTX -/
def F.HPT_CTX_CMD_CTX : Field := ⟨0x30008, 0x8, 0, 12⟩
/-- HPT_CTX_STAT.BUSY -/
def F.HPT_CTX_STAT_BUSY : Field := ⟨0x30010, 0x8, 63, 1⟩
/-- HPT_CTX_STAT.LOST -/
def F.HPT_CTX_STAT_LOST : Field := ⟨0x30010, 0x8, 62, 1⟩
/-- HPT_CTX_STAT.STATUS -/
def F.HPT_CTX_STAT_STATUS : Field := ⟨0x30010, 0x8, 0, 16⟩
/-- HPT_EVQ_BASE.BASE -/
def F.HPT_EVQ_BASE_BASE : Field := ⟨0x30018, 0x8, 12, 52⟩
/-- HPT_EVQ_CFG.EN -/
def F.HPT_EVQ_CFG_EN : Field := ⟨0x30020, 0x8, 63, 1⟩
/-- HPT_EVQ_CFG.VECTOR -/
def F.HPT_EVQ_CFG_VECTOR : Field := ⟨0x30020, 0x8, 32, 11⟩
/-- HPT_EVQ_CFG.LOG2SIZE -/
def F.HPT_EVQ_CFG_LOG2SIZE : Field := ⟨0x30020, 0x8, 0, 5⟩
/-- HPT_HDM_CFG.EN -/
def F.HPT_HDM_CFG_EN : Field := ⟨0x30028, 0x8, 63, 1⟩
/-- HPT_HDM_CFG.SIZE_GIB -/
def F.HPT_HDM_CFG_SIZE_GIB : Field := ⟨0x30028, 0x8, 40, 10⟩
/-- HPT_HDM_CFG.BASE_GIB -/
def F.HPT_HDM_CFG_BASE_GIB : Field := ⟨0x30028, 0x8, 30, 10⟩
/-- HPT_DB_POLL.PERIOD_US -/
def F.HPT_DB_POLL_PERIOD_US : Field := ⟨0x30030, 0x8, 0, 16⟩
/-- HPT_HOST_TMO.TMO_US -/
def F.HPT_HOST_TMO_TMO_US : Field := ⟨0x30038, 0x8, 0, 16⟩
/-- HPT_LINK_STAT.MOD_UP -/
def F.HPT_LINK_STAT_MOD_UP : Field := ⟨0x30040, 0x8, 32, 4⟩
/-- HPT_LINK_STAT.RATE_GT -/
def F.HPT_LINK_STAT_RATE_GT : Field := ⟨0x30040, 0x8, 24, 8⟩
/-- HPT_LINK_STAT.REPAIR_CNT -/
def F.HPT_LINK_STAT_REPAIR_CNT : Field := ⟨0x30040, 0x8, 0, 24⟩
/-- HPT_CQ_STALL_CNT.COUNT -/
def F.HPT_CQ_STALL_CNT_COUNT : Field := ⟨0x30048, 0x8, 0, 32⟩
/-- SCH_STEP_CFG.MAX_SEQ -/
def F.SCH_STEP_CFG_MAX_SEQ : Field := ⟨0x40000, 0x8, 0, 8⟩
/-- SCH_DRR_CFG.UNIT -/
def F.SCH_DRR_CFG_UNIT : Field := ⟨0x40008, 0x8, 0, 8⟩
/-- SCH_PROMPT_CFG.SLICE_US -/
def F.SCH_PROMPT_CFG_SLICE_US : Field := ⟨0x40010, 0x8, 16, 5⟩
/-- SCH_PROMPT_CFG.CHUNK_TOK -/
def F.SCH_PROMPT_CFG_CHUNK_TOK : Field := ⟨0x40010, 0x8, 0, 15⟩
/-- SCH_MON_CFG.GUARD_US -/
def F.SCH_MON_CFG_GUARD_US : Field := ⟨0x40018, 0x8, 0, 8⟩
/-- SCH_LATE_CNT.COUNT -/
def F.SCH_LATE_CNT_COUNT : Field := ⟨0x40020, 0x8, 0, 32⟩
/-- SCH_SWITCH_CNT.COUNT -/
def F.SCH_SWITCH_CNT_COUNT : Field := ⟨0x40028, 0x8, 0, 32⟩
/-- SCH_INHERIT_CNT.COUNT -/
def F.SCH_INHERIT_CNT_COUNT : Field := ⟨0x40030, 0x8, 0, 32⟩
/-- SCH_HELD_CNT.COUNT -/
def F.SCH_HELD_CNT_COUNT : Field := ⟨0x40038, 0x8, 0, 32⟩
/-- SCH_TENANT.WEIGHT -/
def F.SCH_TENANT_WEIGHT : Field := ⟨0x41000, 0x8, 0, 16⟩
/-- SCH_CTX_PRIO.PRIO_0 -/
def F.SCH_CTX_PRIO_PRIO : Field := ⟨0x43000, 0x8, 0, 2⟩
/-- TAK_CFG.VOTE_US -/
def F.TAK_CFG_VOTE_US : Field := ⟨0x50000, 0x8, 0, 5⟩
/-- TAK_HOST_MASK.ALLOW -/
def F.TAK_HOST_MASK_ALLOW : Field := ⟨0x50008, 0x8, 1, 8⟩
/-- TAK_CLOCK.STAMP -/
def F.TAK_CLOCK_STAMP : Field := ⟨0x50010, 0x8, 0, 64⟩
/-- TAK_OPEN.INTENTS -/
def F.TAK_OPEN_INTENTS : Field := ⟨0x50018, 0x8, 16, 32⟩
/-- TAK_OPEN.TAKES -/
def F.TAK_OPEN_TAKES : Field := ⟨0x50018, 0x8, 0, 13⟩
/-- TAK_COMMIT_CNT.COUNT -/
def F.TAK_COMMIT_CNT_COUNT : Field := ⟨0x50020, 0x8, 0, 32⟩
/-- TAK_ABORT_CNT.COUNT -/
def F.TAK_ABORT_CNT_COUNT : Field := ⟨0x50028, 0x8, 0, 32⟩
/-- TAK_RETRY_CNT.COUNT -/
def F.TAK_RETRY_CNT_COUNT : Field := ⟨0x50030, 0x8, 0, 32⟩
/-- TAK_INDOUBT_CNT.COUNT -/
def F.TAK_INDOUBT_CNT_COUNT : Field := ⟨0x50038, 0x8, 0, 32⟩
/-- TAK_EXPOSED_CNT.COUNT -/
def F.TAK_EXPOSED_CNT_COUNT : Field := ⟨0x50040, 0x8, 0, 32⟩
/-- MXE_STAT.SPARES -/
def F.MXE_STAT_SPARES : Field := ⟨0x60000, 0x8, 8, 7⟩
/-- MXE_STAT.ACTIVE -/
def F.MXE_STAT_ACTIVE : Field := ⟨0x60000, 0x8, 0, 7⟩
/-- MXE_CFG.STRIKE_LOG2 -/
def F.MXE_CFG_STRIKE_LOG2 : Field := ⟨0x60008, 0x8, 0, 5⟩
/-- MXE_CORE_CMD.OP -/
def F.MXE_CORE_CMD_OP : Field := ⟨0x60010, 0x8, 8, 2⟩
/-- MXE_CORE_CMD.CORE -/
def F.MXE_CORE_CMD_CORE : Field := ⟨0x60010, 0x8, 0, 7⟩
/-- MXE_CORE_CMD_STAT.BUSY -/
def F.MXE_CORE_CMD_STAT_BUSY : Field := ⟨0x60018, 0x8, 63, 1⟩
/-- MXE_CORE_CMD_STAT.LOST -/
def F.MXE_CORE_CMD_STAT_LOST : Field := ⟨0x60018, 0x8, 62, 1⟩
/-- MXE_CORE_CMD_STAT.STATUS -/
def F.MXE_CORE_CMD_STAT_STATUS : Field := ⟨0x60018, 0x8, 0, 16⟩
/-- MXE_MISMATCH_CNT.COUNT -/
def F.MXE_MISMATCH_CNT_COUNT : Field := ⟨0x60020, 0x8, 0, 32⟩
/-- MXE_RETIRE_CNT.COUNT -/
def F.MXE_RETIRE_CNT_COUNT : Field := ⟨0x60028, 0x8, 0, 32⟩
/-- MXE_CORE.MISMATCH -/
def F.MXE_CORE_MISMATCH : Field := ⟨0x60100, 0x8, 24, 16⟩
/-- MXE_CORE.SLOT -/
def F.MXE_CORE_SLOT : Field := ⟨0x60100, 0x8, 16, 7⟩
/-- MXE_CORE.STRIKE -/
def F.MXE_CORE_STRIKE : Field := ⟨0x60100, 0x8, 8, 1⟩
/-- MXE_CORE.STATE -/
def F.MXE_CORE_STATE : Field := ⟨0x60100, 0x8, 0, 3⟩
/-- EXP_FALLBACK.NUM -/
def F.EXP_FALLBACK_NUM : Field := ⟨0x70000, 0x8, 0, 7⟩
/-- EXP_STALL_CNT.COUNT -/
def F.EXP_STALL_CNT_COUNT : Field := ⟨0x70008, 0x8, 0, 48⟩
/-- EXP_STARVE_CNT.COUNT -/
def F.EXP_STARVE_CNT_COUNT : Field := ⟨0x70010, 0x8, 0, 48⟩
/-- EXP_CRC_CNT.COUNT -/
def F.EXP_CRC_CNT_COUNT : Field := ⟨0x70018, 0x8, 0, 32⟩
/-- EXP_RAW_CNT.COUNT -/
def F.EXP_RAW_CNT_COUNT : Field := ⟨0x70020, 0x8, 0, 32⟩
/-- KVA_POOL_CTL.EN -/
def F.KVA_POOL_CTL_EN : Field := ⟨0x80000, 0x8, 63, 1⟩
/-- KVA_POOL_CTL.ERR -/
def F.KVA_POOL_CTL_ERR : Field := ⟨0x80000, 0x8, 62, 1⟩
/-- KVA_POOL_CTL.SCALE_BASE_MIB -/
def F.KVA_POOL_CTL_SCALE_BASE_MIB : Field := ⟨0x80000, 0x8, 0, 20⟩
/-- KVA_WATER.HIGH -/
def F.KVA_WATER_HIGH : Field := ⟨0x80008, 0x8, 16, 10⟩
/-- KVA_WATER.LOW -/
def F.KVA_WATER_LOW : Field := ⟨0x80008, 0x8, 0, 10⟩
/-- KVA_AGE_CFG.TICK_US -/
def F.KVA_AGE_CFG_TICK_US : Field := ⟨0x80010, 0x8, 0, 16⟩
/-- KVA_AGE.AGE -/
def F.KVA_AGE_AGE : Field := ⟨0x80018, 0x8, 0, 48⟩
/-- KVA_KV4_CFG.VBASE -/
def F.KVA_KV4_CFG_VBASE : Field := ⟨0x80020, 0x8, 8, 8⟩
/-- KVA_KV4_CFG.KBASE -/
def F.KVA_KV4_CFG_KBASE : Field := ⟨0x80020, 0x8, 0, 8⟩
/-- KVA_EVICT_CNT.COUNT -/
def F.KVA_EVICT_CNT_COUNT : Field := ⟨0x80028, 0x8, 0, 32⟩
/-- KVA_DROP_CNT.COUNT -/
def F.KVA_DROP_CNT_COUNT : Field := ⟨0x80030, 0x8, 0, 32⟩
/-- KVA_DEMOTE_CNT.COUNT -/
def F.KVA_DEMOTE_CNT_COUNT : Field := ⟨0x80038, 0x8, 0, 32⟩
/-- KVA_SAT_CNT.COUNT -/
def F.KVA_SAT_CNT_COUNT : Field := ⟨0x80040, 0x8, 0, 32⟩
/-- KVA_REFUSE_CNT.COUNT -/
def F.KVA_REFUSE_CNT_COUNT : Field := ⟨0x80048, 0x8, 0, 32⟩
/-- KVA_RESHOOT_CNT.COUNT -/
def F.KVA_RESHOOT_CNT_COUNT : Field := ⟨0x80050, 0x8, 0, 32⟩
/-- KVA_CLASS.COUNT -/
def F.KVA_CLASS_COUNT : Field := ⟨0x80100, 0x8, 32, 30⟩
/-- KVA_CLASS.BASE_MIB -/
def F.KVA_CLASS_BASE_MIB : Field := ⟨0x80100, 0x8, 0, 20⟩
/-- KVA_FREE.FREE -/
def F.KVA_FREE_FREE : Field := ⟨0x80120, 0x8, 0, 30⟩
/-- ATT_PC_CFG.AHEAD -/
def F.ATT_PC_CFG_AHEAD : Field := ⟨0x90000, 0x8, 0, 2⟩
/-- ATT_FLUSH_CNT.COUNT -/
def F.ATT_FLUSH_CNT_COUNT : Field := ⟨0x90008, 0x8, 0, 32⟩
/-- ATT_REMOTE_CNT.COUNT -/
def F.ATT_REMOTE_CNT_COUNT : Field := ⟨0x90010, 0x8, 0, 32⟩
/-- ATT_COLD_CNT.COUNT -/
def F.ATT_COLD_CNT_COUNT : Field := ⟨0x90018, 0x8, 0, 32⟩
/-- ATT_PC_MISS_CNT.COUNT -/
def F.ATT_PC_MISS_CNT_COUNT : Field := ⟨0x90020, 0x8, 0, 32⟩
/-- ATT_BIND.EN -/
def F.ATT_BIND_EN : Field := ⟨0x90100, 0x8, 63, 1⟩
/-- ATT_BIND.ERR -/
def F.ATT_BIND_ERR : Field := ⟨0x90100, 0x8, 62, 1⟩
/-- ATT_BIND.NLAYERS_M1 -/
def F.ATT_BIND_NLAYERS_M1 : Field := ⟨0x90100, 0x8, 16, 8⟩
/-- ATT_BIND.MODEL -/
def F.ATT_BIND_MODEL : Field := ⟨0x90100, 0x8, 0, 16⟩
/-- ATT_PROF_W0.ROPE_BASE -/
def F.ATT_PROF_W0_ROPE_BASE : Field := ⟨0x91000, 0x10, 32, 32⟩
/-- ATT_PROF_W0.WINDOW -/
def F.ATT_PROF_W0_WINDOW : Field := ⟨0x91000, 0x10, 9, 23⟩
/-- ATT_PROF_W0.MASK -/
def F.ATT_PROF_W0_MASK : Field := ⟨0x91000, 0x10, 7, 2⟩
/-- ATT_PROF_W0.GROUP_LOG2 -/
def F.ATT_PROF_W0_GROUP_LOG2 : Field := ⟨0x91000, 0x10, 4, 3⟩
/-- ATT_PROF_W0.DIM -/
def F.ATT_PROF_W0_DIM : Field := ⟨0x91000, 0x10, 2, 2⟩
/-- ATT_PROF_W0.ROPE_EN -/
def F.ATT_PROF_W0_ROPE_EN : Field := ⟨0x91000, 0x10, 1, 1⟩
/-- ATT_PROF_W0.VALID -/
def F.ATT_PROF_W0_VALID : Field := ⟨0x91000, 0x10, 0, 1⟩
/-- ATT_PROF_W1.SCALE -/
def F.ATT_PROF_W1_SCALE : Field := ⟨0x91008, 0x10, 0, 32⟩
/-- ATT_PMAP.PROF_0 -/
def F.ATT_PMAP_PROF : Field := ⟨0x92000, 0x8, 0, 6⟩
/-- SMP_EVICT_CNT.COUNT -/
def F.SMP_EVICT_CNT_COUNT : Field := ⟨0xA0000, 0x8, 0, 32⟩
/-- SMP_WIDE_CNT.COUNT -/
def F.SMP_WIDE_CNT_COUNT : Field := ⟨0xA0008, 0x8, 0, 32⟩
/-- SMP_STOP_CNT.COUNT -/
def F.SMP_STOP_CNT_COUNT : Field := ⟨0xA0010, 0x8, 0, 32⟩
/-- SMP_SPEC_CNT.COUNT -/
def F.SMP_SPEC_CNT_COUNT : Field := ⟨0xA0018, 0x8, 0, 32⟩
/-- SMP_ACCEPT_CNT.COUNT -/
def F.SMP_ACCEPT_CNT_COUNT : Field := ⟨0xA0020, 0x8, 0, 32⟩
/-- SMP_VOCAB.V -/
def F.SMP_VOCAB_V : Field := ⟨0xA0100, 0x8, 0, 21⟩
/-- GTH_CFG.CARRY_KIB -/
def F.GTH_CFG_CARRY_KIB : Field := ⟨0xB0000, 0x8, 0, 16⟩
/-- GTH_TABLES.COUNT -/
def F.GTH_TABLES_COUNT : Field := ⟨0xB0008, 0x8, 0, 11⟩
/-- GTH_FETCH_CNT.COUNT -/
def F.GTH_FETCH_CNT_COUNT : Field := ⟨0xB0010, 0x8, 0, 32⟩
/-- GTH_CARRY_HIT_CNT.COUNT -/
def F.GTH_CARRY_HIT_CNT_COUNT : Field := ⟨0xB0018, 0x8, 0, 32⟩
/-- GTH_ADD_CNT.COUNT -/
def F.GTH_ADD_CNT_COUNT : Field := ⟨0xB0020, 0x8, 0, 32⟩
/-- GTH_MIGRATE_CNT.COUNT -/
def F.GTH_MIGRATE_CNT_COUNT : Field := ⟨0xB0028, 0x8, 0, 32⟩
/-- MEM_CAP.ACTIVE_PC -/
def F.MEM_CAP_ACTIVE_PC : Field := ⟨0xC0000, 0x8, 40, 10⟩
/-- MEM_CAP.STACK_UP -/
def F.MEM_CAP_STACK_UP : Field := ⟨0xC0000, 0x8, 0, 8⟩
/-- MEM_SCRUB_CFG.SRAM_MS -/
def F.MEM_SCRUB_CFG_SRAM_MS : Field := ⟨0xC0008, 0x8, 16, 16⟩
/-- MEM_SCRUB_CFG.HBM_MIN -/
def F.MEM_SCRUB_CFG_HBM_MIN : Field := ⟨0xC0008, 0x8, 0, 16⟩
/-- MEM_RETIRE_CFG.PC_ROWS -/
def F.MEM_RETIRE_CFG_PC_ROWS : Field := ⟨0xC0010, 0x8, 16, 8⟩
/-- MEM_RETIRE_CFG.ROW_CE -/
def F.MEM_RETIRE_CFG_ROW_CE : Field := ⟨0xC0010, 0x8, 0, 8⟩
/-- MEM_RETIRE_CMD.OP -/
def F.MEM_RETIRE_CMD_OP : Field := ⟨0xC0018, 0x8, 10, 2⟩
/-- MEM_RETIRE_CMD.TARGET -/
def F.MEM_RETIRE_CMD_TARGET : Field := ⟨0xC0018, 0x8, 0, 10⟩
/-- MEM_UE_STAT.ENTRIES -/
def F.MEM_UE_STAT_ENTRIES : Field := ⟨0xC0020, 0x8, 0, 7⟩
/-- MEM_CE_CNT.COUNT -/
def F.MEM_CE_CNT_COUNT : Field := ⟨0xC0028, 0x8, 0, 32⟩
/-- MEM_UE_CNT.COUNT -/
def F.MEM_UE_CNT_COUNT : Field := ⟨0xC0030, 0x8, 0, 32⟩
/-- MEM_REPAIR_CNT.COUNT -/
def F.MEM_REPAIR_CNT_COUNT : Field := ⟨0xC0038, 0x8, 0, 32⟩
/-- MEM_PC.STATE -/
def F.MEM_PC_STATE : Field := ⟨0xC1000, 0x8, 62, 2⟩
/-- MEM_PC.ROWS_REPAIRED -/
def F.MEM_PC_ROWS_REPAIRED : Field := ⟨0xC1000, 0x8, 32, 16⟩
/-- MEM_PC.CE -/
def F.MEM_PC_CE : Field := ⟨0xC1000, 0x8, 0, 32⟩
/-- FLT_CTL.EN -/
def F.FLT_CTL_EN : Field := ⟨0xD0000, 0x8, 63, 1⟩
/-- FLT_CTL.ERR -/
def F.FLT_CTL_ERR : Field := ⟨0xD0000, 0x8, 62, 1⟩
/-- FLT_CTL.BUSY -/
def F.FLT_CTL_BUSY : Field := ⟨0xD0000, 0x8, 61, 1⟩
/-- FLT_CTL.MAP_BASE_MIB -/
def F.FLT_CTL_MAP_BASE_MIB : Field := ⟨0xD0000, 0x8, 0, 20⟩
/-- FLT_CFG.RD_LIMIT -/
def F.FLT_CFG_RD_LIMIT : Field := ⟨0xD0008, 0x8, 32, 32⟩
/-- FLT_CFG.WEAR_DELTA -/
def F.FLT_CFG_WEAR_DELTA : Field := ⟨0xD0008, 0x8, 16, 16⟩
/-- FLT_CFG.RETRY -/
def F.FLT_CFG_RETRY : Field := ⟨0xD0008, 0x8, 12, 4⟩
/-- FLT_CFG.OP -/
def F.FLT_CFG_OP : Field := ⟨0xD0008, 0x8, 0, 8⟩
/-- FLT_GC.CRIT -/
def F.FLT_GC_CRIT : Field := ⟨0xD0010, 0x8, 32, 10⟩
/-- FLT_GC.LOW -/
def F.FLT_GC_LOW : Field := ⟨0xD0010, 0x8, 16, 10⟩
/-- FLT_GC.CAP_PCT -/
def F.FLT_GC_CAP_PCT : Field := ⟨0xD0010, 0x8, 0, 7⟩
/-- FLT_CAP.MAP_MIB -/
def F.FLT_CAP_MAP_MIB : Field := ⟨0xD0018, 0x8, 32, 20⟩
/-- FLT_CAP.UNITS -/
def F.FLT_CAP_UNITS : Field := ⟨0xD0018, 0x8, 0, 32⟩
/-- FLT_CLIENT_WR_CNT.COUNT -/
def F.FLT_CLIENT_WR_CNT_COUNT : Field := ⟨0xD0020, 0x8, 0, 48⟩
/-- FLT_NAND_WR_CNT.COUNT -/
def F.FLT_NAND_WR_CNT_COUNT : Field := ⟨0xD0028, 0x8, 0, 48⟩
/-- FLT_RETRY_CNT.COUNT -/
def F.FLT_RETRY_CNT_COUNT : Field := ⟨0xD0030, 0x8, 0, 32⟩
/-- FLT_UE_CNT.COUNT -/
def F.FLT_UE_CNT_COUNT : Field := ⟨0xD0038, 0x8, 0, 32⟩
/-- FLT_BAD_BLK_CNT.COUNT -/
def F.FLT_BAD_BLK_CNT_COUNT : Field := ⟨0xD0040, 0x8, 0, 32⟩
/-- FLT_REFRESH_CNT.COUNT -/
def F.FLT_REFRESH_CNT_COUNT : Field := ⟨0xD0048, 0x8, 0, 32⟩
/-- FLT_CHAN.STATE -/
def F.FLT_CHAN_STATE : Field := ⟨0xD0100, 0x8, 62, 2⟩
/-- FLT_CHAN.RATE_MT -/
def F.FLT_CHAN_RATE_MT : Field := ⟨0xD0100, 0x8, 32, 16⟩
/-- FLT_CHAN.TARGETS -/
def F.FLT_CHAN_TARGETS : Field := ⟨0xD0100, 0x8, 0, 16⟩
/-- GLK_PORT_CTL.EN -/
def F.GLK_PORT_CTL_EN : Field := ⟨0x100000, 0x4000, 63, 1⟩
/-- GLK_PORT_CTL.RETRAIN -/
def F.GLK_PORT_CTL_RETRAIN : Field := ⟨0x100000, 0x4000, 62, 1⟩
/-- GLK_PORT_CTL.MAX_WIDTH -/
def F.GLK_PORT_CTL_MAX_WIDTH : Field := ⟨0x100000, 0x4000, 0, 2⟩
/-- GLK_PORT_STAT.STATE -/
def F.GLK_PORT_STAT_STATE : Field := ⟨0x100008, 0x4000, 61, 3⟩
/-- GLK_PORT_STAT.WIDTH -/
def F.GLK_PORT_STAT_WIDTH : Field := ⟨0x100008, 0x4000, 48, 4⟩
/-- GLK_PORT_STAT.LANE_OK -/
def F.GLK_PORT_STAT_LANE_OK : Field := ⟨0x100008, 0x4000, 40, 8⟩
/-- GLK_PORT_STAT.PEER -/
def F.GLK_PORT_STAT_PEER : Field := ⟨0x100008, 0x4000, 20, 20⟩
/-- GLK_PORT_VC_CFG.UNITS_0 -/
def F.GLK_PORT_VC_CFG_UNITS : Field := ⟨0x100010, 0x4000, 0, 5⟩
/-- GLK_PORT_ERR_CNT.CRC_ERR -/
def F.GLK_PORT_ERR_CNT_CRC_ERR : Field := ⟨0x100018, 0x4000, 48, 16⟩
/-- GLK_PORT_ERR_CNT.AUTH_ERR -/
def F.GLK_PORT_ERR_CNT_AUTH_ERR : Field := ⟨0x100018, 0x4000, 32, 16⟩
/-- GLK_PORT_ERR_CNT.REPLAY -/
def F.GLK_PORT_ERR_CNT_REPLAY : Field := ⟨0x100018, 0x4000, 16, 16⟩
/-- GLK_PORT_ERR_CNT.RETRAIN -/
def F.GLK_PORT_ERR_CNT_RETRAIN : Field := ⟨0x100018, 0x4000, 8, 8⟩
/-- GLK_PORT_ERR_CNT.BAD_FRAME -/
def F.GLK_PORT_ERR_CNT_BAD_FRAME : Field := ⟨0x100018, 0x4000, 0, 8⟩
/-- GLK_PORT_FEC_CNT.CORRECTED -/
def F.GLK_PORT_FEC_CNT_CORRECTED : Field := ⟨0x100020, 0x4000, 32, 32⟩
/-- GLK_PORT_FEC_CNT.UNCORR -/
def F.GLK_PORT_FEC_CNT_UNCORR : Field := ⟨0x100020, 0x4000, 0, 32⟩
/-- GLK_CFG.BUSY_NS -/
def F.GLK_CFG_BUSY_NS : Field := ⟨0x1F0000, 0x8, 32, 12⟩
/-- GLK_CFG.REKEY_LOG2 -/
def F.GLK_CFG_REKEY_LOG2 : Field := ⟨0x1F0000, 0x8, 24, 6⟩
/-- GLK_CFG.CREDIT_NS -/
def F.GLK_CFG_CREDIT_NS : Field := ⟨0x1F0000, 0x8, 0, 12⟩
/-- GLK_NODE.NODE_ID -/
def F.GLK_NODE_NODE_ID : Field := ⟨0x1F0008, 0x8, 0, 20⟩
/-- GLK_ROUTE_BASE.BASE_MIB -/
def F.GLK_ROUTE_BASE_BASE_MIB : Field := ⟨0x1F0010, 0x8, 0, 20⟩
/-- GLK_ROUTE_EPOCH.EPOCH -/
def F.GLK_ROUTE_EPOCH_EPOCH : Field := ⟨0x1F0018, 0x8, 0, 32⟩
/-- GLK_TC_CFG.RESP_US -/
def F.GLK_TC_CFG_RESP_US : Field := ⟨0x1F0020, 0x8, 0, 7⟩
/-- GLK_TIMEOUT_CNT.COUNT -/
def F.GLK_TIMEOUT_CNT_COUNT : Field := ⟨0x1F0050, 0x8, 0, 32⟩
/-- GLK_BUSY_CNT.COUNT -/
def F.GLK_BUSY_CNT_COUNT : Field := ⟨0x1F0058, 0x8, 0, 32⟩
/-- GLK_LATE_CNT.COUNT -/
def F.GLK_LATE_CNT_COUNT : Field := ⟨0x1F0060, 0x8, 0, 32⟩
/-- SHP_TC_SHAPE.EN -/
def F.SHP_TC_SHAPE_EN : Field := ⟨0x200000, 0x8, 63, 1⟩
/-- SHP_TC_SHAPE.BURST -/
def F.SHP_TC_SHAPE_BURST : Field := ⟨0x200000, 0x8, 32, 13⟩
/-- SHP_TC_SHAPE.RATE -/
def F.SHP_TC_SHAPE_RATE : Field := ⟨0x200000, 0x8, 0, 24⟩
/-- SHP_FLOWS.OVERFLOW -/
def F.SHP_FLOWS_OVERFLOW : Field := ⟨0x200010, 0x8, 32, 15⟩
/-- SHP_FLOWS.IN_USE -/
def F.SHP_FLOWS_IN_USE : Field := ⟨0x200010, 0x8, 0, 15⟩
/-- SHP_FULL_CNT.COUNT -/
def F.SHP_FULL_CNT_COUNT : Field := ⟨0x200018, 0x8, 0, 32⟩
/-- SHP_GATE_WAIT_CNT.COUNT -/
def F.SHP_GATE_WAIT_CNT_COUNT : Field := ⟨0x200020, 0x8, 0, 32⟩
/-- SHP_OVERRUN_CNT.COUNT -/
def F.SHP_OVERRUN_CNT_COUNT : Field := ⟨0x200028, 0x8, 0, 32⟩
/-- SHP_GATE_CTL.EN -/
def F.SHP_GATE_CTL_EN : Field := ⟨0x200100, 0x8, 63, 1⟩
/-- SHP_GATE_CTL.PEND -/
def F.SHP_GATE_CTL_PEND : Field := ⟨0x200100, 0x8, 62, 1⟩
/-- SHP_GATE_CTL.ERR -/
def F.SHP_GATE_CTL_ERR : Field := ⟨0x200100, 0x8, 61, 1⟩
/-- SHP_GATE_CTL.BANK -/
def F.SHP_GATE_CTL_BANK : Field := ⟨0x200100, 0x8, 60, 1⟩
/-- SHP_GATE_CTL.MODE_B -/
def F.SHP_GATE_CTL_MODE_B : Field := ⟨0x200100, 0x8, 17, 1⟩
/-- SHP_GATE_CTL.MODE_A -/
def F.SHP_GATE_CTL_MODE_A : Field := ⟨0x200100, 0x8, 16, 1⟩
/-- SHP_GATE_CTL.LEN_A -/
def F.SHP_GATE_CTL_LEN_A : Field := ⟨0x200100, 0x8, 8, 7⟩
/-- SHP_GATE_CTL.LEN_B -/
def F.SHP_GATE_CTL_LEN_B : Field := ⟨0x200100, 0x8, 0, 7⟩
/-- SHP_GCL.TC3 -/
def F.SHP_GCL_TC3 : Field := ⟨0x202000, 0x8, 22, 1⟩
/-- SHP_GCL.TC2 -/
def F.SHP_GCL_TC2 : Field := ⟨0x202000, 0x8, 21, 1⟩
/-- SHP_GCL.TC1 -/
def F.SHP_GCL_TC1 : Field := ⟨0x202000, 0x8, 20, 1⟩
/-- SHP_GCL.INTERVAL -/
def F.SHP_GCL_INTERVAL : Field := ⟨0x202000, 0x8, 0, 20⟩
/-- BMV_MOVER_CMD.OP -/
def F.BMV_MOVER_CMD_OP : Field := ⟨0x210000, 0x8, 4, 2⟩
/-- BMV_MOVER_CMD.MOVER -/
def F.BMV_MOVER_CMD_MOVER : Field := ⟨0x210000, 0x8, 0, 3⟩
/-- BMV_STOP_CNT.COUNT -/
def F.BMV_STOP_CNT_COUNT : Field := ⟨0x210008, 0x8, 0, 32⟩
/-- BMV_BYTES_CNT.COUNT -/
def F.BMV_BYTES_CNT_COUNT : Field := ⟨0x210010, 0x8, 0, 48⟩
/-- BMV_MOVER.STATE -/
def F.BMV_MOVER_STATE : Field := ⟨0x210100, 0x8, 62, 2⟩
/-- BMV_MOVER.BUSY -/
def F.BMV_MOVER_BUSY : Field := ⟨0x210100, 0x8, 32, 6⟩
/-- BMV_MOVER.STOPS -/
def F.BMV_MOVER_STOPS : Field := ⟨0x210100, 0x8, 0, 16⟩
/-- DTM_CTL.JOIN -/
def F.DTM_CTL_JOIN : Field := ⟨0x220000, 0x8, 63, 1⟩
/-- DTM_CTL.BUSY -/
def F.DTM_CTL_BUSY : Field := ⟨0x220000, 0x8, 62, 1⟩
/-- DTM_CTL.ERR -/
def F.DTM_CTL_ERR : Field := ⟨0x220000, 0x8, 61, 1⟩
/-- DTM_CTL.SEED -/
def F.DTM_CTL_SEED : Field := ⟨0x220000, 0x8, 20, 20⟩
/-- DTM_CTL.BASE_MIB -/
def F.DTM_CTL_BASE_MIB : Field := ⟨0x220000, 0x8, 0, 20⟩
/-- DTM_EPOCH.EPOCH -/
def F.DTM_EPOCH_EPOCH : Field := ⟨0x220008, 0x8, 0, 32⟩
/-- DTM_LEASE_CFG.RENEW_US -/
def F.DTM_LEASE_CFG_RENEW_US : Field := ⟨0x220010, 0x8, 16, 16⟩
/-- DTM_LEASE_CFG.LEN_US -/
def F.DTM_LEASE_CFG_LEN_US : Field := ⟨0x220010, 0x8, 0, 16⟩
/-- DTM_GRACE_CFG.GRACE_US -/
def F.DTM_GRACE_CFG_GRACE_US : Field := ⟨0x220018, 0x8, 0, 16⟩
/-- DTM_SURVEY_CFG.FANOUT -/
def F.DTM_SURVEY_CFG_FANOUT : Field := ⟨0x220020, 0x8, 16, 4⟩
/-- DTM_SURVEY_CFG.PERIOD_US -/
def F.DTM_SURVEY_CFG_PERIOD_US : Field := ⟨0x220020, 0x8, 0, 16⟩
/-- DTM_STALE_CNT.COUNT -/
def F.DTM_STALE_CNT_COUNT : Field := ⟨0x220028, 0x8, 0, 32⟩
/-- DTM_LAPSE_CNT.COUNT -/
def F.DTM_LAPSE_CNT_COUNT : Field := ⟨0x220030, 0x8, 0, 32⟩
/-- DTM_QUERY_CNT.COUNT -/
def F.DTM_QUERY_CNT_COUNT : Field := ⟨0x220038, 0x8, 0, 32⟩
/-- TRV_CFG.AUTO_PARK_MS -/
def F.TRV_CFG_AUTO_PARK_MS : Field := ⟨0x230000, 0x8, 48, 16⟩
/-- TRV_CFG.STALL_MS -/
def F.TRV_CFG_STALL_MS : Field := ⟨0x230000, 0x8, 32, 16⟩
/-- TRV_CFG.LEG_US -/
def F.TRV_CFG_LEG_US : Field := ⟨0x230000, 0x8, 16, 16⟩
/-- TRV_CFG.CODE -/
def F.TRV_CFG_CODE : Field := ⟨0x230000, 0x8, 8, 1⟩
/-- TRV_CFG.LEGS_OUT -/
def F.TRV_CFG_LEGS_OUT : Field := ⟨0x230000, 0x8, 0, 4⟩
/-- TRV_OPEN.COUNT -/
def F.TRV_OPEN_COUNT : Field := ⟨0x230008, 0x8, 0, 9⟩
/-- TRV_LEG_CNT.COUNT -/
def F.TRV_LEG_CNT_COUNT : Field := ⟨0x230010, 0x8, 0, 32⟩
/-- TRV_CLOSE_CNT.COUNT -/
def F.TRV_CLOSE_CNT_COUNT : Field := ⟨0x230018, 0x8, 0, 32⟩
/-- TRV_ABANDON_CNT.COUNT -/
def F.TRV_ABANDON_CNT_COUNT : Field := ⟨0x230020, 0x8, 0, 32⟩
/-- TRV_RESUME_CNT.COUNT -/
def F.TRV_RESUME_CNT_COUNT : Field := ⟨0x230028, 0x8, 0, 32⟩
/-- TRV_DEST.EN -/
def F.TRV_DEST_EN : Field := ⟨0x230100, 0x8, 63, 1⟩
/-- TRV_DEST.CACHE_COUNT -/
def F.TRV_DEST_CACHE_COUNT : Field := ⟨0x230100, 0x8, 40, 8⟩
/-- TRV_DEST.GEN_COUNT -/
def F.TRV_DEST_GEN_COUNT : Field := ⟨0x230100, 0x8, 32, 8⟩
/-- TRV_DEST.CACHE_BASE -/
def F.TRV_DEST_CACHE_BASE : Field := ⟨0x230100, 0x8, 16, 16⟩
/-- TRV_DEST.GEN_BASE -/
def F.TRV_DEST_GEN_BASE : Field := ⟨0x230100, 0x8, 0, 16⟩
/-- CON_CTL.EN -/
def F.CON_CTL_EN : Field := ⟨0x240000, 0x8, 63, 1⟩
/-- CON_CTL.AUTO_REINT -/
def F.CON_CTL_AUTO_REINT : Field := ⟨0x240000, 0x8, 62, 1⟩
/-- CON_CMD.OP -/
def F.CON_CMD_OP : Field := ⟨0x240008, 0x8, 0, 2⟩
/-- CON_STAT.STATE -/
def F.CON_STAT_STATE : Field := ⟨0x240010, 0x8, 61, 3⟩
/-- CON_STAT.EXPOSED -/
def F.CON_STAT_EXPOSED : Field := ⟨0x240010, 0x8, 60, 1⟩
/-- CON_STAT.PHASE -/
def F.CON_STAT_PHASE : Field := ⟨0x240010, 0x8, 57, 3⟩
/-- CON_STAT.SIDEBAND_OK -/
def F.CON_STAT_SIDEBAND_OK : Field := ⟨0x240010, 0x8, 56, 1⟩
/-- CON_STAT.PORTS_UP -/
def F.CON_STAT_PORTS_UP : Field := ⟨0x240010, 0x8, 52, 4⟩
/-- CON_STAT.CMD_STATUS -/
def F.CON_STAT_CMD_STATUS : Field := ⟨0x240010, 0x8, 0, 16⟩
/-- CON_CFG.DRAIN_KIB -/
def F.CON_CFG_DRAIN_KIB : Field := ⟨0x240018, 0x8, 8, 16⟩
/-- CON_CFG.ACK_US -/
def F.CON_CFG_ACK_US : Field := ⟨0x240018, 0x8, 0, 8⟩
/-- CON_MIRROR.SIZE_MIB -/
def F.CON_MIRROR_SIZE_MIB : Field := ⟨0x240020, 0x8, 20, 20⟩
/-- CON_MIRROR.BASE_MIB -/
def F.CON_MIRROR_BASE_MIB : Field := ⟨0x240020, 0x8, 0, 20⟩
/-- CON_DELTA.SIZE_GIB -/
def F.CON_DELTA_SIZE_GIB : Field := ⟨0x240028, 0x8, 32, 16⟩
/-- CON_DELTA.BASE_MIB -/
def F.CON_DELTA_BASE_MIB : Field := ⟨0x240028, 0x8, 0, 20⟩
/-- CON_BULK_PROG.TOTAL_GIB -/
def F.CON_BULK_PROG_TOTAL_GIB : Field := ⟨0x240030, 0x8, 32, 32⟩
/-- CON_BULK_PROG.DONE_GIB -/
def F.CON_BULK_PROG_DONE_GIB : Field := ⟨0x240030, 0x8, 0, 32⟩
/-- CON_CMP_CFG.EN -/
def F.CON_CMP_CFG_EN : Field := ⟨0x240038, 0x8, 63, 1⟩
/-- CON_CMP_CFG.YIELD_ON_FAIL -/
def F.CON_CMP_CFG_YIELD_ON_FAIL : Field := ⟨0x240038, 0x8, 62, 1⟩
/-- CON_CMP_CFG.PERIOD_MS -/
def F.CON_CMP_CFG_PERIOD_MS : Field := ⟨0x240038, 0x8, 32, 16⟩
/-- CON_CMP_CFG.KHANDLE -/
def F.CON_CMP_CFG_KHANDLE : Field := ⟨0x240038, 0x8, 0, 12⟩
/-- CON_CMP_TENS0.B -/
def F.CON_CMP_TENS0_B : Field := ⟨0x240040, 0x8, 32, 32⟩
/-- CON_CMP_TENS0.A -/
def F.CON_CMP_TENS0_A : Field := ⟨0x240040, 0x8, 0, 32⟩
/-- CON_CMP_TENS1.EXPECT -/
def F.CON_CMP_TENS1_EXPECT : Field := ⟨0x240048, 0x8, 32, 32⟩
/-- CON_CMP_TENS1.C -/
def F.CON_CMP_TENS1_C : Field := ⟨0x240048, 0x8, 0, 32⟩
/-- CON_TAKEOVER_CNT.COUNT -/
def F.CON_TAKEOVER_CNT_COUNT : Field := ⟨0x240050, 0x8, 0, 32⟩
/-- CON_MISS_CNT.COUNT -/
def F.CON_MISS_CNT_COUNT : Field := ⟨0x240058, 0x8, 0, 32⟩
/-- CON_REINT_CNT.COUNT -/
def F.CON_REINT_CNT_COUNT : Field := ⟨0x240060, 0x8, 0, 32⟩
/-- CON_CMP_FAIL_CNT.COUNT -/
def F.CON_CMP_FAIL_CNT_COUNT : Field := ⟨0x240068, 0x8, 0, 32⟩
/-- CLK_STAT.PSTATE -/
def F.CLK_STAT_PSTATE : Field := ⟨0x20000, 0x8, 61, 3⟩
/-- CLK_STAT.GATED -/
def F.CLK_STAT_GATED : Field := ⟨0x20000, 0x8, 60, 1⟩
/-- CLK_STAT.DROOP -/
def F.CLK_STAT_DROOP : Field := ⟨0x20000, 0x8, 59, 1⟩
/-- CLK_STAT.LAST_RESET -/
def F.CLK_STAT_LAST_RESET : Field := ⟨0x20000, 0x8, 57, 2⟩
/-- CLK_STAT.CAUSE -/
def F.CLK_STAT_CAUSE : Field := ⟨0x20000, 0x8, 32, 16⟩
/-- CLK_STAT.CORE_MHZ -/
def F.CLK_STAT_CORE_MHZ : Field := ⟨0x20000, 0x8, 0, 11⟩
/-- CLK_DROOP_CFG.TRIP_PCT -/
def F.CLK_DROOP_CFG_TRIP_PCT : Field := ⟨0x20008, 0x8, 0, 3⟩
/-- CLK_PWR_CFG.FORCE -/
def F.CLK_PWR_CFG_FORCE : Field := ⟨0x20010, 0x8, 63, 1⟩
/-- CLK_PWR_CFG.WINDOW_US -/
def F.CLK_PWR_CFG_WINDOW_US : Field := ⟨0x20010, 0x8, 32, 16⟩
/-- CLK_PWR_CFG.CAP_MHZ -/
def F.CLK_PWR_CFG_CAP_MHZ : Field := ⟨0x20010, 0x8, 21, 11⟩
/-- CLK_PWR_CFG.LIMIT_W -/
def F.CLK_PWR_CFG_LIMIT_W : Field := ⟨0x20010, 0x8, 0, 10⟩
/-- CLK_IDLE_CFG.IDLE_US -/
def F.CLK_IDLE_CFG_IDLE_US : Field := ⟨0x20018, 0x8, 0, 16⟩
/-- CLK_PSTATE_CMD.OP -/
def F.CLK_PSTATE_CMD_OP : Field := ⟨0x20020, 0x8, 0, 2⟩
/-- CLK_RESET_CMD.KEY -/
def F.CLK_RESET_CMD_KEY : Field := ⟨0x20028, 0x8, 8, 8⟩
/-- CLK_RESET_CMD.OP -/
def F.CLK_RESET_CMD_OP : Field := ⟨0x20028, 0x8, 0, 2⟩
/-- CLK_HBM_CMD.OP -/
def F.CLK_HBM_CMD_OP : Field := ⟨0x20030, 0x8, 62, 2⟩
/-- CLK_HBM_CMD.COUNT_M1 -/
def F.CLK_HBM_CMD_COUNT_M1 : Field := ⟨0x20030, 0x8, 16, 10⟩
/-- CLK_HBM_CMD.FIRST -/
def F.CLK_HBM_CMD_FIRST : Field := ⟨0x20030, 0x8, 0, 10⟩
/-- CLK_HBM_CMD_STAT.BUSY -/
def F.CLK_HBM_CMD_STAT_BUSY : Field := ⟨0x20038, 0x8, 63, 1⟩
/-- CLK_HBM_CMD_STAT.LOST -/
def F.CLK_HBM_CMD_STAT_LOST : Field := ⟨0x20038, 0x8, 62, 1⟩
/-- CLK_HBM_CMD_STAT.DONE -/
def F.CLK_HBM_CMD_STAT_DONE : Field := ⟨0x20038, 0x8, 32, 10⟩
/-- CLK_HBM_CMD_STAT.FAILED -/
def F.CLK_HBM_CMD_STAT_FAILED : Field := ⟨0x20038, 0x8, 16, 10⟩
/-- CLK_HBM_CMD_STAT.STATUS -/
def F.CLK_HBM_CMD_STAT_STATUS : Field := ⟨0x20038, 0x8, 0, 16⟩
/-- CLK_DROOP_CNT.COUNT -/
def F.CLK_DROOP_CNT_COUNT : Field := ⟨0x20040, 0x8, 0, 32⟩
/-- CLK_TRIM_CNT.COUNT -/
def F.CLK_TRIM_CNT_COUNT : Field := ⟨0x20048, 0x8, 0, 32⟩
/-- CLK_HBM_MAP.SUSPECT -/
def F.CLK_HBM_MAP_SUSPECT : Field := ⟨0x20100, 0x8, 0, 64⟩
/-- SEC_BOOT_ADDR.BASE -/
def F.SEC_BOOT_ADDR_BASE : Field := ⟨0x10000, 0x8, 12, 52⟩
/-- SEC_BOOT_CMD.OP -/
def F.SEC_BOOT_CMD_OP : Field := ⟨0x10008, 0x8, 0, 2⟩
/-- SEC_BOOT_STAT.STAGE -/
def F.SEC_BOOT_STAT_STAGE : Field := ⟨0x10010, 0x8, 61, 3⟩
/-- SEC_BOOT_STAT.IMAGE -/
def F.SEC_BOOT_STAT_IMAGE : Field := ⟨0x10010, 0x8, 16, 2⟩
/-- SEC_BOOT_STAT.STATUS -/
def F.SEC_BOOT_STAT_STATUS : Field := ⟨0x10010, 0x8, 0, 16⟩
/-- SEC_PROT_LOCK.LOCK -/
def F.SEC_PROT_LOCK_LOCK : Field := ⟨0x10018, 0x8, 0, 1⟩
/-- SEC_LIFECYCLE.MIN_SVN_PROT -/
def F.SEC_LIFECYCLE_MIN_SVN_PROT : Field := ⟨0x10020, 0x8, 26, 6⟩
/-- SEC_LIFECYCLE.MIN_SVN_RUNTIME -/
def F.SEC_LIFECYCLE_MIN_SVN_RUNTIME : Field := ⟨0x10020, 0x8, 20, 6⟩
/-- SEC_LIFECYCLE.MIN_SVN_STAGE1 -/
def F.SEC_LIFECYCLE_MIN_SVN_STAGE1 : Field := ⟨0x10020, 0x8, 14, 6⟩
/-- SEC_LIFECYCLE.REVOKED -/
def F.SEC_LIFECYCLE_REVOKED : Field := ⟨0x10020, 0x8, 10, 4⟩
/-- SEC_LIFECYCLE.DEBUG -/
def F.SEC_LIFECYCLE_DEBUG : Field := ⟨0x10020, 0x8, 9, 1⟩
/-- SEC_LIFECYCLE.OWNED -/
def F.SEC_LIFECYCLE_OWNED : Field := ⟨0x10020, 0x8, 8, 1⟩
/-- SEC_REJECT_CNT.COUNT -/
def F.SEC_REJECT_CNT_COUNT : Field := ⟨0x10028, 0x8, 0, 32⟩
/-- RAS_STAT.REPLACE -/
def F.RAS_STAT_REPLACE : Field := ⟨0x250000, 0x8, 63, 1⟩
/-- RAS_STAT.RETIRE_USED -/
def F.RAS_STAT_RETIRE_USED : Field := ⟨0x250000, 0x8, 32, 9⟩
/-- RAS_STAT.SRAM_SPARES -/
def F.RAS_STAT_SRAM_SPARES : Field := ⟨0x250000, 0x8, 0, 4⟩
/-- RAS_CFG.STEP_FAIL_MAX -/
def F.RAS_CFG_STEP_FAIL_MAX : Field := ⟨0x250008, 0x8, 16, 8⟩
/-- RAS_CFG.MERGE_MS -/
def F.RAS_CFG_MERGE_MS : Field := ⟨0x250008, 0x8, 0, 16⟩
/-- RAS_REC_SEQ.ANY -/
def F.RAS_REC_SEQ_ANY : Field := ⟨0x250010, 0x8, 32, 1⟩
/-- RAS_REC_SEQ.SEQ -/
def F.RAS_REC_SEQ_SEQ : Field := ⟨0x250010, 0x8, 0, 32⟩
/-- RAS_REC_CNT.COUNT -/
def F.RAS_REC_CNT_COUNT : Field := ⟨0x250018, 0x8, 0, 32⟩
/-- RAS_ACCT_UP.SECONDS -/
def F.RAS_ACCT_UP_SECONDS : Field := ⟨0x250020, 0x8, 0, 40⟩
/-- RAS_ACCT_EXPOSED.MS -/
def F.RAS_ACCT_EXPOSED_MS : Field := ⟨0x250028, 0x8, 0, 48⟩
/-- RAS_RETIRE.VALID -/
def F.RAS_RETIRE_VALID : Field := ⟨0x254000, 0x8, 63, 1⟩
/-- RAS_RETIRE.KIND -/
def F.RAS_RETIRE_KIND : Field := ⟨0x254000, 0x8, 52, 4⟩
/-- RAS_RETIRE.UNIT -/
def F.RAS_RETIRE_UNIT : Field := ⟨0x254000, 0x8, 36, 16⟩
/-- RAS_RETIRE.ROW -/
def F.RAS_RETIRE_ROW : Field := ⟨0x254000, 0x8, 0, 36⟩
/-- RAS_REC.WORD -/
def F.RAS_REC_WORD : Field := ⟨0x258000, 0x8, 0, 64⟩
/-- MGT_THERM_CFG.TRIP_C -/
def F.MGT_THERM_CFG_TRIP_C : Field := ⟨0x260100, 0x8, 8, 8⟩
/-- MGT_THERM_CFG.ALERT_C -/
def F.MGT_THERM_CFG_ALERT_C : Field := ⟨0x260100, 0x8, 0, 8⟩
/-- MGT_THERM_STAT.DIE_MAX_C -/
def F.MGT_THERM_STAT_DIE_MAX_C : Field := ⟨0x260108, 0x8, 56, 8⟩
/-- MGT_THERM_STAT.HBM_MAX_C -/
def F.MGT_THERM_STAT_HBM_MAX_C : Field := ⟨0x260108, 0x8, 48, 8⟩
/-- MGT_THERM_STAT.HOT_SITE -/
def F.MGT_THERM_STAT_HOT_SITE : Field := ⟨0x260108, 0x8, 43, 5⟩
/-- MGT_THERM_STAT.HOT_STACK -/
def F.MGT_THERM_STAT_HOT_STACK : Field := ⟨0x260108, 0x8, 40, 3⟩
/-- MGT_THERM_STAT.ALERT_CNT -/
def F.MGT_THERM_STAT_ALERT_CNT : Field := ⟨0x260108, 0x8, 0, 24⟩
/-- GLB_ID.VARIANT -/
def F.GLB_ID_VARIANT : Field := ⟨0x0, 0x8, 40, 4⟩
/-- GLB_ID.STEPPING -/
def F.GLB_ID_STEPPING : Field := ⟨0x0, 0x8, 32, 8⟩
/-- GLB_ID.PART -/
def F.GLB_ID_PART : Field := ⟨0x0, 0x8, 16, 16⟩
/-- GLB_ID.VENDOR -/
def F.GLB_ID_VENDOR : Field := ⟨0x0, 0x8, 0, 16⟩
/-- GLB_CAP.DESC_VER -/
def F.GLB_CAP_DESC_VER : Field := ⟨0x8, 0x8, 28, 4⟩
/-- GLB_CAP.PACK -/
def F.GLB_CAP_PACK : Field := ⟨0x8, 0x8, 7, 1⟩
/-- GLB_CAP.HDM -/
def F.GLB_CAP_HDM : Field := ⟨0x8, 0x8, 6, 1⟩
/-- GLB_CAP.SEM -/
def F.GLB_CAP_SEM : Field := ⟨0x8, 0x8, 5, 1⟩
/-- GLB_CAP.TAKE -/
def F.GLB_CAP_TAKE : Field := ⟨0x8, 0x8, 4, 1⟩
/-- GLB_CAP.GATHER -/
def F.GLB_CAP_GATHER : Field := ⟨0x8, 0x8, 3, 1⟩
/-- GLB_CAP.MOVE -/
def F.GLB_CAP_MOVE : Field := ⟨0x8, 0x8, 2, 1⟩
/-- GLB_CAP.KERNEL -/
def F.GLB_CAP_KERNEL : Field := ⟨0x8, 0x8, 1, 1⟩
/-- GLB_CAP.REQ -/
def F.GLB_CAP_REQ : Field := ⟨0x8, 0x8, 0, 1⟩
/-- GLB_STAT.READY -/
def F.GLB_STAT_READY : Field := ⟨0x10, 0x8, 63, 1⟩
/-- GLB_STAT.REPLACE -/
def F.GLB_STAT_REPLACE : Field := ⟨0x10, 0x8, 62, 1⟩
/-- GLB_STAT.EXPOSED -/
def F.GLB_STAT_EXPOSED : Field := ⟨0x10, 0x8, 61, 1⟩
/-- GLB_STAT.THERM_ALERT -/
def F.GLB_STAT_THERM_ALERT : Field := ⟨0x10, 0x8, 60, 1⟩
/-- GLB_STAT.PSTATE -/
def F.GLB_STAT_PSTATE : Field := ⟨0x10, 0x8, 57, 3⟩
/-- GLB_STAT.POOL_EN -/
def F.GLB_STAT_POOL_EN : Field := ⟨0x10, 0x8, 56, 1⟩
/-- GLB_STAT.FLT_EN -/
def F.GLB_STAT_FLT_EN : Field := ⟨0x10, 0x8, 55, 1⟩
/-- GLB_STAT.JOINED -/
def F.GLB_STAT_JOINED : Field := ⟨0x10, 0x8, 54, 1⟩
/-- GLB_STAT.HBM_SUSPECT -/
def F.GLB_STAT_HBM_SUSPECT : Field := ⟨0x10, 0x8, 53, 1⟩
/-- GLB_STAT.FAB_UP -/
def F.GLB_STAT_FAB_UP : Field := ⟨0x10, 0x8, 32, 6⟩
/-- GLB_STAT.REC_SEQ -/
def F.GLB_STAT_REC_SEQ : Field := ⟨0x10, 0x8, 0, 32⟩
/-- GLB_MGMT_CYCLES.COUNT -/
def F.GLB_MGMT_CYCLES_COUNT : Field := ⟨0x18, 0x8, 0, 64⟩
/-- GLB_SCRATCH.VALUE -/
def F.GLB_SCRATCH_VALUE : Field := ⟨0x20, 0x8, 0, 64⟩

end Sys2Proof.Machine
end

