-- ==== Sys2Proof/Machine/TypesRun.lean ====
section
/-! DEFINITION. The state of the matrix engine, the packer, attention, the sampler and gather: plain data. -/

namespace Sys2Proof.Machine

open Sys2Proof

/-! ### Matrix engine -/

/-- Core states (R173). -/
inductive CoreSt where
  | active | spare | retired | test | rejoin
  deriving DecidableEq, Repr

/-- A matrix core (R170–R175). -/
structure MxCore where
  st : CoreSt
  /-- Slot it stands behind; 0x7F for none. -/
  slot : Nat
  strike : Bool
  /-- Consecutive passing units (R171). -/
  passes : Nat
  mismatch : Nat
  /-- A RETIRE waits for the kernel boundary (R174). -/
  leaving : Bool
  /-- The slot a retrying spare takes at the kernel boundary (R170). -/
  takes : Option Nat
  deriving DecidableEq, Repr

/-- A loaded kernel: its 32 words, owner and image (R157, R158). -/
structure Kernel where
  words : List Word
  ctx : Nat
  tenant : Nat
  image : Nat
  deriving DecidableEq, Repr

/-- A tensor (R156): its local offset, and its length in bytes; `image` is 0 for one that PACK made. -/
structure Tensor where
  fmt : Nat
  layout : Nat
  coded : Bool
  hbm : Bool
  rows : Nat
  cols : Nat
  base : Nat
  len : Nat
  ctx : Nat
  image : Nat
  deriving DecidableEq, Repr

/-- A running KERNEL_RUN or PACK by its flight. -/
structure Run where
  desc : Desc
  /-- Kernel handle and rows, for KERNEL_RUN. -/
  kernel : Nat
  rows : Nat
  /-- EXP_FALLBACK.NUM latched at the start of a PACK (R192). -/
  num : Nat
  numeric : Bool
  failed : Option Status
  /-- Units, as (row group, column tile) within a product, whose output is never written (R170, R198). -/
  lost : List Nat
  deriving DecidableEq, Repr

/-- A unit that waits for its retry, or whose retry runs (R170). -/
structure Retry where
  flight : Nat
  kernel : Nat
  unit : Nat
  core : Nat
  deriving DecidableEq, Repr

/-- The matrix engine and what is loaded into it. -/
structure MxeState where
  cores : List MxCore
  kernels : Tbl Kernel
  tensors : Tbl Tensor
  /-- Model handles, with their image. -/
  models : Tbl Nat
  nextImage : Nat
  runs : Tbl Run
  retries : List Retry
  /-- The status a core unit of the running step or prompt unit gave it. -/
  bad : Option Status
  /-- Blocks whose first read failed its CRC: flight, tensor and block (R198). -/
  reread : List (Nat × Nat × Nat)
  /-- A core command in progress: TEST for true, and the core (R174). -/
  cmd : Option (Bool × Nat)
  deriving DecidableEq, Repr

/-- A core behind a slot at the start. -/
def MxCore.fresh (st : CoreSt) (slot : Nat) : MxCore := ⟨st, slot, false, 0, 0, false, none⟩

/-- The slot map when some cores start retired: the others fill slots in ascending core number (R173). -/
def startCores (retired : Nat → Bool) : Nat → Nat → List MxCore
  | 0, _ => []
  | n + 1, slot =>
    if retired (100 - (n + 1)) then MxCore.fresh .retired 0x7F :: startCores retired n slot
    else if slot < 96 then MxCore.fresh .active slot :: startCores retired n (slot + 1)
    else MxCore.fresh .spare 0x7F :: startCores retired n slot

/-- The matrix engine after reset (R173): nothing loaded, 96 cores ACTIVE and 4 SPARE. -/
def MxeState.reset : MxeState := ⟨startCores (fun _ => false) 100 0, [], [], [], 1, [], [], none, [], none⟩

/-! ### Attention -/

/-- A partial as it is merged (R245), with the merge home's count of what is in. -/
structure Partial where
  max : Nat
  den : F32
  num : List F32
  count : Nat
  first : Nat
  upto : Nat
  flushed : Bool
  numeric : Bool
  /-- Records merged so far, and the number the row awaits (R246). -/
  merged : Nat
  deriving DecidableEq, Repr

/-- An outstanding request to a cache controller (R249): request, layer, KV head, node and the entries it asked for. -/
structure PartialAsk where
  req : Nat
  layer : Nat
  head : Nat
  node : Nat
  rows : Nat
  deriving DecidableEq, Repr

/-- The attention unit. -/
structure AttState where
  /-- Merged rows by key: request, layer, query head, query row. -/
  rows : Tbl Partial
  /-- Outstanding requests to the cache pool, by TAG. -/
  asks : Tbl PartialAsk
  nextTag : Nat
  /-- Finished rows of this step, by the same key (R246). -/
  results : Tbl (List F32)
  /-- Groups an outside holder has notified of missing pages of a request (R221): request and group. -/
  told : List (Nat × Nat)
  deriving DecidableEq, Repr

/-- The attention unit after reset. -/
def AttState.reset : AttState := ⟨[], [], 0, [], []⟩

/-! ### Sampler -/

/-- A row that the sampling home gathers (R264–R267): summaries and draws by slot. -/
structure SmpRow where
  summaries : Tbl (List Word)
  theta : Option Nat
  draws : Tbl (Option (Nat × Nat))
  deriving DecidableEq, Repr

/-- A result the step leader or a member keeps until it is released (R269, R442): accepted slots, delivered tokens, the
next tree, and the status that ends the request, if any. -/
structure SmpResult where
  accepted : List Nat
  tokens : List Nat
  tree : List Nat
  late : Bool
  discard : Bool
  /-- Status of the final record, where the request ends here. -/
  final : Option Status
  numeric : Status
  /-- Step, position of the first token, and the members that have reported it mirrored (R443). -/
  step : Nat
  pos : Nat
  reported : List Nat
  deriving DecidableEq, Repr

/-- Head candidates of one slice at one row: for each head, tokens and codes (R270). -/
structure HeadLists where
  lists : List (List (Nat × Nat))
  deriving DecidableEq, Repr

/-- The sampler. -/
structure SmpState where
  /-- Count tables of this slice by request; entries by bucket × 8 + way: TAG and COUNT (R261). -/
  counts : Tbl (Tbl (Nat × Nat))
  /-- Codes of this slice by row (request × 64 + node), after the operations of R263. -/
  codes : Tbl (List Nat)
  /-- Rows this controller is the sampling home of. -/
  rows : Tbl SmpRow
  /-- Head candidate lists the home holds: by row, then slot, heads in order (R270). -/
  heads : Tbl (Tbl HeadLists)
  /-- Tokens of the tree nodes of the next step, node 0 first (R268). -/
  trees : Tbl (List Nat)
  /-- Results that wait for every member's report (R442). -/
  results : Tbl SmpResult
  /-- Requests of this controller's host that wait for a choice: the output position (R272). -/
  choices : Tbl Nat
  /-- Logit slices received for a request: positions and slots (R272). -/
  slices : Tbl (List Nat)
  deriving DecidableEq, Repr

/-- The sampler after reset. -/
def SmpState.reset : SmpState := ⟨[], [], [], [], [], [], [], []⟩

end Sys2Proof.Machine
end

