-- ==== Sys2Proof/Machine/TypesHost.lean ====
section
/-! DEFINITION. The state of the host port, the scheduler, the memories, clocks, boot and error units: plain data. -/

namespace Sys2Proof.Machine

open Sys2Proof

/-! ### Host port (chapter "Host port, rings and completions") -/

/-- One submission ring of a context-table entry (R61). -/
structure RingCfg where
  base : Nat
  cq : Nat
  log2 : Nat
  deriving DecidableEq, Repr

/-- One completion queue of a context-table entry (R61). -/
structure CqCfg where
  base : Nat
  log2 : Nat
  vector : Nat
  vecEn : Bool
  deriving DecidableEq, Repr

/-- A context-table entry (R61). -/
structure CtxEntry where
  tenant : Nat
  dbAddr : Nat
  rheadAddr : Nat
  cqheadAddr : Nat
  rings : List RingCfg
  cqs : List CqCfg
  deriving DecidableEq, Repr

/-- A completion record that waits for a free slot of its queue (R78): the words but for PHASE. -/
structure HeldRecord where
  w0 : Word
  w1 : Word
  w2 : Word
  w3 : Word
  intr : Bool
  req : Nat
  deriving DecidableEq, Repr

/-- The counts of one ring (R64, R66): fetched count, last TAIL seen, and the fetched descriptors not yet dispatched. -/
structure RingState where
  fetched : Nat
  tail : Nat
  waiting : List Desc
  deriving DecidableEq, Repr

/-- The counts of one queue (R64, R78): producer count, last consumed count read, whether its CQHEAD line is watched,
and its delayed records. -/
structure CqState where
  prod : Nat
  cons : Nat
  watch : Bool
  delayed : List HeldRecord
  deriving DecidableEq, Repr

/-- A teardown or disable in progress (R119, R63). -/
structure Teardown where
  cause : Status
  /-- False for DISABLE, which posts no event (R63). -/
  fault : Bool
  /-- Steps 2 and on of R119 have begun. -/
  started : Bool
  released : Nat
  aborted : Nat
  deriving DecidableEq, Repr

/-- An enabled context. -/
structure Ctx where
  entry : CtxEntry
  rings : List RingState
  cqs : List CqState
  /-- The doorbell line is held shared (R66). -/
  armed : Bool
  /-- A re-read of the doorbell line is outstanding (R66). -/
  pending : Bool
  down : Option Teardown
  deriving DecidableEq, Repr

/-- The context command in progress (R62, R63). -/
structure CtxCmd where
  enable : Bool
  ctx : Nat
  deriving DecidableEq, Repr

/-- A descriptor taken from a ring that has not written its final record (R66, R76, R82). -/
structure Flight where
  key : DescKey
  opcode : Nat
  nocomp : Bool
  intr : Bool
  tag : Nat
  req : Nat
  /-- Its record is ready and waits for an earlier descriptor with the same REQUEST_ID (R82): status, position word
  (COUNT and POSITION), DETAIL and LATE. -/
  ready : Option (Status × Word × Word × Bool)
  deriving DecidableEq, Repr

/-- A REQ_POST in flight at the controller that fetched it: what its deliveries need (R74, R75, R92, R272). -/
structure Post where
  flight : Nat
  outAddr : Nat
  outLog2 : Nat
  model : Nat
  param : List Word
  deriving DecidableEq, Repr

/-- The host port. -/
structure HptState where
  ctxs : Tbl Ctx
  cmd : Option CtxCmd
  /-- Event producer count, which is SEQ (R79). -/
  evProd : Nat
  /-- Descriptors in flight by identifier (context, ring, count). -/
  flight : Tbl Flight
  /-- REQ_POSTs without a final record, by request. -/
  posts : Tbl Post
  /-- The link has trained (R56). -/
  trained : Bool
  /-- The last module failed: the port is down until a controller reset (R58). -/
  portDown : Bool
  /-- Lines of the HDM window, by offset / 64, that the host may hold: it read them, and no write here has taken them back (R59). -/
  hdmHeld : List Nat
  /-- Requests that contexts created here and that are not released, by request: the context (R92, R119). -/
  made : Tbl Nat
  deriving DecidableEq, Repr

/-! ### Scheduler (chapter "Contexts, scheduling and deadlines") -/

/-- Where a request stands in this controller's group (R98, "A request's life"). -/
inductive Phase where
  | posted | prefill | decode | parked | traversing | ended
  deriving DecidableEq, Repr

/-- A request this controller's group serves. -/
structure Req where
  /-- The REQ_POST's descriptor, its node, tag and record options (R92). -/
  key : DescKey
  origin : Nat
  tag : Nat
  nocomp : Bool
  intr : Bool
  tenant : Nat
  phase : Phase
  /-- Payload of R74. -/
  model : Nat
  standin : Option Nat
  budget : Nat
  discard : Bool
  resume : Nat
  sampleMode : Nat
  kv4 : Bool
  specHeads : Nat
  outAddr : Nat
  outLog2 : Nat
  maxNew : Nat
  param : List Word
  /-- Committed context length and the next output position. -/
  committed : Nat
  pos : Nat
  /-- Tokens generated in this turn, against MAX_NEW. -/
  made : Nat
  /-- Prompt tokens still to prefill (R100). -/
  prefillLeft : Nat
  /-- Last step it was admitted to, plus one; 0 when never admitted (R99). -/
  lastAdmit : Nat
  onStandin : Bool
  good : Nat
  /-- Prompt tokens whose main-model pages are not yet appended (R115). -/
  behind : Nat
  /-- Causes of a hold (R98, R510): a DROPPED page, a delayed record, a damaged tensor, and the REQ_CANCEL pending. -/
  dropped : Bool
  delayed : Bool
  damaged : Bool
  /-- Waits for a frame of a class (R214), for a mirror frame, or for the home's answer about its pages (R251). -/
  starved : Bool
  /-- Waits for the host's choice (R272). -/
  choosing : Bool
  /-- The lease was refused: it left the roster until the home answers (R213, R412). -/
  doubt : Bool
  /-- REQ_CANCELs that asked for its end, by node and descriptor. -/
  cancel : List (Nat × DescKey)
  /-- The NUMERIC code that the next record of this request carries, 0x0000 for none (R50). -/
  numeric : Status
  /-- IN_COUNT of its first turn: P of R235. -/
  firstTurn : Nat
  /-- The CACHE group that holds its parked prefix, and the positions that prefix covers (R27, R415). -/
  outside : Option Nat
  prefixLen : Nat
  /-- The next step's tree has the root alone (R271). -/
  rootOnly : Bool
  /-- Pinned by a Traverse (R421). -/
  pinned : Bool
  /-- The group that owns it: the own group, or the sibling's after a takeover (R30). -/
  group : Nat
  /-- The forecast of its next step with it on its main model keeps its budget (R116). -/
  fits : Bool
  deriving DecidableEq, Repr

/-- One instance of the admission algorithm (R99, R100). -/
structure Drr where
  ring : List Nat
  ptr : Nat
  opened : Bool
  deficit : Tbl Nat
  deriving DecidableEq, Repr

/-- What a matrix-engine unit computes (R102, R103). -/
inductive UnitKind where
  /-- One layer of a generation step. -/
  | step (model : Nat)
  /-- One layer of a prompt chunk of a request, of so many tokens. -/
  | prompt (req : Nat) (tokens : Nat)
  /-- One layer of a request's stand-in catch-up, of so many tokens (R115). -/
  | catchUp (req : Nat) (tokens : Nat)
  /-- One unit of the descriptor in flight with this identifier. -/
  | work (flight : Nat)
  deriving DecidableEq, Repr

/-- A ready or running unit (R102): class, context and PRIO of work that belongs to several contexts. -/
structure MxeUnit where
  cls : Nat
  ctx : Nat
  prio : Option Nat
  /-- Order of dispatch. -/
  seq : Nat
  kind : UnitKind
  /-- Units that remain of this work after this one. -/
  left : Nat
  deriving DecidableEq, Repr

/-- A blocked SEM_WAIT (R109). -/
structure Waiter where
  sem : Nat
  flight : Nat
  ctx : Nat
  ring : Nat
  need : Nat
  /-- TIMEOUT_US is not zero. -/
  limited : Bool
  deriving DecidableEq, Repr

/-- A lent class and PRIO (R110), by the semaphore whose owner holds it. -/
structure Inherit where
  cls : Nat
  prio : Nat
  deriving DecidableEq, Repr

/-- A roster (R95): epoch, step, and sequences with their STANDIN bit and budget. -/
structure Roster where
  epoch : Nat
  step : Nat
  seqs : List (Nat × Bool × Nat)
  /-- Model units still to end in this step. -/
  models : List Nat
  deriving DecidableEq, Repr

/-- The scheduler. -/
structure SchState where
  reqs : Tbl Req
  /-- Admission into steps and of prompt work (R99, R100). -/
  drr : Drr
  drrPrompt : Drr
  /-- The next group step number the leader sends (R95). -/
  nextStep : Nat
  /-- The last step this member started, plus one (R96). -/
  started : Nat
  roster : Option Roster
  units : List MxeUnit
  running : Option MxeUnit
  unitSeq : Nat
  sems : Tbl Nat
  waiters : List Waiter
  inherit : Tbl Inherit
  /-- Consecutive steps that committed nothing (R513). -/
  failedSteps : Nat
  /-- MGMT cycle of the last local step start (R111). -/
  startedAt : Nat
  deriving DecidableEq, Repr

/-! ### Memories, clocks, boot, errors -/

/-- A pseudo-channel that is not plainly in service (R309, R310). -/
structure PcInfo where
  suspect : Bool
  retired : Bool
  rows : Nat
  ce : Nat
  deriving DecidableEq, Repr

/-- HBM and SRAM bookkeeping (R301–R312). -/
structure MemState where
  /-- Pseudo-channels with an entry other than plain ACTIVE with zero counts. -/
  pcs : Tbl PcInfo
  /-- Stacks software named for retirement at the next reset (R310). -/
  stackCmd : List Nat
  /-- Corrected words per row in this scrub pass: key row + 2^36 × pseudo-channel (R309). -/
  rowCe : Tbl Nat
  /-- Rows repaired, to be hard-repaired at the next reset (R309). -/
  softRows : List (Nat × Nat)
  /-- Lines of 64 bytes that yielded an uncorrectable word, by offset / 64 (R311). -/
  ue : List Nat
  /-- Failed rows of SRAM macros (R515). -/
  sramRows : Tbl Nat
  deriving DecidableEq, Repr

/-- A running CHECK or CLEAR (R476). -/
structure HbmCmd where
  clear : Bool
  next : Nat
  last : Nat
  failed : Option (Nat × Status)
  deriving DecidableEq, Repr

/-- Clocks, power and reset. -/
structure ClkState where
  /-- Granules that left the suspect state (R475), rising. -/
  clean : List Nat
  hbm : Option HbmCmd
  /-- ACTIVE_PC changed, or the last reset was power-on: CHECK ends at once (R476). -/
  contentsLost : Bool
  /-- Causes of TRIM (R469). -/
  trimPower : Bool
  trimThermal : Bool
  /-- Sensors that have tripped and not cleared (R466). -/
  droopSites : List Nat
  gated : List Sys2Proof.CoreUnit
  hold : Bool
  /-- A controller fault that was raised: its reset starts once its record is written (R472). -/
  fault : Option Status
  /-- CRST_N is low: step 6 of R473 waits (R531). -/
  crstLow : Bool
  /-- PORST_N is low, or a rail holds the part in power-on reset (R531, R534). -/
  porstLow : Bool
  railsBad : Bool
  /-- Straps (R532). -/
  busSel : Bool
  addr : BitVec 3
  deriving DecidableEq, Repr

/-- Fused state (R3, R485). -/
structure Fuses where
  variant : Nat
  stepping : Nat
  revoked : Nat
  owned : Bool
  minStage1 : Nat
  minRuntime : Nat
  minProt : Nat
  deriving DecidableEq, Repr

/-- Boot and protection. -/
structure SecState where
  fuses : Fuses
  /-- The protection window (R487) as 64-bit words by byte offset from 0x0040_0000; an unlisted word is zero. -/
  window : Tbl Word
  debug : Bool
  /-- Management cores that passed their self-test (R517). -/
  cores : Nat
  /-- The image boot waits for (R482): 0 STAGE1, 1 RUNTIME, 2 PROTECTION, 3 none. -/
  image : Nat
  /-- Host address of that image (R482). -/
  imageAt : Nat
  /-- SPDM version, capabilities and algorithms negotiated (R499). -/
  spdm : Nat
  /-- Tenant flash keys, measurements and link certificates exist since boot (R496, R498). -/
  keys : Bool
  deriving DecidableEq, Repr

/-- An error record (R504) before it takes its SEQ, BOOT and CRC. -/
structure RasRec where
  status : Status
  cls : Nat
  kind : Nat
  unit : Nat
  folded : Bool
  rep : Nat
  time : Nat
  req : Nat
  ctx : Nat
  detail0 : Word
  detail1 : Word
  deriving DecidableEq, Repr

/-- A retirement-list entry (R518, R523). -/
structure Retire where
  kind : Nat
  unit : Nat
  row : Nat
  deriving DecidableEq, Repr

/-- Errors, spares and accounting: what NVS keeps, and the queue before it (R507). -/
structure RasState where
  /-- Record slots of eight words (R507). -/
  recs : Tbl (List Word)
  /-- SEQ of the next record. -/
  seq : Nat
  /-- The newest record, as it was written. -/
  newest : Option RasRec
  queue : List RasRec
  overflow : List RasRec
  boots : Nat
  retire : Tbl Retire
  replace : Bool
  sramSpares : Nat
  /-- Seconds in RUN and milliseconds exposed, with the MGMT cycles not yet counted (R522). -/
  up : Nat
  exposed : Nat
  upCycles : Nat
  exposedCycles : Nat
  deriving DecidableEq, Repr

/-- Package signals and thermal state (R536–R539). -/
structure MgtState where
  dieTemps : List Nat
  stackTemps : List Nat
  alert : Bool
  trip : Bool
  /-- Stacks at the doubled refresh rate (R538). -/
  fastRefresh : List Nat
  deriving DecidableEq, Repr

end Sys2Proof.Machine
end

