-- ==== Sys2Proof/Machine/TypesTake.lean ====
section
/-! DEFINITION. The state of takes, of the composition map, homes and leases, and of pages: plain data. -/

namespace Sys2Proof.Machine

open Sys2Proof

/-! ### Takes (chapter "Takes: hardware transactions") -/

/-- A declared object: KIND and the two parts of its key (R126). -/
structure Obj where
  kind : Nat
  hi : Nat
  lo : Nat
  deriving DecidableEq, Repr

/-- A home record (R402). -/
structure HomeRec where
  epoch : Nat
  owner : Nat
  origin : Nat
  lastTake : Nat
  deriving DecidableEq, Repr

/-- What an action does (R127). A PUT into a root, an entry's second word or a home record that a block builds names its
target, because those structures are held as structures and not as bytes. -/
inductive Act where
  | ptMap (expVer : Nat) (frame : Nat) (fromAct : Option Nat) (newVer flags : Nat)
  | alloc (cls : Nat)
  | free
  | owner (expEpoch expGroup newEpoch newGroup : Nat)
  | put (off : Nat) (bytes : List Byte)
  | ringPost (ctx q : Nat) (words : List Word)
  | mapEntry (expEpoch : Nat) (entry : List Word)
  | redirect (expState newState : Nat) (loc : Word)
  | check (expVer : Option Nat)
  /-- A PUT of LEASE into the root of a request. -/
  | putLease (req lease : Nat)
  /-- A PUT of a page-table entry's second word. -/
  | putEntry (w1 : Word)
  /-- A PUT of COMMITTED into the root of a request (R216). -/
  | putCommitted (req n : Nat)
  /-- A PUT of a home record into its new home (R404). -/
  | putHome (req : Nat) (rec : HomeRec)
  deriving DecidableEq, Repr

/-- An action: the participant that applies it, the object it declares, and what it does (R125). -/
structure Action where
  part : Nat
  obj : Obj
  act : Act
  deriving DecidableEq, Repr

/-- A slate: participants, coordinator index, map epoch and actions (R124). -/
structure Slate where
  nodes : List Nat
  coord : Nat
  epoch : Nat
  actions : List Action
  deriving DecidableEq, Repr

/-- Who asked for a take, and what follows its end. -/
inductive TakeFor where
  /-- A TAKE_SUBMIT in flight, with its context (R130). -/
  | host (flight ctx : Nat)
  /-- A slate forwarded by another participant: its node and its own number for it (R130). -/
  | forwarded (node key : Nat)
  /-- Home record creation for a REQ_POST (R403). -/
  | create (req : Nat)
  /-- Release of a home record (R127): the group that owned the request, and the REQ_RELEASE that asked, if one did. -/
  | release (req group : Nat) (flight : Option Nat)
  /-- The same for another controller's slate: its node and number; `again` where this home built it from its own record, for a
  teardown, and builds it again against a record that has changed (R432). -/
  | releaseFor (req group node key : Nat) (again : Bool)
  /-- A closing take of a Traverse (R424). -/
  | closing (req : Nat)
  /-- A confirming take (R409). -/
  | confirm (claimant : Nat) (seq : Nat)
  /-- A route entry for a port (R338). -/
  | route (port : Nat)
  /-- A hot-row migration (R286). -/
  | migrate (table row : Nat)
  /-- A bucket copy (R404). -/
  | bucket (b : Nat)
  /-- The rejoin mark of a reintegration, and its cutover take (R454). -/
  | rejoin
  | cutover
  /-- Nothing follows. -/
  | plain
  deriving DecidableEq, Repr

/-- Where the slate of a take came from, for R551. -/
inductive Source where
  /-- TAKE_SUBMIT here, with its context and tenant. -/
  | hostHere (ctx tenant : Nat)
  /-- TAKE_SUBMIT at another node. -/
  | hostAt (node : Nat)
  /-- A block or a management core. -/
  | block
  deriving DecidableEq, Repr

/-- How far a take that this controller coordinates has come (R138). -/
inductive CoordState where
  | voting
  /-- The decision is written and its mirror to the twin outstanding (R138 step 7). -/
  | decided
  /-- COMMIT or ABORT is sent (R138 step 8). -/
  | announced
  /-- Aborted with TAK_CONFLICT or TAK_WOUNDED, to begin again (R134). -/
  | retrying (against : TakeRef)
  /-- A local take that waits for its mirrored intents (R137). -/
  | mirroring
  deriving DecidableEq, Repr

/-- A take this controller coordinates. -/
structure CoordTake where
  stamp : Nat
  slate : Slate
  who : TakeFor
  src : Source
  state : CoordState
  /-- Participants, by index, that voted yes. -/
  votes : List Nat
  /-- The decision, once made: the status, and for an abort the action, participant and its own cause (R131, R141). -/
  status : Status
  badAction : Nat
  badPart : Nat
  partStatus : Status
  /-- Nodes that acknowledged the decision (R138 step 10). -/
  acks : List Nat
  tries : Nat
  retries : Nat
  /-- The context was torn down: the completion carries HPT_CTX_DOWN (R147). -/
  ctxDown : Bool
  deriving DecidableEq, Repr

/-- How far a participant has come. -/
inductive PartState where
  /-- Waits for a prepared take to end (R133). -/
  | waiting (on : TakeRef)
  /-- Intents written, their mirror outstanding (R140). -/
  | mirroring
  /-- Voted yes (R133: prepared). -/
  | prepared
  /-- Voted yes and without a decision within the limit (R143); whether the coordinator's twin was asked last. -/
  | doubt (twin : Bool)
  deriving DecidableEq, Repr

/-- A take this controller participates in, its own actions with the frames its ALLOC actions chose. -/
structure PartTake where
  stamp : Nat
  part : Nat
  epoch : Nat
  src : Source
  /-- All participants, for OWNER's ORIGIN (R403). -/
  nodes : List Nat
  actions : List (Nat × Action)
  /-- Frames reserved, by action index (R127). -/
  frames : Tbl Nat
  state : PartState
  intents : Nat
  /-- Coordinators to tell when this take's locks are released (R134). -/
  notify : List TakeRef
  deriving DecidableEq, Repr

/-- A lock: exclusive or shared, by the take that holds it (R133). -/
structure Lock where
  obj : Obj
  excl : Bool
  ref : TakeRef
  deriving DecidableEq, Repr

/-- A take that ended, for the block that asked for it: its result as R131 lays it out. -/
structure TakeEnd where
  who : TakeFor
  takeId : Nat
  status : Status
  action : Nat
  part : Nat
  partStatus : Status
  tries : Nat
  ctxDown : Bool
  deriving DecidableEq, Repr

/-- The take unit. -/
structure TakState where
  nextId : Nat
  coord : Tbl CoordTake
  part : List (TakeRef × PartTake)
  locks : List Lock
  /-- Slates forwarded to another coordinator, by their number here (R130): who waits for the end. -/
  forwarded : Tbl TakeFor
  nextFwd : Nat
  /-- TAKE_SUBMITs whose slate is being read (R130), by descriptor identifier. -/
  submits : Tbl Desc
  /-- Low 32 bits of the highest MSEQ applied in order from a node's mirror stream (R127, R454). -/
  mseq : Tbl Nat
  /-- Hot-row redirects, by table × 2^32 + row: state and location (R127, R284). -/
  redirects : Tbl (Nat × Word)
  /-- Takes that ended and whose asker has not yet acted. -/
  ended : List TakeEnd
  deriving DecidableEq, Repr

/-! ### Datum, homes and leases -/

/-- A lease holder as a home sees it (R405, R409, R410). -/
structure Holder where
  live : Bool
  twinLoss : Bool
  revoked : Bool
  deriving DecidableEq, Repr

/-- A lease as its holder sees it, by home (R405). -/
structure Lease where
  live : Bool
  /-- SEQ of the last RENEW sent and not yet answered. -/
  asked : Option Nat
  deriving DecidableEq, Repr

/-- A QUERY that its home has not answered yet: asker, SEQ and request. -/
structure HeldQuery where
  node : Nat
  seq : Nat
  req : Nat
  deriving DecidableEq, Repr

/-- The Datum and the homes. -/
structure DtmState where
  /-- Map entries of four words by node ID; an unlisted entry is all zero (R390). -/
  map : Tbl (List Word)
  /-- The map log: for each slot EPOCH mod 64, the epoch and the entries the change wrote (R400). -/
  log : Tbl (Nat × List (Nat × List Word))
  /-- MGMT cycle at which the current epoch began (R398). -/
  since : Nat
  homes : Tbl HomeRec
  holders : Tbl Holder
  leases : Tbl Lease
  /-- Requests asked about, and not yet answered (R412). -/
  queries : List Nat
  /-- CLAIMs sent and not yet answered, by home (R409). -/
  claims : Tbl Nat
  seq : Nat
  /-- The node whose map region is being copied (R395, R396). -/
  copying : Option Nat
  /-- QUERYs that wait for the decision of a take on their record (R407). -/
  held : List HeldQuery
  deriving DecidableEq, Repr

/-! ### Key/value pages -/

/-- A root (R207). -/
structure Root where
  fmt : Nat
  cls : Nat
  model : Nat
  nlayers : Nat
  nheads : Nat
  lease : Nat
  committed : Nat
  deriving DecidableEq, Repr

/-- A page-table entry (R208). -/
structure Pte where
  frame : Nat
  version : Nat
  state : Nat
  cls : Nat
  kv4 : Bool
  flash : Nat
  kb : Nat
  vb : Nat
  deriving DecidableEq, Repr

/-- An allocated frame's record (R205) and the page that names it; a frame that is not listed is free. -/
structure Frame where
  stamp : Nat
  /-- Key of the page-table entry that names it (R210). -/
  page : Option Nat
  /-- It holds a page of the twin's mirror (R222). -/
  mirror : Bool
  deriving DecidableEq, Repr

/-- A member's latest drop notice for a request, as the leader keeps it (R219, R223). -/
structure Notice where
  highest : Nat
  count : Nat
  lost : Bool
  deriving DecidableEq, Repr

/-- A running reshoot as the leader keeps it (R226): its END and the request's poster. -/
structure Reshoot where
  upto : Nat
  /-- Node that posted the REQ_RELEASE, and its descriptor's identifier there. -/
  origin : Nat
  flight : Nat
  deriving DecidableEq, Repr

/-- Key/value pages. Roots by request; page-table entries by page key; allocated frames by frame number. -/
structure KvaState where
  roots : Tbl Root
  ptes : Tbl Pte
  frames : Tbl Frame
  /-- Pages mapped for the running step (R216 step 3). -/
  mapped : List Nat
  /-- Requests whose rows this member does not write in this step (R213, R214). -/
  skip : List Nat
  /-- Requests held for want of a frame of a class (R214). -/
  starved : List (Nat × Nat)
  /-- Latest notices by request, then node (R223), and the END last announced. -/
  notices : Tbl (Tbl Notice)
  announced : Tbl Nat
  reshoots : Tbl Reshoot
  /-- REQ_RELEASE RESHOOTs of this controller that wait for the leader's answer: flight and request. -/
  asks : Tbl Nat
  /-- Frames whose demotion record is being written to flash, and the page each holds (R220). -/
  demoting : Tbl Nat
  deriving DecidableEq, Repr

/-- The take unit after reset: nothing open. -/
def TakState.reset : TakState := ⟨1, [], [], [], [], 0, [], [], [], []⟩

/-- The Datum after reset: no map, epoch 0 (R395). -/
def DtmState.reset : DtmState := ⟨[], [], 0, [], [], [], [], [], 0, none, []⟩

/-- Key/value pages after reset: the pool is disabled and empty. -/
def KvaState.reset : KvaState := ⟨[], [], [], [], [], [], [], [], [], [], []⟩

end Sys2Proof.Machine
end

