-- ==== Sys2Proof/Machine/TypesCon.lean ====
section
/-! DEFINITION. The state of Continuity: what is mirrored to the twin, and the twin's mirror here (R436–R459). -/

namespace Sys2Proof.Machine

open Sys2Proof

/-- A mirror record with its MSEQ (R440). -/
structure MirRec where
  mseq : Nat
  body : MirrorBody
  deriving DecidableEq, Repr

/-- An intent of the twin as it was mirrored (R140, R146). -/
structure MirIntent where
  ref : TakeRef
  stamp : Nat
  part : Nat
  slate : List Word
  deriving DecidableEq, Repr

/-- A decision of the twin as it was mirrored (R138, R146). -/
structure MirDecision where
  takeId : Nat
  stamp : Nat
  status : Status
  nodes : List Nat
  deriving DecidableEq, Repr

/-- The mirror of the twin's requests: everything R441 sends. Frames with `mirror` set in the pool hold its pages. -/
structure Mirror where
  roots : Tbl Root
  /-- What the twin knows of the requests (R25). -/
  reqs : Tbl Req
  ptes : Tbl Pte
  counts : Tbl (Tbl (Nat × Nat))
  trees : Tbl (List Nat)
  homes : Tbl HomeRec
  holders : Tbl (Bool × Bool)
  transits : Tbl (List Word)
  intents : List MirIntent
  decisions : List MirDecision
  deriving DecidableEq, Repr

/-- The empty mirror. -/
def Mirror.empty : Mirror := ⟨[], [], [], [], [], [], [], [], [], []⟩

/-- A step of a request committed here and not yet reported as mirrored (R443): the MSEQ of its COMMIT record, and the
sampling home that awaits the report. -/
structure Unreported where
  req : Nat
  step : Nat
  mseq : Nat
  home : Nat
  deriving DecidableEq, Repr

/-- Continuity. -/
structure ConState where
  /-- MSEQ of the next record, and the records sent and not yet acknowledged. -/
  mseq : Nat
  unacked : List MirRec
  /-- Records that wait from step 2 of R454 on. -/
  waiting : Option (List MirRec)
  /-- The delta log (R453). -/
  delta : List MirRec
  /-- Highest MSEQ applied in order from the twin, plus one; and the mirror it makes. -/
  applied : Nat
  /-- Records that arrived ahead of an earlier one. -/
  early : List MirRec
  mir : Mirror
  /-- Beats: own SEQ, SEQ of the last valid beat received, consecutive misses, consecutive beats whose ECHO lags, and valid
  beats in a row on the sideband since a fault (R437, R438, R446). -/
  beatSeq : Nat
  seen : Nat
  misses : Nat
  lags : Nat
  good : Nat
  /-- STATE of the twin as its last valid beat gave it. -/
  twinState : Nat
  /-- The hold of R445, for misses or lag, and for an overdue record. -/
  held : Bool
  overdue : Bool
  /-- Probes are out (R446). -/
  probing : Bool
  /-- A yield is in progress: 1 draining, 2 and 3 sending YIELD beats, 4 silent, 5 over (R452). -/
  yielding : Nat
  /-- Homes whose answer to the TWIN_LOSS RENEW arrived with 0x0000 (R443, R447). -/
  confirmed : List Nat
  /-- Steps of requests committed here and not yet reported as mirrored (R443). -/
  unreported : List Unreported
  /-- Position of the next audit in the frames (R456). -/
  auditAt : Nat
  /-- Phase 4's take: 1 the rejoin mark, 2 the cutover take (R454). -/
  cutover : Nat
  /-- This member serves its twin's set too, after a takeover (R448, R30). -/
  both : Bool
  /-- Requests of the twin whose confirming take has not committed (R409). -/
  claimed : List Nat
  deriving DecidableEq, Repr

/-- Continuity after reset: OFF. -/
def ConState.reset : ConState :=
  { mseq := 0, unacked := [], waiting := none, delta := [], applied := 0, early := [], mir := Mirror.empty, beatSeq := 0, seen := 0,
    misses := 0, lags := 0, good := 0, twinState := 0, held := false, overdue := false, probing := false, yielding := 0,
    confirmed := [], unreported := [], auditAt := 0, cutover := 0, both := false, claimed := [] }

end Sys2Proof.Machine
end

