-- ==== Sys2Proof/Machine/TypesFab.lean ====
section
/-! DEFINITION. The state of Ghemlink ports, remote operations, the shaper and the time gates (R332–R373): plain data. -/

namespace Sys2Proof.Machine

open Sys2Proof

/-- What a message to another controller is. -/
inductive MsgKind where
  | roster | prepare | vote | commit | abort | ack | inquiry | ended | slate | slateDone
  | dtm | mapRecord | mapFetch | epoch | dropNotice | reshootAsk | reshootEvent | reshootTokens
  | mirror | mirrorAck | partial_ | partialReply | summary | threshold | draw | verify | delivery | logits | report
  | choice | cancel | post | park | trv | get | put | response | beat | probe | check | row
  deriving DecidableEq, Repr

/-- A frame that waits for a port, or that the port has sent: its virtual channel, the node it goes to, the tag of its
operation, its bytes with fill, its stripe (R355), and whether its wait for a window is counted (R368). -/
structure GFrame where
  vc : Nat
  dest : Nat
  tag : Nat
  len : Nat
  stripe : Nat
  waited : Bool
  deriving DecidableEq, Repr

/-- A port beyond what its registers hold. -/
structure GPort where
  /-- Frames ready to send, in the order in which they became ready. -/
  queue : List GFrame
  /-- The frame on the wire. -/
  wire : Option GFrame
  /-- The replay buffer: frames sent and not acknowledged, with SEQ (R341). -/
  unacked : List (Nat × GFrame)
  /-- SEQ of the next frame sent, and the SEQ awaited. -/
  txSeq : Nat
  rxSeq : Nat
  /-- A NAK is out and the awaited SEQ has not come. -/
  naking : Bool
  /-- The SEQ last replayed from, and how often in a row (R339). -/
  replayed : Nat
  replays : Nat
  /-- Cumulative credits the peer has freed, by channel, and credits used (R349). -/
  credits : List Nat
  used : List Nat
  /-- Cumulative credits this port has freed. -/
  freed : List Nat
  /-- MGMT cycles of recent tag failures (R347). -/
  auth : List Nat
  /-- Frames sealed under the key, and the key's generation (R345, R347). -/
  sealed_ : Nat
  gen : Nat
  /-- A new key exchange runs beside traffic (R347). -/
  rekey : Bool
  /-- Link-test frames that have passed (R336). -/
  tested : Nat
  /-- A second's wait before the next training (R336, R346). -/
  retry : Bool
  /-- Frames since the last TC5 frame (R348). -/
  since5 : Nat
  deriving DecidableEq, Repr

/-- What an outstanding operation was for, where its end matters. -/
inductive OpFor where
  | message
  /-- A remote PUT of a MOVE: mover and channel (R382). -/
  | move (mover chan : Nat)
  /-- REQ_PARK asked of the owner's leader, by its flight (R417). -/
  | park (flight : Nat)
  /-- A mirror record (R440). -/
  | mirror (mseq : Nat)
  deriving DecidableEq, Repr

/-- An operation this controller has outstanding (R351). -/
structure RemoteOp where
  dest : Nat
  tc : Nat
  len : Nat
  stripe : Nat
  what : OpFor
  /-- What it carries, to send it again (R350, R399). -/
  kind : MsgKind
  words : List Word
  /-- The port its flow uses; none while it waits (R344, R351). -/
  port : Option Nat
  deriving DecidableEq, Repr

/-- A collective phase in progress, by its signal word's offset: PUT_SIGNALs expected and counted (R355). -/
structure Coll where
  need : Nat
  got : Nat
  deriving DecidableEq, Repr

/-- Ghemlink. -/
structure GlkState where
  ports : Tbl GPort
  ops : Tbl RemoteOp
  nextTag : Nat
  /-- The port of each flow, by (dest × 8 + class) × 64 + stripe (R344). -/
  flows : Tbl Nat
  colls : Tbl Coll
  deriving DecidableEq, Repr

/-- A shaped flow (R360–R363): tokens with 8 fractional bits, the absolute slot it is due in, whether that is on the overflow
list, and its rank among eligible flows. -/
structure ShpFlow where
  tokens : Nat
  due : Nat
  far : Bool
  ready : Bool
  rank : Nat
  deriving DecidableEq, Repr

/-- A port's gate cycle: the entry that runs, the MGMT cycle at which it began, and whether the list has ended under HOLD. -/
structure Gate where
  entry : Nat
  start : Nat
  held : Bool
  deriving DecidableEq, Repr

/-- The shaper. -/
structure ShpState where
  /-- Flow table, by dest × 8 + class. -/
  flows : Tbl ShpFlow
  slot : Nat
  nextRank : Nat
  /-- SHP_TC_SHAPE writes that wait for the next slot boundary (R365). -/
  shapes : Tbl Word
  /-- Gate cycles of the ports whose gates have had an anchor since EN was written 1 (R366, R367). -/
  gates : Tbl Gate
  deriving DecidableEq, Repr

/-- A port before any training. -/
def GPort.fresh : GPort :=
  { queue := [], wire := none, unacked := [], txSeq := 0, rxSeq := 0, naking := false, replayed := 0, replays := 0,
    credits := List.replicate 12 0, used := List.replicate 12 0, freed := List.replicate 12 0, auth := [],
    sealed_ := 0, gen := 0, rekey := false, tested := 0, retry := false, since5 := 0 }

/-- Ghemlink after reset. -/
def GlkState.reset : GlkState := ⟨[], [], 0, [], []⟩

/-- The shaper after reset. -/
def ShpState.reset : ShpState := ⟨[], 0, 0, [], []⟩

end Sys2Proof.Machine
end

