-- ==== Sys2Proof/Machine/TypesMem.lean ====
section
/-! DEFINITION. The state of the gather unit, the flash tier and the bulk movers (R276–R297, R316–R329, R374–R388): plain data. -/

namespace Sys2Proof.Machine

open Sys2Proof

/-! ### Flash -/

/-- A good block of a flash channel: erases, reads since the last erase, units written, age of its first write since then. -/
structure FltBlock where
  erases : Nat
  reads : Nat
  next : Nat
  age : Nat
  /-- Erased since the FTL was enabled: it need not be erased when it is allocated (R326). -/
  clean : Bool
  /-- Retired (R322). -/
  bad : Bool
  /-- It retires once its data has moved (R322). -/
  leaving : Bool
  /-- Its valid units are being moved, after which it is erased. -/
  moving : Bool
  erasing : Bool
  deriving DecidableEq, Repr

/-- Where a unit lies, and which of its 32 sectors have been written (R319, R321). -/
structure UnitMap where
  block : Nat
  slot : Nat
  mask : Nat
  deriving DecidableEq, Repr

/-- A partial unit in the merge buffers: sectors by number within the unit, whether its 1 ms has passed, and the sectors that are
being read for it (R319). -/
structure FltBuf where
  data : Tbl (List Byte)
  due : Bool
  want : List Nat
  deriving DecidableEq, Repr

/-- A unit being programmed: where, its sectors, and for a relocation the copy it was read from (R325). -/
structure FltProg where
  unit : Nat
  block : Nat
  slot : Nat
  data : Tbl (List Byte)
  mask : Nat
  old : Option (Nat × Nat)
  deriving DecidableEq, Repr

/-- An outstanding sector read: its client, none for a merge, and the block it reads (R325). -/
structure FltRead where
  client : Option FlashClient
  sector : Nat
  block : Nat
  deriving DecidableEq, Repr

/-- The flash tier. Blocks by channel × 2^20 + index; the map by unit. -/
structure FltState where
  blocks : Tbl FltBlock
  blockUnits : Nat
  map : Tbl UnitMap
  bufs : Tbl FltBuf
  progs : List FltProg
  reads : List FltRead
  age : Nat
  /-- Sectors that clients wrote and that do not yet make a 16 KiB unit of FLT_CLIENT_WR_CNT. -/
  rest : Nat
  deriving DecidableEq, Repr

/-! ### Gather -/

/-- A registered table (R276–R279): `flash` for a FLASH tail; delta and side-log entries by row (R281), and rows whose side-log entry
is frozen (R292). -/
structure GthTable where
  ctx : Nat
  tenant : Nat
  fmt : Nat
  flash : Bool
  dim : Nat
  rows : Nat
  hotRows : Nat
  hotOff : Nat
  tailBase : Nat
  deltaRows : Nat
  delta : Tbl Nat
  side : Tbl Nat
  frozen : List Nat
  deriving DecidableEq, Repr

/-- A row in the carry cache (R284): when it was last used, and its bytes. -/
structure Carried where
  used : Nat
  bytes : List Byte
  deriving DecidableEq, Repr

/-- A GATHER or UPDATE (R283–R290). -/
structure GthRun where
  desc : Desc
  lists : GatherLists
  table : Nat
  /-- It has an engine. -/
  started : Bool
  /-- Order of dispatch. -/
  order : Nat
  window : Nat
  /-- Rows that the carry cache holds, latched at the start (R296). -/
  room : Nat
  counts : Tbl Nat
  carry : Tbl Carried
  uses : Nat
  /-- The rows of the running window, whose bytes are in. -/
  rows : Tbl (List Byte)
  /-- What is to be added to each awaited row when it returns: its delta and side-log entries as they stood when it was asked for. -/
  want : Tbl (List (List F32))
  /-- The first row that an add could not reach (R313). -/
  failed : Option Nat
  /-- The rows of the windows that are over, in order. -/
  past : List (Tbl (List Byte))
  deriving DecidableEq, Repr

/-- A TABLE_REFRESH (R291): its entries, the next to start, those under way, migrations committed and the first failure. -/
structure Refresh where
  table : Nat
  entries : List Word
  next : Nat
  active : List Nat
  committed : Nat
  failed : Option (Nat × Status)
  deriving DecidableEq, Repr

/-- Steps of a migration (R292, R293). -/
inductive MigPhase where
  | t1 | draining | copying | t2
  | undo (st : Status)
  deriving DecidableEq, Repr

/-- A migration, by table × 2^32 + row: its REFRESH and entry, and where the row came from and goes to. -/
structure Migration where
  flight : Nat
  entry : Nat
  demote : Bool
  slot : Nat
  oldLoc : Word
  phase : MigPhase
  deriving DecidableEq, Repr

/-- An add that waits for take T2 of its row's migration (R292). -/
structure WaitingAdd where
  table : Nat
  row : Nat
  flight : Nat
  xs : List F32
  deriving DecidableEq, Repr

/-- The gather unit. -/
structure GthState where
  tables : Tbl GthTable
  runs : Tbl GthRun
  refresh : Tbl Refresh
  moves : Tbl Migration
  adds : List WaitingAdd
  order : Nat
  deriving DecidableEq, Repr

/-! ### Bulk movers -/

/-- A MOVE that waits for a channel (R374). -/
structure MoveWait where
  flight : Nat
  desc : Desc
  deriving DecidableEq, Repr

/-- A PUT of a remote MOVE that has no response yet: its TAG and its first destination element (R381). -/
structure MovePut where
  tag : Nat
  first : Nat
  deriving DecidableEq, Repr

/-- A busy channel: its MOVE, the source bytes that came from the host window, and its outstanding PUTs. -/
structure MoveChan where
  flight : Nat
  desc : Desc
  host : List Byte
  puts : List MovePut
  deriving DecidableEq, Repr

/-- A mover that is STOPPING (R384): the fault's status, DONE of each channel, and whether a RESET waits (R387). -/
structure MoveStop where
  status : Status
  done : Tbl Nat
  reset : Bool
  deriving DecidableEq, Repr

/-- The bulk movers. Channels by mover × 32 + channel. -/
structure BmvState where
  waiting : List MoveWait
  chans : Tbl MoveChan
  stops : Tbl MoveStop
  deriving DecidableEq, Repr

/-- The flash tier after reset: an empty map (R326). -/
def FltState.reset : FltState := ⟨[], 0, [], [], [], [], 0, 0⟩

/-- The gather unit after reset: no table (R280). -/
def GthState.reset : GthState := ⟨[], [], [], [], [], 0⟩

/-- The bulk movers after reset. -/
def BmvState.reset : BmvState := ⟨[], [], []⟩

end Sys2Proof.Machine
end

