-- ==== Sys2Proof/Machine/TypesTrv.lean ====
section
/-! DEFINITION. The state of Traverses (R415–R433): plain data. -/

namespace Sys2Proof.Machine

open Sys2Proof

/-- How far a Traverse is at its source leader (R416, R419). -/
inductive SrcState where
  /-- This controller is not its source leader. -/
  | none
  /-- No destination, or every group has refused: tried again every STALL_MS. -/
  | waiting
  /-- OPEN is sent and not answered. -/
  | opening
  | running
  deriving DecidableEq, Repr

/-- A leg a destination member has outstanding (R426): its SEQ, source member, whether it went to that member's twin last,
LAYER_HEAD, pages and the frames reserved for them. -/
structure Leg where
  seq : Nat
  node : Nat
  late : Bool
  lh : Nat
  pages : List Nat
  frames : List Nat
  deriving DecidableEq, Repr

/-- A Traverse at this controller, by its request: as source leader, destination leader and destination member. -/
structure Trav where
  /-- The transit record's 48 words (R420). -/
  words : List Word
  src : SrcState
  trigger : Option TraverseTrigger
  /-- Groups of the range that have refused, and the last refusal (R416). -/
  tried : Nat
  last : Status
  dst : Bool
  member : Bool
  /-- The root was created for this Traverse (R419, R432). -/
  made : Bool
  /-- The group that recomputes pages, where this is a reshoot's repair and no Traverse (R226 step 7). -/
  repair : Option Nat
  /-- Members whose DONE has arrived, and whether this member has sent its own (R430). -/
  done : List Nat
  sentDone : Bool
  /-- The closing take is built, and the Traverse is abandoned (R430, R432). -/
  closing : Bool
  abandoned : Bool
  /-- Reserved frames that no leg uses (R426). -/
  reserved : List Nat
  legs : List Leg
  /-- Source slots whose counts are in (R423). -/
  counts : List Nat
  deriving DecidableEq, Repr

/-- Traverses. -/
structure TrvState where
  trav : Tbl Trav
  /-- Triggers that wait for one of 256 places or for a reshoot's end (R227, R419). -/
  waiting : List TraverseTrigger
  seq : Nat
  /-- Requests pinned here (R421). -/
  pins : List Nat
  deriving DecidableEq, Repr

/-- Traverses after reset. -/
def TrvState.reset : TrvState := ⟨[], [], 0, []⟩

end Sys2Proof.Machine
end

