-- ==== Sys2Proof/Machine/State.lean ====
section
/-! DEFINITION. The state of the block as plain data, what it sends, why a step could stop, and the state after reset. -/

namespace Sys2Proof.Machine

open Sys2Proof

/-- Why a step could stop with a fault. -/
inductive Fault where
  /-- No meaning raises it: the spec gives every command an effect in every state, so a run never faults. Safe. -/
  | none
  deriving DecidableEq, Repr

/-- Why a step could refuse a command. -/
inductive Refusal where
  /-- Raised by an arm of `exec` whose command has no meaning yet. Safe: the machine stops. -/
  | notModelled (mnemonic : String)
  deriving DecidableEq, Repr

/-- An ONFI command that a flash channel issues (R317). -/
inductive OnfiOp where
  | bringUp | zq | readPage | relocate | program | erase | badList
  deriving DecidableEq, Repr

/-- What the block sends or does to the outside, in the order in which it happens. -/
inductive Output where
  /-- A read of host memory is issued: what for, address and length (R62, R66, R78). -/
  | hostRead (what : HostAccess) (addr len : Nat)
  /-- A host-memory write (R64, R75). -/
  | hostWrite (addr : Nat) (bytes : List Byte)
  /-- A completion record of four words, written to this context's queue at this count and address (R76). -/
  | record (ctx q count addr : Nat) (words : List Word)
  /-- An event record of four words (R79). -/
  | event (count addr : Nat) (words : List Word)
  /-- An MSI-X vector is raised (R61, R79). -/
  | msix (vector : Nat)
  /-- A descriptor may not start yet (FENCE, or a SEM_WAIT pending in its ring): it waits, fetched (R71, R109). -/
  | held (k : RingKey)
  /-- The doorbell or queue-head line's snoop is answered (R66). -/
  | snoopAnswer (ctx : Nat)
  /-- A BAR0 read is answered with data (R543). -/
  | bar0Data (w : Word)
  /-- A BAR0 access is answered with Unsupported Request (R481, R543). -/
  | bar0Unsupported
  /-- The UCIe port trained and declined these options (R56). -/
  | ucieTrained (declined : List UcieOption)
  /-- A line of the HDM window is back-invalidated at the host (R59). -/
  | backInvalidate (offset : Nat)
  /-- The HDM window answers a host read: its bytes and the poison indication (R315). -/
  | hdmData (bytes : List Byte) (poison : Bool)
  /-- An SPDM or boot answer of the management firmware (R499). -/
  | spdm (code : Nat) (args : List Nat) (bytes : List Byte)
  /-- A pin is driven low (false) or released (true): 0 THERM_ALERT_N, 1 THERM_TRIP_N. -/
  | pin (p : Nat) (high : Bool)
  /-- A message or remote operation to a node: traffic class, kind and words. -/
  | message (dest tc : Nat) (kind : MsgKind) (words : List Word)
  /-- A mirror record goes to the twin on TC4 with its MSEQ (R440). -/
  | mirror (mseq : Nat) (body : MirrorBody)
  /-- A frame starts on a port's wire (R340, R348): its channel, SEQ, destination, tag and bytes with fill. -/
  | frame (port vc seq dest tag len : Nat)
  /-- A CREDIT frame: SEQ, ACK_SEQ, NAK and the twelve counts (R340, R341). -/
  | creditFrame (port seq ack : Nat) (nak : Bool) (counts : List Nat)
  /-- A KEYX frame (R346). -/
  | keyxFrame (port : Nat)
  /-- Link-test echo frames are sent, or one is answered (R336). -/
  | linkTest (port : Nat) (answer : Bool)
  /-- An ONFI command to a block of a flash channel (R317). -/
  | onfi (chan : Nat) (op : OnfiOp) (block slot : Nat)
  /-- A sector goes to its client, or the read or write is refused (R318–R321). -/
  | flashReply (c : Sys2Proof.FlashClient) (sector : Nat) (st : Status) (bytes : List Byte)
  /-- The gather unit asks the flash tier for bytes of its logical space, or writes them (R277). -/
  | flashAsk (tenant : Nat) (write : Bool) (off len : Nat) (bytes : List Byte)
  /-- FP32 values added to a host-tail row under exclusive ownership (R282). -/
  | hostAdd (addr : Nat) (xs : List F32)
  /-- A command of a register without a status field completes with this status (R471). -/
  | status (st : Status)
  /-- Ghemlink transmitters and beats stop (R473, R539). -/
  | linksStop
  deriving DecidableEq, Repr

/-- The state of the controller, and of the model: `out` is what it has sent, `pending` the commands that wait, `free`
the counter that numbers free values. -/
structure State where
  /-- Set-up registers by BAR0 offset; one that is not listed holds its reset value (R542, R548). -/
  regs : Tbl Word
  /-- HBM and stage memory by local offset (R298); an unlisted byte is zero (DESIGN CHOICE, log entry 8). -/
  hbm : List Host.Cell
  hpt : HptState
  sch : SchState
  mem : MemState
  clk : ClkState
  sec : SecState
  ras : RasState
  mgt : MgtState
  tak : TakState
  dtm : DtmState
  kva : KvaState
  mxe : MxeState
  att : AttState
  smp : SmpState
  con : ConState
  glk : GlkState
  shp : ShpState
  trv : TrvState
  flt : FltState
  gth : GthState
  bmv : BmvState
  out : List Output
  pending : List Instr
  free : Nat
  deriving DecidableEq, Repr

/-- The host port after reset (R62). -/
def HptState.reset : HptState := ⟨[], none, 0, [], [], false, false, [], []⟩

/-- The admission algorithm's state after reset: every deficit zero, ptr at the start of the ring (R101). -/
def Drr.reset : Drr := ⟨[], 0, false, []⟩

/-- The scheduler after reset. -/
def SchState.reset : SchState := ⟨[], Drr.reset, Drr.reset, 0, 0, none, [], none, 0, [], [], [], 0, 0⟩

/-- Memory bookkeeping after a power-on reset: every pseudo-channel in service, the uncorrectable-line list empty
(R311, R474). DESIGN CHOICE (log entry 12): a new part with no unit retired. -/
def MemState.reset : MemState := ⟨[], [], [], [], [], []⟩

/-- Clocks after a power-on reset: every granule suspect (R475), contents lost (R476). -/
def ClkState.reset : ClkState := ⟨[], none, true, false, false, [], [], false, none, false, false, false, false, 0⟩

/-- Fuses of a new part: variant H1, stepping A0 (R3's example), nothing revoked, unowned, minimum SVNs zero.
DESIGN CHOICE (log entry 9): the spec fuses them at manufacture and gives no value. -/
def Fuses.reset : Fuses := ⟨1, 0xA0, 0, false, 0, 0, 0⟩

/-- Boot state after reset: window empty, no image awaited. -/
def SecState.reset : SecState := ⟨Fuses.reset, [], false, 4, 3, 0, 0, false⟩

/-- NVS of a new part: no record, all spares there (R514). DESIGN CHOICE (log entry 10): the spec keeps these over resets and gives no
first value. -/
def RasState.reset : RasState := ⟨[], 0, none, [], [], 0, [], false, 8, 0, 0, 0, 0⟩

/-- Thermal state after reset: no temperature read yet. DESIGN CHOICE (log entry 11). -/
def MgtState.reset : MgtState := ⟨[], [], false, false, []⟩

/-- The machine right after a power-on reset, STAGE = ROM, nothing pending. -/
def State.reset : State where
  regs := []
  hbm := []
  hpt := HptState.reset
  sch := SchState.reset
  mem := MemState.reset
  clk := ClkState.reset
  sec := SecState.reset
  ras := RasState.reset
  mgt := MgtState.reset
  tak := TakState.reset
  dtm := DtmState.reset
  kva := KvaState.reset
  mxe := MxeState.reset
  att := AttState.reset
  smp := SmpState.reset
  con := ConState.reset
  glk := GlkState.reset
  shp := ShpState.reset
  trv := TrvState.reset
  flt := FltState.reset
  gth := GthState.reset
  bmv := BmvState.reset
  out := []
  pending := []
  free := 0

end Sys2Proof.Machine
end

