-- ==== Sys2Proof/Machine/Status.lean ====
section
/-! DEFINITION. The status codes of every block (R13, R88, R89 and each block's table of causes). -/

namespace Sys2Proof.Machine

open Sys2Proof

/-- OK (R13). -/
def St.OK : Status := 0x0000#16
/-- HPT_BAD_OPCODE: R72 -/
def St.HPT_BAD_OPCODE : Status := 0x0101#16
/-- HPT_BAD_VERSION: R87 -/
def St.HPT_BAD_VERSION : Status := 0x0102#16
/-- HPT_BAD_FIELD: a reserved bit or value, or a field outside its range -/
def St.HPT_BAD_FIELD : Status := 0x0103#16
/-- HPT_BAD_ADDR: a host address is misaligned -/
def St.HPT_BAD_ADDR : Status := 0x0104#16
/-- HPT_PROT: a host address lies outside the context's granted windows -/
def St.HPT_PROT : Status := 0x0105#16
/-- HPT_RING_OVERRUN: R69 -/
def St.HPT_RING_OVERRUN : Status := 0x0106#16
/-- HPT_BAD_DOORBELL: R69 -/
def St.HPT_BAD_DOORBELL : Status := 0x0107#16
/-- HPT_HOST_DATA_ERR: host memory returns an error or poisoned data (R91) -/
def St.HPT_HOST_DATA_ERR : Status := 0x0108#16
/-- HPT_HOST_TIMEOUT: a host-memory access exceeds HPT_HOST_TMO (R91) -/
def St.HPT_HOST_TIMEOUT : Status := 0x0109#16
/-- HPT_REQ_BUSY: R74 -/
def St.HPT_REQ_BUSY : Status := 0x010A#16
/-- HPT_REQ_UNKNOWN: a request opcode names no request known to the home -/
def St.HPT_REQ_UNKNOWN : Status := 0x010B#16
/-- HPT_CTX_BUSY: ENABLE of an enabled context -/
def St.HPT_CTX_BUSY : Status := 0x010C#16
/-- HPT_CTX_DISABLED: DISABLE of a context that is not enabled -/
def St.HPT_CTX_DISABLED : Status := 0x010D#16
/-- HPT_CTX_DOWN: a fetched descriptor is aborted by context teardown -/
def St.HPT_CTX_DOWN : Status := 0x010E#16
/-- HPT_LINK_DEGRADED: R58 -/
def St.HPT_LINK_DEGRADED : Status := 0x010F#16
/-- HPT_LINK_DOWN: R58: the last UCIe module has failed -/
def St.HPT_LINK_DOWN : Status := 0x0110#16
/-- SCH_ROLE_MISMATCH: R23 -/
def St.SCH_ROLE_MISMATCH : Status := 0x0201#16
/-- SCH_NO_MODEL: R74, R113 -/
def St.SCH_NO_MODEL : Status := 0x0202#16
/-- SCH_NO_STANDIN: R113 -/
def St.SCH_NO_STANDIN : Status := 0x0203#16
/-- SCH_CANCELLED: R117 -/
def St.SCH_CANCELLED : Status := 0x0204#16
/-- SCH_NOT_RUNNING: R117 -/
def St.SCH_NOT_RUNNING : Status := 0x0205#16
/-- SCH_SEM_PROT: R108, R109 -/
def St.SCH_SEM_PROT : Status := 0x0206#16
/-- SCH_SEM_OVERFLOW: R108 -/
def St.SCH_SEM_OVERFLOW : Status := 0x0207#16
/-- SCH_SEM_TIMEOUT: R109 -/
def St.SCH_SEM_TIMEOUT : Status := 0x0208#16
/-- SCH_SEM_OWNER_DOWN: R119 -/
def St.SCH_SEM_OWNER_DOWN : Status := 0x0209#16
/-- SCH_BAD_ROSTER: R96 -/
def St.SCH_BAD_ROSTER : Status := 0x020A#16
/-- SCH_CONTEXT_FULL: R118 -/
def St.SCH_CONTEXT_FULL : Status := 0x020B#16
/-- TAK_BAD_SLATE: R124, R130 length mismatch, R148 -/
def St.TAK_BAD_SLATE : Status := 0x0301#16
/-- TAK_BAD_ACTION: R125 to R127 -/
def St.TAK_BAD_ACTION : Status := 0x0302#16
/-- TAK_ACTION_PROT: R129 -/
def St.TAK_ACTION_PROT : Status := 0x0303#16
/-- TAK_BAD_COORD: R130, R145 -/
def St.TAK_BAD_COORD : Status := 0x0304#16
/-- TAK_TOO_MANY_OPEN: R148 -/
def St.TAK_TOO_MANY_OPEN : Status := 0x0305#16
/-- TAK_NO_INTENT_SPACE: R141, R148 -/
def St.TAK_NO_INTENT_SPACE : Status := 0x0306#16
/-- TAK_CONFLICT: R133 -/
def St.TAK_CONFLICT : Status := 0x0307#16
/-- TAK_WOUNDED: R133 -/
def St.TAK_WOUNDED : Status := 0x0308#16
/-- TAK_CHECK_FAIL: R127, R141 -/
def St.TAK_CHECK_FAIL : Status := 0x0309#16
/-- TAK_VOTE_NO: R141 -/
def St.TAK_VOTE_NO : Status := 0x030A#16
/-- TAK_VOTE_TIMEOUT: R139 -/
def St.TAK_VOTE_TIMEOUT : Status := 0x030B#16
/-- TAK_CTX_DOWN: R147 -/
def St.TAK_CTX_DOWN : Status := 0x030C#16
/-- TAK_COORD_LOST: R144 -/
def St.TAK_COORD_LOST : Status := 0x030D#16
/-- MXE_BAD_KERNEL: R157, R158 -/
def St.MXE_BAD_KERNEL : Status := 0x0401#16
/-- MXE_BAD_FORMAT: R158 -/
def St.MXE_BAD_FORMAT : Status := 0x0402#16
/-- MXE_BAD_COMBO: R159 -/
def St.MXE_BAD_COMBO : Status := 0x0403#16
/-- MXE_BAD_SHAPE: R160, R162 -/
def St.MXE_BAD_SHAPE : Status := 0x0404#16
/-- MXE_BAD_EPILOGUE: R166, R167 -/
def St.MXE_BAD_EPILOGUE : Status := 0x0405#16
/-- MXE_NO_KERNEL: R157, R162 -/
def St.MXE_NO_KERNEL : Status := 0x0406#16
/-- MXE_HANDLE_BUSY: R157 -/
def St.MXE_HANDLE_BUSY : Status := 0x0407#16
/-- MXE_OPERAND_MISMATCH: R162 -/
def St.MXE_OPERAND_MISMATCH : Status := 0x0408#16
/-- MXE_CHECK_FAIL: R170 -/
def St.MXE_CHECK_FAIL : Status := 0x0409#16
/-- MXE_TILE_FAIL: R170 -/
def St.MXE_TILE_FAIL : Status := 0x040A#16
/-- MXE_NO_CORES: R162 -/
def St.MXE_NO_CORES : Status := 0x040B#16
/-- MXE_CORE_BUSY: R174 -/
def St.MXE_CORE_BUSY : Status := 0x040C#16
/-- MXE_NO_TENSOR: R162 -/
def St.MXE_NO_TENSOR : Status := 0x040D#16
/-- MXE_KERNEL_PROT: R162 -/
def St.MXE_KERNEL_PROT : Status := 0x040E#16
/-- MXE_SELFTEST_FAIL: R174 -/
def St.MXE_SELFTEST_FAIL : Status := 0x040F#16
/-- EXP_BAD_FORMAT: R186 -/
def St.EXP_BAD_FORMAT : Status := 0x0501#16
/-- EXP_BAD_LAYOUT: R186 -/
def St.EXP_BAD_LAYOUT : Status := 0x0502#16
/-- EXP_BAD_TABLE: R179, R198, R199 -/
def St.EXP_BAD_TABLE : Status := 0x0503#16
/-- EXP_BAD_BLOCK: R182, R184, R198 -/
def St.EXP_BAD_BLOCK : Status := 0x0504#16
/-- EXP_BAD_STREAM: R184, R198 -/
def St.EXP_BAD_STREAM : Status := 0x0505#16
/-- EXP_BLOCK_CRC: R198 -/
def St.EXP_BLOCK_CRC : Status := 0x0506#16
/-- EXP_NO_SPACE: R186 -/
def St.EXP_NO_SPACE : Status := 0x0507#16
/-- EXP_TOO_LARGE: R186 -/
def St.EXP_TOO_LARGE : Status := 0x0508#16
/-- KVA_BAD_FORMAT: R203 -/
def St.KVA_BAD_FORMAT : Status := 0x0601#16
/-- KVA_LEASE_STALE: R213 -/
def St.KVA_LEASE_STALE : Status := 0x0602#16
/-- KVA_POOL_EMPTY: R214 -/
def St.KVA_POOL_EMPTY : Status := 0x0603#16
/-- KVA_RESHOOT: R223 -/
def St.KVA_RESHOOT : Status := 0x0604#16
/-- KVA_PAGE_LOST: R221, R223 -/
def St.KVA_PAGE_LOST : Status := 0x0605#16
/-- KVA_NO_RESHOOT: R226 -/
def St.KVA_NO_RESHOOT : Status := 0x0606#16
/-- KVA_RESHOOT_RANGE: R226 -/
def St.KVA_RESHOOT_RANGE : Status := 0x0607#16
/-- KVA_RESHOOT_BUSY: R225, R226 -/
def St.KVA_RESHOOT_BUSY : Status := 0x0608#16
/-- ATT_NO_PROFILE: R232, R250 -/
def St.ATT_NO_PROFILE : Status := 0x0701#16
/-- ATT_PREFIX_CHUNK: R236 -/
def St.ATT_PREFIX_CHUNK : Status := 0x0702#16
/-- ATT_PAGE_ABSENT: R240 -/
def St.ATT_PAGE_ABSENT : Status := 0x0703#16
/-- ATT_PAGE_COLD: R250 -/
def St.ATT_PAGE_COLD : Status := 0x0704#16
/-- ATT_NOT_HELD: R250 -/
def St.ATT_NOT_HELD : Status := 0x0705#16
/-- ATT_REMOTE_TIMEOUT: R251 -/
def St.ATT_REMOTE_TIMEOUT : Status := 0x0706#16
/-- ATT_BAD_PREQ: R247, R250 -/
def St.ATT_BAD_PREQ : Status := 0x0707#16
/-- SMP_BAD_PARAM: R258 -/
def St.SMP_BAD_PARAM : Status := 0x0801#16
/-- SMP_BAD_TREE: R258 -/
def St.SMP_BAD_TREE : Status := 0x0802#16
/-- SMP_SPEC_MODE: R255 -/
def St.SMP_SPEC_MODE : Status := 0x0803#16
/-- SMP_NO_VOCAB: R259 -/
def St.SMP_NO_VOCAB : Status := 0x0804#16
/-- SMP_NO_TOKEN: R271 -/
def St.SMP_NO_TOKEN : Status := 0x0805#16
/-- SMP_BAD_CHOICE: R272 -/
def St.SMP_BAD_CHOICE : Status := 0x0806#16
/-- GTH_NO_TABLE: R279 -/
def St.GTH_NO_TABLE : Status := 0x0901#16
/-- GTH_TABLE_BUSY: R278, R279 -/
def St.GTH_TABLE_BUSY : Status := 0x0902#16
/-- GTH_TOO_MANY: R278 -/
def St.GTH_TOO_MANY : Status := 0x0903#16
/-- GTH_TABLE_PROT: R279 -/
def St.GTH_TABLE_PROT : Status := 0x0904#16
/-- GTH_BAD_INDEX: R287, R291, R294 -/
def St.GTH_BAD_INDEX : Status := 0x0905#16
/-- GTH_BAD_OFFSETS: R287 -/
def St.GTH_BAD_OFFSETS : Status := 0x0906#16
/-- GTH_READ_ONLY: R288 -/
def St.GTH_READ_ONLY : Status := 0x0907#16
/-- GTH_DELTA_FULL: R290 -/
def St.GTH_DELTA_FULL : Status := 0x0908#16
/-- GTH_ROW_BUSY: R291, R294 -/
def St.GTH_ROW_BUSY : Status := 0x0909#16
/-- GTH_BAD_SLOT: R291 -/
def St.GTH_BAD_SLOT : Status := 0x090A#16
/-- GTH_SLOT_BUSY: R291 -/
def St.GTH_SLOT_BUSY : Status := 0x090B#16
/-- GTH_NOT_FLASH: R294 -/
def St.GTH_NOT_FLASH : Status := 0x090C#16
/-- GTH_ROW_ERR: R287, R293 -/
def St.GTH_ROW_ERR : Status := 0x090D#16
/-- MEM_UNCORR: R311 to R313, R315 -/
def St.MEM_UNCORR : Status := 0x0A01#16
/-- MEM_BAD_ADDR: R299 -/
def St.MEM_BAD_ADDR : Status := 0x0A02#16
/-- MEM_UE_OVERFLOW: R311 -/
def St.MEM_UE_OVERFLOW : Status := 0x0A03#16
/-- MEM_PC_FAIL: R310 -/
def St.MEM_PC_FAIL : Status := 0x0A04#16
/-- MEM_PC_SUSPECT: R310 -/
def St.MEM_PC_SUSPECT : Status := 0x0A05#16
/-- FLT_UNCORR: R321, R327 -/
def St.FLT_UNCORR : Status := 0x0B01#16
/-- FLT_UNWRITTEN: R321, R326 -/
def St.FLT_UNWRITTEN : Status := 0x0B02#16
/-- FLT_NO_SPACE: R320 -/
def St.FLT_NO_SPACE : Status := 0x0B03#16
/-- FLT_PROT: R318 -/
def St.FLT_PROT : Status := 0x0B04#16
/-- FLT_NOT_READY: R329 -/
def St.FLT_NOT_READY : Status := 0x0B05#16
/-- FLT_CHAN_FAIL: R327 -/
def St.FLT_CHAN_FAIL : Status := 0x0B06#16
/-- GLK_RESP_TIMEOUT: R350, R351 -/
def St.GLK_RESP_TIMEOUT : Status := 0x0C01#16
/-- GLK_NO_ROUTE: R344 -/
def St.GLK_NO_ROUTE : Status := 0x0C02#16
/-- GLK_BAD_OP: R352 -/
def St.GLK_BAD_OP : Status := 0x0C03#16
/-- GLK_REMOTE_PROT: R352 -/
def St.GLK_REMOTE_PROT : Status := 0x0C04#16
/-- GLK_ATOMIC_RANGE: R352 -/
def St.GLK_ATOMIC_RANGE : Status := 0x0C05#16
/-- GLK_BUSY: R350; in response frames only -/
def St.GLK_BUSY : Status := 0x0C06#16
/-- GLK_CREDIT_TIMEOUT: R339 -/
def St.GLK_CREDIT_TIMEOUT : Status := 0x0C07#16
/-- GLK_PORT_DOWN: R339 -/
def St.GLK_PORT_DOWN : Status := 0x0C08#16
/-- GLK_WIDTH_DOWN: R339 -/
def St.GLK_WIDTH_DOWN : Status := 0x0C09#16
/-- GLK_KEY_FAIL: R346, R347 -/
def St.GLK_KEY_FAIL : Status := 0x0C0A#16
/-- GLK_PEER_MISMATCH: R346 -/
def St.GLK_PEER_MISMATCH : Status := 0x0C0B#16
/-- GLK_BAD_FRAME: R334 -/
def St.GLK_BAD_FRAME : Status := 0x0C0C#16
/-- GLK_COLL_TIMEOUT: R356 -/
def St.GLK_COLL_TIMEOUT : Status := 0x0C0D#16
/-- BMV_BAD_WIDTH: R378 -/
def St.BMV_BAD_WIDTH : Status := 0x0E01#16
/-- BMV_SIZE_MISMATCH: R378 -/
def St.BMV_SIZE_MISMATCH : Status := 0x0E02#16
/-- BMV_BAD_PATTERN: R378 -/
def St.BMV_BAD_PATTERN : Status := 0x0E03#16
/-- BMV_OVERLAP: R378 -/
def St.BMV_OVERLAP : Status := 0x0E04#16
/-- BMV_MOVER_STOP: R384; in events only -/
def St.BMV_MOVER_STOP : Status := 0x0E05#16
/-- BMV_RESET: R387 -/
def St.BMV_RESET : Status := 0x0E06#16
/-- DTM_STALE_MAP: R398 -/
def St.DTM_STALE_MAP : Status := 0x0F01#16
/-- DTM_BAD_ROLE: R391 -/
def St.DTM_BAD_ROLE : Status := 0x0F02#16
/-- DTM_ROLE_BUSY: R394 -/
def St.DTM_ROLE_BUSY : Status := 0x0F03#16
/-- DTM_NO_HOME: R391 -/
def St.DTM_NO_HOME : Status := 0x0F04#16
/-- DTM_TWIN_MISMATCH: R391 -/
def St.DTM_TWIN_MISMATCH : Status := 0x0F05#16
/-- DTM_BAD_ENTRY: R391 -/
def St.DTM_BAD_ENTRY : Status := 0x0F06#16
/-- DTM_BAD_MAPPING: R391 -/
def St.DTM_BAD_MAPPING : Status := 0x0F07#16
/-- DTM_GROUP_INCOMPLETE: R392 -/
def St.DTM_GROUP_INCOMPLETE : Status := 0x0F08#16
/-- DTM_HOME_MOVING: R404 -/
def St.DTM_HOME_MOVING : Status := 0x0F09#16
/-- DTM_NOT_HOME: R401 -/
def St.DTM_NOT_HOME : Status := 0x0F0A#16
/-- DTM_HOME_FULL: R403, R405 -/
def St.DTM_HOME_FULL : Status := 0x0F0B#16
/-- DTM_LEASE_REVOKED: R410 -/
def St.DTM_LEASE_REVOKED : Status := 0x0F0C#16
/-- DTM_CLAIM_REFUSED: R409 -/
def St.DTM_CLAIM_REFUSED : Status := 0x0F0D#16
/-- DTM_REQUEST_LOST: R411 -/
def St.DTM_REQUEST_LOST : Status := 0x0F0E#16
/-- DTM_BAD_MSG: R406 -/
def St.DTM_BAD_MSG : Status := 0x0F0F#16
/-- DTM_JOIN_FAIL: R395 -/
def St.DTM_JOIN_FAIL : Status := 0x0F10#16
/-- TRV_BUSY: R417, R419 -/
def St.TRV_BUSY : Status := 0x1001#16
/-- TRV_NOT_IDLE: R417 -/
def St.TRV_NOT_IDLE : Status := 0x1002#16
/-- TRV_BAD_STATE: R417 -/
def St.TRV_BAD_STATE : Status := 0x1003#16
/-- TRV_BAD_DEST: R417 -/
def St.TRV_BAD_DEST : Status := 0x1004#16
/-- TRV_NO_FRAMES: R432 -/
def St.TRV_NO_FRAMES : Status := 0x1005#16
/-- TRV_ABANDONED: R432 -/
def St.TRV_ABANDONED : Status := 0x1006#16
/-- TRV_NOT_SOURCE: R426 -/
def St.TRV_NOT_SOURCE : Status := 0x1007#16
/-- TRV_PARKED: R418 -/
def St.TRV_PARKED : Status := 0x1008#16
/-- TRV_NO_DEST: R416 -/
def St.TRV_NO_DEST : Status := 0x1009#16
/-- TRV_BAD_MSG: R424 -/
def St.TRV_BAD_MSG : Status := 0x100A#16
/-- CON_EXPOSED: R439, R453 -/
def St.CON_EXPOSED : Status := 0x1101#16
/-- CON_TAKEOVER: R448 -/
def St.CON_TAKEOVER : Status := 0x1102#16
/-- CON_SIDEBAND_FAIL: R446 -/
def St.CON_SIDEBAND_FAIL : Status := 0x1103#16
/-- CON_DETACHED: R446 -/
def St.CON_DETACHED : Status := 0x1104#16
/-- CON_SPLIT: R451 -/
def St.CON_SPLIT : Status := 0x1105#16
/-- CON_REJOINED: R439 -/
def St.CON_REJOINED : Status := 0x1106#16
/-- CON_REINT_RESTART: R455 -/
def St.CON_REINT_RESTART : Status := 0x1107#16
/-- CON_DELTA_FULL: R453 -/
def St.CON_DELTA_FULL : Status := 0x1108#16
/-- CON_CFG_MISMATCH: R453 -/
def St.CON_CFG_MISMATCH : Status := 0x1109#16
/-- CON_NOT_PAIRED: R452 -/
def St.CON_NOT_PAIRED : Status := 0x110A#16
/-- CON_CMD_BUSY: R458 -/
def St.CON_CMD_BUSY : Status := 0x110B#16
/-- CON_ORPHAN: R450 -/
def St.CON_ORPHAN : Status := 0x110C#16
/-- CON_AUDIT_MISMATCH: R456 -/
def St.CON_AUDIT_MISMATCH : Status := 0x110D#16
/-- CON_PROBE_FAIL: R457 -/
def St.CON_PROBE_FAIL : Status := 0x110E#16
/-- CON_BAD_RECORD: R441, R444; the twin also enters DETACHED -/
def St.CON_BAD_RECORD : Status := 0x110F#16
/-- CLK_HBM_SUSPECT: R475 -/
def St.CLK_HBM_SUSPECT : Status := 0x1201#16
/-- CLK_CHECK_MISMATCH: R476 -/
def St.CLK_CHECK_MISMATCH : Status := 0x1202#16
/-- CLK_NO_TWIN: R476 -/
def St.CLK_NO_TWIN : Status := 0x1203#16
/-- CLK_HOLD_REFUSED: R471 -/
def St.CLK_HOLD_REFUSED : Status := 0x1204#16
/-- SEC_BAD_IMAGE: R484 -/
def St.SEC_BAD_IMAGE : Status := 0x1301#16
/-- SEC_BAD_KEY: R484 -/
def St.SEC_BAD_KEY : Status := 0x1302#16
/-- SEC_BAD_SIG: R484 -/
def St.SEC_BAD_SIG : Status := 0x1303#16
/-- SEC_BAD_DIGEST: R484 -/
def St.SEC_BAD_DIGEST : Status := 0x1304#16
/-- SEC_ROLLBACK: R484 -/
def St.SEC_ROLLBACK : Status := 0x1305#16
/-- SEC_BAD_PROT: R485, R493 -/
def St.SEC_BAD_PROT : Status := 0x1306#16
/-- SEC_HOST_ERR: R484 -/
def St.SEC_HOST_ERR : Status := 0x1307#16
/-- SEC_LOCKED: R494 -/
def St.SEC_LOCKED : Status := 0x1308#16
/-- RAS_REFETCH_FAIL: R512 -/
def St.RAS_REFETCH_FAIL : Status := 0x1401#16
/-- RAS_STEP_FAIL: R513 -/
def St.RAS_STEP_FAIL : Status := 0x1402#16
/-- RAS_REPLACE: R516 -/
def St.RAS_REPLACE : Status := 0x1403#16
/-- RAS_SRAM_SPARE: R515 -/
def St.RAS_SRAM_SPARE : Status := 0x1404#16
/-- RAS_REC_CORRUPT: R508 -/
def St.RAS_REC_CORRUPT : Status := 0x1405#16
/-- RAS_RETIRE_FULL: R518 -/
def St.RAS_RETIRE_FULL : Status := 0x1406#16
/-- RAS_MGMT_CORE: R517 -/
def St.RAS_MGMT_CORE : Status := 0x1407#16
/-- RAS_ROW_REPAIR: an HBM or SRAM row is repaired (R301, R309) -/
def St.RAS_ROW_REPAIR : Status := 0x1408#16
/-- RAS_PC_RETIRED: a pseudo-channel or stack is retired at reset (R310) -/
def St.RAS_PC_RETIRED : Status := 0x1409#16
/-- MXE NUMERIC (R50) -/
def St.MXE_NUMERIC : Status := 0x04E0#16
/-- EXP NUMERIC (R50) -/
def St.EXP_NUMERIC : Status := 0x05E0#16
/-- KVA NUMERIC (R50) -/
def St.KVA_NUMERIC : Status := 0x06E0#16
/-- ATT NUMERIC (R50) -/
def St.ATT_NUMERIC : Status := 0x07E0#16
/-- SMP NUMERIC (R50) -/
def St.SMP_NUMERIC : Status := 0x08E0#16
/-- GTH NUMERIC (R50) -/
def St.GTH_NUMERIC : Status := 0x09E0#16
/-- BMV NUMERIC (R50) -/
def St.BMV_NUMERIC : Status := 0x0EE0#16

end Sys2Proof.Machine
end

