-- ==== Sys2Proof/Machine/Ops.lean ====
section
/-! DEFINITION. The named operations over registers, memory, the protection tables, error records and events. -/

namespace Sys2Proof.Machine

open Sys2Proof

/-! ### Registers -/

/-- The stored word of the register at a BAR0 offset: its reset value until something writes it (R548). -/
def State.reg (s : State) (off : Nat) : Word := tgetD s.regs off (resetWord off)

/-- The register at an offset replaced; the table lists no register at its reset value. -/
def State.setReg (s : State) (off : Nat) (w : Word) : State :=
  { s with regs := if w = resetWord off then tdel s.regs off else tset s.regs off w }

/-- A field of register `i` of an array. -/
def rdi (s : State) (f : Field) (i : Nat) : Nat := fld (s.reg (f.off i)) f.lo f.width

/-- A field of a register. -/
def rd (s : State) (f : Field) : Nat := rdi s f 0

/-- A field of register `i` of an array written by hardware. -/
def wri (s : State) (f : Field) (i v : Nat) : State := s.setReg (f.off i) (setFld (s.reg (f.off i)) f.lo f.width v)

/-- A field of a register written by hardware. -/
def wr (s : State) (f : Field) (v : Nat) : State := wri s f 0 v

/-- A counter of register `i` advanced by `n`; counters saturate at their largest value (R8). -/
def addSat (s : State) (f : Field) (i n : Nat) : State := wri s f i (min (2 ^ f.width - 1) (rdi s f i + n))

/-- A counter advanced by one event. -/
def bump (s : State) (f : Field) : State := addSat s f 0 1

/-- A counter advanced by `n` events. -/
def bumpBy (s : State) (f : Field) (n : Nat) : State := addSat s f 0 n

/-! ### What the block sends, and free values -/

/-- The state after sending one item. -/
def emit (s : State) (o : Output) : State := { s with out := s.out ++ [o] }

/-- The state after sending several items, in order. -/
def emits (s : State) (os : List Output) : State := { s with out := s.out ++ os }

/-- The state with the counter of free values advanced past one use. -/
def tickFree (s : State) : State := { s with free := s.free + 1 }

/-! ### Whether the controller is up -/

/-- STAGE is RUN and LOCK is set (R481, R482 step 7): from then on the runtime serves rings, links and steps, until a reset or a
thermal trip halts them (R539). -/
def isUp (s : State) : Bool := rd s F.SEC_BOOT_STAT_STAGE == 3 && rd s F.SEC_PROT_LOCK_LOCK == 1 && !s.mgt.trip

/-- An event that can only occur while the controller is up; before that it is no event and nothing changes. -/
def whenUp (s : State) (f : State → State) : State := if isUp s then f s else s

/-! ### Local address space (R298–R304) -/

/-- Pseudo-channels in service (MEM_CAP.ACTIVE_PC). -/
def activePc (s : State) : Nat := 512 - ((tvals s.mem.pcs).filter (fun p => p.retired)).length

/-- MEM_TOP: 2 GB for each pseudo-channel in service (R298). -/
def memTop (s : State) : Nat := 2000000000 * activePc s

/-- First offset of stage memory (R298). -/
def stageBase : Nat := 0x100000000000
/-- First offset past stage memory (R298). -/
def stageTop : Nat := 0x100008000000
/-- First offset of stage memory that blocks keep for their own buffers (R491). -/
def stageDevice : Nat := 0x100004000000
/-- First offset of the host window (R298). -/
def hostBase : Nat := 0x8000000000000
/-- First offset past the host window (R298). -/
def hostTop : Nat := 0x10000000000000

/-- Whether a range of `n` bytes from `a` lies in [lo, hi). -/
def within (a n lo hi : Nat) : Bool := decide (lo ≤ a) && decide (a + n ≤ hi)

/-- Whether two ranges of given base and length overlap. -/
def overlap (a n b m : Nat) : Bool := decide (0 < n) && decide (0 < m) && decide (a < b + m) && decide (b < a + n)

/-- Whether a range lies in HBM below MEM_TOP. -/
def inHbm (s : State) (a n : Nat) : Bool := within a n 0 (memTop s)

/-- Whether a range lies in stage memory. -/
def inStage (a n : Nat) : Bool := within a n stageBase stageTop

/-- Whether a range lies in the host window. -/
def inHostWindow (a n : Nat) : Bool := within a n hostBase hostTop

/-- The refusal of an access to a local range, if the address space refuses it (R299). -/
def addrRefusal (s : State) (a n : Nat) : Option Status :=
  if inHbm s a n || inStage a n || inHostWindow a n then none else some St.MEM_BAD_ADDR

/-- The granules of 1 GiB that a range touches (R475). -/
def granules (a n : Nat) : List Nat := (List.range ((a + n - 1) / 2 ^ 30 + 1 - a / 2 ^ 30)).map (fun i => a / 2 ^ 30 + i)

/-- Whether a granule is suspect (R475). -/
def suspect (s : State) (g : Nat) : Bool := !s.clk.clean.contains g

/-- Whether an HBM range touches a suspect granule (R475). -/
def touchesSuspect (s : State) (a n : Nat) : Bool :=
  decide (0 < n) && inHbm s a n && (granules a n).any (suspect s)

/-- Whether an HBM range touches a listed uncorrectable line (R311). -/
def touchesUe (s : State) (a n : Nat) : Bool :=
  decide (0 < n) && inHbm s a n && s.mem.ue.any (fun l => overlap a n (l * 64) 64)

/-- The refusal of a read of a local range: address (R299), suspect granule (R475), listed line (R311). -/
def readRefusal (s : State) (a n : Nat) : Option Status :=
  match addrRefusal s a n with
  | some st => some st
  | none =>
    if touchesSuspect s a n then some St.CLK_HBM_SUSPECT
    else if touchesUe s a n then some St.MEM_UNCORR
    else none

/-- Whether a region lies within HBM for an enable check, where a suspect granule counts as outside (R475). -/
def regionOk (s : State) (a n : Nat) : Bool := inHbm s a n && !touchesSuspect s a n

/-! ### Bytes of HBM and stage memory -/

/-- The byte at a local offset; an unlisted byte is zero (R476 CLEAR, R473 step 6). -/
def byteAt (m : List Host.Cell) (a : Nat) : Byte := tgetD m a 0

/-- One byte written; the list holds no zero byte. -/
def setByte (m : List Host.Cell) (a : Nat) (b : Byte) : List Host.Cell := if b = 0 then tdel m a else tset m a b

/-- Bytes written from an offset upward. -/
def setBytes (m : List Host.Cell) : Nat → List Byte → List Host.Cell
  | _, [] => m
  | a, b :: bs => setBytes (setByte m a b) (a + 1) bs

/-- `n` bytes from an offset. -/
def bytesAt (m : List Host.Cell) (a n : Nat) : List Byte := (List.range n).map (fun i => byteAt m (a + i))

/-- The canonical form of memory: offsets strictly rising and no byte that an unlisted offset reads as. -/
def Memory.wf (m : List Host.Cell) : Bool := twf m && m.all (fun c => c.2 != 0)

/-- A read of `n` bytes of the state's memory. -/
def readMem (s : State) (a n : Nat) : List Byte := bytesAt s.hbm a n

/-- A little-endian number of `n` bytes of memory (R17). -/
def readNat (s : State) (a n : Nat) : Nat := bytesNat (readMem s a n)

/-- A 64-bit word of memory (R17). -/
def readWord (s : State) (a : Nat) : Word := BitVec.ofNat 64 (readNat s a 8)

/-- Lines of the HDM window that the host may hold are back-invalidated before a write of them (R59). -/
def backInvalidate (s : State) (a n : Nat) : State :=
  let ls := s.hpt.hdmHeld.filter (fun l => overlap (l * 64) 64 a n)
  if ls.isEmpty then s
  else
    let s1 := emits s (ls.map (fun l => Output.backInvalidate (l * 64 - rd s F.HPT_HDM_CFG_BASE_GIB * 2 ^ 30)))
    { s1 with hpt := { s1.hpt with hdmHeld := s1.hpt.hdmHeld.filter (fun l => !overlap (l * 64) 64 a n) } }

/-- Bytes stored, after which every listed line that they cover whole has left the list (R311). -/
def storeMem (s : State) (a : Nat) (bs : List Byte) : State :=
  { s with
    hbm := setBytes s.hbm a bs
    mem := { s.mem with ue := s.mem.ue.filter (fun l => !within (l * 64) 64 a (a + bs.length)) } }

/-- A write to memory by the controller (R59, R311). -/
def writeMem (s : State) (a : Nat) (bs : List Byte) : State := storeMem (backInvalidate s a bs.length) a bs

/-- A write of a 64-bit word to memory. -/
def writeWord (s : State) (a : Nat) (w : Word) : State := writeMem s a (wordBytes w)

/-- A range set to zero. -/
def zeroMem (s0 : State) (a n : Nat) : State :=
  let s := backInvalidate s0 a n
  { s with
    hbm := s.hbm.filter (fun c => !within c.1 1 a (a + n))
    mem := { s.mem with ue := s.mem.ue.filter (fun l => !within (l * 64) 64 a (a + n)) } }

/-! ### Protection tables (R487–R492) -/

/-- A word of the protection window at a byte offset from its start. -/
def winWord (s : State) (off : Nat) : Word := tgetD s.sec.window off 0

/-- A context binding: its tenant, if enabled (R489). -/
def binding (s : State) (ctx : Nat) : Option Nat :=
  let w := winWord s (0x1000 + 8 * ctx)
  if bit w 63 then some (bits w 9 0) else none

/-- Word `i` of a tenant entry (R489). -/
def tenantWord (s : State) (t i : Nat) : Word := winWord s (0x10000 + 64 * t + 8 * i)

/-- Whether a tenant is enabled (R489). -/
def tenantEn (s : State) (t : Nat) : Bool := bit (tenantWord s t 0) 0

/-- Whether one region of tenant `t` covers a range with the needed right; `loc` selects KIND LOCAL (R490, R491). -/
def regionGrant (s : State) (t : Nat) (loc write : Bool) (a n : Nat) : Bool :=
  let w := tenantWord s t 3
  (List.range (bits w 30 16)).any (fun i =>
    let b := 0x20000 + 32 * (bits w 13 0 + i)
    let r := winWord s b
    bits r 1 0 == loc.toNat && bit r (if write then 3 else 2)
      && within a n (winWord s (b + 8)).toNat (winWord s (b + 16)).toNat)

/-- Size in bytes of a frame of a class (R203). -/
def frameSize (c : Nat) : Nat := 16384 <<< c

/-- Frames of the classes below `c` (R205). -/
def framesBelow (s : State) (c : Nat) : Nat := sumNat ((List.range c).map (fun i => rdi s F.KVA_CLASS_COUNT i))

/-- The KVA class regions, scale frames and frame records, as (base, length) (R205). -/
def kvaRanges (s : State) : List (Nat × Nat) :=
  (List.range 4).map (fun c => (rdi s F.KVA_CLASS_BASE_MIB c * 2 ^ 20, rdi s F.KVA_CLASS_COUNT c * frameSize c)) ++
    [(rd s F.KVA_POOL_CTL_SCALE_BASE_MIB * 2 ^ 20, framesBelow s 4 * 2056)]

/-- Whether any port is enabled. -/
def anyPortEn (s : State) : Bool := (List.range 60).any (fun n => rdi s F.GLK_PORT_CTL_EN n == 1)

/-- The HBM device regions that hold now (R491). -/
def deviceRanges (s : State) : List (Nat × Nat) :=
  (if rd s F.KVA_POOL_CTL_EN = 1 then kvaRanges s else []) ++
  (if rd s F.FLT_CTL_EN = 1 ∨ rd s F.FLT_CTL_BUSY = 1 then
    [(rd s F.FLT_CTL_MAP_BASE_MIB * 2 ^ 20, rd s F.FLT_CAP_MAP_MIB * 2 ^ 20)] else []) ++
  (if rd s F.DTM_EPOCH_EPOCH ≠ 0 ∨ rd s F.DTM_CTL_BUSY = 1 then
    [(rd s F.DTM_CTL_BASE_MIB * 2 ^ 20, 0x2020000)] else []) ++
  (if rd s F.CON_CTL_EN = 1 then
    [(rd s F.CON_MIRROR_BASE_MIB * 2 ^ 20, rd s F.CON_MIRROR_SIZE_MIB * 2 ^ 20),
     (rd s F.CON_DELTA_BASE_MIB * 2 ^ 20, rd s F.CON_DELTA_SIZE_GIB * 2 ^ 30)] else []) ++
  (if anyPortEn s then [(rd s F.GLK_ROUTE_BASE_BASE_MIB * 2 ^ 20, 2 ^ 23)] else [])

/-- Whether a local range touches a device region (R491). -/
def touchesDevice (s : State) (a n : Nat) : Bool :=
  overlap a n stageDevice (stageTop - stageDevice) || (deviceRanges s).any (fun r => overlap a n r.1 r.2)

/-- Whether a local range lies wholly in device regions (R492). -/
def inDevice (s : State) (a n : Nat) : Bool :=
  within a n stageDevice stageTop || (deviceRanges s).any (fun r => within a n r.1 (r.1 + r.2))

/-- Whether the protection tables allow a context of a tenant this access (R491); `loc` for a local offset, where a
host-window offset is checked as the host address it names. -/
def accessOk (s : State) (ctx tenant : Nat) (loc write : Bool) (a n : Nat) : Bool :=
  (binding s ctx).isSome && tenantEn s tenant &&
    (if !loc then regionGrant s tenant false write a n
     else if inHostWindow a n then regionGrant s tenant false write (a - hostBase) n
     else regionGrant s tenant true write a n && !touchesDevice s a n)

/-- Whether flash sectors are granted to a tenant (R491, R318). -/
def flashOk (s : State) (tenant first n : Nat) : Bool :=
  within first n (bits (tenantWord s tenant 1) 35 0)
    (bits (tenantWord s tenant 1) 35 0 + bits (tenantWord s tenant 2) 36 0)

/-! ### Error records (R503–R507) -/

/-- The CLASS of a status (R505); `machine` marks MEM_UNCORR in control memory or in a home, root, extent or map line. -/
def rasClass (st : Status) (machine : Bool) : Nat :=
  if [St.GLK_WIDTH_DOWN, St.HPT_LINK_DEGRADED, St.MEM_PC_SUSPECT, St.CON_SIDEBAND_FAIL, St.RAS_SRAM_SPARE].contains st then 1
  else if [St.KVA_PAGE_LOST, St.KVA_RESHOOT, St.ATT_PAGE_ABSENT, St.CON_AUDIT_MISMATCH].contains st then 3
  else if [St.HPT_HOST_DATA_ERR, St.HPT_HOST_TIMEOUT, St.HPT_RING_OVERRUN, St.HPT_BAD_DOORBELL,
      St.HPT_LINK_DOWN].contains st then 4
  else if [St.MEM_PC_FAIL, St.MEM_UE_OVERFLOW].contains st || (st == St.MEM_UNCORR && machine) then 5
  else if [St.CON_TAKEOVER, St.CON_DETACHED, St.CON_SPLIT, St.CON_ORPHAN].contains st then 6
  else if st == St.DTM_REQUEST_LOST then 7
  else if [St.MXE_CHECK_FAIL, St.MXE_SELFTEST_FAIL, St.FLT_CHAN_FAIL, St.RAS_ROW_REPAIR, St.RAS_PC_RETIRED,
      St.RAS_MGMT_CORE].contains st then 8
  else if [St.SEC_LOCKED, St.SEC_BAD_IMAGE, St.SEC_BAD_KEY, St.SEC_BAD_SIG, St.SEC_BAD_DIGEST, St.SEC_ROLLBACK,
      St.SEC_BAD_PROT, St.SEC_HOST_ERR, St.GLK_KEY_FAIL, St.GLK_PEER_MISMATCH, St.GLK_BAD_FRAME,
      St.TRV_BAD_MSG].contains st then 9
  else 2

/-- The classes that a full queue folds (R507). -/
def foldable (c : Nat) : Bool := c == 1 || c == 2 || c == 9

/-- The record with one more occurrence merged into it; REPEAT saturates (R504). -/
def RasRec.again (r : RasRec) (fold : Bool) : RasRec := { r with rep := min 65535 (r.rep + 1), folded := r.folded || fold }

/-- A list with its last element changed. -/
def mapLast {α : Type} (f : α → α) : List α → List α
  | [] => []
  | [x] => [f x]
  | x :: xs => x :: mapLast f xs

/-- Whether a record may be merged into a newer one (R507). -/
def rasMerges (s : State) (r n : RasRec) : Bool :=
  decide (rd s F.RAS_CFG_MERGE_MS ≠ 0) && n.status == r.status && n.kind == r.kind && n.unit == r.unit
    && decide (r.time - n.time ≤ rd s F.RAS_CFG_MERGE_MS * 400000)

/-- The newest record, queued or written (R507). -/
def rasNewest (s : State) : Option RasRec :=
  match s.ras.overflow.getLast?, s.ras.queue.getLast? with
  | some r, _ => some r
  | none, some r => some r
  | none, none => s.ras.newest

/-- One more occurrence added to the newest record, wherever it stands (R507). -/
def rasRepeat (s : State) : State :=
  if !s.ras.overflow.isEmpty then { s with ras := { s.ras with overflow := mapLast (·.again false) s.ras.overflow } }
  else if !s.ras.queue.isEmpty then { s with ras := { s.ras with queue := mapLast (·.again false) s.ras.queue } }
  else
    match s.ras.newest with
    | some n =>
      let slot := (2 ^ 32 + s.ras.seq - 1) % 512
      let n' := n.again false
      let ws := tgetD s.ras.recs slot []
      let w1 := setFld (wordAt ws 1) 16 16 n'.rep
      let ws1 := ws.set 1 w1
      let crc := crc32c (wordsBytes (ws1.take 6))
      { s with ras := { s.ras with newest := some n', recs := tset s.ras.recs slot (ws1.set 6 (at' 0 32 crc)) } }
    | none => s

/-- The newest queued record of a foldable class taken out of a full queue, its occurrence folded into the newest queued
record that remains (R507). -/
def rasMakeRoom (q : List RasRec) : Option (List RasRec) :=
  match (q.reverse.findIdx? (fun r => foldable r.cls)) with
  | some i =>
    let q' := q.eraseIdx (q.length - 1 - i)
    some (mapLast (·.again true) q')
  | none => none

/-- An error record raised: merged, queued, folded or made to wait (R507). -/
def raiseRecord (s : State) (r : RasRec) : State :=
  match rasNewest s with
  | some n =>
    if rasMerges s r n then rasRepeat s else place s r
  | none => place s r
where
  /-- The record's place in the queue of 64 (R507). -/
  place (s : State) (r : RasRec) : State :=
    if s.ras.queue.length < 64 then { s with ras := { s.ras with queue := s.ras.queue ++ [r] } }
    else if foldable r.cls then { s with ras := { s.ras with queue := mapLast (·.again true) s.ras.queue } }
    else
      match rasMakeRoom s.ras.queue with
      | some q => { s with ras := { s.ras with queue := q ++ [r] } }
      | none => { s with ras := { s.ras with overflow := s.ras.overflow ++ [r] } }

/-- A unit of the part, as an error record names it (R506): UNIT_KIND and UNIT. -/
structure UnitRef where
  kind : Nat
  unit : Nat
  deriving DecidableEq, Repr

/-- No unit (R506). -/
def noUnit : UnitRef := ⟨0, 0⟩

/-- An error record for a cause (R503, R504), its TIME in MGMT cycles since the last reset. -/
def record (s : State) (st : Status) (u : UnitRef) (req ctx : Nat) (d0 d1 : Word) (machine : Bool := false) : State :=
  raiseRecord s ⟨st, rasClass st machine, u.kind, u.unit, false, 0, rd s F.GLB_MGMT_CYCLES_COUNT, req, ctx, d0, d1⟩

/-- An error record for a retirement or repair: CLASS RETIRE, the row in DETAIL0 (R504). -/
def recordRetire (s : State) (st : Status) (u : UnitRef) (row : Nat) : State :=
  raiseRecord s ⟨st, 8, u.kind, u.unit, false, 0, rd s F.GLB_MGMT_CYCLES_COUNT, 0, 0, at' 0 36 row, 0⟩

/-! ### Events (R79, R80) -/

/-- Event types (R79). -/
inductive EvType where
  | error | twinChange | reshoot | contextDown | mapChange | linkChange
  deriving DecidableEq, Repr

/-- TYPE codes (R79). -/
def EvType.code : EvType → Nat
  | .error => 1
  | .twinChange => 2
  | .reshoot => 3
  | .contextDown => 4
  | .mapChange => 5
  | .linkChange => 6

/-- PHASE of a free-running count in a queue of 2^log2 records (R76). -/
def phaseBit (count log2 : Nat) : Nat := if (count >>> log2) % 2 = 0 then 1 else 0

/-- An event record written to the event queue, if it is enabled and the port is up (R58, R79, R80). -/
def writeEvent (s : State) (ty : EvType) (st : Status) (req ctx : Nat) (d0 d1 : Word) : State :=
  if rd s F.HPT_EVQ_CFG_EN = 1 ∧ s.hpt.portDown = false then
    let log2 := rd s F.HPT_EVQ_CFG_LOG2SIZE
    let c := s.hpt.evProd
    let w0 := mkWord [(0, 16, st.toNat), (16, 8, ty.code), (24, 1, phaseBit c log2), (32, 32, c)]
    let w1 := mkWord [(0, 48, req), (48, 12, ctx)]
    let s1 := { s with hpt := { s.hpt with evProd := (c + 1) % 2 ^ 32 } }
    emits s1 [.event c (rd s F.HPT_EVQ_BASE_BASE * 4096 + 32 * (c % 2 ^ log2)) [w0, w1, d0, d1],
      .msix (rd s F.HPT_EVQ_CFG_VECTOR)]
  else s

/-- An event posted: its error record, where its type and status call for one (R503), and the event itself (R79). -/
def postEvent (s : State) (ty : EvType) (st : Status) (u : UnitRef) (req ctx : Nat) (d0 d1 : Word)
    (machine : Bool := false) : State :=
  let s1 :=
    if st ≠ St.OK ∧ (ty = .error ∨ ty = .twinChange ∨ ty = .contextDown ∨ ty = .linkChange) then
      record s st u req ctx d0 d1 machine
    else s
  writeEvent s1 ty st req ctx d0 d1

/-- An ERROR event (R79). -/
def errorEvent (s : State) (st : Status) (u : UnitRef) (req ctx : Nat) (d0 d1 : Word) : State :=
  postEvent s .error st u req ctx d0 d1

/-- An event whose chapter defines no detail words: both are free values (R79). -/
def openEvent (s : State) (ty : EvType) (st : Status) (u : UnitRef) (req ctx : Nat) : State :=
  postEvent s ty st u req ctx (Config.eventDetail (2 * s.out.length)) (Config.eventDetail (2 * s.out.length + 1))

/-! ### BAR0 before and after the lock -/

/-- A refused write leaves an error record with SEC_LOCKED; its details are open (R494, R503). -/
def recordLocked (s : State) : State :=
  record s St.SEC_LOCKED noUnit 0 0 (Config.eventDetail (2 * s.out.length)) (Config.eventDetail (2 * s.out.length + 1))

/-- An access that the lock does not yet allow: Unsupported Request; a write is discarded, counted and recorded (R481, R503). -/
def prelock (s : State) (write : Bool) : State :=
  let s1 := emit s .bar0Unsupported
  if write then recordLocked (bump s1 F.SEC_REJECT_CNT_COUNT) else s1

/-- A write by the host to a register other than the boot registers: served only once LOCK is 1 (R481). -/
def bar0 (s : State) (f : State → State) : State := if rd s F.SEC_PROT_LOCK_LOCK = 1 then f s else prelock s true

/-- A write that the lock forbids: ignored, counted, and an error record kept with SEC_LOCKED (R494). -/
def lockedWrite (s : State) : State := recordLocked (bump s F.SEC_REJECT_CNT_COUNT)

/-- A context faults: the ERROR event of step 1 of R119, after which its rings stop. A context that is being torn down
already goes on as it was. -/
def faultCtx (s : State) (c : Nat) (cause : Status) : State :=
  match tget s.hpt.ctxs c with
  | none => s
  | some x =>
    if x.down.isSome then s
    else
      let s1 := openEvent s .error cause ⟨9, c⟩ 0 c
      { s1 with hpt := { s1.hpt with ctxs := tset s1.hpt.ctxs c { x with down := some ⟨cause, true, false, 0, 0⟩ } } }

end Sys2Proof.Machine
end

