-- ==== Sys2Proof/Machine/Operands.lean ====
section
/-! DEFINITION. The operand forms of commands: descriptors and their checks (R71–R73, R553), contexts and rings
(R61, R64), and completion records (R76–R78, R82). -/

namespace Sys2Proof.Machine

open Sys2Proof

/-! ### Descriptors -/

/-- Word `i` of a descriptor: bytes 8 i to 8 i + 7 (R71). -/
def Desc.word (d : Desc) : Nat → Word
  | 0 => d.w0
  | 1 => d.w1
  | 2 => d.w2
  | 3 => d.w3
  | 4 => d.w4
  | 5 => d.w5
  | 6 => d.w6
  | _ => d.w7

/-- The field [hi:lo] of the word at byte offset `off` of a descriptor. -/
def dfld (d : Desc) (off hi lo : Nat) : Nat := bits (Desc.word d (off / 8)) hi lo

/-- OPCODE (R71). -/
def dOpcode (d : Desc) : Nat := dfld d 0 7 0
/-- VERSION (R71). -/
def dVersion (d : Desc) : Nat := dfld d 0 11 8
/-- FENCE (R71). -/
def dFence (d : Desc) : Bool := bit d.w0 16
/-- NOCOMP (R71). -/
def dNocomp (d : Desc) : Bool := bit d.w0 17
/-- INTR (R71). -/
def dIntr (d : Desc) : Bool := bit d.w0 18
/-- TAG (R71). -/
def dTag (d : Desc) : Nat := dfld d 0 63 32
/-- REQUEST_ID (R71). -/
def dReq (d : Desc) : Nat := dfld d 8 47 0

/-- One check of a descriptor, of which the first that fails is reported (R73): whether it fails, its status, and where
the failing byte lies (R553). -/
structure Check where
  bad : Bool
  st : Status
  off : Nat
  inStruct : Bool
  soff : Nat
  deriving DecidableEq, Repr

/-- A check of a field of the descriptor itself. -/
def chk (bad : Bool) (st : Status) (off : Nat) : Check := ⟨bad, st, off, false, 0⟩

/-- A check of a structure that the field at `off` points to. -/
def chkIn (bad : Bool) (st : Status) (off soff : Nat) : Check := ⟨bad, st, off, true, soff⟩

/-- The first check that fails (R73). -/
def firstFail (cs : List Check) : Option Check := cs.find? (fun c => c.bad)

/-- DETAIL of a rejection (R553). -/
def rejectDetail (c : Check) : Word :=
  mkWord [(0, 6, c.off), (6, 1, c.inStruct.toNat), (32, 32, if c.inStruct then c.soff else 0)]

/-- The byte, within a word, of the lowest nonzero bit among the bits [hi:lo]. -/
def lowBadByte (w : Word) (hi lo : Nat) : Option Nat := firstFree (hi + 1 - lo) (fun i => bit w (lo + i)) |>.map (fun i => (lo + i) / 8)

/-- The byte offsets at which reserved bits [hi:lo] of the word at `off` are nonzero: the lowest one (R553). -/
def resv (d : Desc) (off hi lo : Nat) : List Nat :=
  match lowBadByte (Desc.word d (off / 8)) hi lo with
  | some b => [off / 8 * 8 + b]
  | none => []

/-- A field that carries a reserved or out-of-range value fails at the byte that holds its lowest bit (R553). -/
def badAt (b : Bool) (off lo : Nat) : List Nat := if b then [off / 8 * 8 + lo / 8] else []

/-- The least of a list of failing byte offsets (R553: the lowest-addressed byte is given). -/
def least : List Nat → Option Nat
  | [] => none
  | x :: xs => match least xs with
    | none => some x
    | some y => some (min x y)

/-- A check over a list of failing bytes: it fails when the list is not empty, at its lowest byte. -/
def chkBytes (l : List Nat) (st : Status) : Check := chk (!l.isEmpty) st ((least l).getD 0)

/-- Whether an opcode is one of R72. -/
def knownOpcode (o : Nat) : Bool :=
  [0x00, 0x01, 0x02, 0x03, 0x04, 0x10, 0x11, 0x20, 0x21, 0x30, 0x31, 0x32, 0x40, 0x50, 0x51].contains o

/-- The request opcodes, whose REQUEST_ID is a request's (R71, R72). -/
def requestOpcode (o : Nat) : Bool := decide (1 ≤ o) && decide (o ≤ 4)

/-- Failing header bytes: reserved bits, and REQUEST_ID, which must be zero but for request opcodes and not zero for
REQ_POST (R71, R74). -/
def headerBytes (d : Desc) : List Nat :=
  resv d 0 15 12 ++ resv d 0 31 19 ++ resv d 8 63 48 ++
    badAt (if requestOpcode (dOpcode d) then dOpcode d == 1 && dReq d == 0 else dReq d != 0) 8 0

/-- The checks every descriptor undergoes first, in R73's order; `payload` lists the failing payload bytes. -/
def headChecks (d : Desc) (payload : List Nat) : List Check :=
  [chk (dVersion d != 1) St.HPT_BAD_VERSION 0,
   chk (!knownOpcode (dOpcode d)) St.HPT_BAD_OPCODE 0,
   chkBytes (headerBytes d ++ payload) St.HPT_BAD_FIELD]

/-! ### Contexts and rings -/

/-- The identifier of a descriptor in flight; it is never 0. -/
def flightId (k : DescKey) : Nat := 2 ^ 47 + (k.ctx * 8 + k.ring) * 2 ^ 32 + k.count

/-- The context of an identifier. -/
def flightCtx (id : Nat) : Nat := id / 2 ^ 35 % 4096

/-- A context replaced. -/
def setCtx (s : State) (c : Nat) (x : Ctx) : State := { s with hpt := { s.hpt with ctxs := tset s.hpt.ctxs c x } }

/-- A context changed, where it is enabled. -/
def modCtx (s : State) (c : Nat) (f : Ctx → Ctx) : State := { s with hpt := { s.hpt with ctxs := tmod s.hpt.ctxs c f } }

/-- The tenant slot of an enabled context (R61). -/
def ctxTenant (s : State) (c : Nat) : Nat := match tget s.hpt.ctxs c with | some x => x.entry.tenant | none => 0

/-- PRIO of a context (R93, R122). -/
def ctxPrio (s : State) (c : Nat) : Nat := fld (s.reg (F.SCH_CTX_PRIO_PRIO.off (c / 32))) (2 * (c % 32)) 2

/-- A descriptor's entry in the table of those in flight. -/
def setFlight (s : State) (id : Nat) (f : Flight) : State := { s with hpt := { s.hpt with flight := tset s.hpt.flight id f } }

/-- A descriptor taken out of the table of those in flight. -/
def delFlight (s : State) (id : Nat) : State := { s with hpt := { s.hpt with flight := tdel s.hpt.flight id } }

/-- A request changed, where this controller serves it. -/
def modReq (s : State) (r : Nat) (f : Req → Req) : State := { s with sch := { s.sch with reqs := tmod s.sch.reqs r f } }

/-! ### Completion records -/

/-- The words of a completion record but for PHASE (R76). -/
def mkRecord (k : DescKey) (opcode tag req : Nat) (st : Status) (late final : Bool) (intr : Bool) (w2 w3 : Word) : HeldRecord :=
  ⟨mkWord [(0, 16, st.toNat), (16, 8, opcode), (24, 1, late.toNat), (25, 1, final.toNat), (32, 32, tag)],
   mkWord [(0, 48, req), (48, 3, k.ring), (52, 12, k.ctx)], w2, w3, final && intr, req⟩

/-- The POSITION and COUNT word of a record (R76). -/
def posWord (pos count : Nat) : Word := mkWord [(0, 23, pos), (32, 8, count)]

/-- A record written to its slot, with PHASE and then the vector, if asked (R64, R76, R77). -/
def putRecord (s : State) (c q : Nat) (x : Ctx) (cfg : CqCfg) (cq : CqState) (r : HeldRecord) : State :=
  let s1 := setCtx s c { x with cqs := x.cqs.set q { cq with prod := (cq.prod + 1) % 2 ^ 32 } }
  emits s1 ([.record c q cq.prod (cfg.base + 32 * (cq.prod % 2 ^ cfg.log2))
      [setFld r.w0 26 1 (phaseBit cq.prod cfg.log2), r.w1, r.w2, r.w3]] ++
    (if r.intr && cfg.vecEn then [Output.msix cfg.vector] else []))

/-- Whether a queue has no free slot by the last consumed count read (R78). -/
def cqFull (cfg : CqCfg) (cq : CqState) : Bool := decide ((2 ^ 32 + cq.prod - cq.cons) % 2 ^ 32 ≥ 2 ^ cfg.log2)

/-- A record written, or delayed when its queue is full: counted, its request held, the queue-head line re-read and
watched (R78). Nothing is written when the port is down or the context is gone (R58, R63). -/
def writeRecord (s : State) (c q : Nat) (r : HeldRecord) : State :=
  match tget s.hpt.ctxs c with
  | none => s
  | some x =>
    match x.entry.cqs[q]?, x.cqs[q]? with
    | some cfg, some cq =>
      if s.hpt.portDown then s
      else if cqFull cfg cq || !cq.delayed.isEmpty then
        let s1 := setCtx s c { x with cqs := x.cqs.set q { cq with watch := true, delayed := cq.delayed ++ [r] } }
        let s2 := bump s1 F.HPT_CQ_STALL_CNT_COUNT
        emit (modReq s2 r.req (fun y => { y with delayed := true }))
          (.hostRead (.context c) x.entry.cqheadAddr 64)
      else putRecord s c q x cfg cq r
    | _, _ => s

/-- The completion queue of a ring (R61). -/
def ringCq (s : State) (k : DescKey) : Nat :=
  match tget s.hpt.ctxs k.ctx with
  | some x => match x.entry.rings[k.ring]? with
    | some r => r.cq
    | none => 0
  | none => 0

/-- Whether count `a` comes before count `b` of one ring (R64). -/
def countBefore (a b : Nat) : Bool := decide (a ≠ b) && decide ((2 ^ 32 + b - a) % 2 ^ 32 < 2 ^ 31)

/-- Whether an earlier descriptor of the same ring is in flight that a test accepts. -/
def earlierFlight (s : State) (k : DescKey) (p : Flight → Bool) : Bool :=
  s.hpt.flight.any (fun e => e.2.key.ctx == k.ctx && e.2.key.ring == k.ring && countBefore e.2.key.count k.count && p e.2)

/-- Whether a descriptor must wait for an earlier one with the same nonzero REQUEST_ID (R82). -/
def mustWait (s : State) (f : Flight) : Bool := f.req != 0 && earlierFlight s f.key (fun e => e.req == f.req)

/-- The final record of a descriptor in flight, which ends it; NOCOMP suppresses it only for STATUS 0x0000 and never for
REQ_POST (R76). -/
def endFlight (s : State) (id : Nat) (f : Flight) (st : Status) (w2 w3 : Word) (late : Bool) : State :=
  let s1 := delFlight s id
  if f.nocomp && st == St.OK && f.opcode != 1 then s1
  else writeRecord s1 f.key.ctx (ringCq s f.key) (mkRecord f.key f.opcode f.tag f.req st late true f.intr w2 w3)

/-- Descriptors whose records waited for the one that just ended, in count order (R82). -/
def releaseReady : Nat → State → DescKey → Nat → State
  | 0, s, _, _ => s
  | n + 1, s, k, req =>
    match s.hpt.flight.find? (fun e => e.2.key.ctx == k.ctx && e.2.key.ring == k.ring && e.2.req == req && e.2.ready.isSome
        && !mustWait s e.2) with
    | some e =>
      match e.2.ready with
      | some (st, w2, w3, late) => releaseReady n (endFlight s e.1 e.2 st w2 w3 late) k req
      | none => s
    | none => s

/-- A descriptor completes: its final record is written in count order among descriptors with its REQUEST_ID (R82). -/
def complete (s : State) (id : Nat) (st : Status) (w2 w3 : Word) (late : Bool) : State :=
  match tget s.hpt.flight id with
  | none => s
  | some f =>
    if mustWait s f then setFlight s id { f with ready := some (st, w2, w3, late) }
    else
      let s1 := endFlight s id f st w2 w3 late
      if f.req = 0 then s1 else releaseReady s1.hpt.flight.length s1 f.key f.req

/-- A descriptor other than REQ_POST completes with a status and DETAIL. -/
def completeWith (s : State) (id : Nat) (st : Status) (detail : Word) : State := complete s id st 0 detail false

/-- A descriptor completes with a status for which its opcode defines no DETAIL: a free value (R76). -/
def completeSt (s : State) (id : Nat) (st : Status) : State := completeWith s id st (Config.recordDetail id)

/-- A descriptor completes with STATUS 0x0000, its opcode defining no DETAIL (R76). -/
def completeOk (s : State) (id : Nat) : State := completeSt s id St.OK

/-- A descriptor is rejected: one final record with the failing status and R553's DETAIL (R73). -/
def reject (s : State) (id : Nat) (c : Check) : State := completeWith s id c.st (rejectDetail c)

/-! ### Taking a descriptor from its ring -/

/-- The head word of a ring written after a fetch (R64). -/
def rheadWrite (x : Ctx) (ring count : Nat) : Output :=
  .hostWrite (x.entry.rheadAddr + 8 * ring) (natBytes 8 (count % 2 ^ 32))

/-- A SEM_WAIT of the ring is pending (R109). -/
def ringBlocked (s : State) (k : RingKey) : Bool :=
  s.sch.waiters.any (fun w => w.ctx == k.ctx && w.ring == k.ring)

/-- A record of this ring waits for a free slot of its queue, or is not yet written (R71 FENCE, R78). -/
def ringOpen (s : State) (x : Ctx) (k : RingKey) : Bool :=
  s.hpt.flight.any (fun e => e.2.key.ctx == k.ctx && e.2.key.ring == k.ring) ||
    (match x.entry.rings[k.ring]? with
     | some r => match x.cqs[r.cq]? with
       | some q => q.delayed.any (fun h => bits h.w1 50 48 == k.ring)
       | none => false
     | none => false)

/-- What became of the next descriptor of a ring. -/
inductive Taken where
  /-- The controller has no such descriptor outstanding. -/
  | nothing
  /-- It is fetched and waits (FENCE, SEM_WAIT, or an earlier one that waits). -/
  | waits (s : State)
  /-- It is dispatched, with its key. -/
  | dispatched (s : State) (k : DescKey)
  deriving DecidableEq, Repr

/-- The next descriptor of a ring: one that waits, presented again, or the one at the fetched count (R66, R71, R82). -/
def takeDesc (s : State) (k : RingKey) (d : Desc) : Taken :=
  match tget s.hpt.ctxs k.ctx with
  | none => .nothing
  | some x =>
    match x.rings[k.ring]?, x.down with
    | some r, none =>
      let isOld := r.waiting.head? == some d
      let stop := ringBlocked s k || (dFence d && ringOpen s x k)
      if isOld then
        if stop then .waits (emit s (.held k))
        else
          let count := (2 ^ 32 + r.fetched - r.waiting.length) % 2 ^ 32
          .dispatched (setCtx s k.ctx { x with rings := x.rings.set k.ring { r with waiting := r.waiting.tail } })
            ⟨k.ctx, k.ring, count⟩
      else if r.fetched = r.tail then .nothing
      else
        let next := (r.fetched + 1) % 2 ^ 32
        if stop || !r.waiting.isEmpty then
          .waits (emits (setCtx s k.ctx { x with rings := x.rings.set k.ring { r with fetched := next, waiting := r.waiting ++ [d] } })
            [rheadWrite x k.ring next, .held k])
        else
          .dispatched (emit (setCtx s k.ctx { x with rings := x.rings.set k.ring { r with fetched := next } })
            (rheadWrite x k.ring next)) ⟨k.ctx, k.ring, r.fetched⟩
    | _, _ => .nothing

/-- A descriptor of opcode `op` (or any reserved opcode, for `none`) is taken, checked in R73's order and acted on; `payload` lists its failing payload
bytes and `checks` its further checks. -/
def runDesc (s : State) (k : RingKey) (d : Desc) (payload : List Nat) (checks : State → DescKey → List Check)
    (act : State → DescKey → Nat → State) : State :=
  whenUp s (fun s =>
    match takeDesc s k d with
    | .nothing => s
    | .waits s1 => s1
    | .dispatched s1 key =>
      let id := flightId key
      let s2 := setFlight s1 id ⟨key, dOpcode d, dNocomp d, dIntr d, dTag d, dReq d, none⟩
      match firstFail (headChecks d payload ++ checks s2 key) with
      | some c => reject s2 id c
      | none => act s2 key id)

/-- Failing bytes of a payload word that is reserved whole. -/
def resvWords (d : Desc) (offs : List Nat) : List Nat := offs.flatMap (fun o => resv d o 63 0)

/-- A host address range a descriptor names is granted to its context (R491). -/
def hostOk (s : State) (k : DescKey) (write : Bool) (a n : Nat) : Bool :=
  accessOk s k.ctx (ctxTenant s k.ctx) false write a n

/-- A local range a descriptor names is granted to its context (R491). -/
def localOk (s : State) (k : DescKey) (write : Bool) (a n : Nat) : Bool :=
  accessOk s k.ctx (ctxTenant s k.ctx) true write a n

end Sys2Proof.Machine
end

