-- ==== Sys2Proof/Machine/Fabric.lean ====
section
/-! DEFINITION. How operations leave: routes and flows, a port's choice of its next frame, the Reel and the gates' windows
(R343, R344, R348, R349, R360–R370). -/

namespace Sys2Proof.Machine

open Sys2Proof

/-- Own node ID (GLK_NODE). -/
def self (s : State) : Nat := rd s F.GLK_NODE_NODE_ID

/-! ### Ports -/

/-- A port's state. -/
def portOf (s : State) (n : Nat) : GPort := tgetD s.glk.ports n GPort.fresh

/-- A port's state replaced. -/
def setPort (s : State) (n : Nat) (p : GPort) : State := { s with glk := { s.glk with ports := tset s.glk.ports n p } }

/-- STATE of a port (R335). -/
def portState (s : State) (n : Nat) : Nat := rdi s F.GLK_PORT_STAT_STATE n

/-- The ports of a route that are ACTIVE, ascending (R344); TC4 and TC5 go on the continuity ports (R334, R436). -/
def routePorts (s : State) (dest tc : Nat) : List Nat :=
  if 4 ≤ tc then ((List.range 4).map (fun i => 56 + i)).filter (fun n => portState s n == 5)
  else
    let e := readWord s (rd s F.GLK_ROUTE_BASE_BASE_MIB * 2 ^ 20 + 8 * dest)
    if bit e 63 then (List.range 56).filter (fun n => bit e n && portState s n == 5) else []

/-- The port a flow uses under the present ACTIVE ports (R344). -/
def flowPort (s : State) (dest tc stripe : Nat) : Option Nat :=
  let ps := routePorts s dest tc
  if ps.isEmpty then none
  else ps[(if tc = 1 then stripe else Config.routeHash dest tc) % ps.length]?

/-! ### Shaped flows (R360–R363) -/

/-- SHP_TC_SHAPE of TC2 (k = 0) or TC3 (k = 1): EN, RATE and BURST in tokens. -/
def shaped (s : State) (tc : Nat) : Bool := (tc == 2 || tc == 3) && rdi s F.SHP_TC_SHAPE_EN (tc - 2) == 1
def shapeRate (s : State) (tc : Nat) : Nat := max 1 (rdi s F.SHP_TC_SHAPE_RATE (tc - 2))
def shapeBurst (s : State) (tc : Nat) : Nat := rdi s F.SHP_TC_SHAPE_BURST (tc - 2) * 1024 * 256

/-- Key of a shaped flow. -/
def shpKey (dest tc : Nat) : Nat := dest * 8 + tc

/-- Whether a frame is a request of TC2 or TC3, which the Reel shapes. -/
def reelFrame (f : GFrame) : Bool := f.vc == 4 || f.vc == 6

/-- Frames of a shaped flow that wait, in order. -/
def flowFrames (s : State) (key : Nat) : List GFrame :=
  (tvals s.glk.ports).flatMap (fun p => p.queue.filter (fun f => reelFrame f && shpKey f.dest (f.vc / 2) == key))

/-- A flow placed by the cost of its head frame (R361, R363): eligible, or due in a slot, on the overflow list if 4,096 slots or
more ahead. -/
def placeFlow (s : State) (key : Nat) (f : ShpFlow) : State :=
  let tc := key % 8
  let put (f : ShpFlow) (s : State) : State := { s with shp := { s.shp with flows := tset s.shp.flows key f } }
  match (flowFrames s key).head? with
  | none => put { f with ready := false, far := false } s
  | some h =>
    let cost := h.len * 256
    if cost ≤ f.tokens || !shaped s tc then
      if f.ready then put f s
      else put { f with ready := true, far := false, rank := s.shp.nextRank } { s with shp := { s.shp with nextRank := s.shp.nextRank + 1 } }
    else
      let d := max 1 (ceilDiv (cost - f.tokens) (shapeRate s tc))
      put { f with ready := false, due := s.shp.slot + d, far := decide (4096 ≤ d) } s

/-- A shaped flow's entry taken when its first frame is ready: the bucket starts full; with no free entry the frame waits and
SHP_FULL_CNT advances (R362). -/
def takeEntry (s : State) (key : Nat) : State :=
  match tget s.shp.flows key with
  | some f => if (flowFrames s key).length = 1 then placeFlow s key f else s
  | none =>
    if 16384 ≤ s.shp.flows.length then bump s F.SHP_FULL_CNT_COUNT
    else placeFlow s key ⟨shapeBurst s (key % 8), 0, false, false, 0⟩

/-! ### Gates (R366–R369) -/

/-- An entry of a port's active list: INTERVAL and the bit of a class. -/
def gateEntry (s : State) (n e : Nat) : Word :=
  s.reg (0x202000 + 0x400 * n + 0x200 * rdi s F.SHP_GATE_CTL_BANK n + 8 * e)
/-- Entries of the active list. -/
def gateLen (s : State) (n : Nat) : Nat :=
  if rdi s F.SHP_GATE_CTL_BANK n = 0 then rdi s F.SHP_GATE_CTL_LEN_A n else rdi s F.SHP_GATE_CTL_LEN_B n
/-- MODE REPEAT of the active list. -/
def gateRepeat (s : State) (n : Nat) : Bool :=
  (if rdi s F.SHP_GATE_CTL_BANK n = 0 then rdi s F.SHP_GATE_CTL_MODE_A n else rdi s F.SHP_GATE_CTL_MODE_B n) == 1
/-- Whether entry `e` opens a class. -/
def entryOpen (s : State) (n tc e : Nat) : Bool := bit (gateEntry s n e) (19 + tc)
/-- Length of an entry in MGMT cycles of 2.5 ns. -/
def entryCycles (s : State) (n e : Nat) : Nat := 2 * bits (gateEntry s n e) 19 0

/-- MGMT cycles of the run of consecutive open entries from `e`; none for a window that has no end. -/
def windowFrom (s : State) (n tc : Nat) : Nat → Nat → Option Nat
  | 0, _ => none
  | k + 1, e =>
    if e < gateLen s n then
      if entryOpen s n tc e then (windowFrom s n tc k (e + 1)).map (· + entryCycles s n e) else some 0
    else if gateRepeat s n then windowFrom s n tc k 0
    else if entryOpen s n tc (e - 1) then none else some 0

/-- Whether a frame's time on the wire fits `c` MGMT cycles at the port's width (R368). -/
def fitsIn (s : State) (n len : Nat) (c : Option Nat) : Bool :=
  match c with
  | none => true
  | some c => decide (2 * len ≤ 125 * rdi s F.GLK_PORT_STAT_WIDTH n * c)

/-- What a port's gates say of a frame that would start now. -/
inductive GateSays where
  | go | wait | late | overrun
  deriving DecidableEq, Repr

/-- The gate test of R367 to R369; `opening` marks the instant at which the running entry opened. -/
def gateTest (s : State) (n tc len : Nat) (opening : Bool) : GateSays :=
  if tc = 0 ∨ 3 < tc ∨ 56 ≤ n ∨ rdi s F.SHP_GATE_CTL_EN n = 0 then .go
  else
    match tget s.shp.gates n with
    | none => .go
    | some g =>
      let k := 2 * gateLen s n + 2
      if entryOpen s n tc g.entry = false then .wait
      else
        let cur := if g.held then none
          else (windowFrom s n tc k g.entry).map (fun c => c - (rd s F.GLB_MGMT_CYCLES_COUNT - g.start))
        if fitsIn s n len cur then .go
        else if (List.range (gateLen s n)).any (fun e => fitsIn s n len (windowFrom s n tc k e)) then .late
        else if opening && !entryOpen s n tc ((g.entry + gateLen s n - 1) % max 1 (gateLen s n)) then .overrun
        else .late

/-! ### A port picks its next frame (R341, R348, R349) -/

/-- Credits a frame needs. -/
def creditNeed (f : GFrame) : Nat := ceilDiv f.len 64

/-- Whether the port has credits for a frame, and room in its replay buffer and window (R341, R349). -/
def roomFor (p : GPort) (f : GFrame) : Bool :=
  decide (p.used.getD f.vc 0 + creditNeed f ≤ p.credits.getD f.vc 0) && decide (p.unacked.length < 2047)
    && decide (sumNat (p.unacked.map (fun u => u.2.len)) + f.len ≤ 262144)

/-- The first frame of a channel: in the order of readiness, and for TC2 and TC3 requests that of the eligible flow that became
so first (R348, R363). -/
def channelHead (s : State) (p : GPort) (vc : Nat) : Option GFrame :=
  let fs := p.queue.filter (fun f => f.vc == vc)
  if vc = 4 ∨ vc = 6 then
    let ready := fs.filter (fun f => (tget s.shp.flows (shpKey f.dest (vc / 2))).elim false (fun x => x.ready))
    minBy (fun f => (tget s.shp.flows (shpKey f.dest (vc / 2))).elim 0 (fun x => x.rank)) ready
  else fs.head?

/-- The channels in the order in which a port serves them; TC5 comes first when 99 frames have gone without it (R348: at least
1% of the frame slots). -/
def channelOrder (p : GPort) : List Nat :=
  if 99 ≤ p.since5 then [11, 10, 1, 0, 3, 2, 9, 8, 5, 4, 7, 6] else [1, 0, 3, 2, 9, 8, 5, 4, 7, 6, 11, 10]

/-- The next frame, with what its gate says. -/
def nextFrame (s : State) (n : Nat) (p : GPort) (opening : Bool) : Option (GFrame × GateSays) :=
  (channelOrder p).findSome? (fun vc =>
    match channelHead s p vc with
    | none => none
    | some f =>
      if !roomFor p f then none
      else
        match gateTest s n (vc / 2) f.len opening with
        | .go => some (f, .go)
        | .overrun => some (f, .overrun)
        | _ => none)

/-- Frames that do not fit their open window: each is counted once for that window (R368). -/
def countWaits (s : State) (n : Nat) (p : GPort) : State × GPort :=
  (channelOrder p).foldl (fun (x : State × GPort) vc =>
    match channelHead s x.2 vc with
    | some f =>
      if f.waited = false ∧ gateTest s n (vc / 2) f.len false = .late then
        (bump x.1 F.SHP_GATE_WAIT_CNT_COUNT, { x.2 with queue := x.2.queue.map (fun g => if g = f then { g with waited := true } else g) })
      else x
    | none => x) (s, p)

/-- A list with entry `i` advanced by `k` modulo 2^16, as credit counts are. -/
def addAt (l : List Nat) (i k : Nat) : List Nat := l.set i ((l.getD i 0 + k))

/-- The port starts its next frame when its wire is free (R348): SEQ, credits, the replay buffer, the bucket of its flow, and
the seal count, whose limit starts a new key exchange (R347). -/
def servePort (s : State) (n : Nat) (opening : Bool) : State :=
  let p0 := portOf s n
  if p0.wire.isSome || portState s n != 5 then s
  else
    let w := countWaits s n p0
    let p := w.2
    match nextFrame w.1 n p opening with
    | none => if p = p0 then s else setPort w.1 n p
    | some (f, g) =>
      let s0 := if g = .overrun then bump w.1 F.SHP_OVERRUN_CNT_COUNT else w.1
      let seals := p.sealed_ + 1
      let due := decide (2 ^ rd s F.GLK_CFG_REKEY_LOG2 ≤ seals) && !p.rekey
      let p1 := { p with
        queue := p.queue.erase f
        wire := some f
        unacked := p.unacked ++ [(p.txSeq, f)]
        txSeq := (p.txSeq + 1) % 4096
        used := addAt p.used f.vc (creditNeed f)
        sealed_ := seals
        rekey := p.rekey || due
        since5 := if 10 ≤ f.vc then 0 else p.since5 + 1 }
      let s1 := emit (setPort s0 n p1) (.frame n f.vc p.txSeq f.dest f.tag f.len)
      let s2 := if due then emit s1 (.keyxFrame n) else s1
      if reelFrame f then
        let key := shpKey f.dest (f.vc / 2)
        match tget s2.shp.flows key with
        | some x => placeFlow s2 key { x with tokens := x.tokens - f.len * 256, ready := false }
        | none => s2
      else s2

/-- A frame becomes ready at a port. -/
def queueFrame (s : State) (n : Nat) (f : GFrame) : State :=
  let p := portOf s n
  let s1 := setPort s n { p with queue := p.queue ++ [f] }
  servePort (if reelFrame f then takeEntry s1 (shpKey f.dest (f.vc / 2)) else s1) n false

/-- Bytes with fill of a frame with a payload of `len` bytes (R340). -/
def frameBytes (len : Nat) : Nat := roundUp (60 + len) 16

/-- The frames of a payload, of at most 4,096 bytes each. -/
def payloadFrames (vc dest tag len stripe : Nat) : List GFrame :=
  (List.range (max 1 (ceilDiv len 4096))).map (fun i => ⟨vc, dest, tag, frameBytes (min 4096 (len - 4096 * i)), stripe, false⟩)

/-! ### Operations (R344, R351) -/

/-- Key of a flow. -/
def flowKeyOf (dest tc stripe : Nat) : Nat := (dest * 8 + tc) * 64 + stripe

/-- An operation's frames join the queue of its flow's port. -/
def startOp (s : State) (tag : Nat) (o : RemoteOp) (n : Nat) : State :=
  let s1 := { s with glk := { s.glk with
    ops := tset s.glk.ops tag { o with port := some n }
    flows := tset s.glk.flows (flowKeyOf o.dest o.tc o.stripe) n } }
  (payloadFrames (2 * o.tc) o.dest tag o.len o.stripe).foldl (fun s f => queueFrame s n f) s1

/-- Whether a flow has operations outstanding on a port. -/
def flowBusy (s : State) (dest tc stripe : Nat) : Bool :=
  s.glk.ops.any (fun e => e.2.dest == dest && e.2.tc == tc && e.2.stripe == stripe && e.2.port.isSome)

/-- Whether operations of a flow wait: later ones wait behind them. -/
def flowWaits (s : State) (dest tc stripe : Nat) : Bool :=
  s.glk.ops.any (fun e => e.2.dest == dest && e.2.tc == tc && e.2.stripe == stripe && e.2.port.isNone)

/-- An operation is issued: it takes a tag and its flow's port. It waits while 65,536 are outstanding, or while its flow, whose
ACTIVE ports have changed, has operations on the old port (R344, R351). None: it ended at once with GLK_NO_ROUTE. -/
def issueOp (s : State) (dest tc len stripe : Nat) (what : OpFor) (kind : MsgKind) (words : List Word) : State × Option Nat :=
  match flowPort s dest tc stripe with
  | none => (s, none)
  | some n =>
    let tag := s.glk.nextTag
    let s1 := { s with glk := { s.glk with nextTag := (tag + 1) % 2 ^ 32 } }
    let o : RemoteOp := ⟨dest, tc, len, stripe, what, kind, words, none⟩
    let moved := ((tgetD s.glk.flows (flowKeyOf dest tc stripe) n != n) && flowBusy s dest tc stripe) || flowWaits s dest tc stripe
    if moved || decide (65536 ≤ (s.glk.ops.filter (fun e => e.2.port.isSome)).length) then
      ({ s1 with glk := { s1.glk with ops := tset s1.glk.ops tag o } }, some tag)
    else (startOp s1 tag o n, some tag)

/-- A message to a node on a traffic class. One to this controller itself is carried out locally and reaches no port (R343);
the operation that carries another ends without consequence here when it has no route. -/
def sendFor (s : State) (dest tc : Nat) (kind : MsgKind) (words : List Word) (what : OpFor) : State × Option Nat :=
  let s1 := emit s (.message dest tc kind words)
  if dest = self s then (s1, none) else issueOp s1 dest tc (8 * words.length) 0 what kind words

/-- A message whose operation's end has no consequence here. -/
def send (s : State) (dest tc : Nat) (kind : MsgKind) (words : List Word) : State := (sendFor s dest tc kind words .message).1

/-- Messages, in order. -/
def sendAll (s : State) (ms : List (Nat × MsgKind × List Word)) : State := ms.foldl (fun s m => send s m.1 0 m.2.1 m.2.2) s

/-- A response goes back on its class's response channel, by the route to the issuer: its TAG, its ARG and its payload (R352). -/
def respond (s : State) (dest tc tag : Nat) (arg : Word) (bytes : List Byte) : State :=
  let s1 := emit s (.message dest tc .response ([at' 0 32 tag, arg] ++
    bytesWords (ceilDiv bytes.length 8) (bytes ++ List.replicate (roundUp bytes.length 8 - bytes.length) 0)))
  if dest = self s then s1
  else
    match flowPort s1 dest tc 0 with
    | some n => (payloadFrames (2 * tc + 1) dest tag bytes.length 0).foldl (fun s f => queueFrame s n f) s1
    | none => s1

end Sys2Proof.Machine
end

