-- ==== Sys2Proof/Machine/Datum.lean ====
section
/-! DEFINITION. Reading the composition map: entries, roles, groups, homes and the epoch rule (R390–R401). -/

namespace Sys2Proof.Machine

open Sys2Proof

/-! ### Entries (R390) -/

/-- A map entry's word; an unlisted entry is all zero. -/
def entryWord (e : List Word) (i : Nat) : Word := wordAt e i
/-- NODE -/
def eNode (e : List Word) : Nat := bits (entryWord e 0) 19 0
/-- TWIN -/
def eTwin (e : List Word) : Nat := bits (entryWord e 0) 39 20
/-- ROLE (R21) -/
def eRole (e : List Word) : Nat := bits (entryWord e 0) 42 40
/-- STATE: 0 ABSENT, 1 SERVING, 2 REJOIN -/
def eState (e : List Word) : Nat := bits (entryWord e 0) 44 43
/-- GROUP -/
def eGroup (e : List Word) : Nat := bits (entryWord e 1) 15 0
/-- SIBLING -/
def eSibling (e : List Word) : Nat := bits (entryWord e 1) 31 16
/-- SLOT -/
def eSlot (e : List Word) : Nat := bits (entryWord e 1) 41 32
/-- GSIZE_M1 -/
def eGsizeM1 (e : List Word) : Nat := bits (entryWord e 1) 51 42
/-- MODEL -/
def eModel (e : List Word) : Nat := bits (entryWord e 2) 15 0
/-- KVH_M1 -/
def eKvhM1 (e : List Word) : Nat := bits (entryWord e 2) 23 16
/-- GROUP_LOG2 -/
def eGroupLog2 (e : List Word) : Nat := bits (entryWord e 2) 26 24
/-- HOME of a bucket entry -/
def bHome (e : List Word) : Nat := bits (entryWord e 0) 19 0
/-- NEXT of a bucket entry -/
def bNext (e : List Word) : Nat := bits (entryWord e 0) 39 20
/-- MOVING of a bucket entry -/
def bMoving (e : List Word) : Bool := bit (entryWord e 0) 40
/-- SET of a bucket entry -/
def bSet (e : List Word) : Bool := bit (entryWord e 0) 41
/-- KEEPER of the benchmark entry -/
def kKeeper (e : List Word) : Nat := bits (entryWord e 0) 19 0
/-- DEFAULT_HOME of the benchmark entry -/
def kDefaultHome (e : List Word) : Nat := bits (entryWord e 0) 39 20

/-- A map by node ID. -/
abbrev DMap := Tbl (List Word)

/-- The entry of a node; an unlisted one is all zero (R390). -/
def mapGet (m : DMap) (n : Nat) : List Word := tgetD m n [0, 0, 0, 0]

/-- A map with one entry replaced; an all-zero entry is not listed. -/
def mapSet (m : DMap) (n : Nat) (e : List Word) : DMap := if e = [0, 0, 0, 0] then tdel m n else tset m n e

/-- First node ID of the home buckets (R390). -/
def bucketBase : Nat := 0xFE000
/-- Node ID of the benchmark entry (R390). -/
def benchmark : Nat := 0xFFFFF

/-- Whether a node ID is a controller's (R390). -/
def isController (n : Nat) : Bool := decide (n < 0xFE000)

/-- The controller entries that are present. -/
def controllers (m : DMap) : List (Nat × List Word) := m.filter (fun p => isController p.1 && eState p.2 != 0)

/-! ### This controller -/

/-- Map epoch (DTM_EPOCH). -/
def epoch (s : State) : Nat := rd s F.DTM_EPOCH_EPOCH
/-- Own map entry. -/
def ownEntry (s : State) : List Word := mapGet s.dtm.map (self s)

/-- A controller's role: UNASSIGNED while its map epoch is 0 (R21). -/
def role (s : State) : Nat := if epoch s = 0 then 0 else eRole (ownEntry s)

/-- Own group; 0xFFFF for none. -/
def ownGroup (s : State) : Nat := if epoch s = 0 ∨ eState (ownEntry s) = 0 then 0xFFFF else eGroup (ownEntry s)

/-- The twin named in the map (R29), if this controller is in it. -/
def twin (s : State) : Option Nat :=
  if epoch s = 0 ∨ eState (ownEntry s) = 0 then none else some (eTwin (ownEntry s))

/-- Members of a group, by rising node ID. -/
def members (m : DMap) (g : Nat) : List (Nat × List Word) := (controllers m).filter (fun p => eGroup p.2 == g)

/-- The SERVING member of a group in a slot. -/
def slotNode (m : DMap) (g slot : Nat) : Option Nat :=
  (((members m g).find? (fun p => eSlot p.2 == slot && eState p.2 == 1))).map (fun p => p.1)

/-- The step leader of a group: the member in mapping slot 0 (R94), else its twin, which leads both sibling groups when
that member is taken over. -/
def leaderOf (m : DMap) (g : Nat) : Option Nat :=
  match slotNode m g 0 with
  | some n => some n
  | none => (((members m g).find? (fun p => eSlot p.2 == 0))).map (fun p => eTwin p.2)

/-- Whether this controller acts as a node: itself, or its twin after a takeover (R30, R94, R448). -/
def actsAs (s : State) (n : Nat) : Bool := n == self s || (s.con.both && twin s == some n)

/-- Whether this controller leads a group (R94). -/
def leads (s : State) (g : Nat) : Bool := (leaderOf s.dtm.map g).elim false (actsAs s)

/-- Whether this controller leads its own group (R94). -/
def isLeader (s : State) : Bool := leads s (ownGroup s)

/-- Whether a group is complete (R392). -/
def groupComplete (m : DMap) (g : Nat) : Bool :=
  match (members m g).head? with
  | some p => (List.range (eGsizeM1 p.2 + 1)).all (fun i => (slotNode m g i).isSome)
  | none => false

/-! ### Homes (R401) -/

/-- The home bucket of a request: the low 12 bits of the CRC-32C of its 6-byte ID (R401). -/
def bucketOf (req : Nat) : Nat := crc32c (natBytes 6 req) % 4096

/-- The home of a bucket under a map (R401). -/
def bucketHome (m : DMap) (b : Nat) : Nat :=
  let e := mapGet m (bucketBase + b)
  if bSet e then bHome e else kDefaultHome (mapGet m benchmark)

/-- The home node of a request under a map (R401). -/
def homeOf (m : DMap) (req : Nat) : Nat := bucketHome m (bucketOf req)

/-- Whether a controller is a home under the map: HOME or NEXT of some bucket, or DEFAULT_HOME (R405). -/
def namedHome (m : DMap) (n : Nat) : Bool :=
  kDefaultHome (mapGet m benchmark) == n ||
    m.any (fun p => decide (bucketBase ≤ p.1) && decide (p.1 < bucketBase + 4096) &&
      ((bSet p.2 && bHome p.2 == n) || (bMoving p.2 && bNext p.2 == n)))

/-! ### The epoch rule (R398) -/

/-- The signed distance of a carried epoch from the receiver's (R398). -/
def epochDiff (c e : Nat) : Int := signed 32 ((2 ^ 32 + c - e) % 2 ^ 32)

/-- What the epoch rule answers a carried epoch: nothing where it is accepted (R398). The grace window is measured on
the model's clock of MGMT cycles, 400 to the microsecond. -/
def epochRule (s : State) (c : Nat) : Option Status :=
  let d := epochDiff c (epoch s)
  if d = 0 then none
  else if 0 < d then some St.GLK_BUSY
  else if d = -1 ∧ rd s F.GLB_MGMT_CYCLES_COUNT < s.dtm.since + rd s F.DTM_GRACE_CFG_GRACE_US * 400 then none
  else some St.DTM_STALE_MAP

/-- The map as it stood at an earlier epoch, from the log's records, as far back as the log reaches: for each node its
entry at that epoch is not kept, so the group and slot under that epoch are those of the last record not after it
that names the node, else the current entry (R399, R400). -/
def entryAtEpoch (s : State) (c n : Nat) : Option (List Word) :=
  let after := (tvals s.dtm.log).filter (fun r => decide (0 < epochDiff r.1 c) && r.2.any (fun e => e.1 == n))
  if after.isEmpty then some (mapGet s.dtm.map n)
  else
    let before := (tvals s.dtm.log).filter (fun r => decide (epochDiff r.1 c ≤ 0) && r.2.any (fun e => e.1 == n))
    let newest := before.foldl (fun (a : Option (Nat × List (Nat × List Word))) r =>
      match a with
      | none => some r
      | some x => if 0 < epochDiff r.1 x.1 then some r else some x) none
    match newest with
    | some r => (r.2.find? (fun e => e.1 == n)).map (fun e => e.2)
    | none => none

/-- HINT_NODE of a DTM_STALE_MAP answer (R399). -/
def hintNode (s : State) (c : Nat) : Nat :=
  let reached := decide ((epochDiff (epoch s) c).natAbs ≤ 64)
  match entryAtEpoch s c (self s) with
  | some e =>
    if !reached ∨ eState e = 0 then 0xFFFFF
    else ((members s.dtm.map (eGroup e)).find? (fun p => eSlot p.2 == eSlot e)).elim 0xFFFFF (fun p => p.1)
  | none => 0xFFFFF

/-- The role checks of a REQ_POST or step work: PROMPT or BLENDED prefill, GENERATION or BLENDED decode (R23). -/
def servesPrefill (r : Nat) : Bool := r == 1 || r == 4
/-- Decode steps (R23). -/
def servesDecode (r : Nat) : Bool := r == 2 || r == 4

end Sys2Proof.Machine
end

