-- ==== Sys2Proof/Machine/Mirror.lean ====
section
/-! DEFINITION. The mirror stream (R440–R444): records sent, logged or held back. -/

namespace Sys2Proof.Machine

open Sys2Proof

/-- STATE of Continuity (R439). -/
def conState (s : State) : Nat := rd s F.CON_STAT_STATE

/-- CON_STAT.EXPOSED (R31, R439). -/
def exposed (s : State) : Bool := rd s F.CON_STAT_EXPOSED == 1

/-- Bytes of a record's body on the wire, near enough to fill its frames: the words of what it carries. -/
def bodyBytes : MirrorBody → Nat
  | .rows _ _ bs _ sc => 32 + bs.length + sc.length
  | .entry _ _ _ => 32
  | .root _ ws => 8 * ws.length
  | .commit _ _ a _ c t => 32 + 4 * (a.length + c.length + t.length)
  | .counts _ es => 16 + 4 * es.length
  | .intent _ _ _ ws => 16 + 8 * ws.length
  | .decision _ _ _ ns => 24 + 4 * ns.length
  | .home _ r => 8 + (r.elim 0 (fun ws => 8 * ws.length))
  | .transit _ ws => 8 + 8 * ws.length
  | .audit _ _ => 32
  | .release _ => 8
  | .holder _ _ _ => 8
  | .reserved _ => 0

/-- A record goes to the twin on TC4 (R440). -/
def sendMirror (s : State) (mseq : Nat) (b : MirrorBody) : State :=
  let s1 := emit s (.mirror mseq b)
  match twin s with
  | some n => (issueOp s1 n 4 (16 + bodyBytes b) 0 (.mirror mseq) .mirror [BitVec.ofNat 64 mseq]).1
  | none => s1

/-- One record enters the mirror stream: sent with the next MSEQ when PAIRED, logged when SUPPLYING, kept back during the
cutover, and otherwise not mirrored (R440, R453, R454). -/
def mirrorOne (s : State) (b : MirrorBody) : State :=
  match s.con.waiting with
  | some ws => { s with con := { s.con with waiting := some (ws ++ [⟨0, b⟩]) } }
  | none =>
    if conState s = 1 then
      sendMirror { s with con := { s.con with mseq := (s.con.mseq + 1) % 2 ^ 48, unacked := s.con.unacked ++ [⟨s.con.mseq, b⟩] } }
        s.con.mseq b
    else if conState s = 4 then
      { s with con := { s.con with mseq := (s.con.mseq + 1) % 2 ^ 48, delta := s.con.delta ++ [⟨s.con.mseq, b⟩] } }
    else s

/-- A body larger than one PUT in pieces that fit one (R440): rows by 2,048 bytes, counts by 500 entries. A body of another kind
is kept whole: it has no meaning in pieces. -/
def splitBody : MirrorBody → List MirrorBody
  | .rows p off bs soff sc =>
    if bs.length + sc.length ≤ 4048 then [.rows p off bs soff sc]
    else
      (chunks 2048 bs.length bs).zipIdx.map (fun c => .rows p (off + 2048 * c.2) c.1 0 []) ++
        (chunks 2048 sc.length sc).zipIdx.map (fun c => .rows p 0 [] (soff + 2048 * c.2) c.1)
  | .counts r es => if es.length ≤ 500 then [.counts r es] else (chunks 500 es.length es).map (.counts r)
  | b => [b]

/-- A record enters the mirror stream, in as many pieces as it needs (R440). -/
def mirrorRec (s : State) (b : MirrorBody) : State := (splitBody b).foldl mirrorOne s

/-- A page as a mirror record names it, from its key. -/
def pageOfKey (k : Nat) : PageKey := ⟨k / 2 ^ 40, k / 2 ^ 32 % 256, k / 2 ^ 24 % 256, k % 2 ^ 24⟩

/-- The first word of a page-table entry (R208). -/
def pteWord0 (e : Pte) : Word :=
  mkWord [(0, 32, e.frame), (32, 16, e.version), (48, 3, e.state), (51, 2, e.cls), (53, 1, e.kv4.toNat)]

/-- The second word of a page-table entry (R208). -/
def pteWord1 (e : Pte) : Word := mkWord [(0, 36, e.flash), (36, 8, e.kb), (44, 8, e.vb)]

/-! ### The transit record (R420) -/

/-- Word `i` of a transit record. -/
def tw (t : Trav) (i : Nat) : Word := wordAt t.words i
/-- MODEL -/
def tModel (ws : List Word) : Nat := bits (wordAt ws 0) 63 48
/-- STANDIN, none for 0xFFFF -/
def tStandin (ws : List Word) : Option Nat := if bits (wordAt ws 1) 15 0 = 0xFFFF then none else some (bits (wordAt ws 1) 15 0)
/-- SRC_GROUP -/
def tSrc (ws : List Word) : Nat := bits (wordAt ws 1) 31 16
/-- DST_GROUP -/
def tDst (ws : List Word) : Nat := bits (wordAt ws 1) 47 32
/-- OUT_GROUP -/
def tOut (ws : List Word) : Nat := bits (wordAt ws 1) 63 48
/-- LEASE_EPOCH -/
def tEpoch (ws : List Word) : Nat := bits (wordAt ws 2) 31 0
/-- COMMITTED -/
def tCommitted (ws : List Word) : Nat := bits (wordAt ws 3) 22 0
/-- KV_FORMAT is KV4 -/
def tKv4 (ws : List Word) : Bool := bits (wordAt ws 4) 41 40 == 1

/-- PLAN as it runs: ALL with an outside holder is AUTO, whose outcome no message carries (R415). -/
def planOf (ws : List Word) : Nat :=
  let p := bits (wordAt ws 3) 57 56
  if p = 0 ∧ tOut ws ≠ 0xFFFF then (if Config.autoMoves (bits (wordAt ws 0) 47 0) (tEpoch ws) then 2 else 1) else p

/-- The transit record of a request (R420). -/
def transitWords (req : Nat) (r : Req) (root : Root) (src dst plan out : Nat) (tree : List Nat) : List Word :=
  [mkWord [(0, 48, req), (48, 16, r.model)],
   mkWord [(0, 16, r.standin.getD 0xFFFF), (16, 16, src), (32, 16, dst), (48, 16, out)],
   mkWord [(0, 32, root.lease), (32, 20, r.origin), (52, 12, r.key.ctx)],
   mkWord [(0, 23, root.committed), (23, 23, r.pos), (46, 10, r.tenant), (56, 2, plan), (58, 1, (!tree.isEmpty).toNat)],
   mkWord [(0, 20, tree.headD 0), (20, 16, r.budget), (36, 2, r.discard.toNat), (38, 2, r.sampleMode), (40, 2, r.kv4.toNat),
     (42, 4, r.specHeads), (46, 5, r.outLog2)],
   BitVec.ofNat 64 r.outAddr, at' 0 32 (r.maxNew - r.made), 0, 0, 0, 0, 0, 0, 0, 0, 0] ++ (List.range 32).map (wordAt r.param)

/-- Reserved bits of a transit record that are not zero. -/
def transitBad (ws : List Word) : Bool :=
  bits (wordAt ws 3) 63 59 != 0 || bits (wordAt ws 4) 63 51 != 0 || bits (wordAt ws 6) 63 32 != 0 ||
    (List.range 9).any (fun i => wordAt ws (7 + i) != 0)

/-- The request that a transit record describes, at a member that knew nothing of it (R419, R420). -/
def transitReq (ws : List Word) : Req :=
  let w := wordAt ws
  { key := ⟨bits (w 2) 63 52, 0, 0⟩, origin := bits (w 2) 51 32, tag := 0, nocomp := false, intr := false,
    tenant := bits (w 3) 55 46, phase := .traversing, model := tModel ws, standin := tStandin ws, budget := bits (w 4) 35 20,
    discard := bits (w 4) 37 36 == 1, resume := 0, sampleMode := bits (w 4) 39 38, kv4 := tKv4 ws,
    specHeads := bits (w 4) 45 42, outAddr := (w 5).toNat, outLog2 := bits (w 4) 50 46, maxNew := bits (w 6) 31 0,
    param := (ws.drop 16).take 32, committed := tCommitted ws, pos := bits (w 3) 45 23, made := 0, prefillLeft := 0,
    lastAdmit := 0, onStandin := false, good := 0, behind := 0, dropped := false, delayed := false, damaged := false,
    starved := false, choosing := false, doubt := false, cancel := [], numeric := 0, firstTurn := 0, outside := none,
    prefixLen := 0, rootOnly := true, pinned := true, group := tDst ws, fits := true }

/-- PHASE of a request as a ROOT record carries it. -/
def phaseCode : Phase → Nat
  | .posted => 0 | .prefill => 1 | .decode => 2 | .parked => 3 | .traversing => 4 | .ended => 5

/-- The phase that a code names. -/
def phaseOfCode (n : Nat) : Phase :=
  match n with
  | 0 => .posted | 1 => .prefill | 2 => .decode | 3 => .parked | 4 => .traversing | _ => .ended

/-- The body of a ROOT record: the root's 64 bytes (R207), whose DIR stands nowhere, for the page table is held as a structure;
then what the table's shape is, and, where this controller knows the request, what a transit record says of it (R420) and how
far it has come (R25). -/
def rootWords (s : State) (req : Nat) (r : Root) : List Word :=
  [mkWord [(0, 48, req), (48, 1, r.fmt), (49, 2, r.cls)], at' 0 32 r.lease, at' 0 23 r.committed, 0, 0, 0, 0, 0,
    mkWord [(0, 16, r.model), (16, 16, r.nlayers), (32, 16, r.nheads)]] ++
  (match tget s.sch.reqs req with
   | none => []
   | some q => transitWords req q r q.group 0xFFFF 0 (q.outside.getD 0xFFFF) [] ++
      [mkWord [(0, 3, phaseCode q.phase), (3, 23, q.prefillLeft), (26, 23, q.behind), (49, 1, q.onStandin.toNat)],
        mkWord [(0, 23, q.prefixLen), (23, 23, q.firstTurn)]])

/-- The root that a ROOT record holds. -/
def rootOfWords (ws : List Word) : Root :=
  ⟨bits (wordAt ws 0) 48 48, bits (wordAt ws 0) 50 49, bits (wordAt ws 8) 15 0, bits (wordAt ws 8) 31 16, bits (wordAt ws 8) 47 32,
    bits (wordAt ws 1) 31 0, bits (wordAt ws 2) 22 0⟩

/-- The request that a ROOT record holds, if it holds one. -/
def reqOfWords (ws : List Word) : Option Req :=
  if ws.length < 59 then none
  else
    let t := (ws.drop 9).take 48
    let w := wordAt ws 57
    some { transitReq t with
      group := tSrc t
      outside := if tOut t = 0xFFFF then none else some (tOut t)
      phase := phaseOfCode (bits w 2 0)
      prefillLeft := bits w 25 3
      behind := bits w 48 26
      onStandin := bit w 49
      prefixLen := bits (wordAt ws 58) 22 0
      firstTurn := bits (wordAt ws 58) 45 23
      pinned := false }

/-- A home record's words (R402). -/
def homeWords (req : Nat) (h : HomeRec) : List Word :=
  [at' 0 48 req, mkWord [(0, 32, h.epoch), (32, 16, h.owner)], mkWord [(0, 20, h.origin), (20, 24, h.lastTake)], 0, 0, 0, 0, 0]

end Sys2Proof.Machine
end

