-- ==== Sys2Proof/Machine/Slate.lean ====
section
/-! DEFINITION. Slates as they are laid out in memory, and the checks made before a take begins (R124–R131, R145, R393). -/

namespace Sys2Proof.Machine

open Sys2Proof

/-- KIND codes (R126). -/
def kPage : Nat := 1
/-- FRAME -/
def kFrame : Nat := 2
/-- HOME -/
def kHome : Nat := 3
/-- MAP -/
def kMap : Nat := 4
/-- ROUTE -/
def kRoute : Nat := 5
/-- ROW -/
def kRow : Nat := 6
/-- REGION -/
def kRegion : Nat := 7

/-- NACT (R124). -/
def slNact (ws : List Word) : Nat := bits (wordAt ws 0) 15 8
/-- Number of participants (R124). -/
def slParts (ws : List Word) : Nat := bits (wordAt ws 0) 19 16 + 1
/-- COORD (R124). -/
def slCoord (ws : List Word) : Nat := bits (wordAt ws 0) 23 20
/-- MAP_EPOCH (R124). -/
def slEpoch (ws : List Word) : Nat := bits (wordAt ws 1) 31 0
/-- DATA_LEN (R124). -/
def slDataLen (ws : List Word) : Nat := bits (wordAt ws 2) 16 0
/-- NODE of participant p: four bytes at 0x40 + 4p (R124). -/
def slNodeWord (ws : List Word) (p : Nat) : Nat := fld (wordAt ws (8 + p / 2)) (32 * (p % 2)) 32
/-- The participants' node IDs. -/
def slNodes (ws : List Word) : List Nat := (List.range (slParts ws)).map (fun p => slNodeWord ws p % 2 ^ 20)
/-- Word `i` of action `a` (R125). -/
def slAct (ws : List Word) (a i : Nat) : Word := wordAt ws (16 + 4 * a + i)
/-- `n` bytes of the data area from `off`. -/
def slData (ws : List Word) (off n : Nat) : List Byte :=
  ((wordsBytes (ws.drop (16 + 4 * slNact ws))).drop off).take n

/-- A failing byte of a slate (R131: FIELD_OFF 0x10, IN_STRUCT 1). -/
def chkSlate (bad : Bool) (st : Status) (soff : Nat) : Check := chkIn bad st 0x10 soff

/-- Whether a list holds no element twice. -/
def distinct : List Nat → Bool
  | [] => true
  | x :: xs => !xs.contains x && distinct xs

/-- Bytes, from byte `base` on, at which the bits [hi:lo] of a word are not zero: the lowest one, if any (R553). -/
def nzBytes (w : Word) (base hi lo : Nat) : List Nat :=
  match lowBadByte w hi lo with
  | some b => [base + b]
  | none => []

/-- The failing bytes of a slate's header (R124, R148). -/
def slateHeaderBytes (ws : List Word) : List Nat :=
  (if bits (wordAt ws 0) 3 0 = 1 then [] else [0]) ++ nzBytes (wordAt ws 0) 0 7 4 ++
  (if slNact ws = 0 ∨ 64 < slNact ws then [1] else []) ++ (if slParts ws ≤ slCoord ws then [2] else []) ++
  nzBytes (wordAt ws 0) 0 63 24 ++ nzBytes (wordAt ws 1) 8 63 32 ++
  (if 65536 < slDataLen ws ∨ slDataLen ws % 64 ≠ 0 then [0x10] else []) ++ nzBytes (wordAt ws 2) 0x10 63 17 ++
  (List.range 5).flatMap (fun i => nzBytes (wordAt ws (3 + i)) (0x18 + 8 * i) 63 0) ++
  (List.range 16).flatMap (fun p =>
    let w := BitVec.ofNat 64 (slNodeWord ws p)
    if p < slParts ws then
      nzBytes w (0x40 + 4 * p) 31 20 ++
        (if (List.range (slParts ws)).any (fun q => q != p && slNodeWord ws q == slNodeWord ws p) then [0x40 + 4 * p] else [])
    else (if w = 0 then [] else [0x40 + 4 * p]))

/-- Action fields (R125): TYPE. -/
def aType (ws : List Word) (a : Nat) : Nat := bits (slAct ws a 0) 7 0
/-- PART -/
def aPart (ws : List Word) (a : Nat) : Nat := bits (slAct ws a 0) 11 8
/-- KIND -/
def aKind (ws : List Word) (a : Nat) : Nat := bits (slAct ws a 0) 15 12
/-- OBJ_HI -/
def aHi (ws : List Word) (a : Nat) : Nat := bits (slAct ws a 0) 47 16
/-- OBJ_LO -/
def aLo (ws : List Word) (a : Nat) : Nat := (slAct ws a 1).toNat
/-- ARG0 -/
def arg0 (ws : List Word) (a : Nat) : Word := slAct ws a 2
/-- ARG1 -/
def arg1 (ws : List Word) (a : Nat) : Word := slAct ws a 3

/-- Failing bytes of an action's key, from its first byte on: bits that its kind leaves unused (R126), or a key that a POOL ALLOC
may not declare (R127). -/
def keyBytes (ws : List Word) (a : Nat) : List Nat :=
  let hi (h l : Nat) : List Nat := nzBytes (slAct ws a 0) 0 h l
  let lo (h l : Nat) : List Nat := nzBytes (slAct ws a 1) 8 h l
  if aType ws a = 2 ∧ bits (arg0 ws a) 1 0 = 1 then hi 47 16 ++ lo 63 0
  else
    match aKind ws a with
    | 1 => hi 47 40
    | 2 => hi 47 16 ++ lo 63 32
    | 3 => hi 47 16 ++ lo 63 48
    | 4 => hi 47 16 ++ lo 63 20
    | 5 => hi 47 16 ++ lo 63 20
    | 6 => lo 63 16
    | _ => []

/-- Whether the KIND is the one that the TYPE requires (R127). -/
def kindOk (ty kind : Nat) : Bool :=
  match ty with
  | 1 => kind == kPage
  | 2 => kind == kFrame
  | 3 => kind == kHome
  | 4 => kind == kRegion
  | 5 => kind == kRegion
  | 6 => kind == kMap || kind == kRoute
  | 7 => kind == kRow
  | 8 => decide (1 ≤ kind) && decide (kind ≤ 7)
  | _ => false

/-- Byte of the slate at which byte `i` of the data area lies. -/
def dataByte (ws : List Word) (i : Nat) : Nat := 0x80 + 32 * slNact ws + i

/-- The eight bytes of the data area at `off`, as a word. -/
def dataWord (ws : List Word) (off : Nat) : Word := wordAt (bytesWords 1 (slData ws off 8)) 0

/-- Failing bytes of action `a`'s type-specific fields, from its first byte on (R127, R209, R281, R403); bits that a type does not
list are reserved. -/
def argBytes (ws : List Word) (a : Nat) : List Nat :=
  let x := arg0 ws a
  let y := arg1 ws a
  let rx (h l : Nat) : List Nat := nzBytes x 0x10 h l
  let ry (h l : Nat) : List Nat := nzBytes y 0x18 h l
  match aType ws a with
  | 1 =>
    let i := bits x 37 32
    rx 31 17 ++
      (if bit x 16 then
        rx 63 38 ++ (if i < a ∧ aType ws i = 2 ∧ bits (arg0 ws i) 1 0 = 1 ∧ aPart ws i = aPart ws a then [] else [0x14])
       else []) ++
      (if 4 < bits y 18 16 then [0x1A] else []) ++ ry 31 22 ++ ry 63 32
  | 2 => (if bits x 1 0 = 1 ∨ bits x 1 0 = 2 then [] else [0x10]) ++ rx 3 2 ++ rx 63 6 ++ ry 63 0
  | 3 =>
    rx 63 48 ++ ry 63 48 ++ (if bits x 31 0 = 0 ∧ bits x 47 32 = 0xFFFF ∧ bits y 31 0 ≠ 1 then [0x18] else [])
  | 4 =>
    let off := bits y 31 0
    let n := bits y 63 32
    rx 63 52 ++ (if off % 64 ≠ 0 ∨ slDataLen ws < off + n then [0x18] else []) ++
      (if n = 0 ∨ 65536 < n then [0x1C] else [])
  | 5 => rx 63 15 ++ (if slDataLen ws < bits y 31 0 + 32 then [0x18] else []) ++ ry 63 32
  | 6 =>
    rx 63 32 ++ (if slDataLen ws < bits y 31 0 + bits y 63 32 then [0x18] else []) ++
      (if aKind ws a = kRoute ∧ bits y 63 32 ≠ 8 then [0x1C] else [])
  | 7 =>
    rx 63 2 ++ (if bits x 1 0 = 3 then [0x10] else []) ++ ry 31 2 ++ (if bits y 1 0 = 3 then [0x18] else []) ++
      (if slDataLen ws < bits y 63 32 + 8 then [0x1C] else [])
  | _ => rx 63 33 ++ ry 63 0

/-- Reserved bits of what an action points to in the data area, as bytes of the slate: a route entry (R343) and a row's location
(R281). -/
def targetBytes (ws : List Word) (a : Nat) : List Nat :=
  let route := bits (arg1 ws a) 31 0
  let row := bits (arg1 ws a) 63 32
  match aType ws a with
  | 6 =>
    if aKind ws a = kRoute ∧ bits (arg1 ws a) 63 32 = 8 ∧ route + 8 ≤ slDataLen ws then
      nzBytes (dataWord ws route) (dataByte ws route) 62 56
    else []
  | 7 => if row + 8 ≤ slDataLen ws then nzBytes (dataWord ws row) (dataByte ws row) 62 24 else []
  | _ => []

/-- The failing bytes of action `a` in the slate (R125–R127); what an action of an unknown type holds is not looked at. -/
def actionBytes (ws : List Word) (a : Nat) : List Nat :=
  let o := 0x80 + 32 * a
  let head := (if slParts ws ≤ aPart ws a then [1] else []) ++
    (if aKind ws a = 0 ∨ 7 < aKind ws a then [1] else []) ++ nzBytes (slAct ws a 0) 0 63 48
  if aType ws a = 0 ∨ 8 < aType ws a then [o]
  else
    (head ++ (if kindOk (aType ws a) (aKind ws a) then keyBytes ws a else [1]) ++ argBytes ws a).map (o + ·) ++ targetBytes ws a

/-- ROUTE actions whose expected epoch is not the first one's (R343): the byte of each. -/
def routeBytes (ws : List Word) : List Nat :=
  let rs := (List.range (slNact ws)).filter (fun a => aType ws a == 6 && aKind ws a == kRoute)
  match rs with
  | [] => []
  | r :: rest => (rest.filter (fun a => bits (arg0 ws a) 31 0 != bits (arg0 ws r) 31 0)).map (fun a => 0x80 + 32 * a + 0x10)

/-- A check over the failing bytes of a slate: it fails at the lowest (R131, R553). -/
def chkSlateBytes (l : List Nat) (st : Status) : Check := chkSlate (!l.isEmpty) st ((least l).getD 0)

/-- The list of words that an entry's bytes hold. -/
def entryOf (bs : List Byte) : List Word := bytesWords 4 bs

/-- Action `a` read out of a slate that passed its checks. -/
def slateAction (ws : List Word) (a : Nat) : Action :=
  let x := arg0 ws a
  let y := arg1 ws a
  ⟨aPart ws a, ⟨aKind ws a, aHi ws a, aLo ws a⟩,
    match aType ws a with
    | 1 => .ptMap (bits x 15 0) (bits x 63 32) (if bit x 16 then some (bits x 37 32) else none) (bits y 15 0) (bits y 31 16)
    | 2 => if bits x 1 0 = 1 then .alloc (bits x 5 4) else .free
    | 3 => .owner (bits x 31 0) (bits x 47 32) (bits y 31 0) (bits y 47 32)
    | 4 => .put (bits x 51 0) (slData ws (bits y 31 0) (bits y 63 32))
    | 5 => .ringPost (bits x 11 0) (bits x 14 12) (bytesWords 4 (slData ws (bits y 31 0) 32))
    | 6 => .mapEntry (bits x 31 0) (bytesWords (bits y 63 32 / 8) (slData ws (bits y 31 0) (bits y 63 32)))
    | 7 => .redirect (bits x 1 0) (bits y 1 0) (wordAt (bytesWords 1 (slData ws (bits y 63 32) 8)) 0)
    | _ => .check (if bit x 32 then some (bits x 31 0) else none)⟩

/-- A slate read out of its words. -/
def slateOf (ws : List Word) : Slate :=
  ⟨slNodes ws, slCoord ws, slEpoch ws, (List.range (slNact ws)).map (slateAction ws)⟩

/-- The MAP entries a slate gives participant `p`: node, expected epoch and entry. -/
def mapActs (sl : Slate) (p : Nat) : List (Nat × Nat × List Word) :=
  sl.actions.filterMap (fun a =>
    match a.act with
    | .mapEntry e w => if a.obj.kind = kMap ∧ a.part = p then some (a.obj.lo, e, w) else none
    | _ => none)

/-- Whether a slate changes the map. -/
def isMapChange (sl : Slate) : Bool :=
  sl.actions.any (fun a =>
    match a.act with
    | .mapEntry _ _ => a.obj.kind == kMap
    | _ => false)

/-- The rules of a map-change slate (R393, R394): every participant gets one MAP_ENTRY of length 32 for each changed
entry, the benchmark entry among them, all with one expected epoch, at most 31 besides the benchmark; and the keeper, in the
first map the new one, and every changed controller that does not become ABSENT are participants. -/
def mapChangeOk (s : State) (sl : Slate) : Bool :=
  let first := mapActs sl 0
  let e0 := match first.head? with | some x => x.2.1 | none => 0
  (List.range sl.nodes.length).all (fun p =>
    let m := mapActs sl p
    m.map (fun x => (x.1, x.2.2)) == first.map (fun x => (x.1, x.2.2)) && m.all (fun x => x.2.1 == e0)) &&
  first.all (fun x => x.2.2.length == 4) &&
  distinct (first.map (fun x => x.1)) &&
  decide (first.length ≤ 32) &&
  (match first.find? (fun x => x.1 == benchmark) with
   | some x => sl.nodes.contains (kKeeper (if epoch s = 0 then x.2.2 else mapGet s.dtm.map benchmark))
   | none => false) &&
  first.all (fun x => decide (bucketBase ≤ x.1) || eState x.2.2 == 0 || sl.nodes.contains x.1)

/-- The checks of a slate's form (R124–R127, R343), and of its types where TAKE_SUBMIT brings it (R129). -/
def slateChecks (s : State) (ws : List Word) (host : Bool) : List Check :=
  [chkSlateBytes (slateHeaderBytes ws) St.TAK_BAD_SLATE,
   chkSlateBytes ((List.range (slNact ws)).flatMap (actionBytes ws) ++ routeBytes ws) St.TAK_BAD_ACTION] ++
  (if host then (List.range (slNact ws)).map (fun a =>
    chkSlate (!(rd s F.TAK_HOST_MASK_ALLOW).testBit (aType ws a - 1)) St.TAK_ACTION_PROT (0x80 + 32 * a)) else [])

/-- The rules of a map change, which the proposer's take unit checks (R393, R394). -/
def mapChangeCheck (s : State) (ws : List Word) : Check :=
  chkSlate (isMapChange (slateOf ws) && !mapChangeOk s (slateOf ws)) St.TAK_BAD_SLATE 0x80

end Sys2Proof.Machine
end

