-- ==== Sys2Proof/Machine/TakeOps.lean ====
section
/-! DEFINITION. The take unit: versions, PREPARE checks, locks, the effects of actions, local takes, and the steps of a
two-phase commit (R126–R148, R551). -/

namespace Sys2Proof.Machine

open Sys2Proof

/-! ### Keys and objects -/

/-- The key of a page-table entry: request, layer × 256 + head, page index (R126). -/
def pageKey (req lh page : Nat) : Nat := (req * 65536 + lh) * 2 ^ 24 + page
/-- The request of a page key. -/
def pageReq (k : Nat) : Nat := k / 2 ^ 40
/-- layer × 256 + head of a page key. -/
def pageLh (k : Nat) : Nat := k / 2 ^ 24 % 65536
/-- The page index of a page key. -/
def pageIdx (k : Nat) : Nat := k % 2 ^ 24
/-- The object of a page (R126). -/
def pageObj (k : Nat) : Obj := ⟨kPage, pageIdx k, pageReq k + pageLh k * 2 ^ 48⟩
/-- The page key of a PAGE object. -/
def objPage (o : Obj) : Nat := pageKey (o.lo % 2 ^ 48) (o.lo / 2 ^ 48) o.hi
/-- The object of a frame (R126). -/
def frameObj (f : Nat) : Obj := ⟨kFrame, 0, f⟩
/-- The key of a redirect. -/
def rowKey (o : Obj) : Nat := o.lo * 2 ^ 32 + o.hi

/-- A page-table entry that is not listed: INVALID. -/
def pteNone : Pte := ⟨0, 0, 0, 0, false, 0, 0, 0⟩
/-- The page-table entry of a page key. -/
def pteOf (s : State) (k : Nat) : Pte := tgetD s.kva.ptes k pteNone
/-- A page-table entry replaced. An INVALID entry keeps its version. -/
def setPte (s : State) (k : Nat) (e : Pte) : State :=
  { s with kva := { s.kva with ptes := if e = pteNone then tdel s.kva.ptes k else tset s.kva.ptes k e } }
/-- A frame's record replaced. -/
def setFrame (s : State) (f : Nat) (r : Frame) : State := { s with kva := { s.kva with frames := tset s.kva.frames f r } }

/-- Base of the route table in HBM (R343). -/
def routeAddr (s : State) (dest : Nat) : Nat := rd s F.GLK_ROUTE_BASE_BASE_MIB * 2 ^ 20 + 8 * dest

/-- The version of an object (R127). -/
def objVersion (s : State) (o : Obj) : Nat :=
  if o.kind = kPage then (pteOf s (objPage o)).version
  else if o.kind = kHome then (match tget s.dtm.homes o.lo with | some h => h.epoch | none => 0)
  else if o.kind = kMap then epoch s
  else if o.kind = kRoute then rd s F.GLK_ROUTE_EPOCH_EPOCH
  else if o.kind = kRegion ∧ o.hi = 0x11 then tgetD s.tak.mseq o.lo 0
  else 0

/-! ### Age (R132) -/

/-- Whether a take is older than another: smaller stamp, then lower coordinator node (R132). -/
def older (s1 n1 s2 n2 : Nat) : Bool := decide (s1 < s2) || (s1 == s2 && decide (n1 < n2))

/-- TAK_CLOCK raised to a stamp received (R132). -/
def seeStamp (s : State) (stamp : Nat) : State := wr s F.TAK_CLOCK_STAMP (max (rd s F.TAK_CLOCK_STAMP) stamp)

/-- A new stamp: TAK_CLOCK + 1 (R132). -/
def newStamp (s : State) : State × Nat :=
  let st := rd s F.TAK_CLOCK_STAMP + 1
  (wr s F.TAK_CLOCK_STAMP st, st)

/-! ### Locks (R133) -/

/-- Whether an action only shares its object's lock: CHECK (R133). -/
def sharesLock (a : Act) : Bool :=
  match a with
  | .check _ => true
  | _ => false

/-- The locks that a take's actions at a participant need, ALLOC's on the frames chosen (R127, R133). -/
def neededLocks (ref : TakeRef) (acts : List (Nat × Action)) (frames : Tbl Nat) : List Lock :=
  acts.map (fun p =>
    match p.2.act with
    | .alloc _ => ⟨frameObj (tgetD frames p.1 0), true, ref⟩
    | x => ⟨p.2.obj, !sharesLock x, ref⟩)

/-- Whether two locks of different takes exclude each other. -/
def clashes (a b : Lock) : Bool := a.obj == b.obj && (a.excl || b.excl) && a.ref != b.ref

/-- The holders that stand against a list of wanted locks. -/
def lockHolders (s : State) (want : List Lock) : List TakeRef :=
  ((s.tak.locks.filter (fun l => want.any (fun w => clashes l w))).map (fun l => l.ref)).dedup

/-- A participant's record of a take. -/
def partOf (s : State) (r : TakeRef) : Option PartTake := ((s.tak.part.find? (fun p => p.1 == r))).map (fun p => p.2)

/-- A participant's record replaced or added. -/
def setPart (s : State) (r : TakeRef) (p : PartTake) : State :=
  let ps :=
    if s.tak.part.any (fun q => q.1 == r) then s.tak.part.map (fun q => if q.1 = r then (r, p) else q)
    else s.tak.part ++ [(r, p)]
  { s with tak := { s.tak with part := ps } }

/-- A participant's record removed, with its locks. -/
def dropPart (s : State) (r : TakeRef) : State :=
  { s with tak := { s.tak with part := s.tak.part.filter (fun q => q.1 != r), locks := s.tak.locks.filter (fun l => l.ref != r) } }

/-- Whether a participant's record counts as prepared (R133): it has voted yes. -/
def isPrepared (p : PartTake) : Bool := p.state == .prepared || p.state == .doubt false || p.state == .doubt true

/-- What R133's table gives a requester. -/
inductive LockResult where
  | granted
  /-- The holders named abort, and the locks are granted. -/
  | wounds (hs : List TakeRef)
  | conflict (with_ : TakeRef)
  | waits (on : TakeRef)
  deriving DecidableEq, Repr

/-- The outcome of a request for locks (R133). -/
def lockOutcome (s : State) (ref : TakeRef) (stamp : Nat) (want : List Lock) : LockResult :=
  let hs := lockHolders s want
  match hs.find? (fun h =>
    match partOf s h with
    | some p => !older stamp ref.node p.stamp h.node
    | none => false) with
  | some h => .conflict h
  | none =>
    match hs.find? (fun h =>
      match partOf s h with
      | some p => isPrepared p
      | none => false) with
    | some h => .waits h
    | none => if hs.isEmpty then .granted else .wounds hs

/-! ### PREPARE checks (R127, R209, R210, R394, R403, R404, R551) -/

/-- Intents of 32 bytes that an action takes in the log, its PUT data included (R148). -/
def intentsOf (a : Act) : Nat :=
  match a with
  | .put _ bs => 1 + ceilDiv bs.length 32
  | .ringPost _ _ _ => 2
  | .mapEntry _ e => 1 + ceilDiv (8 * e.length) 32
  | .redirect _ _ _ => 2
  | .putLease _ _ => 2
  | .putEntry _ => 2
  | .putCommitted _ _ => 2
  | .putHome _ _ => 3
  | _ => 1

/-- Intents in use (TAK_OPEN.INTENTS). -/
def intentsUsed (s : State) : Nat := sumNat (s.tak.part.map (fun p => p.2.intents))
/-- Open takes (TAK_OPEN.TAKES), as coordinator or participant. -/
def takesOpen (s : State) : Nat :=
  s.tak.coord.length + (s.tak.part.filter (fun p => p.1.node != self s || !thas s.tak.coord p.1.id)).length

/-- A free frame of a class that no take has locked, lowest number first. -/
def freeFrame (s : State) (cls : Nat) (taken : List Nat) : Option Nat :=
  if rd s F.KVA_POOL_CTL_EN = 0 then none
  else (firstFree (rdi s F.KVA_CLASS_COUNT cls) (fun i =>
    let f := cls * 2 ^ 30 + i
    !thas s.kva.frames f && !taken.contains f && !s.tak.locks.any (fun l => l.obj == frameObj f))).map (fun i => cls * 2 ^ 30 + i)

/-- The frames that a take's ALLOC actions choose, by action index; none where a class has no such frame (R127). -/
def chooseFrames (s : State) : List (Nat × Action) → Tbl Nat → Option (Tbl Nat)
  | [], fs => some fs
  | (i, a) :: rest, fs =>
    match a.act with
    | .alloc c =>
      match freeFrame s c (tvals fs) with
      | some f => chooseFrames s rest (tset fs i f)
      | none => none
    | _ => chooseFrames s rest fs

/-- Index of the first ALLOC that finds no frame. -/
def firstAlloc (s : State) : List (Nat × Action) → Tbl Nat → Nat
  | [], _ => 0
  | (i, a) :: rest, fs =>
    match a.act with
    | .alloc c =>
      match freeFrame s c (tvals fs) with
      | some f => firstAlloc s rest (tset fs i f)
      | none => i
    | _ => firstAlloc s rest fs

/-- Index of the first action whose lock a holder's locks exclude (R134: the failing action). -/
def conflictAt (s : State) (acts : List (Nat × Action)) (want : List Lock) (h : TakeRef) : Nat :=
  match (acts.zip want).find? (fun p => s.tak.locks.any (fun l => l.ref == h && clashes l p.2)) with
  | some p => p.1.1
  | none => 0

/-- Whether a remote grant covers a range with a right: bit 40 READ, 41 WRITE, 42 ATOMIC (R492). -/
def remoteGrant (s : State) (node right a n : Nat) : Bool :=
  (List.range (bits (winWord s 0x18) 28 16)).any (fun i =>
    let b := 0xA0000 + 32 * i
    let w := winWord s b
    bit w 43 && decide (bits w 19 0 ≤ node) && decide (node ≤ bits w 39 20) && bit w right
      && within a n (winWord s (b + 8)).toNat (winWord s (b + 16)).toNat)

/-- The lines of 64 bytes that a write covers only in part, as offsets (R551). -/
def partialLines (a n : Nat) : List Nat :=
  if n = 0 then []
  else
    let first := a / 64 * 64
    let last := (a + n) / 64 * 64
    (if a % 64 ≠ 0 then [first] else []) ++
      (if (a + n) % 64 ≠ 0 ∧ ¬(a % 64 ≠ 0 ∧ first = last) then [last] else [])

/-- The check of a PUT's target (R551). -/
def putCheck (s : State) (src : Source) (a n : Nat) : Option Status :=
  let inMem := inHbm s a n || inStage a n
  let addr := match src with
    | .block => if inMem || within a n 0x100010000000 0x100011000000 then none else some St.MEM_BAD_ADDR
    | _ => if inMem then none else some St.MEM_BAD_ADDR
  match addr with
  | some st => some st
  | none =>
    let prot := match src with
      | .hostHere c t => if accessOk s c t true true a n then none else some St.HPT_PROT
      | .hostAt node => if remoteGrant s node 41 a n && !touchesDevice s a n then none else some St.GLK_REMOTE_PROT
      | .block => none
    match prot with
    | some st => some st
    | none => (partialLines a n).findSome? (fun l => readRefusal s l 64)

/-- Whether a valid map leaves this controller's owned requests served: R394's ROLE_BUSY test on its own new entry. -/
def roleBusy (s : State) (acts : List (Nat × Action)) : Bool :=
  acts.any (fun p =>
    match p.2.act with
    | .mapEntry _ e =>
      p.2.obj.kind == kMap && p.2.obj.lo == self s &&
        ((eGroup e != ownGroup s || eSlot e != eSlot (ownEntry s)) &&
            s.sch.reqs.any (fun r => r.2.phase != .ended) ||
          s.sch.reqs.any (fun r =>
            (r.2.phase == .prefill && !servesPrefill (eRole e)) || (r.2.phase == .decode && !servesDecode (eRole e))
              || (r.2.phase == .parked && eRole e != 3)))
    | _ => false)

/-- R391's validity of a map: the cause of the first check that fails. -/
def mapInvalid (m : DMap) : Option Status :=
  let cs := controllers m
  let resvBad (p : Nat × List Word) : Bool :=
    if isController p.1 then
      eState p.2 == 3 || bits (entryWord p.2 0) 63 45 != 0 || bits (entryWord p.2 1) 63 52 != 0
        || bits (entryWord p.2 2) 63 27 != 0 || entryWord p.2 3 != 0 || eNode p.2 != p.1 || eState p.2 == 0
    else if p.1 == benchmark then
      bits (entryWord p.2 0) 63 40 != 0 || entryWord p.2 1 != 0 || entryWord p.2 2 != 0 || entryWord p.2 3 != 0
    else if p.1 < bucketBase + 4096 then
      bits (entryWord p.2 0) 63 42 != 0 || entryWord p.2 1 != 0 || entryWord p.2 2 != 0 || entryWord p.2 3 != 0
        || (!bMoving p.2 && bNext p.2 != 0)
    else true
  let twinBad (p : Nat × List Word) : Bool :=
    let t := mapGet m (eTwin p.2)
    eState t == 0 || eTwin t != p.1 || eRole t != eRole p.2 || eSlot t != eSlot p.2 || eGsizeM1 t != eGsizeM1 p.2
      || eModel t != eModel p.2 || eKvhM1 t != eKvhM1 p.2 || eGroupLog2 t != eGroupLog2 p.2
      || eGroup t != eSibling p.2 || (eRole p.2 != 0 && eGroup t == eGroup p.2)
  let entryBad (p : Nat × List Word) : Bool :=
    decide (eGsizeM1 p.2 < eSlot p.2)
      || ((eRole p.2 == 0) != (eGroup p.2 == 0xFFFF))
      || (eRole p.2 == 0 && (eSibling p.2 != 0xFFFF || eSlot p.2 != 0 || eGsizeM1 p.2 != 0 || eModel p.2 != 0 || eKvhM1 p.2 != 0
          || eGroupLog2 p.2 != 0))
      || cs.any (fun q => q.1 != p.1 && eGroup q.2 == eGroup p.2 && eGroup p.2 != 0xFFFF &&
          (eSlot q.2 == eSlot p.2 || eGsizeM1 q.2 != eGsizeM1 p.2 || eRole q.2 != eRole p.2 || eModel q.2 != eModel p.2
            || eKvhM1 q.2 != eKvhM1 p.2 || eGroupLog2 q.2 != eGroupLog2 p.2))
  let mappingBad (p : Nat × List Word) : Bool :=
    let n := eGsizeM1 p.2 + 1
    let h := eKvhM1 p.2 + 1
    let g := 2 ^ eGroupLog2 p.2
    (eRole p.2 == 1 || eRole p.2 == 2 || eRole p.2 == 4) &&
      !(decide (h ≤ n ∧ n % h = 0 ∧ (h * g) % n = 0) || decide (n < h ∧ h % n = 0))
  let home (n : Nat) : Bool := eState (mapGet m n) == 1 && eRole (mapGet m n) == 3 && isController n
  if cs.any (fun p => decide (5 ≤ eRole p.2)) then some St.DTM_BAD_ROLE
  else if cs.any twinBad then some St.DTM_TWIN_MISMATCH
  else if m.any resvBad || cs.any entryBad then some St.DTM_BAD_ENTRY
  else if cs.any mappingBad then some St.DTM_BAD_MAPPING
  else if !home (kKeeper (mapGet m benchmark)) || !home (kDefaultHome (mapGet m benchmark))
      || m.any (fun p => decide (bucketBase ≤ p.1) && decide (p.1 < bucketBase + 4096) &&
          ((bSet p.2 && !home (bHome p.2)) || (bMoving p.2 && !home (bNext p.2)))) then some St.DTM_NO_HOME
  else none

end Sys2Proof.Machine
end

