-- ==== Sys2Proof/Machine/TakeRun.lean ====
section
/-! DEFINITION. Running takes: the effects of actions, map changes, local takes and the two-phase commit
(R128, R134, R136–R148, R393–R400). -/

namespace Sys2Proof.Machine

open Sys2Proof

/-! ### Map changes -/

/-- The position of a node among the SERVING and REJOIN entries, rising from the keeper (R396). -/
def spreadOrder (s : State) : List Nat :=
  let ns := (controllers s.dtm.map).map (fun p => p.1)
  let k := kKeeper (mapGet s.dtm.map benchmark)
  ns.filter (fun n => decide (k ≤ n)) ++ ns.filter (fun n => decide (n < k))

/-- The words of a log record: EPOCH, NENT, the nodes and their entries (R400). -/
def logWords (e : Nat) (es : List (Nat × List Word)) : List Word :=
  let node (k : Nat) : Nat := match es[k]? with | some x => x.1 | none => 0
  mkWord [(0, 32, e), (32, 6, es.length)] :: (List.replicate 15 (0 : Word)) ++
    (List.range 16).map (fun i => mkWord [(0, 20, node (2 * i)), (32, 20, node (2 * i + 1))]) ++
    es.flatMap (fun x => x.2)

/-- The record sent on to positions F × i + 1 to F × i + F of the spread (R396). -/
def spreadRecord (s : State) (e : Nat) (es : List (Nat × List Word)) : State :=
  let order := spreadOrder s
  match order.findIdx? (· == self s) with
  | none => s
  | some i =>
    let f := rd s F.DTM_SURVEY_CFG_FANOUT
    sendAll s (((List.range f).filterMap (fun j => order[f * i + j + 1]?)).map (fun n => (n, .mapRecord, logWords e es)))

/-- REVOKED ends for a holder whose entry moves from REJOIN to SERVING (R410). -/
def clearRevoked (old new : DMap) (hs : Tbl Holder) : Tbl Holder :=
  tmap (fun n h => if eState (mapGet old n) = 2 ∧ eState (mapGet new n) = 1 then { h with revoked := false } else h) hs

/-- The map epoch moves to `e` by a record's entries: they are replaced and logged (R393, R396, R400), a MAP_CHANGE event
is posted (R552), REVOKED marks end (R410), and deficits restart where the leader changed (R101). -/
def advanceEpoch (s : State) (e : Nat) (es : List (Nat × List Word)) : State :=
  let m := es.foldl (fun m x => mapSet m x.1 x.2) s.dtm.map
  let before := leaderOf s.dtm.map (ownGroup s)
  let s1 := { s with dtm := { s.dtm with
    map := m
    log := tset s.dtm.log (e % 64) (e, es)
    since := rd s F.GLB_MGMT_CYCLES_COUNT
    holders := clearRevoked s.dtm.map m s.dtm.holders } }
  let s2 := wr s1 F.DTM_EPOCH_EPOCH e
  let s3 :=
    if leaderOf m (ownGroup s2) = before then s2
    else { s2 with sch := { s2.sch with drr := { s2.sch.drr with ptr := 0, opened := false, deficit := [] },
                                        drrPrompt := { s2.sch.drrPrompt with ptr := 0, opened := false, deficit := [] } } }
  writeEvent s3 .mapChange St.OK 0 0 (at' 0 32 e) (at' 0 6 es.length)

/-! ### Effects of actions (R127, R128) -/

/-- The frame a PT_MAP names, an ALLOC's where FROM_ACT = 1. -/
def mapFrame (frames : Tbl Nat) (frame : Nat) (fromAct : Option Nat) : Nat :=
  match fromAct with
  | some i => tgetD frames i 0
  | none => frame

/-- The age counter (KVA_AGE). -/
def kvaAge (s : State) : Nat := rd s F.KVA_AGE_AGE

/-- The entry of a page replaced by PT_MAP: frame, version and flags (R127, R208). A frame that the entry named before is
named by none. -/
def applyPtMap (s : State) (k frame ver flags : Nat) : State :=
  let e := pteOf s k
  let st := flags % 8
  let s1 := if e.state = 1 then
      { s with kva := { s.kva with frames := tmod s.kva.frames e.frame (fun f => if f.page = some k then { f with page := none } else f) } }
    else s
  let e' : Pte := ⟨if st = 1 then frame else 0, ver, st, flags / 8 % 4, (flags / 32) % 2 == 1,
    if st = 2 then e.flash else 0, if st = 0 then 0 else e.kb, if st = 0 then 0 else e.vb⟩
  let s2 := setPte s1 k e'
  if st = 1 then
    { s2 with kva := { s2.kva with frames := tmod s2.kva.frames frame (fun f => { f with page := some k, stamp := kvaAge s }) } }
  else s2

/-- The effect of one action at its participant (R127); RING_POST is left for last (R128). -/
def applyAction (s : State) (ref : TakeRef) (nodes : List Nat) (frames : Tbl Nat) (i : Nat) (a : Action) : State :=
  match a.act with
  | .ptMap _ frame fromAct ver flags => applyPtMap s (objPage a.obj) (mapFrame frames frame fromAct) ver flags
  | .alloc _ => setFrame s (tgetD frames i 0) ⟨kvaAge s, none, false⟩
  | .free => { s with kva := { s.kva with frames := tdel s.kva.frames a.obj.lo } }
  | .owner ee eg ne ng =>
    if ng = 0xFFFF then { s with dtm := { s.dtm with homes := tdel s.dtm.homes a.obj.lo } }
    else if ee = 0 ∧ eg = 0xFFFF then
      { s with dtm := { s.dtm with homes := tset s.dtm.homes a.obj.lo ⟨ne, ng, nodes.getD 0 0, ref.id⟩ } }
    else
      { s with dtm := { s.dtm with homes := tmod s.dtm.homes a.obj.lo (fun h => { h with epoch := ne, owner := ng, lastTake := ref.id }) } }
  | .put off bs => writeMem s off bs
  | .ringPost _ _ _ => s
  | .mapEntry _ e =>
    if a.obj.kind = kRoute then writeWord s (routeAddr s a.obj.lo) (wordAt e 0) else s
  | .redirect _ ns loc => { s with tak := { s.tak with redirects := tset s.tak.redirects (rowKey a.obj) (ns, loc) } }
  | .check _ => s
  | .putLease req l =>
    let s1 := { s with kva := { s.kva with roots := tmod s.kva.roots req (fun r => { r with lease := l }) } }
    if s.con.claimed.contains req then
      modReq { s1 with con := { s1.con with claimed := s1.con.claimed.filter (· != req) } } req (fun q => { q with doubt := false })
    else s1
  | .putHome req h => { s with dtm := { s.dtm with homes := tset s.dtm.homes req h } }
  | .putCommitted req n => { s with kva := { s.kva with roots := tmod s.kva.roots req (fun r => { r with committed := n }) } }
  | .putEntry w =>
    let k := objPage a.obj
    setPte s k { pteOf s k with flash := bits w 35 0, kb := bits w 43 36, vb := bits w 51 44 }

/-- A port that has passed its link test becomes ACTIVE when a route-table take commits (R337). -/
def activatePorts (s : State) : State :=
  (List.range 56).foldl (fun s n =>
    if portState s n = 4 ∧ 65536 ≤ (portOf s n).tested then servePort (wri s F.GLK_PORT_STAT_STATE n 5) n false else s) s

/-- The epoch actions of a take: MAP entries move the map epoch once, ROUTE entries the route epoch once (R343, R393). -/
def applyEpochs (s : State) (acts : List (Nat × Action)) : State :=
  let maps := acts.filterMap (fun p => match p.2.act with
    | .mapEntry e w => if p.2.obj.kind = kMap then some (e, p.2.obj.lo, w) else none
    | _ => none)
  let routes := acts.filterMap (fun p => match p.2.act with
    | .mapEntry e _ => if p.2.obj.kind = kRoute then some e else none
    | _ => none)
  let s1 := match maps with
    | [] => s
    | m :: _ =>
      let es := maps.map (fun x => (x.2.1, x.2.2))
      let s' := advanceEpoch s ((m.1 + 1) % 2 ^ 32) es
      if kKeeper (mapGet s'.dtm.map benchmark) = self s' then spreadRecord s' ((m.1 + 1) % 2 ^ 32) es else s'
  match routes with
  | [] => s1
  | e :: _ => activatePorts (wr s1 F.GLK_ROUTE_EPOCH_EPOCH ((e + 1) % 2 ^ 32))

/-- The ring records of a take, which become visible last (R128). -/
def applyRings (s : State) (acts : List (Nat × Action)) : State :=
  acts.foldl (fun s p => match p.2.act with
    | .ringPost c q w => writeRecord s c q ⟨wordAt w 0, wordAt w 1, wordAt w 2, wordAt w 3, false, 0⟩
    | _ => s) s

/-- All of a take's actions at a participant, in slate order (R128). -/
def applyTake (s : State) (ref : TakeRef) (nodes : List Nat) (frames : Tbl Nat) (acts : List (Nat × Action)) : State :=
  let s1 := acts.foldl (fun s p => applyAction s ref nodes frames p.1 p.2) s
  applyRings (applyEpochs s1 acts) acts

/-! ### PREPARE -/

/-- The PREPARE check of one action (R127, R209, R210, R403, R404, R432, R551). -/
def actionCheck (s : State) (src : Source) (frames : Tbl Nat) (a : Action) : Option Status :=
  match a.act with
  | .ptMap ev frame fromAct _ flags =>
    let k := objPage a.obj
    let f := mapFrame frames frame fromAct
    if (pteOf s k).version ≠ ev then some St.TAK_CHECK_FAIL
    else if flags % 8 ≠ 1 then none
    else if f / 2 ^ 30 ≠ flags / 8 % 4 then some St.TAK_CHECK_FAIL
    else match tget s.kva.frames f with
      | none => some St.TAK_CHECK_FAIL
      | some r => if r.page.isSome ∧ r.page ≠ some k then some St.TAK_CHECK_FAIL else none
  | .alloc _ => none
  | .free => if thas s.kva.frames a.obj.lo then none else some St.TAK_CHECK_FAIL
  | .owner ee eg ne _ =>
    let req := a.obj.lo
    if !actsAs s (homeOf s.dtm.map req) then some St.DTM_NOT_HOME
    else if bMoving (mapGet s.dtm.map (bucketBase + bucketOf req)) then some St.DTM_HOME_MOVING
    else match tget s.dtm.homes req with
      | some h =>
        if ee = 0 ∧ eg = 0xFFFF then some St.TAK_CHECK_FAIL
        else if h.epoch = ee ∧ h.owner = eg ∧ ne = ee + 1 then none else some St.TAK_CHECK_FAIL
      | none =>
        if ee = 0 ∧ eg = 0xFFFF then (if 4194304 ≤ s.dtm.homes.length then some St.DTM_HOME_FULL else none)
        else some St.TAK_CHECK_FAIL
  | .put off bs => putCheck s src off bs.length
  | .ringPost c _ _ => if thas s.hpt.ctxs c then none else some St.TAK_CHECK_FAIL
  | .mapEntry ee _ =>
    if a.obj.kind = kRoute then (if rd s F.GLK_ROUTE_EPOCH_EPOCH = ee then none else some St.TAK_CHECK_FAIL)
    else if epoch s = ee then none else some St.TAK_CHECK_FAIL
  | .redirect ee _ _ =>
    if (tgetD s.tak.redirects (rowKey a.obj) (0, 0)).1 = ee then none else some St.TAK_CHECK_FAIL
  | .check ev =>
    match ev with
    | some v => if objVersion s a.obj = v then none else some St.TAK_CHECK_FAIL
    | none => none
  | .putLease req l =>
    if !thas s.kva.roots req then some St.TAK_CHECK_FAIL
    else if l = 0 ∧ (tget s.trv.trav req).elim false (fun t => t.abandoned) then some St.TRV_ABANDONED else none
  | .putCommitted req _ => if thas s.kva.roots req then none else some St.TAK_CHECK_FAIL
  | .putHome _ _ => none
  | .putEntry _ => none

/-- The PREPARE checks in slate order, a later action seeing the effect of an earlier one (R128): the first that fails. -/
def prepareFail (src : Source) (ref : TakeRef) (nodes : List Nat) (frames : Tbl Nat) :
    State → List (Nat × Action) → Option (Nat × Status)
  | _, [] => none
  | s, (i, a) :: rest =>
    match actionCheck s src frames a with
    | some st => some (i, st)
    | none => prepareFail src ref nodes frames (applyAction s ref nodes frames i a) rest

/-- The map checks of a participant (R394): the keeper judges the map the take would produce, a changed controller its
own role and owned requests. -/
def mapFail (s : State) (acts : List (Nat × Action)) : Option (Nat × Status) :=
  let maps := acts.filterMap (fun p => match p.2.act with
    | .mapEntry _ w => if p.2.obj.kind = kMap then some (p.1, p.2.obj.lo, w) else none
    | _ => none)
  match maps with
  | [] => none
  | m :: _ =>
    let new := maps.foldl (fun d x => mapSet d x.2.1 x.2.2) s.dtm.map
    let keeper := if epoch s = 0 then kKeeper (mapGet new benchmark) else kKeeper (mapGet s.dtm.map benchmark)
    match (if keeper = self s then mapInvalid new else none) with
    | some st => some (m.1, st)
    | none =>
      if roleBusy s acts then
        some ((match maps.find? (fun x => x.2.1 == self s) with | some x => x.1 | none => m.1), St.DTM_ROLE_BUSY)
      else none

/-- What preparing a take at a participant comes to. -/
inductive Prepared where
  | no (action : Nat) (st : Status) (against : Option TakeRef)
  | waits (on : TakeRef)
  | yes (s : State) (frames : Tbl Nat) (intents : Nat)
  deriving DecidableEq, Repr

/-- A wound: the holder, which has not voted yes, is undone and its coordinator told TAK_WOUNDED (R133, R134). -/
def wound (s : State) (by_ h : TakeRef) : State :=
  match partOf s h with
  | none => s
  | some p =>
    send (dropPart s h) h.node 0 .vote
      [mkWord [(0, 24, h.id), (24, 4, p.part), (32, 16, St.TAK_WOUNDED.toNat)],
        BitVec.ofNat 64 p.stamp, mkWord [(0, 20, by_.node), (20, 24, by_.id), (44, 1, 1)]]

/-- Locks, checks and intents of a take at a participant (R133, R138 step 4, R148). -/
def prepare (s : State) (src : Source) (ref : TakeRef) (stamp : Nat) (nodes : List Nat) (acts : List (Nat × Action)) : Prepared :=
  match chooseFrames s acts [] with
  | none => .no (firstAlloc s acts []) St.KVA_POOL_EMPTY none
  | some frames =>
    let want := neededLocks ref acts frames
    match lockOutcome s ref stamp want with
    | .conflict h => .no (conflictAt s acts want h) St.TAK_CONFLICT (some h)
    | .waits h => .waits h
    | lr =>
      let s1 := match lr with
        | .wounds hs => hs.foldl (fun s h => wound s ref h) s
        | _ => s
      let n := sumNat (acts.map (fun p => intentsOf p.2.act))
      if 131072 < intentsUsed s1 + n ∨ 65536 < s1.tak.locks.length + want.length then .no 0 St.TAK_NO_INTENT_SPACE none
      else
        match prepareFail src ref nodes frames s1 acts with
        | some (i, st) => .no i st none
        | none =>
          match mapFail s1 acts with
          | some (i, st) => .no i st none
          | none => .yes { s1 with tak := { s1.tak with locks := s1.tak.locks ++ want } } frames n

/-! ### Local takes (R136, R137) -/

/-- How a local take came out. -/
inductive Local where
  /-- It ended: its status, action and own cause as R131 and R141 give them. -/
  | done (st : Status) (action : Nat) (partStatus : Status)
  /-- It waits for its mirrored intents (R137). -/
  | pending (id : Nat)
  deriving DecidableEq, Repr

/-- The take's status and PART_STATUS for a participant's cause (R141). -/
def statusOf (cause : Status) : Status × Status :=
  if cause = St.TAK_CONFLICT ∨ cause = St.TAK_WOUNDED ∨ cause = St.TAK_CHECK_FAIL then (cause, St.OK)
  else (St.TAK_VOTE_NO, cause)

/-- A take that holds an OWNER, MAP_ENTRY or REDIRECT action mirrors its intents first (R137). -/
def mirrorsFirst (acts : List Action) : Bool :=
  acts.any (fun a => match a.act with
    | .owner _ _ _ _ => true
    | .mapEntry _ _ => true
    | .redirect _ _ _ => true
    | _ => false)

/-- The mirror records of a take's effects at a participant, once applied (R441). -/
def mirrorEffects (s : State) (acts : List (Nat × Action)) : State :=
  acts.foldl (fun s p =>
    match p.2.act with
    | .ptMap _ _ _ _ _ =>
      let k := objPage p.2.obj
      mirrorRec s (.entry (pageOfKey k) (pteWord0 (pteOf s k)) (pteWord1 (pteOf s k)))
    | .putHome r h => mirrorRec s (.home r (some (homeWords r h)))
    | .putEntry _ =>
      let k := objPage p.2.obj
      mirrorRec s (.entry (pageOfKey k) (pteWord0 (pteOf s k)) (pteWord1 (pteOf s k)))
    | .owner _ _ _ _ => mirrorRec s (.home p.2.obj.lo ((tget s.dtm.homes p.2.obj.lo).map (homeWords p.2.obj.lo)))
    | .putLease r _ =>
      match tget s.kva.roots r with
      | some x => mirrorRec s (.root r (rootWords s r x))
      | none => s
    | .putCommitted r _ =>
      match tget s.kva.roots r with
      | some x => mirrorRec s (.root r (rootWords s r x))
      | none => s
    | _ => s) s

/-- A take's actions applied at a participant and mirrored (R128, R441). -/
def commitActs (s : State) (ref : TakeRef) (nodes : List Nat) (frames : Tbl Nat) (acts : List (Nat × Action)) : State :=
  mirrorEffects (applyTake s ref nodes frames acts) acts

/-- The next take ID of this controller (24 bits). -/
def newTakeId (s : State) : State × Nat :=
  ({ s with tak := { s.tak with nextId := (s.tak.nextId + 1) % 2 ^ 24 } }, s.tak.nextId)

/-- Actions numbered from 0. -/
def numbered (acts : List Action) : List (Nat × Action) := acts.zipIdx.map (fun p => (p.2, p.1))

/-- An action's words as R125 lays them out, its data at `off` in the data area. -/
def actionWords (a : Action) (off : Nat) : List Word :=
  let w0 (ty : Nat) := mkWord [(0, 8, ty), (8, 4, a.part), (12, 4, a.obj.kind), (16, 32, a.obj.hi)]
  let lo := BitVec.ofNat 64 a.obj.lo
  match a.act with
  | .ptMap ev f fa nv fl =>
    [w0 1, lo, match fa with
      | some i => mkWord [(0, 16, ev), (16, 1, 1), (32, 6, i)]
      | none => mkWord [(0, 16, ev), (32, 32, f)], mkWord [(0, 16, nv), (16, 16, fl)]]
  | .alloc c => [w0 2, lo, mkWord [(0, 2, 1), (4, 2, c)], 0]
  | .free => [w0 2, lo, mkWord [(0, 2, 2)], 0]
  | .owner ee eg ne ng => [w0 3, lo, mkWord [(0, 32, ee), (32, 16, eg)], mkWord [(0, 32, ne), (32, 16, ng)]]
  | .put o bs => [w0 4, lo, mkWord [(0, 52, o)], mkWord [(0, 32, off), (32, 32, bs.length)]]
  | .ringPost c q _ => [w0 5, lo, mkWord [(0, 12, c), (12, 3, q)], mkWord [(0, 32, off)]]
  | .mapEntry ee e => [w0 6, lo, mkWord [(0, 32, ee)], mkWord [(0, 32, off), (32, 32, 8 * e.length)]]
  | .redirect ee ns _ => [w0 7, lo, mkWord [(0, 2, ee)], mkWord [(0, 2, ns), (32, 32, off)]]
  | .check ev => [w0 8, lo, match ev with
      | some v => mkWord [(0, 32, v), (32, 1, 1)]
      | none => 0, 0]
  | .putLease _ _ => [w0 4, lo, mkWord [(0, 52, 8)], mkWord [(0, 32, off), (32, 32, 8)]]
  | .putHome _ _ => [w0 4, lo, 0, mkWord [(0, 32, off), (32, 32, 64)]]
  | .putEntry _ => [w0 4, lo, mkWord [(0, 52, 8)], mkWord [(0, 32, off), (32, 32, 8)]]
  | .putCommitted _ _ => [w0 4, lo, mkWord [(0, 52, 16)], mkWord [(0, 32, off), (32, 32, 8)]]

/-- An action's data, filled to a multiple of 64 bytes (R124, R127). -/
def actionData (a : Action) : List Byte :=
  let bs := match a.act with
    | .put _ b => b
    | .ringPost _ _ w => wordsBytes w
    | .mapEntry _ e => wordsBytes e
    | .redirect _ _ l => wordBytes l
    | .putLease _ l => natBytes 8 l
    | .putCommitted _ n => natBytes 8 n
    | .putEntry w => wordBytes w
    | .putHome r h => wordsBytes (homeWords r h)
    | _ => []
  bs ++ List.replicate (roundUp bs.length 64 - bs.length) 0

/-- The words of a slate in R124's layout, with the actions and data that `keep` selects; another action keeps its place and
its PART alone. -/
def slateWords (sl : Slate) (keep : Action → Bool) : List Word :=
  let data (a : Action) : List Byte := if keep a then actionData a else []
  let offs := sl.actions.foldl (fun (p : List Nat × Nat) a => (p.1 ++ [p.2], p.2 + (data a).length)) ([], 0)
  let all := sl.actions.flatMap data
  let nd (i : Nat) : Nat := sl.nodes.getD i 0
  [mkWord [(0, 4, 1), (8, 8, sl.actions.length), (16, 4, sl.nodes.length - 1), (20, 4, sl.coord)], at' 0 32 sl.epoch,
    at' 0 17 offs.2, 0, 0, 0, 0, 0] ++
  (List.range 8).map (fun i => mkWord [(0, 20, nd (2 * i)), (32, 20, nd (2 * i + 1))]) ++
  (sl.actions.zipIdx.flatMap (fun p =>
    if keep p.1 then actionWords p.1 (offs.1.getD p.2 0) else [at' 8 4 p.1.part, 0, 0, 0])) ++ bytesWords (all.length / 8) all

/-- A local take that a block builds (R136): checked, locked, applied and released; its effects are mirrored in commit
order by Continuity. A take of R137 waits for its intents to be mirrored, unless the pair is exposed. -/
def runLocal (s : State) (src : Source) (who : TakeFor) (acts : List Action) : State × Local :=
  if 4096 ≤ takesOpen s then (s, .done St.TAK_TOO_MANY_OPEN 0 St.OK)
  else
    let (s1, stamp) := newStamp s
    let (s2, id) := newTakeId s1
    let ref : TakeRef := ⟨self s, id⟩
    let nodes := [self s]
    let na := numbered acts
    match prepare s2 src ref stamp nodes na with
    | .no i cause _ =>
      let st := statusOf cause
      (bump s2 F.TAK_ABORT_CNT_COUNT, .done st.1 i st.2)
    | .waits _ => (bump s2 F.TAK_ABORT_CNT_COUNT, .done St.TAK_CONFLICT 0 St.OK)
    | .yes s3 frames n =>
      if mirrorsFirst acts ∧ exposed s = false then
        let p : PartTake := ⟨stamp, 0, epoch s, src, nodes, na, frames, .prepared, n, []⟩
        let c : CoordTake := ⟨stamp, ⟨nodes, 0, epoch s, acts⟩, who, src, .mirroring, [], St.OK, 0, 0, St.OK, [], 1, 0, false⟩
        let s4 := setPart s3 ref p
        (mirrorRec { s4 with tak := { s4.tak with coord := tset s4.tak.coord id c } }
          (.intent ref stamp 0 (slateWords c.slate (fun _ => true))), .pending id)
      else
        let s4 := commitActs s3 ref nodes frames na
        (bump (dropPart s4 ref) F.TAK_COMMIT_CNT_COUNT, .done St.OK 0 St.OK)

/-- A local take whose failure changes nothing more: the state it leaves. -/
def localTake (s : State) (acts : List Action) : State := (runLocal s .block .plain acts).1

/-- Whether a local take committed. -/
def Local.committed : Local → Bool
  | .done st _ _ => st == St.OK
  | .pending _ => false

/-! ### Two-phase commit: coordinator -/

/-- The actions of participant `p`, with their indexes in the slate. -/
def partActions (sl : Slate) (p : Nat) : List (Nat × Action) := (numbered sl.actions).filter (fun x => x.2.part == p)

/-- A coordinator's record replaced. -/
def setCoord (s : State) (id : Nat) (c : CoordTake) : State := { s with tak := { s.tak with coord := tset s.tak.coord id c } }

/-- A take's end, for whoever asked for it; its coordinator's record goes. -/
def endTake (s : State) (id : Nat) (c : CoordTake) : State :=
  let e : TakeEnd := ⟨c.who, id, c.status, c.badAction, c.badPart, c.partStatus, c.tries, c.ctxDown⟩
  { s with tak := { s.tak with coord := tdel s.tak.coord id, ended := s.tak.ended ++ [e] } }

/-- COMMIT or ABORT sent to every other participant (R138 step 8). -/
def announce (s : State) (id : Nat) (c : CoordTake) : State :=
  let kind := if c.status = St.OK then MsgKind.commit else MsgKind.abort
  sendAll (setCoord s id { c with state := .announced })
    ((c.slate.nodes.filter (· != self s)).map (fun n => (n, kind, [mkWord [(0, 24, id), (24, 20, self s)], BitVec.ofNat 64 c.stamp])))

/-- ENDED notices to the coordinators that wait for a take's locks (R134). -/
def notifyEnded (s : State) (r : TakeRef) (p : PartTake) : State :=
  sendAll s (p.notify.map (fun n => (n.node, .ended, [mkWord [(0, 20, r.node), (20, 24, r.id)], at' 0 24 n.id])))

/-- A participant applies a commit or undoes an abort, releases its locks and tells those that wait (R138 step 9). -/
def finishPart (s : State) (r : TakeRef) (commit : Bool) : State :=
  match partOf s r with
  | none => s
  | some p =>
    let s1 := if commit then commitActs s r p.nodes p.frames p.actions else s
    notifyEnded (dropPart s1 r) r p

/-- The decision takes effect here and is announced (R138 steps 7 and 8); with every acknowledgement in hand the take
ends. -/
def carryOut (s : State) (id : Nat) (c : CoordTake) : State :=
  let commit := decide (c.status = St.OK)
  let s1 := finishPart s ⟨self s, id⟩ commit
  let s2 := bump s1 (if commit then F.TAK_COMMIT_CNT_COUNT else F.TAK_ABORT_CNT_COUNT)
  let s3 := announce s2 id c
  if (c.slate.nodes.filter (· != self s)).isEmpty then endTake s3 id c else s3

/-- A decision (R138 step 7): mirrored to the twin first, unless the pair is exposed (R140). An abort that may be tried
again waits for that (R134). -/
def decide' (s : State) (id : Nat) (c : CoordTake) : State :=
  if exposed s then carryOut s id { c with state := .announced }
  else mirrorRec (setCoord s id { c with state := .decided }) (.decision id c.stamp c.status c.slate.nodes)

/-- A no vote reaches the coordinator (R134, R141). -/
def voteNo (s : State) (id : Nat) (c : CoordTake) (part action : Nat) (cause : Status) (against : Option TakeRef) : State :=
  let st := statusOf cause
  let c1 := { c with status := st.1, badAction := action, badPart := part, partStatus := st.2 }
  if (st.1 = St.TAK_CONFLICT ∨ st.1 = St.TAK_WOUNDED) ∧ 0 < c.retries then
    let s1 := finishPart s ⟨self s, id⟩ false
    let s2 := bump s1 F.TAK_ABORT_CNT_COUNT
    let s3 := announce s2 id c1
    setCoord s3 id { c1 with state := .retrying (against.getD ⟨self s, id⟩) }
  else decide' s id c1

/-- A yes vote reaches the coordinator: with every vote in hand it decides commit. -/
def voteYes (s : State) (id : Nat) (c : CoordTake) (part : Nat) : State :=
  let votes := if c.votes.contains part then c.votes else c.votes ++ [part]
  let c1 := { c with votes := votes }
  if votes.length = c.slate.nodes.length then decide' s id { c1 with status := St.OK } else setCoord s id c1

/-- A participant's vote sent to its coordinator, or taken here where that is this controller (R138 step 6). -/
def sendVote (s : State) (r : TakeRef) (stamp part : Nat) (cause : Status) (action : Nat) (against : Option TakeRef) : State :=
  if r.node = self s then
    match tget s.tak.coord r.id with
    | some c =>
      if c.state ≠ .voting then s
      else if cause = St.OK then voteYes s r.id c part
      else voteNo s r.id c part action cause against
    | none => s
  else
    send s r.node 0 .vote [mkWord [(0, 24, r.id), (24, 4, part), (32, 16, cause.toNat), (48, 6, action)],
      BitVec.ofNat 64 stamp,
      match against with
      | some a => mkWord [(0, 20, a.node), (20, 24, a.id), (44, 1, 1)]
      | none => 0]

/-- A take is marked, at a participant, to be told of when another waits for its end (R134). -/
def addNotify (s : State) (holder waiter : TakeRef) : State :=
  match partOf s holder with
  | some p => setPart s holder { p with notify := p.notify ++ [waiter] }
  | none => s

/-- A take whose epoch this participant accepts is prepared here, and its vote sent unless intents wait for the twin (R138 steps 4 to
6, R149). -/
def prepareHere (s : State) (src : Source) (r : TakeRef) (stamp part : Nat) (sl : Slate) : State :=
  let acts := partActions sl part
  if 4096 ≤ takesOpen s then sendVote s r stamp part St.TAK_TOO_MANY_OPEN 0 none
  else
    match prepare s src r stamp sl.nodes acts with
    | .no i st against =>
      let s1 := match against with
        | some h => addNotify s h r
        | none => s
      sendVote s1 r stamp part st i against
    | .waits h => setPart s r ⟨stamp, part, sl.epoch, src, sl.nodes, acts, [], .waiting h, 0, []⟩
    | .yes s1 frames n =>
      let p : PartTake := ⟨stamp, part, sl.epoch, src, sl.nodes, acts, frames, .mirroring, n, []⟩
      if exposed s then
        sendVote (bump (setPart s1 r { p with state := .prepared }) F.TAK_EXPOSED_CNT_COUNT) r stamp part St.OK 0 none
      else mirrorRec (setPart s1 r p) (.intent r stamp part (slateWords sl (fun a => a.part == part)))

/-- A participant handles a PREPARE (R138 steps 3 to 6, R140–R142): epoch, locks, checks, intents, their mirror, vote. -/
def handlePrepare (s : State) (src : Source) (r : TakeRef) (stamp part : Nat) (sl : Slate) : State :=
  (epochRule s sl.epoch).elim (prepareHere s src r stamp part sl) (fun st =>
    sendVote (if st = St.DTM_STALE_MAP then bump s F.DTM_STALE_CNT_COUNT else s) r stamp part st 0 none)

/-- Takes that waited here for one that ended: each prepares again (R133). -/
def wakeWaiters (s : State) (ended : TakeRef) : State :=
  (s.tak.part.filter (fun p => p.2.state == .waiting ended)).foldl (fun s p =>
    let q := p.2
    let sl : Slate := ⟨q.nodes, 0, q.epoch, q.actions.map (fun a => a.2)⟩
    match prepare (dropPart s p.1) q.src p.1 q.stamp q.nodes q.actions with
    | .no i st against => sendVote (dropPart s p.1) p.1 q.stamp q.part st i against
    | .waits h => setPart s p.1 { q with state := .waiting h }
    | .yes s1 frames n =>
      let q' := { q with frames := frames, intents := n, state := PartState.mirroring }
      if exposed s then
        sendVote (bump (setPart s1 p.1 { q' with state := .prepared }) F.TAK_EXPOSED_CNT_COUNT) p.1 q.stamp q.part St.OK 0 none
      else mirrorRec (setPart s1 p.1 q') (.intent p.1 q.stamp q.part (slateWords sl (fun _ => true)))) s

/-- Where TAKE_SUBMIT brought the slate, for R551: the submitting node and its number for the slate. -/
def hostWord (s : State) (who : TakeFor) (src : Source) : Word :=
  match src, who with
  | .hostHere _ _, _ => mkWord [(0, 1, 1), (1, 20, self s)]
  | .hostAt node, .forwarded _ key => mkWord [(0, 1, 1), (1, 20, node), (32, 32, key)]
  | .hostAt node, _ => mkWord [(0, 1, 1), (1, 20, node)]
  | .block, _ => 0

/-- A take begins at its coordinator (R138 steps 1 and 2): ID, PREPARE to every participant, itself included. -/
def beginTake (s : State) (stamp : Nat) (sl : Slate) (who : TakeFor) (src : Source) (tries retries : Nat) : State :=
  let s1 := (newTakeId s).1
  let id := (newTakeId s).2
  let c : CoordTake := ⟨stamp, sl, who, src, .voting, [], St.OK, 0, 0, St.OK, [], tries, retries, false⟩
  let s2 := setCoord s1 id c
  let s3 := sendAll s2 (((sl.nodes.zipIdx).filter (fun p => p.1 != self s)).map (fun p =>
    (p.1, .prepare, [mkWord [(0, 24, id), (24, 4, p.2)], BitVec.ofNat 64 stamp, hostWord s who src] ++ slateWords sl (fun a => a.part == p.2))))
  match sl.nodes.findIdx? (· == self s) with
  | some p => handlePrepare s3 src ⟨self s, id⟩ stamp p sl
  | none => s3

/-- A take that a block asks this controller to coordinate: local where it is its only participant. -/
def startTake (s : State) (sl : Slate) (who : TakeFor) (src : Source) (retries : Nat) : State :=
  if 4096 ≤ takesOpen s then
    { s with tak := { s.tak with ended := s.tak.ended ++ [⟨who, 0, St.TAK_TOO_MANY_OPEN, 0, 0, St.OK, 1, false⟩] } }
  else
    let (s1, stamp) := newStamp s
    beginTake s1 stamp sl who src 1 retries

/-- A block's local take that reports its end through the list of ended takes. -/
def localFor (s : State) (src : Source) (who : TakeFor) (acts : List Action) : State :=
  match runLocal s src who acts with
  | (s1, .pending _) => s1
  | (s1, .done st i ps) =>
    { s1 with tak := { s1.tak with ended := s1.tak.ended ++ [⟨who, s.tak.nextId, st, i, 0, ps, 1, false⟩] } }

end Sys2Proof.Machine
end

