-- ==== Sys2Proof/Machine/Hpt.lean ====
section
/-! DEFINITION. Host port: link, set-up, doorbells, queues and failed host accesses (R56–R70, R78, R91). -/

namespace Sys2Proof.Machine

open Sys2Proof

/-! ### Link -/

/-- The UCIe options that the port supports (R56). -/
def ucieSupported : UcieOption → Bool
  | .advancedX64 | .rate32 | .lowerRates | .laneRepair | .moduleDegrade | .sideband => true
  | .standardPackage | .ucie3d | .retimers | .rawProtocol => false

/-- The reset signals hold the part (R531, R534). -/
def inReset (s : State) : Bool := s.clk.crstLow || s.clk.porstLow || s.clk.railsBad

/-- Link training (R56): options that are not supported are declined, the link state is set, and STAGE becomes WAIT when
the ROM trained the link (R482 step 2). A port whose last module failed stays down (R58). -/
def ucieLinkTraining (s : State) (offer : List UcieOption) (modUp rateGt repairs : Nat) : State :=
  if inReset s || s.hpt.portDown || modUp % 16 == 0 then s
  else
    let s1 := { s with hpt := { s.hpt with trained := true } }
    let s2 := wr (wr s1 F.HPT_LINK_STAT_MOD_UP modUp) F.HPT_LINK_STAT_RATE_GT rateGt
    let s3 := addSat s2 F.HPT_LINK_STAT_REPAIR_CNT 0 repairs
    let s4 := if rd s3 F.SEC_BOOT_STAT_STAGE = 0 then wr s3 F.SEC_BOOT_STAT_STAGE 1 else s3
    emit s4 (.ucieTrained (offer.filter (fun o => !ucieSupported o)))

/-- A UCIe module fails beyond repair (R58): the port goes on with the others, or is down and every context faults. -/
def ucieModuleFail (s : State) (m : Nat) : State :=
  let up := rd s F.HPT_LINK_STAT_MOD_UP
  if 4 ≤ m ∨ up.testBit m = false then s
  else
    let s1 := wr s F.HPT_LINK_STAT_MOD_UP (up - 2 ^ m)
    if up - 2 ^ m ≠ 0 then openEvent s1 .linkChange St.HPT_LINK_DEGRADED ⟨7, m⟩ 0 0
    else
      let s2 := { s1 with hpt := { s1.hpt with portDown := true } }
      (tkeys s2.hpt.ctxs).foldl (fun s c => faultCtx s c St.HPT_LINK_DOWN) s2

/-! ### Set-up -/

/-- A context command is in progress. -/
def ctxBusy (s : State) : Bool := rd s F.HPT_CTX_STAT_BUSY == 1

/-- The end of a context command with its status (R60). -/
def ctxCmdEnd (s : State) (st : Status) : State :=
  wr (wr { s with hpt := { s.hpt with cmd := none } } F.HPT_CTX_STAT_BUSY 0) F.HPT_CTX_STAT_STATUS st.toNat

/-- A context command begins: BUSY, or LOST when one is in progress (R60). -/
def ctxCmdBegin (s : State) (c : CtxCmd) (f : State → State) : State :=
  if ctxBusy s then wr s F.HPT_CTX_STAT_LOST 1
  else f (wr { s with hpt := { s.hpt with cmd := some c } } F.HPT_CTX_STAT_BUSY 1)

/-- CTX_ENABLE (R62): the reads of the entry and the doorbell line start; an enabled context answers HPT_CTX_BUSY. -/
def ctxEnable (s : State) (ctx : Nat) : State :=
  bar0 s (fun s => ctxCmdBegin s ⟨true, ctx⟩ (fun s1 =>
    if thas s1.hpt.ctxs ctx then ctxCmdEnd s1 St.HPT_CTX_BUSY
    else emit s1 (.hostRead .enable (rd s1 F.HPT_CTX_TABLE_BASE * 2 ^ 20 + 256 * ctx) 256)))

/-- A context-table entry read out of its 32 words (R61). -/
def entryRead (ws : List Word) : CtxEntry :=
  let w := wordAt ws
  { tenant := bits (w 0) 9 0
    dbAddr := (w 1).toNat
    rheadAddr := (w 2).toNat
    cqheadAddr := (w 3).toNat
    rings := (List.range (bits (w 0) 19 16)).map (fun i => ⟨bits (w (4 + i)) 63 12 * 4096, bits (w (4 + i)) 7 5, bits (w (4 + i)) 4 0⟩)
    cqs := (List.range (bits (w 0) 23 20)).map (fun j =>
      let v := fld (w (20 + j / 4)) (16 * (j % 4)) 16
      ⟨bits (w (12 + j)) 63 12 * 4096, bits (w (12 + j)) 4 0, v % 2048, v.testBit 15⟩) }

/-- Whether a field of a context-table entry breaks R61, or a RING_CQ names a queue at or above NCQ (R62). -/
def entryBad (ws : List Word) : Bool :=
  let w := wordAt ws
  let nr := bits (w 0) 19 16
  let nq := bits (w 0) 23 20
  bits (w 0) 15 10 != 0 || bits (w 0) 63 24 != 0 || nr == 0 || decide (8 < nr) || nq == 0 || decide (8 < nq)
    || (w 1).toNat % 64 != 0 || (w 2).toNat % 64 != 0 || (w 3).toNat % 64 != 0
    || (List.range nr).any (fun i => bits (w (4 + i)) 11 8 != 0 || decide (nq ≤ bits (w (4 + i)) 7 5)
        || decide (bits (w (4 + i)) 4 0 < 4) || decide (16 < bits (w (4 + i)) 4 0))
    || (List.range nq).any (fun j => bits (w (12 + j)) 11 5 != 0 || decide (bits (w (12 + j)) 4 0 < 4)
        || decide (20 < bits (w (12 + j)) 4 0) || bits (w (20 + j / 4)) (16 * (j % 4) + 14) (16 * (j % 4) + 11) != 0)
    || (List.range 10).any (fun i => w (22 + i) != 0)

/-- Whether an address of an entry lies outside the host windows granted to the context, or its binding does not fit
(R62, R489). -/
def entryProt (s : State) (ctx : Nat) (e : CtxEntry) : Bool :=
  binding s ctx != some e.tenant
    || !accessOk s ctx e.tenant false false e.dbAddr 64
    || !accessOk s ctx e.tenant false true e.rheadAddr 64
    || !accessOk s ctx e.tenant false false e.cqheadAddr 64
    || e.rings.any (fun r => !accessOk s ctx e.tenant false false r.base (64 * 2 ^ r.log2))
    || e.cqs.any (fun q => !accessOk s ctx e.tenant false true q.base (32 * 2 ^ q.log2))

/-- A ring whose TAIL is out of order faults its context (R69): the status of the first such ring. -/
def lineFault (x : Ctx) (line : List Word) : Option Status :=
  (List.range x.rings.length).findSome? (fun i =>
    let w := wordAt line i
    let r := x.rings.getD i ⟨0, 0, []⟩
    let c := x.entry.rings.getD i ⟨0, 0, 0⟩
    if bits w 63 32 ≠ 0 then some St.HPT_BAD_DOORBELL
    else if 2 ^ c.log2 < (2 ^ 32 + bits w 31 0 - r.fetched) % 2 ^ 32 then some St.HPT_RING_OVERRUN
    else none)

/-- The reads of the descriptors at counts `from` to `from + n - 1` of a ring (R64, R66). -/
def descReads (c base log2 first n : Nat) : List Output :=
  (List.range n).map (fun j => .hostRead (.context c) (base + 64 * ((first + j) % 2 ^ log2)) 64)

/-- A doorbell line's data (R66): the watch is armed again, and the rings whose TAIL advanced fetch up to it. -/
def seeLine (s : State) (c : Nat) (line : List Word) : State :=
  match tget s.hpt.ctxs c with
  | none => s
  | some x =>
    match lineFault x line with
    | some st => faultCtx (setCtx s c { x with armed := true, pending := false }) c st
    | none =>
      let tail (i : Nat) : Nat := bits (wordAt line i) 31 0
      let rs := x.rings.zipIdx.map (fun p => { p.1 with tail := tail p.2 })
      emits (setCtx s c { x with rings := rs, armed := true, pending := false })
        (x.rings.zipIdx.flatMap (fun p =>
          let cfg := x.entry.rings.getD p.2 ⟨0, 0, 0⟩
          descReads c cfg.base cfg.log2 p.1.tail ((2 ^ 32 + tail p.2 - p.1.tail) % 2 ^ 32)))

/-- A newly enabled context: every count zero, its semaphores zero (R62, R107). -/
def newCtx (e : CtxEntry) : Ctx :=
  { entry := e, rings := e.rings.map (fun _ => ⟨0, 0, []⟩), cqs := e.cqs.map (fun _ => ⟨0, 0, false, []⟩),
    armed := false, pending := false, down := none }

/-- CTX_ENABLE_READ_DONE (R62): the entry is checked; on success the context is enabled and the doorbell line seen. -/
def ctxEnableReadDone (s : State) (entry line : List Word) : State :=
  match s.hpt.cmd with
  | some ⟨true, ctx⟩ =>
    let e := entryRead entry
    if entryBad entry then ctxCmdEnd s St.HPT_BAD_FIELD
    else if entryProt s ctx e then ctxCmdEnd s St.HPT_PROT
    else
      let s1 := emit (setCtx s ctx (newCtx e)) (.hostRead .enable e.dbAddr 64)
      let s2 := { s1 with sch := { s1.sch with sems := tkeep (fun h _ => h / 16 != ctx) s1.sch.sems } }
      seeLine (ctxCmdEnd s2 St.OK) ctx line
  | _ => s

/-- CTX_DISABLE (R63): the rings stop and teardown begins, with no event; a context that is not enabled answers
HPT_CTX_DISABLED. A context that is being torn down answers at the teardown's end (R120). -/
def ctxDisable (s : State) (ctx : Nat) : State :=
  bar0 s (fun s => ctxCmdBegin s ⟨false, ctx⟩ (fun s1 =>
    match tget s1.hpt.ctxs ctx with
    | none => ctxCmdEnd s1 St.HPT_CTX_DISABLED
    | some x => if x.down.isSome then s1 else setCtx s1 ctx { x with down := some ⟨St.OK, false, false, 0, 0⟩ }))

/-- EVQ_CFG_WRITE (R60): EN takes LOG2SIZE and VECTOR of the same write and restarts SEQ; while EN stays 1 neither
changes. -/
def evqCfgWrite (s : State) (w : Word) : State :=
  bar0 s (fun s =>
    let log2 := bits w 4 0
    if bit w 63 then
      if rd s F.HPT_EVQ_CFG_EN = 1 then s
      else
        let s1 := wr (wr s F.HPT_EVQ_CFG_LOG2SIZE log2) F.HPT_EVQ_CFG_VECTOR (bits w 42 32)
        if 6 ≤ log2 ∧ log2 ≤ 16 then
          wr { s1 with hpt := { s1.hpt with evProd := 0 } } F.HPT_EVQ_CFG_EN 1
        else s1
    else
      wr (wr (wr s F.HPT_EVQ_CFG_EN 0) F.HPT_EVQ_CFG_LOG2SIZE log2) F.HPT_EVQ_CFG_VECTOR (bits w 42 32))

/-- Whether an HDM window of these sizes is good: 1 to 512 GiB, and below MEM_TOP (R60). -/
def hdmOk (s : State) (size base : Nat) : Bool :=
  decide (1 ≤ size) && decide (size ≤ 512) && decide (base * 2 ^ 30 + size * 2 ^ 30 ≤ memTop s)

/-- HPT_HDM_CFG written by boot code (R60): EN stays 0 when the window is not good. -/
def placeHdm (s : State) (en : Bool) (size base : Nat) : State :=
  wr (wr (wr s F.HPT_HDM_CFG_SIZE_GIB size) F.HPT_HDM_CFG_BASE_GIB base) F.HPT_HDM_CFG_EN
    (if en && hdmOk s size base then 1 else 0)

/-- HDM_CFG_WRITE (R60, R494): a boot-writable register; after the lock the write is ignored and logged. -/
def hdmCfgWrite (s : State) (w : Word) : State :=
  if rd s F.SEC_PROT_LOCK_LOCK = 1 then lockedWrite s else placeHdm s (bit w 63) (bits w 49 40) (bits w 39 30)

/-! ### Doorbells and queue heads -/

/-- A shared re-read of a context's doorbell line (R66). -/
def rereadLine (s : State) (c : Nat) (x : Ctx) : State :=
  emit (setCtx s c { x with armed := false, pending := true }) (.hostRead (.context c) x.entry.dbAddr 64)

/-- DOORBELL_SNOOP (R66): the snoop is answered, the context marked pending and the line re-read. -/
def doorbellSnoop (s : State) (ctx : Nat) : State :=
  whenUp s (fun s =>
    match tget s.hpt.ctxs ctx with
    | none => s
    | some x => if x.armed && x.down.isNone then rereadLine (emit s (.snoopAnswer ctx)) ctx x else s)

/-- DOORBELL_POLL (R68): every enabled context's doorbell line is re-read. -/
def doorbellPoll (s : State) : State :=
  whenUp s (fun s =>
    if rd s F.HPT_DB_POLL_PERIOD_US = 0 then s
    else s.hpt.ctxs.foldl (fun s e => if e.2.down.isNone then rereadLine s e.1 e.2 else s) s)

/-- DOORBELL_LINE_DATA (R66). -/
def doorbellLineData (s : State) (ctx : Nat) (line : List Word) : State :=
  whenUp s (fun s =>
    match tget s.hpt.ctxs ctx with
    | none => s
    | some x => if x.pending && x.down.isNone then seeLine s ctx line else s)

/-- Delayed records of a queue written while it has space (R78); `n` bounds the records. -/
def drainQueue : Nat → State → Nat → Nat → State
  | 0, s, _, _ => s
  | n + 1, s, c, q =>
    match tget s.hpt.ctxs c with
    | none => s
    | some x =>
      match x.entry.cqs[q]?, x.cqs[q]? with
      | some cfg, some cq =>
        match cq.delayed with
        | [] => setCtx s c { x with cqs := x.cqs.set q { cq with watch := false } }
        | r :: rest =>
          if cqFull cfg cq || s.hpt.portDown then s
          else drainQueue n (putRecord s c q x cfg { cq with delayed := rest } r) c q
      | _, _ => s

/-- Whether some record of a request waits for space in a queue (R78). -/
def recordDelayed (s : State) (req : Nat) : Bool :=
  s.hpt.ctxs.any (fun e => e.2.cqs.any (fun q => q.delayed.any (fun r => r.req == req && r.req != 0)))

/-- CQ_HEAD_SNOOP (R78): consumed counts are read, delayed records written, and their requests held no longer. -/
def cqHeadSnoop (s : State) (ctx : Nat) (line : List Word) : State :=
  whenUp s (fun s =>
    match tget s.hpt.ctxs ctx with
    | none => s
    | some x =>
      if !x.cqs.any (fun q => q.watch) then s
      else
        let qs := x.cqs.zipIdx.map (fun p => if p.1.watch then { p.1 with cons := bits (wordAt line p.2) 31 0 } else p.1)
        let s1 := setCtx s ctx { x with cqs := qs }
        let s2 := (List.range qs.length).foldl (fun s q =>
          if ((qs.getD q ⟨0, 0, false, []⟩).watch) then drainQueue ((qs.getD q ⟨0, 0, false, []⟩).delayed.length + 1) s ctx q else s) s1
        { s2 with sch := { s2.sch with reqs := tmap (fun r y => { y with delayed := recordDelayed s2 r && y.delayed }) s2.sch.reqs } })

/-! ### Failed host accesses -/

/-- A host-memory access that failed (R62, R91): none of its data is used. -/
def hostAccessFail (s : State) (a : HostAccess) (st : Status) : State :=
  match a with
  | .enable =>
    match s.hpt.cmd with
    | some ⟨true, ctx⟩ => openEvent (ctxCmdEnd s st) .error st ⟨9, ctx⟩ 0 ctx
    | _ => s
  | .context c => faultCtx s c st
  | .shared fl =>
    match fl.bind (fun id => (tget s.hpt.flight id).map (fun f => (id, f))) with
    | some (id, f) => completeSt (openEvent s .error st ⟨9, f.key.ctx⟩ f.req f.key.ctx) id st
    | none => openEvent s .error st noUnit 0 0
  | .mover _ => s

/-- HOST_ACCESS_TIMEOUT (R91). -/
def hostAccessTimeout (s : State) (a : HostAccess) : State := whenUp s (fun s => hostAccessFail s a St.HPT_HOST_TIMEOUT)

/-- HOST_DATA_ERROR (R91). -/
def hostDataError (s : State) (a : HostAccess) : State := whenUp s (fun s => hostAccessFail s a St.HPT_HOST_DATA_ERR)

/-! ### NOP and reserved opcodes -/

/-- The payload words of a descriptor (R71). -/
def payloadOffs : List Nat := [0x10, 0x18, 0x20, 0x28, 0x30, 0x38]

/-- A meaning that belongs to descriptors of one form: another descriptor is not this command's. -/
def ofForm (b : Bool) (s t : State) : State := if b then t else s

/-- NOP (R72): its payload is reserved. -/
def nop (s : State) (k : RingKey) (d : Desc) : State :=
  ofForm (dOpcode d == 0) s
    (runDesc s k d (resvWords d payloadOffs) (fun _ _ => []) (fun s _ id => completeOk s id))

/-- A reserved opcode (R72, R73): rejected with HPT_BAD_OPCODE, or with HPT_BAD_VERSION first. -/
def reservedOpcode (s : State) (k : RingKey) (d : Desc) : State :=
  ofForm (!knownOpcode (dOpcode d)) s (runDesc s k d [] (fun _ _ => []) (fun s _ _ => s))

end Sys2Proof.Machine
end

