-- ==== Sys2Proof/Machine/Units.lean ====
section
/-! DEFINITION. Ready and running units of the matrix engine, their rank, and semaphores (R102–R110). -/

namespace Sys2Proof.Machine

open Sys2Proof

/-! ### Rank of units (R102, R110) -/

/-- Whether class and PRIO (c1, p1) rank above (c2, p2): lower class, then higher PRIO. -/
def ranksAbove (c1 p1 c2 p2 : Nat) : Bool := decide (c1 < c2) || (c1 == c2 && decide (p2 < p1))

/-- The better of two (class, PRIO) pairs. -/
def bestRank (a b : Nat × Nat) : Nat × Nat := if ranksAbove b.1 b.2 a.1 a.2 then b else a

/-- What a context has been lent (R110). -/
def lent (s : State) (c : Nat) : List (Nat × Nat) :=
  (s.sch.inherit.filter (fun e => e.1 / 16 == c)).map (fun e => (e.2.cls, e.2.prio))

/-- Class and PRIO of a unit, with what its context has been lent. -/
def unitRank (s : State) (u : MxeUnit) : Nat × Nat :=
  match u.prio with
  | some p => (u.cls, p)
  | none => (lent s u.ctx).foldl bestRank (u.cls, ctxPrio s u.ctx)

/-- Whether a unit starts before another: class, then PRIO, then the oldest dispatch (R102). -/
def unitBefore (s : State) (u v : MxeUnit) : Bool :=
  let a := unitRank s u
  let b := unitRank s v
  ranksAbove a.1 a.2 b.1 b.2 || (a == b && decide (u.seq < v.seq))

/-- The highest-ranking ready unit. -/
def bestUnit (s : State) : List MxeUnit → Option MxeUnit
  | [] => none
  | u :: us =>
    match bestUnit s us with
    | none => some u
    | some v => if unitBefore s v u then some v else some u

/-- The highest-ranking ready unit starts when none runs (R102, R103). -/
def startUnit (s : State) : State :=
  match s.sch.running with
  | some _ => s
  | none =>
    match bestUnit s s.sch.units with
    | none => s
    | some u => { s with sch := { s.sch with running := some u, units := s.sch.units.erase u } }

/-- Work becomes ready: its first unit, with `left` more to follow. -/
def addUnit (s : State) (cls ctx : Nat) (prio : Option Nat) (kind : UnitKind) (left : Nat) : State :=
  let u : MxeUnit := ⟨cls, ctx, prio, s.sch.unitSeq, kind, left⟩
  startUnit { s with sch := { s.sch with units := s.sch.units ++ [u], unitSeq := s.sch.unitSeq + 1 } }

/-! ### Semaphores (R107–R110) -/

/-- The count of a semaphore; an unlisted one is zero. -/
def semCount (s : State) (h : Nat) : Nat := tgetD s.sch.sems h 0

/-- The count of a semaphore replaced; a zero count is not listed. -/
def setSem (s : State) (h v : Nat) : State :=
  { s with sch := { s.sch with sems := if v = 0 then tdel s.sch.sems h else tset s.sch.sems h v } }

/-- A waiter removed. -/
def dropWaiter (s : State) (w : Waiter) : State := { s with sch := { s.sch with waiters := s.sch.waiters.erase w } }

/-- Waits on a semaphore served in arrival order while the count suffices (R109); `n` bounds them. -/
def serveSem : Nat → State → Nat → State
  | 0, s, _ => s
  | n + 1, s, h =>
    match s.sch.waiters.find? (fun w => w.sem == h) with
    | none => s
    | some w =>
      if w.need ≤ semCount s h then
        serveSem n (completeOk (dropWaiter (setSem s h (semCount s h - w.need)) w) w.flight) h
      else s

/-- All waits on a semaphore that the count now suffices for. -/
def serveAll (s : State) (h : Nat) : State := serveSem s.sch.waiters.length s h

/-- The class of a context's work: the best among its ready and running units, else that of plain context work. -/
def ctxClass (s : State) (c : Nat) : Nat :=
  ((s.sch.units ++ s.sch.running.toList).filter (fun u => u.ctx == c && u.prio.isNone)).foldl (fun a u => min a u.cls) 2

/-- Class and PRIO of a context. -/
def ctxRank (s : State) (c : Nat) : Nat × Nat := (lent s c).foldl bestRank (ctxClass s c, ctxPrio s c)

/-- A blocked waiter that ranks above the owner lends it its class and PRIO, which it does not pass on (R110). -/
def lendTo (s : State) (h waiter : Nat) : State :=
  let w := (ctxClass s waiter, ctxPrio s waiter)
  let o := ctxRank s (h / 16)
  if ranksAbove w.1 w.2 o.1 o.2 then
    bump { s with sch := { s.sch with inherit := tset s.sch.inherit h ⟨w.1, w.2⟩ } } F.SCH_INHERIT_CNT_COUNT
  else s

/-- SEM of a semaphore descriptor (R108, R109). -/
def semHandle (d : Desc) : Nat := dfld d 0x10 15 0

/-- Failing payload bytes of a SEM_SIGNAL (R108). -/
def signalBytes (d : Desc) : List Nat :=
  badAt (decide (2 ≤ dfld d 0x10 17 16)) 0x10 16 ++ resv d 0x10 31 18 ++ resvWords d [0x18, 0x20, 0x28, 0x30, 0x38] ++
    badAt (dfld d 0x10 17 16 == 0 && dfld d 0x10 63 32 == 0) 0x10 32

/-- A SEM_SIGNAL that leaves the count `v`: lent rank ends, waits are served, and DETAIL holds the count that stands
then (R108–R110). -/
def signalTo (s : State) (id h v : Nat) : State :=
  let s1 := { s with sch := { s.sch with inherit := tdel s.sch.inherit h } }
  let s2 := serveAll (setSem s1 h v) h
  completeWith s2 id St.OK (at' 0 32 (semCount s2 h))

/-- The checks of a SEM_SIGNAL after its fields (R108). -/
def signalChecks (d : Desc) (_ : State) (k : DescKey) : List Check := [chk (semHandle d / 16 != k.ctx) St.SCH_SEM_PROT 0x10]

/-- SEM_SIGNAL_ADD (R108): a reserved MODE is rejected with the same check. -/
def semSignalAdd (s : State) (k : RingKey) (d : Desc) : State :=
  ofForm (dOpcode d == 0x50 && dfld d 0x10 17 16 != 1) s
    (runDesc s k d (signalBytes d) (signalChecks d) (fun s _ id =>
      let h := semHandle d
      let v := semCount s h + dfld d 0x10 63 32
      if 2 ^ 32 ≤ v then
        completeSt { s with sch := { s.sch with inherit := tdel s.sch.inherit h } } id St.SCH_SEM_OVERFLOW
      else signalTo s id h v))

/-- SEM_SIGNAL_SET (R108). -/
def semSignalSet (s : State) (k : RingKey) (d : Desc) : State :=
  ofForm (dOpcode d == 0x50 && dfld d 0x10 17 16 == 1) s
    (runDesc s k d (signalBytes d) (signalChecks d) (fun s _ id => signalTo s id (semHandle d) (dfld d 0x10 63 32)))

/-- A SEM_WAIT passes the protection check when the owner context is enabled and of the same tenant (R109). -/
def waitProt (s : State) (d : Desc) (k : DescKey) : Bool :=
  match tget s.hpt.ctxs (semHandle d / 16) with
  | none => true
  | some x => x.entry.tenant != ctxTenant s k.ctx

/-- SEM_WAIT (R109). -/
def semWait (s : State) (k : RingKey) (d : Desc) : State :=
  ofForm (dOpcode d == 0x51) s
    (runDesc s k d
      (resv d 0x10 31 16 ++ badAt (dfld d 0x10 63 32 == 0) 0x10 32 ++ resv d 0x18 63 32 ++ resvWords d [0x20, 0x28, 0x30, 0x38])
      (fun s k => [chk (waitProt s d k) St.SCH_SEM_PROT 0x10])
      (fun s k id =>
        let h := semHandle d
        let need := dfld d 0x10 63 32
        if !s.sch.waiters.any (fun w => w.sem == h) && decide (need ≤ semCount s h) then
          completeOk (setSem s h (semCount s h - need)) id
        else
          let w : Waiter := ⟨h, id, k.ctx, k.ring, need, dfld d 0x18 31 0 != 0⟩
          lendTo { s with sch := { s.sch with waiters := s.sch.waiters ++ [w] } } h k.ctx))

/-- SEM_WAIT_TIMEOUT (R109): the wait completes with SCH_SEM_TIMEOUT, and waits behind it may now fit. -/
def semWaitTimeout (s : State) (k : DescKey) : State :=
  whenUp s (fun s =>
    match s.sch.waiters.find? (fun w => w.flight == flightId k && w.limited) with
    | none => s
    | some w => serveAll (completeSt (dropWaiter s w) w.flight St.SCH_SEM_TIMEOUT) w.sem)

end Sys2Proof.Machine
end

