-- ==== Sys2Proof/Machine/Model.lean ====
section
/-! DEFINITION. Models as attention binds them: profiles, mapping, page places, and what a controller asks a home
(R203–R205, R230–R232, R406, R412). -/

namespace Sys2Proof.Machine

open Sys2Proof

/-! ### Profiles and bindings (R232) -/

/-- The enabled binding that names a model. -/
def bindOf (s : State) (m : Nat) : Option Nat :=
  firstFree 16 (fun j => rdi s F.ATT_BIND_EN j == 1 && rdi s F.ATT_BIND_MODEL j == m)

/-- The profile of a layer in a binding: byte `layer mod 8` of its map word. -/
def profOf (s : State) (j layer : Nat) : Nat := fld (s.reg (0x92000 + 256 * j + 8 * (layer / 8))) (8 * (layer % 8)) 6

/-- Layers of a binding. -/
def layersOf (s : State) (j : Nat) : Nat := rdi s F.ATT_BIND_NLAYERS_M1 j + 1

/-- D of a profile: 64, 128 or 256. -/
def profDim (s : State) (p : Nat) : Nat := 64 <<< rdi s F.ATT_PROF_W0_DIM p

/-- D of a model: the DIM of its profiles; 0 where no binding names it. -/
def modelDim (s : State) (m : Nat) : Nat := match bindOf s m with | some j => profDim s (profOf s j 0) | none => 0

/-- Layers of a model. -/
def modelLayers (s : State) (m : Nat) : Nat := match bindOf s m with | some j => layersOf s j | none => 0

/-- Vocabulary size of a model (R259). -/
def modelVocab (s : State) (m : Nat) : Nat := match bindOf s m with | some j => rdi s F.SMP_VOCAB_V j | none => 0

/-- Whether a model has a layer under PREFIX (R236). -/
def modelPrefix (s : State) (m : Nat) : Bool :=
  match bindOf s m with
  | some j => (List.range (layersOf s j)).any (fun l => rdi s F.ATT_PROF_W0_MASK (profOf s j l) == 2)
  | none => false

/-- Whether a model is loaded (R155). -/
def modelLoaded (s : State) (m : Nat) : Bool := thas s.mxe.models m

/-! ### Mapping (R230, R231) -/

/-- H of the own group. -/
def kvHeads (s : State) : Nat := eKvhM1 (ownEntry s) + 1
/-- G of the own group. -/
def kvGroup (s : State) : Nat := 2 ^ eGroupLog2 (ownEntry s)
/-- N of the own group. -/
def groupSize (s : State) : Nat := eGsizeM1 (ownEntry s) + 1
/-- Own mapping slot. -/
def ownSlot (s : State) : Nat := eSlot (ownEntry s)
/-- S: slots that share one KV head. -/
def shareOf (n h : Nat) : Nat := if h ≤ n then n / h else 1
/-- The slot that holds page `i` of KV head `head`, for a group of `n` with `h` heads. -/
def pageSlot (n h head i : Nat) : Nat := if h ≤ n then head * shareOf n h + i % shareOf n h else head * n / h
/-- The slot that computes the queries of query head `q`. -/
def querySlot (n h g q : Nat) : Nat := if h ≤ n then q / max 1 (h * g / n) else (q / g) * n / h
/-- Whether this controller holds page `i` of a head under its group's mapping. -/
def holdsPage (s : State) (head i : Nat) : Bool := pageSlot (groupSize s) (kvHeads s) head i == ownSlot s
/-- The group that owns a request, as this controller knows it. -/
def groupOf (s : State) (req : Nat) : Nat := (tget s.sch.reqs req).elim (ownGroup s) (fun r => r.group)
/-- The member of a group in a slot: the SERVING one, else its twin. -/
def memberIn (s : State) (g slot : Nat) : Option Nat :=
  match slotNode s.dtm.map g slot with
  | some n => some (if actsAs s n then self s else n)
  | none => (((members s.dtm.map g).find? (fun p => eSlot p.2 == slot))).map (fun p => eTwin p.2)
/-- The member that computes a slot for a request. -/
def memberAt (s : State) (req slot : Nat) : Option Nat := memberIn s (groupOf s req) slot
/-- The controllers that serve a group, one node for each slot. -/
def servers (s : State) (g : Nat) : List Nat := ((List.range (groupSize s)).filterMap (memberIn s g)).dedup
/-- Whether this controller leads the group that owns a request (R94). -/
def leadsFor (s : State) (req : Nat) : Bool := leads s (groupOf s req)
/-- The nodes of the own group, by rising node ID. -/
def groupNodes (s : State) : List Nat := (members s.dtm.map (ownGroup s)).map (fun p => p.1)

/-! ### Page places (R203–R205) -/

/-- The page class of a head dimension and format; none for KV4 at D = 256 (R203). -/
def pageClass (dim : Nat) (kv4 : Bool) : Option Nat :=
  if dim = 64 then some (if kv4 then 0 else 1)
  else if dim = 128 then some (if kv4 then 1 else 2)
  else if dim = 256 then (if kv4 then none else some 3)
  else none

/-- The local offset of a frame (R205). -/
def frameAddr (s : State) (f : Nat) : Nat :=
  rdi s F.KVA_CLASS_BASE_MIB (f / 2 ^ 30) * 2 ^ 20 + f % 2 ^ 30 * frameSize (f / 2 ^ 30)

/-- The local offset of a frame's scale frame (R205). -/
def scaleAddr (s : State) (f : Nat) : Nat :=
  rd s F.KVA_POOL_CTL_SCALE_BASE_MIB * 2 ^ 20 + 2048 * (framesBelow s (f / 2 ^ 30) + f % 2 ^ 30)

/-- A page's key, a stand-in's pages apart from the main model's. The page index has 24 bits and a context at most 2^14
pages; the spec does not say how the two models' pages are told apart. DESIGN CHOICE (log entry 45): bit 23 of the index. -/
def modelPage (req layer head i : Nat) (standin : Bool) : Nat :=
  pageKey req (layer * 256 + head) (i + if standin then 2 ^ 23 else 0)

/-- Whether a page key is a stand-in's page. -/
def pageStandin (k : Nat) : Bool := decide (2 ^ 23 ≤ pageIdx k)

/-- The position of a page's first row. -/
def pageStart (k : Nat) : Nat := 256 * (pageIdx k % 2 ^ 23)

/-! ### Questions to a home (R406, R412) -/

/-- The four words of a DTM message (R406). -/
def dtmWords (kind : Nat) (loss : Bool) (seq req owner node subject lepoch : Nat) (st : Status) : List Word :=
  [mkWord [(0, 4, kind), (4, 1, loss.toNat), (32, 32, seq)], mkWord [(0, 48, req), (48, 16, owner)],
    mkWord [(0, 20, node), (20, 20, subject)], mkWord [(0, 32, lepoch), (32, 16, st.toNat)]]

/-- A DTM message sent with the next SEQ. -/
def sendDtm (s : State) (dest kind : Nat) (loss : Bool) (req subject : Nat) : State :=
  let q := s.dtm.seq
  send { s with dtm := { s.dtm with seq := (q + 1) % 2 ^ 32 } } dest 0 .dtm
    ((at' 0 32 (epoch s)) :: dtmWords kind loss q req 0 (self s) subject 0 St.OK)

/-- A QUERY for a request goes to its home (R407, R412). -/
def askHome (s : State) (req : Nat) : State :=
  let s1 := { s with dtm := { s.dtm with queries := if s.dtm.queries.contains req then s.dtm.queries else s.dtm.queries ++ [req] } }
  sendDtm s1 (homeOf s.dtm.map req) 2 false req 0

/-- Whether this controller's lease at a request's home is live by the holder's rule (R213, R405). -/
def leaseLive (s : State) (req : Nat) : Bool := (tget s.dtm.leases (homeOf s.dtm.map req)).elim false (fun l => l.live)

/-- The request a member or the leader knows, if any. -/
def reqOf (s : State) (r : Nat) : Option Req := tget s.sch.reqs r

/-- A request's next record carries NUMERIC of a block; the first raised stays. DESIGN CHOICE (log entry 35): the spec does not say which of
two blocks' codes a record carries. -/
def raiseNumeric (s : State) (r : Nat) (code : Status) : State :=
  modReq s r (fun q => { q with numeric := if q.numeric = 0 then code else q.numeric })

/-- Whether a request runs on its stand-in in the running step. -/
def runsStandin (s : State) (r : Nat) : Bool :=
  match s.sch.roster with
  | some x => x.seqs.any (fun q => q.1 == r && q.2.1)
  | none => false

end Sys2Proof.Machine
end

