-- ==== Sys2Proof/Machine/Kva.lean ====
section
/-! DEFINITION. Key/value pages: the pool, appending, the splice, eviction, drop notices and reshoots (R203–R227). -/

namespace Sys2Proof.Machine

open Sys2Proof

/-! ### The pool (R205, R206) -/

/-- The regions a pool would take: classes, scale frames and frame records. -/
def poolRegions (s : State) : List (Nat × Nat) :=
  let n := framesBelow s 4
  let sb := rd s F.KVA_POOL_CTL_SCALE_BASE_MIB * 2 ^ 20
  (List.range 4).map (fun c => (rdi s F.KVA_CLASS_BASE_MIB c * 2 ^ 20, rdi s F.KVA_CLASS_COUNT c * frameSize c)) ++
    [(sb, n * 2048), (sb + n * 2048, n * 8)]

/-- The HDM window in HBM, when it is enabled (R59). -/
def hdmRange (s : State) : List (Nat × Nat) :=
  if rd s F.HPT_HDM_CFG_EN = 1 then [(rd s F.HPT_HDM_CFG_BASE_GIB * 2 ^ 30, rd s F.HPT_HDM_CFG_SIZE_GIB * 2 ^ 30)] else []

/-- Whether no two ranges of a list overlap. -/
def disjoint : List (Nat × Nat) → Bool
  | [] => true
  | r :: rs => rs.all (fun q => !overlap r.1 r.2 q.1 q.2) && disjoint rs

/-- The checks of R206. -/
def poolOk (s : State) : Bool :=
  (poolRegions s).all (fun r => regionOk s r.1 r.2) && disjoint (poolRegions s ++ hdmRange s) && decide (1 ≤ framesBelow s 4)

/-- POOL_ENABLE (R206): a write of EN = 1, with SCALE_BASE of the same write while EN was 0. -/
def poolEnable (s : State) (w : Word) : State :=
  ofForm (bit w 63) s (bar0 s (fun s =>
    if rd s F.KVA_POOL_CTL_EN = 1 then s
    else
      let s1 := wr s F.KVA_POOL_CTL_SCALE_BASE_MIB (bits w 19 0)
      if poolOk s1 then
        wr (wr { s1 with kva := { s1.kva with frames := [] } } F.KVA_POOL_CTL_EN 1) F.KVA_POOL_CTL_ERR 0
      else wr s1 F.KVA_POOL_CTL_ERR 1))

/-- POOL_DISABLE (R206): a write of EN = 0, ignored while a frame is allocated. -/
def poolDisable (s : State) (w : Word) : State :=
  ofForm (!bit w 63) s (bar0 s (fun s =>
    if rd s F.KVA_POOL_CTL_EN = 0 then wr s F.KVA_POOL_CTL_SCALE_BASE_MIB (bits w 19 0)
    else if s.kva.frames.isEmpty then wr s F.KVA_POOL_CTL_EN 0
    else s))

/-- Free frames of a class (KVA_FREE). -/
def freeFrames (s : State) (c : Nat) : Nat :=
  if rd s F.KVA_POOL_CTL_EN = 0 then 0
  else rdi s F.KVA_CLASS_COUNT c - (s.kva.frames.filter (fun e => e.1 / 2 ^ 30 == c)).length

/-- Whether a class's free frames stand below LOW (R218). -/
def belowLow (s : State) (c : Nat) : Bool := decide (freeFrames s c * 1000 < rd s F.KVA_WATER_LOW * rdi s F.KVA_CLASS_COUNT c)

/-- Whether a class's free frames stand above LOW (R221). -/
def aboveLow (s : State) (c : Nat) : Bool := decide (rd s F.KVA_WATER_LOW * rdi s F.KVA_CLASS_COUNT c < freeFrames s c * 1000)

/-- Whether a class's free frames have reached HIGH (R218). -/
def atHigh (s : State) (c : Nat) : Bool := decide (rd s F.KVA_WATER_HIGH * rdi s F.KVA_CLASS_COUNT c ≤ freeFrames s c * 1000)

/-- KVA_AGE advanced by one (R217). -/
def advanceAge (s : State) : State := wr s F.KVA_AGE_AGE ((rd s F.KVA_AGE_AGE + 1) % 2 ^ 48)

/-- A frame read or written takes KVA_AGE as its STAMP (R217). -/
def stampFrame (s : State) (f : Nat) : State :=
  { s with kva := { s.kva with frames := tmod s.kva.frames f (fun r => { r with stamp := kvaAge s }) } }

/-- KVA_AGE_TICK (R217): on CACHE role the age advances. -/
def kvaAgeTick (s : State) : State := whenUp s (fun s => if role s = 3 then advanceAge s else s)

/-! ### Entries of a request -/

/-- The page-table entries of a request. -/
def reqPtes (s : State) (req : Nat) : List (Nat × Pte) := s.kva.ptes.filter (fun e => pageReq e.1 == req)

/-- Entries of a request that are DROPPED or LOST. -/
def missing (s : State) (req : Nat) : List (Nat × Pte) := (reqPtes s req).filter (fun e => e.2.state == 3 || e.2.state == 4)

/-- PT_MAP flags of a state, class and format (R208). -/
def pteFlags (st cls : Nat) (kv4 : Bool) : Nat := st + 8 * cls + 32 * kv4.toNat

/-- The next version of an entry. -/
def nextVersion (e : Pte) : Nat := (e.version + 1) % 65536

/-! ### Drop notices and the RESHOOT event (R219, R223) -/

/-- Every member's latest notice for a request. -/
def noticesOf (s : State) (req : Nat) : Tbl Notice := tgetD s.kva.notices req []

/-- END of a request: one past the last position to recompute, capped at COMMITTED; 0 without a missing entry (R223). -/
def reshootEnd (s : State) (req : Nat) : Nat :=
  let ns := (tvals (noticesOf s req)).filter (fun n => n.count != 0)
  if ns.isEmpty then 0
  else min (256 * (ns.foldl (fun a n => max a n.highest) 0 + 1)) ((reqOf s req).elim 0 (fun r => r.committed))

/-- MISSING of a request: the sum of the counts of the latest notices (R223). -/
def reshootMissing (s : State) (req : Nat) : Nat := sumNat ((tvals (noticesOf s req)).map (fun n => n.count))

/-- The RESHOOT event goes to the controller that fetched the REQ_POST (R223). -/
def reshootEvent (s : State) (req : Nat) : State :=
  match reqOf s req with
  | none => s
  | some r =>
    let st := if (tvals (noticesOf s req)).any (fun n => n.lost) then St.KVA_PAGE_LOST else St.KVA_RESHOOT
    let d0 := at' 0 23 (reshootEnd s req)
    let d1 := at' 0 32 (reshootMissing s req)
    let s1 := { s with kva := { s.kva with announced := tset s.kva.announced req (reshootEnd s req) } }
    if r.origin = self s then postEvent s1 .reshoot st noUnit req r.key.ctx d0 d1
    else send s1 r.origin 0 .reshootEvent [mkWord [(0, 48, req), (48, 12, r.key.ctx)], at' 0 16 st.toNat, d0, d1]

/-- The leader takes a notice (R223, R227): it keeps the member's latest, holds the request from the next roster, and
announces END when it first appears or grows, after a running reshoot has completed. -/
def takeNotice (s : State) (src req highest count : Nat) (lost : Bool) : State :=
  match reqOf s req with
  | none => s
  | some _ =>
    let ns := noticesOf s req
    let old := (tget ns src).getD ⟨0, 0, false⟩
    let n : Notice := ⟨max highest old.highest, count, lost || old.lost⟩
    let ns' := if count = 0 then tdel ns src else tset ns src n
    let s1 := { s with kva := { s.kva with notices := if ns'.isEmpty then tdel s.kva.notices req else tset s.kva.notices req ns' } }
    let s2 := modReq s1 req (fun r => { r with dropped := !ns'.isEmpty })
    if tgetD s2.kva.announced req 0 < reshootEnd s2 req ∧ thas s2.kva.reshoots req = false then reshootEvent s2 req else s2

/-- DROP_NOTICE (R223): it is the leader's to take. -/
def dropNotice (s : State) (src req highest count : Nat) (lost : Bool) : State :=
  whenUp s (fun s => if leadsFor s req then takeNotice s src req highest count lost else s)

/-- A member tells the leader of its group of dropped or lost pages of a request (R219, R221): where its own group does not
own the request, it asks the home for the owner first. -/
def notifyLeader (s : State) (req highest : Nat) (lost : Bool) : State :=
  let count := (missing s req).length
  if thas s.sch.reqs req then
    match leaderOf s.dtm.map (groupOf s req) with
    | some l =>
      if l = self s then takeNotice s (self s) req highest count lost
      else send s l 0 .dropNotice [at' 0 48 req, mkWord [(0, 24, highest), (24, 1, lost.toNat), (32, 32, count)]]
    | none => s
  else askHome s req

/-- An outside holder's notice to the leader of the group that owns a request (R221). -/
def notifyOwner (s : State) (req group : Nat) : State :=
  match missing s req, slotNode s.dtm.map group 0 with
  | e :: es, some l =>
    send s l 0 .dropNotice [at' 0 48 req,
      mkWord [(0, 24, (e :: es).foldl (fun a x => max a (pageIdx x.1 % 2 ^ 23)) 0), (24, 1, ((e :: es).any (fun x => x.2.state == 4)).toNat),
        (32, 32, (e :: es).length)]]
  | _, _ => s

/-! ### Eviction (R218–R220) -/

/-- Frames of a class that may be evicted, oldest first (R218, R421). -/
def evictable (s : State) (c : Nat) : List (Nat × Frame) :=
  sortBy (fun a b => decide (a.2.stamp < b.2.stamp) || (a.2.stamp == b.2.stamp && decide (a.1 < b.1)))
    (s.kva.frames.filter (fun e =>
      e.1 / 2 ^ 30 == c && decide (e.2.stamp < kvaAge s) && !e.2.mirror && !thas s.kva.demoting e.1 &&
        (match e.2.page with
         | some k => !s.trv.pins.contains (pageReq k) &&
           !s.tak.locks.any (fun l => l.obj == pageObj k || l.obj == frameObj e.1)
         | none => false)))

/-- Frames a class must free to reach HIGH. -/
def evictCount (s : State) (c : Nat) : Nat :=
  ceilDiv (rd s F.KVA_WATER_HIGH * rdi s F.KVA_CLASS_COUNT c) 1000 - freeFrames s c

/-- PT_MAP to a state without a frame, the version advancing, and POOL FREE of the frame the entry named. -/
def unmapActs (s : State) (st : Nat) (k f : Nat) : List Action :=
  let e := pteOf s k
  [⟨0, pageObj k, .ptMap e.version 0 none (nextVersion e) (pteFlags st e.cls e.kv4)⟩, ⟨0, frameObj f, .free⟩]

/-- One drop take of up to 32 pages, and the notices that follow it (R219). -/
def dropTake (s : State) (fs : List (Nat × Nat)) : State :=
  match runLocal s .block .plain (fs.flatMap (fun p => unmapActs s 3 p.2 p.1)) with
  | (s1, r) =>
    if r.committed then
      let s2 := bumpBy (bumpBy s1 F.KVA_EVICT_CNT_COUNT fs.length) F.KVA_DROP_CNT_COUNT fs.length
      let reqs := (fs.map (fun p => pageReq p.2)).dedup
      reqs.foldl (fun s r =>
        notifyLeader s r ((fs.filter (fun p => pageReq p.2 == r)).foldl (fun a p => max a (pageIdx p.2 % 2 ^ 23)) 0) false) s2
    else s1

/-- Frames with the page each holds. -/
def withPages (fs : List (Nat × Frame)) : List (Nat × Nat) := fs.filterMap (fun e => e.2.page.map (fun k => (e.1, k)))

/-- A demotion begins (R220): the frame and its scale frame go to flash as one record. -/
def startDemotion (s : State) (f k : Nat) : State := { s with kva := { s.kva with demoting := tset s.kva.demoting f k } }

/-- The eviction of a class down from LOW to HIGH (R218): dropped by takes, or on CACHE role sent to flash. -/
def evictClass (s : State) (c : Nat) : State :=
  if rd s F.KVA_POOL_CTL_EN = 0 ∨ belowLow s c = false then s
  else
    let fs := withPages ((evictable s c).take (evictCount s c))
    if role s = 3 then
      let out := (s.kva.demoting.filter (fun e => e.1 / 2 ^ 30 == c)).length
      (fs.take (evictCount s c - out)).foldl (fun s p => startDemotion s p.1 p.2) s
    else (chunks 32 fs.length fs).foldl dropTake s

/-- EVICTION (R218–R220). -/
def eviction (s : State) (cls : Nat) : State := whenUp s (fun s => if cls < 4 then evictClass s cls else s)

/-- DEMOTE_WRITE_DONE (R220): a local take moves the entry to FLASH and frees the frame; a frame read meanwhile is skipped
(R218), and after a failed write the next eligible frame is taken. -/
def demoteWriteDone (s : State) (frame : Nat) (flashAddr : Nat) (ok : Bool) : State :=
  whenUp s (fun s =>
    match tget s.kva.demoting frame with
    | none => s
    | some k =>
      let next := withPages ((evictable s (frame / 2 ^ 30)).take 1)
      let s1 := { s with kva := { s.kva with demoting := tdel s.kva.demoting frame } }
      if !ok then next.foldl (fun s p => startDemotion s p.1 p.2) s1
      else if kvaAge s ≤ ((tget s.kva.frames frame).elim 0 (fun f => f.stamp)) then bump s1 F.TAK_ABORT_CNT_COUNT
      else
        let e := pteOf s1 k
        let acts : List Action :=
          [⟨0, pageObj k, .ptMap e.version 0 none (nextVersion e) (pteFlags 2 e.cls e.kv4)⟩,
           ⟨0, pageObj k, .putEntry (mkWord [(0, 36, flashAddr), (36, 8, e.kb), (44, 8, e.vb)])⟩, ⟨0, frameObj frame, .free⟩]
        match runLocal s1 .block .plain acts with
        | (s2, r) => if r.committed then bump (bump s2 F.KVA_EVICT_CNT_COUNT) F.KVA_DEMOTE_CNT_COUNT else s2)

/-- The key of a page a command names. -/
def keyOfPage (p : PageKey) : Nat := pageKey p.req (p.layer * 256 + p.head) p.page

/-- An entry becomes LOST by a local take, and the leader is told (R221). -/
def losePage (s : State) (k : Nat) : State :=
  let e := pteOf s k
  let acts : List Action := [⟨0, pageObj k, .ptMap e.version 0 none (nextVersion e) (pteFlags 4 e.cls e.kv4)⟩] ++
    (if e.state = 1 then [⟨0, frameObj e.frame, .free⟩] else [])
  match runLocal s .block .plain acts with
  | (s1, r) => if r.committed then notifyLeader s1 (pageReq k) (pageIdx k % 2 ^ 23) true else s1

/-- PAGE_PROMOTE (R221): a page read from flash is mapped to a frame when its class stands above LOW; an uncorrectable read
makes the entry LOST. -/
def pagePromote (s : State) (page : PageKey) (ok : Bool) (bytes : List Byte) : State :=
  whenUp s (fun s =>
    let k := keyOfPage page
    let e := pteOf s k
    if e.state ≠ 2 then s
    else if !ok then losePage s k
    else if !aboveLow s e.cls then s
    else
      let acts : List Action :=
        [⟨0, ⟨kFrame, 0, 0⟩, .alloc e.cls⟩,
         ⟨0, pageObj k, .ptMap e.version 0 (some 0) (nextVersion e) (pteFlags 1 e.cls e.kv4)⟩,
         ⟨0, pageObj k, .putEntry (mkWord [(36, 8, e.kb), (44, 8, e.vb)])⟩]
      match runLocal s .block .plain acts with
      | (s1, r) =>
        if r.committed then
          let f := (pteOf s1 k).frame
          writeMem (writeMem s1 (frameAddr s1 f) (bytes.take (frameSize e.cls))) (scaleAddr s1 f)
            ((bytes.drop (frameSize e.cls)).take 2048)
        else s1)

/-! ### Mapping pages for rows (R212, R214) -/

/-- KB and VB of the highest-indexed lower page of the same layer and head that this controller holds, else the defaults
(R212). -/
def inheritBases (s : State) (k : Nat) : Nat × Nat :=
  let low := (s.kva.ptes.filter (fun e => decide (k / 2 ^ 24 = e.1 / 2 ^ 24 ∧ e.1 < k ∧ pageStandin e.1 = pageStandin k)
    && (e.2.state == 1 || e.2.state == 2))).getLast?
  match low with
  | some e => (e.2.kb, e.2.vb)
  | none => (rd s F.KVA_KV4_CFG_KBASE, rd s F.KVA_KV4_CFG_VBASE)

/-- ALLOC, PT_MAP and, for KV4, the PUT of the bases, for one page at action index `i`. -/
def allocActs (s : State) (i k cls : Nat) (kv4 : Bool) (bases : Option (Nat × Nat)) : List Action :=
  let e := pteOf s k
  [⟨0, ⟨kFrame, 0, 0⟩, .alloc cls⟩, ⟨0, pageObj k, .ptMap e.version 0 (some i) (nextVersion e) (pteFlags 1 cls kv4)⟩] ++
    (if kv4 then
      let b := bases.getD (0, 0)
      [⟨0, pageObj k, .putEntry (mkWord [(36, 8, b.1), (44, 8, b.2)])⟩]
     else [])

/-- A KV8 scale frame's bytes 1,024 to 2,047 and unused group codes are zero because a fresh frame's are (R42): a frame that
is mapped anew starts with a scale frame of zeros. -/
def clearScales (s : State) (k : Nat) : State := zeroMem s (scaleAddr s (pteOf s k).frame) 2048

/-- Pages mapped by local takes of up to 32 pairs (21 with the PUT); whether every page has its frame (R214). -/
def mapPages (kv4 : Bool) (cls : Nat) (decode : Bool) : Nat → State → List Nat → State × Bool
  | 0, s, ks => (s, ks.isEmpty)
  | n + 1, s, ks =>
    if ks.isEmpty then (s, true)
    else
      let w := if kv4 then 21 else 32
      let c := ks.take w
      let step := if kv4 then 3 else 2
      let acts := c.zipIdx.flatMap (fun p => allocActs s (step * p.2) p.1 cls kv4 (if decode then some (inheritBases s p.1) else none))
      match runLocal s .block .plain acts with
      | (s1, r) =>
        if r.committed then
          mapPages kv4 cls decode n (c.foldl clearScales { s1 with kva := { s1.kva with mapped := s1.kva.mapped ++ c } }) (ks.drop w)
        else (s1, false)

/-- The pages that this member must have for slots `first` to `first + n - 1` of a request and that it has not (R214,
R230). -/
def pagesNeeded (s : State) (req first n layers heads : Nat) (standin : Bool) : List Nat :=
  if n = 0 then []
  else
    (List.range layers).flatMap (fun l => (List.range heads).flatMap (fun h =>
      ((List.range ((first + n - 1) / 256 + 1 - first / 256)).map (fun i => first / 256 + i)).filterMap (fun i =>
        let k := modelPage req l h i standin
        if holdsPage s h i && (pteOf s k).state == 0 then some k else none)))

/-- A request that has no frame for its rows (R214): KVA_POOL_EMPTY, no rows in this step, and held until the class has a
free frame. -/
def poolEmpty (s : State) (req cls : Nat) : State :=
  let ctx := (reqOf s req).elim 0 (fun r => r.key.ctx)
  let s1 := { s with kva := { s.kva with
    skip := if s.kva.skip.contains req then s.kva.skip else s.kva.skip ++ [req]
    starved := s.kva.starved ++ [(req, cls)] } }
  openEvent (modReq s1 req (fun r => { r with starved := true })) .error St.KVA_POOL_EMPTY noUnit req ctx

/-- FRAME_MAPPING for one request (R214): the pages of its rows are mapped, after an eviction where a class runs out. -/
def mapRequest (s : State) (req first n model : Nat) (kv4 decode standin : Bool) : State :=
  match pageClass (modelDim s model) kv4 with
  | none => s
  | some c =>
    let need (s : State) := pagesNeeded s req first n (modelLayers s model) (kvHeads s) standin
    match mapPages kv4 c decode (need s).length s (need s) with
    | (s1, true) => evictClass s1 c
    | (s1, false) =>
      let s2 := evictClass s1 c
      match mapPages kv4 c decode (need s2).length s2 (need s2) with
      | (s3, true) => s3
      | (s3, false) => poolEmpty s3 req c

/-- The class under which a request waits for a mirror frame of its twin (R442). -/
def twinClass : Nat := 4

/-- Held requests whose class has a free frame again are held no longer (R214). -/
def feedStarved (s : State) : State :=
  let (go, stay) := s.kva.starved.partition (fun p => p.2 != twinClass && decide (0 < freeFrames s p.2))
  go.foldl (fun s p => modReq s p.1 (fun r => { r with starved := stay.any (fun q => q.1 == p.1) }))
    { s with kva := { s.kva with starved := stay } }

/-! ### Appending (R211–R213) -/

/-- A refused append (R213): nothing is written for the request in this step, it leaves the roster, and the home is asked. -/
def leaseStale (s : State) (req : Nat) : State :=
  let ctx := (reqOf s req).elim 0 (fun r => r.key.ctx)
  let s1 := { s with kva := { s.kva with skip := s.kva.skip ++ [req] } }
  let s2 := modReq s1 req (fun r => { r with doubt := true })
  askHome (bump (openEvent s2 .error St.KVA_LEASE_STALE noUnit req ctx) F.KVA_REFUSE_CNT_COUNT) req

/-- The base exponent chosen from the largest finite magnitude of the rows a page receives: ceil(log2(amax / 6)) − 8,
clamped; 0 for amax 0 (R212). -/
def chooseBase (a : Nat) : Nat :=
  if a = 0 then 0
  else
    let me := magOf a
    let b0 : Int := (Nat.log2 me.1 : Int) + me.2 - 4
    let ok (b : Int) : Bool :=
      let q := b - me.2
      if 0 ≤ q then decide (me.1 ≤ 6 * 2 ^ q.toNat) else decide (me.1 * 2 ^ (-q).toNat ≤ 6)
    let i := (firstFree 6 (fun i => ok (b0 + i))).getD 5
    unsigned 8 (max (-128) (min 127 (b0 + i - 8)))

/-- A row quantised for its page (R40, R41): element bytes, scale bytes, groups saturated, and whether it held a
non-finite element. -/
def quantRow (kv4 : Bool) (base : Nat) (xs : List F32) : List Byte × List Byte × Nat × Bool :=
  let odd := xs.any (fun x => f32IsNaN x || f32IsInf x)
  if kv4 then
    let gs := (chunks 16 (xs.length / 16 + 1) xs).map (kv4Group (signed 8 base))
    let codes := gs.flatMap (fun g => g.2.1)
    let bytes := (List.range (codes.length / 2)).map (fun i => BitVec.ofNat 8 (codes.getD (2 * i) 0 + 16 * codes.getD (2 * i + 1) 0))
    let sc := gs.zipIdx.foldl (fun a p => a + p.1.1 * 16 ^ p.2) 0
    (bytes, natBytes 4 sc, (gs.filter (fun g => g.2.2)).length, odd)
  else
    let r := kv8Row xs
    (r.2, natBytes 2 r.1, 0, odd)

/-- Where a row of a page lies: its offset in the frame and its scales' offset in the scale frame (R42, R204). -/
def rowPlace (cls dim t : Nat) (kv4 value : Bool) : Nat × Nat :=
  let b := if kv4 then dim / 2 else dim
  ((if value then frameSize cls / 2 else 0) + t * b, if kv4 then 8 * t + (if value then 4 else 0) else 4 * t + (if value then 2 else 0))

/-- One row written to its page and mirrored (R204, R440). -/
def writeRow (s : State) (k t dim : Nat) (value : Bool) (bytes scales : List Byte) : State :=
  let e := pteOf s k
  let p := rowPlace e.cls dim t e.kv4 value
  let s1 := writeMem (writeMem s (frameAddr s e.frame + p.1) bytes) (scaleAddr s e.frame + p.2) scales
  mirrorRec (stampFrame s1 e.frame) (.rows (pageOfKey k) p.1 bytes p.2 scales)

/-- A key row and a value row of one slot appended (R211). -/
def appendRow (s : State) (a : AppendBatch) (dim i : Nat) : State :=
  let pos := a.pos + i
  let k := modelPage a.req a.layer a.head (pos / 256) a.standin
  let e := pteOf s k
  if !holdsPage s a.head (pos / 256) || e.state != 1 then s
  else
    let qk := quantRow e.kv4 e.kb (a.keys.getD i [])
    let qv := quantRow e.kv4 e.vb (a.values.getD i [])
    let s1 := writeRow s k (pos % 256) dim false qk.1 qk.2.1
    let s2 := writeRow s1 k (pos % 256) dim true qv.1 qv.2.1
    let s3 := bumpBy s2 F.KVA_SAT_CNT_COUNT (qk.2.2.1 + qv.2.2.1)
    if qk.2.2.2 || qv.2.2.2 || decide (0 < qk.2.2.1 + qv.2.2.1) then raiseNumeric s3 a.req 0x06E0 else s3

/-- The bases of a KV4 page that a prefill chunk first writes, chosen over the rows it receives from the chunk, by a local
take with a PUT (R212). -/
def choosePageBases (s : State) (a : AppendBatch) (i : Nat) : State :=
  let k := modelPage a.req a.layer a.head i a.standin
  let e := pteOf s k
  let prefill := (reqOf s a.req).elim false (fun r => r.phase == .prefill)
  let committed := (tget s.kva.roots a.req).elim 0 (fun r => r.committed)
  if !e.kv4 || e.state != 1 || !prefill || decide (256 * i < committed) || !s.kva.mapped.contains k then s
  else
    let rows (l : List (List F32)) : List F32 := ((l.zipIdx.filter (fun p => (a.pos + p.2) / 256 == i)).map (fun p => p.1)).flatten
    let w := mkWord [(0, 36, e.flash), (36, 8, chooseBase (rowAmax (rows a.keys))), (44, 8, chooseBase (rowAmax (rows a.values)))]
    (runLocal s .block .plain [⟨0, pageObj k, .putEntry w⟩]).1

/-- Pages of catch-up or stand-in rows that no roster mapped are mapped as they are appended (R115, R214). -/
def mapForAppend (s : State) (a : AppendBatch) (model : Nat) (kv4 : Bool) : State :=
  match pageClass (modelDim s model) kv4 with
  | none => s
  | some c =>
    let n := a.keys.length
    let ks := (((List.range n).map (fun i => (a.pos + i) / 256)).dedup).filterMap (fun i =>
      let k := modelPage a.req a.layer a.head i a.standin
      if holdsPage s a.head i && (pteOf s k).state == 0 then some k else none)
    match mapPages kv4 c true ks.length s ks with
    | (s1, true) => s1
    | (s1, false) => poolEmpty s1 a.req c

/-- Whether this controller recomputes a request's pages for its owners: a REQ_RELEASE RESHOOT is in flight here (R226). The pages
are the prompt group's own and the request's are not touched, so the lease check does not apply to them. -/
def reshootHere (s : State) (req : Nat) : Bool := s.kva.asks.any (fun e => e.2 == req)

/-- APPEND_ROWS (R211–R213): the lease is checked, and the rows are quantised into their pages. -/
def appendRows (s : State) (a : AppendBatch) : State :=
  whenUp s (fun s =>
    match tget s.kva.roots a.req, reqOf s a.req with
    | some root, some r =>
      if s.kva.skip.contains a.req then s
      else if !reshootHere s a.req && (root.lease == 0 || !leaseLive s a.req) then leaseStale s a.req
      else
        let model := if a.standin then r.standin.getD r.model else r.model
        let kv4 := root.fmt == 1
        let s1 := if s.kva.mapped.any (fun k => pageReq k == a.req && pageStandin k == a.standin) then s else mapForAppend s a model kv4
        if s1.kva.skip.contains a.req then s1
        else
          let pages := ((List.range a.keys.length).map (fun i => (a.pos + i) / 256)).dedup
          let s2 := pages.foldl (fun s i => choosePageBases s a i) s1
          (List.range a.keys.length).foldl (fun s i => appendRow s a (modelDim s model) i) s2
    | _, _ => s)

/-! ### The splice (R216) -/

/-- The elements of a stored row, as FP32 (R241): its codes with the KV4 group scale applied. -/
def kv4Values (base : Nat) (bytes scales : List Byte) : List F32 :=
  let sc := bytesNat scales
  let codes := bytes.flatMap (fun b => [b.toNat % 16, b.toNat / 16])
  codes.zipIdx.map (fun p => f32Scale (widen fmtE2M1 p.1) (signed 8 base + (sc / 16 ^ (p.2 / 16) % 16 : Nat)))

/-- One row copied from a slot to another of the same layer and head. A KV4 row between pages whose bases differ is
quantised again; a destination at another member gets the row in a message (R216). -/
def copyRow (s : State) (req layer head dim from_ dst : Nat) (standin value : Bool) : State :=
  let ks := modelPage req layer head (from_ / 256) standin
  let kd := modelPage req layer head (dst / 256) standin
  let es := pteOf s ks
  if !holdsPage s head (from_ / 256) || es.state != 1 then s
  else
    let p := rowPlace es.cls dim (from_ % 256) es.kv4 value
    let bytes := readMem s (frameAddr s es.frame + p.1) (if es.kv4 then dim / 2 else dim)
    let scales := readMem s (scaleAddr s es.frame + p.2) (if es.kv4 then 4 else 2)
    if holdsPage s head (dst / 256) then
      let ed := pteOf s kd
      if ed.state ≠ 1 then s
      else
        let bs := if value then es.vb else es.kb
        let bd := if value then ed.vb else ed.kb
        if es.kv4 && bs != bd then
          let q := quantRow true bd (kv4Values bs bytes scales)
          writeRow (bumpBy s F.KVA_SAT_CNT_COUNT q.2.2.1) kd (dst % 256) dim value q.1 q.2.1
        else writeRow s kd (dst % 256) dim value bytes scales
    else
      match memberAt s req (pageSlot (groupSize s) (kvHeads s) head (dst / 256)) with
      | some n => send s n 2 .row ([mkWord [(0, 48, req), (48, 8, layer), (56, 8, head)], mkWord [(0, 23, dst), (23, 1, value.toNat)]] ++
          bytesWords (dim / 8) (bytes ++ List.replicate (8 * (dim / 8) - bytes.length) 0) ++ bytesWords 1 scales)
      | none => s

/-- The copies of step 1 of R216: accepted node `n` to the i-th slot past COMMITTED, for every layer and head. -/
def spliceCopies (s : State) (req model committed : Nat) (accepted : List Nat) (standin : Bool) : State :=
  accepted.zipIdx.foldl (fun s p =>
    if p.1 = p.2 then s
    else
      (List.range (modelLayers s model)).foldl (fun s l =>
        (List.range (kvHeads s)).foldl (fun s h =>
          let d := modelDim s model
          copyRow (copyRow s req l h d (committed + p.1) (committed + p.2) standin false) req l h d (committed + p.1)
            (committed + p.2) standin true) s) s) s

/-- The root's object for the PUT of R216: this controller's own memory. -/
def rootObj (req : Nat) : Obj := ⟨kRegion, 1, req⟩

/-- Pages mapped for this step that hold no committed position return to the pool, in takes of up to 32 (R216 step 3). -/
def returnPages (s : State) (req : Nat) : State :=
  let committed := (tget s.kva.roots req).elim 0 (fun r => r.committed)
  let ks := s.kva.mapped.filter (fun k => pageReq k == req && decide (committed ≤ pageStart k) && (pteOf s k).state == 1)
  let s1 := (chunks 32 ks.length ks).foldl (fun s c => localTake s (c.flatMap (fun k => unmapActs s 0 k (pteOf s k).frame))) s
  { s1 with kva := { s1.kva with mapped := s1.kva.mapped.filter (fun k => pageReq k != req) } }

/-- COMMITTED moved in the root by a local take (R216 step 2), and in this controller's record of the request. -/
def commitRows (s : State) (req a : Nat) : State :=
  match tget s.kva.roots req with
  | none => s
  | some r =>
    let n := r.committed + a
    let s1 := localTake s [⟨0, rootObj req, .putCommitted req n⟩]
    modReq s1 req (fun q => { q with committed := n })

/-- The splice of R216. -/
def splice (s : State) (req : Nat) (accepted : List Nat) : State :=
  match tget s.kva.roots req, reqOf s req with
  | some root, some r =>
    let standin := runsStandin s req
    let model := if standin then r.standin.getD r.model else r.model
    let s1 := spliceCopies s req model root.committed accepted standin
    returnPages (if accepted.isEmpty then s1 else commitRows s1 req accepted.length) req
  | _, _ => s

/-! ### Releasing a request's pages (R225) -/

/-- The frames of a request return to the pool by takes of up to 64 POOL FREE actions, its table goes, and the twin is told
(R225, R441). -/
def freePages (s : State) (req : Nat) : State :=
  let fs := ((reqPtes s req).filter (fun e => e.2.state == 1)).map (fun e => e.2.frame)
  let s1 := (chunks 64 fs.length fs).foldl (fun s c => localTake s (c.map (fun f => ⟨0, frameObj f, .free⟩))) s
  let s2 := { s1 with kva := { s1.kva with
    ptes := s1.kva.ptes.filter (fun e => pageReq e.1 != req)
    roots := tdel s1.kva.roots req
    mapped := s1.kva.mapped.filter (fun k => pageReq k != req)
    skip := s1.kva.skip.filter (· != req)
    starved := s1.kva.starved.filter (fun p => p.1 != req)
    notices := tdel s1.kva.notices req
    announced := tdel s1.kva.announced req
    reshoots := tdel s1.kva.reshoots req
    demoting := tkeep (fun _ k => pageReq k != req) s1.kva.demoting } }
  feedStarved (mirrorRec s2 (.release req))

/-! ### Reshoots (R226, R227) -/

/-- The leader's answer to the controller that holds the REQ_RELEASE (R226). -/
def answerReshoot (s : State) (origin flight : Nat) (st : Status) (repaired : Nat) : State :=
  if origin = self s then
    let s1 := { s with kva := { s.kva with asks := tdel s.kva.asks flight } }
    if st = St.OK then completeWith s1 flight St.OK (at' 0 32 repaired) else completeSt s1 flight st
  else send s origin 0 .reshootTokens [BitVec.ofNat 64 flight, mkWord [(0, 16, st.toNat), (32, 32, repaired)]]

/-- The checks of R226 by the owner group's leader. -/
def checkReshoot (s : State) (req inCount origin flight : Nat) : State :=
    if reshootEnd s req = 0 then answerReshoot s origin flight St.KVA_NO_RESHOOT 0
    else if thas s.kva.reshoots req then answerReshoot s origin flight St.KVA_RESHOOT_BUSY 0
    else if inCount ≠ reshootEnd s req then answerReshoot s origin flight St.KVA_RESHOOT_RANGE 0
    else { s with kva := { s.kva with reshoots := tset s.kva.reshoots req ⟨inCount, origin, flight⟩ } }

/-- The end of a reshoot at the leader (R226 steps 8 and 9, R227): entries below END are repaired; what was dropped at or
above END meanwhile is announced now. -/
def finishReshoot (s : State) (req : Nat) (r : Reshoot) : State :=
  let fixed := (tvals (noticesOf s req)).filter (fun n => decide (256 * n.highest < r.upto))
  let left := tkeep (fun _ n => !decide (256 * n.highest < r.upto)) (noticesOf s req)
  let s1 := { s with kva := { s.kva with
    reshoots := tdel s.kva.reshoots req
    announced := tdel s.kva.announced req
    notices := if left.isEmpty then tdel s.kva.notices req else tset s.kva.notices req left } }
  let s2 := bump (modReq s1 req (fun q => { q with dropped := !left.isEmpty })) F.KVA_RESHOOT_CNT_COUNT
  let s3 := answerReshoot s2 r.origin r.flight St.OK (sumNat (fixed.map (fun n => n.count)))
  if left.isEmpty then s3 else reshootEvent s3 req

/-- RESHOOT_COMPLETE (R226): at the leader, no DROPPED or LOST entry remains below END; at the controller that holds the
REQ_RELEASE, the leader's answer arrives. -/
def reshootComplete (s : State) (req : Nat) (answer : Option ReshootEnd) : State :=
  whenUp s (fun s =>
    match answer with
    | some a =>
      if thas s.kva.asks a.flight then
        let s1 := answerReshoot s (self s) a.flight a.status a.repaired
        if reshootHere s1 req then s1
        else
          let s2 := freePages s1 req
          { s2 with sch := { s2.sch with reqs := tdel s2.sch.reqs req } }
      else s
    | none =>
      match tget s.kva.reshoots req with
      | some r => if (missing s req).any (fun e => decide (pageStart e.1 < r.upto)) then s else finishReshoot s req r
      | none => s)

/-- A REQ_CANCEL stops a running reshoot, whose REQ_RELEASE completes with SCH_CANCELLED (R227). -/
def cancelReshoot (s : State) (req : Nat) : State :=
  match tget s.kva.reshoots req with
  | some r => answerReshoot { s with kva := { s.kva with reshoots := tdel s.kva.reshoots req } } r.origin r.flight St.SCH_CANCELLED 0
  | none => s

end Sys2Proof.Machine
end

