-- ==== Sys2Proof/Machine/Flt.lean ====
section
/-! DEFINITION. The flash tier: bring-up, sectors, the unit map, programs, erases, collection and levelling (R316–R329). -/

namespace Sys2Proof.Machine

open Sys2Proof

/-- The channel of a block. -/
def fltChan (b : Nat) : Nat := b / 2 ^ 20

/-- The flash tier's state changed. -/
def modFlt (s : State) (f : FltState → FltState) : State := { s with flt := f s.flt }

/-- A block changed. -/
def modBlock (s : State) (b : Nat) (f : FltBlock → FltBlock) : State := modFlt s (fun t => { t with blocks := tmod t.blocks b f })

/-- A block, or one that is not there. -/
def blockOf (s : State) (b : Nat) : FltBlock :=
  tgetD s.flt.blocks b ⟨0, 0, 0, 0, false, true, false, false, false⟩

/-- Whether the tier serves (R329). -/
def fltReady (s : State) : Bool := rd s F.FLT_CTL_EN == 1 && rd s F.FLT_CTL_BUSY == 0

/-- Whether a channel is in service. -/
def chanUp (s : State) (c : Nat) : Bool := rdi s F.FLT_CHAN_STATE c == 1

/-- Channels in service. -/
def chansUp (s : State) : List Nat := (List.range 16).filter (chanUp s)

/-! ### Enable, bring-up and disable -/

/-- FTL_ENABLE (R329): BUSY while the channels are brought up; MAP_BASE of the same write. -/
def ftlEnable (s : State) (w : Word) : State :=
  ofForm (bit w 63) s (bar0 s (fun s =>
    if rd s F.FLT_CTL_EN = 1 ∨ rd s F.FLT_CTL_BUSY = 1 then s
    else
      let s1 := wr (wr (wr s F.FLT_CTL_MAP_BASE_MIB (bits w 19 0)) F.FLT_CTL_BUSY 1) F.FLT_CTL_ERR 0
      emits s1 ((List.range 16).map (fun c => Output.onfi c .bringUp 0 0))))

/-- The map and every block forgotten (R326, R329). -/
def dropMap (s : State) : State := { s with flt := FltState.reset }

/-- FTL_DISABLE (R329): the map is discarded. -/
def ftlDisable (s : State) (w : Word) : State :=
  ofForm (!bit w 63) s (bar0 s (fun s =>
    let s1 := if rd s F.FLT_CTL_EN = 1 ∨ rd s F.FLT_CTL_BUSY = 1 then s else wr s F.FLT_CTL_MAP_BASE_MIB (bits w 19 0)
    dropMap (wr (wr (wr (wr s1 F.FLT_CTL_EN 0) F.FLT_CTL_BUSY 0) F.FLT_CAP_UNITS 0) F.FLT_CAP_MAP_MIB 0)))

/-- A channel that failed: FAILED, with its ERROR event (R327). -/
def chanFailed (s : State) (c : Nat) : State :=
  openEvent (wri s F.FLT_CHAN_STATE c 2) .error St.FLT_CHAN_FAIL ⟨8, c⟩ 0 0

/-- What bring-up found on a channel goes into FLT_CHAN (R316): targets without the supported pages are not in `targets`. -/
def foundChan (s : State) (c : Nat) (f : ChanFound) : State :=
  if !f.trained then chanFailed (wri (wri s F.FLT_CHAN_TARGETS c 0) F.FLT_CHAN_RATE_MT c 0) c
  else
    wri (wri (wri s F.FLT_CHAN_TARGETS c f.targets) F.FLT_CHAN_RATE_MT c f.rate) F.FLT_CHAN_STATE c
      (if f.targets % 65536 = 0 then 0 else 1)

/-- A block at bring-up: never erased here and never written. -/
def freshBlock : FltBlock := ⟨0, 0, 0, 0, false, false, false, false, false⟩

/-- Good blocks of the channels in service (R316, R322). -/
def goodBlocks (s : State) (chans : List ChanFound) (badBlocks : List Nat) : Tbl FltBlock :=
  chans.zipIdx.flatMap (fun p =>
    if chanUp s p.2 then
      ((List.range p.1.blocks).map (fun i => p.2 * 2 ^ 20 + i)).filterMap (fun b =>
        if badBlocks.contains b then none else some (b, freshBlock))
    else [])

/-- Whether the map region is good (R329): below MEM_TOP and off the HDM window and the pool. -/
def mapRegionOk (s : State) : Bool :=
  let r := (rd s F.FLT_CTL_MAP_BASE_MIB * 2 ^ 20, rd s F.FLT_CAP_MAP_MIB * 2 ^ 20)
  regionOk s r.1 r.2 &&
    (hdmRange s ++ (if rd s F.KVA_POOL_CTL_EN = 1 then kvaRanges s else [])).all (fun q => !overlap r.1 r.2 q.1 q.2)

/-- FTL_BRINGUP_DONE (R316, R320, R326, R329): the channels as found, the capacity, and EN, or ERR. -/
def ftlBringupDone (s : State) (chans : List ChanFound) (badBlocks : List Nat) : State :=
  whenUp s (fun s =>
    if rd s F.FLT_CTL_BUSY = 0 then s
    else
      let cs := chans.take 16
      let s1 := cs.zipIdx.foldl (fun s p => foundChan s p.2 p.1) s
      let bu := ((cs.filter (fun c => c.trained)).map (fun c => c.blockUnits)).foldl max 0
      let good := goodBlocks s1 cs badBlocks
      let units := good.length * bu * (256 - rd s F.FLT_CFG_OP) / 256
      let s2 := wr (wr s1 F.FLT_CAP_UNITS units) F.FLT_CAP_MAP_MIB (ceilDiv (8 * units) (2 ^ 20) + Config.mergeMib)
      let s3 := wr { s2 with flt := { FltState.reset with blocks := good, blockUnits := bu } } F.FLT_CTL_BUSY 0
      if !(chansUp s3).isEmpty && mapRegionOk s3 then wr s3 F.FLT_CTL_EN 1
      else dropMap (wr s3 F.FLT_CTL_ERR 1))

/-! ### Blocks -/

/-- A block is retired, counted, and put on its target's grown list (R322). -/
def retireBlock (s : State) (b : Nat) : State :=
  if (blockOf s b).bad then s
  else
    emit (bump (modBlock s b (fun x => { x with bad := true })) F.FLT_BAD_BLK_CNT_COUNT) (.onfi (fltChan b) .badList b 0)

/-- A block that holds nothing and may be written. -/
def isFree (x : FltBlock) : Bool := x.next == 0 && !x.bad && !x.erasing && !x.moving && !x.leaving

/-- A block with units written and room for more. -/
def isOpen (s : State) (x : FltBlock) : Bool :=
  decide (0 < x.next) && decide (x.next < s.flt.blockUnits) && !x.bad && !x.moving && !x.leaving

/-- Free blocks per mille of the good ones (R324). -/
def freePermille (s : State) : Nat :=
  let good := (tvals s.flt.blocks).filter (fun x => !x.bad)
  if good.isEmpty then 0 else (good.filter isFree).length * 1000 / good.length

/-- Operations outstanding on a channel: programs and reads. -/
def chanLoad (s : State) (c : Nat) : Nat :=
  (s.flt.progs.filter (fun p => fltChan p.block == c)).length + (s.flt.reads.filter (fun r => fltChan r.block == c)).length

/-- Where the next unit goes on a channel: its open block, else the free block with the lowest erase count (R322). -/
def nextBlock (s : State) (c : Nat) : Option Nat :=
  let bs := s.flt.blocks.filter (fun e => fltChan e.1 == c)
  match bs.find? (fun e => isOpen s e.2) with
  | some e => some e.1
  | none => (minBy (fun e => e.2.erases) (bs.filter (fun e => isFree e.2))).map (fun e => e.1)

/-- The place for the next unit: on the least-busy channel that has one (R322). -/
def nextPlace (s : State) : Option Nat :=
  (minBy (fun p => p.1) ((chansUp s).filterMap (fun c => (nextBlock s c).map (fun b => (chanLoad s c, b))))).map (fun p => p.2)

/-- A unit is programmed to the next place, erasing the block first where it must be (R319, R322, R326). -/
def startProg (s : State) (unit : Nat) (data : Tbl (List Byte)) (mask : Nat) (old : Option (Nat × Nat)) : Option State :=
  match nextPlace s with
  | none => none
  | some b =>
    let x := blockOf s b
    let first := decide (x.next = 0)
    let erase := first && !x.clean
    let s1 := modBlock s b (fun x => { x with next := x.next + 1, clean := true, age := if first then s.flt.age else x.age })
    let s2 := modFlt s1 (fun t => { t with
      age := if first then t.age + 1 else t.age
      progs := t.progs ++ [⟨unit, b, x.next, data, mask, old⟩] })
    some (emits s2 ((if erase then [Output.onfi (fltChan b) .erase b 0] else []) ++ [Output.onfi (fltChan b) .program b x.next]))

/-- Whether a client's program of the unit is under way. -/
def progRuns (s : State) (unit : Nat) : Bool := s.flt.progs.any (fun p => p.unit == unit && p.old.isNone)

/-- The sectors of a table of sectors as a mask. -/
def sectorMask (t : Tbl (List Byte)) : Nat := (tkeys t).foldl (fun a i => a ||| 2 ^ i) 0

/-- The sectors of a unit that flash holds and its merge buffer does not (R319). -/
def restOf (s : State) (unit : Nat) (b : FltBuf) : List Nat :=
  match tget s.flt.map unit with
  | none => []
  | some m => (setBits m.mask 32).filter (fun i => !thas b.data i)

/-- A unit in the merge buffers goes on: a full one, or one whose 1 ms has passed and whose rest has been read, is programmed as
soon as no program of it runs and blocks are free; else the rest is read (R319, R324). -/
def mergeOn (s : State) (unit : Nat) : State :=
  match tget s.flt.bufs unit with
  | none => s
  | some b =>
    let full := b.data.length == 32
    if !(full || b.due) || progRuns s unit || !b.want.isEmpty then s
    else
      let rest := restOf s unit b
      match tget s.flt.map unit, rest with
      | some m, i :: is =>
        let s1 := modFlt s (fun t => { t with
          bufs := tset t.bufs unit { b with want := i :: is }
          reads := t.reads ++ (i :: is).map (fun j => ⟨none, 32 * unit + j, m.block⟩) })
        emit s1 (.onfi (fltChan m.block) .readPage m.block m.slot)
      | _, _ =>
        if freePermille s < rd s F.FLT_GC_CRIT then s
        else
          match startProg s unit b.data (sectorMask b.data) none with
          | none => s
          | some s1 => modFlt s1 (fun t => { t with bufs := tdel t.bufs unit })

/-- Every unit in the merge buffers that can go on does. -/
def mergeAll (s : State) : State := (tkeys s.flt.bufs).foldl mergeOn s

/-- Whether a block still holds something: a unit of the map, or an outstanding read or relocation from it (R325). -/
def blockHeld (s : State) (b : Nat) : Bool :=
  (tvals s.flt.map).any (fun m => m.block == b) || s.flt.reads.any (fun r => r.block == b) ||
    s.flt.progs.any (fun p => p.block == b || p.old.elim false (fun o => o.1 == b))

/-- A block whose units have moved is erased once every read of it has finished (R325). -/
def eraseWhenDone (s : State) (b : Nat) : State :=
  let x := blockOf s b
  if x.moving && !x.erasing && !blockHeld s b then
    emit (modBlock s b (fun x => { x with erasing := true })) (.onfi (fltChan b) .erase b 0)
  else s

/-- The valid units of a block are copied elsewhere, after which it is erased (R323–R325). -/
def moveBlock (s : State) (b : Nat) : State :=
  if (blockOf s b).moving then s
  else
    let s1 := modBlock s b (fun x => { x with moving := true })
    let units := s1.flt.map.filter (fun e => e.2.block == b)
    eraseWhenDone (units.foldl (fun s e =>
      (startProg (emit s (.onfi (fltChan b) .relocate b e.2.slot)) e.1 [] e.2.mask (some (b, e.2.slot))).getD s) s1) b

/-- Units of a block that is being moved and that had no place before are copied now. -/
def moveRest (s : State) : State :=
  (s.flt.map.filter (fun e => (blockOf s e.2.block).moving &&
      !s.flt.progs.any (fun p => p.unit == e.1 && p.old == some (e.2.block, e.2.slot)))).foldl (fun s e =>
    (startProg (emit s (.onfi (fltChan e.2.block) .relocate e.2.block e.2.slot)) e.1 [] e.2.mask
      (some (e.2.block, e.2.slot))).getD s) s

/-! ### Sectors -/

/-- Whether a client may use sectors (R318): the pool uses its own ranges. -/
def clientOk (s : State) (c : FlashClient) (first n : Nat) : Bool :=
  match c with
  | .kva => true
  | .gather t => flashOk s t first n
  | .mover t => flashOk s t first n

/-- The newest copy of a sector that is not yet in flash: in the merge buffer, or in the write buffer of a program. -/
def bufferedSector (s : State) (sector : Nat) : Option (List Byte) :=
  match (tget s.flt.bufs (sector / 32)).bind (fun b => tget b.data (sector % 32)) with
  | some d => some d
  | none => (s.flt.progs.reverse.find? (fun p => p.unit == sector / 32 && p.old.isNone)).bind (fun p => tget p.data (sector % 32))

/-- SECTOR_READ (R318, R321, R327, R329). -/
def sectorRead (s : State) (c : FlashClient) (sector : Nat) : State :=
  whenUp s (fun s =>
    let reply (st : Status) (bs : List Byte) : State := emit s (.flashReply c sector st bs)
    if !fltReady s then reply St.FLT_NOT_READY []
    else if !clientOk s c sector 1 then reply St.FLT_PROT []
    else
      match bufferedSector s sector, tget s.flt.map (sector / 32) with
      | some d, _ => reply St.OK d
      | none, none => reply St.FLT_UNWRITTEN []
      | none, some m =>
        if !m.mask.testBit (sector % 32) then reply St.FLT_UNWRITTEN []
        else if !chanUp s (fltChan m.block) then reply St.FLT_UNCORR []
        else
          emit (modFlt s (fun t => { t with reads := t.reads ++ [⟨some c, sector, m.block⟩] }))
            (.onfi (fltChan m.block) .readPage m.block m.slot))

/-- Soft retries that a codeword took (R321): a final failure used them all. -/
def retriesOf (s : State) : CodewordOutcome → Nat
  | .hard _ _ => 0
  | .soft n _ _ => min n (rd s F.FLT_CFG_RETRY)
  | .fail => rd s F.FLT_CFG_RETRY

/-- The plaintext of a codeword that decoded and whose CRC matches. -/
def goodData : CodewordOutcome → Option (List Byte)
  | .hard d ok => if ok then some d else none
  | .soft _ d ok => if ok then some d else none
  | .fail => none

/-- A read of a block is counted; at RD_LIMIT, or after a read that took more than half of RETRY, its data moves (R322, R323). -/
def countRead (s : State) (b n : Nat) : State :=
  let s1 := modBlock s b (fun x => { x with reads := x.reads + 1 })
  let s2 := if rd s F.FLT_CFG_RETRY < 2 * n then moveBlock (modBlock s1 b (fun x => { x with leaving := true })) b else s1
  if (blockOf s2 b).reads = rd s F.FLT_CFG_RD_LIMIT then moveBlock (bump s2 F.FLT_REFRESH_CNT_COUNT) b else s2

/-- The page whose demotion record holds a sector is LOST when the sector cannot be read (R221, R312). -/
def loseFlashPage (s : State) (sector : Nat) : State :=
  (s.kva.ptes.filter (fun e => e.2.state == 2 && decide (e.2.flash ≤ sector) &&
      decide (sector * 2048 < e.2.flash * 2048 + frameSize e.2.cls + 2048))).foldl (fun s e => losePage s e.1) s

/-- What a read answers its client with, or its merge (R319, R321). A sector of a merge that cannot be read leaves the unit. -/
def giveSector (s : State) (r : FltRead) (d : Option (List Byte)) : State :=
  match r.client with
  | some c =>
    match d with
    | some bs => emit s (.flashReply c r.sector St.OK bs)
    | none =>
      let s1 := emit s (.flashReply c r.sector St.FLT_UNCORR [])
      if c = .kva then loseFlashPage s1 r.sector else s1
  | none =>
    let i := r.sector % 32
    let take (b : FltBuf) : FltBuf :=
      let data := match d, tget b.data i with
        | some bs, none => tset b.data i bs
        | _, _ => b.data
      { b with data := data, want := b.want.erase i }
    let s1 := modFlt s (fun t => { t with bufs := tmod t.bufs (r.sector / 32) take })
    let s2 := match d with
      | some _ => s1
      | none => modFlt s1 (fun t => { t with
          map := tmod t.map (r.sector / 32) (fun m => { m with mask := if m.mask.testBit i then m.mask - 2 ^ i else m.mask }) })
    mergeOn s2 (r.sector / 32)

/-- SECTOR_READ_DATA (R321–R323): decoded, checked, counted and delivered, or FLT_UNCORR. -/
def sectorReadData (s : State) (sector : Nat) (o : CodewordOutcome) : State :=
  whenUp s (fun s =>
    match s.flt.reads.find? (fun r => r.sector == sector) with
    | none => s
    | some r =>
      let s1 := modFlt s (fun t => { t with reads := t.reads.erase r })
      let s2 := bumpBy s1 F.FLT_RETRY_CNT_COUNT (retriesOf s o)
      let s3 := if (goodData o).isNone then bump s2 F.FLT_UE_CNT_COUNT else s2
      eraseWhenDone (countRead (giveSector s3 r (goodData o)) r.block (retriesOf s o)) r.block)

/-- Sectors written by a client, in 16 KiB units (R329). -/
def countClient (s : State) (n : Nat) : State :=
  let t := s.flt.rest + n
  bumpBy (modFlt s (fun f => { f with rest := t % 8 })) F.FLT_CLIENT_WR_CNT_COUNT (t / 8)

/-- A sector joins its unit's merge buffer (R319). -/
def putSector (s : State) (sector : Nat) (bs : List Byte) : State :=
  let b := tgetD s.flt.bufs (sector / 32) ⟨[], false, []⟩
  modFlt s (fun t => { t with bufs := tset t.bufs (sector / 32) { b with data := tset b.data (sector % 32) bs } })

/-- SECTOR_WRITE (R318–R320, R329). -/
def sectorWrite (s : State) (c : FlashClient) (sector : Nat) (data : List (List Byte)) : State :=
  whenUp s (fun s =>
    let n := data.length
    let reply (s : State) (st : Status) : State := emit s (.flashReply c sector st [])
    if !fltReady s then reply s St.FLT_NOT_READY
    else if !clientOk s c sector n then reply s St.FLT_PROT
    else if rd s F.FLT_CAP_UNITS < ceilDiv (sector + n) 32 then reply s St.FLT_NO_SPACE
    else
      let s1 := countClient (data.zipIdx.foldl (fun s p => putSector s (sector + p.2) p.1) s) n
      let units := ((List.range n).map (fun i => (sector + i) / 32)).dedup
      reply (units.foldl mergeOn s1) St.OK)

/-- MERGE_TIMEOUT (R319). -/
def mergeTimeout (s : State) (unit : Nat) : State :=
  whenUp s (fun s =>
    if thas s.flt.bufs unit && fltReady s then
      mergeOn (modFlt s (fun t => { t with bufs := tmod t.bufs unit (fun b => { b with due := true }) })) unit
    else s)

/-! ### Programs and erases -/

/-- A programmed unit enters the map: a client's at once, a relocation by compare and swap (R325). -/
def mapUnit (s : State) (p : FltProg) : State :=
  let entry : UnitMap := ⟨p.block, p.slot, p.mask⟩
  match p.old with
  | none => modFlt s (fun t => { t with map := tset t.map p.unit entry })
  | some o =>
    match tget s.flt.map p.unit with
    | some m => if m.block = o.1 ∧ m.slot = o.2 then
        modFlt s (fun t => { t with map := tset t.map p.unit { entry with mask := m.mask } }) else s
    | none => s

/-- A program that lost its block starts elsewhere; without a place, a client's data waits in the merge buffer (R322). -/
def progAgain (s : State) (p : FltProg) : State :=
  match startProg s p.unit p.data p.mask p.old, p.old with
  | some s1, _ => s1
  | none, some _ => s
  | none, none =>
    let b := tgetD s.flt.bufs p.unit ⟨[], false, []⟩
    modFlt s (fun t => { t with bufs := tset t.bufs p.unit ⟨b.data.foldl (fun d e => tset d e.1 e.2) p.data, true, []⟩ })

/-- A programmed unit: mapped, and what it replaced may be erased (R325). -/
def unitStored (s : State) (p : FltProg) : State :=
  let before := tget s.flt.map p.unit
  let s1 := mergeOn (mapUnit s p) p.unit
  let s2 := before.elim s1 (fun m => eraseWhenDone s1 m.block)
  p.old.elim s2 (fun o => eraseWhenDone s2 o.1)

/-- PAGE_PROGRAM_DONE (R322, R325): the four pages are counted and the unit mapped; after a failure the block is retired and the
data programmed elsewhere. -/
def pageProgramDone (s : State) (unit : Nat) (ok : Bool) : State :=
  whenUp s (fun s =>
    match s.flt.progs.find? (fun p => p.unit == unit) with
    | none => s
    | some p =>
      let s1 := bumpBy (modFlt s (fun t => { t with progs := t.progs.erase p })) F.FLT_NAND_WR_CNT_COUNT 4
      if ok then unitStored s1 p else progAgain (retireBlock s1 p.block) p)

/-- Programs that lost their block are started elsewhere. -/
def reprogram (s : State) (lost : Nat → Bool) : State :=
  let ps := s.flt.progs.filter (fun p => lost p.block)
  ps.foldl progAgain (modFlt s (fun t => { t with progs := t.progs.filter (fun p => !lost p.block) }))

/-- BLOCK_ERASE_DONE (R322): the block is free again, or retired when its erase failed or its data was to leave it. -/
def blockEraseDone (s : State) (block : Nat) (ok : Bool) : State :=
  whenUp s (fun s =>
    if !thas s.flt.blocks block then s
    else
      let x := blockOf s block
      if !ok then reprogram (retireBlock (modBlock s block (fun x => { x with erasing := false, moving := false })) block) (· == block)
      else
        let s1 := modBlock s block (fun x => { x with erases := x.erases + 1, reads := 0 })
        if x.erasing then
          let s2 := modBlock s1 block (fun x => { x with erasing := false, moving := false, next := 0, clean := true })
          mergeAll (moveRest (if x.leaving then retireBlock s2 block else s2))
        else s1)

/-! ### Collection, levelling, calibration, failure -/

/-- Blocks in use that can be collected: written, and not being moved. -/
def usedBlocks (s : State) : Tbl FltBlock :=
  s.flt.blocks.filter (fun e => decide (0 < e.2.next) && !e.2.bad && !e.2.moving && !s.flt.progs.any (fun p => p.block == e.1))

/-- Valid units of a block. -/
def validUnits (s : State) (b : Nat) : Nat := ((tvals s.flt.map).filter (fun m => m.block == b)).length

/-- GARBAGE_COLLECTION (R324, R325): the full block with the fewest valid units, the older on a tie. -/
def garbageCollection (s : State) : State :=
  whenUp s (fun s =>
    if !fltReady s then s
    else
      match minBy (fun e => validUnits s e.1 * 2 ^ 64 + e.2.age) ((usedBlocks s).filter (fun e => e.2.next == s.flt.blockUnits)) with
      | some e => moveBlock s e.1
      | none => s)

/-- STATIC_LEVELLING (R322): when erase counts in use differ by more than WEAR_DELTA, the least-erased block's data moves. -/
def staticLevelling (s : State) : State :=
  whenUp s (fun s =>
    if !fltReady s then s
    else
      let es := (usedBlocks s).map (fun e => e.2.erases)
      match minBy (fun e => e.2.erases) (usedBlocks s) with
      | some e => if e.2.erases + rd s F.FLT_CFG_WEAR_DELTA < es.foldl max 0 then moveBlock s e.1 else s
      | none => s)

/-- ZQ_CALIBRATION (R317). -/
def zqCalibration (s : State) : State :=
  whenUp s (fun s => if fltReady s then emits s ((chansUp s).map (fun c => Output.onfi c .zq 0 0)) else s)

/-- FLASH_CHANNEL_FAIL (R327): outstanding reads of the channel return FLT_UNCORR, and its programs go to other channels. -/
def flashChannelFail (s : State) (chan : Nat) : State :=
  whenUp s (fun s =>
    if 16 ≤ chan ∨ chanUp s chan = false then s
    else
      let mine := s.flt.reads.filter (fun r => fltChan r.block == chan)
      let s1 := modFlt (chanFailed s chan) (fun t => { t with reads := t.reads.filter (fun r => fltChan r.block != chan) })
      reprogram (mine.foldl (fun s r => giveSector s r none) s1) (fun b => fltChan b == chan))

end Sys2Proof.Machine
end

