-- ==== Sys2Proof/Machine/GthSum.lean ====
section
/-! DEFINITION. Pooled sums and pre-sums of the gather unit: exact where no addition rounds, else a free value within the bound that
the manual states, if it states one (R286, R289). -/

namespace Sys2Proof.Machine

open Sys2Proof

/-- A finite FP32 value in units of 2^-149; none for an infinity or a NaN. -/
def f32Fix (x : F32) : Option Int :=
  match f32Val x with
  | .fin neg m e => some (scaledInt neg m e (-149))
  | _ => none

/-- A product of values in units of 2^(-149 k), for k factors. -/
def fixProd (xs : List F32) : Int := xs.foldl (fun a x => a * (f32Fix x).getD 0) 1

/-- Trailing zero bits of a number; a large number for zero. -/
def trailing (n : Nat) : Nat := if n = 0 then 4096 else Nat.log2 (n ^^^ (n &&& (n - 1)))

/-- Sum of the magnitudes of a list of integers. -/
def magSum (ts : List Int) : Nat := sumNat (ts.map Int.natAbs)

/-- Whether every sum of some of the terms, in units of 2^-q, is an FP32 value, so that no order of FP32 additions rounds. -/
def exactSet (q : Nat) (ts : List Int) : Bool :=
  let g := ts.foldl (fun a t => min a (trailing t.natAbs)) 4096
  decide (q ≤ g + 149) && decide (magSum ts ≤ 2 ^ (g + 24)) && decide (magSum ts < 2 ^ (q + 128))

/-- A product as FP32 arithmetic forms it, with its special values (R36). -/
def f32Prod (xs : List F32) : F32 := xs.foldl f32Mul 0x3F800000#32

/-- The sum of special values among products: NaN or an infinity; none when every product is finite. -/
def specialSum (ps : List (List F32)) : Option F32 :=
  let bad := (ps.filter (fun p => p.any (fun x => (f32Fix x).isNone))).map f32Prod
  match bad with
  | [] => none
  | x :: xs => some (xs.foldl f32Add x)

/-- A pooled element (R286): terms weight × value, `n` indices; within (n + 1) 2^-24 Σ|w||x| of the exact sum. -/
def poolSum (id n : Nat) (weights : List F32) (terms : List (List F32)) : F32 :=
  match specialSum terms with
  | some x => x
  | none =>
    let ts := terms.map fixProd
    let e : Int := ts.foldl (· + ·) 0
    if exactSet 149 (weights.map (fun w => fixProd [w])) && exactSet 298 ts then toF32 e (-298)
    else
      let b : Int := ((n + 1) * magSum ts / 2 ^ 24 : Nat)
      let x := toF32 (e + max (-b) (min b (Config.gthError id))) (-298)
      match f32Fix x with
      | some v => if (v * 2 ^ 149 - e).natAbs ≤ b.natAbs then x else toF32 e (-298)
      | none => toF32 e (-298)

/-- An element of a pre-sum (R289): SCALE × Σ weight × gradient. -/
def preSum (id : Nat) (scale : F32) (weights : List F32) (terms : List (List F32)) : F32 :=
  let full := terms.map (fun t => scale :: t)
  match specialSum full with
  | some x => x
  | none =>
    let ts := full.map fixProd
    if exactSet 149 (weights.map (fun w => fixProd [w])) && exactSet 298 (terms.map fixProd) && exactSet 447 ts then
      toF32 (ts.foldl (· + ·) 0) (-447)
    else Config.gthSum id

end Sys2Proof.Machine
end

