-- ==== Sys2Proof/Machine/Att.lean ====
section
/-! DEFINITION. Attention: bindings and profiles, masks, member partials, their merge, and the cache pool (R230–R251). -/

namespace Sys2Proof.Machine

open Sys2Proof

/-! ### Bindings and profiles (R232–R234) -/

/-- The checks of R233 on a binding with these fields. -/
def bindOk (s : State) (j nl model : Nat) : Bool :=
  let p0 := profOf s j 0
  (List.range nl).all (fun l =>
    let p := profOf s j l
    rdi s F.ATT_PROF_W0_VALID p == 1 && rdi s F.ATT_PROF_W0_DIM p == rdi s F.ATT_PROF_W0_DIM p0
      && rdi s F.ATT_PROF_W0_GROUP_LOG2 p == rdi s F.ATT_PROF_W0_GROUP_LOG2 p0) &&
  (List.range 16).all (fun i => i == j || rdi s F.ATT_BIND_EN i == 0 || rdi s F.ATT_BIND_MODEL i != model)

/-- ATT_BIND_ENABLE (R233): a write of EN = 1 with the binding's other fields, which EN = 1 protects. -/
def attBindEnable (s : State) (j : Nat) (w : Word) : State :=
  ofForm (bit w 63 && decide (j < 16)) s (bar0 s (fun s =>
    if rdi s F.ATT_BIND_EN j = 1 then s
    else
      let s1 := wri (wri s F.ATT_BIND_NLAYERS_M1 j (bits w 23 16)) F.ATT_BIND_MODEL j (bits w 15 0)
      if bindOk s1 j (bits w 23 16 + 1) (bits w 15 0) then wri (wri s1 F.ATT_BIND_EN j 1) F.ATT_BIND_ERR j 0
      else wri s1 F.ATT_BIND_ERR j 1))

/-- Whether a resident request uses a model as its main or stand-in model (R233). -/
def modelInUse (s : State) (m : Nat) : Bool := (tvals s.sch.reqs).any (fun r => r.model == m || r.standin == some m)

/-- ATT_BIND_DISABLE (R233): a write of EN = 0, ignored while a resident request uses the model. -/
def attBindDisable (s : State) (j : Nat) (w : Word) : State :=
  ofForm (!bit w 63 && decide (j < 16)) s (bar0 s (fun s =>
    if rdi s F.ATT_BIND_EN j = 0 then
      wri (wri s F.ATT_BIND_NLAYERS_M1 j (bits w 23 16)) F.ATT_BIND_MODEL j (bits w 15 0)
    else if modelInUse s (rdi s F.ATT_BIND_MODEL j) then s
    else wri s F.ATT_BIND_EN j 0))

/-- The value a write would leave in a register whose fields are all writable (R543, R544): a 32-bit write changes its
half. -/
def halfWritten (old : Word) (a : RegAccess) (w : Word) : Word :=
  if a.size = 8 then w
  else if a.off % 8 = 0 then setFld old 0 32 (bits w 31 0)
  else setFld old 32 32 (bits w 31 0)

/-- Whether an FP32 code is a finite value above 1 (R234). -/
def f32AboveOne (x : Nat) : Bool := decide (0x3F800000 < x) && decide (x < 0x7F800000)

/-- Whether R234 ignores a write that would leave this word 0. -/
def profBad (v : Word) : Bool :=
  bit v 0 &&
    (bits v 3 2 == 3 || bits v 8 7 == 3 || decide (5 < bits v 6 4)
      || (bits v 8 7 == 1 && (bits v 31 9 == 0 || decide (4194304 < bits v 31 9)))
      || (bit v 1 && !f32AboveOne (bits v 63 32)))

/-- Whether some layer of an enabled binding names a profile (R233). -/
def profInUse (s : State) (p : Nat) : Bool :=
  (List.range 16).any (fun j => rdi s F.ATT_BIND_EN j == 1 && (List.range (layersOf s j)).any (fun l => profOf s j l == p))

/-- Whether an access is aligned and of 32 or 64 bits (R543). -/
def accessForm (a : RegAccess) : Bool := (a.size == 4 || a.size == 8) && a.off % a.size == 0

/-- ATT_PROF_WRITE (R234, R544): judged on the value it would leave. -/
def attProfWrite (s : State) (a : RegAccess) (w : Word) : State :=
  let off := a.off / 8 * 8
  let p := (off - 0x91000) / 16
  ofForm (accessForm a && within off 8 0x91000 0x91400) s (bar0 s (fun s =>
    if profInUse s p then s
    else if off % 16 = 0 then
      let v := halfWritten (s.reg off) a w
      if profBad v then s else s.setReg off v
    else if a.size = 4 ∧ a.off % 8 ≠ 0 then s
    else
      let sc := bits w 31 0
      if 0x00800000 ≤ sc ∧ sc < 0x7F800000 then s.setReg off (at' 0 32 sc) else s))

/-! ### Masks (R235–R237) -/

/-- The range [lo, hi] that a profile's mask gives a row at position `i`; `p` is the first turn's length. -/
def maskRange (mask window i p : Nat) : Nat × Nat :=
  if mask = 1 then (i + 1 - window, i)
  else if mask = 2 ∧ i < p then (0, p - 1)
  else (0, i)

/-- Whether tree node `t` sees node `u` (R237). -/
def nodeSees (mask window : Nat) (words : List Word) (pos : List Nat) (t u : Nat) : Bool :=
  decide (u ≤ t) && (u == t || bit (wordAt words t) u) && (mask != 1 || decide (pos.getD t 0 < pos.getD u 0 + window))

/-- Positions of [lo, hi) on a page. -/
def onPage (lo hi i : Nat) : Nat := min hi (256 * i + 256) - max lo (256 * i)

/-- The visible positions that a row finds on this controller's pages, as (pages touched, positions): `held` says which
page indexes lie here, `lim` is one past the last committed position it may see. -/
def seenHere (held : Nat → Bool) (lo lim : Nat) : Nat × Nat :=
  if lim ≤ lo then (0, 0)
  else
    let ps := ((List.range ((lim - 1) / 256 + 1 - lo / 256)).map (fun i => lo / 256 + i)).filter held
    (ps.length, sumNat (ps.map (onPage lo lim)))

/-! ### Partials and their merge (R245–R247) -/

/-- An empty partial (R244). -/
def Partial.empty (dim : Nat) : Partial := ⟨l32Zero, 0, List.replicate dim 0, 0, 0, 0, false, false, 0⟩

/-- The merge of R245; whether a partial was flushed. -/
def mergePartial (p q : Partial) : Partial × Bool :=
  let span (x : Partial) : Partial := { x with
    first := if p.count = 0 then q.first else if q.count = 0 then p.first else min p.first q.first
    upto := max p.upto q.upto
    numeric := p.numeric || q.numeric
    merged := p.merged + q.merged }
  if q.max = l32Zero then (span p, false)
  else if p.max = l32Zero then (span q, false)
  else
    let (a, b) := if lLt 32 p.max q.max then (q, p) else (p, q)
    let n := p.count + q.count
    if 24 * 65536 < signed 32 a.max - signed 32 b.max then (span { a with count := n, flushed := true }, true)
    else
      let k : Int := signed 32 a.max / 65536 - signed 32 b.max / 65536
      (span { a with
        count := n
        den := f32Add a.den (f32Scale b.den (-k))
        num := (a.num.zip b.num).map (fun x => f32Add x.1 (f32Scale x.2 (-k)))
        flushed := a.flushed || b.flushed }, false)

/-- FP32 division, rounded to nearest even (R245): the quotient to 64 bits more than any mantissa, with a sticky bit. -/
def f32Div (x y : F32) : F32 :=
  let neg := x.getLsbD 31 != y.getLsbD 31
  match f32Val x, f32Val y with
  | .nan, _ => f32NaN
  | _, .nan => f32NaN
  | .inf _, .inf _ => f32NaN
  | .inf _, _ => BitVec.ofNat 32 (withSign fmtF32 neg 0x7F800000)
  | .fin _ _ _, .inf _ => BitVec.ofNat 32 (withSign fmtF32 neg 0)
  | .fin _ m e, .fin _ n g =>
    if n = 0 then (if m = 0 then f32NaN else BitVec.ofNat 32 (withSign fmtF32 neg 0x7F800000))
    else
      let q := (m <<< 64) / n
      let v := 2 * q + (if (m <<< 64) % n = 0 then 0 else 1)
      BitVec.ofNat 32 (withSign fmtF32 neg (narrowMag fmtF32 v (e - g - 65)).1)

/-- The vector a row's partial finishes to, and whether it raises NUMERIC (R245). -/
def finishPartial (p : Partial) : List F32 × Bool :=
  if p.den.toNat % 2 ^ 31 = 0 then (p.num.map (fun _ => 0), true) else (p.num.map (fun x => f32Div x p.den), p.numeric)

/-- Key of a row: request, layer, query head, query row. -/
def rowIndex (req layer qhead qrow : Nat) : Nat := ((req * 256 + layer) * 1024 + qhead) * 128 + qrow

/-- The words of a partial record (R247) before its NUM values. -/
def partialWords (req layer qhead qrow : Nat) (p : Partial) (st : Status) : List Word :=
  [at' 0 48 req, mkWord [(0, 8, layer), (8, 10, qhead), (18, 7, qrow), (25, 1, p.flushed.toNat), (32, 32, p.max)],
    mkWord [(0, 32, p.den.toNat), (32, 23, p.count)], mkWord [(0, 23, p.first), (23, 23, p.upto), (48, 16, st.toNat)]]

/-- NUM values two to a word. -/
def numWords (xs : List F32) : List Word := bytesWords (ceilDiv xs.length 2) (xs.flatMap (fun x => natBytes 4 x.toNat))

/-- STATUS of a member's own partial: NUMERIC of ATT or nothing (R247). -/
def partialStatus (p : Partial) : Status := if p.numeric then 0x07E0 else St.OK

/-! ### Cache controllers of a prefix (R249, R422) -/

/-- The slot of a CACHE group that holds page `i` of layer `l`, head `h` (R422). -/
def cacheSlot (n h hs l i : Nat) : Nat := (i + h + l * hs) % n

/-- The nodes of the outside holder that hold pages of one layer and head of a request's prefix, by slot. -/
def cacheNodes (s : State) (r : Req) (layer head : Nat) : List Nat :=
  match r.outside with
  | none => []
  | some g =>
    let n := (members s.dtm.map g).length
    if n = 0 then []
    else
      ((List.range (min n (ceilDiv r.prefixLen 256))).map (fun i => cacheSlot n head (kvHeads s) layer i)).dedup.filterMap
        (fun k => slotNode s.dtm.map g k)

/-- Records a row's merge home awaits: one from each member of the KV group, one from each cache controller (R246). -/
def awaited (s : State) (r : Req) (layer head : Nat) : Nat :=
  shareOf (groupSize s) (kvHeads s) + (cacheNodes s r layer head).length

/-! ### Steps that commit nothing (R240, R251, R271) -/

/-- A request that commits nothing in this step. -/
def skipStep (s : State) (req : Nat) : State :=
  { s with kva := { s.kva with skip := if s.kva.skip.contains req then s.kva.skip else s.kva.skip ++ [req] } }

/-! ### Merging at the home -/

/-- A partial merged into its row at the merge home, and the row finished once every partial is in (R245, R246). -/
def mergeRow (s : State) (r : Req) (req layer qhead qrow : Nat) (p : Partial) : State :=
  let k := rowIndex req layer qhead qrow
  let head := qhead / kvGroup s
  let old := (tget s.att.rows k).getD (Partial.empty p.num.length)
  let m := mergePartial old { p with merged := 1 }
  let s1 := if m.2 then bump s F.ATT_FLUSH_CNT_COUNT else s
  if awaited s r layer head ≤ m.1.merged then
    let f := finishPartial m.1
    let s2 := { s1 with att := { s1.att with rows := tdel s1.att.rows k, results := tset s1.att.results k f.1 } }
    if f.2 then raiseNumeric s2 req 0x07E0 else s2
  else { s1 with att := { s1.att with rows := tset s1.att.rows k m.1 } }

/-! ### The member's pass (R240, R243, R244, R248) -/

/-- The member partial of one row: COUNT and range exact; maximum, sums and flushes are free values, within what R244 and
R245 say of them. -/
def freePartial (n dim pages count first upto : Nat) : Partial × Nat :=
  if count = 0 then ({ Partial.empty dim with first := first, upto := upto }, 0)
  else
    let v := Config.attention n
    let mx := (v 0).toNat
    if mx = l32Zero then ({ Partial.empty dim with first := first, upto := upto, numeric := (v 2).getLsbD 0 }, 0)
    else
      let d := v 1
      let den := if 0x3F800000 ≤ d.toNat ∧ d.toNat < 0x7F800000 then d else 0x3F800000
      let flushes := (v 3).toNat % max 1 pages
      (⟨mx, den, (List.range dim).map (fun x => v (4 + x)), count, first, upto, decide (0 < flushes), (v 2).getLsbD 0, 0⟩, flushes)

/-- Whether a row of a request sees an entry that is not in HBM, or that cannot be read, on this member's pages (R240): the
page's key. -/
def absentPage (s : State) (req layer head lo lim : Nat) (standin : Bool) : Option (Nat × Bool) :=
  if lim ≤ lo then none
  else
    ((List.range ((lim - 1) / 256 + 1 - lo / 256)).map (fun i => lo / 256 + i)).findSome? (fun i =>
      let k := modelPage req layer head i standin
      let e := pteOf s k
      if !holdsPage s head i then none
      else if e.state != 1 then some (k, false)
      else if (readRefusal s (frameAddr s e.frame) (frameSize e.cls)).isSome || (readRefusal s (scaleAddr s e.frame) 2048).isSome then
        some (k, true)
      else none)

/-- A row's mask as its layer's profile gives it: MASK and WINDOW. -/
def rowMask (s : State) (model layer : Nat) : Nat × Nat :=
  match bindOf s model with
  | some j => (rdi s F.ATT_PROF_W0_MASK (profOf s j layer), rdi s F.ATT_PROF_W0_WINDOW (profOf s j layer))
  | none => (0, 0)

/-- First visible position and one past the last committed position that a row sees, prefix positions held outside
excluded from the member's own share. -/
def rowRange (r : Req) (mw : Nat × Nat) (x : PassRow) : Nat × Nat :=
  let g := maskRange mw.1 mw.2 x.pos r.firstTurn
  let lim := match x.node with
    | some _ => min (g.2 + 1) r.committed
    | none => g.2 + 1
  (max g.1 r.prefixLen, lim)

/-- One row's member partial, merged here or sent to its merge home (R231, R244, R248 step 5). -/
def passRow (s : State) (p : PassKey) (r : Req) (model dim : Nat) (standin : Bool) (x : PassRow) : State :=
  let mw := rowMask s model p.layer
  let g := rowRange r mw x
  let here := seenHere (fun i => holdsPage s p.head i && (pteOf s (modelPage p.req p.layer p.head i standin)).state == 1) g.1 g.2
  let tree := match x.node with
    | some t => ((List.range 64).filter (fun u => nodeSees mw.1 mw.2 p.mask p.nodePos t u && holdsPage s p.head ((r.committed + u) / 256))).length
    | none => 0
  let upto := match x.node with
    | some t => r.committed + t + 1
    | none => g.2
  let f := freePartial s.free dim here.1 (here.2 + tree) g.1 upto
  let miss := (Config.attention s.free 2).toNat / 2 % (here.1 * 32 + 1)
  let s1 := bumpBy (bumpBy (tickFree s) F.ATT_FLUSH_CNT_COUNT f.2) F.ATT_PC_MISS_CNT_COUNT miss
  let home := memberAt s p.req (querySlot (groupSize s) (kvHeads s) (kvGroup s) x.qhead)
  if home = some (self s) then mergeRow s1 r p.req p.layer x.qhead x.qrow f.1
  else match home with
    | some n => send s1 n 1 .partial_ (partialWords p.req p.layer x.qhead x.qrow f.1 (partialStatus f.1) ++ numWords f.1.num)
    | none => s1

/-- Frames of a request's layer and head that this member reads are stamped (R217). -/
def stampRead (s : State) (req layer head : Nat) : State :=
  (s.kva.ptes.filter (fun e => pageReq e.1 == req && pageLh e.1 == layer * 256 + head && e.2.state == 1)).foldl
    (fun s e => stampFrame s e.2.frame) s

/-- The partial request to a cache controller for the rows whose merge home this member is (R249). -/
def partialAsk (s : State) (p : PassKey) (r : Req) (model dim : Nat) (rows : List PassRow) (node : Nat) : State :=
  let tag := s.att.nextTag
  let hdr : List Word :=
    [mkWord [(0, 48, p.req), (48, 16, model)],
     mkWord [(0, 8, p.layer), (8, 8, p.head), (16, 9, rows.length), (32, 32, epoch s)],
     mkWord [(0, 23, 0), (23, 23, r.prefixLen)],
     at' 0 52 (stageDevice + (32 + 4 * dim) * 512 * (tag % 128)),
     mkWord [(0, 20, self s), (32, 32, tag)], 0, 0, 0]
  let s1 := { s with att := { s.att with
    nextTag := (tag + 1) % 2 ^ 32
    asks := tset s.att.asks tag ⟨p.req, p.layer, p.head, node, rows.length⟩ } }
  send s1 node 2 .partial_ (hdr ++ rows.flatMap (fun x =>
    mkWord [(0, 10, x.qhead), (10, 7, x.qrow), (17, 23, x.pos)] :: numWords x.query))

/-- ATTENTION_PASS (R248): each row's member partial; before it, an absent or unreadable page makes the request commit nothing
in the step (R240). -/
def attentionPass (s : State) (p : PassKey) : State :=
  whenUp s (fun s =>
    match reqOf s p.req with
    | none => s
    | some r =>
      if s.kva.skip.contains p.req then s
      else
        let standin := runsStandin s p.req
        let model := if standin then r.standin.getD r.model else r.model
        let dim := modelDim s model
        let mw := rowMask s model p.layer
        let bad := if role s = 3 then none
          else p.rows.findSome? (fun x =>
            let g := rowRange r mw x
            absentPage s p.req p.layer p.head g.1 (min g.2 r.committed) standin)
        match bad with
        | some (k, lost) =>
          let s1 := if lost then losePage s k else s
          openEvent (skipStep s1 p.req) .error St.ATT_PAGE_ABSENT noUnit p.req r.key.ctx
        | none =>
          let s1 := p.rows.foldl (fun s x => passRow s p r model dim standin x) (stampRead s p.req p.layer p.head)
          let mine := p.rows.filter (fun x =>
            memberAt s p.req (querySlot (groupSize s) (kvHeads s) (kvGroup s) x.qhead) == some (self s))
          if mine.isEmpty then s1
          else (cacheNodes s r p.layer p.head).foldl (fun s n => partialAsk s p r model dim mine n) s1)

/-! ### Records that arrive (R247, R251) -/

/-- Whether a partial record breaks R247's layout. -/
def partialBad (w : List Word) : Bool :=
  bits (wordAt w 0) 63 48 != 0 || bits (wordAt w 1) 31 26 != 0 || bits (wordAt w 2) 63 55 != 0 || bits (wordAt w 3) 47 46 != 0
    || (bits (wordAt w 1) 63 32 != l32Zero &&
        !(decide (0x3F800000 ≤ bits (wordAt w 2) 31 0) && decide (bits (wordAt w 2) 31 0 ≤ 0x7F800000)))

/-- A partial of a cache controller that fails or is missing (R251): the request commits nothing in this step, and the home is
asked where the status says so. -/
def failedPartial (s : State) (req : Nat) (st : Status) : State :=
  let s1 := skipStep s req
  if st = St.ATT_NOT_HELD ∨ st = St.DTM_STALE_MAP then askHome s1 req else s1

/-- PARTIAL_RECORD (R247): checked, and merged at its home; one with `tag` answers a request to the cache pool (R249, R251). -/
def partialRecord (s : State) (tag : Option Nat) (words : List Word) (num : List (BitVec 32)) : State :=
  whenUp s (fun s =>
    let req := bits (wordAt words 0) 47 0
    let st : Status := BitVec.ofNat 16 (bits (wordAt words 3) 63 48)
    match reqOf s req with
    | none => s
    | some r =>
      if partialBad words then
        let s1 := record s St.ATT_BAD_PREQ noUnit req r.key.ctx (Config.eventDetail (2 * s.out.length)) (Config.eventDetail (2 * s.out.length + 1))
        skipStep s1 req
      else if st ≠ St.OK ∧ st ≠ 0x07E0 then failedPartial s req st
      else
        let w1 := wordAt words 1
        let p : Partial := ⟨bits w1 63 32, BitVec.ofNat 32 (bits (wordAt words 2) 31 0), num, bits (wordAt words 2) 54 32,
          bits (wordAt words 3) 22 0, bits (wordAt words 3) 45 23, bit w1 25, st == 0x07E0, 0⟩
        let s1 := match tag with
          | some t =>
            let s' := bump s F.ATT_REMOTE_CNT_COUNT
            match tget s.att.asks t with
            | some a =>
              { s' with att := { s'.att with asks := if a.rows ≤ 1 then tdel s'.att.asks t else tset s'.att.asks t { a with rows := a.rows - 1 } } }
            | none => s'
          | none => s
        mergeRow s1 r req (bits w1 7 0) (bits w1 17 8) (bits w1 24 18) p)

/-- PARTIAL_REPLY_TIMEOUT (R251): the request commits nothing in the step, and ATT_REMOTE_TIMEOUT is posted. -/
def partialReplyTimeout (s : State) (req tag : Nat) : State :=
  whenUp s (fun s =>
    match tget s.att.asks tag with
    | some a =>
      if a.req ≠ req then s
      else
        let ctx := (reqOf s req).elim 0 (fun r => r.key.ctx)
        openEvent (skipStep { s with att := { s.att with asks := tdel s.att.asks tag } } req) .error St.ATT_REMOTE_TIMEOUT noUnit req ctx
    | none => s)

/-! ### The cache controller (R250) -/

/-- Pages of [first, upto) that lie on this CACHE slot (R422). -/
def cachePages (s : State) (layer head first upto : Nat) : List Nat :=
  if upto ≤ first then []
  else
    ((List.range ((upto - 1) / 256 + 1 - first / 256)).map (fun i => first / 256 + i)).filter (fun i =>
      cacheSlot (groupSize s) head (kvHeads s) layer i == ownSlot s)

/-- R250's checks, in their order: the status every entry gets when one fails. -/
def partialCheck (s : State) (hdr : List Word) : Option Status :=
  let w := wordAt hdr
  let req := bits (w 0) 47 0
  let first := bits (w 2) 22 0
  let upto := bits (w 2) 45 23
  let n := bits (w 1) 24 16
  let es := (cachePages s (bits (w 1) 7 0) (bits (w 1) 15 8) first upto).map (fun i =>
    (pteOf s (modelPage req (bits (w 1) 7 0) (bits (w 1) 15 8) i false)).state)
  match epochRule s (bits (w 1) 63 32) with
  | some st => some st
  | none =>
    if bits (w 1) 31 25 ≠ 0 ∨ bits (w 2) 63 46 ≠ 0 ∨ bits (w 3) 63 52 ≠ 0 ∨ bits (w 4) 31 20 ≠ 0 ∨ w 5 ≠ 0 ∨ w 6 ≠ 0 ∨ w 7 ≠ 0
        ∨ n = 0 ∨ 512 < n ∨ upto ≤ first then some St.ATT_BAD_PREQ
    else if (bindOf s (bits (w 0) 63 48)).isNone then some St.ATT_NO_PROFILE
    else if es.any (· == 0) then some St.ATT_NOT_HELD
    else if es.any (fun x => x == 3 || x == 4) then some St.KVA_PAGE_LOST
    else if es.any (· == 2) then some St.ATT_PAGE_COLD
    else none

/-- One entry of a partial request answered (R250): QHEAD, QROW and POS of its first word. -/
def answerEntry (s : State) (hdr : List Word) (dim : Nat) (entry : Word) (fail : Option Status) : State :=
  let w := wordAt hdr
  let req := bits (w 0) 47 0
  let layer := bits (w 1) 7 0
  let head := bits (w 1) 15 8
  let first := bits (w 2) 22 0
  let upto := bits (w 2) 45 23
  let reply (s : State) (p : Partial) (st : Status) : State :=
    send s (bits (w 4) 19 0) 2 .partialReply (at' 32 32 (bits (w 4) 63 32) ::
      partialWords req layer (bits entry 9 0) (bits entry 16 10) p st ++ numWords p.num)
  match fail with
  | some st => reply s { Partial.empty dim with first := first, upto := upto } st
  | none =>
    let mw := rowMask s (bits (w 0) 63 48) layer
    let root := tget s.kva.roots req
    let g := maskRange mw.1 mw.2 (bits entry 39 17) (root.elim 0 (fun r => r.committed))
    let lim := min (min (g.2 + 1) upto) (root.elim 0 (fun r => r.committed))
    let here := seenHere (fun i => (cachePages s layer head first upto).contains i) (max g.1 first) lim
    let f := freePartial s.free dim here.1 here.2 first upto
    reply (bumpBy (tickFree s) F.ATT_FLUSH_CNT_COUNT f.2) f.1 (partialStatus f.1)

/-- PARTIAL_REQUEST (R250): a cache controller answers every entry, with the first failure or with its partial. -/
def partialRequest (s : State) (hdr entries : List Word) : State :=
  whenUp s (fun s =>
    let w := wordAt hdr
    let req := bits (w 0) 47 0
    let dim := modelDim s (bits (w 0) 63 48)
    let fail := partialCheck s hdr
    let n := bits (w 1) 24 16
    let sz := 1 + dim / 2
    let s1 := if fail = some St.DTM_STALE_MAP then bump s F.DTM_STALE_CNT_COUNT else s
    let s2 := if fail = some St.ATT_PAGE_COLD then bump s1 F.ATT_COLD_CNT_COUNT else s1
    let g := eGroup (mapGet s.dtm.map (bits (w 4) 19 0))
    let s3 := if (missing s2 req).isEmpty || s2.att.told.contains (req, g) || g == ownGroup s then s2
      else notifyOwner { s2 with att := { s2.att with told := s2.att.told ++ [(req, g)] } } req g
    let s4 := if fail.isNone then stampRead s3 req (bits (w 1) 7 0) (bits (w 1) 15 8) else s3
    (List.range n).foldl (fun s e => answerEntry s hdr dim (wordAt entries (sz * e)) fail) s4)

end Sys2Proof.Machine
end

