-- ==== Sys2Proof/Machine/Spares.lean ====
section
/-! DEFINITION. The retirement list and the replacement flag (R514–R518). -/

namespace Sys2Proof.Machine

open Sys2Proof

/-- Cores in a state. -/
def coresIn (s : State) (st : CoreSt) : Nat := (s.mxe.cores.filter (fun c => c.st == st)).length

/-- MXE_STAT.ACTIVE: occupied slots (R175). -/
def activeCores (s : State) : Nat := (s.mxe.cores.filter (fun c => c.slot != 0x7F)).length

/-- Whether REPLACE is due (R516). -/
def replaceDue (s : State) : Bool :=
  (coresIn s .spare == 0 && decide (activeCores s < 96))
    || (List.range 8).any (fun k => (List.range 64).all (fun i => ((tget s.mem.pcs (64 * k + i)).elim false (fun p => p.retired))))
    || decide (32 < ((tvals s.mem.pcs).filter (fun p => p.retired)).length)
    || decide (8 < ((tvals s.ras.retire).filter (fun r => r.kind == 5)).length)
    || decide (256 ≤ s.ras.retire.length)

/-- REPLACE set, with its ERROR event, the first time it is due (R516). -/
def checkReplace (s : State) : State :=
  if s.ras.replace || !replaceDue s then s
  else openEvent { s with ras := { s.ras with replace := true } } .error St.RAS_REPLACE noUnit 0 0

/-- A unit put on the retirement list. Kinds are those of R506, with 16 more for a row of a pseudo-channel (19) or of a macro (21)
that waits for its repair at a reset, and 32 more for a repaired row of a macro (37). A full list writes a RETIRE record with RAS_RETIRE_FULL (R518). -/
def addRetire (s : State) (kind unit row : Nat) : State :=
  if (tvals s.ras.retire).any (fun r => r.kind == kind && r.unit == unit && r.row == row) then s
  else
    match firstFree 256 (fun i => !thas s.ras.retire i) with
    | some i => checkReplace { s with ras := { s.ras with retire := tset s.ras.retire i ⟨kind, unit, row⟩ } }
    | none => checkReplace (recordRetire s St.RAS_RETIRE_FULL ⟨kind % 16, unit⟩ row)

end Sys2Proof.Machine
end

