-- ==== Sys2Proof/Machine/Mxe.lean ====
section
/-! DEFINITION. The matrix engine: images, kernels, runs, checksums, core states (R151–R176), and the coded tensors that
an image names (R179, R199). -/

namespace Sys2Proof.Machine

open Sys2Proof

/-! ### Formats and sizes (R37, R151, R158) -/

/-- Bits of an element of a format; an MX element without its block's scale. -/
def fmtBits : Nat → Nat
  | 0 => 16
  | 3 => 6
  | 4 => 6
  | 5 => 4
  | 7 => 32
  | _ => 8

/-- Whether a format is microscaled (R37). -/
def fmtMx (f : Nat) : Bool := decide (3 ≤ f) && decide (f ≤ 5)

/-- Bytes of `n` elements of a format, with a scale byte for each block of 32 of an MX format (R37). -/
def fmtBytes (f n : Nat) : Nat := ceilDiv (n * fmtBits f) 8 + if fmtMx f then ceilDiv n 32 else 0

/-- Elements a tensor stores: whole tiles of 64 × 64 in TILE64 (R160, R178). -/
def elemCount (layout rows cols : Nat) : Nat :=
  if layout = 2 then ceilDiv rows 64 * ceilDiv cols 64 * 4096 else rows * cols

/-- The local offset of a tensor's first byte (R156). -/
def tensorBase (hbm : Bool) (off : Nat) : Nat := if hbm then off else stageBase + off

/-- Kb of an operand pair: B rows of a block (R151). -/
def pairKb (a b : Nat) : Nat :=
  let k (f : Nat) : Nat := if f = 0 then 64 else if fmtMx f then 256 else 128
  min (k a) (k b)

/-- Whether AFMT and BFMT form a pair of R151 (R159). -/
def pairOk (a b : Nat) : Bool :=
  decide (a ≤ 6) && decide (b ≤ 6) && ((a == 6) == (b == 6))

/-! ### Kernel descriptors (R158) -/

/-- AFMT -/
def kA (w : List Word) : Nat := bits (wordAt w 0) 7 4
/-- BFMT -/
def kB (w : List Word) : Nat := bits (wordAt w 0) 11 8
/-- CFMT -/
def kC (w : List Word) : Nat := bits (wordAt w 0) 15 12
/-- ALAYOUT -/
def kAl (w : List Word) : Nat := bits (wordAt w 0) 17 16
/-- BLAYOUT -/
def kBl (w : List Word) : Nat := bits (wordAt w 0) 19 18
/-- CLAYOUT -/
def kCl (w : List Word) : Nat := bits (wordAt w 0) 21 20
/-- NOPS -/
def kNops (w : List Word) : Nat := bits (wordAt w 0) 26 22
/-- M -/
def kM (w : List Word) : Nat := bits (wordAt w 1) 31 0
/-- N -/
def kN (w : List Word) : Nat := bits (wordAt w 1) 63 32
/-- K -/
def kK (w : List Word) : Nat := bits (wordAt w 2) 31 0
/-- BATCH -/
def kBatch (w : List Word) : Nat := bits (wordAt w 2) 47 32
/-- KSEG -/
def kSeg (w : List Word) : Nat := bits (wordAt w 2) 55 48
/-- A stride: 4 for A, 5 for B, 6 for C -/
def kStride (w : List Word) (i : Nat) : Nat := (wordAt w i).toNat
/-- OP_i -/
def kOp (w : List Word) (i : Nat) : Word := wordAt w (16 + i)
/-- The epilogue operations. -/
def kOps (w : List Word) : List Word := (List.range (kNops w)).map (kOp w)
/-- The code of an epilogue operation. -/
def opCode (o : Word) : Nat := bits o 7 0

/-- Row-wide operations (R166). -/
def opRowWide (c : Nat) : Bool := c == 6 || c == 7 || c == 0xA || c == 0xB

/-- The bytes at which one epilogue operation breaks R166 or R167, from its first byte on. -/
def opBytes (o : Word) : List Nat :=
  let c := opCode o
  let p := bits o 31 16
  (if c = 0 ∨ 0xF ≤ c then [0] else []) ++ (if c = 7 ∧ bits o 9 8 = 3 then [1] else []) ++
    (match lowBadByte o 15 10 with | some b => [b] | none => []) ++
    (if (if c = 0xC then p != 64 && p != 128 && p != 256 else if c = 0xD then decide (2 ≤ p) else p != 0) then [2] else [])

/-- The bytes at which QUANT_OUT breaks R167, from the kernel descriptor's first byte on: each operation that may not stand where it
stands, or CFMT where no operation follows that it asks for. -/
def quantBytes (w : List Word) : List Nat :=
  let n := kNops w
  let wrong (i : Nat) : Bool :=
    if opCode (kOp w i) = 0xD then kC w == 7 || i + 1 != n else kC w != 7 && i + 1 == n
  if kC w ≠ 7 ∧ n = 0 then [1] else ((List.range n).filter wrong).map (fun i => 128 + 8 * i)

/-- Columns of C: GATE operations halve N (R166). -/
def kOutN (w : List Word) : Nat := if (kOps w).any (fun o => opCode o == 0xA || opCode o == 0xB) then kN w / 2 else kN w

/-- The bytes at which the shape breaks R160: N or K. -/
def shapeBytes (w : List Word) : List Nat :=
  (if (fmtMx (kC w) && kN w % 32 != 0)
      || ((kOps w).any (fun o => opRowWide (opCode o)) && decide (65536 < kN w))
      || (kOps w).any (fun o => opCode o == 0xC && (opBytes o).isEmpty && kN w % bits o 31 16 != 0) then [12] else []) ++
  (if (fmtMx (kA w) || fmtMx (kB w)) && kK w % 32 != 0 then [16] else [])

/-- Fields of a kernel descriptor that break R158's layout: byte offsets. -/
def kernelBytes (w : List Word) : List Nat :=
  (if bits (wordAt w 0) 3 0 = 1 then [] else [0]) ++
  (if 16 < kNops w then [2] else []) ++
  (match lowBadByte (wordAt w 0) 63 27 with | some b => [b] | none => []) ++
  (if kM w = 0 ∨ 1048576 < kM w then [8] else []) ++ (if kN w = 0 ∨ 1048576 < kN w then [12] else []) ++
  (if kK w = 0 ∨ 1048576 < kK w then [16] else []) ++ (if kBatch w = 0 then [20] else []) ++
  (match lowBadByte (wordAt w 2) 63 56 with | some b => [16 + b] | none => []) ++
  (List.range 9).flatMap (fun i => match lowBadByte (wordAt w (7 + i)) 63 0 with | some b => [8 * (7 + i) + b] | none => []) ++
  (List.range 16).flatMap (fun i => if kNops w ≤ i then
    (match lowBadByte (kOp w i) 63 0 with | some b => [128 + 8 * i + b] | none => []) else [])

/-- The bytes of a kernel descriptor at which its epilogue breaks R166 or R167. -/
def epilogueBytes (w : List Word) : List Nat :=
  (List.range (kNops w)).flatMap (fun i => (opBytes (kOp w i)).map (128 + 8 * i + ·)) ++ quantBytes w

/-- The checks of one kernel descriptor at byte `o` of an image (R158–R161, R166, R167). -/
def kernelChecks (w : List Word) (o : Nat) : List Check :=
  let bad := kernelBytes w
  [chkIn (!bad.isEmpty) St.MXE_BAD_KERNEL 0x10 (o + (least bad).getD 0),
   chkIn (decide (8 ≤ kA w)) St.MXE_BAD_FORMAT 0x10 o,
   chkIn (decide (8 ≤ kB w) || decide (8 ≤ kC w)) St.MXE_BAD_FORMAT 0x10 (o + 1),
   chkIn (kAl w == 3 || kBl w == 3 || kCl w == 3) St.MXE_BAD_FORMAT 0x10 (o + 2),
   chkIn (!pairOk (kA w) (kB w)) St.MXE_BAD_COMBO 0x10 o,
   chkIn (!(shapeBytes w).isEmpty) St.MXE_BAD_SHAPE 0x10 (o + (least (shapeBytes w)).getD 0),
   chkIn (!(epilogueBytes w).isEmpty) St.MXE_BAD_EPILOGUE 0x10 (o + (least (epilogueBytes w)).getD 0)]

/-! ### Images (R155–R157) -/

/-- NKERN -/
def imKern (im : List Word) : Nat := bits (wordAt im 0) 26 16
/-- NTENS -/
def imTens (im : List Word) : Nat := bits (wordAt im 0) 44 32
/-- MODEL -/
def imModel (im : List Word) : Nat := bits (wordAt im 0) 63 48
/-- Word `i` of tensor entry `t`. -/
def imT (im : List Word) (t i : Nat) : Word := wordAt im (8 + 4 * t + i)
/-- Kernel descriptor `j`. -/
def imK (im : List Word) (j : Nat) : List Word := (im.drop (8 + 4 * imTens im + 32 * j)).take 32
/-- THANDLE of a tensor entry -/
def teHandle (im : List Word) (t : Nat) : Nat := bits (imT im t 0) 31 0
/-- FMT -/
def teFmt (im : List Word) (t : Nat) : Nat := bits (imT im t 0) 35 32
/-- LAYOUT -/
def teLayout (im : List Word) (t : Nat) : Nat := bits (imT im t 0) 37 36
/-- CODED -/
def teCoded (im : List Word) (t : Nat) : Bool := bit (imT im t 0) 38
/-- PLACE -/
def teHbm (im : List Word) (t : Nat) : Bool := bit (imT im t 0) 39
/-- ROWS -/
def teRows (im : List Word) (t : Nat) : Nat := bits (imT im t 1) 31 0
/-- COLS -/
def teCols (im : List Word) (t : Nat) : Nat := bits (imT im t 1) 63 32
/-- Local offset of the tensor. -/
def teBase (im : List Word) (t : Nat) : Nat := tensorBase (teHbm im t) (bits (imT im t 2) 51 0)
/-- Blocks of a coded tensor (R178). -/
def blocksOf (rows cols : Nat) : Nat := ceilDiv rows 64 * ceilDiv cols 64

/-- Fields of a tensor entry that break R156's layout, as byte offsets in the entry. -/
def tensorBytes (im : List Word) (t : Nat) : List Nat :=
  (if teHandle im t = 0 then [0] else []) ++
  (match lowBadByte (imT im t 0) 63 40 with | some b => [b] | none => []) ++
  (if teRows im t = 0 ∨ 1048576 < teRows im t then [8] else []) ++ (if teCols im t = 0 ∨ 1048576 < teCols im t then [12] else []) ++
  (match lowBadByte (imT im t 2) 63 52 with | some b => [16 + b] | none => []) ++
  (match lowBadByte (imT im t 3) 63 0 with | some b => [24 + b] | none => [])

/-- The checks of a tensor entry (R156). -/
def tensorChecks (im : List Word) (t : Nat) : List Check :=
  let o := 64 + 32 * t
  let bad := tensorBytes im t
  [chkIn (decide (8 ≤ teFmt im t) || teLayout im t == 3) St.MXE_BAD_FORMAT 0x10 (o + 4),
   chkIn (teCoded im t && teLayout im t != 2) St.EXP_BAD_LAYOUT 0x10 (o + 4),
   chkIn (teCoded im t && decide (3 ≤ teFmt im t)) St.EXP_BAD_FORMAT 0x10 (o + 4),
   chkIn (!bad.isEmpty) St.MXE_BAD_KERNEL 0x10 (o + (least bad).getD 0)]

/-- A coded tensor's length of prologue and index (R181). -/
def codedHead (nb : Nat) : Nat := 0x100 + roundUp (4 * nb) 64

/-! ### Code tables (R179) -/

/-- Alphabet size of a coded format (R177). -/
def alphabet (f : Nat) : Nat := if f = 0 then 256 else if f = 1 then 16 else 32

/-- The code lengths that a prologue's bytes give (R179). -/
def tableLens (pro : List Byte) : List Nat :=
  (List.range 256).map (fun i => let b := (pro.getD (0x10 + i / 2) 0).toNat; if i % 2 = 0 then b % 16 else b / 16)

/-- Whether code lengths are complete: their Kraft sum is 1, or one symbol of length 1 (R179). -/
def lensComplete (ls : List Nat) : Bool :=
  let used := ls.filter (· != 0)
  if used.length = 1 then used == [1] else sumNat (used.map (fun l => 2 ^ (12 - l))) == 4096

/-- Whether a prologue of 256 bytes is valid for a format and a block count (R179, R199). -/
def prologueOk (pro : List Byte) (fmt nb : Nat) : Bool :=
  let w0 := BitVec.ofNat 64 (bytesNat (pro.take 8))
  let w1 := BitVec.ofNat 64 (bytesNat ((pro.drop 8).take 8))
  let ls := tableLens pro
  let lim := if bit w0 12 then 8 else 12
  bits w0 3 0 == 1 && bits w0 31 13 == 0 && bits w1 63 32 == 0 && (pro.drop 0x90).all (· == 0)
    && ls.all (fun l => decide (l ≤ lim)) && ls.foldl max 0 == bits w0 11 8
    && (ls.drop (alphabet fmt)).all (· == 0) && lensComplete ls
    && crc32c ((pro.drop 0x10).take 0xF0) == bits w1 31 0 && bits w0 7 4 == fmt && bits w0 63 32 == nb

/-- Whether a list rises strictly. -/
def rises : List Nat → Bool
  | a :: b :: r => decide (a < b) && rises (b :: r)
  | _ => true

/-- An entry of the block index, in bytes from the tensor's start (R181). -/
def indexEntry (s : State) (base b : Nat) : Nat := 64 * readNat s (base + 0x100 + 4 * b) 4

/-- BLEN64 of the block at an offset (R182). -/
def blockLen (s : State) (a : Nat) : Nat := 64 * readNat s (a + 1) 1

/-- The check of a coded tensor's prologue, index and extent (R157 step 6, R199): its length in bytes, or the status. -/
def codedCheck (s : State) (grant : Nat → Nat → Bool) (base fmt nb : Nat) : Except Status Nat :=
  match readRefusal s base (codedHead nb) with
  | some st => .error st
  | none =>
    let es := (List.range nb).map (indexEntry s base)
    if !prologueOk (readMem s base 256) fmt nb || !rises es || es.any (fun e => decide (e < codedHead nb)) then
      .error St.EXP_BAD_TABLE
    else
      let last := base + es.getLastD 0
      match readRefusal s last 64 with
      | some st => .error st
      | none =>
        let n := es.getLastD 0 + blockLen s last
        if grant base n then .ok n else .error St.MXE_HANDLE_BUSY

/-- The tensor that entry `t` of an image makes, its length being `len`. -/
def teTensor (im : List Word) (t len ctx image : Nat) : Tensor :=
  ⟨teFmt im t, teLayout im t, teCoded im t, teHbm im t, teRows im t, teCols im t, teBase im t, len, ctx, image⟩

/-- Length in bytes of tensor entry `t` as far as the image tells it: prologue and index for a coded tensor (R157). -/
def teLen (im : List Word) (t : Nat) : Nat :=
  if teCoded im t then codedHead (blocksOf (teRows im t) (teCols im t))
  else fmtBytes (teFmt im t) (elemCount (teLayout im t) (teRows im t) (teCols im t))

/-- Whether a tensor lies in its tier, where a suspect granule counts as outside HBM (R157, R475), and within a context's grants. -/
def tensorPlaced (s : State) (k : DescKey) (hbm : Bool) (a n : Nat) : Bool :=
  (if hbm then regionOk s a n else inStage a n) && localOk s k false a n

/-- The failing bytes of a KERNEL_LOAD payload (R154). -/
def loadBytes (d : Desc) : List Nat :=
  let op := dfld d 0x18 45 44
  let n := dfld d 0x18 31 0
  badAt (decide (2 ≤ op)) 0x18 44 ++ resv d 0x18 63 46 ++ resvWords d [0x20, 0x28, 0x30, 0x38] ++
    badAt (op == 1 && (n == 0 || decide (4096 < dfld d 0x18 43 32 + n))) 0x18 0

/-- The checks of a kernel image, in R157's order. -/
def imageChecks (s : State) (k : DescKey) (d : Desc) (im : List Word) : List Check :=
  let len := dfld d 0x18 31 0
  let kbase := dfld d 0x18 43 32
  let nt := imTens im
  let ts := List.range nt
  let hdr := (if bits (wordAt im 0) 3 0 = 1 then [] else [0]) ++
    (match lowBadByte (wordAt im 0) 15 4 with | some b => [b] | none => []) ++
    (if imKern im = 0 ∨ 1024 < imKern im then [2] else []) ++
    (match lowBadByte (wordAt im 0) 31 27 with | some b => [b] | none => []) ++
    (if 4096 < nt then [4] else []) ++
    (match lowBadByte (wordAt im 0) 47 45 with | some b => [b] | none => []) ++
    (match lowBadByte (wordAt im 1) 63 32 with | some b => [8 + b] | none => []) ++
    (List.range 6).flatMap (fun i => match lowBadByte (wordAt im (2 + i)) 63 0 with | some b => [16 + 8 * i + b] | none => [])
  [chkIn (!hdr.isEmpty) St.MXE_BAD_KERNEL 0x10 ((least hdr).getD 0),
   chk (len != 64 + 32 * nt + 256 * imKern im) St.MXE_BAD_KERNEL 0x18,
   chkIn (crc32c (wordsBytes ((im.drop 8).take ((len - 64) / 8))) != bits (wordAt im 1) 31 0) St.MXE_BAD_KERNEL 0x10 8] ++
  ts.flatMap (tensorChecks im) ++
  (List.range (imKern im)).flatMap (fun j => kernelChecks (imK im j) (64 + 32 * nt + 256 * j)) ++
  [chk (decide (4096 < kbase + imKern im) || (List.range (imKern im)).any (fun j => thas s.mxe.kernels (kbase + j)))
     St.MXE_HANDLE_BUSY 0x1C] ++
  ts.map (fun t => chkIn (thas s.mxe.tensors (teHandle im t) || (List.range t).any (fun u => teHandle im u == teHandle im t))
     St.MXE_HANDLE_BUSY 0x10 (64 + 32 * t)) ++
  [chkIn (imModel im != 0 && thas s.mxe.models (imModel im)) St.MXE_HANDLE_BUSY 0x10 6] ++
  ts.map (fun t => chkIn (!tensorPlaced s k (teHbm im t) (teBase im t) (teLen im t)) St.MXE_HANDLE_BUSY 0x10 (64 + 32 * t + 16)) ++
  ts.map (fun t =>
    if teCoded im t then
      match codedCheck s (tensorPlaced s k (teHbm im t)) (teBase im t) (teFmt im t) (blocksOf (teRows im t) (teCols im t)) with
      | .error st => chkIn true st 0x10 (64 + 32 * t + 16)
      | .ok _ => chkIn false St.OK 0x10 0
    else chkIn false St.OK 0x10 0)

/-- The length in bytes of tensor entry `t`, its extent for a coded one. -/
def teFull (s : State) (im : List Word) (t : Nat) : Nat :=
  if teCoded im t then
    let nb := blocksOf (teRows im t) (teCols im t)
    match codedCheck s (fun _ _ => true) (teBase im t) (teFmt im t) nb with
    | .ok n => n
    | .error _ => codedHead nb
  else teLen im t

/-- What a good image loads (R157). -/
def loadImage (s : State) (k : DescKey) (d : Desc) (im : List Word) : State :=
  let kbase := dfld d 0x18 43 32
  let img := s.mxe.nextImage
  let ks := (List.range (imKern im)).foldl (fun t j => tset t (kbase + j) ⟨imK im j, k.ctx, ctxTenant s k.ctx, img⟩) s.mxe.kernels
  let ts := (List.range (imTens im)).foldl (fun m t => tset m (teHandle im t) (teTensor im t (teFull s im t) k.ctx img)) s.mxe.tensors
  let ms := if imModel im = 0 then s.mxe.models else tset s.mxe.models (imModel im) img
  { s with mxe := { s.mxe with kernels := ks, tensors := ts, models := ms, nextImage := img + 1 } }

/-- KERNEL_LOAD with OP LOAD (R154–R161, R166, R167, R199); reserved OP values are rejected with it. -/
def kernelLoad (s : State) (k : RingKey) (d : Desc) (image : List Word) : State :=
  ofForm (dOpcode d == 0x10 && dfld d 0x18 45 44 != 1) s
    (runDesc s k d (loadBytes d)
      (fun s k => [chk ((Desc.word d 2).toNat % 64 != 0) St.HPT_BAD_ADDR 0x10,
          chk (!hostOk s k false (Desc.word d 2).toNat (dfld d 0x18 31 0)) St.HPT_PROT 0x10] ++ imageChecks s k d image)
      (fun s k id => completeOk (loadImage s k d image) id))

/-- Images whose last kernel is gone lose their tensors and model handle (R157). -/
def dropEmptyImages (s : State) : State :=
  let live (i : Nat) : Bool := s.mxe.kernels.any (fun e => e.2.image == i)
  { s with mxe := { s.mxe with
      tensors := tkeep (fun _ t => t.image == 0 || live t.image) s.mxe.tensors
      models := tkeep (fun _ i => live i) s.mxe.models } }

/-- Whether kernel handle `h` is owned by a context. -/
def ownsKernel (s : State) (c h : Nat) : Bool := (tget s.mxe.kernels h).elim false (fun x => x.ctx == c)

/-- KERNEL_LOAD with OP UNLOAD (R157). -/
def kernelUnload (s : State) (k : RingKey) (d : Desc) : State :=
  let base := dfld d 0x18 43 32
  let n := dfld d 0x18 31 0
  ofForm (dOpcode d == 0x10 && dfld d 0x18 45 44 == 1) s
    (runDesc s k d (loadBytes d)
      (fun s k => [chk (!(List.range n).all (fun i => ownsKernel s k.ctx (base + i))) St.MXE_NO_KERNEL 0x1C])
      (fun s _ id =>
        let ks := tkeep (fun h _ => !(decide (base ≤ h) && decide (h < base + n))) s.mxe.kernels
        completeOk (dropEmptyImages { s with mxe := { s.mxe with kernels := ks } }) id))

/-! ### KERNEL_RUN (R162–R164) -/

/-- KHANDLE -/
def rKernel (d : Desc) : Nat := dfld d 0x10 11 0
/-- A -/
def rA (d : Desc) : Nat := dfld d 0x10 63 32
/-- B -/
def rB (d : Desc) : Nat := dfld d 0x18 31 0
/-- C -/
def rC (d : Desc) : Nat := dfld d 0x18 63 32
/-- SLOT_s -/
def rSlot (d : Desc) (i : Nat) : Nat := fld (Desc.word d (4 + i / 2)) (32 * (i % 2)) 32
/-- M_RUN -/
def rM (d : Desc) : Nat := dfld d 0x30 31 0

/-- A kernel's words, none if it is not loaded. -/
def kernelWords (s : State) (h : Nat) : List Word := (tget s.mxe.kernels h).elim [] (fun x => x.words)

/-- Whether a tensor does not fit an operand. -/
def misfit (s : State) (h fmt layout rows cols : Nat) (stage coded : Bool) : Bool :=
  match tget s.mxe.tensors h with
  | none => true
  | some t => t.fmt != fmt || t.layout != layout || t.rows != rows || t.cols != cols || (stage && t.hbm) || (!coded && t.coded)

/-- SRC slots that a kernel's epilogue uses (R166): LAYERNORM uses SRC and SRC + 1. -/
def slotsUsed (w : List Word) : List Nat :=
  (kOps w).flatMap (fun o =>
    let c := opCode o
    let r := bits o 9 8
    if c = 7 then [r, r + 1] else if c = 1 ∨ c = 2 ∨ c = 4 ∨ c = 5 ∨ c = 6 ∨ c = 0xC then [r] else [])

/-- Whether every product of a batch of an operand lies in granted regions (R162). -/
def batchOk (s : State) (k : DescKey) (w : List Word) (h stride : Nat) (write : Bool) : Bool :=
  match tget s.mxe.tensors h with
  | none => true
  | some t => (List.range (kBatch w)).all (fun i =>
      localOk s k write (t.base + fmtBytes t.fmt (i * kStride w stride)) (fmtBytes t.fmt (elemCount t.layout t.rows t.cols)))

/-- The checks of a KERNEL_RUN (R162). -/
def runChecks (s : State) (k : DescKey) (d : Desc) : List Check :=
  let w := kernelWords s (rKernel d)
  let no (h : Nat) : Bool := h != 0 && !thas s.mxe.tensors h
  [chk (!thas s.mxe.kernels (rKernel d)) St.MXE_NO_KERNEL 0x10,
   chk ((tget s.mxe.kernels (rKernel d)).elim false (fun x => x.tenant != ctxTenant s k.ctx)) St.MXE_KERNEL_PROT 0x10,
   chk (rA d == 0) St.MXE_OPERAND_MISMATCH 0x14, chk (rB d == 0) St.MXE_OPERAND_MISMATCH 0x18,
   chk (rC d == 0) St.MXE_OPERAND_MISMATCH 0x1C,
   chk (no (rA d)) St.MXE_NO_TENSOR 0x14, chk (no (rB d)) St.MXE_NO_TENSOR 0x18, chk (no (rC d)) St.MXE_NO_TENSOR 0x1C] ++
  (List.range 4).map (fun i => chk (no (rSlot d i)) St.MXE_NO_TENSOR (0x20 + 4 * i)) ++
  [chk (misfit s (rA d) (kA w) (kAl w) (kM w) (kK w) true false) St.MXE_OPERAND_MISMATCH 0x14,
   chk (misfit s (rB d) (kB w) (kBl w) (kK w) (kN w) false true) St.MXE_OPERAND_MISMATCH 0x18,
   chk (misfit s (rC d) (kC w) (kCl w) (kM w) (kN w) false false) St.MXE_OPERAND_MISMATCH 0x1C] ++
  (List.range 4).map (fun i => chk ((slotsUsed w).contains i && rSlot d i == 0) St.MXE_OPERAND_MISMATCH (0x20 + 4 * i)) ++
  (if 1 < kBatch w then
    [chk (!batchOk s k w (rA d) 4 false) St.HPT_PROT 0x14, chk (!batchOk s k w (rB d) 5 false) St.HPT_PROT 0x18,
     chk (!batchOk s k w (rC d) 6 true) St.HPT_PROT 0x1C] else []) ++
  [chk (decide (kM w < rM d)) St.MXE_BAD_SHAPE 0x30,
   chk (activeCores s == 0) St.MXE_NO_CORES 0]

/-- EST of a kernel over `rows` rows, in CORE cycles (R164). -/
def kernelEst (s : State) (w : List Word) (rows : Nat) : Nat :=
  let kb := pairKb (kA w) (kB w)
  let load := kb / 4
  let groups := List.replicate (rows / 1024) 1024 ++ (if rows % 1024 = 0 then [] else [rows % 1024])
  let blocks := ceilDiv (kN w) 64 * ceilDiv (kK w) kb * kBatch w
  let rowOps := ((kOps w).filter (fun o => opRowWide (opCode o))).length
  ceilDiv (blocks * sumNat (groups.map (fun r => max (r + 1) load))) (max 1 (activeCores s)) + load +
    ceilDiv (rows * kN w) 6144 * rowOps

/-- Whether a sub-kernel of `rows` rows keeps to SLICE_US at 1.05 GHz, a coded B at 3/4 of the rate (R104). -/
def sliceFits (s : State) (w : List Word) (coded : Bool) (rows : Nat) : Bool :=
  let e := kernelEst s w rows
  decide ((if coded then 4 * e else 3 * e) ≤ 3 * (rd s F.SCH_PROMPT_CFG_SLICE_US * 1050))

/-- Rows of a sub-kernel: halved until it fits (R104). -/
def sliceRows (s : State) (w : List Word) (coded : Bool) : Nat → Nat → Nat
  | 0, r => r
  | n + 1, r => if r ≤ 1 ∨ sliceFits s w coded r = true then r else sliceRows s w coded n (ceilDiv r 2)

/-- Scheduler units of a kernel of class 1 or 2: sub-kernels on GENERATION and BLENDED, else one (R103, R104). -/
def kernelUnits (s : State) (w : List Word) (coded : Bool) (rows : Nat) : Nat :=
  if role s = 2 ∨ role s = 4 then ceilDiv rows (max 1 (sliceRows s w coded 21 rows)) else 1

/-- KERNEL_RUN (R162): checked, then ready as class 2 work. -/
def kernelRun (s : State) (k : RingKey) (d : Desc) : State :=
  ofForm (dOpcode d == 0x11) s
    (runDesc s k d (resv d 0x10 31 12 ++ resv d 0x30 63 32 ++ resvWords d [0x38])
      (fun s k => runChecks s k d)
      (fun s k id =>
        let w := kernelWords s (rKernel d)
        let rows := if rM d = 0 then kM w else rM d
        let coded := (tget s.mxe.tensors (rB d)).elim false (fun t => t.coded)
        let s1 := { s with mxe := { s.mxe with runs := tset s.mxe.runs id ⟨d, rKernel d, rows, 0, false, none, []⟩ } }
        addUnit s1 2 k.ctx none (.work id) (kernelUnits s w coded rows - 1)))

/-! ### Checksums (R169) -/

/-- τ × 2^24 of an operand pair, the sum of magnitudes being at least 2^24 or not (R169). -/
def tauNum (a b k : Nat) (big : Bool) : Nat :=
  if a = 6 ∧ b = 6 then (if big then 2 * (ceilDiv k 128 + 14) else 0)
  else 2 * (ceilDiv k (pairKb a b) + 14)

/-- A finite FP32 value as an integer number of 2^-149. -/
def f32Units (x : F32) : Option Int :=
  match f32Mag x with
  | some (m, e) => some ((if x.getLsbD 31 then -1 else 1) * ((m * 2 ^ (e + 149).toNat : Nat) : Int))
  | none => none

/-- Whether a sum and its checksum mismatch: |Δ| > τ × S + (K + 64) × 2^-149, without the subnormal term for small INT8
sums (R169). A sum that is not finite mismatches only where the two differ. -/
def mismatch (a b k : Nat) (p : ChecksumPair) : Bool :=
  match f32Units p.sum, f32Units p.check, f32Units p.magnitude with
  | some x, some y, some m =>
    let big := decide (2 ^ 24 * 2 ^ 149 ≤ m.natAbs)
    let sub := if a = 6 ∧ b = 6 ∧ !big then 0 else k + 64
    decide (tauNum a b k big * m.natAbs + sub * 2 ^ 24 < (x - y).natAbs * 2 ^ 24)
  | _, _, _ => p.sum != p.check

/-- Whether a unit's checksums all pass for the kernel it belongs to. -/
def sumsPass (s : State) (kernel : Nat) (ps : List ChecksumPair) : Bool :=
  let w := kernelWords s kernel
  ps.all (fun p => !mismatch (kA w) (kB w) (kK w) p)

/-! ### Cores (R170–R174) -/

/-- A core's entry. -/
def coreAt (s : State) (c : Nat) : MxCore := s.mxe.cores.getD c (MxCore.fresh .retired 0x7F)

/-- A core changed. -/
def modCore (s : State) (c : Nat) (f : MxCore → MxCore) : State :=
  { s with mxe := { s.mxe with cores := s.mxe.cores.set c (f (coreAt s c)) } }

/-- A unit passed on a core: a STRIKE clears after 2^STRIKE_LOG2 passes in a row (R171). -/
def corePass (s : State) (c : Nat) : State :=
  let lim := 2 ^ rd s F.MXE_CFG_STRIKE_LOG2
  modCore s c (fun x => { x with passes := x.passes + 1, strike := x.strike && decide (x.passes + 1 < lim) })

/-- A mismatch on a core: counted, and its run of passes ends. -/
def coreMiss (s : State) (c : Nat) : State :=
  bump (modCore s c (fun x => { x with passes := 0, mismatch := min 65535 (x.mismatch + 1) })) F.MXE_MISMATCH_CNT_COUNT

/-- A core is retired (R170): out of its slot, listed in RAS, with MXE_CHECK_FAIL; `heir` takes the slot at the boundary. -/
def coreRetire (s : State) (c : Nat) (heir : Option Nat) : State :=
  let slot := (coreAt s c).slot
  let s1 := modCore s c (fun x => { x with st := .retired, slot := 0x7F, leaving := false })
  let s2 := match heir with
    | some h => if (coreAt s1 h).st = .spare then modCore s1 h (fun x => { x with takes := some slot }) else s1
    | none => s1
  let s3 := bump s2 F.MXE_RETIRE_CNT_COUNT
  addRetire (openEvent s3 .error St.MXE_CHECK_FAIL ⟨1, c⟩ 0 0) 1 c 0

/-- A strike on a core, which retires it if it had one (R170). -/
def coreStrike (s : State) (c : Nat) (heir : Option Nat) : State :=
  if (coreAt s c).strike then coreRetire s c heir else modCore s c (fun x => { x with strike := true })

/-- A run changed. -/
def modRun (s : State) (id : Nat) (f : Run → Run) : State := { s with mxe := { s.mxe with runs := tmod s.mxe.runs id f } }

/-- Whether a core unit belongs to work that is under way: a run, or for flight 0 the running step or prompt unit. -/
def unitKnown (s : State) (flight : Nat) : Bool := if flight = 0 then s.sch.running.isSome else thas s.mxe.runs flight

/-- A unit passed: NUMERIC is noted with its run. -/
def unitPassed (s : State) (flight : Nat) (numeric : Bool) : State := modRun s flight (fun r => { r with numeric := r.numeric || numeric })

/-- The unit's kernel fails with a status, and this unit's output is never written. -/
def unitFailed (s : State) (flight unit : Nat) (st : Status) : State :=
  if flight = 0 then { s with mxe := { s.mxe with bad := some (s.mxe.bad.getD st) } }
  else modRun s flight (fun r => { r with failed := some (r.failed.getD st), lost := r.lost ++ [unit] })

/-- MXE_UNIT_DONE (R169, R170): the checksums are compared; a mismatch holds the output and queues the retry. -/
def mxeUnitDone (s : State) (flight kernel unit core : Nat) (sums : List ChecksumPair) (numeric : Bool) : State :=
  whenUp s (fun s =>
    if !unitKnown s flight || (coreAt s core).st != .active || decide (100 ≤ core) then s
    else if sumsPass s kernel sums then unitPassed (corePass s core) flight numeric
    else
      let s1 := coreMiss s core
      { s1 with mxe := { s1.mxe with retries := s1.mxe.retries ++ [⟨flight, kernel, unit, core⟩] } })

/-- The core of the next occupied slot after a core's, in ascending order (R170). -/
def nextCore (s : State) (c : Nat) : Option Nat :=
  let here := (coreAt s c).slot
  let occ := (List.range 100).filter (fun i => (coreAt s i).slot != 0x7F && i != c)
  match minBy (fun i => (coreAt s i).slot) (occ.filter (fun i => decide (here < (coreAt s i).slot))) with
  | some i => some i
  | none => minBy (fun i => (coreAt s i).slot) occ

/-- Whether a core may serve the retry of a unit of core `c`: a SPARE, or without one the next occupied slot's (R170). -/
def mayRetry (s : State) (c r : Nat) : Bool :=
  if 0 < coresIn s .spare then (coreAt s r).st == .spare else nextCore s c == some r

/-- MXE_RETRY_DONE (R170, R171): the retried unit is compared, and its outcome strikes, retires or fails. -/
def mxeRetryDone (s : State) (flight kernel unit core : Nat) (sums : List ChecksumPair) (numeric : Bool) : State :=
  whenUp s (fun s =>
    match s.mxe.retries.find? (fun r => r.flight == flight && r.kernel == kernel && r.unit == unit) with
    | none => s
    | some r =>
      if !mayRetry s r.core core then s
      else
        let s1 := { s with mxe := { s.mxe with retries := s.mxe.retries.erase r } }
        if sumsPass s kernel sums then coreStrike (unitPassed (corePass s1 core) flight numeric) r.core (some core)
        else
          let s2 := coreMiss s1 core
          let s3 := coreStrike (coreStrike s2 r.core none) core none
          openEvent (unitFailed s3 flight unit St.MXE_TILE_FAIL) .error St.MXE_TILE_FAIL ⟨1, core⟩ 0 0)

/-- The end of a core command with its status (R175). -/
def coreCmdEnd (s : State) (st : Status) : State :=
  wr (wr { s with mxe := { s.mxe with cmd := none } } F.MXE_CORE_CMD_STAT_BUSY 0) F.MXE_CORE_CMD_STAT_STATUS st.toNat

/-- A core command begins: BUSY, LOST while one is in progress, HPT_BAD_FIELD for a core above 99 (R175). -/
def coreCmdBegin (s : State) (test : Bool) (c : Nat) (f : State → State) : State :=
  bar0 s (fun s =>
    if rd s F.MXE_CORE_CMD_STAT_BUSY = 1 then wr s F.MXE_CORE_CMD_STAT_LOST 1
    else if 100 ≤ c then coreCmdEnd s St.HPT_BAD_FIELD
    else f (wr { s with mxe := { s.mxe with cmd := some (test, c) } } F.MXE_CORE_CMD_STAT_BUSY 1))

/-- MXE_CORE_TEST (R174): a RETIRED core is reset and tests itself; another is refused. -/
def mxeCoreTest (s : State) (core : Nat) : State :=
  coreCmdBegin s true core (fun s =>
    if (coreAt s core).st = .retired then modCore s core (fun x => { x with st := .test })
    else coreCmdEnd s St.MXE_CORE_BUSY)

/-- MXE_CORE_RETIRE (R174): an ACTIVE core leaves at the next kernel boundary; other cores retire at once. A RETIRE that
leaves no ACTIVE core is refused. -/
def mxeCoreRetire (s : State) (core : Nat) : State :=
  coreCmdBegin s false core (fun s =>
    let x := coreAt s core
    if x.st = .active then
      if activeCores s ≤ 1 ∧ coresIn s .spare = 0 then coreCmdEnd s St.MXE_CORE_BUSY
      else modCore s core (fun y => { y with leaving := true })
    else if x.st = .test then coreCmdEnd s St.MXE_CORE_BUSY
    else
      let s1 := modCore s core (fun y => { y with st := .retired, takes := none })
      coreCmdEnd (if x.st = .retired then s1 else addRetire (bump s1 F.MXE_RETIRE_CNT_COUNT) 1 core 0) St.OK)

/-- CORE_SELFTEST_DONE (R174): a pass enters REJOIN, a failure returns to RETIRED with MXE_SELFTEST_FAIL. -/
def coreSelftestDone (s : State) (core : Nat) (pass : Bool) : State :=
  whenUp s (fun s =>
    if (coreAt s core).st != .test then s
    else if pass then modCore s core (fun x => { x with st := .rejoin })
    else
      let s1 := modCore s core (fun x => { x with st := .retired })
      let s2 := if s1.mxe.cmd = some (true, core) then coreCmdEnd s1 St.MXE_SELFTEST_FAIL else s1
      recordRetire s2 St.MXE_SELFTEST_FAIL ⟨1, core⟩ 0)

/-- The lowest empty slot. -/
def emptySlot (s : State) : Option Nat := firstFree 96 (fun i => !s.mxe.cores.any (fun c => c.slot == i))

/-- A core put behind a slot. -/
def fillSlot (s : State) (c slot : Nat) : State := modCore s c (fun x => { x with st := .active, slot := slot, takes := none })

/-- Empty slots filled by spares in ascending core number (R173). -/
def fillSpares : Nat → State → State
  | 0, s => s
  | n + 1, s =>
    match emptySlot s, firstFree 100 (fun i => (coreAt s i).st == .spare) with
    | some slot, some c => fillSpares n (fillSlot s c slot)
    | _, _ => s

/-- The kernel boundary (R173, R174): leaving cores retire, retrying spares take the slots they stood in for, rejoining
cores fill an empty slot or become SPARE, spares fill what is empty, and core commands end. -/
def kernelBoundary (s : State) : State :=
  let cs := List.range 100
  let s1 := cs.foldl (fun s c =>
    if (coreAt s c).leaving then
      let s' := modCore s c (fun x => { x with st := .retired, slot := 0x7F, leaving := false })
      let s'' := addRetire (bump s' F.MXE_RETIRE_CNT_COUNT) 1 c 0
      if s.mxe.cmd = some (false, c) then coreCmdEnd s'' St.OK else s''
    else s) s
  let s2 := cs.foldl (fun s c =>
    match (coreAt s c).takes with
    | some slot =>
      if (coreAt s c).st = .spare ∧ !s.mxe.cores.any (fun x => x.slot == slot) then fillSlot s c slot
      else modCore s c (fun x => { x with takes := none })
    | none => s) s1
  let s3 := cs.foldl (fun s c =>
    if (coreAt s c).st = .rejoin then
      let s' := match emptySlot s with
        | some slot => fillSlot s c slot
        | none => modCore s c (fun x => { x with st := .spare })
      let s'' := { s' with ras := { s'.ras with retire := tkeep (fun _ r => !(r.kind == 1 && r.unit == c)) s'.ras.retire } }
      if s.mxe.cmd = some (true, c) then coreCmdEnd s'' St.OK else s''
    else s) s2
  checkReplace (fillSpares 96 s3)

end Sys2Proof.Machine
end

