-- ==== Sys2Proof/Machine/Pack.lean ====
section
/-! DEFINITION. Packer and expander: code tables, blocks, PACK and the lanes' checks (R177–R202). -/

namespace Sys2Proof.Machine

open Sys2Proof

/-! ### Symbols (R177) -/

/-- Exponent symbol of a code. -/
def expSym (f c : Nat) : Nat := if f = 0 then c / 128 % 256 else if f = 1 then c / 8 % 16 else c / 4 % 32

/-- Raw bits of a code: sign above mantissa. -/
def rawBits (f c : Nat) : Nat := if f = 0 then c / 2 ^ 15 * 128 + c % 128 else if f = 1 then c / 128 * 8 + c % 8 else c / 128 * 4 + c % 4

/-- The code that a symbol and raw bits spell. -/
def joinCode (f sym raw : Nat) : Nat :=
  if f = 0 then raw / 128 * 2 ^ 15 + sym * 128 + raw % 128
  else if f = 1 then raw / 8 * 128 + sym * 8 + raw % 8
  else raw / 4 * 128 + sym * 4 + raw % 4

/-- Bytes of an element of a coded format. -/
def elemBytes (f : Nat) : Nat := fmtBits f / 8
/-- Bytes of a block's raw area (R177). -/
def rawArea (f : Nat) : Nat := if f = 0 then 4096 else if f = 1 then 2048 else 1536

/-- The floating format of an R158 code. -/
def fmtOf (f : Nat) : FloatFmt := if f = 0 then fmtBF16 else if f = 1 then fmtE4M3 else if f = 2 then fmtE5M2 else fmtF32

/-- A source element converted to OUT_FMT by R35, and whether that saturates a finite value or meets a NaN (R187, R188). -/
def convert (src out c : Nat) : Nat × Bool :=
  let x : F32 := if src = 7 then BitVec.ofNat 32 c else widen (fmtOf src) c
  if src = out then (c, f32IsNaN x)
  else
    let g := fmtOf out
    match f32Val x with
    | .fin _ m e => (narrow g x, (narrowMag g m e).2 && out != 0)
    | .inf _ => (narrow g x, false)
    | .nan => (narrow g x, true)

/-! ### Code lengths by package-merge (R187) -/

/-- An item of the package-merge lists: weight, whether a package, and the symbols in it. -/
structure PmItem where
  weight : Nat
  package : Bool
  syms : List Nat
  deriving DecidableEq, Repr

/-- Order of items: weight, then single symbols before packages, then the lower symbol. -/
def pmBefore (a b : PmItem) : Bool :=
  decide (a.weight < b.weight) || (a.weight == b.weight && !a.package && b.package)
    || (a.weight == b.weight && !a.package && !b.package && decide (a.syms.headD 0 < b.syms.headD 0))

/-- Consecutive items packaged in pairs; an odd last item is dropped. -/
def pmPair : List PmItem → List PmItem
  | a :: b :: r => ⟨a.weight + b.weight, true, a.syms ++ b.syms⟩ :: pmPair r
  | _ => []

/-- Two ordered lists merged; the first goes first on equal rank. -/
def pmMerge : List PmItem → List PmItem → List PmItem
  | [], ys => ys
  | x :: xs, ys => insertAll x xs ys
where
  /-- `x` and the rest of the first list put among the second. -/
  insertAll (x : PmItem) (xs : List PmItem) : List PmItem → List PmItem
    | [] => x :: xs
    | y :: ys => if pmBefore y x then y :: insertAll x xs ys else sortBy pmBefore (x :: xs ++ (y :: ys))

/-- The list of level `n` of package-merge. -/
def pmLevel (singles : List PmItem) : Nat → List PmItem
  | 0 => singles
  | n + 1 => sortBy pmBefore (singles ++ pmPair (pmLevel singles n))

/-- Code lengths by symbol for counts under a length limit (R187): 0 for a symbol that does not occur. -/
def codeLens (alpha limit : Nat) (counts : List Nat) : List Nat :=
  let syms := (List.range alpha).filter (fun i => counts.getD i 0 != 0)
  if syms.length ≤ 1 then (List.range alpha).map (fun i => if syms.contains i then 1 else 0)
  else
    let singles := sortBy pmBefore (syms.map (fun i => ⟨counts.getD i 0, false, [i]⟩))
    let used := ((pmLevel singles (limit - 1)).take (2 * syms.length - 2)).flatMap (fun p => p.syms)
    (List.range alpha).map (fun i => (used.filter (· == i)).length)

/-! ### Canonical codes (R180) -/

/-- Coded symbols by length, then value. -/
def canonOrder (lens : List Nat) : List (Nat × Nat) :=
  (List.range 12).flatMap (fun l => ((List.range lens.length).filter (fun i => lens.getD i 0 == l + 1)).map (fun i => (i, l + 1)))

/-- Codes given along the canonical order, from the last code and its length. -/
def canonCodes : List (Nat × Nat) → Nat → Nat → List (Nat × Nat × Nat)
  | [], _, _ => []
  | (sym, l) :: r, next, pl =>
    let c := next <<< (l - pl)
    (sym, l, c) :: canonCodes r (c + 1) l

/-- The canonical code: symbol, length, code. -/
def canon (lens : List Nat) : List (Nat × Nat × Nat) := canonCodes (canonOrder lens) 0 0

/-- A number's `n` low bits, most significant first. -/
def msbBits (n v : Nat) : List Bool := (List.range n).map (fun i => v.testBit (n - 1 - i))

/-- The bits of a symbol's code; none where it has none. -/
def symBits (cs : List (Nat × Nat × Nat)) (sym : Nat) : List Bool :=
  match cs.find? (fun c => c.1 == sym) with
  | some c => msbBits c.2.1 c.2.2
  | none => []

/-- Bits, most significant of each byte first, as bytes (R184). -/
def bitsBytes : Nat → List Bool → List Byte
  | 0, _ => []
  | n + 1, bs =>
    BitVec.ofNat 8 ((List.range 8).foldl (fun v i => 2 * v + (bs.getD i false).toNat) 0) :: bitsBytes n (bs.drop 8)

/-- Bytes as bits, most significant of each byte first (R184). -/
def bytesBits (bs : List Byte) : List Bool := bs.flatMap (fun b => msbBits 8 b.toNat)

/-! ### Blocks (R182–R184, R192) -/

/-- The raw area of a block (R183). -/
def rawAreaBytes (f : Nat) (codes : List Nat) : List Byte :=
  let w := if f = 0 then 8 else if f = 1 then 4 else 3
  let group := if f = 0 then 1 else if f = 1 then 2 else 8
  (chunks group (4096 / group) codes).flatMap (fun g =>
    natBytes (group * w / 8) (g.zipIdx.foldl (fun v p => v + rawBits f p.1 * 2 ^ (w * p.2)) 0))

/-- A block's header (R182): everything but the CRC. -/
def blockHead (mode f blen : Nat) (ss : List Nat) : List Byte :=
  wordBytes (mkWord [(0, 2, mode), (2, 4, f), (8, 8, blen)]) ++ wordBytes 0 ++
    natBytes 48 (ss.zipIdx.foldl (fun v p => v + p.1 * 2 ^ (6 * p.2)) 0)

/-- A block with its CRC filled in (R182). -/
def sealBlock (bs : List Byte) : List Byte :=
  bs.take 4 ++ natBytes 4 (crc32c bs) ++ bs.drop 8

/-- Whether a block's effective size keeps it coded (R192). -/
def keepCoded (f num maxSs : Nat) : Bool := decide (64 * (64 + rawArea f + 128 * maxSs) ≤ num * 4096 * elemBytes f)

/-- A block of 4,096 codes written, and whether it is RAW (R183, R184, R189, R192). -/
def encodeBlock (f num : Nat) (cs : List (Nat × Nat × Nat)) (codes : List Nat) : List Byte × Bool :=
  let rows := chunks 64 64 codes
  let streams := rows.map (fun r => r.flatMap (fun c => symBits cs (expSym f c)))
  let ss := streams.map (fun b => ceilDiv b.length 16)
  let miss := codes.any (fun c => (symBits cs (expSym f c)).isEmpty)
  if miss || !keepCoded f num (ss.foldl max 0) then
    (sealBlock (blockHead 0 f (1 + 64 * elemBytes f) (List.replicate 64 0) ++ codes.flatMap (natBytes (elemBytes f))), true)
  else
    let body := rawAreaBytes f codes ++ (streams.zip ss).flatMap (fun p => bitsBytes (2 * p.2) p.1)
    let blen := ceilDiv (64 + body.length) 64
    (sealBlock (blockHead 1 f blen ss ++ body ++ List.replicate (64 * blen - 64 - body.length) 0), false)

/-- One symbol decoded from a bit list: the symbol and the rest (R184). -/
def decodeSym (cs : List (Nat × Nat × Nat)) (bs : List Bool) : Option (Nat × List Bool) :=
  match cs.find? (fun c => decide (c.2.1 ≤ bs.length) && bs.take c.2.1 == msbBits c.2.1 c.2.2) with
  | some c => some (c.1, bs.drop c.2.1)
  | none => none

/-- The symbols of a sub-stream; nothing where a code is invalid, the stream too short or its padding not zero. -/
def decodeStream (cs : List (Nat × Nat × Nat)) : Nat → List Bool → Option (List Nat)
  | 0, bs => if bs.any id then none else some []
  | n + 1, bs =>
    match decodeSym cs bs with
    | some (sym, rest) => (decodeStream cs n rest).map (fun l => sym :: l)
    | none => none

/-- SS_LEN of a block's header (R182). -/
def ssLens (bs : List Byte) : List Nat :=
  let v := bytesNat ((bs.drop 16).take 48)
  (List.range 64).map (fun j => v / 2 ^ (6 * j) % 64)

/-- The raw bits of a block's elements (R183). -/
def rawOf (f : Nat) (area : List Byte) : List Nat :=
  let w := if f = 0 then 8 else if f = 1 then 4 else 3
  let group := if f = 0 then 1 else if f = 1 then 2 else 8
  (chunks (group * w / 8) (4096 / group) area).flatMap (fun g =>
    (List.range group).map (fun i => bytesNat g / 2 ^ (w * i) % 2 ^ w))

/-- Whether a block's header breaks R182 or R184; `room` is the distance to the next block (R199). -/
def headBad (f : Nat) (bs : List Byte) (room : Nat) : Bool :=
  let w0 := BitVec.ofNat 64 (bytesNat (bs.take 8))
  let mode := bits w0 1 0
  let blen := bits w0 15 8
  let ss := ssLens bs
  decide (2 ≤ mode) || bits w0 5 2 != f || bits w0 7 6 != 0 || bits w0 31 16 != 0 || blen == 0 || decide (129 < blen)
    || bytesNat ((bs.drop 8).take 8) != 0 || decide (room < 64 * blen)
    || (if mode = 0 then ss.any (· != 0) || decide (blen < 1 + 64 * elemBytes f)
        else ss.any (fun l => decide (l < 4) || decide (48 < l)) || decide (64 * blen < 64 + rawArea f + 2 * sumNat ss))

/-- A block decoded: its 4,096 codes, or the first failing check: CRC, header, sub-streams (R193, R198). -/
def decodeBlock (f : Nat) (cs : List (Nat × Nat × Nat)) (bs : List Byte) (room : Nat) : Except Status (List Nat) :=
  let w0 := BitVec.ofNat 64 (bytesNat (bs.take 8))
  let body := bs.take (64 * bits w0 15 8)
  if crc32c (body.take 4 ++ [0, 0, 0, 0] ++ body.drop 8) ≠ bits w0 63 32 then .error St.EXP_BLOCK_CRC
  else if headBad f bs room then .error St.EXP_BAD_BLOCK
  else if bits w0 1 0 = 0 then
    .ok ((chunks (elemBytes f) 4096 (body.drop 64)).map bytesNat)
  else
    let ss := ssLens bs
    let offs := ss.foldl (fun (p : List Nat × Nat) l => (p.1 ++ [p.2], p.2 + 2 * l)) ([], 0)
    let area := body.drop (64 + rawArea f)
    let rows := (ss.zip offs.1).map (fun p => decodeStream cs 64 (bytesBits ((area.drop p.2).take (2 * p.1))))
    if rows.any (·.isNone) then .error St.EXP_BAD_STREAM
    else .ok (((rows.flatMap (·.getD [])).zip (rawOf f ((body.drop 64).take (rawArea f)))).map (fun p => joinCode f p.1 p.2))

/-! ### Tensors as tiles -/

/-- The codes of tile `t` of an uncoded TILE64 tensor, elements beyond its edges being +0 (R178). -/
def tileCodes (s : State) (x : Tensor) (t : Nat) : List Nat :=
  let eb := elemBytes x.fmt
  let across := ceilDiv x.cols 64
  (List.range 4096).map (fun e =>
    if t / across * 64 + e / 64 < x.rows ∧ t % across * 64 + e % 64 < x.cols then
      readNat s (x.base + (t * 4096 + e) * eb) eb
    else 0)

/-- Block `b` of a coded tensor: where it lies and how far the next block is. -/
def blockAt (s : State) (x : Tensor) (b : Nat) : Nat × Nat :=
  let nb := blocksOf x.rows x.cols
  let a := indexEntry s x.base b
  (x.base + a, (if b + 1 < nb then indexEntry s x.base (b + 1) else max x.len a + 64 * 129) - a)

/-- Block `b` of a coded tensor as a lane reads it (R193): its codes, or the status. -/
def readBlock (s : State) (x : Tensor) (b : Nat) : Except Status (List Nat) :=
  let at_ := blockAt s x b
  match readRefusal s at_.1 64 with
  | some st => .error st
  | none =>
    match readRefusal s at_.1 (max 64 (blockLen s at_.1)) with
    | some st => .error st
    | none => decodeBlock x.fmt (canon (tableLens (readMem s x.base 256))) (readMem s at_.1 (max 64 (blockLen s at_.1))) at_.2

/-! ### PACK (R185–R191) -/

/-- SRC -/
def pSrc (d : Desc) : Nat := dfld d 0x10 31 0
/-- DST -/
def pDst (d : Desc) : Nat := dfld d 0x10 63 32
/-- OP: 0 CODE, 1 CODE_SAFE, 2 UNPACK, 3 FREE -/
def pOp (d : Desc) : Nat := dfld d 0x18 54 53
/-- OUT_FMT -/
def pFmt (d : Desc) : Nat := dfld d 0x18 58 55
/-- Local offset of the output. -/
def pBase (d : Desc) : Nat := tensorBase (dfld d 0x18 52 52 == 1) (dfld d 0x18 51 0)
/-- DST_LIMIT -/
def pLimit (d : Desc) : Nat := (Desc.word d 4).toNat

/-- The source tensor. -/
def pTensor (s : State) (d : Desc) : Tensor := (tget s.mxe.tensors (pSrc d)).getD ⟨0, 0, false, false, 0, 0, 0, 0, 0, 0⟩

/-- Whether a format pair stands in R186's table. -/
def packFmtOk (op src out : Nat) : Bool :=
  if op = 2 then decide (src ≤ 2) && src == out
  else if src = 7 ∨ src = 0 then decide (out ≤ 2)
  else (src == 1 || src == 2) && src == out

/-- The worst-case size of the output (R186). -/
def packWorst (op nb eb : Nat) : Nat :=
  if op = 2 then 4096 * nb * eb else 256 + 64 * ceilDiv nb 16 + nb * (64 + 4096 * eb)

/-- Failing payload bytes of a PACK (R185): DST zero, SRC not zero for FREE, an output that is not 64-byte aligned. -/
def packBytes (d : Desc) : List Nat :=
  badAt (pOp d == 3 && pSrc d != 0) 0x10 0 ++ badAt (pDst d == 0) 0x10 32 ++
    badAt (pOp d != 3 && dfld d 0x18 51 0 % 64 != 0) 0x18 0 ++ resv d 0x18 63 59 ++ resvWords d [0x28, 0x30, 0x38]

/-- The checks of CODE, CODE_SAFE and UNPACK (R186). -/
def packChecks (s : State) (k : DescKey) (d : Desc) : List Check :=
  let x := pTensor s d
  let worst := packWorst (pOp d) (blocksOf x.rows x.cols) (elemBytes (pFmt d))
  [chk (!thas s.mxe.tensors (pSrc d)) St.MXE_NO_TENSOR 0x10,
   chk (thas s.mxe.tensors (pDst d)) St.MXE_HANDLE_BUSY 0x14,
   chk (x.layout != 2 || x.coded == (pOp d != 2)) St.EXP_BAD_LAYOUT 0x10,
   chk (!packFmtOk (pOp d) x.fmt (pFmt d)) St.EXP_BAD_FORMAT 0x1E,
   chk (!localOk s k true (pBase d) (min (pLimit d) worst)) St.HPT_PROT 0x18,
   chk (decide (pLimit d < worst)) St.EXP_NO_SPACE 0x20,
   chk (decide (2 ^ 38 < worst)) St.EXP_TOO_LARGE 0x10]

/-- Units of a PACK: 64 blocks each, and the levels of the table build (R191). -/
def packUnits (op nb : Nat) : Nat :=
  let u := ceilDiv nb 64
  if op = 2 then u else 2 * u + (if op = 0 then 12 else 8)

/-- A PACK becomes class 2 work; EXP_FALLBACK.NUM is latched (R191, R192). -/
def startPack (s : State) (k : DescKey) (d : Desc) (id : Nat) : State :=
  let x := pTensor s d
  let r : Run := ⟨d, 0, 0, rd s F.EXP_FALLBACK_NUM, false, none, []⟩
  addUnit { s with mxe := { s.mxe with runs := tset s.mxe.runs id r } } 2 k.ctx none (.work id)
    (packUnits (pOp d) (blocksOf x.rows x.cols) - 1)

/-- PACK with OP CODE (R187). -/
def packCode (s : State) (k : RingKey) (d : Desc) : State :=
  ofForm (dOpcode d == 0x21 && pOp d == 0) s (runDesc s k d (packBytes d) (fun s k => packChecks s k d) (fun s k id => startPack s k d id))

/-- PACK with OP CODE_SAFE (R187, R196). -/
def packCodeSafe (s : State) (k : RingKey) (d : Desc) : State :=
  ofForm (dOpcode d == 0x21 && pOp d == 1) s (runDesc s k d (packBytes d) (fun s k => packChecks s k d) (fun s k id => startPack s k d id))

/-- PACK with OP UNPACK (R186). -/
def packUnpack (s : State) (k : RingKey) (d : Desc) : State :=
  ofForm (dOpcode d == 0x21 && pOp d == 2) s (runDesc s k d (packBytes d) (fun s k => packChecks s k d) (fun s k id => startPack s k d id))

/-- PACK with OP FREE (R186): frees a handle that a PACK of the same context made. -/
def packFree (s : State) (k : RingKey) (d : Desc) : State :=
  ofForm (dOpcode d == 0x21 && pOp d == 3) s
    (runDesc s k d (packBytes d)
      (fun s k => [chk (!(tget s.mxe.tensors (pDst d)).elim false (fun t => t.image == 0 && t.ctx == k.ctx)) St.MXE_NO_TENSOR 0x14])
      (fun s _ id => completeOk { s with mxe := { s.mxe with tensors := tdel s.mxe.tensors (pDst d) } } id))

/-- Tiles of codes coded with one table (R187): the prologue, and each block with whether it is RAW. -/
def codeTiles (f num op : Nat) (codes : List (List Nat)) : List Byte × List (List Byte × Bool) :=
  let counts := (List.range (alphabet f)).map (fun i => sumNat (codes.map (fun t => (t.filter (fun c => expSym f c == i)).length)))
  let lens := codeLens (alphabet f) (if op = 0 then 12 else 8) counts
  let lenBytes := (List.range 128).map (fun i => BitVec.ofNat 8 (lens.getD (2 * i) 0 + 16 * lens.getD (2 * i + 1) 0))
  let table := lenBytes ++ List.replicate 112 (0 : Byte)
  (wordBytes (mkWord [(0, 4, 1), (4, 4, f), (8, 4, lens.foldl max 0), (12, 1, op), (32, 32, codes.length)]) ++
    wordBytes (at' 0 32 (crc32c table)) ++ table, codes.map (encodeBlock f num (canon lens)))

/-- What a PACK produces: its bytes, blocks written RAW, NUMERIC; or the status that ends it (R187–R189, R198). -/
def packOutput (s : State) (d : Desc) (num : Nat) : Except Status (List Byte × Nat × Bool) :=
  let x := pTensor s d
  let nb := blocksOf x.rows x.cols
  if pOp d = 2 then
    match codedCheck s (fun _ _ => true) x.base x.fmt nb with
    | .error st => .error st
    | .ok _ =>
      let bs := (List.range nb).map (readBlock s x)
      match bs.findSome? (fun b => match b with | .error st => some st | .ok _ => none) with
      | some st => .error st
      | none => .ok (bs.flatMap (fun b => match b with
          | .ok l => l.flatMap (natBytes (elemBytes x.fmt))
          | .error _ => []), 0, false)
  else
    match readRefusal s x.base (4096 * nb * elemBytes x.fmt) with
    | some st => .error st
    | none =>
      let f := pFmt d
      let tiles := (List.range nb).map (fun t => (tileCodes s x t).map (convert x.fmt f))
      let codes := tiles.map (fun t => t.map (fun p => p.1))
      let c := codeTiles f num (pOp d) codes
      let blocks := c.2
      let head := codedHead nb
      let offs := blocks.foldl (fun (p : List Nat × Nat) b => (p.1 ++ [p.2], p.2 + b.1.length)) ([], head)
      let pro := c.1
      let index := offs.1.flatMap (fun o => natBytes 4 (o / 64))
      .ok (pro ++ index ++ List.replicate (head - 256 - index.length) 0 ++ blocks.flatMap (fun b => b.1),
        (blocks.filter (fun b => b.2)).length, tiles.any (fun t => t.any (fun p => p.2)))

/-- A PACK ends with its last unit (R187–R190): the tensor is written and its handle made, or its status reported. -/
def finishPack (s : State) (id : Nat) (r : Run) : State :=
  let d := r.desc
  let s0 := { s with mxe := { s.mxe with runs := tdel s.mxe.runs id } }
  match tget s.hpt.flight id with
  | none => s0
  | some f =>
    match packOutput s d r.num with
    | .error st =>
      let s1 := openEvent s0 .error st ⟨2, 0⟩ 0 f.key.ctx
      completeSt s1 id st
    | .ok (bs, raw, numeric) =>
      let x := pTensor s d
      let coded := decide (pOp d ≠ 2)
      let t : Tensor := ⟨pFmt d, 2, coded, dfld d 0x18 52 52 == 1, x.rows, x.cols, pBase d, bs.length, f.key.ctx, 0⟩
      let s1 := writeMem s0 (pBase d) bs
      let s2 := bumpBy { s1 with mxe := { s1.mxe with tensors := tset s1.mxe.tensors (pDst d) t } } F.EXP_RAW_CNT_COUNT raw
      completeWith s2 id (if numeric then St.EXP_NUMERIC else St.OK) (mkWord [(0, 35, bs.length / 64), (35, 28, raw)])

/-! ### Lanes (R193, R198) -/

/-- A block failed for good: the units that need it write nothing, the kernel gets the status, and an event is posted
(R198). -/
def blockFailed (s : State) (flight unit lane : Nat) (st : Status) : State :=
  openEvent (unitFailed s flight unit st) .error st ⟨2, lane⟩ 0 0

/-- EXPANDER_BLOCK (R193, R198): a lane reads a block; a CRC failure is read again, another failure fails the units. -/
def expanderBlock (s : State) (flight tensor block : Nat) : State :=
  whenUp s (fun s =>
    match tget s.mxe.tensors tensor with
    | none => s
    | some x =>
      if !x.coded || decide (blocksOf x.rows x.cols ≤ block) || !unitKnown s flight then s
      else if !prologueOk (readMem s x.base 256) x.fmt (blocksOf x.rows x.cols) then blockFailed s flight block 0 St.EXP_BAD_TABLE
      else
        match readBlock s x block with
        | .ok _ => s
        | .error st =>
          if st = St.EXP_BLOCK_CRC then
            bump { s with mxe := { s.mxe with reread := s.mxe.reread ++ [(flight, tensor, block)] } } F.EXP_CRC_CNT_COUNT
          else blockFailed s flight block 0 st)

/-- EXPANDER_REREAD (R198): the block is read once more. -/
def expanderReread (s : State) (flight tensor block : Nat) : State :=
  whenUp s (fun s =>
    match tget s.mxe.tensors tensor with
    | none => s
    | some x =>
      if !s.mxe.reread.contains (flight, tensor, block) then s
      else
        let s1 := { s with mxe := { s.mxe with reread := s.mxe.reread.erase (flight, tensor, block) } }
        match readBlock s x block with
        | .ok _ => s1
        | .error st => blockFailed s1 flight block 0 st)

end Sys2Proof.Machine
end

