-- ==== Sys2Proof/Machine/Kern.lean ====
section
/-! DEFINITION. What a KERNEL_RUN writes: accumulations, epilogue and output tensor (R158–R168). -/

namespace Sys2Proof.Machine

open Sys2Proof

/-- The place of an element in its layout (R158): ROW, COL, or TILE64 with tiles in row order. -/
def elemIndex (layout rows cols r c : Nat) : Nat :=
  if layout = 0 then r * cols + c
  else if layout = 1 then c * rows + r
  else (r / 64 * ceilDiv cols 64 + c / 64) * 4096 + r % 64 * 64 + c % 64

/-- An operand element as FP32, from its base and its place; an MX element's place in memory is not given, so its value is
free. -/
def elemF32 (s : State) (run fmt base i : Nat) : F32 :=
  if fmt = 7 then BitVec.ofNat 32 (readNat s (base + 4 * i) 4)
  else if fmt = 6 then toF32 (signed 8 (readNat s (base + i) 1)) 0
  else if fmtMx fmt then Config.mxeApprox run (base + 16) i
  else widen (fmtOf fmt) (readNat s (base + elemBytes fmt * i) (elemBytes fmt))

/-- The tensor of a handle. -/
def tensorOf (s : State) (h : Nat) : Tensor := (tget s.mxe.tensors h).getD ⟨0, 0, false, false, 0, 0, 0, 0, 0, 0⟩

/-- The base of product `p` of a batch, whose products stand `stride` elements apart. -/
def productBase (t : Tensor) (p stride : Nat) : Nat := t.base + fmtBytes t.fmt (p * stride)

/-- The sum and the sum of magnitudes of an INT8 product's element. -/
def intSum (s : State) (a b : Tensor) (ab bb k m n : Nat) : Int × Nat :=
  (List.range k).foldl (fun (acc : Int × Nat) i =>
    let x := signed 8 (readNat s (ab + elemIndex a.layout a.rows a.cols m i) 1)
    let y := signed 8 (readNat s (bb + elemIndex b.layout b.rows b.cols i n) 1)
    (acc.1 + x * y, acc.2 + (x * y).natAbs)) (0, 0)

/-- The accumulation of one output element (R39): exact for INT8 while its magnitudes stay below 2^24, else a free value. -/
def accumulate (s : State) (w : List Word) (d : Desc) (p m n : Nat) : F32 :=
  let a := tensorOf s (rA d)
  let b := tensorOf s (rB d)
  let free := Config.mxeSum s.free ((p * kM w + m) * kN w + n)
  if kA w = 6 ∧ kB w = 6 then
    let r := intSum s a b (productBase a p (kStride w 4)) (productBase b p (kStride w 5)) (kK w) m n
    if r.2 < 2 ^ 24 then toF32 r.1 0 else free
  else free

/-- An element of an epilogue operand: [m,n] of a matrix, or entry `i` of a vector. -/
def sourceAt (s : State) (d : Desc) (o : Word) (i : Nat) : F32 :=
  let t := tensorOf s (rSlot d (bits o 9 8))
  elemF32 s s.free t.fmt t.base i

/-- x clamped to ±c (R166). -/
def clampTo (x c : F32) : F32 :=
  let c' : F32 := c &&& 0x7FFFFFFF#32
  let nc : F32 := c' ||| 0x80000000#32
  if f32Lt c' x then c' else if f32Lt x nc then nc else x

/-- One epilogue operation on an element (R166); those that R168 bounds give a free value. -/
def epilogueOp (s : State) (w : List Word) (d : Desc) (p m n : Nat) (x : F32) (io : Nat × Word) : F32 :=
  let o := io.2
  let c := opCode o
  let par : F32 := BitVec.ofNat 32 (bits o 63 32)
  let t := tensorOf s (rSlot d (bits o 9 8))
  if c = 1 then f32Add x (sourceAt s d o n)
  else if c = 2 then f32Add x (sourceAt s d o (elemIndex t.layout t.rows t.cols m n))
  else if c = 3 then f32Mul x par
  else if c = 4 then f32Mul x (sourceAt s d o n)
  else if c = 5 then f32Mul x (sourceAt s d o m)
  else if c = 0xE then clampTo x par
  else if c = 0xD then x
  else Config.mxeApprox s.free io.1 ((p * kM w + m) * kN w + n)

/-- An output element before it is converted. -/
def outputF32 (s : State) (w : List Word) (d : Desc) (p m n : Nat) : F32 :=
  ((kOps w).zipIdx.map (fun x => (x.2, x.1))).foldl (epilogueOp s w d p m n) (accumulate s w d p m n)

/-- A magnitude rounded stochastically into a floating format (R49), then saturated by R35. -/
def narrowStoch (f : FloatFmt) (x : F32) (r : Nat) : Nat :=
  match f32Val x with
  | .fin neg m e =>
    if m = 0 then narrow f x
    else
      let q : Int := max ((Nat.log2 m : Int) + e) (1 - (f.bias : Int)) - f.man
      withSign f neg (narrowMag f (stochAt m e q r) q).1
  | _ => narrow f x

/-- The code of an output element (R166 QUANT_OUT, R35, R38, R49). -/
def outputCode (w : List Word) (i : Nat) (x : F32) : Nat :=
  let o := (kOps w).getLastD 0
  let stoch := bit o 16
  let r := (Config.mxeRandom (wordAt w 3).toNat i).toNat
  if kC w = 7 then x.toNat
  else if kC w = 6 then
    let y := f32Div x (BitVec.ofNat 32 (bits o 63 32))
    match f32Val y with
    | .fin neg m e =>
      if stoch then
        let k := stochAt m e 0 r
        unsigned 8 (if neg then -((min k 128 : Nat) : Int) else ((min k 127 : Nat) : Int))
      else toInt8 y
    | _ => toInt8 y
  else if stoch then narrowStoch (fmtOf (kC w)) x r
  else narrow (fmtOf (kC w)) x

/-- Whether the column tile of an output element belongs to a unit that was lost (R170, R198): a core unit's entry is twice its
number, a block's twice its number plus one. -/
def unitLost (s : State) (w : List Word) (d : Desc) (r : Run) (p m n : Nat) : Bool :=
  let tiles := ceilDiv (kN w) 64
  let groups := ceilDiv r.rows 1024
  let kb := pairKb (kA w) (kB w)
  let segs := if kSeg w = 0 then 1 else ceilDiv (ceilDiv (kK w) kb) (kSeg w)
  let b := tensorOf s (rB d)
  r.lost.any (fun u =>
    if u % 2 = 0 then u / 2 / segs == (p * groups + m / 1024) * tiles + n / 64
    else u / 2 % ceilDiv b.cols 64 == n / 64)

/-- Whether an output element is written: GATE operations form it from columns n and n + N/2. -/
def elemLost (s : State) (w : List Word) (d : Desc) (r : Run) (p m n : Nat) : Bool :=
  unitLost s w d r p m n || (kOutN w != kN w && unitLost s w d r p m (n + kN w / 2))

/-- The output of one product written to C. -/
def writeProduct (s0 s : State) (w : List Word) (d : Desc) (r : Run) (p : Nat) : State :=
  let c := tensorOf s0 (rC d)
  let base := productBase c p (kStride w 6)
  (List.range r.rows).foldl (fun s m => (List.range (kOutN w)).foldl (fun s n =>
    if elemLost s0 w d r p m n then s
    else
      let i := elemIndex c.layout c.rows c.cols m n
      if fmtMx (kC w) then
        writeMem s (base + i * fmtBits (kC w) / 8) [Config.mxeByte s0.free (base + i * fmtBits (kC w) / 8)]
      else
        writeMem s (base + elemBytes (kC w) * i)
          (natBytes (elemBytes (kC w)) (outputCode w (p * kStride w 6 + i) (outputF32 s0 w d p m n)))) s) s

/-- Lines of an output region that was written whole leave the list of uncorrectable lines (R311). -/
def refreshLines (s : State) (a n : Nat) : State :=
  { s with mem := { s.mem with ue := s.mem.ue.filter (fun l => !within (l * 64) 64 a (a + n)) } }

/-- A KERNEL_RUN ends with its last unit: C is written but for lost units, and the record carries the failing status or NUMERIC
(R50, R162, R170). -/
def finishRun (s : State) (id : Nat) (r : Run) : State :=
  let w := kernelWords s r.kernel
  let c := tensorOf s (rC r.desc)
  let s1 := (List.range (kBatch w)).foldl (fun t p => writeProduct s t w r.desc r p) s
  let s2 := if r.lost.isEmpty ∧ r.rows = kM w then
      (List.range (kBatch w)).foldl (fun t p => refreshLines t (productBase c p (kStride w 6)) c.len) s1
    else s1
  let s3 := tickFree { s2 with mxe := { s2.mxe with runs := tdel s2.mxe.runs id } }
  completeSt s3 id (match r.failed with
    | some st => st
    | none => if r.numeric then 0x04E0 else St.OK)

end Sys2Proof.Machine
end

