-- ==== Sys2Proof/Machine/Gth.lean ====
section
/-! DEFINITION. Embedding gather and updates: tables, redirects, windows, delta and side logs, migrations (R276–R297). -/

namespace Sys2Proof.Machine

open Sys2Proof

/-- The gather unit's state changed. -/
def modGth (s : State) (f : GthState → GthState) : State := { s with gth := f s.gth }

/-! ### Tables -/

/-- Bytes of an element: FP32, BF16, FP8 E4M3. -/
def gElem (fmt : Nat) : Nat := if fmt = 0 then 4 else if fmt = 1 then 2 else 1
/-- RB (R277). -/
def rowBytes (fmt dim : Nat) : Nat := roundUp (dim * gElem fmt) 64
/-- DB (R277). -/
def deltaBytes (dim : Nat) : Nat := 64 + roundUp (4 * dim) 64

/-- TABLE, OP and the other fields of TABLE_REG (R276). -/
def gTable (d : Desc) : Nat := dfld d 0x10 31 16
/-- OP -/
def gOp (d : Desc) : Nat := dfld d 0x10 2 0
/-- FMT -/
def gFmt (d : Desc) : Nat := dfld d 0x10 33 32
/-- TAIL -/
def gTail (d : Desc) : Nat := dfld d 0x10 35 34
/-- DIM -/
def gDim (d : Desc) : Nat := dfld d 0x10 60 48
/-- ROWS or COUNT -/
def gRows (d : Desc) : Nat := dfld d 0x18 31 0
/-- HOT_ROWS -/
def gHot (d : Desc) : Nat := dfld d 0x18 56 32
/-- DELTA_ROWS -/
def gDelta (d : Desc) : Nat := dfld d 0x30 19 0
/-- FIRST -/
def gFirst (d : Desc) : Nat := dfld d 0x30 63 32
/-- LIST_ADDR -/
def gList (d : Desc) : Nat := (Desc.word d 7).toNat

/-- The table a REGISTER makes. -/
def gNew (d : Desc) (ctx tenant : Nat) : GthTable :=
  { ctx := ctx, tenant := tenant, fmt := gFmt d, flash := gTail d == 1, dim := gDim d, rows := gRows d, hotRows := gHot d,
    hotOff := dfld d 0x20 51 0, tailBase := (Desc.word d 5).toNat, deltaRows := gDelta d, delta := [], side := [], frozen := [] }

/-- RB of a table. -/
def tRb (t : GthTable) : Nat := rowBytes t.fmt t.dim
/-- Where a hot slot lies (R277). -/
def slotAddr (t : GthTable) (slot : Nat) : Nat := t.hotOff + slot * tRb t
/-- Where a delta entry's sums lie: behind its first 64 bytes (R277). -/
def deltaAddr (t : GthTable) (i : Nat) : Nat := t.hotOff + t.hotRows * tRb t + 16 * t.hotRows + i * deltaBytes t.dim + 64
/-- Where a side-log entry's sums lie (R277). -/
def sideAddr (t : GthTable) (i : Nat) : Nat := deltaAddr t (t.deltaRows + i)
/-- Length of the table region (R277). -/
def regionLen (t : GthTable) : Nat := t.hotRows * tRb t + 16 * t.hotRows + (t.deltaRows + 64) * deltaBytes t.dim
/-- Where a tail row lies (R277). -/
def tailAddr (t : GthTable) (r : Nat) : Nat := t.tailBase + r * tRb t

/-- Failing bytes of a REGISTER (R276, R278). -/
def registerBytes (d : Desc) : List Nat :=
  badAt (decide (4 < gOp d)) 0x10 0 ++ resv d 0x10 15 3 ++ badAt (gTable d == 0) 0x10 16 ++ badAt (gFmt d == 3) 0x10 32 ++
  badAt (decide (1 < gTail d)) 0x10 34 ++ resv d 0x10 47 36 ++ badAt (gDim d == 0 || decide (4096 < gDim d)) 0x10 48 ++
  resv d 0x10 63 61 ++ badAt (gRows d == 0) 0x18 0 ++ badAt (decide (min (gRows d) 16777216 < gHot d)) 0x18 32 ++
  resv d 0x18 63 57 ++ badAt (dfld d 0x20 5 0 != 0) 0x20 0 ++ resv d 0x20 63 52 ++
  badAt ((gTail d == 0 && gDelta d != 0) || (gTail d == 1 && gDelta d == 0)) 0x30 0 ++ resv d 0x30 31 20

/-- Whether the tail of a table lies in its context's grants (R278): host windows for both rights, or flash sectors. -/
def tailGranted (s : State) (k : DescKey) (t : GthTable) : Bool :=
  if t.flash then
    flashOk s (ctxTenant s k.ctx) (t.tailBase / 2048) (ceilDiv (t.rows * tRb t) 2048)
  else hostOk s k false t.tailBase (t.rows * tRb t) && hostOk s k true t.tailBase (t.rows * tRb t)

/-- Whether the table region lies in granted HBM (R278, R475). -/
def regionGranted (s : State) (k : DescKey) (t : GthTable) : Bool :=
  regionOk s t.hotOff (regionLen t) && localOk s k false t.hotOff (regionLen t) && localOk s k true t.hotOff (regionLen t)

/-- The checks of a REGISTER, in R278's order. -/
def registerChecks (d : Desc) (s : State) (k : DescKey) : List Check :=
  let t := gNew d k.ctx (ctxTenant s k.ctx)
  [chk (t.tailBase % (if t.flash then 65536 else 64) != 0) St.HPT_BAD_ADDR 0x28,
   chk (!regionGranted s k t) St.HPT_PROT 0x20, chk (!tailGranted s k t) St.HPT_PROT 0x28,
   chk (thas s.gth.tables (gTable d)) St.GTH_TABLE_BUSY 0x12, chk (decide (1024 ≤ s.gth.tables.length)) St.GTH_TOO_MANY 0x12]

/-- GTH_TABLES follows the tables. -/
def setTables (s : State) (t : Tbl GthTable) : State :=
  wr (modGth s (fun g => { g with tables := t })) F.GTH_TABLES_COUNT t.length

/-- A table replaced. -/
def putTable (s : State) (h : Nat) (t : GthTable) : State := modGth s (fun g => { g with tables := tset g.tables h t })

/-- A table changed, where it is registered. -/
def modTable (s : State) (h : Nat) (f : GthTable → GthTable) : State := modGth s (fun g => { g with tables := tmod g.tables h f })

/-- Key of a row: table × 2^32 + row. -/
def gRow (h r : Nat) : Nat := h * 2 ^ 32 + r

/-- The redirect of a row (R281): a row without one is TAIL. -/
def redirectOf (s : State) (h r : Nat) : Nat × Word := tgetD s.tak.redirects (gRow h r) (0, 0)

/-- A table's redirects dropped: no row of a new table has one. -/
def dropRedirects (s : State) (h : Nat) : State :=
  { s with tak := { s.tak with redirects := tkeep (fun k _ => k / 2 ^ 32 != h) s.tak.redirects } }

/-- TABLE_REGISTER (R276–R278); a reserved OP fails with the same check. -/
def tableRegister (s : State) (k : RingKey) (d : Desc) : State :=
  ofForm (dOpcode d == 0x30 && !(decide (1 ≤ gOp d) && decide (gOp d ≤ 4))) s
    (runDesc s k d (registerBytes d) (registerChecks d) (fun s k id =>
      completeOk (setTables (dropRedirects s (gTable d)) (tset s.gth.tables (gTable d) (gNew d k.ctx (ctxTenant s k.ctx)))) id))

/-- Whether a running descriptor uses a table (R279). -/
def tableInUse (s : State) (h : Nat) : Bool :=
  (tvals s.gth.runs).any (fun r => r.table == h) || (tvals s.gth.refresh).any (fun r => r.table == h)

/-- Takes of a table's migrations that wait for their mirrored intents, which never commit once the table is freed (R293). -/
def dropMigrationTakes (s : State) (h : Nat) : State :=
  let mine := s.tak.coord.filter (fun e => match e.2.who with
    | .migrate t _ => t == h
    | _ => false)
  mine.foldl (fun s e => finishPart { s with tak := { s.tak with coord := tdel s.tak.coord e.1 } } ⟨self s, e.1⟩ false) s

/-- A table is freed; its flash tail stays as it is (R279). -/
def freeTable (s : State) (h : Nat) : State :=
  let s1 := setTables (dropRedirects (dropMigrationTakes s h) h) (tdel s.gth.tables h)
  modGth s1 (fun g => { g with
    moves := tkeep (fun k _ => k / 2 ^ 32 != h) g.moves, adds := g.adds.filter (fun a => a.table != h) })

/-- The tables of a context are freed at its end (R279). -/
def freeTables (s : State) (ctx : Nat) : State :=
  (tkeys (tkeep (fun _ t => t.ctx == ctx) s.gth.tables)).foldl freeTable s

/-- Failing bytes of FREE, REFRESH, LOAD and SYNC: fields that the operation does not use must be zero (R276). -/
def tableOpBytes (d : Desc) : List Nat :=
  let op := gOp d
  resv d 0x10 15 3 ++ badAt (gTable d == 0) 0x10 16 ++ resv d 0x10 63 32 ++
    (if op = 1 then resv d 0x18 31 0 else []) ++ resv d 0x18 63 32 ++ resvWords d [0x20, 0x28] ++ resv d 0x30 31 0 ++
    (if op = 3 then [] else resv d 0x30 63 32) ++ (if op = 1 then resv d 0x38 63 0 else [])

/-- The table a descriptor names. -/
def tableAt (s : State) (h : Nat) : GthTable :=
  tgetD s.gth.tables h ⟨0, 0, 0, false, 0, 0, 0, 0, 0, 0, [], [], []⟩

/-- A table exists, and the descriptor's context registered it (R279). -/
def ownerChecks (d : Desc) (s : State) (k : DescKey) : List Check :=
  [chk (!thas s.gth.tables (gTable d)) St.GTH_NO_TABLE 0x12, chk ((tableAt s (gTable d)).ctx != k.ctx) St.GTH_TABLE_PROT 0x12]

/-- The checks of the list of REFRESH, LOAD or SYNC (R73, R276). -/
def listChecks (d : Desc) (s : State) (k : DescKey) (write : Bool) (len : Nat) : List Check :=
  [chk (gList d % 64 != 0) St.HPT_BAD_ADDR 0x38, chk (!hostOk s k write (gList d) len) St.HPT_PROT 0x38]

/-- TABLE_FREE (R279). -/
def tableFree (s : State) (k : RingKey) (d : Desc) : State :=
  ofForm (dOpcode d == 0x30 && gOp d == 1) s
    (runDesc s k d (tableOpBytes d)
      (fun s k => ownerChecks d s k ++ [chk (tableInUse s (gTable d)) St.GTH_TABLE_BUSY 0x12])
      (fun s _ id => completeOk (freeTable s (gTable d)) id))

/-! ### Rows -/

/-- FP32 values of a row's bytes, widened exactly (R286). -/
def rowValues (t : GthTable) (bs : List Byte) : List F32 :=
  let e := gElem t.fmt
  (List.range t.dim).map (fun i =>
    let c := bytesNat ((bs.drop (e * i)).take e)
    if t.fmt = 0 then BitVec.ofNat 32 c else widen (if t.fmt = 1 then fmtBF16 else fmtE4M3) c)

/-- FP32 values as bytes. -/
def f32Bytes (xs : List F32) : List Byte := xs.flatMap (fun x => natBytes 4 x.toNat)

/-- FP32 values in HBM. -/
def f32At (s : State) (a n : Nat) : List F32 := (List.range n).map (fun i => BitVec.ofNat 32 (readNat s (a + 4 * i) 4))

/-- Element-wise FP32 sum. -/
def addValues (xs ys : List F32) : List F32 := xs.zipWith f32Add ys

/-- FP32 values added to values in HBM by the atomic unit (R313); none where a line cannot be read. -/
def addAt' (s : State) (a : Nat) (xs : List F32) : Option State :=
  if (readRefusal s a (4 * xs.length)).isSome then none
  else some (writeMem s a (f32Bytes (addValues (f32At s a xs.length) xs)))

/-- Where a row's old copy lies during a migration, else where it is: its hot slot, or none for the tail. -/
def copySlot (s : State) (h r : Nat) : Option Nat :=
  let rd := redirectOf s h r
  if rd.1 = 1 then some (bits rd.2 23 0)
  else if rd.1 = 2 then
    match tget s.gth.moves (gRow h r) with
    | some m => if m.demote then some (bits m.oldLoc 23 0) else none
    | none => none
  else none

/-- Sums that a lookup adds to the copy it reads: the row's delta entry and side-log entry (R281); none where one cannot be
read. -/
def rowSums (s : State) (t : GthTable) (r : Nat) : Option (List (List F32)) :=
  let as := (tget t.delta r).toList.map (deltaAddr t) ++ (tget t.side r).toList.map (sideAddr t)
  if as.any (fun a => (readRefusal s a (4 * t.dim)).isSome) then none else some (as.map (fun a => f32At s a t.dim))

/-- A row with sums added: an FP32 row, since only such a table is updated (R288). -/
def withSums (t : GthTable) (bs : List Byte) (sums : List (List F32)) : List Byte :=
  if sums.isEmpty then bs
  else
    let v := f32Bytes (sums.foldl addValues (rowValues t bs))
    v ++ bs.drop v.length

/-- What fetching a row comes to. -/
inductive Fetched where
  | row (bytes : List Byte)
  | later (s : State) (sums : List (List F32))
  | error
  deriving DecidableEq, Repr

/-- The tail copy of a row is asked for: from host memory, or from flash (R281, R282). -/
def askTail (s : State) (t : GthTable) (flight r : Nat) : State :=
  if t.flash then emit s (.flashAsk t.tenant false (tailAddr t r) (tRb t) [])
  else emit s (.hostRead (.shared (some flight)) (tailAddr t r) (tRb t))

/-- A row fetched by its redirect state (R281). -/
def fetchRow (s : State) (h flight r : Nat) : Fetched :=
  let t := tableAt s h
  match rowSums s t r, copySlot s h r with
  | none, _ => .error
  | some sums, some slot =>
    if (readRefusal s (slotAddr t slot) (tRb t)).isSome then .error
    else .row (withSums t (readMem s (slotAddr t slot) (tRb t)) sums)
  | some sums, none => .later (askTail s t flight r) sums

/-! ### Lists and windows (R283, R284, R287) -/

/-- TABLE of GATHER and UPDATE -/
def gaTable (d : Desc) : Nat := dfld d 0x10 15 0
/-- MODE is COPY -/
def gaCopy (d : Desc) : Bool := dOpcode d == 0x31 && dfld d 0x10 17 16 == 1
/-- WEIGHTED -/
def gaWeighted (d : Desc) : Bool := if dOpcode d == 0x31 then bit d.w2 18 else bit d.w2 16
/-- NIDX -/
def gaNidx (d : Desc) : Nat := dfld d 0x10 60 32
/-- NBAGS -/
def gaBags (d : Desc) : Nat := dfld d 0x38 23 0
/-- OUT is a tensor handle -/
def gaTensor (d : Desc) : Bool := bit d.w2 19
/-- OUT_FMT is BF16 -/
def gaBf16 (d : Desc) : Bool := bit d.w2 20
/-- Output rows -/
def gaOutRows (d : Desc) : Nat := if gaCopy d then gaNidx d else gaBags d
/-- Stride of an output row in host memory (R283) -/
def gaStride (d : Desc) (dim : Nat) : Nat := roundUp (dim * (if gaBf16 d then 2 else 4)) 64

/-- The bag of each index, in order: index i of OFF[b] to OFF[b + 1] − 1 is of bag b (R283). -/
def bagList : List Nat → Nat → List Nat
  | a :: b :: rest, n => List.replicate (b - a) n ++ bagList (b :: rest) (n + 1)
  | _, _ => []

/-- An index with its position, row, bag and weight. -/
structure GIndex where
  pos : Nat
  row : Nat
  bag : Nat
  weight : F32
  deriving DecidableEq, Repr

/-- The index list of a descriptor. -/
def gIndexes (r : GthRun) : List GIndex :=
  let bags := bagList (r.lists.offsets.take (gaBags r.desc + 1)) 0
  (r.lists.indexes.take (gaNidx r.desc)).zipIdx.map (fun p =>
    ⟨p.2, p.1, bags.getD p.2 0, if gaWeighted r.desc then r.lists.weights.getD p.2 0 else 0x3F800000#32⟩)

/-- A window of 65,536 consecutive indices (R284). -/
def windowOf (r : GthRun) (w : Nat) : List GIndex := ((gIndexes r).drop (65536 * w)).take 65536

/-- Number of windows. -/
def windows (r : GthRun) : Nat := ceilDiv (gaNidx r.desc) 65536

/-- Unique rows of a window, rising. -/
def windowRows (ix : List GIndex) : List Nat := sortBy (fun a b => decide (a < b)) (ix.map (fun i => i.row)).dedup

/-- The fault of a descriptor's lists, with its position (R287): offsets first, then indices. -/
def listFault (d : Desc) (g : GatherLists) (rows : Nat) : Option (Status × Nat) :=
  let offs := g.offsets.take (gaBags d + 1)
  let o (i : Nat) : Nat := offs.getD i 0
  let badOff : Option Nat :=
    if gaCopy d then none
    else if o 0 ≠ 0 then some 0
    else match firstFree (gaBags d) (fun b => decide (o (b + 1) < o b)) with
      | some b => some (b + 1)
      | none => if o (gaBags d) ≠ gaNidx d then some (gaBags d) else none
  match badOff with
  | some p => some (St.GTH_BAD_OFFSETS, p)
  | none => ((g.indexes.take (gaNidx d)).findIdx? (fun i => decide (rows ≤ i))).map (fun p => (St.GTH_BAD_INDEX, p))

/-- A run replaced. -/
def putRun (s : State) (id : Nat) (r : GthRun) : State := modGth s (fun g => { g with runs := tset g.runs id r })

/-- A run ends with a status and DETAIL. -/
def endRun (s : State) (id : Nat) (st : Status) (detail : Option Word) : State :=
  let s1 := modGth s (fun g => { g with runs := tdel g.runs id, adds := g.adds.filter (fun a => a.flight != id) })
  match detail with
  | some w => completeWith s1 id st w
  | none => completeSt s1 id st

/-! ### GATHER -/

/-- The row with the smallest count leaves a full carry cache, the least recently used one on a tie (R284). -/
def evictCarry (r : GthRun) : GthRun :=
  if r.carry.length < r.room then r
  else
    match minBy (fun e => tgetD r.counts e.1 0 * 2 ^ 64 + e.2.used) r.carry with
    | some e => { r with carry := tdel r.carry e.1 }
    | none => r

/-- Rows of a window in progress: the state, the run, and the row that could not be read. -/
structure Fetching where
  s : State
  run : GthRun
  bad : Option Nat
  deriving DecidableEq, Repr

/-- One unique row of a window (R284): counted, taken from the carry cache or fetched, and placed in the cache. -/
def fetchOne (id : Nat) (ix : List GIndex) (x : Fetching) (row : Nat) : Fetching :=
  match x.bad with
  | some _ => x
  | none =>
    let occ := (ix.filter (fun i => i.row == row)).length
    let r := { x.run with counts := tset x.run.counts row (min (2 ^ 32 - 1) (tgetD x.run.counts row 0 + occ)), uses := x.run.uses + 1 }
    match tget r.carry row with
    | some c =>
      { x with
        s := bump x.s F.GTH_CARRY_HIT_CNT_COUNT
        run := { r with carry := tset r.carry row { c with used := r.uses }, rows := tset r.rows row c.bytes } }
    | none =>
      let r1 := evictCarry r
      let keep (bs : List Byte) : Tbl Carried := if r1.carry.length < r1.room then tset r1.carry row ⟨r1.uses, bs⟩ else r1.carry
      let s1 := bump x.s F.GTH_FETCH_CNT_COUNT
      match fetchRow s1 r.table id row with
      | .error => { x with s := s1, run := r, bad := some row }
      | .row bs => { x with s := s1, run := { r1 with carry := keep bs, rows := tset r1.rows row bs } }
      | .later s2 sums => { x with s := s2, run := { r1 with carry := keep [], want := tset r1.want row sums } }

/-- Bytes of an output element (R286). -/
def outElem (bf16 : Bool) (x : F32) : List Byte := if bf16 then natBytes 2 (narrow fmtBF16 x) else natBytes 4 x.toNat

/-- Whether an output element is NaN or infinite as it is written (R286). -/
def outSpecial (bf16 : Bool) (x : F32) : Bool :=
  match f32Val (if bf16 then widen fmtBF16 (narrow fmtBF16 x) else x) with
  | .fin _ _ _ => false
  | _ => true

/-- The output rows of a GATHER, element by element (R284, R286). -/
def gatherRows (s : State) (r : GthRun) (t : GthTable) : List (List F32) :=
  let ix := gIndexes r
  let value (i : GIndex) : List F32 := rowValues t (tgetD (r.past.getD (i.pos / 65536) []) i.row [])
  if gaCopy r.desc then ix.map value
  else
    (List.range (gaBags r.desc)).map (fun b =>
      let mine := (ix.filter (fun i => i.bag == b)).map (fun i => (i.weight, value i))
      (List.range t.dim).map (fun e =>
        poolSum (s.free * 2 ^ 40 + b * 4096 + e) mine.length (mine.map (fun p => p.1)) (mine.map (fun p => [p.1, p.2.getD e 0]))))

/-- The output written row by row to host memory or to the tensor (R283). -/
def writeRows (s : State) (r : GthRun) (t : GthTable) (rows : List (List F32)) : State :=
  let bytes (xs : List F32) : List Byte := xs.flatMap (outElem (gaBf16 r.desc))
  rows.zipIdx.foldl (fun s p =>
    if gaTensor r.desc then
      writeMem s ((tensorOf s ((Desc.word r.desc 6).toNat % 2 ^ 32)).base + p.2 * (bytes p.1).length) (bytes p.1)
    else
      let bs := bytes p.1
      emit s (.hostWrite ((Desc.word r.desc 6).toNat + p.2 * gaStride r.desc t.dim) bs)) s

/-- A GATHER whose last window is over writes its output and completes, with NUMERIC where an element is special (R286). -/
def finishGather (s : State) (id : Nat) (r : GthRun) : State :=
  let t := tableAt s r.table
  let rows := gatherRows s r t
  let special := rows.any (fun xs => xs.any (outSpecial (gaBf16 r.desc)))
  endRun (tickFree (writeRows s r t rows)) id (if special then St.GTH_NUMERIC else St.OK) none

/-- The rows that came in take their place in the carry cache. -/
def fillCarry (r : GthRun) : GthRun :=
  { r with carry := tmap (fun k c => { c with bytes := tgetD r.rows k c.bytes }) r.carry }

/-- Windows run one after another until one waits for rows, or the list is done (R284); `n` bounds them. -/
def runWindows : Nat → State → Nat → State
  | 0, s, _ => s
  | n + 1, s, id =>
    match tget s.gth.runs id with
    | none => s
    | some r =>
      if windows r ≤ r.window then finishGather s id r
      else
        let ix := windowOf r r.window
        let x := (windowRows ix).foldl (fetchOne id ix) ⟨s, r, none⟩
        match x.bad with
        | some row => endRun x.s id St.GTH_ROW_ERR (some (at' 0 32 row))
        | none =>
          if x.run.want.isEmpty then
            let r1 := fillCarry x.run
            runWindows n (putRun x.s id { r1 with past := r1.past ++ [r1.rows], rows := [], window := r1.window + 1 }) id
          else putRun x.s id x.run

/-! ### Engines (R285) -/

/-- A run gets an engine and its first window begins. -/
def startRun (s : State) (id : Nat) (r : GthRun) : State :=
  let t := tableAt s r.table
  let s1 := putRun s id { r with started := true, room := rd s F.GTH_CFG_CARRY_KIB * 1024 / tRb t }
  if dOpcode r.desc = 0x31 then runWindows (windows r + 1) s1 id else addUnit s1 2 (flightCtx id) none (.work id) 0

/-- Waiting runs take free engines: highest PRIO first, then the oldest (R102, R285); `n` bounds them. -/
def startEngines : Nat → State → State
  | 0, s => s
  | n + 1, s =>
    if 4 ≤ ((tvals s.gth.runs).filter (fun r => r.started)).length then s
    else
      match minBy (fun e => (3 - ctxPrio s (flightCtx e.1)) * 2 ^ 64 + e.2.order) (s.gth.runs.filter (fun e => !e.2.started)) with
      | none => s
      | some e => startEngines n (startRun s e.1 e.2)

/-- Engines that fell free are taken. -/
def engines (s : State) : State := startEngines (s.gth.runs.length + 1) s

/-- Failing bytes of GATHER (R283). -/
def gatherBytes (d : Desc) : List Nat :=
  let copy := dfld d 0x10 17 16 == 1
  badAt (decide (1 < dfld d 0x10 17 16)) 0x10 16 ++ resv d 0x10 31 21 ++
  badAt (gaNidx d == 0 || decide (2 ^ 28 < gaNidx d)) 0x10 32 ++ resv d 0x10 63 61 ++
  (if copy then resv d 0x20 63 0 else []) ++ (if bit d.w2 18 then [] else resv d 0x28 63 0) ++
  (if copy then resv d 0x38 23 0 else badAt (gaBags d == 0) 0x38 0) ++ resv d 0x38 63 24

/-- The host ranges that GATHER and UPDATE read are granted (R283, R288). -/
def readProt (d : Desc) (s : State) (k : DescKey) : List Check :=
  [chk (!hostOk s k false (Desc.word d 3).toNat (4 * gaNidx d)) St.HPT_PROT 0x18,
   chk (!gaCopy d && !hostOk s k false (Desc.word d 4).toNat (4 * (gaBags d + 1))) St.HPT_PROT 0x20,
   chk (gaWeighted d && !hostOk s k false (Desc.word d 5).toNat (4 * gaNidx d)) St.HPT_PROT 0x28]

/-- A table exists, and its tenant is the descriptor's (R279). -/
def useChecks (d : Desc) (s : State) (k : DescKey) : List Check :=
  [chk (!thas s.gth.tables (gaTable d)) St.GTH_NO_TABLE 0x10,
   chk ((tableAt s (gaTable d)).tenant != ctxTenant s k.ctx) St.GTH_TABLE_PROT 0x10]

/-- Whether an output tensor fits (R283). -/
def outTensorOk (s : State) (d : Desc) : Bool :=
  match tget s.mxe.tensors ((Desc.word d 6).toNat % 2 ^ 32) with
  | none => false
  | some x =>
    x.rows == gaOutRows d && x.cols == (tableAt s (gaTable d)).dim && x.fmt == (if gaBf16 d then 0 else 7) && x.layout == 0 &&
      !x.hbm && !x.coded

/-- The checks of GATHER (R73, R279, R283). -/
def gatherChecks (d : Desc) (s : State) (k : DescKey) : List Check :=
  let len := gaOutRows d * gaStride d (tableAt s (gaTable d)).dim
  [chk (!gaTensor d && (Desc.word d 6).toNat % 64 != 0) St.HPT_BAD_ADDR 0x30] ++ readProt d s k ++
  [chk (!gaTensor d && !hostOk s k true (Desc.word d 6).toNat len) St.HPT_PROT 0x30] ++ useChecks d s k ++
  [chk (gaTensor d && !outTensorOk s d) St.MXE_OPERAND_MISMATCH 0x30]

/-- A GATHER or UPDATE is accepted: a fault of its lists ends it (R287), else it waits for an engine (R285). -/
def acceptRun (s : State) (id : Nat) (d : Desc) (g : GatherLists) : State :=
  match listFault d g (tableAt s (gaTable d)).rows with
  | some (st, p) => completeWith s id st (at' 0 32 p)
  | none =>
    let r : GthRun :=
      { desc := d, lists := g, table := gaTable d, started := false, order := s.gth.order, window := 0, room := 0, counts := [],
        carry := [], uses := 0, rows := [], want := [], failed := none, past := [] }
    engines (modGth s (fun x => { x with runs := tset x.runs id r, order := x.order + 1 }))

/-- GATHER_POOL (R283–R287); a reserved MODE fails with the same check. -/
def gatherPool (s : State) (k : RingKey) (d : Desc) (g : GatherLists) : State :=
  ofForm (dOpcode d == 0x31 && dfld d 0x10 17 16 != 1) s
    (runDesc s k d (gatherBytes d) (gatherChecks d) (fun s _ id => acceptRun s id d g))

/-- GATHER_COPY (R283–R287). -/
def gatherCopy (s : State) (k : RingKey) (d : Desc) (g : GatherLists) : State :=
  ofForm (dOpcode d == 0x31 && dfld d 0x10 17 16 == 1) s
    (runDesc s k d (gatherBytes d) (gatherChecks d) (fun s _ id => acceptRun s id d g))

/-- GATHER_ROW_DATA (R284, R287): the tail copy of a row returns; a window whose rows are all in is over. -/
def gatherRowData (s : State) (k : DescKey) (row : Nat) (ok : Bool) (bytes : List Byte) : State :=
  whenUp s (fun s =>
    let id := flightId k
    match tget s.gth.runs id with
    | none => s
    | some r =>
      match tget r.want row with
      | none => s
      | some sums =>
        if !ok then engines (endRun s id St.GTH_ROW_ERR (some (at' 0 32 row)))
        else
          let t := tableAt s r.table
          let r1 := { r with want := tdel r.want row, rows := tset r.rows row (withSums t (bytes.take (tRb t)) sums) }
          if r1.want.isEmpty then
            let r2 := fillCarry r1
            engines (runWindows (windows r + 1)
              (putRun s id { r2 with past := r2.past ++ [r2.rows], rows := [], window := r2.window + 1 }) id)
          else putRun s id r1)

/-! ### UPDATE (R288–R290) -/

/-- Failing bytes of UPDATE (R288). -/
def updateBytes (d : Desc) : List Nat :=
  resv d 0x10 31 17 ++ badAt (gaNidx d == 0 || decide (2 ^ 28 < gaNidx d)) 0x10 32 ++ resv d 0x10 63 61 ++
  (if bit d.w2 16 then [] else resv d 0x28 63 0) ++ badAt (gaBags d == 0) 0x38 0 ++ resv d 0x38 31 24

/-- The checks of UPDATE (R73, R279, R288). -/
def updateChecks (d : Desc) (s : State) (k : DescKey) : List Check :=
  readProt d s k ++
  [chk (!hostOk s k false (Desc.word d 6).toNat (gaBags d * roundUp (4 * (tableAt s (gaTable d)).dim) 64)) St.HPT_PROT 0x30] ++
  useChecks d s k ++ [chk ((tableAt s (gaTable d)).fmt != 0) St.GTH_READ_ONLY 0x10]

/-- UPDATE (R288, R289). -/
def update (s : State) (k : RingKey) (d : Desc) (g : GatherLists) : State :=
  ofForm (dOpcode d == 0x32) s (runDesc s k d (updateBytes d) (updateChecks d) (fun s _ id => acceptRun s id d g))

/-- The pre-summed delta of a row in a window (R289). -/
def rowDelta (s : State) (r : GthRun) (t : GthTable) (ix : List GIndex) (row : Nat) : List F32 :=
  let mine := ix.filter (fun i => i.row == row)
  let scale : F32 := BitVec.ofNat 32 (dfld r.desc 0x38 63 32)
  let grads := mine.map (fun i => (i.weight, rowValues t (r.lists.rows.getD i.bag [])))
  (List.range t.dim).map (fun e =>
    preSum (s.free * 2 ^ 45 + (row % 2 ^ 32) * 4096 + e) scale (grads.map (fun p => p.1)) (grads.map (fun p => [p.1, p.2.getD e 0])))

/-- A free entry of `n` that a log does not use. -/
def freeEntry (log : Tbl Nat) (n : Nat) : Option Nat := firstFree n (fun i => !(tvals log).contains i)

/-- An add to a row at the place that R281 names for its state. None: a line cannot be read, or no delta entry is free. -/
def addRow (s : State) (h flight row : Nat) (xs : List F32) : Option State :=
  let t := tableAt s h
  let rd := redirectOf s h row
  if rd.1 = 1 then addAt' s (slotAddr t (bits rd.2 23 0)) xs
  else if rd.1 = 2 then
    match tget t.side row with
    | some i =>
      if t.frozen.contains row then some (modGth s (fun g => { g with adds := g.adds ++ [⟨h, row, flight, xs⟩] }))
      else addAt' s (sideAddr t i) xs
    | none => none
  else if !t.flash then some (emit s (.hostAdd (tailAddr t row) xs))
  else
    match tget t.delta row with
    | some i => addAt' s (deltaAddr t i) xs
    | none =>
      match freeEntry t.delta t.deltaRows with
      | none => none
      | some i =>
        let s1 := zeroMem (putTable s h { t with delta := tset t.delta row i }) (deltaAddr t i) (4 * t.dim)
        addAt' s1 (deltaAddr t i) xs

/-- Delta entries that a window needs beyond those its rows have (R290). -/
def deltaNeed (s : State) (h : Nat) (rows : List Nat) : Nat :=
  let t := tableAt s h
  if t.flash then (rows.filter (fun r => (redirectOf s h r).1 == 0 && !thas t.delta r)).length else 0

/-- A window of an UPDATE is applied, row by row (R289). -/
def applyWindow (s : State) (id : Nat) (r : GthRun) : State :=
  let t := tableAt s r.table
  let ix := windowOf r r.window
  let go (s : State) (row : Nat) : State :=
    match addRow s r.table id row (rowDelta s r t ix row) with
    | some s1 => bump s1 F.GTH_ADD_CNT_COUNT
    | none => modGth s (fun g => { g with runs := tmod g.runs id (fun r => { r with failed := some (r.failed.getD row) }) })
  tickFree ((windowRows ix).foldl go s)

/-- An UPDATE whose windows are over completes once none of its adds waits for a migration (R289, R292). -/
def finishUpdate (s : State) (id : Nat) : State :=
  match tget s.gth.runs id with
  | none => s
  | some r =>
    if dOpcode r.desc ≠ 0x32 ∨ r.window < windows r ∨ s.gth.adds.any (fun a => a.flight == id) = true then s
    else
      match r.failed with
      | some row => engines (endRun s id St.GTH_ROW_ERR (some (at' 0 32 row)))
      | none => engines (endRun s id St.OK none)

/-- The matrix unit of an UPDATE's window has ended (R103, R289): the adds are made, or the failing status ends the UPDATE; a
window that needs more delta entries than are free is not applied, nor any later one (R290). -/
def windowDone (s : State) (id : Nat) (st : Status) : State :=
  match tget s.gth.runs id with
  | none => s
  | some r =>
    let t := tableAt s r.table
    if st ≠ St.OK then engines (endRun s id st none)
    else if t.deltaRows - t.delta.length < deltaNeed s r.table (windowRows (windowOf r r.window)) then
      engines (endRun s id St.GTH_DELTA_FULL (some (at' 0 29 (65536 * r.window))))
    else
      let s1 := applyWindow s id r
      let s2 := modGth s1 (fun g => { g with runs := tmod g.runs id (fun r => { r with window := r.window + 1 }) })
      if r.window + 1 < windows r then addUnit s2 2 (flightCtx id) none (.work id) 0 else finishUpdate s2 id

/-- Runs whose descriptor has ended otherwise: a host fault (R91) or a teardown. -/
def sweepRuns (s : State) : State :=
  let gone (id : Nat) : Bool := !thas s.hpt.flight id
  if s.gth.runs.any (fun e => gone e.1) || s.gth.refresh.any (fun e => gone e.1) then
    engines (modGth s (fun g => { g with
      runs := tkeep (fun id _ => !gone id) g.runs, refresh := tkeep (fun id _ => !gone id) g.refresh
      adds := g.adds.filter (fun a => !gone a.flight) }))
  else s

end Sys2Proof.Machine
end

