-- ==== Sys2Proof/Machine/Mig.lean ====
section
/-! DEFINITION. Hot-set refresh, flash-tail contents, and migrations (R291–R295). -/

namespace Sys2Proof.Machine

open Sys2Proof

/-! ### Migrations -/

/-- The ROW object of a row (R126). -/
def rowObj (h r : Nat) : Obj := ⟨kRow, r, h⟩

/-- A migration changed. -/
def modMove (s : State) (h r : Nat) (f : Migration → Migration) : State :=
  modGth s (fun g => { g with moves := tmod g.moves (gRow h r) f })

/-- The location a migration moves its row to (R281). -/
def newLoc (m : Migration) : Word := if m.demote then at' 63 1 1 else at' 0 24 m.slot

/-- A take of a migration: one REDIRECT (R292). -/
def redirectTake (s : State) (h r expect state : Nat) (loc : Word) : State :=
  localFor s .block (.migrate h r) [⟨0, rowObj h r, .redirect expect state loc⟩]

/-- ROW, SLOT and DEMOTE of a REFRESH entry (R291). -/
def eRow (w : Word) : Nat := bits w 31 0
/-- SLOT -/
def eSlotOf (w : Word) : Nat := bits w 55 32
/-- DEMOTE -/
def eDemote (w : Word) : Bool := bit w 63

/-- Whether a hot slot is taken: a HOT row names it, or a promotion goes to it. -/
def slotTaken (s : State) (h slot : Nat) : Bool :=
  s.tak.redirects.any (fun e => e.1 / 2 ^ 32 == h && e.2.1 == 1 && bits e.2.2 23 0 == slot) ||
    s.gth.moves.any (fun e => e.1 / 2 ^ 32 == h && (if e.2.demote then bits e.2.oldLoc 23 0 == slot else e.2.slot == slot))

/-- Whether a demotion of the same REFRESH is about to free a slot (R291). -/
def slotLeaving (s : State) (flight h slot : Nat) : Bool :=
  s.gth.moves.any (fun e => e.1 / 2 ^ 32 == h && e.2.flight == flight && e.2.demote && bits e.2.oldLoc 23 0 == slot)

/-- Why an entry fails (R291), if it does. -/
def entryFault (s : State) (flight h : Nat) (w : Word) : Option Status :=
  let t := tableAt s h
  let st := (redirectOf s h (eRow w)).1
  if t.rows ≤ eRow w then some St.GTH_BAD_INDEX
  else if bits w 62 56 != 0 || (if eDemote w then eSlotOf w != 0 else decide (t.hotRows ≤ eSlotOf w)) then some St.GTH_BAD_SLOT
  else if thas s.gth.moves (gRow h (eRow w)) || st != (if eDemote w then 1 else 0) then some St.GTH_ROW_BUSY
  else if !eDemote w && slotTaken s h (eSlotOf w) && !slotLeaving s flight h (eSlotOf w) then some St.GTH_SLOT_BUSY
  else none

/-- A REFRESH changed. -/
def modRefresh (s : State) (id : Nat) (f : Refresh → Refresh) : State :=
  modGth s (fun g => { g with refresh := tmod g.refresh id f })

/-- An entry that failed; the record carries the first (R291): the one with the lowest index. -/
def failEntry (i : Nat) (st : Status) (r : Refresh) : Refresh :=
  { r with failed := match r.failed with
    | some (j, x) => if i < j then some (i, st) else some (j, x)
    | none => some (i, st) }

/-- The record of a REFRESH (R291). -/
def endRefresh (s : State) (id : Nat) (r : Refresh) : State :=
  let (i, st) := r.failed.getD (0xFFFFFFFF, St.OK)
  completeWith (modGth s (fun g => { g with refresh := tdel g.refresh id })) id st (mkWord [(0, 32, r.committed), (32, 32, i)])

/-- Migrations under way in a table. -/
def movesOf (s : State) (h : Nat) : Nat := (s.gth.moves.filter (fun e => e.1 / 2 ^ 32 == h)).length

/-- Entries of a REFRESH start in order, up to 64 at once in the table, until one must wait (R291); `n` bounds them. -/
def advanceRefresh : Nat → State → Nat → State
  | 0, s, _ => s
  | n + 1, s, id =>
    match tget s.gth.refresh id with
    | none => s
    | some r =>
      match r.entries[r.next]? with
      | none => if r.active.isEmpty then endRefresh s id r else s
      | some w =>
        match entryFault s id r.table w with
        | some st => advanceRefresh n (modRefresh s id (fun r => failEntry r.next st { r with next := r.next + 1 })) id
        | none =>
          if 64 ≤ movesOf s r.table || (!eDemote w && slotTaken s r.table (eSlotOf w)) then s
          else
            let old := redirectOf s r.table (eRow w)
            let m : Migration := ⟨id, r.next, eDemote w, eSlotOf w, old.2, .t1⟩
            let s1 := modGth s (fun g => { g with
              moves := tset g.moves (gRow r.table (eRow w)) m
              refresh := tset g.refresh id { r with next := r.next + 1, active := r.active ++ [r.next] } })
            advanceRefresh n (redirectTake s1 r.table (eRow w) old.1 2 (newLoc m)) id

/-- Every REFRESH of a table goes on as far as it can. -/
def advanceTable (s : State) (h : Nat) : State :=
  (s.gth.refresh.filter (fun e => e.2.table == h)).foldl (fun s e => advanceRefresh (e.2.entries.length + 1) s e.1) s

/-- TABLE_REFRESH (R291). -/
def tableRefresh (s : State) (k : RingKey) (d : Desc) (list : List Word) : State :=
  ofForm (dOpcode d == 0x30 && gOp d == 2) s
    (runDesc s k d (tableOpBytes d)
      (fun s k => listChecks d s k false (8 * gRows d) ++ ownerChecks d s k)
      (fun s _ id =>
        let r : Refresh := ⟨gTable d, list.take (gRows d), 0, [], 0, none⟩
        advanceRefresh (r.entries.length + 1) (modGth s (fun g => { g with refresh := tset g.refresh id r })) id))

/-- A migration is over: its entry failed with a status, or was committed; the table's REFRESHes go on. -/
def moveOver (s : State) (h r : Nat) (st : Status) : State :=
  match tget s.gth.moves (gRow h r) with
  | none => s
  | some m =>
    let s1 := modGth s (fun g => { g with moves := tdel g.moves (gRow h r) })
    let s2 := modRefresh s1 m.flight (fun x =>
      let y := { x with active := x.active.erase m.entry }
      if st = St.OK then { y with committed := y.committed + 1 } else failEntry m.entry st y)
    advanceTable (if st = St.OK then bump s2 F.GTH_MIGRATE_CNT_COUNT else s2) h

/-- The sum in a row's side-log entry. -/
def sideSum (s : State) (h r : Nat) : List F32 :=
  let t := tableAt s h
  match tget t.side r with
  | some i => f32At s (sideAddr t i) t.dim
  | none => []

/-- A row's side-log entry is freed. -/
def freeSide (s : State) (h r : Nat) : State :=
  modTable s h (fun t => { t with side := tdel t.side r, frozen := t.frozen.filter (fun x => x != r) })

/-- A side-log sum goes to where the row's adds now go; one that cannot be added is lost with the line it met (R313). -/
def applySide (s : State) (h r : Nat) (xs : List F32) : State :=
  if xs.all (fun x => x == 0#32) then s else (addRow s h 0 r xs).getD s

/-- Adds of a row that waited go to where the row's adds now go, and their UPDATEs may end (R292). -/
def releaseAdds (s : State) (h r : Nat) : State :=
  let mine := s.gth.adds.filter (fun a => a.table == h && a.row == r)
  let s1 := modGth s (fun g => { g with adds := g.adds.filter (fun a => !(a.table == h && a.row == r)) })
  let s2 := mine.foldl (fun s a => match addRow s h a.flight r a.xs with
    | some s1 => s1
    | none => modGth s (fun g => { g with runs := tmod g.runs a.flight (fun x => { x with failed := some (x.failed.getD r) }) })) s1
  mine.foldl (fun s a => finishUpdate s a.flight) s2

/-- T1 committed: the row's side-log entry takes its adds (R281, R292). -/
def beginMove (s : State) (h r : Nat) : State :=
  let t := tableAt s h
  let i := (freeEntry t.side 64).getD 0
  modMove (zeroMem (putTable s h { t with side := tset t.side r i }) (sideAddr t i) (4 * t.dim)) h r
    (fun m => { m with phase := .draining })

/-- T2 committed (R292): the side-log sum is applied to the new copy, the delta and side-log entries are freed, and waiting adds
go to the new copy. -/
def endMove (s : State) (h r : Nat) : State :=
  let xs := sideSum s h r
  let s1 := freeSide (modTable s h (fun t => { t with delta := tdel t.delta r })) h r
  moveOver (releaseAdds (applySide s1 h r xs) h r) h r St.OK

/-- A migration goes back (R293): a take returns the redirect to its state before T1. -/
def undoMove (s : State) (h r : Nat) (st : Status) : State :=
  match tget s.gth.moves (gRow h r) with
  | none => s
  | some m =>
    redirectTake (modMove (modTable s h (fun t => { t with frozen := t.frozen.filter (fun x => x != r) ++ [r] })) h r
      (fun m => { m with phase := .undo st })) h r 2 (if m.demote then 1 else 0) m.oldLoc

/-- A take of a migration has ended (R292, R293). -/
def migrateEnded (s : State) (h r : Nat) (st : Status) : State :=
  match tget s.gth.moves (gRow h r) with
  | none => s
  | some m =>
    match m.phase with
    | .t1 => if st = St.OK then beginMove s h r else moveOver s h r st
    | .t2 => if st = St.OK then endMove s h r else undoMove s h r st
    | .undo st1 =>
      if st = St.OK then
        let xs := sideSum s h r
        moveOver (releaseAdds (applySide (freeSide s h r) h r xs) h r) h r st1
      else s
    | _ => s

/-- Bytes written to the tail of a row. -/
def writeTail (s : State) (t : GthTable) (r : Nat) (bs : List Byte) : State :=
  if t.flash then emit s (.flashAsk t.tenant true (tailAddr t r) bs.length bs) else emit s (.hostWrite (tailAddr t r) bs)

/-- MIGRATION_ADDS_DRAINED (R292 steps 2 and 3): the old copy is read. A hot slot's is at once written to the tail, a tail's is
asked for. -/
def migrationAddsDrained (s : State) (table row : Nat) : State :=
  whenUp s (fun s =>
    match tget s.gth.moves (gRow table row) with
    | none => s
    | some m =>
      if m.phase ≠ .draining then s
      else
        let t := tableAt s table
        let s1 := modMove s table row (fun m => { m with phase := .copying })
        if m.demote then
          let a := slotAddr t (bits m.oldLoc 23 0)
          if (readRefusal s a (tRb t)).isSome then undoMove s1 table row St.GTH_ROW_ERR
          else writeTail s1 t row (readMem s1 a (tRb t))
        else askTail s1 t m.flight row)

/-- The failing status of an entry whose copy met a fault (R293). -/
def copyFault (st : Status) : Status := if st = St.HPT_HOST_TIMEOUT ∨ st = St.HPT_HOST_DATA_ERR then st else St.GTH_ROW_ERR

/-- The merged row is written to its hot slot, from the tail copy and the delta entry (R292 step 3). -/
def fillHot (s : State) (t : GthTable) (m : Migration) (row : Nat) (bytes : List Byte) : Option State :=
  match tget t.delta row with
  | none => some (writeMem s (slotAddr t m.slot) (bytes.take (tRb t)))
  | some i =>
    if (readRefusal s (deltaAddr t i) (4 * t.dim)).isSome then none
    else some (writeMem s (slotAddr t m.slot) (withSums t (bytes.take (tRb t)) [f32At s (deltaAddr t i) t.dim]))

/-- MIGRATION_COPY_DONE (R292 steps 3 to 5, R293): `bytes` is the tail copy that a promotion read. The merged row stands in its new
place and T2 begins, the side-log entry frozen; or the migration goes back. -/
def migrationCopyDone (s : State) (table row : Nat) (st : BitVec 16) (bytes : List Byte) : State :=
  whenUp s (fun s =>
    match tget s.gth.moves (gRow table row) with
    | none => s
    | some m =>
      match m.phase with
      | .copying =>
        let t := tableAt s table
        if st ≠ 0 then undoMove s table row (copyFault st)
        else if m.demote && t.flash && (freeEntry t.delta t.deltaRows).isNone then undoMove s table row St.GTH_DELTA_FULL
        else
          match (if m.demote then some s else fillHot s t m row bytes) with
          | none => undoMove s table row St.GTH_ROW_ERR
          | some s1 =>
            let s2 := modMove (modTable s1 table (fun t => { t with frozen := t.frozen ++ [row] })) table row
              (fun m => { m with phase := .t2 })
            redirectTake s2 table row 2 (if m.demote then 0 else 1) (newLoc m)
      | .undo st1 => undoMove s table row st1
      | _ => s)

/-! ### Flash-tail contents -/

/-- The checks of LOAD (R294). -/
def loadChecks (d : Desc) (s : State) (k : DescKey) : List Check :=
  let t := tableAt s (gTable d)
  listChecks d s k false (gRows d * tRb t) ++ ownerChecks d s k ++
  [chk (!t.flash) St.GTH_NOT_FLASH 0x12, chk (decide (t.rows < gFirst d + gRows d)) St.GTH_BAD_INDEX 0x34,
   chk (s.tak.redirects.any (fun e => e.1 / 2 ^ 32 == gTable d && e.2.1 != 0 && decide (gFirst d ≤ e.1 % 2 ^ 32) &&
     decide (e.1 % 2 ^ 32 < gFirst d + gRows d))) St.GTH_ROW_BUSY 0x34]

/-- TABLE_LOAD (R294). -/
def tableLoad (s : State) (k : RingKey) (d : Desc) (rows : List (List Byte)) : State :=
  ofForm (dOpcode d == 0x30 && gOp d == 3) s
    (runDesc s k d (tableOpBytes d) (loadChecks d) (fun s _ id =>
      let h := gTable d
      let t := tableAt s h
      let s1 := (rows.take (gRows d)).zipIdx.foldl (fun s p => writeTail s t (gFirst d + p.2) (p.1.take (tRb t))) s
      let inRange (r : Nat) : Bool := decide (gFirst d ≤ r) && decide (r < gFirst d + gRows d)
      completeOk (modTable s1 h (fun t => { t with delta := tkeep (fun r _ => !inRange r) t.delta })) id))

/-- Rows whose delta entries a SYNC writes: those that are not MOVING, rising, up to COUNT (R295). -/
def syncRows (s : State) (h n : Nat) : List Nat :=
  ((tkeys (tableAt s h).delta).filter (fun r => (redirectOf s h r).1 != 2)).take n

/-- The 64 bytes that precede a merged row (R295). -/
def syncHead (row : Nat) : List Byte := natBytes 64 (row % 2 ^ 32)

/-- One entry of a SYNC: the merged row goes to the list and to flash, and the delta entry is freed. None: its flash copy or
delta entry cannot be read. -/
def syncRow (s : State) (h base i row : Nat) (copy : Option (List Byte)) : Option State :=
  let t := tableAt s h
  match copy, tget t.delta row with
  | some bs, some e =>
    if (readRefusal s (deltaAddr t e) (4 * t.dim)).isSome then none
    else
      let merged := withSums t (bs.take (tRb t)) [f32At s (deltaAddr t e) t.dim]
      let s1 := emit s (.hostWrite (base + i * (64 + tRb t)) (syncHead row ++ merged))
      some (modTable (writeTail s1 t row merged) h (fun t => { t with delta := tdel t.delta row }))
  | _, _ => none

/-- Entries of a SYNC in order until one cannot be read: the state, the entries written, and that row. -/
def syncRun (h base : Nat) : List (Nat × Option (List Byte)) → State → Nat → State × Nat × Option Nat
  | [], s, n => (s, n, none)
  | (row, copy) :: rest, s, n =>
    match syncRow s h base n row copy with
    | some s1 => syncRun h base rest s1 (n + 1)
    | none => (s, n, some row)

/-- TABLE_SYNC (R295): `flash` holds the flash copies of the rows that are written, in order; a copy that cannot be read ends it
with GTH_ROW_ERR. -/
def tableSync (s : State) (k : RingKey) (d : Desc) (flash : List (Option (List Byte))) : State :=
  ofForm (dOpcode d == 0x30 && gOp d == 4) s
    (runDesc s k d (tableOpBytes d)
      (fun s k => listChecks d s k true (gRows d * (64 + tRb (tableAt s (gTable d)))) ++ ownerChecks d s k)
      (fun s _ id =>
        let rows := syncRows s (gTable d) (gRows d)
        let r := syncRun (gTable d) (gList d) (rows.zipIdx.map (fun p => (p.1, (flash[p.2]?).getD none))) s 0
        match r.2.2 with
        | none => completeWith r.1 id St.OK (at' 0 32 r.2.1)
        | some row => completeWith r.1 id St.GTH_ROW_ERR (at' 0 32 row)))

end Sys2Proof.Machine
end

