-- ==== Sys2Proof/Machine/Philox.lean ====
section
/-! DEFINITION. The counter-based generator Philox4x32-10 (R49, R267). -/

namespace Sys2Proof.Machine

open Sys2Proof

/-- A counter of four 32-bit words. -/
structure Ctr where
  a : Nat
  b : Nat
  c : Nat
  d : Nat
  deriving DecidableEq, Repr

/-- One round under a round key. -/
def philoxRound (x : Ctr) (k0 k1 : Nat) : Ctr :=
  let p := 0xD2511F53 * x.a
  let q := 0xCD9E8D57 * x.c
  ⟨(q / 2 ^ 32) ^^^ x.b ^^^ k0, q % 2 ^ 32, (p / 2 ^ 32) ^^^ x.d ^^^ k1, p % 2 ^ 32⟩

/-- `n` rounds, the key bumped after each. -/
def philoxRounds : Nat → Ctr → Nat → Nat → Ctr
  | 0, x, _, _ => x
  | n + 1, x, k0, k1 => philoxRounds n (philoxRound x k0 k1) ((k0 + 0x9E3779B9) % 2 ^ 32) ((k1 + 0xBB67AE85) % 2 ^ 32)

/-- Word 0 of Philox4x32-10 under a 64-bit key. -/
def philox (key : Nat) (x : Ctr) : Nat := (philoxRounds 10 x (key % 2 ^ 32) (key / 2 ^ 32 % 2 ^ 32)).a

end Sys2Proof.Machine
end

