-- ==== Sys2Proof/Machine/Smp.lean ====
section
/-! DEFINITION. Sampler: parameters, trees, counts, logits in L16, rounds A and B, the walk, deliveries and host choices
(R75, R76, R114, R255–R272, R443). -/

namespace Sys2Proof.Machine

open Sys2Proof

/-! ### The parameter block (R256, R257) -/

/-- INV_TEMP -/
def pInvTemp (p : List Word) : Nat := bits (wordAt p 0) 15 0
/-- TOP_K -/
def pTopK (p : List Word) : Nat := bits (wordAt p 0) 28 16
/-- TOP_P -/
def pTopP (p : List Word) : Nat := bits (wordAt p 0) 47 32
/-- MIN_P -/
def pMinP (p : List Word) : Nat := bits (wordAt p 0) 63 48
/-- REP -/
def pRep (p : List Word) : Nat := bits (wordAt p 1) 15 0
/-- FREQ -/
def pFreq (p : List Word) : Int := signed 16 (bits (wordAt p 1) 31 16)
/-- PRES -/
def pPres (p : List Word) : Int := signed 16 (bits (wordAt p 1) 47 32)
/-- PROMPT_COUNTS -/
def pPromptCounts (p : List Word) : Bool := bit (wordAt p 1) 48
/-- LOGIT_FMT -/
def pLogitF32 (p : List Word) : Bool := bit (wordAt p 1) 49
/-- NSTOP -/
def pNstop (p : List Word) : Nat := bits (wordAt p 1) 63 60
/-- SEED -/
def pSeed (p : List Word) : Nat := (wordAt p 2).toNat
/-- LOGIT_ADDR -/
def pLogitAddr (p : List Word) : Nat := (wordAt p 3).toNat
/-- The 32-bit entry of STOP_i -/
def pStopEntry (p : List Word) (i : Nat) : Nat := fld (wordAt p (4 + i / 2)) (32 * (i % 2)) 32
/-- STOP_i -/
def pStop (p : List Word) (i : Nat) : Nat := pStopEntry p i % 2 ^ 20
/-- Whether a token is a stop token. -/
def isStop (p : List Word) (x : Nat) : Bool := (List.range (min 8 (pNstop p))).any (fun i => pStop p i == x)
/-- Tree nodes of the template. -/
def pNodes (p : List Word) : Nat := bits (wordAt p 8) 5 0 + 1
/-- The 16-bit entry of tree node `t` -/
def pNodeEntry (p : List Word) (t : Nat) : Nat := fld (wordAt p (16 + t / 4)) (16 * (t % 4)) 16
/-- PARENT_t -/
def pParent (p : List Word) (t : Nat) : Nat := pNodeEntry p t % 64
/-- RANK_t -/
def pRank (p : List Word) (t : Nat) : Nat := pNodeEntry p t / 64 % 64

/-- The default block of R257: a chain tree of SPEC_HEADS + 1 nodes. -/
def defaultParam (req heads : Nat) : List Word :=
  [at' 0 16 256, at' 0 16 256, at' 0 48 req, 0, 0, 0, 0, 0, at' 0 6 heads, 0, 0, 0, 0, 0, 0, 0] ++
    (List.range 16).map (fun k => mkWord ((List.range 4).map (fun j =>
      let t := 4 * k + j
      (16 * j, 16, if 1 ≤ t ∧ t ≤ heads then t - 1 else 0))))

/-- Depths of nodes 0 to n − 1 (R258). -/
def treeDepths (p : List Word) (n : Nat) : List Nat :=
  (List.range n).foldl (fun ds t => ds ++ [if t = 0 then 0 else ds.getD (pParent p t) 0 + 1]) []

/-- Depth of node `t`. -/
def treeDepth (p : List Word) (t : Nat) : Nat := (treeDepths p (t + 1)).getD t 0

/-- Nodes from `t` up to, and without, the root. -/
def treePath (p : List Word) : Nat → Nat → List Nat
  | 0, _ => []
  | n + 1, t => if t = 0 then [] else t :: treePath p n (pParent p t)

/-- The word of the tree mask for node `t` (R268). -/
def maskWord (p : List Word) (t : Nat) : Word := mkWord ((0 :: treePath p 64 t).map (fun u => (u, 1, 1)))

/-- SPEC_HEADS as the tree's template uses it: R_d of head `d` (R270). -/
def rankNeed (p : List Word) (n d : Nat) : Nat :=
  ((List.range n).filter (fun t => t != 0 && treeDepth p t == d)).foldl (fun a t => max a (pRank p t + 1)) 0

/-- Nodes of a request's tree in its next step (R118, R268, R271): the root alone where it must be. -/
def treeSize (s : State) (req : Nat) (r : Req) : Nat :=
  if r.rootOnly then 1
  else
    let toks := (tgetD s.smp.trees req []).length
    max 1 (min toks ((List.range (pNodes r.param)).filter (fun t => decide (r.committed + t ≤ 4194303))).length)

/-- Tokens of a request's tree, node 0 first. -/
def treeTokens (s : State) (req : Nat) : List Nat := tgetD s.smp.trees req []

/-! ### Slices and homes (R259, R264) -/

/-- First token of a slot's slice. -/
def sliceFirst (v n slot : Nat) : Nat := slot * v / n

/-- Tokens of a slot's slice. -/
def sliceLen (v n slot : Nat) : Nat := (slot + 1) * v / n - slot * v / n

/-- The place of a request in the running roster. -/
def stepIndex (s : State) (req : Nat) : Option Nat :=
  match s.sch.roster with
  | some x => x.seqs.findIdx? (fun q => q.1 == req)
  | none => none

/-- The sampling home of a request in the running step, as a node. -/
def samplingHome (s : State) (req : Nat) : Option Nat :=
  match stepIndex s req with
  | some i => memberAt s req (i % groupSize s)
  | none => none

/-- Key of a row of the sampler. -/
def smpRow (req node : Nat) : Nat := req * 64 + node

/-- The model a request runs on in the running step. -/
def stepModel (s : State) (req : Nat) (r : Req) : Nat := if runsStandin s req then r.standin.getD r.model else r.model

/-- The step number of the running roster. -/
def stepNumber (s : State) : Nat := match s.sch.roster with | some x => x.step | none => 0

/-! ### Count tables (R261, R262) -/

/-- The count of a local offset in a table. -/
def countOf (t : Tbl (Nat × Nat)) (o : Nat) : Nat :=
  match (List.range 8).findSome? (fun w => match tget t (o % 1024 * 8 + w) with
    | some e => if e.1 = o / 1024 then some e.2 else none
    | none => none) with
  | some c => c
  | none => 0

/-- `n` added to the count of a local offset, and whether another token's entry was replaced. -/
def addCount (t : Tbl (Nat × Nat)) (o n : Nat) : Tbl (Nat × Nat) × Bool :=
  let b := o % 1024 * 8
  match (List.range 8).find? (fun w => (tget t (b + w)).elim false (fun e => e.1 == o / 1024)) with
  | some w => (tset t (b + w) (o / 1024, min 65535 ((tgetD t (b + w) (0, 0)).2 + n)), false)
  | none =>
    match (List.range 8).find? (fun w => !thas t (b + w)) with
    | some w => (tset t (b + w) (o / 1024, min 65535 n), false)
    | none =>
      match minBy (fun w => (tgetD t (b + w) (0, 0)).2) (List.range 8) with
      | some w => (tset t (b + w) (o / 1024, min 65535 n), true)
      | none => (t, false)

/-- Tokens of this controller's slice counted for a request (R261, R262). -/
def countTokens (s : State) (req model : Nat) (toks : List Nat) : State :=
  let v := modelVocab s model
  let first := sliceFirst v (groupSize s) (ownSlot s)
  let len := sliceLen v (groupSize s) (ownSlot s)
  toks.foldl (fun s x =>
    if first ≤ x ∧ x < first + len then
      let r := addCount (tgetD s.smp.counts req []) (x - first) 1
      let s1 := { s with smp := { s.smp with counts := tset s.smp.counts req r.1 } }
      if r.2 then bump s1 F.SMP_EVICT_CNT_COUNT else s1
    else s) s

/-! ### Logits (R260, R263) -/

/-- log2(e) in units of 2^-80. -/
def log2e80 : Nat := 1744127201188848643506110

/-- A logit's L16 code: z × log2(e) × 256 as one product, rounded once; and whether it raises NUMERIC (R260). The constant is
log2(e) to 2^-80, closer than any FP32 logit's product lies to a tie. -/
def logitCode (x : F32) : Nat × Bool :=
  match f32Val x with
  | .nan => (l16Zero, true)
  | .inf neg => if neg then (l16Zero, false) else (0x7FFF, true)
  | .fin neg m e =>
    let k : Int := e - 72
    let v := m * log2e80
    let q : Nat := if 0 ≤ k then v <<< k.toNat else rneDiv v (2 ^ (-k).toNat)
    let c : Int := if neg then -(q : Int) else (q : Int)
    if 32767 < c then (0x7FFF, true) else if c ≤ -32768 then (l16Zero, false) else (unsigned 16 c, false)

/-- One token's code after steps 2 to 4 of R263. -/
def penalise (p : List Word) (count w : Nat) : Nat :=
  if w = l16Zero ∨ count = 0 then w
  else
    let c := signed 16 w
    let r := if 0 < c then rneDivInt (c * 256) (pRep p) else if c < 0 then rneDivInt (c * pRep p) 256 else 0
    let w2 := lSat 16 r
    if w2 = l16Zero then w2
    else
      let w3 := lSat 16 (signed 16 w2 - count * pFreq p)
      if w3 = l16Zero then w3 else lSat 16 (signed 16 w3 - pPres p)

/-- Temperature, and whether it raises NUMERIC (R263 step 6). -/
def temper (p : List Word) (w : Nat) : Nat × Bool :=
  if w = l16Zero then (w, false)
  else
    let v := rneDivInt (signed 16 w * pInvTemp p) 256
    (lSat 16 v, decide (32767 < v))

/-- Tokens and codes of a slice, nonzero ones, by descending code and then ascending token. -/
def ranked (first : Nat) (codes : List Nat) : List (Nat × Nat) :=
  sortBy (fun a b => lLt 16 b.2 a.2 || (a.2 == b.2 && decide (a.1 < b.1)))
    ((codes.zipIdx.map (fun c => (first + c.2, c.1))).filter (fun c => c.2 != l16Zero))

/-- The log-sum of codes, accumulated in L32 and rounded once to L16 (R264). -/
def logSum (codes : List Nat) : Nat := l32to16 (codes.foldl (fun a c => lSum 32 16 a (l16to32 c)) l32Zero)

/-- A round A summary record (R264). -/
def summaryWords (req node first : Nat) (p : List Word) (codes : List Nat) : List Word :=
  let rk := ranked first codes
  let c := if pTopK p ≠ 0 ∨ pTopP p ≠ 0 then 64 else 0
  let cs := rk.take c
  [mkWord [(0, 48, req), (48, 6, node), (54, 7, cs.length)],
   mkWord [(0, 16, codes.foldl (lMax 16) l16Zero), (16, 16, logSum codes), (32, 21, rk.length)]] ++
  cs.map (fun x => mkWord [(0, 20, x.1), (32, 16, x.2)])

/-! ### Thresholds (R265, R266) -/

/-- Candidates of a summary record. -/
def summaryCands (w : List Word) : List (Nat × Nat) :=
  (List.range (bits (wordAt w 0) 60 54)).map (fun i => (bits (wordAt w (2 + i)) 19 0, bits (wordAt w (2 + i)) 47 32))

/-- The code at which S, the running lsum, first reaches a bound; the last entry's code when it never does. -/
def topPCode (bound : Nat) : List (Nat × Nat) → Nat → Nat → Nat
  | [], _, last => last
  | x :: xs, acc, _ =>
    let a := lSum 16 8 acc x.2
    if lLt 16 a bound then topPCode bound xs a x.2 else x.2

/-- The threshold, and how often V_cut took a code's place (R265, R266). -/
def threshold (p : List Word) (sums : List (List Word)) : Nat × Nat :=
  let m := sums.foldl (fun a w => lMax 16 a (bits (wordAt w 1) 15 0)) l16Zero
  let z := ((sums.map (fun w => bits (wordAt w 1) 31 16)).filter (· != l16Zero)).foldl (lSum 16 8) l16Zero
  let union := sortBy (fun a b => lLt 16 b.2 a.2 || (a.2 == b.2 && decide (a.1 < b.1))) (sums.flatMap summaryCands)
  let vcut := (sums.filter (fun w => bits (wordAt w 0) 60 54 == 64)).foldl
    (fun a w => lMax 16 a ((summaryCands w).getLastD (0, l16Zero)).2) l16Zero
  let last := (union.getLastD (0, l16Zero)).2
  let prob (v : Nat) : Nat := (toL16 (f32Scale (toF32 v 0) (-16))).1
  let minp := if pMinP p = 0 then l16Zero else lMul 16 m (prob (pMinP p))
  let cut (c : Nat) : Nat × Nat := if lLt 16 vcut c then (c, 0) else (vcut, 1)
  let topk := if pTopK p = 0 then (l16Zero, 0) else cut ((union[pTopK p - 1]?).elim last (fun x => x.2))
  let topp := if pTopP p = 0 then (l16Zero, 0) else cut (topPCode (lMul 16 z (prob (pTopP p))) union l16Zero last)
  (lMax 16 minp (lMax 16 topk.1 topp.1), topk.2 + topp.2)

/-! ### Draws (R267) -/

/-- g of a token at a position (R267). -/
def gumbelScore (p : List Word) (pos token w : Nat) : Nat :=
  let r := philox (pSeed p) ⟨pos, token, 0, 0⟩ / 256
  lSat 32 (signed 32 (l16to32 w) - Config.gumbel r)

/-- The better of two draws: larger g, then lower token. -/
def betterDraw (a b : Option (Nat × Nat)) : Option (Nat × Nat) :=
  match a, b with
  | none, y => y
  | x, none => x
  | some x, some y => if lLt 32 x.2 y.2 || (x.2 == y.2 && decide (y.1 < x.1)) then some y else some x

/-- A slice's draw among its kept tokens (R267). -/
def sliceDraw (p : List Word) (pos first theta : Nat) (codes : List Nat) : Option (Nat × Nat) :=
  codes.zipIdx.foldl (fun a c =>
    if c.1 = l16Zero ∨ lLt 16 c.1 theta = true then a
    else betterDraw a (some (first + c.2, gumbelScore p pos (first + c.2) c.1))) none

/-- A slice's greedy choice: the highest code, the lower token on a tie (R263). -/
def sliceGreedy (first : Nat) (codes : List Nat) : Option (Nat × Nat) :=
  ((ranked first codes).head?).map (fun x => (x.1, l16to32 x.2))

/-! ### Deliveries (R75, R76, R269) -/

/-- The identifier of a REQ_POST's free DETAIL in the record at an output position. -/
def postDetail (flight pos : Nat) : Word := Config.recordDetail (flight + 2 ^ 50 * (pos + 1))

/-- A REQ_POST's record that is not its last: NOCOMP suppresses it when its status is 0x0000, but for a record that announces
logits (R76). -/
def postRecord (s : State) (id : Nat) (f : Flight) (st : Status) (pos count : Nat) (late announce : Bool) : State :=
  if f.nocomp && st == St.OK && !announce then s
  else writeRecord s f.key.ctx (ringCq s f.key) (mkRecord f.key f.opcode f.tag f.req st late false f.intr (posWord pos count) (postDetail id pos))

/-- The output entry of a token (R75). -/
def tokenEntry (p : Post) (late : Bool) (x : Nat) : Nat := x + (isStop p.param x).toNat * 2 ^ 29 + late.toNat * 2 ^ 30

/-- Tokens written at their output positions, each by one 4-byte write (R75). -/
def writeTokens (s : State) (p : Post) (pos : Nat) (late : Bool) (toks : List Nat) : State :=
  emits s (toks.zipIdx.map (fun x =>
    .hostWrite (p.outAddr + 4 * ((pos + x.2) % 2 ^ p.outLog2)) (natBytes 4 (tokenEntry p late x.1))))

/-- REQ_CANCELs that a request's end completes, after its final record (R117). -/
def endCancels (s : State) (ks : List DescKey) : State := ks.foldl (fun s k => completeOk s (flightId k)) s

/-- TOKEN_DELIVERY at the controller that fetched the REQ_POST (R75, R76, R269): the tokens, then the record. A delivery
for a request that this survivor's twin fetched is answered with CON_ORPHAN and posted (R450). -/
def applyDelivery (s : State) (m : DeliveryMsg) : State :=
  match tget s.hpt.posts m.req with
  | none =>
    if m.record then
      if conState s = 2 then
        let s1 := postEvent s .twinChange St.CON_ORPHAN noUnit m.req 0 (at' 0 23 m.pos) (Config.eventDetail (2 * s.out.length + 1))
        match leaderOf s.dtm.map ((tget s.dtm.homes m.req).elim (ownGroup s) (fun h => h.owner)) with
        | some l => send s1 l 0 .response [at' 0 48 m.req, at' 0 16 St.CON_ORPHAN.toNat]
        | none => s1
      else s
    else endCancels s m.cancels
  | some p =>
    match tget s.hpt.flight p.flight with
    | none => endCancels s m.cancels
    | some f =>
      if !m.record then endCancels s m.cancels
      else
        let s1 := writeTokens s p m.pos m.late m.tokens
        if m.final then
          let s2 := { s1 with hpt := { s1.hpt with posts := tdel s1.hpt.posts m.req } }
          endCancels (complete s2 p.flight m.status (posWord m.pos m.tokens.length) (postDetail p.flight m.pos) m.late) m.cancels
        else endCancels (postRecord s1 p.flight f m.status m.pos m.tokens.length m.late false) m.cancels

/-- TOKEN_DELIVERY (R269). -/
def tokenDelivery (s : State) (m : DeliveryMsg) : State := whenUp s (fun s => applyDelivery s m)

/-- A delivery's words, where it goes to another controller. -/
def deliveryWords (m : DeliveryMsg) : List Word :=
  [mkWord [(0, 48, m.req), (48, 8, m.tokens.length), (56, 1, m.record.toNat), (57, 1, m.late.toNat), (58, 1, m.final.toNat)],
    mkWord [(0, 23, m.pos), (32, 16, m.status.toNat), (48, 16, m.cancels.length)]] ++
  m.tokens.map (fun x => at' 0 20 x) ++ m.cancels.map (fun k => mkWord [(0, 12, k.ctx), (12, 3, k.ring), (32, 32, k.count)])

/-- A delivery to the controller that fetched the REQ_POST (R269, R443). -/
def deliver (s : State) (origin : Nat) (m : DeliveryMsg) : State :=
  if origin = self s then applyDelivery s m else send s origin 0 .delivery (deliveryWords m)

/-- The deliveries that end a request at its poster, and its REQ_CANCELs wherever they were posted (R117). -/
def deliverEnd (s : State) (r : Req) (req pos : Nat) (tokens : List Nat) (late : Bool) (st : Status) : State :=
  let here := (r.cancel.filter (fun c => c.1 == r.origin)).map (fun c => c.2)
  let s1 := deliver s r.origin ⟨req, true, pos, tokens, late, true, st, here⟩
  ((r.cancel.filter (fun c => c.1 != r.origin)).map (fun c => c.1)).dedup.foldl (fun s n =>
    deliver s n ⟨req, false, pos, [], false, false, St.OK, (r.cancel.filter (fun c => c.1 == n)).map (fun c => c.2)⟩) s1

/-! ### Reports (R443) -/

/-- The members that serve a request, one node for each slot. -/
def slotMembers (s : State) (req : Nat) : List Nat := servers s (groupOf s req)

/-- A result that every member has reported is released to the request's poster (R443). -/
def noteReport (s : State) (src step req : Nat) : State :=
  match tget s.smp.results req, reqOf s req with
  | some x, some r =>
    if x.step ≠ step then s
    else
      let rep := if x.reported.contains src then x.reported else x.reported ++ [src]
      if (slotMembers s req).all (fun n => rep.contains n) then
        let s1 := { s with smp := { s.smp with results := tdel s.smp.results req } }
        let st := match x.final with
          | some f => if f = St.OK then x.numeric else f
          | none => x.numeric
        if x.final.isSome then deliverEnd s1 r req x.pos x.tokens x.late st
        else deliver s1 r.origin ⟨req, true, x.pos, x.tokens, x.late, false, st, []⟩
      else { s with smp := { s.smp with results := tset s.smp.results req { x with reported := rep } } }
  | _, _ => s

/-- MIRRORED_REPORT (R443): it names requests of one step. -/
def mirroredReport (s : State) (src step : Nat) (reqs : List Nat) : State :=
  whenUp s (fun s => reqs.foldl (fun s r => noteReport s src step r) s)

/-- Whether a member may report a step as mirrored (R443, R445, R447): its twin has acknowledged the COMMIT record, or while
exposed the request's home has confirmed it; with no twin it reports at once. -/
def mayReport (s : State) (u : Unreported) : Bool :=
  if conState s = 0 then true
  else if conState s = 1 then !s.con.held && !s.con.overdue && s.con.unacked.all (fun r => decide (u.mseq < r.mseq))
  else conState s != 5 && s.con.confirmed.contains (homeOf s.dtm.map u.req)

/-- Every step that may be reported is reported, one message to each sampling home and step (R443). -/
def flushReports (s : State) : State :=
  let go := s.con.unreported.filter (mayReport s)
  let s1 := { s with con := { s.con with unreported := s.con.unreported.filter (fun u => !mayReport s u) } }
  ((go.map (fun u => (u.home, u.step))).dedup).foldl (fun s hs =>
    let rs := (go.filter (fun u => u.home == hs.1 && u.step == hs.2)).map (fun u => u.req)
    if hs.1 = self s then rs.foldl (fun s r => noteReport s (self s) hs.2 r) s
    else send s hs.1 0 .report (BitVec.ofNat 64 hs.2 :: rs.map (fun r => at' 0 48 r))) s1

/-! ### The result at a member (R114, R216, R262, R271) -/

/-- A member takes a step's result: the splice, the counts, the next tree, a switch to the stand-in after a miss, the COMMIT
record and the report. A request that commits nothing here is left as it was (R271). -/
def applyVerify (s : State) (m : VerifyMsg) : State :=
  match reqOf s m.req with
  | none => s
  | some r =>
    if s.kva.skip.contains m.req then s
    else
      let standin := runsStandin s m.req
      let switch := m.late && r.standin.isSome && !r.onStandin
      let s1 := splice s m.req m.accepted
      let s2 := if m.discard then s1 else countTokens s1 m.req (stepModel s m.req r) m.tokens
      let s3 := modReq s2 m.req (fun q => { q with
        made := q.made + m.tokens.length
        pos := q.pos + m.tokens.length
        onStandin := q.onStandin || switch
        rootOnly := switch || r.phase == .prefill
        good := if m.late || !q.fits then 0 else q.good + 1
        behind := if standin then q.behind + m.accepted.length else q.behind
        numeric := 0
        phase := if m.final.isSome then .ended else if q.phase = .prefill then .traversing else q.phase })
      let s4 := if m.discard then s3 else { s3 with smp := { s3.smp with trees := tset s3.smp.trees m.req m.tree } }
      let s5 := if m.late && leadsFor s4 m.req then bump s4 F.SCH_LATE_CNT_COUNT else s4
      let s6 := if switch && leadsFor s5 m.req then bump s5 F.SCH_SWITCH_CNT_COUNT else s5
      let seq := s6.con.mseq
      let committed := (tget s6.kva.roots m.req).elim 0 (fun x => x.committed)
      let s7 := mirrorRec s6 (.commit m.req (stepNumber s6) m.accepted committed (if m.discard then [] else m.tokens) m.tree)
      match samplingHome s7 m.req with
      | some h => flushReports { s7 with con := { s7.con with unreported := s7.con.unreported ++ [⟨m.req, stepNumber s7, seq, h⟩] } }
      | none => s7

/-- VERIFY_RESULT (R216). -/
def verifyResult (s : State) (m : VerifyMsg) : State := whenUp s (fun s => applyVerify s m)

/-- A result's words. -/
def verifyWords (m : VerifyMsg) : List Word :=
  [mkWord [(0, 48, m.req), (48, 7, m.accepted.length), (55, 7, m.tokens.length), (62, 1, m.late.toNat), (63, 1, m.discard.toNat)],
    mkWord [(0, 1, m.final.isSome.toNat), (16, 16, (m.final.getD 0).toNat), (32, 16, m.numeric.toNat), (48, 7, m.tree.length)]] ++
  m.accepted.map (fun x => at' 0 6 x) ++ m.tokens.map (fun x => at' 0 20 x) ++ m.tree.map (fun x => at' 0 20 x)

/-- The home keeps a result until it is reported, sends it to every member and takes it itself (R269, R443). -/
def announceResult (s : State) (r : Req) (m : VerifyMsg) : State :=
  let x : SmpResult := ⟨m.accepted, m.tokens, m.tree, m.late, m.discard, m.final, m.numeric, stepNumber s, r.pos, []⟩
  let s1 := { s with smp := { s.smp with results := tset s.smp.results m.req x } }
  let s2 := ((slotMembers s1 m.req).filter (· != self s1)).foldl (fun s n => send s n 0 .verify (verifyWords m)) s1
  applyVerify s2 m

/-! ### The walk (R114, R118, R269–R271) -/

/-- What a walk comes to: accepted nodes, delivered tokens, and the status that ends the request. -/
structure Walk where
  accepted : List Nat
  tokens : List Nat
  final : Option Status
  stopped : Bool
  deriving DecidableEq, Repr

/-- Whether a delivered token ends the request (R118, R269, R271): at the last position, as a stop token, or under MAX_NEW. -/
def endsAt (r : Req) (delivered pos token : Nat) : Option Status × Bool :=
  if pos = 4194304 then (some St.SCH_CONTEXT_FULL, isStop r.param token)
  else if isStop r.param token then (some St.OK, true)
  else if r.maxNew ≠ 0 ∧ r.maxNew ≤ r.made + delivered then (some St.OK, false)
  else (none, false)

/-- The position a row draws for: p_t + 1 of a tree row (R269); after prefill, the position that follows the prompt, whose last
token is appended already (R26). -/
def drawPos (r : Req) (t : Nat) : Nat := if r.phase = .prefill then r.committed else r.committed + treeDepth r.param t + 1

/-- The walk from node `t` (R269); `draw` gives each row's winner. -/
def walkTree (r : Req) (n : Nat) (toks : List Nat) (draw : Nat → Option (Nat × Nat)) : Nat → Nat → Walk → Walk
  | 0, _, w => w
  | k + 1, t, w =>
    match draw t with
    | none => { w with final := some St.SMP_NO_TOKEN }
    | some (x, _) =>
      let ts := w.tokens ++ [x]
      match endsAt r ts.length (drawPos r t) x with
      | (some st, stop) => { w with tokens := ts, final := some st, stopped := stop }
      | (none, _) =>
        match (List.range n).find? (fun u => u != 0 && pParent r.param u == t && toks.getD u 0 == x) with
        | some u => walkTree r n toks draw k u { w with accepted := w.accepted ++ [u], tokens := ts }
        | none => { w with tokens := ts }

/-- The ranked codes of head `d` at a row, merged over the slices (R270). -/
def headRank (t : Tbl HeadLists) (d : Nat) : List (Nat × Nat) :=
  sortBy (fun a b => lLt 16 b.2 a.2 || (a.2 == b.2 && decide (a.1 < b.1)))
    ((tvals t).flatMap (fun h => h.lists.getD (d - 1) []))

/-- The next tree's tokens (R268, R270): the bonus token at its root, then each node's candidate as ranked at the last
accepted row. -/
def nextTree (s : State) (req last bonus : Nat) (p : List Word) : List Nat :=
  let hs := tgetD s.smp.heads (smpRow req last) []
  bonus :: ((List.range (pNodes p)).drop 1).map (fun t => ((headRank hs (treeDepth p t)).getD (pRank p t) (0, 0)).1)

/-- Whether the running step has missed a request's budget, by this controller's clock since its step start (R111). -/
def missedBudget (s : State) (req : Nat) : Bool :=
  match s.sch.roster with
  | some x =>
    match x.seqs.find? (fun q => q.1 == req) with
    | some q => q.2.2 != 0 && decide (s.sch.startedAt + q.2.2 * 400 < rd s F.GLB_MGMT_CYCLES_COUNT)
    | none => false
  | none => false

/-- What a home gathered for a request is cleared. -/
def clearRows (s : State) (req : Nat) : State :=
  { s with smp := { s.smp with
    rows := tkeep (fun k _ => k / 64 != req) s.smp.rows
    heads := tkeep (fun k _ => k / 64 != req) s.smp.heads
    codes := tkeep (fun k _ => k / 64 != req) s.smp.codes } }

/-- VERIFY_WALK and BUDGET_MISS (R114, R269): the home walks the tree once every row has its winner, and announces the
result. -/
def verifyWalk (s : State) (req : Nat) (r : Req) : State :=
  let n := treeSize s req r
  let toks := treeTokens s req
  let draw (t : Nat) : Option (Nat × Nat) :=
    match tget s.smp.rows (smpRow req t) with
    | some row => (tvals row.draws).foldl betterDraw none
    | none => none
  let w := walkTree r n toks draw 65 0 ⟨if r.phase = .prefill then [] else [0], [], none, false⟩
  let late := missedBudget s req && r.phase != .prefill
  let s1 := if s.kva.skip.contains req then clearRows s req
    else if late && r.discard then
      announceResult (clearRows s req) r ⟨req, [], [], toks, true, true, none, r.numeric⟩
    else
      let tree := nextTree s req (w.accepted.getLastD 0) (w.tokens.getLastD 0) r.param
      let s' := if 1 < n then bumpBy (bump s F.SMP_SPEC_CNT_COUNT) F.SMP_ACCEPT_CNT_COUNT w.tokens.length else s
      let s'' := if w.stopped then bump s' F.SMP_STOP_CNT_COUNT else s'
      announceResult (clearRows s'' req) r ⟨req, w.accepted, w.tokens, tree, late, false, w.final, r.numeric⟩
  s1

/-- A draw reaches the home (R267): when every slot's draw of every row is in, the walk runs. -/
def takeDraw (s : State) (m : DrawMsg) : State :=
  match reqOf s m.req with
  | none => s
  | some r =>
    if samplingHome s m.req != some (self s) then s
    else
      let k := smpRow m.req m.node
      let row := (tget s.smp.rows k).getD ⟨[], none, []⟩
      let row' := { row with draws := tset row.draws m.slot (if m.kept then some (m.token, m.g) else none) }
      let s1 := { s with smp := { s.smp with
        rows := tset s.smp.rows k row'
        heads := tset s.smp.heads k (tset (tgetD s.smp.heads k []) m.slot ⟨m.heads⟩) } }
      if (List.range (treeSize s1 m.req r)).all (fun t =>
          ((tget s1.smp.rows (smpRow m.req t)).elim [] (fun x => x.draws)).length == groupSize s1) then
        verifyWalk s1 m.req r
      else s1

/-- ROUND_B_DRAW (R267, R269, R270). -/
def roundBDraw (s : State) (m : DrawMsg) : State := whenUp s (fun s => takeDraw s m)

/-- A draw's words. -/
def drawWords (m : DrawMsg) : List Word :=
  [mkWord [(0, 48, m.req), (48, 6, m.node)], mkWord [(0, 16, m.slot), (16, 1, m.kept.toNat), (20, 20, m.token)], at' 0 32 m.g] ++
    m.heads.flatMap (fun l => at' 0 32 l.length :: l.map (fun x => mkWord [(0, 20, x.1), (32, 16, x.2)]))

/-- A slice's draw goes to the row's home with its head lists (R267, R270). -/
def sendDraw (s : State) (req node : Nat) (d : Option (Nat × Nat)) : State :=
  let hs := ((tget (tgetD s.smp.heads (smpRow req node) []) (ownSlot s)).elim [] (fun h => h.lists))
  let m : DrawMsg := ⟨req, node, ownSlot s, d.isSome, (d.getD (0, 0)).1, (d.getD (0, 0)).2, hs⟩
  match samplingHome s req with
  | some h => if h = self s then takeDraw s m else send s h 1 .draw (drawWords m)
  | none => s

/-! ### Thresholds travel (R266) -/

/-- A threshold at a slice (R267): its draw, and round B. -/
def applyThreshold (s : State) (req node theta : Nat) : State :=
  match reqOf s req, tget s.smp.codes (smpRow req node) with
  | some r, some codes =>
    let v := modelVocab s (stepModel s req r)
    let first := sliceFirst v (groupSize s) (ownSlot s)
    sendDraw { s with smp := { s.smp with codes := tdel s.smp.codes (smpRow req node) } } req node
      (sliceDraw r.param (drawPos r node) first theta codes)
  | _, _ => s

/-- THRESHOLD_RETURN (R266, R267). -/
def thresholdReturn (s : State) (req node : Nat) (theta : BitVec 16) : State :=
  whenUp s (fun s => applyThreshold s req node theta.toNat)

/-- A summary at the home (R265, R266): when every slot's is in, the threshold goes to every slice. -/
def takeSummary (s : State) (slot : Nat) (words : List Word) : State :=
  let req := bits (wordAt words 0) 47 0
  let node := bits (wordAt words 0) 53 48
  match reqOf s req with
  | none => s
  | some r =>
    if samplingHome s req != some (self s) then s
    else
      let k := smpRow req node
      let row := (tget s.smp.rows k).getD ⟨[], none, []⟩
      let sums := tset row.summaries slot words
      if sums.length < groupSize s then
        { s with smp := { s.smp with rows := tset s.smp.rows k { row with summaries := sums } } }
      else
        let th := threshold r.param (tvals sums)
        let s1 := { s with smp := { s.smp with rows := tset s.smp.rows k { row with summaries := sums, theta := some th.1 } } }
        let s2 := bumpBy s1 F.SMP_WIDE_CNT_COUNT th.2
        let s3 := ((slotMembers s2 req).filter (· != self s2)).foldl (fun s n =>
          send s n 1 .threshold [mkWord [(0, 48, req), (48, 6, node)], at' 0 16 th.1]) s2
        applyThreshold s3 req node th.1

/-- ROUND_A_SUMMARY (R265). -/
def roundASummary (s : State) (slot : Nat) (words : List Word) : State := whenUp s (fun s => takeSummary s slot words)

/-! ### The slice's pass (R260–R264, R272) -/

/-- Logits for the host go to the controller that fetched the REQ_POST (R272). -/
def sendLogits (s : State) (r : Req) (req first : Nat) (codes : List Nat) : State :=
  let s1 := modReq s req (fun q => { q with choosing := true })
  send s1 r.origin 2 .logits ([mkWord [(0, 48, req), (48, 16, ownSlot s)],
    mkWord [(0, 23, r.pos), (23, 16, groupSize s), (40, 20, first)], at' 0 32 codes.length] ++ codes.map (fun c => at' 0 16 c))

/-- SAMPLER_PASS (R260–R264): the slice's logits of one row become codes, take penalties and temperature, and a summary
goes to the home; greedy rows send their draw at once, and RAW and ADJUSTED rows their codes to the host. -/
def samplerPass (s : State) (req node : Nat) (logits : List (BitVec 32)) (heads : List (List (BitVec 32))) : State :=
  whenUp s (fun s =>
    match reqOf s req, samplingHome s req with
    | some r, some home =>
      if s.kva.skip.contains req || decide (treeSize s req r ≤ node) then s
      else
        let v := modelVocab s (stepModel s req r)
        let first := sliceFirst v (groupSize s) (ownSlot s)
        let conv := (logits.take (sliceLen v (groupSize s) (ownSlot s))).map logitCode
        let codes := conv.map (fun c => c.1)
        let s1 := if conv.any (fun c => c.2) then raiseNumeric s req 0x08E0 else s
        if r.sampleMode = 2 then sendLogits s1 r req first codes
        else
          let path := (treePath r.param 64 node).map (fun t => (treeTokens s req).getD t 0)
          let table := tgetD s.smp.counts req []
          let pen := codes.zipIdx.map (fun c =>
            penalise r.param (countOf table c.2 + (path.filter (· == first + c.2)).length) c.1)
          if r.sampleMode = 1 then sendLogits s1 r req first pen
          else
            let tops := heads.zipIdx.map (fun h =>
              (ranked first ((h.1.take codes.length).map (fun x => (logitCode x).1))).take (rankNeed r.param (pNodes r.param) (h.2 + 1)))
            let k := smpRow req node
            let s2 := { s1 with smp := { s1.smp with heads := tset s1.smp.heads k (tset (tgetD s1.smp.heads k []) (ownSlot s) ⟨tops⟩) } }
            if pInvTemp r.param = 0 then sendDraw s2 req node (sliceGreedy first pen)
            else
              let tm := pen.map (temper r.param)
              let cs := tm.map (fun c => c.1)
              let s3 := if tm.any (fun c => c.2) then raiseNumeric s2 req 0x08E0 else s2
              let s4 := { s3 with smp := { s3.smp with codes := tset s3.smp.codes k cs } }
              let w := summaryWords req node first r.param cs
              if home = self s then takeSummary s4 (ownSlot s) w else send s4 home 1 .summary (at' 0 16 (ownSlot s) :: w)
    | _, _ => s)

/-! ### Logits to the host and its choice (R272) -/

/-- ln 2 in units of 2^-80. -/
def ln2_80 : Nat := 837963549190402353397180

/-- A code as an FP32 logit: code × ln 2 / 256, exact zero as −∞ (R272). -/
def codeLogit (c : Nat) : F32 :=
  if c = l16Zero then 0xFF800000
  else toF32 (signed 16 c * (ln2_80 : Int)) (-88)

/-- LOGIT_SLICE (R272): before the first slice of a position the output entry is cleared; the slice's logits are written; after
the last, the record that announces them, and the watch on the entry. -/
def logitSlice (s : State) (req position slot nslots first : Nat) (codes : List (BitVec 16)) : State :=
  whenUp s (fun s =>
    match tget s.hpt.posts req with
    | none => s
    | some p =>
      match tget s.hpt.flight p.flight with
      | none => s
      | some f =>
        let got := tgetD s.smp.slices req []
        let entry := p.outAddr + 4 * (position % 2 ^ p.outLog2)
        let s1 := if got.isEmpty then emit s (.hostWrite entry [0, 0, 0, 0]) else s
        let bytes := codes.flatMap (fun c =>
          if pLogitF32 p.param then natBytes 4 (codeLogit c.toNat).toNat else natBytes 2 c.toNat)
        let s2 := emit s1 (.hostWrite (pLogitAddr p.param + first * (if pLogitF32 p.param then 4 else 2)) bytes)
        let got' := if got.contains slot then got else got ++ [slot]
        if got'.length < nslots then { s2 with smp := { s2.smp with slices := tset s2.smp.slices req got' } }
        else
          let s3 := { s2 with smp := { s2.smp with slices := tdel s2.smp.slices req, choices := tset s2.smp.choices req position } }
          postRecord s3 p.flight f St.OK position 0 false true)

/-- A host's choice at the group (R272): delivered like a drawn token, through stop rules, counts and append. -/
def applyChoice (s : State) (req x : Nat) : State :=
  match reqOf s req with
  | none => s
  | some r =>
    let s1 := modReq s req (fun q => { q with choosing := false })
    let v := modelVocab s (stepModel s req r)
    let acc := if r.phase = .prefill then [] else [0]
    if v ≤ x then announceResult s1 r ⟨req, acc, [], [], false, false, some St.SMP_BAD_CHOICE, r.numeric⟩
    else
      let e := endsAt r 1 (drawPos r 0) x
      let s2 := if e.2 then bump s1 F.SMP_STOP_CNT_COUNT else s1
      announceResult s2 r ⟨req, acc, [x], [x], false, false, e.1, r.numeric⟩

/-- HOST_CHOICE (R272): the watched entry holds a choice when bit 31 is set and [30:20] are zero. -/
def hostChoice (s : State) (req : Nat) (entry : BitVec 32) : State :=
  whenUp s (fun s =>
    if thas s.smp.choices req && entry.toNat / 2 ^ 20 == 0x800 then
      let s1 := { s with smp := { s.smp with choices := tdel s.smp.choices req } }
      let x := entry.toNat % 2 ^ 20
      if thas s1.sch.reqs req then applyChoice s1 req x
      else
        let home := homeOf s1.dtm.map req
        send s1 home 0 .choice [at' 0 48 req, at' 0 20 x]
    else s)

end Sys2Proof.Machine
end

