-- ==== Sys2Proof/Machine/Sch.lean ====
section
/-! DEFINITION. Admission into steps, rosters, the deadline monitor, and the ends of units (R94–R118, R510–R513). -/

namespace Sys2Proof.Machine

open Sys2Proof

/-! ### The admission algorithm (R99, R100) -/

/-- What an admission may choose: a request, its tenant, its last admitted step plus one, and its cost. -/
structure Cand where
  req : Nat
  tenant : Nat
  last : Nat
  cost : Nat
  deriving DecidableEq, Repr

/-- The next candidate of a tenant: oldest last-admitted step first, lower REQUEST_ID on a tie. -/
def nextCand (cs : List Cand) (adm : List Nat) (t : Nat) : Option Cand :=
  (sortBy (fun a b => decide (a.last < b.last) || (a.last == b.last && decide (a.req < b.req)))
    (cs.filter (fun c => c.tenant == t && !adm.contains c.req))).head?

/-- A tenant's quantum. -/
def quantum (s : State) (t : Nat) : Nat := rdi s F.SCH_TENANT_WEIGHT t * rd s F.SCH_DRR_CFG_UNIT

/-- Tenants with a candidate join the end of the ring in ascending slot, with deficit 0. -/
def joinRing (cs : List Cand) (d : Drr) : Drr :=
  let new := sortBy (fun a b => decide (a < b)) ((cs.map (fun c => c.tenant)).dedup.filter (fun t => !d.ring.contains t))
  { d with ring := d.ring ++ new, deficit := new.foldl (fun t x => tdel t x) d.deficit }

/-- The loop of R99; `n` bounds its turns. -/
def admitLoop (s : State) (seats : Nat) (cs : List Cand) : Nat → Drr → List Nat → Drr × List Nat
  | 0, d, adm => (d, adm)
  | n + 1, d, adm =>
    if seats ≤ adm.length then (d, adm)
    else
      match d.ring[d.ptr]? with
      | none => (d, adm)
      | some t =>
        let have_ := tgetD d.deficit t 0 + if d.opened then 0 else quantum s t
        match nextCand cs adm t with
        | none =>
          let ring := d.ring.eraseIdx d.ptr
          admitLoop s seats cs n ⟨ring, if d.ptr < ring.length then d.ptr else 0, false, tdel d.deficit t⟩ adm
        | some c =>
          if c.cost ≤ have_ then
            admitLoop s seats cs n ⟨d.ring, d.ptr, true, tset d.deficit t (have_ - c.cost)⟩ (adm ++ [c.req])
          else
            admitLoop s seats cs n ⟨d.ring, (d.ptr + 1) % d.ring.length, false, tset d.deficit t have_⟩ adm

/-- One admission: who enters, and what carries into the next. A visit adds at least 16 to a deficit and a cost is at most
4,112, so each admission comes within 258 visits of every tenant. -/
def admitWork (s : State) (cs : List Cand) (d : Drr) : Drr × List Nat :=
  let d1 := joinRing cs d
  let seats := rd s F.SCH_STEP_CFG_MAX_SEQ
  admitLoop s seats cs ((seats + d1.ring.length + 1) * 258 * (2 * d1.ring.length + 2)) d1 []

/-! ### Eligibility (R98) -/

/-- A request's context is being torn down, as far as this controller serves that context (R98). -/
def contextDown (s : State) (r : Req) : Bool :=
  r.origin == self s &&
    (match tget s.hpt.ctxs r.key.ctx with
     | some x => x.down.isSome
     | none => true)

/-- Whether a request is held (R98, R214, R272, R412, R510). -/
def held (s : State) (r : Req) : Bool :=
  r.dropped || r.delayed || r.damaged || r.starved || r.choosing || r.doubt || !r.cancel.isEmpty || contextDown s r

/-- Eligible for a step. -/
def eligible (s : State) (r : Req) : Bool :=
  r.phase == .decode && !held s r && (r.maxNew == 0 || decide (r.made < r.maxNew))

/-- Eligible for prompt work. -/
def promptEligible (s : State) (r : Req) : Bool := r.phase == .prefill && !held s r && r.prefillLeft != 0

/-- The cost of a request in one step. -/
def stepCost (r : Req) : Nat := 16 + ceilDiv r.committed 1024

/-- The chunk of a request's next grant (R100, R236): on BLENDED at most 512 tokens; under a PREFIX layer a first turn is one
chunk. -/
def chunkOf (s : State) (r : Req) : Nat :=
  let size := if role s = 4 then min 512 (rd s F.SCH_PROMPT_CFG_CHUNK_TOK) else rd s F.SCH_PROMPT_CFG_CHUNK_TOK
  if r.firstTurn = r.prefillLeft ∧ r.committed = 0 ∧ modelPrefix s r.model then r.prefillLeft else min r.prefillLeft size

/-! ### Cancelled requests leave (R117) -/

/-- A request's end at its leader with a status: the phase, the running reshoot, the final record of its REQ_POST with the tokens of its last
step if they are still kept here, and its REQ_CANCELs. A request that has had its final record completes the
REQ_CANCELs alone. -/
def endRequest (s : State) (req : Nat) (r : Req) (st : Status) : State :=
  let s1 := cancelReshoot s req
  let gone := modReq s1 req (fun q => { q with phase := .ended, cancel := [] })
  if r.phase = .ended then
    ((r.cancel.map (fun c => c.1)).dedup).foldl (fun s n =>
      deliver s n ⟨req, false, r.pos, [], false, false, St.OK, (r.cancel.filter (fun c => c.1 == n)).map (fun c => c.2)⟩) gone
  else
    match tget s.smp.results req with
    | some x =>
      let drop := x.discard
      deliverEnd { gone with smp := { gone.smp with results := tdel gone.smp.results req } } r req x.pos
        (if drop then [] else x.tokens) x.late st
    | none => deliverEnd gone r req r.pos [] false st

/-- A running request whose model has lost its kernels (R162). -/
def modelGone (s : State) (r : Req) : Bool := (r.phase == .prefill || r.phase == .decode) && !modelLoaded s r.model

/-- CANCEL_REMOVAL (R117): at a roster the leader removes every cancelled request that no Traverse is moving, and those whose
model is gone (R162). -/
def removeCancelled (s : State) : State :=
  s.sch.reqs.foldl (fun s e =>
    if e.2.pinned || !leadsFor s e.1 then s
    else if !e.2.cancel.isEmpty then endRequest s e.1 e.2 St.SCH_CANCELLED
    else if modelGone s e.2 then endRequest s e.1 e.2 St.SCH_NO_MODEL
    else s) s

/-! ### Rosters (R94–R96) -/

/-- A roster's words (R95). -/
def rosterWords (s : State) (step : Nat) (seqs : List (Nat × Bool × Nat)) : List Word :=
  [mkWord [(0, 32, epoch s), (32, 8, seqs.length)], BitVec.ofNat 64 step] ++
    seqs.flatMap (fun q => [mkWord [(0, 48, q.1), (48, 1, q.2.1.toNat)], at' 0 16 q.2.2])

/-- The groups this controller leads: its own, and its sibling's after a takeover (R94). -/
def ledGroups (s : State) : List Nat := [ownGroup s, eSibling (ownEntry s)].dedup.filter (leads s)

/-- The roster of the next step goes to every member of the groups this controller leads. -/
def sendRoster (s : State) (seqs : List (Nat × Bool × Nat)) : State :=
  let step := s.sch.nextStep
  let s1 := { s with sch := { s.sch with nextStep := (step + 1) % 2 ^ 64 } }
  (((ledGroups s).flatMap (servers s)).dedup).foldl (fun t n => send t n 0 .roster (rosterWords s step seqs)) s1

/-- Whether this controller may build a roster now (R94, R392, R452): it leads, its groups are complete, the last roster has
started, and it does not yield. -/
def mayAdmit (s : State) : Bool :=
  !(ledGroups s).isEmpty && (ledGroups s).all (groupComplete s.dtm.map) && decide (s.sch.nextStep ≤ s.sch.started)
    && s.con.yielding == 0 && conState s != 5

/-! ### The deadline monitor (R112, R116) -/

/-- A request's unit estimate. -/
def estOf (l : List (Nat × Nat)) (req : Nat) : Nat := ((l.find? (fun p => p.1 == req)).map (fun p => p.2)).getD 0

/-- The forecast of a step. -/
def forecast (s : State) (est : StepEstimate) (main others : List Nat) : Nat :=
  est.base + sumNat (main.map (estOf est.main)) + sumNat (others.map (estOf est.standin)) + rd s F.SCH_MON_CFG_GUARD_US

/-- BUDGET_US of a request. -/
def budgetOf (s : State) (req : Nat) : Nat := (reqOf s req).elim 0 (fun r => r.budget)

/-- The request of a batch that moves first: one with a stand-in and a budget, the smallest budget, then the lower ID. -/
def tightest (s : State) (main : List Nat) : Option Nat :=
  (sortBy (fun a b => decide (budgetOf s a < budgetOf s b) || (budgetOf s a == budgetOf s b && decide (a < b)))
    (main.filter (fun q => budgetOf s q != 0 && (reqOf s q).elim false (fun r => r.standin.isSome)))).head?

/-- The monitor's loop; `n` bounds its turns. -/
def monitor (s : State) (est : StepEstimate) : Nat → List Nat → List Nat → List Nat × List Nat
  | 0, main, others => (main, others)
  | n + 1, main, others =>
    match tightest s main with
    | none => (main, others)
    | some r =>
      if budgetOf s r < forecast s est main others then monitor s est n (main.erase r) (others ++ [r]) else (main, others)

/-- Whether a request on its stand-in returns at this roster (R116). -/
def returns (r : Req) : Bool := r.onStandin && r.behind == 0 && decide (16 ≤ r.good)

/-- STEP_ADMISSION (R99, R112, R116): cancelled requests leave, the seats are filled, the monitor settles the models, and the
roster is sent. -/
def stepAdmission (s : State) (est : StepEstimate) : State :=
  whenUp s (fun s =>
    if !mayAdmit s || !servesDecode (role s) then s
    else
      let s1 := removeCancelled (feedStarved s)
      let all := s1.sch.reqs.filter (fun e => eligible s1 e.2 && leadsFor s1 e.1)
      let a := admitWork s1 (all.map (fun e => ⟨e.1, e.2.tenant, e.2.lastAdmit, stepCost e.2⟩)) s1.sch.drr
      let step := s1.sch.nextStep
      let s2 := { s1 with sch := { s1.sch with drr := a.1 } }
      let s3 := a.2.foldl (fun s r => modReq s r (fun q => { q with lastAdmit := step + 1 })) s2
      let s4 := if a.2.length = rd s F.SCH_STEP_CFG_MAX_SEQ then bumpBy s3 F.SCH_HELD_CNT_COUNT (all.length - a.2.length) else s3
      let on := a.2.filter (fun r => (reqOf s4 r).elim false (fun q => q.onStandin && !returns q))
      let m := monitor s4 est a.2.length (a.2.filter (fun r => !on.contains r)) on
      let s5 := bumpBy s4 F.SCH_SWITCH_CNT_COUNT (m.2.length - on.length)
      let s6 := on.foldl (fun s r => modReq s r (fun q => { q with
        fits := decide (forecast s est (m.1 ++ [r]) (m.2.erase r) ≤ q.budget) })) s5
      sendRoster s6 (a.2.map (fun r => (r, m.2.contains r, budgetOf s6 r))))

/-- PROMPT_ADMISSION (R100): prompt chunks are granted by a second instance of the algorithm. -/
def promptAdmission (s : State) : State :=
  whenUp s (fun s =>
    if !mayAdmit s || !servesPrefill (role s) then s
    else
      let s1 := removeCancelled (feedStarved s)
      let all := s1.sch.reqs.filter (fun e => promptEligible s1 e.2 && leadsFor s1 e.1)
      let a := admitWork s1 (all.map (fun e => ⟨e.1, e.2.tenant, e.2.lastAdmit, ceilDiv (chunkOf s1 e.2) 32⟩)) s1.sch.drrPrompt
      let step := s1.sch.nextStep
      let s2 := { s1 with sch := { s1.sch with drrPrompt := a.1 } }
      let s3 := a.2.foldl (fun s r => modReq s r (fun q => { q with lastAdmit := step + 1 })) s2
      if a.2.isEmpty then s3 else sendRoster s3 (a.2.map (fun r => (r, false, budgetOf s3 r))))

/-! ### A roster arrives (R96, R214, R217) -/

/-- The sequences of a roster's words (R95). -/
def rosterSeqs (ws : List Word) : List (Nat × Bool × Nat) :=
  (List.range (bits (wordAt ws 0) 39 32)).map (fun i =>
    (bits (wordAt ws (2 + 2 * i)) 47 0, bit (wordAt ws (2 + 2 * i)) 48, bits (wordAt ws (3 + 2 * i)) 15 0))

/-- Whether a roster breaks its layout (R96). -/
def rosterBad (ws : List Word) : Bool :=
  let n := bits (wordAt ws 0) 39 32
  decide (128 < n) || bits (wordAt ws 0) 63 40 != 0 ||
    (List.range n).any (fun i => bits (wordAt ws (2 + 2 * i)) 63 49 != 0 || bits (wordAt ws (3 + 2 * i)) 63 16 != 0)

/-- Frames of a request are stamped (R217). -/
def stampRequest (s : State) (req : Nat) : State :=
  let mine (f : Frame) : Bool := !f.mirror && f.page.elim false (fun k => pageReq k == req)
  let fs := tmap (fun _ f => if mine f then { f with stamp := kvaAge s } else f) s.kva.frames
  { s with kva := { s.kva with frames := fs } }

/-- A roster's STANDIN bit at a member: a switch builds the next tree from its root alone and restarts the good steps
(R112, R116, R271). -/
def takeStandin (s : State) (req : Nat) (st : Bool) : State :=
  modReq s req (fun q =>
    if q.onStandin = st ∨ q.phase = .prefill then q else { q with onStandin := st, rootOnly := true, good := 0 })

/-- FRAME_MAPPING of one sequence (R214): the slots of its tree or of its chunk, for the model it runs on, and for the stand-in
too where both take rows (R115). -/
def mapSeq (s : State) (req : Nat) (on : Bool) : State :=
  match reqOf s req with
  | none => s
  | some r =>
    let first := (tget s.kva.roots req).elim r.committed (fun x => x.committed)
    if r.phase = .prefill then
      let n := chunkOf s r
      let s1 := mapRequest s req first n r.model r.kv4 false false
      match r.standin with
      | some m => mapRequest s1 req first n m r.kv4 false true
      | none => s1
    else
      let n := treeSize s req r
      if on then mapRequest s req first n (r.standin.getD r.model) r.kv4 true true
      else
        let s1 := mapRequest s req first n r.model r.kv4 true false
        match r.standin with
        | some m => mapRequest s1 req first n m r.kv4 true true
        | none => s1

/-- The highest PRIO among a roster's contexts that this controller serves. -/
def rosterPrio (s : State) (seqs : List (Nat × Bool × Nat)) : Nat :=
  seqs.foldl (fun a q => max a ((reqOf s q.1).elim 0 (fun r => if r.origin = self s then ctxPrio s r.key.ctx else 0))) 0

/-- A catch-up of the main model's pages for a request on its stand-in, unless one is under way (R115). -/
def catchUp (s : State) (req : Nat) : State :=
  match reqOf s req with
  | none => s
  | some r =>
    let busy := (s.sch.units ++ s.sch.running.toList).any (fun u => match u.kind with
      | .catchUp q _ => q == req
      | _ => false)
    if r.onStandin && r.behind != 0 && !busy then
      addUnit s 1 r.key.ctx (some (if r.origin = self s then ctxPrio s r.key.ctx else 0)) (.catchUp req r.behind)
        (modelLayers s r.model - 1)
    else s

/-- The units of a started step (R102, R103): one layer of each model that runs, or of each prompt chunk. -/
def startUnits (s : State) (seqs : List (Nat × Bool × Nat)) : State :=
  let prio := some (rosterPrio s seqs)
  let known := seqs.filter (fun q => thas s.sch.reqs q.1)
  let models := (known.filterMap (fun q => (reqOf s q.1).bind (fun r =>
    if r.phase = .prefill then none else some (if q.2.1 then r.standin.getD r.model else r.model)))).dedup
  let s1 := { s with sch := { s.sch with roster := s.sch.roster.map (fun x => { x with models := models }) } }
  let s2 := models.foldl (fun s m => addUnit s 0 0 prio (.step m) (modelLayers s m - 1)) s1
  let s3 := known.foldl (fun s q =>
    match reqOf s q.1 with
    | some r => if r.phase = .prefill then addUnit s 1 0 prio (.prompt q.1 (chunkOf s r)) (modelLayers s r.model - 1) else s
    | none => s) s2
  known.foldl (fun s q => catchUp s q.1) s3

/-- The anchors of the ports' gate lists at a step start (R366) are set by the shaper's part of ROSTER; here the step starts. -/
def startStep (s : State) (ep step : Nat) (seqs : List (Nat × Bool × Nat)) : State :=
  let s1 := { s with sch := { s.sch with
    roster := some ⟨ep, step, seqs, []⟩, started := (step + 1) % 2 ^ 64, startedAt := rd s F.GLB_MGMT_CYCLES_COUNT } }
  let s2 := { s1 with
    kva := { s1.kva with mapped := [], skip := [] }
    att := { s1.att with rows := [], results := [] }
    mxe := { s1.mxe with bad := none } }
  let s3 := advanceAge s2
  let s4 := seqs.foldl (fun s q => takeStandin (stampRequest s q.1) q.1 q.2.1) s3
  let s5 := seqs.foldl (fun s q => mapSeq s q.1 q.2.1) s4
  startUnits s5 seqs

/-- Whether a STEP has been started already (R96): STEP is free-running. -/
def stepStarted (s : State) (step : Nat) : Bool := decide ((2 ^ 64 + step - s.sch.started) % 2 ^ 64 ≥ 2 ^ 63)

/-! ### A unit ends (R103, R510, R513) -/

/-- The models of the image that holds a tensor (R510). -/
def tensorModels (s : State) (h : Nat) : List Nat :=
  let t := tensorOf s h
  if t.image = 0 then [] else (s.mxe.models.filter (fun e => e.2 == t.image)).map (fun e => e.1)

/-- Whether a tensor holds a listed line (R311). -/
def tensorDamaged (s : State) (h : Nat) : Bool :=
  let t := tensorOf s h
  t.hbm && touchesUe s t.base t.len

/-- The 4 KiB ranges of a tensor that hold a listed line (R511). -/
def damagedRanges (s : State) (h : Nat) : List Nat :=
  let t := tensorOf s h
  ((s.mem.ue.filter (fun l => overlap (l * 64) 64 t.base t.len)).map (fun l => l * 64 / 4096)).dedup

/-- A continuity port is ACTIVE (CON_STAT.PORTS_UP). -/
def continuityUp (s : State) : Bool := rd s F.CON_STAT_PORTS_UP != 0

/-- RAS_REFETCH_FAIL (R512): the tensor and the first failing offset. -/
def refetchFailed (s : State) (tensor offset : Nat) : State :=
  errorEvent s St.RAS_REFETCH_FAIL ⟨0, 0⟩ 0 0 (at' 0 32 tensor) (BitVec.ofNat 64 offset)

/-- TENSOR_REFETCH (R511): the twin's tensor entry and the damaged ranges are read on TC5, where the pair and a port allow
it. -/
def refetch (s : State) (h : Nat) : State :=
  let rs := damagedRanges s h
  if conState s = 1 ∧ continuityUp s then
    match twin s with
    | some n =>
      rs.foldl (fun s g => send s n 5 .get [at' 0 32 h, BitVec.ofNat 64 (g * 4096), 4096]) (send s n 5 .get [at' 0 32 h, 0, 32])
    | none => s
  else refetchFailed s h ((rs.headD 0) * 4096)

/-- The members of the running roster commit nothing (R510, R271). -/
def failStep (s : State) : State :=
  match s.sch.roster with
  | some x => x.seqs.foldl (fun s q => skipStep s q.1) s
  | none => s

/-- The requests whose model uses a damaged tensor are held, and the tensor is re-fetched (R510, R511). -/
def holdDamaged (s : State) (h : Nat) : State :=
  let ms := tensorModels s h
  let uses (r : Req) : Bool := ms.contains r.model || r.standin.elim false (fun m => ms.contains m)
  let rs := tmap (fun _ r => if uses r then { r with damaged := true } else r) s.sch.reqs
  refetch { s with sch := { s.sch with reqs := rs } } h

/-- A step that committed nothing under R510: after STEP_FAIL_MAX in a row the event is posted, and a paired member yields
(R513, R452). -/
def countFail (s : State) : State :=
  let n := s.sch.failedSteps + 1
  let s1 := { s with sch := { s.sch with failedSteps := n } }
  if n = rd s F.RAS_CFG_STEP_FAIL_MAX then
    let s2 := openEvent s1 .error St.RAS_STEP_FAIL noUnit 0 0
    if conState s2 = 1 ∧ s2.con.yielding = 0 then { s2 with con := { s2.con with yielding := 1 } } else s2
  else s1

/-- The last unit of a model's step: the step is over when every model's is (R513). -/
def endModel (s : State) (m : Nat) (failed : Bool) : State :=
  match s.sch.roster with
  | none => s
  | some x =>
    let left := x.models.erase m
    let s1 := { s with sch := { s.sch with roster := some { x with models := left } } }
    if !left.isEmpty then s1
    else if failed || s.mxe.bad.isSome then countFail s1
    else { s1 with sch := { s1.sch with failedSteps := 0 } }

/-- A prompt chunk's last layer: its tokens are committed (R216), and the prompt shrinks by them. -/
def endChunk (s : State) (req tokens : Nat) : State :=
  if s.kva.skip.contains req then s
  else
    let s1 := commitRows s req tokens
    modReq s1 req (fun q => { q with prefillLeft := q.prefillLeft - tokens })

/-- The last unit of work other than a step's. -/
def endWork (s : State) (id : Nat) : State :=
  match tget s.mxe.runs id with
  | none => s
  | some r => if dOpcode r.desc = 0x11 then finishRun s id r else finishPack s id r

/-- What a unit's end brings about when no unit of its work is left, or its kernel failed. -/
def endUnit (s : State) (u : MxeUnit) (failed : Bool) : State :=
  match u.kind with
  | .step m => endModel s m failed
  | .prompt req tokens => if failed then s else endChunk s req tokens
  | .catchUp req tokens => if failed then s else modReq s req (fun q => { q with behind := q.behind - tokens })
  | .work id => endWork s id

/-- The status of a unit of a step or chunk: the one reported, or the one a core unit gave it. -/
def unitStatus (s : State) (r : UnitResult) : Status := if r.status = 0 then s.mxe.bad.getD 0 else r.status

/-- A failed kernel of a step or chunk (R510). -/
def unitFault (s : State) (u : MxeUnit) (st : Status) (tensor : Nat) : State :=
  let s1 := match u.kind with
    | .step _ => failStep s
    | .prompt req _ => skipStep s req
    | .catchUp _ _ => s
    | .work id => modRun s id (fun r => { r with failed := some (r.failed.getD st) })
  match u.kind with
  | .work _ => s1
  | _ => if st = St.MXE_TILE_FAIL then s1 else holdDamaged s1 tensor

/-- UNIT_END (R103, R110, R173, R510–R513): the kernel boundary, the next unit of the same work or its end, and the start of the
highest-ranking ready unit. -/
def unitEnd (s : State) (r : UnitResult) : State :=
  whenUp s (fun s =>
    match s.sch.running with
    | none => s
    | some u =>
      let st := unitStatus s r
      let failed := decide (st ≠ 0)
      let s1 := kernelBoundary { s with sch := { s.sch with running := none } }
      let s2 := if u.prio.isNone then
          { s1 with sch := { s1.sch with inherit := tkeep (fun h _ => h / 16 != u.ctx) s1.sch.inherit } }
        else s1
      let s3 := if failed then unitFault s2 u st r.tensor else s2
      let stop := failed && (match u.kind with
        | .work _ => false
        | _ => true)
      let s4 :=
        if u.left = 0 ∨ stop = true then endUnit s3 u failed
        else { s3 with sch := { s3.sch with units := s3.sch.units ++ [{ u with left := u.left - 1 }] } }
      startUnit s4)

end Sys2Proof.Machine
end

