-- ==== Sys2Proof/Machine/Glk.lean ====
section
/-! DEFINITION. Ghemlink: ports, link frames and replay, the shaper and gates, and remote operations at their destination
(R332–R358, R360–R373). -/

namespace Sys2Proof.Machine

open Sys2Proof

/-! ### Port states (R335, R336) -/

/-- The port as an error record names it (R506). -/
def portUnit (n : Nat) : UnitRef := ⟨6, n⟩

/-- A LINK_CHANGE event (R358): port, new STATE and new WIDTH. -/
def linkChange (s : State) (n : Nat) (st : Status) : State :=
  postEvent s .linkChange st (portUnit n) 0 0
    (mkWord [(0, 6, n), (8, 3, portState s n), (12, 4, rdi s F.GLK_PORT_STAT_WIDTH n)]) (Config.eventDetail (2 * s.out.length + 1))

/-- STATE of a port set; a continuity port's ACTIVE bit stands in CON_STAT.PORTS_UP (R458). -/
def setPortState (s : State) (n st : Nat) : State :=
  let s1 := wri s F.GLK_PORT_STAT_STATE n st
  if 56 ≤ n then
    wr s1 F.CON_STAT_PORTS_UP (bits (setFld (at' 0 4 (rd s1 F.CON_STAT_PORTS_UP)) (n - 56) 1 (if st = 5 then 1 else 0)) 3 0)
  else s1

/-- What a port loses when it leaves ACTIVE (R339, R341): frames, sequence, credits, keys. -/
def clearPort (s : State) (n : Nat) (retry : Bool) : State :=
  wri (wri (wri (setPort s n { GPort.fresh with retry := retry }) F.GLK_PORT_STAT_WIDTH n 0) F.GLK_PORT_STAT_LANE_OK n 0)
    F.GLK_PORT_STAT_PEER n 0

/-- A port enters TRAIN (R336): counted, with a LINK_CHANGE event of this status; `retry` for a second's wait first. -/
def enterTrain (s : State) (n : Nat) (st : Status) (retry : Bool) : State :=
  linkChange (addSat (setPortState (clearPort s n retry) n 1) F.GLK_PORT_ERR_CNT_RETRAIN n 1) n st

/-- MAX_WIDTH of a write; 0b00 is ignored (R358). -/
def setMaxWidth (s : State) (n : Nat) (w : Word) : State :=
  if bits w 1 0 = 0 then s else wri s F.GLK_PORT_CTL_MAX_WIDTH n (bits w 1 0)

/-- PORT_ENABLE (R336, R358): a write of EN = 1 trains a disabled port; to an enabled one it may ask for RETRAIN. -/
def portEnable (s : State) (n : Nat) (w : Word) : State :=
  ofForm (bit w 63 && decide (n < 60)) s (bar0 s (fun s =>
    let s1 := setMaxWidth s n w
    if rdi s F.GLK_PORT_CTL_EN n = 0 then enterTrain (wri s1 F.GLK_PORT_CTL_EN n 1) n St.OK false
    else if bit w 62 && (portState s n == 4 || portState s n == 5) then enterTrain s1 n St.OK false
    else s1))

/-- PORT_DISABLE (R339): a write of EN = 0 makes the port DISABLED at once. -/
def portDisable (s : State) (n : Nat) (w : Word) : State :=
  ofForm (!bit w 63 && decide (n < 60)) s (bar0 s (fun s =>
    let s1 := setMaxWidth s n w
    if rdi s F.GLK_PORT_CTL_EN n = 1 then wri (setPortState (clearPort s1 n false) n 0) F.GLK_PORT_CTL_EN n 0 else s1))

/-- PORT_RETRAIN (R336): a write of RETRAIN = 1, ignored unless the port is ACTIVE or in REJOIN. -/
def portRetrain (s : State) (n : Nat) : State :=
  bar0 s (fun s => if n < 60 ∧ (portState s n = 4 ∨ portState s n = 5) then enterTrain s n St.OK false else s)

/-- The lanes of an aligned group of `w` lanes starting at `i`. -/
def laneGroup (w i : Nat) : Nat := (2 ^ w - 1) * 2 ^ i

/-- Whether some aligned group of `w` lanes is good. -/
def groupGood (good : BitVec 8) (w : Nat) : Bool :=
  (List.range (8 / w)).any (fun i => good.toNat &&& laneGroup w (w * i) == laneGroup w (w * i))

/-- The largest width of R332 up to a limit with an aligned group of good lanes. -/
def widthFor (good : BitVec 8) (limit : Nat) : Option Nat :=
  [8, 4, 2].find? (fun w => decide (w ≤ limit) && groupGood good w)

/-- Lanes that MAX_WIDTH allows. -/
def maxWidth (s : State) (n : Nat) : Nat := 2 ^ rdi s F.GLK_PORT_CTL_MAX_WIDTH n

/-- PMD_TRAINING_DONE (R336 steps 1 to 3): the width is chosen and the key exchange starts, or the port trains again after a
second. -/
def pmdTrainingDone (s : State) (n : Nat) (lanes : BitVec 8) : State :=
  if 60 ≤ n ∨ portState s n ≠ 1 ∨ (portOf s n).retry then s
  else
    match widthFor lanes (maxWidth s n) with
    | none => enterTrain s n St.OK true
    | some w =>
      let s1 := wri (wri s F.GLK_PORT_STAT_WIDTH n w) F.GLK_PORT_STAT_LANE_OK n lanes.toNat
      emit (setPortState (setPort s1 n GPort.fresh) n 2) (.keyxFrame n)

/-- TRAIN_RETRY (R336, R346): the second has passed. -/
def trainRetry (s : State) (n : Nat) : State :=
  if 60 ≤ n ∨ portState s n ≠ 1 then s else setPort s n { portOf s n with retry := false }

/-- A CREDIT frame of this port (R340, R341): it takes a SEQ and carries the counts. -/
def sendCredit (s : State) (n : Nat) (nak : Bool) : State :=
  let p := portOf s n
  emit (setPort s n { p with txSeq := (p.txSeq + 1) % 4096, sealed_ := p.sealed_ + 1 })
    (.creditFrame n p.txSeq ((p.rxSeq + 4095) % 4096) nak (p.freed.map (· % 65536)))

/-- The credits that a port's own receive buffer grants at the start, by channel (R349). -/
def grantedCredits (s : State) (n : Nat) : List Nat :=
  (List.range 12).map (fun v => 128 * fld (s.reg (F.GLK_PORT_VC_CFG_UNITS.off n)) (5 * v) 5)

/-- KEYX_FRAME (R346, R347): the peer's chain, signature and node are checked; at training the port goes on to CREDIT, beside
traffic the key's generation advances. -/
def keyxFrame (s : State) (n : Nat) (f : KeyxMsg) : State :=
  let p := portOf s n
  if 60 ≤ n ∨ ¬(portState s n = 2 ∨ p.rekey) then s
  else if !f.good then
    errorEvent (enterTrain s n St.OK true) St.GLK_KEY_FAIL (portUnit n) 0 0 0 (Config.eventDetail (2 * s.out.length + 1))
  else if 56 ≤ n ∧ twin s ≠ some f.peer then
    errorEvent (enterTrain s n St.OK true) St.GLK_PEER_MISMATCH (portUnit n) 0 0 0 (Config.eventDetail (2 * s.out.length + 1))
  else if portState s n = 2 then
    sendCredit (setPortState (wri (setPort s n { p with freed := grantedCredits s n }) F.GLK_PORT_STAT_PEER n f.peer) n 3) n false
  else setPort s n { p with rekey := false, gen := (p.gen + 1) % 4, sealed_ := 0 }

/-- Whether SEQ `a` lies after `b` and not after `c`, modulo 4,096. -/
def seqIn (b a c : Nat) : Bool := decide ((a + 4096 - b) % 4096 ≠ 0) && decide ((a + 4096 - b) % 4096 ≤ (c + 4096 - b) % 4096)

/-- Frames that ACK_SEQ covers leave the replay buffer (R341). -/
def ackFrames (p : GPort) (ack : Nat) : GPort :=
  let first := match p.unacked with
    | u :: _ => (u.1 + 4095) % 4096
    | [] => ack
  { p with unacked := p.unacked.filter (fun u => !seqIn first u.1 ack) }

/-- NAK_REPLAY (R341, R339): the frames after ACK_SEQ are sent again in SEQ order; at the eighth replay of one SEQ in a row the
port retrains. -/
def replay (s : State) (n ack : Nat) : State :=
  let p := ackFrames (portOf s n) ack
  let again := if p.replayed = ack ∧ p.replays ≠ 0 then p.replays + 1 else 1
  let s1 := addSat (setPort s n { p with replayed := ack, replays := again }) F.GLK_PORT_ERR_CNT_REPLAY n 1
  if 8 ≤ again then enterTrain s1 n St.GLK_PORT_DOWN false
  else emits s1 (p.unacked.map (fun u => .frame n u.2.vc u.1 u.2.dest u.2.tag u.2.len))

/-- A corrupt or out-of-order frame is NAKed once until the awaited SEQ arrives (R341). -/
def nakFrame (s : State) (n : Nat) : State :=
  let p := portOf s n
  if p.naking then s else sendCredit (setPort s n { p with naking := true }) n true

/-- A frame whose check failed (R341, R347): counted, and NAKed; sixteen tag failures within 1 ms retrain the port. -/
def badCheck (s : State) (n : Nat) (c : FrameCheck) : State :=
  match c with
  | .tagFail =>
    let p := portOf s n
    let now := rd s F.GLB_MGMT_CYCLES_COUNT
    let fails := (p.auth.filter (fun t => decide (now < t + 400000))) ++ [now]
    let s1 := addSat (setPort s n { p with auth := fails }) F.GLK_PORT_ERR_CNT_AUTH_ERR n 1
    if 16 ≤ fails.length then enterTrain s1 n St.GLK_KEY_FAIL false else nakFrame s1 n
  | _ => nakFrame (addSat s F.GLK_PORT_ERR_CNT_CRC_ERR n 1) n

/-- A valid frame in sequence, with its acknowledgement and NAK (R341). -/
def acceptSeq (s : State) (n ack : Nat) (nak : Bool) : State :=
  let p := ackFrames (portOf s n) ack
  let p1 := { p with
    rxSeq := (p.rxSeq + 1) % 4096, naking := false
    replays := if p.unacked.length < (portOf s n).unacked.length then 0 else p.replays }
  let s1 := setPort s n p1
  if nak then replay s1 n ack else s1

/-- The link test begins (R336 step 5). -/
def beginTest (s : State) (n : Nat) : State := emit (setPortState s n 4) (.linkTest n false)

/-- CREDIT_FRAME (R349, R341, R336 step 4): credits and acknowledgements return, or a NAK replays; the first one ends CREDIT. -/
def creditFrame (s : State) (n : Nat) (f : CreditMsg) : State :=
  if 60 ≤ n ∨ ¬(3 ≤ portState s n) then s
  else if f.check ≠ .good then badCheck s n f.check
  else if f.seq ≠ (portOf s n).rxSeq then nakFrame s n
  else
    let s1 := acceptSeq s n f.ack f.nak
    if portState s1 n = 1 then s1
    else
      let p := portOf s1 n
      let up (i : Nat) : Nat := p.credits.getD i 0 + (f.counts.getD i 0 + 65536 - p.credits.getD i 0 % 65536) % 65536
      let s2 := setPort s1 n { p with credits := (List.range 12).map up }
      if portState s2 n = 3 then beginTest s2 n else servePort s2 n false

/-- CREDIT_FRAME_INTERVAL (R341): a CREDIT frame is sent. -/
def creditFrameInterval (s : State) (n : Nat) : State := if n < 60 ∧ 3 ≤ portState s n then sendCredit s n false else s

/-- A route entry with a port's bit set and VALID = 1 (R338). -/
def routeWith (s : State) (peer n : Nat) : Word := setBit (setBit (readWord s (routeAddr s peer)) n true) 63 true

/-- ROUTE_TAKE (R338): a local route-table take for the port's peer. -/
def routeTake (s : State) (n : Nat) : State :=
  let peer := rdi s F.GLK_PORT_STAT_PEER n
  localFor s .block (.route n) [⟨0, ⟨kRoute, 0, peer⟩, .mapEntry (rd s F.GLK_ROUTE_EPOCH_EPOCH) [routeWith s peer n]⟩]

/-- LINK_TEST_FRAME (R336): the peer's frame is answered, or one's own is checked; after 65,536 good ones a continuity port is
ACTIVE and a fabric port asks for its route. -/
def linkTestFrame (s : State) (n : Nat) (echo ok : Bool) : State :=
  if 60 ≤ n ∨ portState s n ≠ 4 then s
  else if !echo then emit s (.linkTest n true)
  else if !ok then enterTrain s n St.OK false
  else
    let p := portOf s n
    if 65536 ≤ p.tested then s
    else
      let s1 := setPort s n { p with tested := p.tested + 1 }
      if p.tested + 1 < 65536 then s1
      else if 56 ≤ n then servePort (setPortState s1 n 5) n false
      else routeTake s1 n

/-- LANE_FAULT (R339): the port goes on at a smaller width and replays, or retrains. -/
def laneFault (s : State) (n : Nat) (good : BitVec 8) : State :=
  if 60 ≤ n ∨ ¬(2 ≤ portState s n) then s
  else
    let ok := BitVec.ofNat 8 (rdi s F.GLK_PORT_STAT_LANE_OK n) &&& good
    let w0 := rdi s F.GLK_PORT_STAT_WIDTH n
    match widthFor ok w0 with
    | none => enterTrain s n St.GLK_PORT_DOWN false
    | some w =>
      let s1 := wri (wri s F.GLK_PORT_STAT_WIDTH n w) F.GLK_PORT_STAT_LANE_OK n ok.toNat
      if w = w0 then s1
      else
        let p := portOf s1 n
        let s2 := if p.unacked.isEmpty then s1
          else emits (addSat s1 F.GLK_PORT_ERR_CNT_REPLAY n 1) (p.unacked.map (fun u => .frame n u.2.vc u.1 u.2.dest u.2.tag u.2.len))
        linkChange s2 n St.GLK_WIDTH_DOWN

/-- PORT_RX_TIMEOUT (R339). -/
def portRxTimeout (s : State) (n : Nat) : State :=
  if n < 60 ∧ (portState s n = 4 ∨ portState s n = 5) then enterTrain s n St.GLK_PORT_DOWN false else s

/-- CREDIT_TIMEOUT (R339): a channel with a frame waiting and no credit for it. -/
def creditTimeout (s : State) (n vc : Nat) : State :=
  let p := portOf s n
  if n < 60 ∧ portState s n = 5 ∧
      p.queue.any (fun f => f.vc == vc && decide (p.credits.getD vc 0 < p.used.getD vc 0 + creditNeed f)) = true then
    enterTrain s n St.GLK_CREDIT_TIMEOUT false
  else s

/-- Whether a port carries a class (R334). -/
def carries (n tc : Nat) : Bool := if 56 ≤ n then tc == 4 || tc == 5 else tc != 4

/-- DATA_FRAME (R341, R334, R349): accepted in sequence, its credits freed and its operation handed on; a class the port does not
carry is discarded and counted. -/
def dataFrame (s : State) (n : Nat) (f : DataMsg) : State :=
  if 60 ≤ n ∨ ¬(4 ≤ portState s n) then s
  else if f.check ≠ .good then badCheck s n f.check
  else if 12 ≤ f.vc then badCheck s n .corrupt
  else if f.seq ≠ (portOf s n).rxSeq then nakFrame s n
  else
    let s1 := acceptSeq s n f.ack f.nak
    if portState s1 n = 1 then s1
    else
      let p := portOf s1 n
      let s2 := setPort s1 n { p with freed := addAt p.freed f.vc (ceilDiv f.len 64) }
      if carries n (f.vc / 2) then servePort s2 n false
      else openEvent (addSat s2 F.GLK_PORT_ERR_CNT_BAD_FRAME n 1) .error St.GLK_BAD_FRAME (portUnit n) 0 0

/-- FRAME_ON_WIRE_FINISHES (R348): the wire is free and the port picks again. -/
def frameOnWireFinishes (s : State) (n : Nat) : State :=
  let p := portOf s n
  if 60 ≤ n ∨ p.wire.isNone then s else servePort (setPort s n { p with wire := none }) n false

/-! ### The Reel (R361–R365) -/

/-- A shaper's write taken at the boundary (R365): EN, BURST within 8 to 4,096, RATE not zero. A class that is switched on or
off has every bucket full. -/
def takeShape (s : State) (k : Nat) (w : Word) : State :=
  let was := shaped s (k + 2)
  let s1 := wri s F.SHP_TC_SHAPE_EN k (if bit w 63 then 1 else 0)
  let s2 := if 8 ≤ bits w 44 32 ∧ bits w 44 32 ≤ 4096 then wri s1 F.SHP_TC_SHAPE_BURST k (bits w 44 32) else s1
  let s3 := if bits w 23 0 = 0 then s2 else wri s2 F.SHP_TC_SHAPE_RATE k (bits w 23 0)
  let full := !was || !bit w 63
  let keys := (tkeys s3.shp.flows).filter (fun key => key % 8 == k + 2)
  keys.foldl (fun s key =>
    match tget s.shp.flows key with
    | some f => placeFlow s key { f with ready := false, tokens := if full then shapeBurst s (k + 2) else f.tokens }
    | none => s) s3

/-- A bucket's gain at a slot boundary (R361, R365). -/
def refill (s : State) (key : Nat) (f : ShpFlow) : ShpFlow :=
  let b := shapeBurst s (key % 8)
  if !shaped s (key % 8) then { f with tokens := b }
  else if b ≤ f.tokens then f
  else { f with tokens := min b (f.tokens + shapeRate s (key % 8)) }

/-- Ports with an idle wire pick again. -/
def serveIdle (s : State) : State :=
  (tkeys s.glk.ports).foldl (fun s n => if (portOf s n).queue.isEmpty then s else servePort s n false) s

/-- Waiting frames of flows without an entry take the entries that are free (R362). -/
def admitFlows (s : State) : State :=
  let keys := (((tvals s.glk.ports).flatMap (fun p => (p.queue.filter reelFrame).map (fun f => shpKey f.dest (f.vc / 2)))).dedup).filter
    (fun k => !thas s.shp.flows k)
  keys.foldl (fun s k =>
    if 16384 ≤ s.shp.flows.length then s else placeFlow s k ⟨shapeBurst s (k % 8), 0, false, false, 0⟩) s

/-- REEL_SLOT (R361–R365): buckets refill, the overflow list is scanned at slot 0, due flows become eligible, entries are freed and
taken, and shaper writes take effect. -/
def reelSlot (s : State) : State :=
  let slot := s.shp.slot + 1
  let s1 := { s with shp := { s.shp with slot := slot, flows := tmap (refill s) s.shp.flows } }
  let s2 := if slot % 4096 = 0 then
      { s1 with shp := { s1.shp with flows := tmap (fun _ f => if f.far && decide (f.due < slot + 4096) then { f with far := false } else f) s1.shp.flows } }
    else s1
  let due := (s2.shp.flows.filter (fun e => !e.2.ready && !e.2.far && decide (e.2.due ≤ slot))).map (fun e => e.1)
  let s3 := due.foldl (fun s k => match tget s.shp.flows k with
    | some f => placeFlow s k f
    | none => s) s2
  let idle (k : Nat) (f : ShpFlow) : Bool := (flowFrames s3 k).isEmpty && decide (shapeBurst s3 (k % 8) ≤ f.tokens)
  let s4 := { s3 with shp := { s3.shp with flows := tkeep (fun k f => !idle k f) s3.shp.flows } }
  let s5 := s.shp.shapes.foldl (fun s e => takeShape s e.1 e.2) { s4 with shp := { s4.shp with shapes := [] } }
  serveIdle (admitFlows s5)

/-- SHAPER_WRITE (R365): the write waits for the next slot boundary. -/
def shaperWrite (s : State) (k : Nat) (w : Word) : State :=
  ofForm (decide (k < 2)) s (bar0 s (fun s => { s with shp := { s.shp with shapes := tset s.shp.shapes k w } }))

/-! ### Gates (R366–R371) -/

/-- Frames of a class may be counted for a new window once its old one is over. -/
def clearWaits (s : State) (n : Nat) : State :=
  let p := portOf s n
  setPort s n { p with queue := p.queue.map (fun f => { f with waited := false }) }

/-- GATE_ENTRY_END (R366): the next entry, the hold or the repeat begins. -/
def gateEntryEnd (s : State) (n : Nat) : State :=
  match tget s.shp.gates n with
  | none => s
  | some g =>
    if g.held ∨ 56 ≤ n ∨ rdi s F.SHP_GATE_CTL_EN n = 0 then s
    else
      let now := rd s F.GLB_MGMT_CYCLES_COUNT
      let last := decide (gateLen s n ≤ g.entry + 1)
      let g1 : Gate := if !last then ⟨g.entry + 1, now, false⟩ else if gateRepeat s n then ⟨0, now, false⟩ else ⟨g.entry, now, true⟩
      let s1 := { s with shp := { s.shp with gates := tset s.shp.gates n g1 } }
      if g1.held then s1 else servePort (if thas s1.glk.ports n then clearWaits s1 n else s1) n true

/-- Whether a bank passes the check of R371. -/
def bankOk (s : State) (n b : Nat) : Bool :=
  let len := if b = 0 then rdi s F.SHP_GATE_CTL_LEN_A n else rdi s F.SHP_GATE_CTL_LEN_B n
  decide (1 ≤ len) && decide (len ≤ 64) &&
    (List.range len).all (fun e => bits (s.reg (0x202000 + 0x400 * n + 0x200 * b + 8 * e)) 19 0 != 0)

/-- The class of a frame on the wire that the new entry 0 closes (R370). -/
def cutOff (s : State) (n : Nat) : Bool :=
  match (portOf s n).wire with
  | some f => decide (1 ≤ f.vc / 2) && decide (f.vc / 2 ≤ 3) && !entryOpen s n (f.vc / 2) 0
  | none => false

/-- GATE_ANCHOR at one port (R366, R370, R371): a pending bank is checked and swapped, and the list restarts. -/
def anchorPort (s : State) (n : Nat) : State :=
  let b := 1 - rdi s F.SHP_GATE_CTL_BANK n
  let s1 := if rdi s F.SHP_GATE_CTL_PEND n = 1 then
      let s' := wri s F.SHP_GATE_CTL_PEND n 0
      if bankOk s n b then wri (wri s' F.SHP_GATE_CTL_BANK n b) F.SHP_GATE_CTL_ERR n 0 else wri s' F.SHP_GATE_CTL_ERR n 1
    else s
  if rdi s1 F.SHP_GATE_CTL_EN n = 0 then s1
  else
    let s2 := if thas s1.shp.gates n && cutOff s1 n then bump s1 F.SHP_OVERRUN_CNT_COUNT else s1
    let s3 := { s2 with shp := { s2.shp with gates := tset s2.shp.gates n ⟨0, rd s2 F.GLB_MGMT_CYCLES_COUNT, false⟩ } }
    if thas s3.glk.ports n then servePort (clearWaits s3 n) n true else s3

/-- GATE_ANCHOR (R366): the local step start restarts every fabric port's list. -/
def anchorGates (s : State) : State :=
  (List.range 56).foldl (fun s n =>
    if rdi s F.SHP_GATE_CTL_EN n = 1 ∨ rdi s F.SHP_GATE_CTL_PEND n = 1 then anchorPort s n else s) s

/-- The fields of SHP_GATE_CTL that a write sets besides EN and PEND: LEN and MODE of the inactive bank (R371). -/
def writeBank (s : State) (n : Nat) (w : Word) : State :=
  if rdi s F.SHP_GATE_CTL_BANK n = 0 then
    wri (wri s F.SHP_GATE_CTL_LEN_B n (bits w 6 0)) F.SHP_GATE_CTL_MODE_B n (bits w 17 17)
  else wri (wri s F.SHP_GATE_CTL_LEN_A n (bits w 14 8)) F.SHP_GATE_CTL_MODE_A n (bits w 16 16)

/-- A write to SHP_GATE_CTL (R367, R371, R373): EN, PEND = 1, and the inactive bank's fields. -/
def writeGateCtl (s : State) (n : Nat) (w : Word) : State :=
  let s1 := writeBank s n w
  let s2 := if bit w 62 then wri s1 F.SHP_GATE_CTL_PEND n 1 else s1
  if bit w 63 then
    if rdi s2 F.SHP_GATE_CTL_EN n = 1 then s2 else wri s2 F.SHP_GATE_CTL_EN n 1
  else
    let s3 := wri { s2 with shp := { s2.shp with gates := tdel s2.shp.gates n } } F.SHP_GATE_CTL_EN n 0
    if thas s3.glk.ports n then servePort s3 n false else s3

/-- GATE_SWAP_REQUEST (R371): a write of PEND = 1. -/
def gateSwapRequest (s : State) (n : Nat) (w : Word) : State :=
  ofForm (bit w 62 && decide (n < 56)) s (bar0 s (fun s => writeGateCtl s n w))

/-- GATE_ENABLE (R367): a write to SHP_GATE_CTL that sets or clears EN and asks for no swap. -/
def gateEnable (s : State) (n : Nat) (w : Word) : State :=
  ofForm (!bit w 62 && decide (n < 56)) s (bar0 s (fun s => writeGateCtl s n w))

/-! ### Remote operations at their destination (R352, R492) -/

/-- The bytes of the map region and log (R390, R400) that this model holds as entries and records. -/
def mapByte (s : State) (o : Nat) : Byte :=
  if o < 2 ^ 25 then (wordBytes (wordAt (mapGet s.dtm.map (o / 32)) (o / 8 % 4))).getD (o % 8) 0
  else
    match tget s.dtm.log ((o - 2 ^ 25) / 2048) with
    | some r => (wordBytes (wordAt (logWords r.1 r.2) ((o - 2 ^ 25) % 2048 / 8))).getD (o % 8) 0
    | none => 0

/-- Whether a range lies wholly within the map region and log of this controller (R390, R398). -/
def inMap (s : State) (a n : Nat) : Bool :=
  let b := rd s F.DTM_CTL_BASE_MIB * 2 ^ 20
  epoch s != 0 && within a n b (b + 0x2020000)

/-- Local bytes as a reader sees them. -/
def localBytes (s : State) (a n : Nat) : List Byte :=
  if inMap s a n then (List.range n).map (fun i => mapByte s (a + i - rd s F.DTM_CTL_BASE_MIB * 2 ^ 20)) else readMem s a n

/-- Whether a node's entry is SERVING or REJOIN (R492). -/
def nodePresent (s : State) (n : Nat) : Bool := eState (mapGet s.dtm.map n) != 0

/-- The grants of R492. -/
def remoteOk (s : State) (r : RemoteReq) (right : Nat) (get_ : Bool) (a n : Nat) : Bool :=
  let isTwin := twin s == some r.src
  (inDevice s a n && (nodePresent s r.src || (isTwin && 4 ≤ r.tc))) ||
    (get_ && r.tc == 5 && decide (56 ≤ r.port) && isTwin && inHbm s a n) ||
    (get_ && r.epoch == 0 && inMap s a n) || remoteGrant s r.src right a n

/-- An atomic's target: aligned, and in HBM, or for 8-byte words in HBM or stage memory (R352). -/
def atomicBad (s : State) (a n : Nat) (stage : Bool) : Bool := a % n != 0 || !(inHbm s a n || (stage && inStage a n))

/-- The checks of R352 in order; `bad` is the first one, `ranges` the bytes touched, `atoms` those that must suit an atomic. -/
def remoteRefusal (s : State) (r : RemoteReq) (bad : Bool) (right : Nat) (get_ : Bool) (ranges : List (Nat × Nat))
    (atoms : List (Nat × Nat × Bool)) : Option Status :=
  if bad then some St.GLK_BAD_OP
  else
    let free := get_ && ranges.all (fun x => inMap s x.1 x.2)
    match (if 4 ≤ r.tc ∨ free then none else epochRule s r.epoch) with
    | some st => some st
    | none =>
      match ranges.findSome? (fun x => addrRefusal s x.1 x.2) with
      | some st => some st
      | none =>
        if !ranges.all (fun x => remoteOk s r right get_ x.1 x.2) then some St.GLK_REMOTE_PROT
        else if atoms.any (fun x => atomicBad s x.1 x.2.1 x.2.2) then some St.GLK_ATOMIC_RANGE
        else none

/-- A refused operation's answer (R352, R398, R399): a stale map carries its hint and is counted; an issuer ahead of this
controller is asked for the missing records. -/
def refuseOp (s : State) (r : RemoteReq) (st : Status) : State :=
  if st = St.DTM_STALE_MAP then
    respond (bump s F.DTM_STALE_CNT_COUNT) r.src r.tc r.tag (mkWord [(0, 16, st.toNat), (16, 20, hintNode s r.epoch)]) []
  else if st = St.GLK_BUSY then
    respond (send s r.src 0 .mapFetch [at' 0 32 (epoch s)]) r.src r.tc r.tag (at' 0 16 st.toNat) []
  else respond s r.src r.tc r.tag (at' 0 16 st.toNat) []

/-- Bytes stored at a local offset, or sent to host memory where it lies in the host window (R352, R314). -/
def storeAt (s : State) (a : Nat) (bs : List Byte) : State :=
  if inHostWindow a bs.length then emit s (.hostWrite (a - hostBase) bs) else writeMem s a bs

/-- The refusal of a write that covers only part of a line that cannot be read (R312). -/
def writeRefusal (s : State) (a n : Nat) : Option Status :=
  if inHostWindow a n then none else (partialLines a n).findSome? (fun l => readRefusal s l 64)

/-- PUT (R352). -/
def put (s : State) (r : RemoteReq) (bytes : List Byte) : State :=
  whenUp s (fun s =>
    let n := bytes.length
    match remoteRefusal s r (n == 0 || decide (4096 < n) || r.arg != 0) 41 false [(r.offset, n)] [] with
    | some st => refuseOp s r st
    | none =>
      match writeRefusal s r.offset n with
      | some st => refuseOp s r st
      | none => respond (storeAt s r.offset bytes) r.src r.tc r.tag 0 [])

/-- GET (R352): `host` holds what host memory gave for an offset in the host window. -/
def get (s : State) (r : RemoteReq) (host : List Byte) : State :=
  whenUp s (fun s =>
    let n := bits r.arg 12 0
    match remoteRefusal s r (n == 0 || decide (4096 < n) || bits r.arg 63 13 != 0) 40 true [(r.offset, n)] [] with
    | some st => refuseOp s r st
    | none =>
      if inHostWindow r.offset n then
        respond (emit s (.hostRead (.shared none) (r.offset - hostBase) n)) r.src r.tc r.tag 0 (host.take n)
      else
        match (if inMap s r.offset n then none else readRefusal s r.offset n) with
        | some st => refuseOp s r st
        | none => respond s r.src r.tc r.tag 0 (localBytes s r.offset n))

/-- One FP32 add line operation (R313): sixteen sums, a NaN written as 0x7FC0_0000. -/
def addLine (s : State) (a : Nat) (xs : List F32) : State :=
  writeMem s a ((List.range 16).flatMap (fun i =>
    natBytes 4 (f32Add (BitVec.ofNat 32 (readNat s (a + 4 * i) 4)) (xs.getD i 0)).toNat))

/-- ADD_F32 (R352, R313). -/
def addF32 (s : State) (r : RemoteReq) (addends : List (BitVec 32)) : State :=
  whenUp s (fun s =>
    match remoteRefusal s r (addends.length != 16 || r.arg != 0) 42 false [(r.offset, 64)] [(r.offset, 64, false)] with
    | some st => refuseOp s r st
    | none =>
      match readRefusal s r.offset 64 with
      | some st => refuseOp s r st
      | none => respond (addLine s r.offset addends) r.src r.tc r.tag 0 [])

/-- An 8-byte atomic: its old value is returned, and `f` gives the new one where it is written (R352). -/
def atomic64 (s : State) (r : RemoteReq) (f : Word → Option Word) : State :=
  whenUp s (fun s =>
    match remoteRefusal s r (r.arg != 0) 42 false [(r.offset, 8)] [(r.offset, 8, true)] with
    | some st => refuseOp s r st
    | none =>
      match readRefusal s r.offset 8 with
      | some st => refuseOp s r st
      | none =>
        let old := readWord s r.offset
        let s1 := match f old with
          | some w => writeWord s r.offset w
          | none => s
        respond s1 r.src r.tc r.tag 0 (wordBytes old))

/-- ADD_U64 (R352). -/
def addU64 (s : State) (r : RemoteReq) (v : Word) : State := atomic64 s r (fun old => some (old + v))

/-- CAS64 (R352). -/
def cas64 (s : State) (r : RemoteReq) (cmp swp : Word) : State := atomic64 s r (fun old => if old = cmp then some swp else none)

/-- COLLECTIVE_PHASE_DONE (R355): a signal counts toward the phase that waits on its word. -/
def countSignal (s : State) (a : Nat) : State :=
  match tget s.glk.colls a with
  | none => s
  | some c =>
    if c.need ≤ c.got + 1 then { s with glk := { s.glk with colls := tdel s.glk.colls a } }
    else { s with glk := { s.glk with colls := tset s.glk.colls a { c with got := c.got + 1 } } }

/-- PUT_SIGNAL (R352, R355): the bytes, then 1 added to the signal word. -/
def putSignal (s : State) (r : RemoteReq) (bytes : List Byte) : State :=
  whenUp s (fun s =>
    let n := bytes.length
    let sig := bits r.arg 51 0
    match remoteRefusal s r (n == 0 || decide (4096 < n) || bits r.arg 63 52 != 0) 41 false [(r.offset, n), (sig, 8)] [(sig, 8, true)] with
    | some st => refuseOp s r st
    | none =>
      match (writeRefusal s r.offset n).orElse (fun _ => readRefusal s sig 8) with
      | some st => refuseOp s r st
      | none =>
        let s1 := storeAt s r.offset bytes
        let s2 := writeWord s1 sig (readWord s1 sig + 1)
        respond (countSignal s2 sig) r.src r.tc r.tag 0 [])

/-! ### Collectives (R355, R356) -/

/-- The collective that follows a unit of a step in a group of more than one member (R355): its phase waits for its signal word,
and every other member is sent this one's contribution. The step program sets sizes and places; here they are free values. -/
def startCollective (s : State) (g : Nat) : State :=
  let peers := (servers s g).filter (· != self s)
  if peers.isEmpty then s
  else
    let id := s.free
    let s1 := { tickFree s with glk := { s.glk with colls := tset s.glk.colls (Config.collSignal id) ⟨Config.collCount id, 0⟩ } }
    peers.foldl (fun s n => send s n 1 .put []) s1

/-- COLL_TIMEOUT (R356): the collective ends, and the step commits no tokens. -/
def collTimeout (s : State) (coll : Nat) : State :=
  whenUp s (fun s =>
    if thas s.glk.colls coll then
      failStep (openEvent { s with glk := { s.glk with colls := tdel s.glk.colls coll } } .error St.GLK_COLL_TIMEOUT noUnit 0 0)
    else s)

/-! ### A roster at a member -/

/-- The roster's words under the epoch rule (R96, R398): a later epoch makes this member fetch the records; a stale one is
answered. -/
def staleRoster (s : State) (src c : Nat) (st : Status) : State :=
  if st = St.DTM_STALE_MAP then send (bump s F.DTM_STALE_CNT_COUNT) src 0 .response [mkWord [(0, 16, st.toNat), (16, 20, hintNode s c)]]
  else send s src 0 .mapFetch [at' 0 32 (epoch s)]

/-- ROSTER (R96, R214, R239, R366): epoch and fields are checked; a STEP that has started is ignored; else the step starts here:
frames are mapped, units made ready, the gates anchored. -/
def roster (s : State) (src : Nat) (words : List Word) : State :=
  whenUp s (fun s =>
    match epochRule s (bits (wordAt words 0) 31 0) with
    | some st => staleRoster s src (bits (wordAt words 0) 31 0) st
    | none =>
      if rosterBad words then openEvent s .error St.SCH_BAD_ROSTER noUnit 0 0
      else if stepStarted s (wordAt words 1).toNat then s
      else anchorGates (startStep s (bits (wordAt words 0) 31 0) (wordAt words 1).toNat (rosterSeqs words)))

end Sys2Proof.Machine
end

