-- ==== Sys2Proof/Machine/Bmv.lean ====
section
/-! DEFINITION. Bulk movers: MOVE descriptors, channels, patterns, remote destinations and faults (R374–R388). -/

namespace Sys2Proof.Machine

open Sys2Proof

/-- The movers' state changed. -/
def modBmv (s : State) (f : BmvState → BmvState) : State := { s with bmv := f s.bmv }

/-! ### Descriptors and patterns (R375–R377) -/

/-- CONV -/
def mvConv (d : Desc) : Nat := dfld d 0x10 59 56
/-- MOVER -/
def mvMover (d : Desc) : Nat := dfld d 0x10 63 60
/-- DST_NODE -/
def mvNode (d : Desc) : Nat := dfld d 0x38 19 0
/-- SKIP -/
def mvSkip (d : Desc) : Nat := dfld d 0x38 63 28

/-- One side's pattern: base, element width, elements per line, lines and signed stride (R376). -/
structure Side where
  base : Nat
  width : Nat
  len : Nat
  lines : Nat
  stride : Int
  deriving DecidableEq, Repr

/-- The source side (R375). -/
def srcSide (d : Desc) : Side :=
  ⟨dfld d 0x10 51 0, 2 ^ dfld d 0x10 54 52, dfld d 0x20 23 0, dfld d 0x20 47 24, signed 32 (dfld d 0x28 31 0)⟩
/-- The destination side (R375). -/
def dstSide (d : Desc) : Side :=
  ⟨dfld d 0x18 51 0, 2 ^ dfld d 0x18 54 52, dfld d 0x30 23 0, dfld d 0x30 47 24, signed 32 (dfld d 0x28 63 32)⟩

/-- Elements of a side. -/
def sideCount (x : Side) : Nat := x.len * x.lines
/-- Bytes of a side. -/
def sideBytes (x : Side) : Nat := x.len * x.width * x.lines
/-- Where a line starts (R376). -/
def lineStart (x : Side) (l : Nat) : Int := x.base + l * x.stride
/-- Where element `k` in pattern order lies (R376). -/
def elemAt (x : Side) (k : Nat) : Int := lineStart x (k / x.len) + (k % x.len * x.width : Nat)
/-- A side's span, from its lowest element byte to past its highest (R378). -/
def spanOf (x : Side) : Int × Int :=
  let a := lineStart x 0
  let b := lineStart x (x.lines - 1)
  (min a b, max a b + (x.len * x.width : Nat))

/-- Formats of a conversion, as (source, destination) codes of the packer: 0 BF16, 1 E4M3, 2 E5M2, 7 FP32 (R377). -/
def convFmts : Nat → Option (Nat × Nat)
  | 1 => some (7, 0)
  | 2 => some (7, 1)
  | 3 => some (7, 2)
  | 4 => some (0, 1)
  | 5 => some (0, 2)
  | 6 => some (0, 7)
  | 7 => some (1, 0)
  | 8 => some (2, 0)
  | _ => none

/-- Byte size of a format. -/
def convBytes (f : Nat) : Nat := if f = 7 then 4 else if f = 0 then 2 else 1

/-- Failing bytes of a MOVE (R375, R378 check 1). -/
def moveBytes (d : Desc) : List Nat :=
  badAt (dfld d 0x10 54 52 == 7) 0x10 52 ++ resv d 0x10 55 55 ++ badAt (decide (8 < mvConv d)) 0x10 56 ++
  badAt (decide (8 < mvMover d)) 0x10 60 ++ badAt (dfld d 0x18 54 52 == 7) 0x18 52 ++ resv d 0x18 63 55 ++
  badAt (dfld d 0x20 23 0 == 0) 0x20 0 ++ badAt (dfld d 0x20 47 24 == 0) 0x20 24 ++ resv d 0x20 63 48 ++
  badAt (dfld d 0x30 23 0 == 0) 0x30 0 ++ badAt (dfld d 0x30 47 24 == 0) 0x30 24 ++ resv d 0x30 63 48 ++
  badAt (!bit d.w7 20 && mvNode d != 0) 0x38 0 ++ resv d 0x38 27 21

/-- The destination is another controller (R381). -/
def mvRemote (s : State) (d : Desc) : Bool := bit d.w7 20 && mvNode d != self s

/-- Whether a range of a line may be reached at all (R299). -/
def lineOk (s : State) (a : Int) (n : Nat) : Bool := decide (0 ≤ a) && (addrRefusal s a.toNat n).isNone

/-- Whether every line of a side passes a test of its start and length. -/
def sideAll (x : Side) (p : Int → Nat → Bool) : Bool :=
  (List.range (if x.stride = 0 then 1 else x.lines)).all (fun l => p (lineStart x l) (x.len * x.width))

/-- Whether every element of a side passes a test of its offset and width. -/
def elemAll (x : Side) (p : Nat → Nat → Bool) : Bool :=
  (List.range (if x.stride = 0 then x.len else sideCount x)).all (fun k => p (elemAt x k).toNat x.width)

/-- Whether destination lines overlap (R376). -/
def linesOverlap (x : Side) : Bool := decide (1 < x.lines) && decide (x.stride.natAbs < x.len * x.width)

/-- The checks of a MOVE after its fields, in R378's order. -/
def moveChecks (d : Desc) (s : State) (k : DescKey) : List Check :=
  let a := srcSide d
  let b := dstSide d
  let here := !mvRemote s d
  let sa := spanOf a
  let sb := spanOf b
  [chk (match convFmts (mvConv d) with
     | some (f, g) => a.width != convBytes f || b.width != convBytes g
     | none => false) St.BMV_BAD_WIDTH 0x16,
   chk (if mvConv d = 0 then sideBytes a != sideBytes b else sideCount a != sideCount b) St.BMV_SIZE_MISMATCH 0x20,
   chk (decide (2 ^ 36 < sideBytes a)) St.BMV_BAD_PATTERN 0x20, chk (decide (2 ^ 36 < sideBytes b)) St.BMV_BAD_PATTERN 0x30,
   chk (linesOverlap b) St.BMV_BAD_PATTERN 0x2C, chk (decide (sideCount b ≤ mvSkip d)) St.BMV_BAD_PATTERN 0x3B,
   chk (mvConv d == 0 && mvSkip d * b.width % a.width != 0) St.BMV_BAD_PATTERN 0x3B,
   chk (a.base % a.width != 0) St.HPT_BAD_ADDR 0x10, chk (b.base % b.width != 0) St.HPT_BAD_ADDR 0x18,
   chk (a.stride.natAbs % a.width != 0) St.HPT_BAD_ADDR 0x28, chk (b.stride.natAbs % b.width != 0) St.HPT_BAD_ADDR 0x2C,
   chk (!sideAll a (lineOk s)) St.MEM_BAD_ADDR 0x10, chk (here && !sideAll b (lineOk s)) St.MEM_BAD_ADDR 0x18,
   chk (!elemAll a (localOk s k false)) St.HPT_PROT 0x10,
   chk (here && !elemAll b (localOk s k true)) St.HPT_PROT 0x18,
   chk (here && decide (sa.1 < sb.2) && decide (sb.1 < sa.2)) St.BMV_OVERLAP 0x18]

/-- MOVE (R374, R375, R378): checked, then queued for a channel. -/
def move (s : State) (k : RingKey) (d : Desc) : State :=
  ofForm (dOpcode d == 0x20) s
    (runDesc s k d (moveBytes d) (moveChecks d) (fun s _ id => modBmv s (fun b => { b with waiting := b.waiting ++ [⟨id, d⟩] })))

/-! ### Data (R379) -/

/-- The source bytes of one element: `host` holds, in pattern order, those of elements in the host window. -/
def srcElem (s : State) (x : Side) (host : List Byte) (k : Nat) : List Byte :=
  let a := (elemAt x k).toNat
  if inHostWindow a x.width then
    let before := ((List.range k).filter (fun j => inHostWindow (elemAt x j).toNat x.width)).length
    (host.drop (before * x.width)).take x.width
  else readMem s a x.width

/-- The bytes of destination element `k` (R379). -/
def dstElem (s : State) (d : Desc) (host : List Byte) (k : Nat) : List Byte :=
  let a := srcSide d
  let b := dstSide d
  match convFmts (mvConv d) with
  | some (f, g) => natBytes b.width (convert f g (bytesNat (srcElem s a host k))).1
  | none =>
    let first := k * b.width / a.width
    let last := (k * b.width + b.width - 1) / a.width
    let src := (List.range (last + 1 - first)).flatMap (fun i => srcElem s a host (first + i))
    (src.drop (k * b.width - first * a.width)).take b.width

/-- Whether a conversion of one of the elements saturates a finite value or meets a NaN (R377). -/
def mvNumeric (s : State) (d : Desc) (host : List Byte) (first last : Nat) : Bool :=
  match convFmts (mvConv d) with
  | none => false
  | some (f, g) => (List.range (last - first)).any (fun i => (convert f g (bytesNat (srcElem s (srcSide d) host (first + i)))).2)

/-- The source elements that destination elements [first, last) come from. -/
def srcRange (d : Desc) (first last : Nat) : Nat × Nat :=
  if mvConv d = 0 then (first * (dstSide d).width / (srcSide d).width, ceilDiv (last * (dstSide d).width) (srcSide d).width)
  else (first, last)

/-- Why the source of destination elements [first, last) cannot be read, if it cannot (R312, R475). -/
def srcFault (s : State) (d : Desc) (first last : Nat) : Option Status :=
  let r := srcRange d first last
  (List.range (r.2 - r.1)).findSome? (fun i => readRefusal s (elemAt (srcSide d) (r.1 + i)).toNat (srcSide d).width)

/-- The pieces in which destination elements [first, last) are written: first element, address and elements, within one line and
at most `most` bytes each (R381). -/
def pieces (x : Side) (most : Nat) : Nat → Nat → Nat → List (Nat × Nat × Nat)
  | 0, _, _ => []
  | n + 1, first, last =>
    if last ≤ first then []
    else
      let m := min (min (last - first) (x.len - first % x.len)) (max 1 (most / x.width))
      (first, (elemAt x first).toNat, m) :: pieces x most n (first + m) last

/-- Destination elements of a piece as bytes. -/
def pieceBytes (s : State) (d : Desc) (host : List Byte) (first n : Nat) : List Byte :=
  (List.range n).flatMap (fun i => dstElem s d host (first + i))

/-- Destination elements [first, last) written in pattern order, from the source as it stands (R379, R382). -/
def writeElems (s : State) (d : Desc) (host : List Byte) (first last : Nat) : State :=
  let x := dstSide d
  bumpBy ((pieces x (x.len * x.width) (last - first) first last).foldl
    (fun t p => storeAt t p.2.1 (pieceBytes s d host p.1 p.2.2)) s) F.BMV_BYTES_CNT_COUNT ((last - first) * x.width)

/-! ### Channels (R374, R380) -/

/-- Busy channels of a mover. -/
def busyChans (s : State) (m : Nat) : List (Nat × MoveChan) := s.bmv.chans.filter (fun e => e.1 / 32 == m)

/-- BUSY of every mover follows its channels (R388). -/
def showBusy (s : State) : State :=
  (List.range 8).foldl (fun s m => if rdi s F.BMV_MOVER_BUSY m = (busyChans s m).length then s
    else wri s F.BMV_MOVER_BUSY m (busyChans s m).length) s

/-- The mover that ANY picks: the fewest busy channels, the lower number on a tie (R374). -/
def anyMover (s : State) : Nat := (minBy (fun m => (busyChans s m).length) (List.range 8)).getD 0

/-- The mover a waiting MOVE takes a channel of. -/
def moverFor (s : State) (d : Desc) : Nat := if mvMover d = 8 then anyMover s else mvMover d

/-- The waiting MOVE that takes the next channel of a mover: the highest PRIO, then the oldest (R102, R374). -/
def nextMove (s : State) (m : Nat) : Option MoveWait :=
  minBy (fun w => 3 - ctxPrio s (flightCtx w.flight)) (s.bmv.waiting.filter (fun w => moverFor s w.desc == m))

/-- The PUTs of a remote MOVE leave on TC3 as one flow, each with its data (R381). -/
def sendPuts (s : State) (m c : Nat) (d : Desc) (host : List Byte) : State × List MovePut × Option Nat :=
  let x := dstSide d
  let ps := pieces x 4096 (sideCount x - mvSkip d) (mvSkip d) (sideCount x)
  ps.foldl (fun (t : State × List MovePut × Option Nat) p =>
    match t.2.2 with
    | some _ => t
    | none =>
      let bs := pieceBytes s d host p.1 p.2.2
      let ws := [at' 0 52 p.2.1, at' 0 32 bs.length, at' 0 32 (epoch s)] ++
        bytesWords (ceilDiv bs.length 8) (bs ++ List.replicate (roundUp bs.length 8 - bs.length) 0)
      match issueOp (emit t.1 (.message (mvNode d) 3 .put ws)) (mvNode d) 3 bs.length 0 (.move m c) .put ws with
      | (s1, some tag) => (s1, t.2.1 ++ [⟨tag, p.1⟩], none)
      | (_, none) => (t.1, t.2.1, some p.1)) (s, [], none)

/-- DETAIL of a MOVE (R383): for COPY, DONE is rounded down to a valid SKIP. -/
def moveDetail (d : Desc) (done m c : Nat) : Word :=
  let a := (srcSide d).width
  let b := (dstSide d).width
  let f (n : Nat) : Bool := mvConv d != 0 || n * b % a == 0
  let down := ((List.range (min a done + 1)).map (fun i => done - i)).find? f
  mkWord [(0, 36, down.getD done), (36, 3, m), (39, 5, c)]

/-- A MOVE on a channel ends with its record; later responses of its PUTs find nothing. -/
def endMoveChan (s : State) (key : Nat) (x : MoveChan) (st : Status) (done : Nat) : State :=
  let s1 := modBmv s (fun b => { b with chans := tdel b.chans key })
  let s2 := { s1 with glk := { s1.glk with ops := tkeep (fun _ o => o.what != .move (key / 32) (key % 32)) s1.glk.ops } }
  showBusy (completeWith s2 x.flight st (moveDetail x.desc done (key / 32) (key % 32)))

/-- MOVE_CHANNEL_GRANT (R374, R381): a waiting MOVE takes the lowest free channel and starts; `host` holds the bytes of its
source elements in the host window, in pattern order. A remote one sends its PUTs; without a route it ends. -/
def moveChannelGrant (s : State) (mover : Nat) (host : List Byte) : State :=
  whenUp s (fun s =>
    if 8 ≤ mover ∨ rdi s F.BMV_MOVER_STATE mover ≠ 0 then s
    else
      match nextMove s mover, firstFree 32 (fun c => !thas s.bmv.chans (32 * mover + c)) with
      | some w, some c =>
        if mvRemote s w.desc && (srcFault s w.desc (mvSkip w.desc) (sideCount (dstSide w.desc))).isSome then s
        else
          let key := 32 * mover + c
          let s1 := modBmv s (fun b => { b with waiting := b.waiting.erase w, chans := tset b.chans key ⟨w.flight, w.desc, host, []⟩ })
          if mvRemote s w.desc then
            match sendPuts s1 mover c w.desc host with
            | (s2, ps, bad) =>
              let ch : MoveChan := ⟨w.flight, w.desc, host, ps⟩
              match bad with
              | some e => endMoveChan s2 key ch St.GLK_NO_ROUTE (min e ((ps.head?.map (fun p => p.first)).getD e))
              | none => showBusy (modBmv s2 (fun b => { b with chans := tset b.chans key ch }))
          else showBusy s1
      | _, _ => s)

/-- Destination elements known written of a running MOVE: for a remote one, those below its first PUT without a response; a local
one writes at its end (R383). -/
def doneSoFar (x : MoveChan) : Nat :=
  match minBy id (x.puts.map (fun p => p.first)) with
  | some e => e
  | none => mvSkip x.desc

/-- An exact DONE that a fault reports, kept within the MOVE's elements. -/
def clampDone (x : MoveChan) (n : Nat) : Nat := max (mvSkip x.desc) (min (sideCount (dstSide x.desc)) n)

/-- A mover stops (R384 steps 1 and 2): each of its MOVEs has written the elements below its DONE and no other. -/
def stopMover (s : State) (m : Nat) (st : Status) (done : List Nat) : State :=
  let go (x : State × Tbl Nat) (p : (Nat × MoveChan) × Nat) : State × Tbl Nat :=
    let ch := p.1.2
    if mvRemote s ch.desc then (x.1, tset x.2 p.1.1 (doneSoFar ch))
    else
      let n := clampDone ch (done.getD p.2 (mvSkip ch.desc))
      (writeElems x.1 ch.desc ch.host (mvSkip ch.desc) n, tset x.2 p.1.1 n)
  match (busyChans s m).zipIdx.foldl go (s, []) with
  | (s1, t) =>
    wri (modBmv s1 (fun b => { b with stops := tset b.stops m ⟨st, t, false⟩ })) F.BMV_MOVER_STATE m 1

/-- MOVER_READ_FAULT (R384 steps 1 and 2); `done` lists the DONE of the mover's running MOVEs by channel. -/
def moverReadFault (s : State) (mover : Nat) (st : BitVec 16) (done : List Nat) : State :=
  whenUp s (fun s =>
    if 8 ≤ mover ∨ rdi s F.BMV_MOVER_STATE mover ≠ 0 ∨ (busyChans s mover).isEmpty = true then s else stopMover s mover st done)

/-- The records of a mover's stopped MOVEs (R384 step 3, R387). -/
def endStopped (s : State) (m : Nat) (st : Status) (t : Tbl Nat) : State :=
  (busyChans s m).foldl (fun s e => endMoveChan s e.1 e.2 st (tgetD t e.1 (mvSkip e.2.desc))) s

/-- MOVER_STOP_DRAINED (R384 steps 3 and 4): the records, the event, and RUN again; a RESET that waited finds nothing to stop. -/
def moverStopDrained (s : State) (mover : Nat) : State :=
  whenUp s (fun s =>
    match tget s.bmv.stops mover with
    | none => s
    | some x =>
      let s1 := endStopped s mover x.status x.done
      let s2 := errorEvent s1 St.BMV_MOVER_STOP noUnit 0 0 (mkWord [(0, 3, mover), (16, 16, x.status.toNat)])
        (Config.eventDetail (2 * s1.out.length))
      let s3 := addSat (bump s2 F.BMV_STOP_CNT_COUNT) F.BMV_MOVER_STOPS mover 1
      wri (modBmv s3 (fun b => { b with stops := tdel b.stops mover })) F.BMV_MOVER_STATE mover 0)

/-- MOVE_COMPLETE (R382, R383): a local MOVE's elements are written and its record follows; a remote one's once every PUT has its
response. A source that cannot be read is a read fault of the mover (R384); a partial line that cannot be merged ends the one MOVE
(R385). -/
def moveComplete (s : State) (mover chan : Nat) : State :=
  whenUp s (fun s =>
    let key := 32 * mover + chan
    match (if chan < 32 then tget s.bmv.chans key else none) with
    | none => s
    | some x =>
      let total := sideCount (dstSide x.desc)
      let skip := mvSkip x.desc
      let st (s : State) : Status := if mvNumeric s x.desc x.host skip total then 0x0EE0 else St.OK
      if rdi s F.BMV_MOVER_STATE mover ≠ 0 then s
      else if mvRemote s x.desc then
        if x.puts.isEmpty then
          endMoveChan (bumpBy s F.BMV_BYTES_CNT_COUNT ((total - skip) * (dstSide x.desc).width)) key x (st s) total
        else s
      else
        match srcFault s x.desc skip total with
        | some f => stopMover s mover f []
        | none =>
          let ps := pieces (dstSide x.desc) ((dstSide x.desc).len * (dstSide x.desc).width) (total - skip) skip total
          match ps.find? (fun p => (writeRefusal s p.2.1 (p.2.2 * (dstSide x.desc).width)).isSome) with
          | some p =>
            endMoveChan (writeElems s x.desc x.host skip p.1) key x
              ((writeRefusal s p.2.1 (p.2.2 * (dstSide x.desc).width)).getD St.MEM_UNCORR) p.1
          | none => endMoveChan (writeElems s x.desc x.host skip total) key x (st s) total)

/-- One channel's write fault (R385): elements below DONE are written; a host-memory fault tears the context down. -/
def writeFault (s : State) (key : Nat) (x : MoveChan) (st : Status) (done : Nat) : State :=
  let s1 := if mvRemote s x.desc then s else writeElems s x.desc x.host (mvSkip x.desc) done
  if st = St.HPT_HOST_TIMEOUT ∨ st = St.HPT_HOST_DATA_ERR then faultCtx s1 (flightCtx x.flight) st
  else endMoveChan s1 key x st done

/-- MOVER_WRITE_FAULT (R385). -/
def moverWriteFault (s : State) (mover chan : Nat) (st : BitVec 16) (done : Nat) : State :=
  whenUp s (fun s =>
    match (if chan < 32 then tget s.bmv.chans (32 * mover + chan) else none) with
    | none => s
    | some x =>
      if rdi s F.BMV_MOVER_STATE mover ≠ 0 then s
      else writeFault s (32 * mover + chan) x st (if mvRemote s x.desc then doneSoFar x else clampDone x done))

/-- The response of a PUT of a MOVE (R381, R385): a failing status stops the one channel. -/
def putAnswered (s : State) (mover chan tag : Nat) (st : Status) : State :=
  let key := 32 * mover + chan
  match tget s.bmv.chans key with
  | none => s
  | some x =>
    if st = St.OK then
      modBmv s (fun b => { b with chans := tset b.chans key { x with puts := x.puts.filter (fun p => p.tag != tag) } })
    else endMoveChan s key x st (doneSoFar x)

/-- MOVER_RESET (R387): BMV_MOVER_CMD RESET stops a mover's MOVEs with BMV_RESET; one that is STOPPING is reset at step 4. -/
def moverReset (s : State) (mover : Nat) (done : List Nat) : State :=
  bar0 s (fun s =>
    if 8 ≤ mover then s
    else if rdi s F.BMV_MOVER_STATE mover ≠ 0 then
      modBmv s (fun b => { b with stops := tmod b.stops mover (fun x => { x with reset := true }) })
    else
      let s1 := stopMover s mover St.BMV_RESET done
      match tget s1.bmv.stops mover with
      | none => s1
      | some x =>
        wri (modBmv (endStopped s1 mover x.status x.done) (fun b => { b with stops := tdel b.stops mover })) F.BMV_MOVER_STATE mover 0)

/-- The MOVEs of a context that goes down (R387): running ones stop where they are, waiting ones end; one that a read fault has
stopped keeps the fault's status. -/
def dropMoves (s : State) (ctx : Nat) : State :=
  let mine := s.bmv.chans.filter (fun e => flightCtx e.2.flight == ctx && !(tget s.bmv.stops (e.1 / 32)).isSome)
  let s1 := mine.foldl (fun s e => endMoveChan s e.1 e.2 St.HPT_CTX_DOWN (doneSoFar e.2)) s
  let ws := s1.bmv.waiting.filter (fun w => flightCtx w.flight == ctx)
  ws.foldl (fun s w => completeSt s w.flight St.HPT_CTX_DOWN)
    (modBmv s1 (fun b => { b with waiting := b.waiting.filter (fun w => flightCtx w.flight != ctx) }))

end Sys2Proof.Machine
end

