-- ==== Sys2Proof/Machine/Nvs.lean ====
section
/-! DEFINITION. Error records in the nonvolatile store (R504, R507, R508). -/

namespace Sys2Proof.Machine

open Sys2Proof

/-- The eight words of a record (R504), with its SEQ and BOOT. -/
def recordWords (r : RasRec) (seq boot : Nat) : List Word :=
  let ws := [mkWord [(0, 32, seq), (32, 16, r.status.toNat), (48, 4, r.cls), (52, 4, r.kind), (63, 1, r.folded.toNat)],
    mkWord [(0, 16, r.unit), (16, 16, r.rep), (32, 32, boot)],
    at' 0 64 r.time,
    mkWord [(0, 48, r.req), (48, 12, r.ctx)],
    r.detail0,
    r.detail1]
  ws ++ [at' 0 32 (crc32c (wordsBytes ws)), 0]

/-- A record written to slot SEQ mod 512, counted (R507, R523). -/
def storeRecord (s : State) (r : RasRec) : State :=
  let s1 := { s with ras := { s.ras with
    recs := tset s.ras.recs (s.ras.seq % 512) (recordWords r s.ras.seq s.ras.boots)
    seq := (s.ras.seq + 1) % 2 ^ 32
    newest := some r } }
  bump s1 F.RAS_REC_CNT_COUNT

/-- Block code of a record's status (R88). -/
def recBlock (r : RasRec) : Nat := r.status.toNat / 256

/-- The record written next: of those raised in the front record's MGMT cycle, the lowest block code (R507). -/
def nextRecord (q : List RasRec) : Option RasRec :=
  match q with
  | [] => none
  | r :: rs => minBy recBlock ((r :: rs).filter (fun x => x.time == r.time))

/-- The next queued record is written; a waiting one takes the place that it leaves (R507). -/
def writeNext (s : State) : State :=
  match nextRecord s.ras.queue with
  | none => s
  | some r =>
    let q := s.ras.queue.erase r
    storeRecord { s with ras := { s.ras with queue := q ++ s.ras.overflow.take 1, overflow := s.ras.overflow.drop 1 } } r

/-- Records written until `n` are. -/
def writeMany : Nat → State → State
  | 0, s => s
  | n + 1, s => writeMany n (writeNext s)

/-- Every queued and waiting record is written: none is lost to a reset (R507). -/
def flushRecords (s : State) : State := writeMany (s.ras.queue.length + s.ras.overflow.length) s

/-- ERROR_RECORD_WRITE (R507). -/
def errorRecordWrite (s : State) : State := writeNext s

/-- Whether a stored record's CRC is good (R504, R508). -/
def recordGood (ws : List Word) : Bool := wordAt ws 6 == at' 0 32 (crc32c (wordsBytes (ws.take 6)))

/-- A record whose CRC fails is rewritten with its SEQ and RAS_REC_CORRUPT (R508). -/
def checkRecord (ws : List Word) : List Word :=
  if recordGood ws then ws
  else
    recordWords ⟨St.RAS_REC_CORRUPT, 2, 0, 0, false, 0, 0, 0, 0, 0, 0⟩ (bits (wordAt ws 0) 31 0) 0

/-- Stage 1 checks every record (R508). -/
def checkRecords (s : State) : State := { s with ras := { s.ras with recs := tmap (fun _ ws => checkRecord ws) s.ras.recs } }

end Sys2Proof.Machine
end

