-- ==== Sys2Proof/Machine/Tak.lean ====
section
/-! DEFINITION. Takes: submission, forwarding, the messages of two-phase commit, doubt and retry (R129–R148, R551). -/

namespace Sys2Proof.Machine

open Sys2Proof

/-! ### Submission (R130) -/

/-- SLATE_ADDR -/
def tAddr (d : Desc) : Nat := (Desc.word d 2).toNat
/-- SLATE_LEN -/
def tLen (d : Desc) : Nat := dfld d 0x18 16 0
/-- RETRY -/
def tRetry (d : Desc) : Nat := dfld d 0x18 23 20

/-- Failing payload bytes of a TAKE_SUBMIT (R130). -/
def submitBytes (d : Desc) : List Nat := resv d 0x18 19 17 ++ resv d 0x18 63 24 ++ resvWords d [0x20, 0x28, 0x30, 0x38]

/-- Checks of a TAKE_SUBMIT after its fields (R73, R130). -/
def submitChecks (d : Desc) (s : State) (k : DescKey) : List Check :=
  [chk (tAddr d % 64 != 0) St.HPT_BAD_ADDR 0x10, chk (!hostOk s k false (tAddr d) (tLen d)) St.HPT_PROT 0x10]

/-- TAKE_SUBMIT (R130): the slate's read starts. -/
def takeSubmit (s : State) (k : RingKey) (d : Desc) : State :=
  ofForm (dOpcode d == 0x40) s
    (runDesc s k d (submitBytes d) (submitChecks d)
      (fun s k id =>
        emit { s with tak := { s.tak with submits := tset s.tak.submits id d } } (.hostRead (.context k.ctx) (tAddr d) (tLen d))))

/-- Whether an OWNER action names another coordinator than the request's home (R145): the index of the first. -/
def badOwner (m : DMap) (sl : Slate) : Option Nat :=
  sl.actions.findIdx? (fun a =>
    match a.act with
    | .owner _ _ _ _ => !(a.part == sl.coord && sl.nodes.getD sl.coord 0 == homeOf m a.obj.lo)
    | _ => false)

/-- The check of R145, which the coordinator makes. -/
def ownerCheck (m : DMap) (ws : List Word) : Check :=
  match badOwner m (slateOf ws) with
  | some a => chkSlate true St.TAK_BAD_COORD (0x80 + 32 * a + 1)
  | none => chkSlate false St.TAK_BAD_COORD 0x80

/-- The checks of a slate that TAKE_SUBMIT brings (R124–R130). -/
def hostSlateChecks (s : State) (d : Desc) (ws : List Word) : List Check :=
  [chkSlateBytes (slateHeaderBytes ws) St.TAK_BAD_SLATE,
   chk (tLen d != 128 + 32 * slNact ws + slDataLen ws) St.TAK_BAD_SLATE 0x18] ++
  slateChecks s ws true ++
  [chkSlate (!(slNodes ws).contains (self s)) St.TAK_BAD_COORD 0x40] ++
  (if (slNodes ws).getD (slCoord ws) 0 = self s then [ownerCheck s.dtm.map ws] else []) ++ [mapChangeCheck s ws]

/-- A slate handed to its coordinator, another participant (R130). -/
def forwardSlate (s : State) (who : TakeFor) (retries : Nat) (host : Bool) (ws : List Word) : State :=
  let k := s.tak.nextFwd
  send { s with tak := { s.tak with nextFwd := (k + 1) % 2 ^ 32, forwarded := tset s.tak.forwarded k who } }
    ((slNodes ws).getD (slCoord ws) 0) 0 .slate (mkWord [(0, 32, k), (32, 4, retries), (36, 1, host.toNat)] :: ws)

/-- A block's slate is given to its coordinator, here or elsewhere. -/
def giveSlate (s : State) (sl : Slate) (who : TakeFor) : State :=
  if sl.nodes.getD sl.coord 0 = self s then startTake s sl who .block 0
  else forwardSlate s who 0 false (slateWords sl (fun _ => true))

/-- TAKE_SLATE_READ (R130): the slate is checked, and the take begins here or goes to its coordinator. -/
def takeSlateRead (s : State) (k : DescKey) (slate : List Word) : State :=
  whenUp s (fun s =>
    let id := flightId k
    match tget s.tak.submits id with
    | none => s
    | some d =>
      let s1 := { s with tak := { s.tak with submits := tdel s.tak.submits id } }
      match firstFail (hostSlateChecks s1 d slate) with
      | some c => reject s1 id c
      | none =>
        let sl := slateOf slate
        if sl.nodes.getD sl.coord 0 = self s1 then
          if sl.nodes = [self s1] then localFor s1 (.hostHere k.ctx (ctxTenant s1 k.ctx)) (.host id k.ctx) sl.actions
          else startTake s1 sl (.host id k.ctx) (.hostHere k.ctx (ctxTenant s1 k.ctx)) (tRetry d)
        else forwardSlate s1 (.host id k.ctx) (tRetry d) true slate)

/-! ### At the coordinator and the participants -/

/-- A block's PUT into a root or an entry, as this model holds them: the root of OBJ_LO, or the entry's second word. -/
def blockAction (a : Action) : Action :=
  match a.act with
  | .put _ bs =>
    if a.obj.kind = kRegion ∧ a.obj.hi = 1 then { a with act := .putLease a.obj.lo (bytesNat bs) }
    else if a.obj.kind = kRegion ∧ a.obj.hi = 3 then
      let w := bytesWords 8 bs
      { a with act := .putHome (bits (wordAt w 0) 47 0) ⟨bits (wordAt w 1) 31 0, bits (wordAt w 1) 47 32, bits (wordAt w 2) 19 0,
        bits (wordAt w 2) 43 20⟩ }
    else if a.obj.kind = kPage then { a with act := .putEntry (BitVec.ofNat 64 (bytesNat bs)) }
    else a
  | _ => a

/-- A slate that a block built, read out of its words. -/
def blockSlate (ws : List Word) : Slate := { slateOf ws with actions := (slateOf ws).actions.map blockAction }

/-- A coordinator's report to the controller that forwarded a slate. -/
def reportEnd (s : State) (node key takeId : Nat) (st : Status) (action part : Nat) (ps : Status) (tries : Nat) : State :=
  send s node 0 .slateDone [mkWord [(0, 32, key), (32, 24, takeId)],
    mkWord [(0, 16, st.toNat), (16, 6, action), (22, 4, part), (26, 5, tries), (32, 16, ps.toNat)]]

/-- The take by which a home removes its record (R127, R225). -/
def releaseSlate (s : State) (req group ep : Nat) : Slate :=
  ⟨[homeOf s.dtm.map req], 0, epoch s, [⟨0, ⟨kHome, 0, req⟩, .owner ep group (ep + 1) 0xFFFF⟩]⟩

/-- The request and the group of a slate that releases a request; group 0xFFFF leaves the record's fields to the home. -/
def releases (sl : Slate) : Option (Nat × Nat) :=
  match sl.actions with
  | [⟨_, o, .owner _ g _ ng⟩] => if o.kind = kHome ∧ ng = 0xFFFF then some (o.lo, g) else none
  | _ => none

/-- A home builds the release that a teardown asks for out of its own record (R119 step 6). -/
def releaseHere (s : State) (req node key : Nat) : State :=
  match tget s.dtm.homes req with
  | some h => startTake s (releaseSlate s req h.owner h.epoch) (.releaseFor req h.owner node key true) .block 15
  | none => reportEnd s node key 0 St.TAK_CHECK_FAIL 0 0 St.OK 1

/-- TAKE_SLATE_FORWARD (R130, R138 step 1, R145). -/
def takeSlateForward (s : State) (src srcKey retries : Nat) (host : Bool) (slate : List Word) : State :=
  whenUp s (fun s =>
    match badOwner s.dtm.map (slateOf slate), if host then none else releases (slateOf slate) with
    | some a, _ => reportEnd s src srcKey 0 St.TAK_BAD_COORD a 0 St.OK 1
    | none, some (req, g) =>
      if g = 0xFFFF then releaseHere s req src srcKey
      else startTake s (blockSlate slate) (.releaseFor req g src srcKey false) .block retries
    | none, none =>
      startTake s (if host then slateOf slate else blockSlate slate) (.forwarded src srcKey)
        (if host then .hostAt src else .block) retries)

/-- Where a PREPARE's slate came from, for R551: this controller's own TAKE_SUBMIT, forwarded, keeps its context. -/
def prepareSource (s : State) (h : Option HostSlate) : Source :=
  match h with
  | none => .block
  | some x =>
    if x.node = self s then
      match tget s.tak.forwarded x.key with
      | some (.host _ c) => .hostHere c (ctxTenant s c)
      | _ => .hostAt x.node
    else .hostAt x.node

/-- TAKE_PREPARE (R138 steps 3 to 6). -/
def takePrepare (s : State) (m : PrepareMsg) : State :=
  whenUp s (fun s =>
    let s1 := seeStamp s m.stamp
    if (partOf s1 m.ref).isSome then s1
    else handlePrepare s1 (prepareSource s1 m.host) m.ref m.stamp m.part
      (if m.host.isSome then slateOf m.slate else blockSlate m.slate))

/-- A local take whose intents are mirrored applies (R137). -/
def applyMirrored (s : State) (id : Nat) (c : CoordTake) : State :=
  let s1 := finishPart s ⟨self s, id⟩ true
  endTake (bump s1 F.TAK_COMMIT_CNT_COUNT) id { c with status := St.OK }

/-- A participant's intents are safe: its vote is yes (R140), or its local take applies. -/
def intentsSafe (s : State) (r : TakeRef) : State :=
  match partOf s r with
  | none => s
  | some p =>
    match (if r.node = self s then tget s.tak.coord r.id else none) with
    | some c =>
      if c.state = .mirroring then applyMirrored s r.id c
      else if p.state = .mirroring then sendVote (setPart s r { p with state := .prepared }) r p.stamp p.part St.OK 0 none
      else s
    | none => if p.state = .mirroring then sendVote (setPart s r { p with state := .prepared }) r p.stamp p.part St.OK 0 none else s

/-- INTENT_MIRROR_ACK (R137 step 3, R138 step 5). -/
def intentMirrorAck (s : State) (id : TakeRef) : State := whenUp s (fun s => intentsSafe s id)

/-- TAKE_VOTE (R138 step 6, R141): a vote after the decision is ignored. -/
def takeVote (s : State) (m : VoteMsg) : State :=
  whenUp s (fun s =>
    let s1 := seeStamp s m.stamp
    match tget s1.tak.coord m.takeId with
    | none => s1
    | some c =>
      if c.state ≠ .voting ∨ c.slate.nodes.length ≤ m.part then s1
      else if m.status = St.OK then voteYes s1 m.takeId c m.part
      else voteNo s1 m.takeId c m.part m.action m.status m.against)

/-- TAKE_VOTE_TIMEOUT (R139). -/
def takeVoteTimeout (s : State) (takeId part : Nat) : State :=
  whenUp s (fun s =>
    match tget s.tak.coord takeId with
    | none => s
    | some c =>
      if c.state ≠ .voting ∨ c.votes.contains part ∨ c.slate.nodes.length ≤ part then s
      else decide' s takeId { c with status := St.TAK_VOTE_TIMEOUT, badAction := 0, badPart := part, partStatus := St.OK })

/-- DECISION_MIRROR_ACK (R138 steps 7 and 8). -/
def decisionMirrorAck (s : State) (takeId : Nat) : State :=
  whenUp s (fun s =>
    match tget s.tak.coord takeId with
    | some c => if c.state = .decided then carryOut s takeId c else s
    | none => s)

/-- An acknowledgement sent to a coordinator (R138 step 9). -/
def sendAck (s : State) (r : TakeRef) : State :=
  send s r.node 0 .ack [mkWord [(0, 24, r.id), (24, 20, self s)], BitVec.ofNat 64 (rd s F.TAK_CLOCK_STAMP)]

/-- A decision reaches a participant (R138 step 9); one that it has applied already is only acknowledged (R146). -/
def takeDecision (s : State) (r : TakeRef) (stamp : Nat) (commit : Bool) : State :=
  let s1 := seeStamp s stamp
  match partOf s1 r with
  | none => sendAck s1 r
  | some p =>
    if commit && !isPrepared p then s1 else sendAck (finishPart s1 r commit) r

/-- TAKE_COMMIT (R128, R138 step 9). -/
def takeCommit (s : State) (id : TakeRef) (stamp : Nat) : State := whenUp s (fun s => takeDecision s id stamp true)

/-- TAKE_ABORT (R138 step 9). -/
def takeAbort (s : State) (id : TakeRef) (stamp : Nat) : State := whenUp s (fun s => takeDecision s id stamp false)

/-- Whether the context that submitted a slate is going down (R147). -/
def askerDown (s : State) (who : TakeFor) : Bool :=
  match who with
  | .host _ c => (tget s.hpt.ctxs c).elim true (fun x => x.down.isSome)
  | _ => false

/-- A take that this controller forwarded has ended: its asker hears of it (R130, R131). -/
def forwardedEnd (s : State) (key takeId : Nat) (st : Status) (action part : Nat) (ps : Status) (tries : Nat) : State :=
  match tget s.tak.forwarded key with
  | none => s
  | some who =>
    { s with tak := { s.tak with
      forwarded := tdel s.tak.forwarded key
      ended := s.tak.ended ++ [⟨who, takeId, st, action, part, ps, tries, askerDown s who⟩] } }

/-- TAKE_ACK (R138 step 10): with every acknowledgement in hand the decision record goes and the take ends. -/
def takeAck (s : State) (m : AckMsg) : State :=
  whenUp s (fun s =>
    match m with
    | .ended key takeId st action part ps tries => forwardedEnd s key takeId st action part ps tries
    | .ack takeId node stamp =>
      let s1 := seeStamp s stamp
      match tget s1.tak.coord takeId with
      | none => s1
      | some c =>
        if c.state ≠ .announced then s1
        else
          let acks := if c.acks.contains node then c.acks else c.acks ++ [node]
          let awaited := c.slate.nodes.filter (· != self s1)
          if awaited.all (fun p => acks.contains p) then endTake s1 takeId { c with acks := acks }
          else setCoord s1 takeId { c with acks := acks })

/-! ### Doubt (R143, R144) and retry (R134) -/

/-- TAKE_INDOUBT_TIMEOUT (R143): the coordinator is asked, then its twin, in turn. -/
def takeIndoubtTimeout (s : State) (id : TakeRef) : State :=
  whenUp s (fun s =>
    match partOf s id with
    | none => s
    | some p =>
      let words := [mkWord [(0, 20, id.node), (20, 24, id.id)], BitVec.ofNat 64 p.stamp]
      let ask (s : State) (twin_ : Bool) : State :=
        send (setPart s id { p with state := .doubt twin_ }) (if twin_ then eTwin (mapGet s.dtm.map id.node) else id.node) 0 .inquiry words
      match p.state with
      | .prepared => if id.node = self s then s else ask (bump s F.TAK_INDOUBT_CNT_COUNT) false
      | .doubt t => ask s (!t)
      | _ => s)

/-- The answer to an in-doubt question. -/
def answerDoubt (s : State) (src : Nat) (id : TakeRef) (stamp : Nat) (commit : Bool) : State :=
  send s src 0 (if commit then .commit else .abort) [mkWord [(0, 24, id.id), (24, 20, id.node)], BitVec.ofNat 64 stamp]

/-- TAKE_INQUIRY (R143, R146): answered from the decision record; with ABORT where there is none, by the coordinator and by the
twin that took it over. A take that is not decided, or whose coordinator still serves, waits. -/
def takeInquiry (s : State) (src : Nat) (id : TakeRef) (stamp : Nat) : State :=
  whenUp s (fun s =>
    let s1 := seeStamp s stamp
    if id.node = self s1 then
      match tget s1.tak.coord id.id with
      | none => answerDoubt s1 src id stamp false
      | some c =>
        match c.state with
        | .announced => answerDoubt s1 src id stamp (c.status == St.OK)
        | .retrying _ => answerDoubt s1 src id stamp false
        | _ => s1
    else if twin s1 = some id.node then
      match s1.con.mir.decisions.find? (fun d => d.takeId == id.id) with
      | some d => answerDoubt s1 src id stamp (d.status == St.OK)
      | none => if s1.con.both then answerDoubt s1 src id stamp false else s1
    else s1)

/-- A take begins again with its stamp under a new take ID (R134). -/
def beginRetry (s : State) (id : Nat) (c : CoordTake) : State :=
  beginTake { (bump s F.TAK_RETRY_CNT_COUNT) with tak := { s.tak with coord := tdel s.tak.coord id } }
    c.stamp c.slate c.who c.src (c.tries + 1) (c.retries - 1)

/-- Whether a take waits to begin again. -/
def isRetrying (c : CoordTake) : Bool :=
  match c.state with
  | .retrying _ => true
  | _ => false

/-- TAKE_ENDED_NOTICE (R134): the conflicting take released its locks, and the takes that wait for that begin again. -/
def takeEndedNotice (s : State) (ended : TakeRef) : State :=
  whenUp s (fun s =>
    (s.tak.coord.filter (fun e => e.2.state == .retrying ended)).foldl (fun s e => beginRetry s e.1 e.2) s)

/-- TAKE_RETRY (R134). -/
def takeRetry (s : State) (takeId : Nat) : State :=
  whenUp s (fun s =>
    match tget s.tak.coord takeId with
    | some c => if isRetrying c then beginRetry s takeId c else s
    | none => s)

/-- Takes whose coordinator's pair has left the map: in-doubt participants abort them (R144). -/
def coordLost (old : DMap) (s : State) : State :=
  (s.tak.part.filter (fun p =>
    (p.2.state == .doubt false || p.2.state == .doubt true) &&
      eState (mapGet old p.1.node) != 0 && eState (mapGet s.dtm.map p.1.node) == 0 &&
      eState (mapGet s.dtm.map (eTwin (mapGet old p.1.node))) == 0)).foldl (fun s p =>
    finishPart (openEvent s .error St.TAK_COORD_LOST noUnit 0 0) p.1 false) s

/-- The pair has become exposed: votes and decisions that waited for the twin go on without it (R140). -/
def releaseMirrors (s : State) : State :=
  let s1 := (s.tak.part.filter (fun p => p.2.state == .mirroring)).foldl (fun s p =>
    intentsSafe (bump s F.TAK_EXPOSED_CNT_COUNT) p.1) s
  let s2 := (s1.tak.coord.filter (fun e => e.2.state == .mirroring)).foldl (fun s e => applyMirrored s e.1 e.2) s1
  (s2.tak.coord.filter (fun e => e.2.state == .decided)).foldl (fun s e => carryOut s e.1 e.2) s2

/-- Takes that waited for a lock whose holder is gone prepare again (R133); `n` bounds them. -/
def settleWaits : Nat → State → State
  | 0, s => s
  | n + 1, s =>
    match s.tak.part.find? (fun p =>
      match p.2.state with
      | .waiting h => (partOf s h).isNone
      | _ => false) with
    | some (_, p) =>
      match p.state with
      | .waiting h => settleWaits n (wakeWaiters s h)
      | _ => s
    | none => s

end Sys2Proof.Machine
end

