-- ==== Sys2Proof/Machine/Trv.lean ====
section
/-! DEFINITION. Traverses between pools: opening, legs, counts, the closing take, abandonment and parking (R415–R433). -/

namespace Sys2Proof.Machine

open Sys2Proof

/-! ### Traverses at this controller -/

/-- A Traverse by its request. -/
def travOf (s : State) (req : Nat) : Option Trav := tget s.trv.trav req
/-- A Traverse replaced. -/
def setTrav (s : State) (req : Nat) (t : Trav) : State := { s with trv := { s.trv with trav := tset s.trv.trav req t } }
/-- A Traverse changed. -/
def modTrav (s : State) (req : Nat) (f : Trav → Trav) : State := { s with trv := { s.trv with trav := tmod s.trv.trav req f } }
/-- Nothing known of a Traverse but its record. -/
def freshTrav (ws : List Word) : Trav :=
  { words := ws, src := .none, trigger := none, tried := 0, last := St.OK, dst := false, member := false, made := false,
    repair := none, done := [], sentDone := false, closing := false, abandoned := false, reserved := [], legs := [], counts := [] }
/-- Traverses led (TRV_OPEN.COUNT, R419). -/
def travLed (s : State) : Nat := (s.trv.trav.filter (fun e => e.2.src != .none || e.2.dst)).length

/-- A request pinned here (R421). -/
def pin (s : State) (req : Nat) : State :=
  modReq { s with trv := { s.trv with pins := if s.trv.pins.contains req then s.trv.pins else s.trv.pins ++ [req] } } req
    (fun r => { r with pinned := true })

/-- A request unpinned. -/
def unpin (s : State) (req : Nat) : State :=
  modReq { s with trv := { s.trv with pins := s.trv.pins.filter (· != req) } } req (fun r => { r with pinned := false })

/-- The local take by which a transit record is written to HBM or removed, and its mirror record (R419, R441). -/
def recordTransit (s : State) (req : Nat) (ws : List Word) : State :=
  mirrorRec (localTake s [⟨0, ⟨kRegion, 2, req⟩, .check none⟩]) (.transit req ws)

/-- A TRV message's header (R424). -/
def trvHdr (s : State) (kind np : Nat) (st : Status) (seq req lh ep : Nat) : List Word :=
  [mkWord [(0, 4, kind), (4, 7, np), (16, 16, st.toNat), (32, 32, seq)], mkWord [(0, 48, req), (48, 16, lh)],
    mkWord [(0, 32, ep), (32, 20, self s)], 0]

/-- A TRV message with no entries. -/
def sendTrv (s : State) (dest kind : Nat) (st : Status) (seq req ep : Nat) : State :=
  send s dest 0 .trv (trvHdr s kind 0 st seq req 0 ep)

/-- Whether a TRV message must be dropped (R424). -/
def hdrBad (h : List Word) : Bool :=
  bits (wordAt h 0) 3 0 == 0 || decide (8 < bits (wordAt h 0) 3 0) || bits (wordAt h 0) 15 11 != 0 ||
    bits (wordAt h 2) 63 52 != 0 || bits (wordAt h 3) 63 52 != 0

/-- A TRV message of one kind (R424): one that breaks its layout is dropped with an ERROR event. -/
def trvMsg (s : State) (hdr : List Word) (kind : Nat) (bad : Bool) (f : State → State) : State :=
  whenUp s (fun s =>
    if hdrBad hdr || bad then openEvent s .error St.TRV_BAD_MSG noUnit 0 0
    else if bits (wordAt hdr 0) 3 0 = kind then f s else s)

/-- STATUS, SEQ, REQUEST_ID, LAYER_HEAD, LEASE_EPOCH and NODE of a header. -/
def hSt (h : List Word) : Status := BitVec.ofNat 16 (bits (wordAt h 0) 31 16)
def hNp (h : List Word) : Nat := bits (wordAt h 0) 10 4
def hSeq (h : List Word) : Nat := bits (wordAt h 0) 63 32
def hReq (h : List Word) : Nat := bits (wordAt h 1) 47 0
def hLh (h : List Word) : Nat := bits (wordAt h 1) 63 48
def hEp (h : List Word) : Nat := bits (wordAt h 2) 31 0
def hNode (h : List Word) : Nat := bits (wordAt h 2) 51 32

/-- The next SEQ of this controller's TRV messages. -/
def nextSeq (s : State) : State × Nat := ({ s with trv := { s.trv with seq := (s.trv.seq + 1) % 2 ^ 32 } }, s.trv.seq)

/-! ### Groups -/

/-- An entry of a group, for its role, size and mapping. -/
def groupEntry (s : State) (g : Nat) : List Word := ((members s.dtm.map g).head?).elim [0, 0, 0, 0] (fun p => p.2)
/-- The role of a group; 0 for one with no member. -/
def groupRole (s : State) (g : Nat) : Nat := eRole (groupEntry s g)
/-- The slot that holds a page of a group (R422). -/
def groupSlot (s : State) (g lh i : Nat) : Nat :=
  let e := groupEntry s g
  let n := eGsizeM1 e + 1
  let h := eKvhM1 e + 1
  if eRole e = 3 then cacheSlot n (lh % 256) h (lh / 256) i else pageSlot n h (lh % 256) i

/-- The automatic destinations of a request: base and count of its range (R416). -/
def destRange (s : State) (model : Nat) (cache : Bool) : Option (Nat × Nat) :=
  match bindOf s model with
  | none => none
  | some j =>
    let n := if cache then rdi s F.TRV_DEST_CACHE_COUNT j else rdi s F.TRV_DEST_GEN_COUNT j
    if rdi s F.TRV_DEST_EN j = 0 ∨ n = 0 then none
    else some (if cache then rdi s F.TRV_DEST_CACHE_BASE j else rdi s F.TRV_DEST_GEN_BASE j, n)

/-- The group of a range that the try with this number goes to (R416). -/
def destAt (req : Nat) (rng : Nat × Nat) (k : Nat) : Nat := rng.1 + (crc32c (natBytes 6 req) / 4096 + k) % rng.2

/-! ### Opening (R415, R416, R419) -/

/-- The request of a trigger. -/
def triggerReq : TraverseTrigger → Nat
  | .prefillDone r => r
  | .park r _ _ _ => r
  | .handover r _ => r
  | .auto r => r

/-- A fixed destination, if the trigger has one: a handover's, a REQ_PARK's, or the outside holder that a park returns to
(R416). -/
def fixedDest (r : Req) : TraverseTrigger → Option Nat
  | .handover _ g => some g
  | .park _ g _ _ => if g = 0xFFFF then r.outside else some g
  | .auto _ => r.outside
  | .prefillDone _ => none

/-- Whether a trigger parks. -/
def parks : TraverseTrigger → Bool
  | .park _ _ _ _ => true
  | .auto _ => true
  | _ => false

/-- PLAN and OUT_GROUP of a trigger (R415). -/
def planFor (r : Req) (t : TraverseTrigger) : Nat × Nat :=
  match t, r.outside with
  | .handover _ _, _ => (3, 0xFFFF)
  | .prefillDone _, some g => (if r.resume = 0 then 2 else if r.resume = 1 then 1 else 0, g)
  | _, some g => (1, g)
  | _, none => (0, 0xFFFF)

/-- Pages of a request's committed context, over its layers and heads, its stand-in's with them. -/
def pageTotal (s : State) (r : Req) (committed : Nat) : Nat :=
  ceilDiv committed 256 * kvHeads s * (modelLayers s r.model + r.standin.elim 0 (modelLayers s))

/-- A REQ_PARK is answered, at its own controller or elsewhere (R417). -/
def answerPark (s : State) (origin flight : Nat) (st : Status) (pages : Nat) : State :=
  if origin = self s then
    if st = St.OK then completeWith s flight St.OK (at' 0 32 pages) else completeSt s flight st
  else respond s origin 0 flight (mkWord [(0, 16, st.toNat), (32, 32, pages)]) []

/-- OPEN goes to the leader of a group (R419). -/
def openTo (s : State) (req : Nat) (t : Trav) (g : Nat) : State :=
  let ws := t.words.set 1 (setFld (wordAt t.words 1) 32 16 g)
  let (s1, seq) := nextSeq (setTrav (recordTransit (pin s req) req ws) req { t with words := ws, src := .opening, abandoned := false })
  match leaderOf s1.dtm.map g with
  | some n => send s1 n 0 .trv (trvHdr s1 1 0 St.OK seq req 0 (tEpoch ws) ++ ws)
  | none => s1

/-- The request stays with its source group, held, to be tried again (R416). -/
def stayHere (s : State) (req : Nat) (t : Trav) (st : Status) : State :=
  openEvent (setTrav (unpin s req) req { t with src := .waiting, tried := 0, last := st }) .error st noUnit req 0

/-- The Traverse goes to its next destination (R416): a fixed one, the next of its range, or none. On BLENDED role a choice of
the source group itself leaves the request there, in decode phase. -/
def tryDest (s : State) (req : Nat) (r : Req) (t : Trav) : State :=
  match t.trigger with
  | none => s
  | some tr =>
    match fixedDest r tr with
    | some g => if t.tried = 0 then openTo s req t g else stayHere s req t t.last
    | none =>
      match destRange s r.model (parks tr) with
      | none =>
        match tr with
        | .park _ _ origin flight =>
          answerPark { s with trv := { s.trv with trav := tdel s.trv.trav req } } origin flight St.TRV_NO_DEST 0
        | _ => stayHere s req t St.TRV_NO_DEST
      | some rng =>
        if rng.2 ≤ t.tried then stayHere s req t t.last
        else
          let g := destAt req rng t.tried
          if g = groupOf s req ∧ role s = 4 then
            modReq { (unpin s req) with trv := { (unpin s req).trv with trav := tdel s.trv.trav req } } req
              (fun q => { q with phase := .decode })
          else openTo s req t g

/-- A Traverse begins at its source leader. -/
def beginTraverse (s : State) (req : Nat) (r : Req) (tr : TraverseTrigger) : State :=
  match tget s.kva.roots req with
  | none => s
  | some root =>
    let p := planFor r tr
    let ws := transitWords req r root (groupOf s req) 0 p.1 p.2 (treeTokens s req)
    let s1 := modReq s req (fun q => { q with phase := .traversing })
    tryDest s1 req r { freshTrav ws with trigger := some tr }

/-- The checks of R417 by the owning group's leader. -/
def parkCheck (s : State) (req : Nat) (r : Req) (dst : Nat) : Status :=
  if !servesDecode (groupRole s (groupOf s req)) then St.TRV_BAD_STATE
  else if r.phase ≠ .ended ∧ r.phase ≠ .traversing then St.TRV_NOT_IDLE
  else if (travOf s req).isSome then St.TRV_BUSY
  else if r.phase = .traversing then St.TRV_NOT_IDLE
  else if dst ≠ 0xFFFF ∧ (groupRole s dst ≠ 3 ∨ r.outside.elim false (fun g => g != dst)) then St.TRV_BAD_DEST
  else St.OK

/-- Whether a trigger fits the request's phase. -/
def triggerFits (r : Req) : TraverseTrigger → Bool
  | .prefillDone _ => r.phase == .traversing
  | .handover _ _ => r.phase == .parked
  | .park _ _ _ _ => true
  | .auto _ => r.phase == .ended

/-- A Traverse is triggered (R415): it begins, is refused, or waits for its place (R227, R419). -/
def openTraverse (s : State) (tr : TraverseTrigger) : State :=
  let req := triggerReq tr
  match reqOf s req with
  | none =>
    match tr with
    | .park _ _ origin flight => answerPark s origin flight St.HPT_REQ_UNKNOWN 0
    | _ => s
  | some r =>
    if !leadsFor s req || !triggerFits r tr then s
    else
      match tr with
      | .park _ dst origin flight =>
        let st := parkCheck s req r dst
        if st ≠ St.OK then answerPark s origin flight st 0
        else if thas s.kva.reshoots req || decide (256 ≤ travLed s) then
          { s with trv := { s.trv with waiting := s.trv.waiting ++ [tr] } }
        else beginTraverse s req r tr
      | _ =>
        if (travOf s req).isSome then s
        else if thas s.kva.reshoots req || decide (256 ≤ travLed s) then
          { s with trv := { s.trv with waiting := if s.trv.waiting.contains tr then s.trv.waiting else s.trv.waiting ++ [tr] } }
        else beginTraverse s req r tr

/-- TRAVERSE_OPEN (R415). -/
def traverseOpen (s : State) (t : TraverseTrigger) : State := whenUp s (fun s => openTraverse s t)

/-- Triggers that waited begin while there are places (R419); `n` bounds them. -/
def pumpWaiting : Nat → State → State
  | 0, s => s
  | n + 1, s =>
    match s.trv.waiting.find? (fun t => !thas s.kva.reshoots (triggerReq t)) with
    | some t =>
      if 256 ≤ travLed s then s
      else pumpWaiting n (openTraverse { s with trv := { s.trv with waiting := s.trv.waiting.erase t } } t)
    | none => s

/-- TRAVERSE_DEST_RETRY (R416): a request that waits with its source group tries again. -/
def traverseDestRetry (s : State) (req : Nat) : State :=
  whenUp s (fun s =>
    match travOf s req, reqOf s req with
    | some t, some r => if t.src = .waiting then tryDest s req r { t with tried := 0 } else s
    | _, _ => s)

/-- OPEN_TIMEOUT (R419): OPEN is sent again. -/
def openTimeout (s : State) (req : Nat) : State :=
  whenUp s (fun s =>
    match travOf s req with
    | some t => if t.src = .opening then openTo s req t (tDst t.words) else s
    | none => s)

/-! ### Reservations and legs at a destination member (R422, R426–R428) -/

/-- Length of the outside holder's prefix: at the holder itself, what its root commits. -/
def prefixOf (s : State) (req : Nat) (t : Trav) : Nat :=
  if tOut t.words = ownGroup s then (tget s.kva.roots req).elim 0 (fun r => r.committed)
  else Config.outsideLen req (tEpoch t.words)

/-- The group a page comes from under the plan, if it is moved at all (R415). -/
def pageFrom (s : State) (req : Nat) (t : Trav) (i : Nat) : Option Nat :=
  if tOut t.words = 0xFFFF then some (tSrc t.words)
  else if prefixOf s req t / 256 ≤ i then some (tSrc t.words)
  else if planOf t.words = 2 then some (tOut t.words) else none

/-- The slot that holds a page here (R422). -/
def heldHere (s : State) (lh i : Nat) : Bool := groupSlot s (ownGroup s) lh i == ownSlot s

/-- Whether a page of this member's share is still to be requested: its entry is INVALID, or for a repair DROPPED or LOST, and
no leg is out for it (R226, R427). -/
def wanted (s : State) (t : Trav) (k : Nat) : Bool :=
  let st := (pteOf s k).state
  (if t.repair.isSome then st == 3 || st == 4 else st == 0) &&
    !t.legs.any (fun l => l.lh == pageLh k && l.pages.contains (pageIdx k))

/-- What is still to be requested: source group, LAYER_HEAD and page, page by page in rising order. -/
def wants (s : State) (req : Nat) (t : Trav) : List (Nat × Nat × Nat) :=
  match t.repair with
  | some g =>
    ((reqPtes s req).filter (fun e => wanted s t e.1 &&
      decide (pageStart e.1 < (tget s.kva.reshoots req).elim (2 ^ 24) (fun r => r.upto)))).map (fun e => (g, pageLh e.1, pageIdx e.1))
  | none =>
    if planOf t.words = 3 then []
    else
      let pages := List.range (ceilDiv (tCommitted t.words) 256)
      let one (model : Nat) (standin : Bool) : List (Nat × Nat × Nat) :=
        (List.range (modelLayers s model)).flatMap (fun l => (List.range (kvHeads s)).flatMap (fun h => pages.filterMap (fun i =>
          let lh := l * 256 + h
          let k := modelPage req l h i standin
          match pageFrom s req t i with
          | some g => if heldHere s lh i && wanted s t k then some (g, lh, pageIdx k) else none
          | none => none)))
      one (tModel t.words) false ++ (tStandin t.words).elim [] (fun m => one m true)

/-- The page class of a Traverse's pages (R203). -/
def travClass (s : State) (ws : List Word) : Nat := (pageClass (modelDim s (tModel ws)) (tKv4 ws)).getD 0

/-- Up to `n` frames of a class reserved by one local take of POOL ALLOC actions; what the class has not is left (R426). -/
def reserve (s : State) (cls n : Nat) : State × List Nat :=
  let k := min 64 (min n (freeFrames s cls))
  if k = 0 then (s, [])
  else
    match runLocal s .block .plain (List.replicate k ⟨0, ⟨kFrame, 0, 0⟩, .alloc cls⟩) with
    | (s1, r) =>
      if r.committed then (s1, (tkeys s1.kva.frames).filter (fun f => !thas s.kva.frames f)) else (s1, [])

/-- Raw element bytes of the legs that a coded answer may come for (R429). -/
def legRoom (s : State) : Nat :=
  sumNat ((tvals s.trv.trav).map (fun t => sumNat (t.legs.map (fun l => l.pages.length * frameSize (travClass s t.words)))))

/-- LEG_REQ for a leg, to its source member or that member's twin (R425, R426, R428). -/
def sendLegReq (s : State) (req : Nat) (t : Trav) (l : Leg) : State :=
  let es := (l.pages.zip l.frames).flatMap (fun p =>
    [mkWord [(0, 32, frameAddr s p.2 / 2048), (32, 32, scaleAddr s p.2 / 2048)], at' 0 24 p.1])
  send s (if l.late then eTwin (mapGet s.dtm.map l.node) else l.node) 0 .trv
    (trvHdr s 3 l.pages.length St.OK l.seq req l.lh (tEpoch t.words) ++ es)

/-- Legs are issued while pages are wanted, frames can be had and LEGS_OUT allows (R426); `n` bounds them. A class without
enough frames is evicted, and the leg waits. -/
def issueLegs : Nat → State → Nat → State
  | 0, s, _ => s
  | n + 1, s, req =>
    match travOf s req with
    | none => s
    | some t =>
      let out (node : Nat) : Nat := (t.legs.filter (fun l => l.node == node)).length
      let src (w : Nat × Nat × Nat) : Option Nat := slotNode s.dtm.map w.1 (groupSlot s w.1 w.2.1 (w.2.2 % 2 ^ 23))
      let ws := (wants s req t).filterMap (fun w => (src w).map (fun nd => (nd, w.2.1, w.2.2)))
      match ws.find? (fun w => decide (out w.1 < rd s F.TRV_CFG_LEGS_OUT)) with
      | none => s
      | some w =>
        let pages := ((ws.filter (fun x => x.1 == w.1 && x.2.1 == w.2.1)).map (fun x => x.2.2)).take 64
        let cls := travClass s t.words
        if rd s F.TRV_CFG_CODE = 1 ∧ tKv4 t.words = false ∧ 2 ^ 24 < legRoom s + pages.length * frameSize cls then s
        else
          let (s1, fs) := if pages.length ≤ t.reserved.length then (s, []) else reserve s cls (pages.length - t.reserved.length)
          let res := t.reserved ++ fs
          if res.length < pages.length then evictClass (setTrav s1 req { t with reserved := res }) cls
          else
            let (s2, seq) := nextSeq s1
            let l : Leg := ⟨seq, w.1, false, w.2.1, pages, res.take pages.length⟩
            let t1 := { t with reserved := res.drop pages.length, legs := t.legs ++ [l] }
            issueLegs n (sendLegReq (setTrav s2 req t1) req t1 l) req

/-- Source slots whose slice of the vocabulary overlaps this member's (R423). -/
def countSlots (s : State) (ws : List Word) : List Nat :=
  let v := modelVocab s (tModel ws)
  let ns := eGsizeM1 (groupEntry s (tSrc ws)) + 1
  let nd := groupSize s
  (List.range ns).filter (fun i =>
    overlap (sliceFirst v ns i) (sliceLen v ns i) (sliceFirst v nd (ownSlot s)) (sliceLen v nd (ownSlot s)))

/-- The closing take is built by the destination leader and given to the home (R430). -/
def buildClosing (s : State) (req : Nat) (t : Trav) : State :=
  match leaderOf s.dtm.map (tSrc t.words) with
  | none => s
  | some src =>
    let e := tEpoch t.words
    giveSlate (setTrav s req { t with closing := true })
      ⟨[homeOf s.dtm.map req, self s, src], 0, epoch s,
        [⟨0, ⟨kHome, 0, req⟩, .owner e (tSrc t.words) (e + 1) (tDst t.words)⟩, ⟨1, rootObj req, .putLease req (e + 1)⟩,
         ⟨2, rootObj req, .putLease req 0⟩]⟩ (.closing req)

/-- DONE of a member reaches the destination leader (R430). -/
def noteDone (s : State) (req node : Nat) : State :=
  match travOf s req with
  | none => s
  | some t =>
    if !t.dst then s
    else
      let d := if t.done.contains node then t.done else t.done ++ [node]
      let t1 := { t with done := d }
      if !t.closing && (servers s (tDst t.words)).all (fun n => d.contains n) then buildClosing s req t1
      else setTrav s req t1

/-- A member that has all of its share and its counts sends DONE (R430). -/
def checkDone (s : State) (req : Nat) : State :=
  match travOf s req with
  | none => s
  | some t =>
    if !t.member || t.sentDone || !t.legs.isEmpty || !(wants s req t).isEmpty ||
        !(countSlots s t.words).all (fun i => t.counts.contains i) then s
    else
      let s1 := setTrav s req { t with sentDone := true }
      if t.dst then noteDone s1 req (self s)
      else
        match leaderOf s.dtm.map (tDst t.words) with
        | some n => sendTrv s1 n 5 St.OK 0 req (tEpoch t.words)
        | none => s1

/-- A member's legs go on, and its DONE follows the last. -/
def runLegs (s : State) (req : Nat) : State :=
  match travOf s req with
  | none => s
  | some t => checkDone (issueLegs ((wants s req t).length + 1) s req) req

/-- LEG_RESERVE_RETRY (R426): the rest of a leg's frames is asked for again. -/
def legReserveRetry (s : State) (req : Nat) : State :=
  whenUp s (fun s => if (travOf s req).elim false (fun t => t.member || t.repair.isSome) then runLegs s req else s)

/-- LEG_RESERVE_STALL (R426): the member reports that it cannot reserve a leg's frames. -/
def legReserveStall (s : State) (req : Nat) : State :=
  whenUp s (fun s =>
    match travOf s req with
    | some t =>
      if !t.member || (wants s req t).isEmpty then s
      else
        match leaderOf s.dtm.map (tSrc t.words) with
        | some n => sendTrv s n 8 St.TRV_NO_FRAMES 0 req (tEpoch t.words)
        | none => s
    | none => s)

/-- LEG_TIMEOUT (R428): the same LEG_REQ goes to the source member's twin and back in turn. -/
def legTimeout (s : State) (req seq : Nat) : State :=
  whenUp s (fun s =>
    match travOf s req with
    | some t =>
      match t.legs.find? (fun l => l.seq == seq) with
      | some l =>
        let l1 := { l with late := !l.late }
        sendLegReq (setTrav s req { t with legs := t.legs.map (fun x => if x.seq = seq then l1 else x) }) req t l1
      | none => s
    | none => s)

/-! ### OPEN and ACCEPT (R419) -/

/-- A root created with LEASE 0 by a local take, where the member has none (R419). -/
def makeRoot (s : State) (req : Nat) (ws : List Word) : State :=
  if thas s.kva.roots req then s
  else
    let r : Root := ⟨(tKv4 ws).toNat, travClass s ws, tModel ws, modelLayers s (tModel ws), kvHeads s, 0, tCommitted ws⟩
    let s1 := localTake s [⟨0, rootObj req, .check none⟩]
    mirrorRec { s1 with kva := { s1.kva with roots := tset s1.kva.roots req r } } (.root req (rootWords s1 req r))

/-- A member of the destination group takes part in a Traverse (R419): root, request and pin; then its legs. -/
def joinTransit (s : State) (req : Nat) (ws : List Word) (dst : Bool) : State :=
  match travOf s req with
  | some t => if t.member && tEpoch t.words == tEpoch ws then s else s
  | none =>
    let made := !thas s.kva.roots req
    let s1 := makeRoot s req ws
    let s2 :=
      match reqOf s1 req with
      | some _ => modReq s1 req (fun r => { r with committed := tCommitted ws })
      | none => { s1 with sch := { s1.sch with reqs := tset s1.sch.reqs req (transitReq ws) } }
    let s3 := if bit (wordAt ws 3) 58 ∧ planOf ws ≠ 3 then
        { s2 with smp := { s2.smp with trees := tset s2.smp.trees req [bits (wordAt ws 4) 19 0] } } else s2
    runLegs (pin (setTrav s3 req { freshTrav ws with member := decide (planOf ws ≠ 3), made := made, dst := dst }) req) req

/-- Whether the role of this group can hold the request in its next phase (R419 check 2). -/
def roleFits (s : State) (ws : List Word) : Bool :=
  let sr := groupRole s (tSrc ws)
  if planOf ws = 3 then servesPrefill (role s)
  else if sr = 1 then servesDecode (role s)
  else if sr = 2 then role s == 3
  else sr == 4 && (servesDecode (role s) || role s == 3)

/-- R419's checks of an OPEN. -/
def openCheck (s : State) (req : Nat) (ws : List Word) : Status :=
  if !groupComplete s.dtm.map (tDst ws) then St.DTM_GROUP_INCOMPLETE
  else if !roleFits s ws then St.SCH_ROLE_MISMATCH
  else if (bindOf s (tModel ws)).isNone || (tStandin ws).any (fun m => (bindOf s m).isNone) then St.ATT_NO_PROFILE
  else if (travOf s req).any (fun t => tEpoch t.words == tEpoch ws && t.words != ws) then St.TRV_BUSY
  else St.OK

/-- OPEN (R419): at the destination leader it is checked, answered and passed to the members; at a member it brings the record. -/
def openMsg (s : State) (hdr rec : List Word) : State :=
  trvMsg s hdr 1 (transitBad rec) (fun s =>
    let req := hReq hdr
    let src := hNode hdr
    let answer (s : State) (st : Status) : State := sendTrv s src 2 st (hSeq hdr) req (tEpoch rec)
    if leads s (tDst rec) && eGroup (mapGet s.dtm.map src) != tDst rec then
      let st := openCheck s req rec
      if st ≠ St.OK then answer s st
      else if (travOf s req).isSome then answer s St.OK
      else if 256 ≤ travLed s then s
      else
        let s1 := answer (recordTransit s req rec) St.OK
        let s2 := ((servers s (tDst rec)).filter (· != self s)).foldl (fun s n =>
          send s n 0 .trv (trvHdr s 1 0 St.OK 0 req 0 (tEpoch rec) ++ rec)) s1
        let s3 := joinTransit s2 req rec true
        if planOf rec = 3 then (match travOf s3 req with | some t => buildClosing s3 req t | none => s3) else s3
    else if tDst rec = ownGroup s ∧ leaderOf s.dtm.map (tDst rec) = some src then joinTransit s req rec false
    else s)

/-! ### The source side: counts, refusals, abandonment (R416, R423, R432) -/

/-- The count table of this slot goes to the destination slots whose slices hold its tokens; each slot's last message is a
PUT_SIGNAL (R423). -/
def sendCounts (s : State) (req model dst : Nat) : State :=
  let v := modelVocab s model
  let first := sliceFirst v (groupSize s) (ownSlot s)
  let nd := eGsizeM1 (groupEntry s dst) + 1
  let toks := (tgetD s.smp.counts req []).map (fun e => (first + e.2.1 * 1024 + e.1 / 8, e.2.2))
  (List.range nd).foldl (fun s d =>
    if overlap (sliceFirst v nd d) (sliceLen v nd d) first (sliceLen v (groupSize s) (ownSlot s)) then
      match slotNode s.dtm.map dst d with
      | some n =>
        let mine := toks.filter (fun x => decide (sliceFirst v nd d ≤ x.1) && decide (x.1 < sliceFirst v nd d + sliceLen v nd d))
        send s n 3 .trv (mkWord [(0, 48, req), (48, 16, ownSlot s)] :: mine.map (fun x => mkWord [(0, 20, x.1), (32, 16, x.2)]))
      | none => s
    else s) s

/-- ABANDON goes to the destination leader and every destination member (R432). -/
def sendAbandon (s : State) (req : Nat) (t : Trav) (st : Status) : State :=
  (servers s (tDst t.words)).foldl (fun s n => sendTrv s n 8 st 0 req (tEpoch t.words)) s

/-- Whether the source leader has voted yes on the closing take (R432). -/
def votedClosing (s : State) (req : Nat) : Bool :=
  s.tak.part.any (fun p => isPrepared p.2 && p.2.actions.any (fun a => a.2.act == .putLease req 0))

/-- A REQ_PARK with a destination of its own ends with the cause; any other Traverse tries its next destination (R416, R432). -/
def afterAbandon (s : State) (req : Nat) (t : Trav) (st : Status) : State :=
  match t.trigger, reqOf s req with
  | some (.park _ g origin flight), _ =>
    if g ≠ 0xFFFF then
      answerPark (modReq { s with trv := { s.trv with trav := tdel s.trv.trav req } } req (fun r => { r with phase := .ended }))
        origin flight st 0
    else
      match reqOf s req with
      | some r => tryDest s req r { t with tried := t.tried + 1, last := st, src := .waiting }
      | none => s
  | some _, some r => tryDest s req r { t with tried := t.tried + 1, last := st, src := .waiting }
  | _, _ => s

/-- The source leader abandons a Traverse (R432). -/
def abandonTrav (s : State) (req : Nat) (st : Status) : State :=
  match travOf s req with
  | none => s
  | some t =>
    if (t.src ≠ .opening ∧ t.src ≠ .running) ∨ votedClosing s req then s
    else
      let s1 := bump (sendAbandon s req t st) F.TRV_ABANDON_CNT_COUNT
      afterAbandon (unpin (setTrav s1 req { t with abandoned := true }) req) req t st

/-- ACCEPT (R419): the Traverse runs and the counts go, or the refusal sends it on (R432). -/
def accept (s : State) (hdr : List Word) : State :=
  trvMsg s hdr 2 false (fun s =>
    match travOf s (hReq hdr) with
    | none => s
    | some t =>
      if t.src ≠ .opening ∨ tEpoch t.words ≠ hEp hdr then s
      else if hSt hdr ≠ St.OK then abandonTrav s (hReq hdr) (hSt hdr)
      else
        let s1 := setTrav s (hReq hdr) { t with src := .running }
        if planOf t.words = 3 then s1 else sendCounts s1 (hReq hdr) (tModel t.words) (tDst t.words))

/-! ### Legs at the source member (R426, R428, R429) -/

/-- The entry of a page that this member sends: its own, or its twin's in the mirror (R428). -/
def sourcePte (s : State) (req k : Nat) : Pte :=
  if thas s.kva.roots req then pteOf s k else tgetD s.con.mir.ptes k pteNone

/-- A page's element area and scale frame as they are sent; a FLASH page's come from flash (R425). -/
def pageBytes (s : State) (e : Pte) (flash : Option (List Byte)) : Option (List Byte × List Byte) :=
  if e.state = 1 then some (readMem s (frameAddr s e.frame) (frameSize e.cls), readMem s (scaleAddr s e.frame) 2048)
  else if e.state = 2 then flash.map (fun b => (b.take (frameSize e.cls), (b.drop (frameSize e.cls)).take 2048))
  else none

/-- The pages of a LEG_REQ with what a FLASH page's read gave. -/
def legPages (s : State) (req lh : Nat) (entries : List Word) (flash : List (Option (List Byte))) :
    List (Word × Nat × Pte × Option (List Byte)) :=
  let base := (List.range (entries.length / 2)).map (fun i =>
    let k := pageKey req lh (bits (wordAt entries (2 * i + 1)) 23 0)
    (wordAt entries (2 * i), k, sourcePte s req k))
  let cold := base.filter (fun x => x.2.2.state == 2)
  base.map (fun x => (x.1, x.2.1, x.2.2, (((cold.zip flash).find? (fun p => p.1.2.1 == x.2.1)).map (fun p => p.2)).join))

/-- LEG_REPLY's entry for a page (R425). -/
def replyEntry (e : Pte) (sent : Bool) : Word :=
  mkWord [(0, 16, e.version), (16, 3, if sent then 1 else if e.state = 3 then 3 else 4), (19, 8, e.kb), (27, 8, e.vb)]

/-- The data of a leg on TC3: coded blocks behind one table for KV8 under CODE = 1, else each page's bytes at its frame
(R426, R429). -/
def sendLegData (s : State) (dest : Nat) (coded : Bool) (ps : List (Word × List Byte × List Byte)) : State :=
  let word8 (bs : List Byte) : List Word := bytesWords (bs.length / 8) bs
  let scales := fun (s : State) => ps.foldl (fun s p =>
    send s dest 3 .put (at' 0 52 (bits p.1 63 32 * 2048) :: word8 p.2.2)) s
  if coded ∧ ps ≠ [] then
    let tiles := ps.flatMap (fun p => chunks 4096 (p.2.1.length / 4096 + 1) (p.2.1.map (fun b => b.toNat)))
    let c := codeTiles 1 (rd s F.EXP_FALLBACK_NUM) 0 tiles
    scales (send s dest 3 .put (at' 0 52 0x100000000000 :: word8 (c.1 ++ c.2.flatMap (fun b => b.1))))
  else scales (ps.foldl (fun s p => send s dest 3 .put (at' 0 52 (bits p.1 31 0 * 2048) :: word8 p.2.1)) s)

/-- LEG_REQ (R425, R426 step 3). A page whose entry is INVALID is not there yet: the request goes unanswered and comes again
(R428). -/
def legReq (s : State) (hdr entries : List Word) (flash : List (Option (List Byte))) : State :=
  trvMsg s hdr 3 (decide (64 < hNp hdr) || (List.range (entries.length / 2)).any (fun i => bits (wordAt entries (2 * i + 1)) 63 24 != 0))
    (fun s =>
    let req := hReq hdr
    let dst := hNode hdr
    let ps := legPages s req (hLh hdr) (entries.take (2 * hNp hdr)) flash
    let mine := thas s.kva.roots req || thas s.con.mir.roots req
    let reply (s : State) (st : Status) (es : List Word) : State :=
      send s dst 3 .trv (trvHdr s 4 es.length st (hSeq hdr) req (hLh hdr) (hEp hdr) ++ es)
    if !mine || !ps.all (fun p => heldHere s (hLh hdr) (pageIdx p.2.1 % 2 ^ 23)) then reply s St.TRV_NOT_SOURCE []
    else if ps.any (fun p => p.2.2.1.state == 0) then s
    else
      let first := !s.trv.pins.contains req && thas s.kva.roots req && !reshootHere s req
      let s1 := if first then
          let model := (tget s.kva.roots req).elim 0 (fun r => r.model)
          let t := pin s req
          if role s = 3 then t else sendCounts t req model (eGroup (mapGet s.dtm.map dst))
        else s
      let sent := ps.map (fun p => (p.1, p.2.2.1, pageBytes s1 p.2.2.1 p.2.2.2))
      let data := sent.filterMap (fun p => p.2.2.map (fun b => (p.1, b.1, b.2)))
      let kv4 := sent.any (fun p => p.2.1.kv4)
      reply (sendLegData s1 dst (rd s1 F.TRV_CFG_CODE == 1 && !kv4) data) St.OK
        (sent.map (fun p => replyEntry p.2.1 p.2.2.isSome)))

/-! ### Replies, counts and DONE at the destination (R423, R425, R426, R429, R430) -/

/-- Consecutive coded blocks decoded to codes (R182, R184); `n` blocks. -/
def decodeRun (cs : List (Nat × Nat × Nat)) : Nat → List Byte → Option (List Byte)
  | 0, _ => some []
  | n + 1, bs =>
    match decodeBlock 1 cs bs bs.length with
    | .ok codes => (decodeRun cs n (bs.drop (64 * bytesNat ((bs.drop 1).take 1)))).map (fun r => codes.map (BitVec.ofNat 8) ++ r)
    | .error _ => none

/-- The frames that a coded leg's blocks fill (R429): nothing where a block fails its checks. -/
def decodeLeg (s : State) (cls : Nat) (frames : List Nat) (coded : List Byte) : Option State :=
  let per := frameSize cls / 4096
  (decodeRun (canon (tableLens (coded.take 256))) (frames.length * per) (coded.drop 256)).map (fun bs =>
    frames.zipIdx.foldl (fun s p => writeMem s (frameAddr s p.1) ((bs.drop (p.2 * frameSize cls)).take (frameSize cls))) s)

/-- The actions of a leg take, or of a repair take with an ALLOC's frame reserved before (R226, R426 step 4). -/
def legActs (s : State) (req : Nat) (t : Trav) (l : Leg) (entries : List Word) : List (Nat × List Action) :=
  let cls := travClass s t.words
  l.pages.zipIdx.map (fun p =>
    let w := wordAt entries p.2
    let k := pageKey req l.lh p.1
    let st := bits w 18 16
    let f := if st = 1 then l.frames.getD p.2 0 else 0
    let old := (pteOf s k).version
    let rep := t.repair.isSome
    if rep && (st != 1 || !((pteOf s k).state == 3 || (pteOf s k).state == 4)) then (0, [])
    else
      (f, [⟨0, pageObj k, .ptMap (if rep then old else 0) f none (if rep then (old + 1) % 65536 else bits w 15 0)
          (pteFlags st cls (tKv4 t.words))⟩] ++
        (if tKv4 t.words then [⟨0, pageObj k, .putEntry (mkWord [(36, 8, bits w 26 19), (44, 8, bits w 34 27)])⟩] else [])))

/-- LEG_REPLY (R425, R426 step 4, R429): decoded, committed by one local take, and the legs go on. -/
def legReply (s : State) (hdr entries : List Word) (coded : List Byte) : State :=
  trvMsg s hdr 4 (entries.any (fun w => bits w 63 35 != 0 || !([1, 3, 4].contains (bits w 18 16)))) (fun s =>
    let req := hReq hdr
    match travOf s req with
    | none => s
    | some t =>
      match t.legs.find? (fun l => l.seq == hSeq hdr) with
      | none => s
      | some l =>
        let t1 := { t with legs := t.legs.filter (fun x => x.seq != l.seq) }
        if hSt hdr ≠ St.OK then runLegs (setTrav s req { t1 with reserved := t1.reserved ++ l.frames }) req
        else
          let live := (l.pages.zipIdx.filter (fun p => bits (wordAt entries p.2) 18 16 == 1)).map (fun p => l.frames.getD p.2 0)
          match (if coded.isEmpty then some s else decodeLeg s (travClass s t.words) live coded) with
          | none => sendLegReq s req t l
          | some s1 =>
            let acts := legActs s1 req t l entries
            match runLocal s1 .block .plain (acts.flatMap (fun a => a.2)) with
            | (s2, r) =>
              if r.committed then
                let used := (acts.filter (fun a => !a.2.isEmpty && a.1 != 0)).map (fun a => a.1)
                let rest := l.frames.filter (fun f => !used.contains f)
                runLegs (bump (setTrav s2 req { t1 with reserved := t1.reserved ++ rest }) F.TRV_LEG_CNT_COUNT) req
              else runLegs (setTrav s2 req { t1 with reserved := t1.reserved ++ l.frames }) req)

/-- COUNT_ENTRY (R423): entries are inserted by R261, and the last message of a source slot signals. -/
def countEntry (s : State) (req srcSlot : Nat) (entries : List Word) (last : Bool) : State :=
  whenUp s (fun s =>
    match travOf s req with
    | none => s
    | some t =>
      let v := modelVocab s (tModel t.words)
      let first := sliceFirst v (groupSize s) (ownSlot s)
      let len := sliceLen v (groupSize s) (ownSlot s)
      let s1 := entries.foldl (fun s w =>
        let x := bits w 19 0
        if first ≤ x ∧ x < first + len then
          let r := addCount (tgetD s.smp.counts req []) (x - first) (bits w 47 32)
          let s1 := { s with smp := { s.smp with counts := tset s.smp.counts req r.1 } }
          if r.2 then bump s1 F.SMP_EVICT_CNT_COUNT else s1
        else s) s
      if last then
        checkDone (setTrav s1 req { t with counts := if t.counts.contains srcSlot then t.counts else t.counts ++ [srcSlot] }) req
      else s1)

/-- DONE (R430). -/
def doneMsg (s : State) (hdr : List Word) : State :=
  trvMsg s hdr 5 false (fun s =>
    if (travOf s (hReq hdr)).any (fun t => tEpoch t.words == hEp hdr) then noteDone s (hReq hdr) (hNode hdr) else s)

/-! ### The end of a Traverse (R431, R432) -/

/-- Reserved frames return to the pool by local takes of up to 64 POOL FREE actions. -/
def freeReserved (s : State) (fs : List Nat) : State :=
  feedStarved ((chunks 64 fs.length fs).foldl (fun s c => localTake s (c.map (fun f => ⟨0, frameObj f, .free⟩))) s)

/-- A request's pages leave a member (R431): takes of up to 32 PT_MAP and POOL FREE pairs, then the root goes. -/
def releasePages (s : State) (req : Nat) : State :=
  let ps := (reqPtes s req).filter (fun e => e.2.state == 1)
  let s1 := (chunks 32 ps.length ps).foldl (fun s c =>
    localTake s (c.flatMap (fun e => [⟨0, pageObj e.1, .ptMap e.2.version 0 none 0 0⟩, ⟨0, frameObj e.2.frame, .free⟩]))) s
  freePages s1 req

/-- The phase of a request that a Traverse brought (R415). -/
def phaseAfter (s : State) (ws : List Word) : Phase :=
  if role s = 3 then .parked else if planOf ws = 3 then .prefill else .decode

/-- OWNED at a member (R431): the lease is written by a local take, leftover reservations go back, the request is unpinned and
enters its next phase with a root-only tree, and the drop notices are sent again. -/
def takeOwned (s : State) (req e : Nat) : State :=
  match travOf s req with
  | none => s
  | some t =>
    let s1 := localTake s [⟨0, rootObj req, .putLease req e⟩, ⟨0, rootObj req, .putCommitted req (tCommitted t.words)⟩]
    let s2 := freeReserved s1 (t.reserved ++ t.legs.flatMap (fun l => l.frames))
    let s3 := unpin { s2 with trv := { s2.trv with trav := tdel s2.trv.trav req } } req
    let plan := planOf t.words
    let s4 := modReq s3 req (fun r => { r with
      phase := phaseAfter s t.words
      group := tDst t.words
      committed := tCommitted t.words
      rootOnly := true
      outside := if role s = 3 then none else if plan = 3 then some (tSrc t.words) else if plan = 1 then some (tOut t.words) else none
      prefixLen := if role s = 3 then 0 else if plan = 3 then tCommitted t.words else if plan = 1 then prefixOf s req t else 0 })
    let lost := missing s4 req
    let s5 := if lost.isEmpty then s4
      else notifyLeader s4 req (lost.foldl (fun a x => max a (pageStart x.1 / 256)) 0) (lost.any (fun x => x.2.state == 4))
    mirrorRec s5 (.transit req [])

/-- The closing take has committed, at the destination leader (R430, R431). -/
def closeAtDest (s : State) (req : Nat) (t : Trav) : State :=
  let e := (tEpoch t.words + 1) % 2 ^ 32
  takeOwned (((servers s (tDst t.words)).filter (· != self s)).foldl (fun s n => sendTrv s n 6 St.OK 0 req e)
    (bump s F.TRV_CLOSE_CNT_COUNT)) req e

/-- The end of a closing take, for the destination leader that built it: after a conflict it is built again; a source that
abandoned, or a record that changed, ends the attempt. -/
def closingEnded (s : State) (req : Nat) (st ps : Status) : State :=
  match travOf s req with
  | none => s
  | some t =>
    if !t.dst then s
    else if st = St.OK then closeAtDest s req t
    else if st = St.TAK_CONFLICT ∨ st = St.TAK_WOUNDED ∨ st = St.TAK_VOTE_TIMEOUT then buildClosing s req t
    else
      let s1 := setTrav s req { t with closing := false }
      if ps = St.TRV_ABANDONED then s1 else askHome s1 req

/-- REQ_CANCELs that waited for a Traverse go to the new owner's leader (R117, R431). -/
def passCancels (s : State) (req dst : Nat) (cs : List (Nat × DescKey)) : State :=
  match leaderOf s.dtm.map dst with
  | some n => cs.foldl (fun s c =>
      send s n 0 .cancel [mkWord [(0, 48, req)], mkWord [(0, 20, c.1), (20, 12, c.2.ctx), (32, 3, c.2.ring)], at' 0 32 c.2.count]) s
  | none => s

/-- The closing take has committed, at the source leader (R431): RELEASE to the members and, under MOVE_OUTSIDE, to the outside
holder; the REQ_PARK's record; cancels that waited. -/
def closeAtSource (s : State) (req : Nat) (t : Trav) : State :=
  let e := tEpoch t.words
  let plan := planOf t.words
  let dests := (servers s (tSrc t.words)).filter (· != self s) ++ (if plan = 2 then (members s.dtm.map (tOut t.words)).map (fun p => p.1) else [])
  let s1 := dests.foldl (fun s n => sendTrv s n 7 St.OK 0 req e) s
  let r := reqOf s req
  let pages := r.elim 0 (fun q => pageTotal s q (tCommitted t.words))
  let s2 := if plan = 3 then unpin s1 req else releasePages (unpin s1 req) req
  let s3 := mirrorRec { s2 with
    trv := { s2.trv with trav := tdel s2.trv.trav req }
    sch := { s2.sch with reqs := tdel s2.sch.reqs req } } (.transit req [])
  let s4 := match t.trigger with
    | some (.park _ _ origin flight) => answerPark s3 origin flight St.OK pages
    | _ => s3
  passCancels s4 req (tDst t.words) (r.elim [] (fun q => q.cancel))

/-- Source leaders whose closing take has committed: the root's LEASE reads 0 (R431). -/
def trvSettle (s : State) : State :=
  (s.trv.trav.filter (fun e => (e.2.src == .running || e.2.src == .opening) && !s.con.claimed.contains e.1 &&
    (tget s.kva.roots e.1).any (fun r => r.lease == 0))).foldl (fun s e => closeAtSource s e.1 e.2) s

/-- OWNED (R431). -/
def owned (s : State) (hdr : List Word) : State :=
  trvMsg s hdr 6 false (fun s =>
    match travOf s (hReq hdr) with
    | some t => if hEp hdr = (tEpoch t.words + 1) % 2 ^ 32 then takeOwned s (hReq hdr) (hEp hdr) else s
    | none => s)

/-- A Traverse of a request that its home has released: the source leader abandons it and does not try again (R119, R432). -/
def endTrav (s : State) (req : Nat) : State :=
  match travOf s req with
  | none => s
  | some t =>
    if t.src = .none ∨ votedClosing s req then s
    else
      let s1 := if t.src = .waiting then s else bump (sendAbandon s req t St.HPT_CTX_DOWN) F.TRV_ABANDON_CNT_COUNT
      let s2 := { s1 with trv := { s1.trv with trav := tdel s1.trv.trav req } }
      match t.trigger with
      | some (.park _ _ origin flight) => answerPark s2 origin flight St.HPT_CTX_DOWN 0
      | _ => s2

/-- RELEASE (R431): a CACHE member that owned the request until a handover keeps its pages with LEASE 0; every other member frees
them. A home's release of the request (R119, R225) carries LEASE_EPOCH 0 and always frees them. -/
def release (s : State) (hdr : List Word) : State :=
  trvMsg s hdr 7 false (fun s =>
    let req := hReq hdr
    match tget s.kva.roots req with
    | none => s
    | some root =>
      if hEp hdr ≠ 0 ∧ role s = 3 ∧ root.lease ≠ 0 then
        let s1 := localTake (unpin s req) [⟨0, rootObj req, .putLease req 0⟩]
        { s1 with sch := { s1.sch with reqs := tdel s1.sch.reqs req } }
      else
        let s1 := releasePages (unpin (if hEp hdr = 0 then endTrav s req else s) req) req
        { s1 with sch := { s1.sch with reqs := tdel s1.sch.reqs req } })

/-- A destination member drops what an abandoned Traverse made there (R432). -/
def dropTransit (s : State) (req : Nat) (t : Trav) : State :=
  let s1 := freeReserved s (t.reserved ++ t.legs.flatMap (fun l => l.frames))
  let s2 := unpin { s1 with trv := { s1.trv with trav := tdel s1.trv.trav req } } req
  if t.made then
    let s3 := releasePages s2 req
    if (reqOf s3 req).any (fun r => r.phase == .traversing) then
      { s3 with sch := { s3.sch with reqs := tdel s3.sch.reqs req } }
    else s3
  else s2

/-- ABANDON (R426, R432): at the source leader a member's failure abandons the Traverse; at the destination what it made goes. -/
def abandon (s : State) (hdr : List Word) : State :=
  trvMsg s hdr 8 false (fun s =>
    match travOf s (hReq hdr) with
    | none => s
    | some t =>
      if tEpoch t.words ≠ hEp hdr then s
      else if t.src = .running ∨ t.src = .opening then abandonTrav s (hReq hdr) (hSt hdr)
      else if t.member ∨ t.dst then dropTransit s (hReq hdr) t
      else s)

/-! ### Automatic parks (R418, R450) -/

/-- The request's turn ends with a status and the tokens of the last committed step, and it parks with an automatic
destination. -/
def parkNow (s : State) (req : Nat) (r : Req) : State :=
  let s1 :=
    match tget s.smp.results req with
    | some x => deliverEnd { s with smp := { s.smp with results := tdel s.smp.results req } } r req x.pos x.tokens x.late St.TRV_PARKED
    | none => deliverEnd s r req r.pos [] false St.TRV_PARKED
  openTraverse (modReq s1 req (fun q => { q with phase := .ended, cancel := [] })) (.auto req)

/-- AUTO_PARK (R418). -/
def autoPark (s : State) (req : Nat) : State :=
  whenUp s (fun s =>
    match reqOf s req with
    | some r =>
      if rd s F.TRV_CFG_AUTO_PARK_MS = 0 || !leadsFor s req || !r.starved || r.phase != .decode || (travOf s req).isSome then s
      else parkNow s req r
    | none => s)

/-! ### Reshoots (R226) -/

/-- A member of the owning group asks the group that recomputes a request's pages for those it lacks (R226 step 7). -/
def beginRepair (s : State) (req origin : Nat) : State :=
  match tget s.kva.roots req with
  | none => s
  | some root =>
    if (travOf s req).isSome || (missing s req).isEmpty then s
    else
      let standin := (reqOf s req).bind (fun r => r.standin)
      let ws : List Word := [mkWord [(0, 48, req), (48, 16, root.model)], mkWord [(0, 16, standin.getD 0xFFFF), (16, 48, 2 ^ 48 - 1)],
        at' 0 32 root.lease, at' 0 23 root.committed, at' 40 2 root.fmt]
      runLegs (setTrav s req { freshTrav ws with repair := some (eGroup (mapGet s.dtm.map origin)) }) req

/-- RESHOOT_REQUEST (R226): the owner group's leader checks it and tells the members; each asks for the pages it lacks. -/
def reshootRequest (s : State) (req inCount origin flight : Nat) : State :=
  whenUp s (fun s =>
    if leadsFor s req then
      let s1 := checkReshoot s req inCount origin flight
      if thas s.kva.reshoots req || !thas s1.kva.reshoots req then s1
      else
        beginRepair (((servers s (groupOf s req)).filter (· != self s)).foldl (fun s n =>
          send s n 0 .reshootAsk [at' 0 48 req, mkWord [(0, 23, inCount), (32, 20, origin)], BitVec.ofNat 64 flight]) s1) req origin
    else beginRepair s req origin)

/-- Repairs that have nothing left to ask for end, and their unused frames go back. -/
def endRepairs (s : State) : State :=
  (s.trv.trav.filter (fun e => e.2.repair.isSome && e.2.legs.isEmpty && (missing s e.1).isEmpty)).foldl (fun s e =>
    freeReserved { s with trv := { s.trv with trav := tdel s.trv.trav e.1 } } e.2.reserved) s

end Sys2Proof.Machine
end

