-- ==== Sys2Proof/Machine/Req.lean ====
section
/-! DEFINITION. Request descriptors: REQ_POST, REQ_PARK, REQ_CANCEL and REQ_RELEASE (R74, R113, R117, R118, R224–R226, R258,
R403, R417). -/

namespace Sys2Proof.Machine

open Sys2Proof

/-! ### REQ_POST: its payload (R74) -/

/-- IN_ADDR -/
def qIn (d : Desc) : Nat := (Desc.word d 2).toNat
/-- IN_COUNT -/
def qCount (d : Desc) : Nat := dfld d 0x18 22 0
/-- BUDGET_US -/
def qBudget (d : Desc) : Nat := dfld d 0x18 47 32
/-- DEADLINE_POLICY -/
def qPolicy (d : Desc) : Nat := dfld d 0x18 49 48
/-- RESUME_MODE -/
def qResume (d : Desc) : Nat := dfld d 0x18 51 50
/-- SAMPLE_MODE -/
def qMode (d : Desc) : Nat := dfld d 0x18 53 52
/-- KV_FORMAT -/
def qFmt (d : Desc) : Nat := dfld d 0x18 55 54
/-- SPEC_HEADS -/
def qHeads (d : Desc) : Nat := dfld d 0x18 59 56
/-- OUT_ADDR -/
def qOut (d : Desc) : Nat := (Desc.word d 4).toNat
/-- MODEL -/
def qModel (d : Desc) : Nat := dfld d 0x28 15 0
/-- STANDIN, none for 0xFFFF -/
def qStandin (d : Desc) : Option Nat := if dfld d 0x28 31 16 = 0xFFFF then none else some (dfld d 0x28 31 16)
/-- OUT_LOG2 -/
def qLog2 (d : Desc) : Nat := dfld d 0x28 36 32
/-- PARAM_ADDR -/
def qParam (d : Desc) : Nat := (Desc.word d 6).toNat
/-- MAX_NEW -/
def qMaxNew (d : Desc) : Nat := dfld d 0x38 31 0

/-- Failing payload bytes of a REQ_POST (R74). -/
def postBytes (d : Desc) : List Nat :=
  badAt (qCount d == 0 || decide (4194304 < qCount d)) 0x18 0 ++ resv d 0x18 31 23 ++ badAt (decide (2 ≤ qPolicy d)) 0x18 48 ++
    badAt (qResume d == 3) 0x18 50 ++ badAt (qMode d == 3) 0x18 52 ++ badAt (decide (2 ≤ qFmt d)) 0x18 54 ++
    badAt (decide (8 < qHeads d)) 0x18 56 ++ resv d 0x18 63 60 ++ badAt (decide (qLog2 d < 4) || decide (24 < qLog2 d)) 0x28 32 ++
    resv d 0x28 63 37 ++ resv d 0x38 63 32

/-- The parameter block a REQ_POST names, or the defaults (R256, R257). -/
def paramOf (d : Desc) (param : List Word) : List Word :=
  if qParam d = 0 then defaultParam (dReq d) (qHeads d) else (List.range 32).map (wordAt param)

/-! ### Parameter block checks (R258) -/

/-- A failing byte offset at word `i`, bits [hi:lo], of a parameter block when they are not zero. -/
def pResv (p : List Word) (i hi lo : Nat) : List Nat := ((lowBadByte (wordAt p i) hi lo).map (fun b => [8 * i + b])).getD []

/-- Failing bytes of a parameter block (R256, R258). -/
def paramBytes (p : List Word) (v mode : Nat) : List Nat :=
  let stops := (List.range 8).flatMap (fun i =>
    let e := pStopEntry p i
    if pNstop p ≤ i then (if e = 0 then [] else [0x20 + 4 * i])
    else if 2 ^ 20 ≤ e then [0x20 + 4 * i + 2]
    else if v ≤ e then [0x20 + 4 * i] else [])
  let nodes := (List.range 64).flatMap (fun t =>
    let e := pNodeEntry p t
    if (t = 0 ∨ pNodes p ≤ t) ∧ e ≠ 0 then [0x80 + 2 * t] else if 4096 ≤ e then [0x80 + 2 * t + 1] else [])
  (if 4096 < pTopK p then [2] else []) ++ pResv p 0 31 29 ++ (if pRep p < 256 then [8] else []) ++ pResv p 1 59 50 ++
    (if 8 < pNstop p then [15] else []) ++
    (if (mode = 0 ∧ pLogitAddr p ≠ 0) ∨ (mode ≠ 0 ∧ pLogitAddr p = 0) then [0x18] else []) ++ stops ++
    pResv p 8 63 6 ++ (List.range 7).flatMap (fun i => pResv p (9 + i) 63 0) ++ nodes

/-- The first node of a tree template that breaks R258. -/
def badNode (p : List Word) (heads : Nat) : Option Nat :=
  ((List.range (pNodes p)).drop 1).find? (fun t =>
    decide (t ≤ pParent p t) || decide (heads < treeDepth p t) ||
      (List.range t).any (fun u => u != 0 && pParent p u == pParent p t && pRank p u == pRank p t))

/-! ### REQ_POST: its checks (R73, R74) -/

/-- Bytes of a logit buffer: 2 or 4 for each token. -/
def logitLen (s : State) (d : Desc) (p : List Word) : Nat := modelVocab s (qModel d) * (if pLogitF32 p then 4 else 2)

/-- The first input entry with a reserved bit set (R74). -/
def badInput (input : List (BitVec 32)) : Option Nat := input.findIdx? (fun x => decide (2 ^ 20 ≤ x.toNat))

/-- Alignment, protection, then role and object state (R73, R74). -/
def postChecks (d : Desc) (param : List Word) (input : List (BitVec 32)) (home : HomeView) (s : State) (k : DescKey) : List Check :=
  let p := paramOf d param
  let logit := pLogitAddr p
  let models := qModel d :: (qStandin d).toList
  let v := modelVocab s (qModel d)
  [chk (qIn d % 64 != 0) St.HPT_BAD_ADDR 0x10, chk (qOut d % 64 != 0) St.HPT_BAD_ADDR 0x20,
   chk (qParam d % 64 != 0) St.HPT_BAD_ADDR 0x30, chkIn (qMode d != 0 && logit % 64 != 0) St.HPT_BAD_ADDR 0x30 0x18,
   chk (!hostOk s k false (qIn d) (4 * qCount d)) St.HPT_PROT 0x10,
   chk (!hostOk s k true (qOut d) (4 * 2 ^ qLog2 d)) St.HPT_PROT 0x20,
   chk (qParam d != 0 && !hostOk s k false (qParam d) 256) St.HPT_PROT 0x30,
   chkIn (qMode d != 0 && logit != 0 && !hostOk s k true logit (logitLen s d p)) St.HPT_PROT 0x30 0x18,
   chkIn ((badInput input).isSome) St.HPT_BAD_FIELD 0x10 (4 * (badInput input).getD 0 + 2),
   chk (!servesPrefill (role s)) St.SCH_ROLE_MISMATCH 0,
   chk (!groupComplete s.dtm.map (ownGroup s)) St.DTM_GROUP_INCOMPLETE 0,
   chk (!modelLoaded s (qModel d)) St.SCH_NO_MODEL 0x28,
   chk (qPolicy d == 1 && qBudget d != 0 && (qStandin d).isNone) St.SCH_NO_STANDIN 0x2A,
   chk ((qStandin d).any (fun m => !modelLoaded s m)) St.SCH_NO_MODEL 0x2A,
   chk ((bindOf s (qModel d)).isNone) St.ATT_NO_PROFILE 0x28,
   chk ((qStandin d).any (fun m => (bindOf s m).isNone)) St.ATT_NO_PROFILE 0x2A,
   chk (v == 0) St.SMP_NO_VOCAB 0x28, chk ((qStandin d).any (fun m => modelVocab s m == 0)) St.SMP_NO_VOCAB 0x2A,
   chk (models.any (fun m => (pageClass (modelDim s m) (qFmt d == 1)).isNone)) St.KVA_BAD_FORMAT 0x1E,
   chk (decide (Config.specHeads (qModel d) < qHeads d)) St.HPT_BAD_FIELD 0x1F,
   chk (qMode d != 0 && qHeads d != 0) St.SMP_SPEC_MODE 0x1E,
   chkIn (!(paramBytes p v (qMode d)).isEmpty) St.SMP_BAD_PARAM 0x30 ((least (paramBytes p v (qMode d))).getD 0),
   chkIn ((badNode p (qHeads d)).isSome) St.SMP_BAD_TREE 0x30 (0x80 + 2 * (badNode p (qHeads d)).getD 0),
   chk (role s == 4 && modelPrefix s (qModel d) && decide (512 < qCount d) && decide (home = .unknown)) St.ATT_PREFIX_CHUNK 0x18,
   chk (thas s.hpt.posts (dReq d) || (match home with | .record parked _ _ _ _ => !parked | .unknown => false)) St.HPT_REQ_BUSY 8,
   chk (match home with | .record _ _ _ c _ => decide (4194304 < c + qCount d) | .unknown => false) St.SCH_CONTEXT_FULL 0x18]

/-! ### REQ_POST: its effect -/

/-- The request as its poster knows it (R74, R92). -/
def postReq (s : State) (k : DescKey) (d : Desc) (p : List Word) (committed : Nat) : Req :=
  { key := k, origin := self s, tag := dTag d, nocomp := dNocomp d, intr := dIntr d, tenant := ctxTenant s k.ctx, phase := .posted,
    model := qModel d, standin := qStandin d, budget := qBudget d, discard := qPolicy d == 1, resume := qResume d,
    sampleMode := qMode d, kv4 := qFmt d == 1, specHeads := qHeads d, outAddr := qOut d, outLog2 := qLog2 d,
    maxNew := qMaxNew d, param := p, committed := committed, pos := 0, made := 0, prefillLeft := qCount d, lastAdmit := 0,
    onStandin := false, good := 0, behind := 0, dropped := false, delayed := false, damaged := false, starved := false,
    choosing := false, doubt := false, cancel := [], numeric := 0, firstTurn := if committed = 0 then qCount d else 0,
    outside := none, prefixLen := 0, rootOnly := true, pinned := false, group := ownGroup s, fits := true }

/-- The creating take of a new request (R403): the home's OWNER action, and LEASE 1 in the root here. -/
def creatingSlate (s : State) (req : Nat) : Slate :=
  let h := homeOf s.dtm.map req
  let own := fun p => Action.mk p ⟨kHome, 0, req⟩ (.owner 0 0xFFFF 1 (ownGroup s))
  let lease : Action := ⟨0, rootObj req, .putLease req 1⟩
  if h = self s then ⟨[h], 0, epoch s, [own 0, lease]⟩ else ⟨[self s, h], 1, epoch s, [own 1, lease]⟩

/-- A REQ_POST that passed its checks: a new request's creating take begins; a new turn asks the group that holds the request for
its handover (R415). -/
def actPost (s : State) (k : DescKey) (id : Nat) (d : Desc) (param : List Word) (input : List (BitVec 32)) (home : HomeView) : State :=
  let req := dReq d
  let p := paramOf d param
  let committed := match home with | .record _ _ _ c _ => c | .unknown => 0
  let s1 := { s with
    hpt := { s.hpt with posts := tset s.hpt.posts req ⟨id, qOut d, qLog2 d, qModel d, p⟩ }
    sch := { s.sch with reqs := tset s.sch.reqs req (postReq s k d p committed) } }
  let s2 := if pPromptCounts p then countTokens s1 req (qModel d) (input.map (fun x => x.toNat)) else s1
  match home with
  | .unknown =>
    let root : Root := ⟨qFmt d, (pageClass (modelDim s (qModel d)) (qFmt d == 1)).getD 0, qModel d, modelLayers s (qModel d),
      kvHeads s, 0, 0⟩
    giveSlate { s2 with kva := { s2.kva with roots := tset s2.kva.roots req root } } (creatingSlate s req) (.create req)
  | .record _ g _ _ _ =>
    match leaderOf s2.dtm.map g with
    | some n => send s2 n 0 .post [at' 0 48 req, at' 0 16 (ownGroup s2)]
    | none => s2

/-- REQ_POST (R74). -/
def reqPost (s : State) (k : RingKey) (d : Desc) (param : List Word) (input : List (BitVec 32)) (home : HomeView) : State :=
  ofForm (dOpcode d == 1) s
    (runDesc s k d (postBytes d) (fun s k => postChecks d param input home s k)
      (fun s k id => actPost s k id d param input home))

/-! ### REQ_PARK (R417) -/

/-- DST_GROUP -/
def kDst (d : Desc) : Nat := dfld d 0x10 15 0

/-- The checks of REQ_PARK and REQ_CANCEL that any controller makes: no home record names the request (R90). -/
def unknownChecks (home : HomeView) (s : State) : List Check :=
  [chk (role s == 0) St.SCH_ROLE_MISMATCH 0, chk (decide (home = .unknown)) St.HPT_REQ_UNKNOWN 8]

/-- The owning group of a request by its home record. -/
def viewGroup (home : HomeView) : Nat := match home with | .record _ g _ _ _ => g | .unknown => 0xFFFF

/-- The leader's answer in advance, where this controller leads the owning group (R417). -/
def parkChecks (d : Desc) (home : HomeView) (s : State) (_ : DescKey) : List Check :=
  let g := viewGroup home
  let st := match reqOf s (dReq d) with | some r => parkCheck s (dReq d) r (kDst d) | none => St.TRV_BAD_STATE
  unknownChecks home s ++
    [chk (!servesDecode (groupRole s g)) St.TRV_BAD_STATE 8,
     chk (leads s g && st != St.OK) st (if st = St.TRV_BAD_DEST then 0x10 else 8)]

/-- REQ_PARK (R417). -/
def reqPark (s : State) (k : RingKey) (d : Desc) (home : HomeView) : State :=
  ofForm (dOpcode d == 2) s
    (runDesc s k d (resv d 0x10 63 16 ++ resvWords d [0x18, 0x20, 0x28, 0x30, 0x38]) (parkChecks d home)
      (fun s _ id =>
        let g := viewGroup home
        if leads s g then openTraverse s (.park (dReq d) (kDst d) (self s) id)
        else
          match leaderOf s.dtm.map g with
          | some n => (sendFor s n 0 .park [mkWord [(0, 48, dReq d), (48, 16, kDst d)], BitVec.ofNat 64 id] (.park id)).1
          | none => completeSt s id St.TRV_BAD_STATE))

/-! ### REQ_CANCEL (R117) -/

/-- A REQ_CANCEL marks a request at its owning group's leader. -/
def markCancel (s : State) (req node : Nat) (src : DescKey) : State :=
  modReq s req (fun r => { r with cancel := if r.cancel.contains (node, src) then r.cancel else r.cancel ++ [(node, src)] })

/-- A request that waits with its source group for a destination ends its wait when it is cancelled (R416). -/
def cancelWait (s : State) (req : Nat) : State :=
  match travOf s req with
  | some t => if t.src = .waiting then { s with trv := { s.trv with trav := tdel s.trv.trav req } } else s
  | none => s

/-- REQ_CANCEL (R117). -/
def reqCancel (s : State) (k : RingKey) (d : Desc) (home : HomeView) : State :=
  ofForm (dOpcode d == 3) s
    (runDesc s k d (resvWords d payloadOffs)
      (fun s _ => unknownChecks home s ++
        [chk (match home with | .record parked _ _ _ _ => parked | .unknown => false) St.SCH_NOT_RUNNING 8])
      (fun s k _ =>
        let req := dReq d
        if thas s.sch.reqs req && leadsFor s req then cancelReshoot (cancelWait (markCancel s req (self s) k) req) req
        else
          send s (homeOf s.dtm.map req) 0 .cancel [at' 0 48 req,
            mkWord [(0, 20, self s), (20, 12, k.ctx), (32, 3, k.ring)], at' 0 32 k.count]))

/-- CANCEL_REACHES_OWNER (R117). -/
def cancelReachesOwner (s : State) (req node : Nat) (src : DescKey) : State :=
  whenUp s (fun s =>
    if thas s.sch.reqs req && leadsFor s req then cancelReshoot (cancelWait (markCancel s req node src) req) req else s)

/-! ### REQ_RELEASE (R224–R226) -/

/-- OP -/
def lOp (d : Desc) : Nat := dfld d 0x10 1 0
/-- IN_ADDR -/
def lIn (d : Desc) : Nat := (Desc.word d 3).toNat
/-- IN_COUNT -/
def lCount (d : Desc) : Nat := dfld d 0x20 22 0

/-- Failing payload bytes of a REQ_RELEASE (R224). -/
def releaseBytes (d : Desc) : List Nat :=
  badAt (decide (2 ≤ lOp d)) 0x10 0 ++ resv d 0x10 63 2 ++
    (if lOp d = 0 then resv d 0x18 63 0 ++ resv d 0x20 22 0 else badAt (lCount d == 0 || decide (4194304 < lCount d)) 0x20 0) ++
    resv d 0x20 63 23 ++ resvWords d [0x28, 0x30, 0x38]

/-- A release is asked of the home, which coordinates it (R119 step 6, R225): `known` is the group and the epoch of the request,
where the asker has them, and the home's own record counts where it has not. -/
def askRelease (s : State) (req : Nat) (known : Option (Nat × Nat)) (flight : Option Nat) : State :=
  if homeOf s.dtm.map req = self s then
    match known.orElse (fun _ => (tget s.dtm.homes req).map (fun h => (h.owner, h.epoch))) with
    | some (g, e) => startTake s (releaseSlate s req g e) (.release req g flight) .block 15
    | none =>
      { s with tak := { s.tak with ended := s.tak.ended ++
        [⟨.release req 0xFFFF flight, 0, St.TAK_CHECK_FAIL, 0, 0, St.OK, 1, false⟩] } }
  else
    let k := known.getD (0xFFFF, 0)
    giveSlate s (releaseSlate s req k.1 k.2) (.release req 0xFFFF flight)

/-- The former owners of a released request are told to return its pages (R225); none for group 0xFFFF. -/
def tellOwners (s : State) (req group : Nat) : State :=
  if group = 0xFFFF then s
  else
    ((members s.dtm.map group).map (fun p => p.1)).foldl (fun s n =>
      if n = self s then
        let s1 := releasePages (unpin (endTrav s req) req) req
        { s1 with sch := { s1.sch with reqs := tdel s1.sch.reqs req } }
      else sendTrv s n 7 St.OK 0 req 0) s

/-- A request that its context no longer has to release, counted as released where the context goes down (R120). -/
def dropMade (s : State) (req : Nat) (ok : Bool) : State :=
  match tget s.hpt.made req with
  | none => s
  | some c =>
    modCtx { s with hpt := { s.hpt with made := tdel s.hpt.made req } } c (fun x =>
      { x with down := x.down.map (fun d => { d with released := d.released + ok.toNat }) })

/-- A release has ended (R119, R225): the former owners are told, and the REQ_RELEASE completes. A teardown's that met a changed
record is built again (R432). -/
def releaseEnded (s : State) (req group : Nat) (flight : Option Nat) (st ps : Status) : State :=
  let done (s : State) (st : Status) : State := match flight with | some id => completeSt s id st | none => s
  if st = St.OK then done (dropMade (tellOwners s req group) req true) St.OK
  else if flight.isSome then
    done s (if st = St.TAK_CHECK_FAIL then St.HPT_REQ_BUSY else if st = St.TAK_VOTE_NO then ps else st)
  else if st = St.TAK_CHECK_FAIL ∧ group ≠ 0xFFFF ∧ thas s.dtm.homes req then askRelease s req none none
  else dropMade s req false

/-- A release that this home coordinated for another controller has ended. -/
def releaseForEnded (s : State) (e : TakeEnd) (req group node key : Nat) (again : Bool) : State :=
  if again ∧ e.status = St.TAK_CHECK_FAIL ∧ thas s.dtm.homes req then releaseHere s req node key
  else
    reportEnd (if e.status = St.OK then tellOwners s req group else s) node key e.takeId e.status e.action e.part e.partStatus e.tries

/-- The creating take has ended (R403): prefill begins, or the REQ_POST ends with the cause. A record that exists already means
that the request is known (R74). One whose context has gone down meanwhile is released. -/
def createEnded (s : State) (req : Nat) (st ps : Status) : State :=
  match tget s.hpt.posts req with
  | none => if st = St.OK then askRelease s req none none else s
  | some p =>
    if st = St.OK then
      let s1 := modReq { s with hpt := { s.hpt with made := tset s.hpt.made req (flightCtx p.flight) } } req (fun r => { r with phase := .prefill })
      let s2 := match tget s1.kva.roots req with
        | some r => mirrorRec s1 (.root req (rootWords s1 req r))
        | none => s1
      let s3 := match tget s2.smp.counts req with
        | some t => mirrorRec s2 (.counts req (t.map (fun e => (e.1, e.2.1, e.2.2))))
        | none => s2
      ((servers s3 (ownGroup s3)).filter (· != self s3)).foldl (fun s n => send s n 0 .post [at' 0 48 req, at' 0 16 (ownGroup s)]) s3
    else
      let s1 := { s with
        hpt := { s.hpt with posts := tdel s.hpt.posts req }
        sch := { s.sch with reqs := tdel s.sch.reqs req }
        smp := { s.smp with counts := tdel s.smp.counts req }
        kva := { s.kva with roots := tdel s.kva.roots req } }
      let cause := if st = St.TAK_CHECK_FAIL then St.HPT_REQ_BUSY else if st = St.TAK_VOTE_NO then ps else st
      complete s1 p.flight cause (posWord 0 0) (postDetail p.flight 0) false

/-- REQ_RELEASE with OP FREE (R225); reserved OP values are rejected with it. -/
def reqReleaseFree (s : State) (k : RingKey) (d : Desc) (home : HomeView) : State :=
  ofForm (dOpcode d == 4 && lOp d != 1) s
    (runDesc s k d (releaseBytes d)
      (fun s _ => unknownChecks home s ++
        [chk (match home with | .record parked _ _ _ _ => !parked | .unknown => false) St.HPT_REQ_BUSY 8,
         chk (match home with | .record _ _ _ _ re => re | .unknown => false) St.KVA_RESHOOT_BUSY 8])
      (fun s _ id =>
        match home with
        | .record _ g e _ _ => askRelease s (dReq d) (some (g, e)) (some id)
        | .unknown => s))

/-- The prompt group's own record of a request that it recomputes (R226 step 6): a root whose pages are its own, and the prompt. -/
def beginRecompute (s : State) (k : DescKey) (d : Desc) (id g committed : Nat) : State :=
  let req := dReq d
  let model := (List.range 16).findSome? (fun j =>
    if rdi s F.ATT_BIND_EN j = 1 ∧ modelLoaded s (rdi s F.ATT_BIND_MODEL j) then some (rdi s F.ATT_BIND_MODEL j) else none)
  let m := (bindOf s (eModel (groupEntry s g))).elim (model.getD 0) (fun _ => eModel (groupEntry s g))
  let root : Root := ⟨0, (pageClass (modelDim s m) false).getD 0, m, modelLayers s m, kvHeads s, 0, 0⟩
  let r : Req := { (postReq s k d (defaultParam req 0) 0) with
    model := m, standin := none, prefillLeft := lCount d, phase := .prefill, firstTurn := committed }
  { s with
    kva := { s.kva with asks := tset s.kva.asks id req, roots := tset s.kva.roots req root }
    sch := { s.sch with reqs := tset s.sch.reqs req r } }

/-- REQ_RELEASE with OP RESHOOT (R226): posted to a PROMPT or BLENDED controller; the owner group's leader makes the checks. -/
def reqReleaseReshoot (s : State) (k : RingKey) (d : Desc) (home : HomeView) : State :=
  ofForm (dOpcode d == 4 && lOp d == 1) s
    (runDesc s k d (releaseBytes d)
      (fun s k =>
        [chk (lIn d % 64 != 0) St.HPT_BAD_ADDR 0x18, chk (!hostOk s k false (lIn d) (4 * lCount d)) St.HPT_PROT 0x18,
         chk (!servesPrefill (role s)) St.SCH_ROLE_MISMATCH 0, chk (decide (home = .unknown)) St.HPT_REQ_UNKNOWN 8])
      (fun s k id =>
        match home with
        | .record _ g _ c _ =>
          let ask := [at' 0 48 (dReq d), mkWord [(0, 23, lCount d), (32, 20, self s)], BitVec.ofNat 64 id]
          if leads s g then
            let s1 := { s with kva := { s.kva with asks := tset s.kva.asks id (dReq d) } }
            checkReshoot s1 (dReq d) (lCount d) (self s) id
          else
            let s1 := beginRecompute s k d id g c
            match leaderOf s1.dtm.map g with
            | some n => send s1 n 0 .reshootAsk ask
            | none => s1
        | .unknown => s))

end Sys2Proof.Machine
end

