-- ==== Sys2Proof/Machine/Dtm.lean ====
section
/-! DEFINITION. The composition map's spread and survey, joining, leases, queries, claims and bucket moves (R395–R413, R552). -/

namespace Sys2Proof.Machine

open Sys2Proof

/-! ### Map log records (R396, R397, R400) -/

/-- A log record read out of its words: its epoch and entries (R400). -/
def recordOf (ws : List Word) : Nat × List (Nat × List Word) :=
  (bits (wordAt ws 0) 31 0,
    (List.range (bits (wordAt ws 0) 37 32)).map (fun k =>
      (fld (wordAt ws (16 + k / 2)) (32 * (k % 2)) 20, (List.range 4).map (fun i => wordAt ws (32 + 4 * k + i)))))

/-- Missing records are fetched from a node's log by GET, or its whole region is copied: more than 64 epochs behind, or at epoch 0
(R396). -/
def fetchFrom (s : State) (node c : Nat) : State :=
  if epoch s = 0 ∨ 64 < epochDiff c (epoch s) then
    send { s with dtm := { s.dtm with copying := some node } } node 0 .mapFetch [0]
  else send s node 0 .mapFetch [at' 0 32 (epoch s)]

/-- MAP_LOG_RECORD (R396): applied at its starting epoch and sent on, fetched up to when it is ahead, ignored when it is old. -/
def mapLogRecord (s : State) (src : Nat) (words : List Word) : State :=
  whenUp s (fun s =>
    let r := recordOf words
    let d := epochDiff r.1 (epoch s)
    if d ≤ 0 ∧ epoch s ≠ 0 then s
    else if d = 1 ∧ epoch s ≠ 0 then spreadRecord (advanceEpoch s r.1 r.2) r.1 r.2
    else fetchFrom s src r.1)

/-- The entry above this controller's, wrapping at the top; SEED's while it is in no entry (R397). -/
def surveyPeer (s : State) : Nat :=
  if eState (ownEntry s) = 0 then rd s F.DTM_CTL_SEED
  else
    let ns := ((controllers s.dtm.map).map (fun p => p.1)).filter (· != self s)
    ((ns.find? (fun n => decide (self s < n))).orElse (fun _ => ns.head?)).getD (self s)

/-- SURVEY_ROUND (R397). -/
def surveyRound (s : State) : State :=
  whenUp s (fun s =>
    if epoch s = 0 ∨ surveyPeer s = self s then s else send s (surveyPeer s) 0 .epoch [at' 0 32 (epoch s)])

/-- Records from epoch `c` + 1 on, pushed to a node that is behind (R397); `n` bounds them. -/
def pushRecords : Nat → State → Nat → Nat → State
  | 0, s, _, _ => s
  | n + 1, s, node, c =>
    let e := (c + 1) % 2 ^ 32
    if epochDiff (epoch s) c ≤ 0 then s
    else
      match tget s.dtm.log (e % 64) with
      | some r => if r.1 = e then pushRecords n (send s node 0 .mapRecord (logWords e r.2)) node e else s
      | none => s

/-- SURVEY_EPOCH (R397). -/
def surveyEpoch (s : State) (src epoch_ : Nat) : State :=
  whenUp s (fun s =>
    let d := epochDiff epoch_ (epoch s)
    if d = 0 then s else if 0 < d then fetchFrom s src epoch_ else if -64 ≤ d then pushRecords 64 s src epoch_ else s)

/-! ### Joining (R395) -/

/-- The map region and log, in HBM and in no suspect granule (R390, R475). -/
def joinRegionOk (s : State) : Bool := regionOk s (rd s F.DTM_CTL_BASE_MIB * 2 ^ 20) (2 ^ 25 + 2 ^ 17)

/-- A copy fails: for a join, ERR is set with DTM_JOIN_FAIL. -/
def joinFail (s : State) : State :=
  let s1 := { s with dtm := { s.dtm with copying := none } }
  if rd s F.DTM_CTL_BUSY = 1 then openEvent (wr (wr s1 F.DTM_CTL_BUSY 0) F.DTM_CTL_ERR 1) .error St.DTM_JOIN_FAIL noUnit 0 0 else s1

/-- DTM_JOIN (R395): a write of JOIN = 1 at epoch 0 starts the copy from SEED, with SEED and BASE_MIB of the
same write; a map region that is not good fails it (DEDUCED, log entry 132, from R475, which names the check and not its outcome). -/
def dtmJoin (s : State) (w : Word) : State :=
  ofForm (bit w 63) s (bar0 s (fun s =>
    if epoch s ≠ 0 ∨ rd s F.DTM_CTL_BUSY = 1 then s
    else
      let s1 := wr (wr (wr (wr s F.DTM_CTL_SEED (bits w 39 20)) F.DTM_CTL_BASE_MIB (bits w 19 0)) F.DTM_CTL_BUSY 1) F.DTM_CTL_ERR 0
      if joinRegionOk s1 then
        send { s1 with dtm := { s1.dtm with copying := some (bits w 39 20) } } (bits w 39 20) 0 .mapFetch [0]
      else joinFail s1))

/-- JOIN_COPY_DONE (R395, R396): the region is in; the epoch is the source's, with one MAP_CHANGE event (R552). -/
def joinCopyDone (s : State) (epoch_ : Nat) (entries : List (Nat × List Word)) (log : List (List Word)) (ok : Bool) : State :=
  whenUp s (fun s =>
    match s.dtm.copying with
    | none => s
    | some _ =>
      if !ok then joinFail s
      else
        let m := entries.foldl (fun m x => mapSet m (x.1 % 2 ^ 20) ((List.range 4).map (wordAt x.2))) []
        let recs := log.map recordOf
        let s1 := { s with dtm := { s.dtm with
          copying := none
          map := m
          log := recs.foldl (fun l r => tset l (r.1 % 64) r) []
          since := rd s F.GLB_MGMT_CYCLES_COUNT
          holders := clearRevoked s.dtm.map m s.dtm.holders } }
        writeEvent (wr (wr s1 F.DTM_CTL_BUSY 0) F.DTM_EPOCH_EPOCH (epoch_ % 2 ^ 32)) .mapChange St.OK 0 0 (at' 0 32 epoch_) 0)

/-- JOIN_TIMEOUT (R395). -/
def joinTimeout (s : State) : State := whenUp s (fun s => if s.dtm.copying.isSome then joinFail s else s)

/-! ### Messages (R401, R406) -/

/-- Fields of a DTM message (R406). -/
def mKind (w : List Word) : Nat := bits (wordAt w 0) 3 0
def mLoss (w : List Word) : Bool := bit (wordAt w 0) 4
def mSeq (w : List Word) : Nat := bits (wordAt w 0) 63 32
def mReq (w : List Word) : Nat := bits (wordAt w 1) 47 0
def mOwner (w : List Word) : Nat := bits (wordAt w 1) 63 48
def mNode (w : List Word) : Nat := bits (wordAt w 2) 19 0
def mSubject (w : List Word) : Nat := bits (wordAt w 2) 39 20
def mEpoch (w : List Word) : Nat := bits (wordAt w 3) 31 0
def mSt (w : List Word) : Status := BitVec.ofNat 16 (bits (wordAt w 3) 47 32)

/-- A reserved KIND or a nonzero reserved bit (R406). -/
def dtmBad (w : List Word) : Bool :=
  mKind w == 0 || decide (4 < mKind w) || bits (wordAt w 0) 31 5 != 0 || bits (wordAt w 2) 63 40 != 0 || bits (wordAt w 3) 63 48 != 0

/-- An ANSWER, echoing SEQ. -/
def sendAnswer (s : State) (dest seq req owner lepoch : Nat) (st : Status) : State :=
  send s dest 0 .dtm (at' 0 32 (epoch s) :: dtmWords 4 false seq req owner (self s) 0 lepoch st)

/-- Whether this controller is a home under its map (R405). -/
def isHome (s : State) : Bool :=
  namedHome s.dtm.map (self s) || (s.con.both && (twin s).any (fun t => namedHome s.dtm.map t))

/-- A message for a home: its layout, epoch (R398, R399) and that this is a home are checked first (R401, R406). -/
def homeMsg (s : State) (kind c : Nat) (w : List Word) (home : Bool) (f : State → State) : State :=
  whenUp s (fun s =>
    if dtmBad w then sendAnswer s (mNode w) (mSeq w) (mReq w) 0 0 St.DTM_BAD_MSG
    else if mKind w ≠ kind then s
    else
      match epochRule s c with
      | some st =>
        if st = St.DTM_STALE_MAP then sendAnswer (bump s F.DTM_STALE_CNT_COUNT) (mNode w) (mSeq w) (mReq w) 0 0 st
        else sendAnswer (fetchFrom s (mNode w) c) (mNode w) (mSeq w) (mReq w) 0 0 st
      | none => if !home then sendAnswer s (mNode w) (mSeq w) (mReq w) 0 0 St.DTM_NOT_HOME else f s)

/-! ### Leases (R405, R408–R411) -/

/-- Whether this member holds its own requests after losing its twin, and has not been answered by a home (R443, R447). -/
def twinLossAt (s : State) (home : Nat) : Bool := exposed s && !s.con.both && !s.con.confirmed.contains home

/-- The homes this controller depends on: those of the requests whose roots it holds, and those it renews at already. -/
def homesNeeded (s : State) : List Nat :=
  (((s.kva.roots.filter (fun e => e.2.lease != 0)).map (fun e => homeOf s.dtm.map e.1)) ++ tkeys s.dtm.leases).dedup

/-- RENEW to one home (R405, R406). -/
def sendRenew (s : State) (home : Nat) (loss : Bool) : State :=
  let q := s.dtm.seq
  let l := tgetD s.dtm.leases home ⟨false, none⟩
  sendDtm { s with dtm := { s.dtm with leases := tset s.dtm.leases home { l with asked := some q } } } home 1 loss 0 0

/-- RENEW_TIMER (R405): RENEW to every home this controller depends on. -/
def renewTimer (s : State) : State :=
  whenUp s (fun s => if epoch s = 0 then s else (homesNeeded s).foldl (fun s h => sendRenew s h (twinLossAt s h)) s)

/-- A holder's marks changed and, where they did, mirrored (R408). -/
def setHolder (s : State) (n : Nat) (h : Holder) : State :=
  let old := tgetD s.dtm.holders n ⟨false, false, false⟩
  let s1 := { s with dtm := { s.dtm with holders := tset s.dtm.holders n h } }
  if old.twinLoss = h.twinLoss ∧ old.revoked = h.revoked then s1 else mirrorRec s1 (.holder n h.twinLoss h.revoked)

/-- RENEW at a home (R405, R409, R410). -/
def renew (s : State) (epoch_ : Nat) (words : List Word) : State :=
  homeMsg s 1 epoch_ words (isHome s) (fun s =>
    let n := mNode words
    let reply (s : State) (st : Status) : State := sendAnswer s n (mSeq words) 0 0 0 st
    match tget s.dtm.holders n with
    | some h => if h.revoked then reply s St.DTM_LEASE_REVOKED else reply (setHolder s n ⟨true, mLoss words, false⟩) St.OK
    | none =>
      if 16384 ≤ s.dtm.holders.length then reply s St.DTM_HOME_FULL else reply (setHolder s n ⟨true, mLoss words, false⟩) St.OK)

/-- LEASE_LAPSE (R405): the holder's own limit passes; it writes no more and goes on renewing. -/
def leaseLapse (s : State) (home : Nat) : State :=
  whenUp s (fun s =>
    match tget s.dtm.leases home with
    | some l =>
      if l.live then
        bump { s with dtm := { s.dtm with leases := tset s.dtm.leases home { l with live := false } } } F.DTM_LAPSE_CNT_COUNT
      else s
    | none => s)

/-- The take that releases a lost request's record, built again against the record as it stands (R411). -/
def loseRecord (s : State) (req : Nat) (h : HomeRec) : State :=
  startTake s (releaseSlate s req h.owner h.epoch) (.release req h.owner none) .block 15

/-- A pair has lapsed at this home (R411): every record that its groups own is lost, its ORIGIN told and the record released. -/
def losePair (s : State) (node : Nat) : State :=
  let t := eTwin (mapGet s.dtm.map node)
  let groups := [eGroup (mapGet s.dtm.map node), eGroup (mapGet s.dtm.map t)]
  (s.dtm.homes.filter (fun e => groups.contains e.2.owner && e.2.owner != 0xFFFF)).foldl (fun s e =>
    let s1 := if e.2.origin = self s then openEvent s .error St.DTM_REQUEST_LOST noUnit e.1 0
      else send s e.2.origin 0 .reshootEvent [at' 0 48 e.1, at' 0 16 St.DTM_REQUEST_LOST.toNat]
    loseRecord s1 e.1 e.2) s

/-- HOLDER_EXPIRY (R405, R411): the home's limit passes for a holder. -/
def holderExpiry (s : State) (node : Nat) : State :=
  whenUp s (fun s =>
    match tget s.dtm.holders node with
    | none => s
    | some h =>
      if !h.live then s
      else
        let s1 := { s with dtm := { s.dtm with holders := tset s.dtm.holders node { h with live := false } } }
        let t := eTwin (mapGet s1.dtm.map node)
        let other := tgetD s1.dtm.holders t ⟨false, false, false⟩
        if other.live || h.revoked || other.revoked then s1 else losePair s1 node)

/-! ### Queries (R407, R412) -/

/-- Whether a take on a request's record is prepared here. -/
def recordPrepared (s : State) (req : Nat) : Bool :=
  s.tak.part.any (fun p => isPrepared p.2 && p.2.actions.any (fun a => a.2.obj == ⟨kHome, 0, req⟩))

/-- A QUERY is answered from the record (R407). -/
def answerQuery (s : State) (q : HeldQuery) : State :=
  let s1 := bump s F.DTM_QUERY_CNT_COUNT
  match tget s1.dtm.homes q.req with
  | some h => sendAnswer s1 q.node q.seq q.req h.owner h.epoch St.OK
  | none => sendAnswer s1 q.node q.seq q.req 0 0 St.HPT_REQ_UNKNOWN

/-- QUERY at a home (R407); one whose record a prepared take may change waits for its decision. -/
def query (s : State) (epoch_ : Nat) (words : List Word) : State :=
  homeMsg s 2 epoch_ words (actsAs s (homeOf s.dtm.map (mReq words))) (fun s =>
    let q : HeldQuery := ⟨mNode words, mSeq words, mReq words⟩
    if recordPrepared s q.req then { s with dtm := { s.dtm with held := s.dtm.held ++ [q] } } else answerQuery s q)

/-- QUERYs whose take is decided are answered. -/
def answerHeld (s : State) : State :=
  let (wait, go) := s.dtm.held.partition (fun q => recordPrepared s q.req)
  go.foldl answerQuery { s with dtm := { s.dtm with held := wait } }

/-- QUERY_TIMEOUT (R412). -/
def queryTimeout (s : State) (req : Nat) : State :=
  whenUp s (fun s => if s.dtm.queries.contains req then askHome s req else s)

/-- A request is served here no longer (R410, R412): LEASE 0 by a local take; its pages stay. -/
def stopServing (s : State) (req : Nat) : State :=
  let s1 := if (tget s.kva.roots req).any (fun r => r.lease != 0) then localTake s [⟨0, rootObj req, .putLease req 0⟩] else s
  { s1 with sch := { s1.sch with reqs := tdel s1.sch.reqs req } }

/-- The ANSWER to a QUERY (R412, R221). -/
def answerForQuery (s : State) (src : Nat) (w : List Word) : State :=
  let req := mReq w
  if !s.dtm.queries.contains req then s
  else
    let done := { s with dtm := { s.dtm with queries := s.dtm.queries.filter (· != req) } }
    if mSt w = St.OK then
      if mOwner w = ownGroup s ∨ (s.con.both ∧ mOwner w = eSibling (ownEntry s)) then
        let s1 := localTake done [⟨0, rootObj req, .putLease req (mEpoch w)⟩]
        if leaseLive s1 req then modReq s1 req (fun r => { r with doubt := false }) else s1
      else
        let s1 := stopServing done req
        if role s = 3 then notifyOwner s1 req (mOwner w) else s1
    else if mSt w = St.DTM_STALE_MAP ∨ mSt w = St.DTM_NOT_HOME then
      askHome (send s src 0 .mapFetch [at' 0 32 (epoch s)]) req
    else if mSt w = St.HPT_REQ_UNKNOWN then stopServing done req
    else s

/-- The ANSWER to a RENEW (R405, R410). -/
def answerForRenew (s : State) (src : Nat) (w : List Word) : State :=
  match tget s.dtm.leases src with
  | none => s
  | some l =>
    if l.asked ≠ some (mSeq w) then s
    else
      let put (l : Lease) (s : State) : State := { s with dtm := { s.dtm with leases := tset s.dtm.leases src l } }
      if mSt w = St.OK then
        let s1 := put ⟨true, none⟩ s
        if exposed s1 && !s1.con.confirmed.contains src then { s1 with con := { s1.con with confirmed := s1.con.confirmed ++ [src] } } else s1
      else if mSt w = St.DTM_LEASE_REVOKED then
        let mine := (s.kva.roots.filter (fun e => e.2.lease != 0 && homeOf s.dtm.map e.1 == src)).map (fun e => e.1)
        mine.foldl stopServing (put ⟨false, none⟩ s)
      else put { l with asked := none } s

/-! ### Claims (R409) -/

/-- The confirming takes of a claim (R409): up to 32 requests each, a CHECK of the record here and the lease at the claimant. -/
def confirmTakes (s : State) (y seq : Nat) (reqs : List (Nat × HomeRec)) : State :=
  (chunks 32 reqs.length reqs).foldl (fun s c =>
    startTake s ⟨[self s, y], 0, epoch s,
      c.map (fun e => ⟨0, ⟨kHome, 0, e.1⟩, .check (some e.2.epoch)⟩) ++ c.map (fun e => ⟨1, rootObj e.1, .putLease e.1 e.2.epoch⟩)⟩
      (.confirm y seq) .block 15) s

/-- CLAIM at a home (R409, R410, R411): refused, or the twin is revoked and the confirming takes run. -/
def claim (s : State) (epoch_ : Nat) (words : List Word) : State :=
  homeMsg s 3 epoch_ words (isHome s) (fun s =>
    let y := mNode words
    let x := mSubject words
    let reply (s : State) (st : Status) : State := sendAnswer s y (mSeq words) 0 0 0 st
    let h := tgetD s.dtm.holders x ⟨false, false, false⟩
    if eTwin (mapGet s.dtm.map y) ≠ x ∨ eState (mapGet s.dtm.map y) = 0 then reply s St.DTM_CLAIM_REFUSED
    else if h.twinLoss then reply s St.DTM_CLAIM_REFUSED
    else
      let mine := s.dtm.homes.filter (fun e => e.2.owner == eGroup (mapGet s.dtm.map x) && e.2.owner != 0xFFFF)
      let s1 := setHolder s x { h with revoked := true }
      if mine.isEmpty then reply s1 St.HPT_REQ_UNKNOWN else confirmTakes (reply s1 St.OK) y (mSeq words) mine)

/-! ### Moving a bucket (R404) -/

/-- BUCKET_COPY (R404 step 3): the old home copies the bucket's records to NEXT by takes of up to 64 PUT actions. -/
def bucketCopy (s : State) (bucket : Nat) : State :=
  whenUp s (fun s =>
    let e := mapGet s.dtm.map (bucketBase + bucket)
    if 4096 ≤ bucket ∨ bMoving e = false ∨ actsAs s (bucketHome s.dtm.map bucket) = false then s
    else
      let recs := s.dtm.homes.filter (fun r => bucketOf r.1 == bucket)
      (chunks 64 recs.length recs).foldl (fun s c =>
        startTake s ⟨[self s, bNext e], 0, epoch s, c.map (fun r => ⟨1, ⟨kRegion, 3, r.1⟩, .putHome r.1 r.2⟩)⟩ (.bucket bucket) .block 15) s)

/-! ### After a map change -/

/-- Holders of the buckets that have just come to this home count as renewed (R404). -/
def renewBuckets (old : DMap) (s : State) : State :=
  let came := (List.range 4096).filter (fun b => bucketHome s.dtm.map b == self s && bucketHome old b != self s)
  if came.isEmpty then s
  else
    let owners := ((s.dtm.homes.filter (fun r => came.contains (bucketOf r.1))).map (fun r => r.2.owner)).dedup
    (owners.flatMap (fun g => (members s.dtm.map g).map (fun p => p.1))).dedup.foldl (fun s n =>
      let h := tgetD s.dtm.holders n ⟨false, false, false⟩
      { s with dtm := { s.dtm with holders := tset s.dtm.holders n { h with live := true } } }) s

/-- What follows every change of the map at this controller: doubts that a lost coordinator leaves (R144), buckets that came
(R404), and an outside holder's notices again (R221). -/
def mapSettle (old : DMap) (s : State) : State :=
  if old = s.dtm.map then s
  else
    let s1 := renewBuckets old (coordLost old s)
    if role s1 = 3 then
      (s1.kva.roots.filter (fun e => e.2.lease == 0 && !(missing s1 e.1).isEmpty)).foldl (fun s e => askHome s e.1) s1
    else s1

end Sys2Proof.Machine
end

