-- ==== Sys2Proof/Machine/Twin.lean ====
section
/-! DEFINITION. Continuity: beats, the mirror of the twin, probes, takeover, yield, reintegration and compare mode (R436–R459). -/

namespace Sys2Proof.Machine

open Sys2Proof

/-! ### States (R439) -/

/-- The twin, where the map names one that is in it. -/
def liveTwin (s : State) : Option Nat := (twin s).bind (fun t => if eState (mapGet s.dtm.map t) = 0 then none else some t)

/-- STATE and EXPOSED set, with the TWIN_CHANGE events of R439. -/
def enterCon (s : State) (st : Nat) (events : List Status) : State :=
  events.foldl (fun s e => openEvent s .twinChange e noUnit 0 0)
    (wr (wr s F.CON_STAT_STATE st) F.CON_STAT_EXPOSED (if st = 1 then 0 else 1))

/-- PHASE (R453). -/
def conPhase (s : State) : Nat := rd s F.CON_STAT_PHASE
/-- CMD_STATUS (R458). -/
def conStatus (s : State) (st : Status) : State := wr s F.CON_STAT_CMD_STATUS st.toNat
/-- The continuity ports that are ACTIVE (R458). -/
def contPorts (s : State) : List Nat := ((List.range 4).map (fun i => 56 + i)).filter (fun n => portState s n == 5)

/-! ### Beats (R437, R438) -/

/-- The CRC of a beat's bits [47:0]. -/
def beatCrc (w : Word) : Nat := crc16 (natBytes 6 (bits w 47 0))

/-- A beat's word (R437). -/
def beatWord (s : State) : Word :=
  let w := mkWord [(0, 16, s.con.beatSeq), (16, 16, s.con.seen), (32, 3, conState s),
    (35, 1, (s.con.yielding == 2 || s.con.yielding == 3).toNat)]
  setFld w 48 16 (beatCrc w)

/-- Whether a beat is valid (R437). -/
def beatValid (w : Word) : Bool := bits w 47 36 == 0 && bits w 63 48 == beatCrc w

/-- BEAT_SEND (R437, R446, R452): a beat to the twin; on the continuity ports too while the sideband has failed, and none once a
yield is silent. -/
def beatSend (s : State) : State :=
  whenUp s (fun s =>
    match liveTwin s with
    | none => s
    | some t =>
      if conState s = 0 ∨ 4 ≤ s.con.yielding then s
      else
        let w := beatWord s
        let s1 := if rd s F.CON_STAT_SIDEBAND_OK = 1 then emit s (.message t 6 .beat [w])
          else send (emit s (.message t 6 .beat [w])) t 5 .beat [w]
        { s1 with con := { s1.con with
          beatSeq := (s1.con.beatSeq + 1) % 2 ^ 16
          yielding := if s1.con.yielding = 2 ∨ s1.con.yielding = 3 then s1.con.yielding + 1 else s1.con.yielding } })

/-! ### Holding and probing (R444–R446) -/

/-- The probe (R446): TC5 echoes on the ACTIVE continuity ports, and a GET of the twin's CON_STAT over the fabric. -/
def probe (s : State) : State :=
  match liveTwin s with
  | none => s
  | some t =>
    let s1 := (contPorts s).foldl (fun s n => emit s (.linkTest n false)) { s with con := { s.con with probing := true } }
    send s1 t 0 .probe [at' 0 32 0x240010]

/-- The mirror path fails (R444): the hold, then the probe. -/
def mirrorFails (s : State) : State :=
  if conState s ≠ 1 ∨ s.con.yielding ≠ 0 then s
  else probe { s with con := { s.con with overdue := true } }

/-- MIRROR_ACK_TIMEOUT (R444). -/
def mirrorAckTimeout (s : State) : State :=
  whenUp s (fun s => if s.con.unacked.isEmpty then s else mirrorFails s)

/-- BEAT_MISS (R438, R445, R446). -/
def beatMiss (s : State) : State :=
  whenUp s (fun s =>
    if conState s = 0 ∨ (liveTwin s).isNone then s
    else
      let n := s.con.misses + 1
      let s1 := bump { s with con := { s.con with misses := n, good := 0, held := s.con.held || decide (2 ≤ n) } } F.CON_MISS_CNT_COUNT
      if n = 3 ∧ conState s1 = 1 ∧ s1.con.yielding = 0 then probe s1 else s1)

/-! ### Loss of the twin (R447) -/

/-- The requests this member serves as primary: those of its own group whose lease it holds. -/
def ownLeases (s : State) : List Nat := (s.kva.roots.filter (fun e => e.2.lease != 0)).map (fun e => e.1)

/-- TWIN_LOSS RENEW to every home of the requests served as primary (R447); without a request nothing awaits an answer. -/
def twinLossRenew (s : State) : State :=
  ((ownLeases s).map (homeOf s.dtm.map)).dedup.foldl (fun s h => sendRenew s h true)
    { s with con := { s.con with confirmed := [], held := false, overdue := false, probing := false, unacked := [] } }

/-- DETACHED (R439, R446). -/
def detach (s : State) : State := flushReports (releaseMirrors (twinLossRenew (enterCon s 3 [St.CON_DETACHED])))

/-! ### Takeover (R146, R408, R448, R449) -/

/-- The twin's pages become this member's: mirror frames are frames like others, and entries in FLASH are LOST (R222, R449). -/
def adoptPages (s : State) (keep : Nat → Bool) : State :=
  (s.con.mir.ptes.filter (fun e => keep (pageReq e.1))).foldl (fun s e =>
    let p := if e.2.state = 2 then { e.2 with state := 4, flash := 0 } else e.2
    let s1 := setPte s e.1 p
    if e.2.state = 1 then setFrame s1 e.2.frame ⟨kvaAge s, some e.1, false⟩ else s1) s

/-- Roots and requests of the mirror that a test keeps, taken over; `lease` keeps the LEASE they were mirrored with. -/
def adoptRequests (s : State) (keep : Nat → Bool) (lease : Bool) : State :=
  (s.con.mir.roots.filter (fun e => keep e.1)).foldl (fun s e =>
    let req := e.1
    let m := s.con.mir
    let s1 := { s with
      kva := { s.kva with roots := tset s.kva.roots req (if lease then e.2 else { e.2 with lease := 0 }) }
      smp := { s.smp with
        counts := match tget m.counts req with
          | some c => tset s.smp.counts req c
          | none => s.smp.counts
        trees := match tget m.trees req with
          | some c => tset s.smp.trees req c
          | none => s.smp.trees } }
    match tget m.reqs req with
    | some r =>
      let q : Req := { r with committed := e.2.committed, doubt := !lease && e.2.lease != 0, rootOnly := (tget m.trees req).isNone }
      { s1 with sch := { s1.sch with reqs := tset s1.sch.reqs req q } }
    | none => s1) s

/-- What of the mirror a test keeps stays; the rest goes from it. -/
def dropMirror (s : State) (keep : Nat → Bool) : State :=
  let m := s.con.mir
  { s with con := { s.con with mir := { m with
    roots := tkeep (fun k _ => keep k) m.roots
    reqs := tkeep (fun k _ => keep k) m.reqs
    ptes := tkeep (fun k _ => keep (pageReq k)) m.ptes
    counts := tkeep (fun k _ => keep k) m.counts
    trees := tkeep (fun k _ => keep k) m.trees
    transits := tkeep (fun k _ => keep k) m.transits } } }

/-- Home records and holders of the twin's homes (R408): every holder that the marks name, and every member of a group that owns
a record, counts as renewed. -/
def adoptHomes (s : State) : State :=
  let m := s.con.mir
  let s1 := m.homes.foldl (fun s e => { s with dtm := { s.dtm with homes := tset s.dtm.homes e.1 e.2 } }) s
  let s2 := m.holders.foldl (fun s e => { s with dtm := { s.dtm with holders := tset s.dtm.holders e.1 ⟨true, e.2.1, e.2.2⟩ } }) s1
  ((m.homes.map (fun e => e.2.owner)).dedup.flatMap (fun g => (members s.dtm.map g).map (fun p => p.1))).dedup.foldl (fun s n =>
    let h := tgetD s.dtm.holders n ⟨false, false, false⟩
    { s with dtm := { s.dtm with holders := tset s.dtm.holders n { h with live := true } } }) s2

/-- A Traverse of the twin goes on here (R433): as source leader it sends OPEN again, as destination member it asks for the legs
that its entries lack. -/
def adoptTransit (s : State) (req : Nat) (ws : List Word) : State :=
  let s1 := bump s F.TRV_RESUME_CNT_COUNT
  if (travOf s1 req).isSome then s1
  else
    let t : Trav := { freshTrav ws with made := false }
    let mine := (tget s.con.mir.reqs req).elim (tSrc ws) (fun r => r.group)
    if mine = tDst ws then
      runLegs (pin (setTrav s1 req { t with member := decide (planOf ws ≠ 3), dst := leads s1 (tDst ws) }) req) req
    else if leads s1 (tSrc ws) then openTo (pin s1 req) req { t with src := .waiting } (tDst ws)
    else pin s1 req

/-- A take that the twin had voted for, or may have: in doubt here (R146). -/
def adoptIntent (s : State) (x : Nat) (i : MirIntent) : State :=
  if i.ref.node = x then s
  else
    let sl := blockSlate i.slate
    let acts := partActions sl i.part
    match partOf s i.ref with
    | some p => setPart s i.ref { p with actions := p.actions ++ acts, state := .doubt false }
    | none =>
      match chooseFrames s acts [] with
      | none => s
      | some frames =>
        let p : PartTake := ⟨i.stamp, i.part, sl.epoch, .block, sl.nodes, acts, frames, .doubt false,
          sumNat (acts.map (fun a => intentsOf a.2.act)), []⟩
        let s1 := setPart (bump s F.TAK_INDOUBT_CNT_COUNT) i.ref p
        let s2 := { s1 with tak := { s1.tak with locks := s1.tak.locks ++ neededLocks i.ref acts frames } }
        send s2 i.ref.node 0 .inquiry [mkWord [(0, 20, i.ref.node), (20, 24, i.ref.id)], BitVec.ofNat 64 i.stamp]

/-- The twin's decisions sent again to their participants, this controller among them (R146). -/
def resendDecision (s : State) (x : Nat) (d : MirDecision) : State :=
  let kind := if d.status = St.OK then MsgKind.commit else MsgKind.abort
  let s1 := sendAll s ((d.nodes.filter (fun n => n != x && n != self s)).map (fun n =>
    (n, kind, [mkWord [(0, 24, d.takeId), (24, 20, x)], BitVec.ofNat 64 d.stamp])))
  if d.nodes.contains (self s) then finishPart s1 ⟨x, d.takeId⟩ (d.status == St.OK) else s1

/-- CLAIM to every home of the twin's requests (R409). -/
def sendClaims (s : State) (x : Nat) (homes : List Nat) : State :=
  homes.foldl (fun s h =>
    let q := s.dtm.seq
    sendDtm { s with dtm := { s.dtm with
      claims := tset s.dtm.claims h q
      leases := if thas s.dtm.leases h then s.dtm.leases else tset s.dtm.leases h ⟨false, none⟩ } } h 3 false 0 x) s

/-- Steps 2 to 4 of R448; a planned handover posts no CON_TAKEOVER (R452). -/
def takeover (s : State) (planned : Bool) : State :=
  match twin s with
  | none => s
  | some x =>
    let s1 := bump (enterCon s 2 (if planned then [St.CON_EXPOSED] else [St.CON_TAKEOVER, St.CON_EXPOSED])) F.CON_TAKEOVER_CNT_COUNT
    let s2 := twinLossRenew s1
    let m := s2.con.mir
    let reqs := (m.roots.filter (fun e => e.2.lease != 0)).map (fun e => e.1)
    let s3 := { s2 with con := { s2.con with both := true, claimed := reqs } }
    let s4 := adoptHomes (adoptRequests (adoptPages s3 (fun _ => true)) (fun _ => true) false)
    let s5 := m.transits.foldl (fun s e => adoptTransit s e.1 e.2) s4
    let s6 := m.intents.foldl (fun s i => adoptIntent s x i) s5
    let s7 := m.decisions.foldl (fun s d => resendDecision s x d) s6
    let s8 := sendClaims s7 x ((reqs.map (homeOf s7.dtm.map)).dedup)
    flushReports (releaseMirrors (dropMirror s8 (fun _ => false)))

/-- PROBE_TIMEOUT (R446, R448). -/
def probeTimeout (s : State) : State :=
  whenUp s (fun s =>
    if s.con.probing then
      if conState s = 1 then takeover s false else { s with con := { s.con with probing := false } }
    else s)

/-- PROBE_REPLY (R446, R451): an echo means a sideband fault; a CON_STAT read with no echo, DETACHED; and once both have taken
over, SPLIT. -/
def probeReply (s : State) (r : ProbeAnswer) : State :=
  whenUp s (fun s =>
    if !s.con.probing then s
    else
      let s1 := { s with con := { s.con with probing := false } }
      match r with
      | .echo =>
        if conState s1 = 1 then
          openEvent (wr { s1 with con := { s1.con with misses := 0, good := 0 } } F.CON_STAT_SIDEBAND_OK 0) .error
            St.CON_SIDEBAND_FAIL noUnit 0 0
        else s1
      | .status w =>
        if conState s1 = 1 then detach s1
        else if conState s1 = 2 ∧ bits w 63 61 = 2 then twinLossRenew (enterCon s1 6 [St.CON_SPLIT])
        else s1)

/-! ### Reintegration at the active member (R453–R455) -/

/-- Records of every page of one page table, with the contents of those in HBM (R453 phase 2). -/
def pageRecords (s : State) (ptes : Tbl Pte) : List MirrorBody :=
  ptes.flatMap (fun e =>
    .entry (pageOfKey e.1) (pteWord0 e.2) (pteWord1 e.2) ::
      (if e.2.state = 1 then
        [.rows (pageOfKey e.1) 0 (readMem s (frameAddr s e.2.frame) (frameSize e.2.cls)) 0 (readMem s (scaleAddr s e.2.frame) 2048)]
       else []))

/-- Everything that phase 2 copies (R453): the primary and mirror state of both sets, and open takes. -/
def bulkRecords (s : State) : List MirrorBody :=
  let m := s.con.mir
  (s.kva.roots.map (fun e => .root e.1 (rootWords s e.1 e.2))) ++ pageRecords s s.kva.ptes ++ pageRecords s m.ptes ++
  ((s.smp.counts ++ m.counts).map (fun e => .counts e.1 (e.2.map (fun x => (x.1, x.2.1, x.2.2))))) ++
  ((s.dtm.homes ++ m.homes).map (fun e => .home e.1 (some (homeWords e.1 e.2)))) ++
  ((s.trv.trav.filter (fun e => e.2.repair.isNone)).map (fun e => .transit e.1 e.2.words)) ++
  ((s.tak.part.filter (fun p => isPrepared p.2)).map (fun p =>
    .intent p.1 p.2.stamp p.2.part (slateWords ⟨p.2.nodes, 0, p.2.epoch, p.2.actions.map (fun a => a.2)⟩ (fun _ => true)))) ++
  ((s.tak.coord.filter (fun e => e.2.state == .announced)).map (fun e => .decision e.1 e.2.stamp e.2.status e.2.slate.nodes))

/-- A record sent live, in pieces, whatever STATE. -/
def sendNow (s : State) (b : MirrorBody) : State :=
  (splitBody b).foldl (fun s b =>
    sendMirror { s with con := { s.con with mseq := (s.con.mseq + 1) % 2 ^ 48, unacked := s.con.unacked ++ [⟨s.con.mseq, b⟩] } }
      s.con.mseq b) s

/-- Phase 2 begins (R453): the log is empty, and everything is copied. -/
def startBulk (s : State) : State :=
  let rs := bulkRecords s
  let gib := ceilDiv (sumNat (rs.map bodyBytes)) (2 ^ 30)
  rs.foldl sendNow (wr (wr (wr { s with con := { s.con with delta := [] } } F.CON_STAT_PHASE 2) F.CON_BULK_PROG_TOTAL_GIB gib)
    F.CON_BULK_PROG_DONE_GIB 0)

/-- SUPPLYING, phase 1 (R453). -/
def startSupply (s : State) : State :=
  let s1 := if conState s = 4 then s else enterCon s 4 [St.CON_EXPOSED]
  wr { s1 with con := { s1.con with mseq := 0, unacked := [], delta := [], waiting := none, cutover := 0, applied := 0, early := [] } }
    F.CON_STAT_PHASE 1

/-- Whether a command of CON_CMD runs (R458). -/
def conBusy (s : State) : Bool := (s.con.yielding != 0 && s.con.yielding != 5) || (conState s == 4 && decide (2 ≤ conPhase s))

/-- REINTEGRATE (R453, R458): phase 1's comparison with the returning twin, and phase 2 when the CRCs match. -/
def reintegrate (s : State) (crcMatch : Bool) : State :=
  bar0 s (fun s => whenUp s (fun s =>
    if conBusy s then conStatus s St.CON_CMD_BUSY
    else if conState s = 2 ∨ conState s = 3 ∨ conState s = 4 then
      let s1 := startSupply s
      if crcMatch then conStatus (startBulk s1) St.OK else conStatus s1 St.CON_CFG_MISMATCH
    else s))

/-- REINT_BULK_DONE (R453). -/
def replayPass (s : State) : State :=
  s.con.delta.foldl (fun s r => sendMirror { s with con := { s.con with unacked := s.con.unacked ++ [r] } } r.mseq r.body)
    { s with con := { s.con with delta := [] } }

/-- REINT_BULK_DONE (R453): the copy is done, and the first replay pass runs. -/
def reintBulkDone (s : State) : State :=
  whenUp s (fun s =>
    if conState s = 4 ∧ conPhase s = 2 then
      replayPass (wr (wr s F.CON_STAT_PHASE 3) F.CON_BULK_PROG_DONE_GIB (rd s F.CON_BULK_PROG_TOTAL_GIB))
    else s)

/-- The slate of a map change of one entry, proposed here (R393): the keeper and the changed controller take part, and each gets
one entry for it and one for the benchmark. -/
def entrySlate (s : State) (node : Nat) (e : List Word) (extra : List Action) : Slate :=
  let nodes := [self s, kKeeper (mapGet s.dtm.map benchmark), node].dedup
  let acts := (List.range nodes.length).flatMap (fun p =>
    [(⟨p, ⟨kMap, 0, benchmark⟩, .mapEntry (epoch s) (mapGet s.dtm.map benchmark)⟩ : Action),
     ⟨p, ⟨kMap, 0, node⟩, .mapEntry (epoch s) e⟩])
  let sl : Slate := ⟨nodes, 0, epoch s, acts⟩
  { sl with actions := sl.actions ++ extra.map (fun a => { a with part := (nodes.findIdx? (· == node)).getD 0 }) }

/-- A map entry with another STATE. -/
def withState (e : List Word) (st : Nat) : List Word := e.set 0 (setFld (wordAt e 0) 43 2 st)

/-- Step 1 of R454: the rejoin mark. -/
def rejoinMark (s : State) (t : Nat) : State :=
  startTake { s with con := { s.con with cutover := 1 } } (entrySlate s t (withState (mapGet s.dtm.map t) 2) []) .rejoin .block 15

/-- REINT_REPLAY_PASS_DONE (R453): another pass, or the cutover. -/
def reintReplayPassDone (s : State) : State :=
  whenUp s (fun s =>
    match twin s with
    | none => s
    | some t =>
      if conState s ≠ 4 ∨ conPhase s < 3 ∨ s.con.cutover ≠ 0 then s
      else if sumNat (s.con.delta.map (fun r => 16 + bodyBytes r.body)) < rd s F.CON_CFG_DRAIN_KIB * 1024 then
        rejoinMark (wr s F.CON_STAT_PHASE 4) t
      else replayPass s)

/-- The rejoin mark has ended (R454 steps 2 to 4): records wait from its commit on, the log is drained, and the cutover take
follows; after an abort phase 4 begins again with the next pass. -/
def rejoinEnded (s : State) (st : Status) : State :=
  match twin s with
  | none => s
  | some t =>
    if conState s ≠ 4 ∨ s.con.cutover ≠ 1 then s
    else if st ≠ St.OK then { s with con := { s.con with cutover := 0 } }
    else
      let s1 := replayPass s
      let s2 := { s1 with con := { s1.con with waiting := some [], cutover := 2 } }
      startTake s2 (entrySlate s2 t (withState (mapGet s2.dtm.map t) 1)
        [⟨0, ⟨kRegion, 0x11, self s⟩, .check (some ((2 ^ 32 + s1.con.mseq - 1) % 2 ^ 32))⟩]) .cutover .block 15

/-- A table with entries of another put over its own. -/
def tputs {α : Type} (t es : Tbl α) : Tbl α := es.foldl (fun t e => tset t e.1 e.2) t

/-- Requests of the returning twin's group leave this member's own state for the mirror (R30, R454 step 6). -/
def yieldBack (s : State) (g : Nat) : State :=
  let mine := (s.sch.reqs.filter (fun e => e.2.group == g)).map (fun e => e.1)
  let m := s.con.mir
  let t := (twin s).getD 0
  let theirs := s.dtm.homes.filter (fun e => homeOf s.dtm.map e.1 == t)
  let mir : Mirror := { m with
    roots := tputs m.roots (tkeep (fun k _ => mine.contains k) s.kva.roots)
    reqs := tputs m.reqs (tkeep (fun k _ => mine.contains k) s.sch.reqs)
    ptes := tputs m.ptes (tkeep (fun k _ => mine.contains (pageReq k)) s.kva.ptes)
    counts := tputs m.counts (tkeep (fun k _ => mine.contains k) s.smp.counts)
    trees := tputs m.trees (tkeep (fun k _ => mine.contains k) s.smp.trees)
    homes := tputs m.homes theirs
    holders := tputs m.holders (s.dtm.holders.map (fun e => (e.1, (e.2.twinLoss, e.2.revoked))))
    transits := tputs m.transits ((tkeep (fun k _ => mine.contains k) s.trv.trav).map (fun e => (e.1, e.2.words))) }
  let s1 := { s with con := { s.con with mir := mir } }
  { s1 with
    kva := { s1.kva with
      roots := tkeep (fun k _ => !mine.contains k) s1.kva.roots
      ptes := tkeep (fun k _ => !mine.contains (pageReq k)) s1.kva.ptes
      frames := tmap (fun _ f => if f.page.any (fun k => mine.contains (pageReq k)) then { f with mirror := true } else f) s1.kva.frames }
    sch := { s1.sch with reqs := tkeep (fun k _ => !mine.contains k) s1.sch.reqs }
    smp := { s1.smp with
      counts := tkeep (fun k _ => !mine.contains k) s1.smp.counts
      trees := tkeep (fun k _ => !mine.contains k) s1.smp.trees }
    trv := { s1.trv with trav := tkeep (fun k _ => !mine.contains k) s1.trv.trav }
    dtm := { s1.dtm with homes := tkeep (fun k _ => !theirs.any (fun e => e.1 == k)) s1.dtm.homes } }

/-- Both members become PAIRED (R454 step 5): MSEQ restarts at 0, and the records that waited are sent live. -/
def becomePaired (s : State) : State :=
  let ws := s.con.waiting.getD []
  let s1 := wr (enterCon { s with con := { s.con with
      mseq := 0, unacked := [], delta := [], waiting := none, applied := 0, early := [], cutover := 0, both := false, held := false,
      overdue := false, confirmed := [] } } 1 []) F.CON_STAT_PHASE 0
  flushReports (ws.foldl (fun s r => mirrorOne s r.body) (openEvent s1 .twinChange St.CON_REJOINED noUnit 0 0))

/-- The cutover take has ended (R454). -/
def cutoverEnded (s : State) (st : Status) : State :=
  match twin s with
  | none => s
  | some t =>
    if conState s ≠ 4 ∨ s.con.cutover ≠ 2 then s
    else if st = St.OK then becomePaired (yieldBack s (eGroup (mapGet s.dtm.map t)))
    else
      let ws := s.con.waiting.getD []
      let s1 := ws.foldl (fun s r => mirrorOne s r.body) { s with con := { s.con with waiting := none, cutover := 0 } }
      startTake s1 (entrySlate s1 t (withState (mapGet s1.dtm.map t) 1) []) .plain .block 15

/-- The returning member's own set becomes its own again when its entry moves from REJOIN to SERVING (R454 steps 5 and 6). -/
def rejoined (old : DMap) (s : State) : State :=
  let was := eState (mapGet old (self s))
  if was = 2 ∧ eState (ownEntry s) = 1 ∧ (conState s = 5 ∨ conState s = 4) then
    let own (req : Nat) : Bool := (tget s.con.mir.reqs req).any (fun r => r.group == ownGroup s)
    let homes := s.con.mir.homes.filter (fun e => homeOf s.dtm.map e.1 == self s)
    let s1 := adoptRequests (adoptPages s own) own true
    let s2 := (s1.con.mir.transits.filter (fun e => own e.1)).foldl (fun s e => adoptTransit s e.1 e.2) s1
    let s3 := homes.foldl (fun s e => { s with dtm := { s.dtm with homes := tset s.dtm.homes e.1 e.2 } }) s2
    let s4 := dropMirror s3 (fun r => !own r)
    becomePaired { s4 with con := { s4.con with mir := { s4.con.mir with
      homes := tkeep (fun k _ => !homes.any (fun e => e.1 == k)) s4.con.mir.homes } } }
  else s

/-- A full delta log (R453): CON_DELTA_FULL, and phase 2 again. -/
def deltaFull (s : State) : State :=
  if conState s = 4 ∧ 2 ≤ conPhase s ∧ s.con.waiting.isNone ∧
      rd s F.CON_DELTA_SIZE_GIB * 2 ^ 30 < sumNat (s.con.delta.map (fun r => 16 + bodyBytes r.body)) then
    startBulk (openEvent { s with con := { s.con with cutover := 0 } } .error St.CON_DELTA_FULL noUnit 0 0)
  else s

/-- A restart of reintegration (R455). -/
def reintRestart (s : State) : State :=
  openEvent (bump s F.CON_REINT_CNT_COUNT) .error St.CON_REINT_RESTART noUnit 0 0

/-! ### Enabling (R439, R458), and what follows a change of the map -/

/-- Continuity starts, with a twin in the map: a member that owns requests is EXPOSED until the twin returns; one that owns none
returns itself. DESIGN CHOICE (log entry 76): the spec does not say how a pair that has never been paired becomes so. -/
def conStart (s : State) : State :=
  if conState s ≠ 0 ∨ rd s F.CON_CTL_EN = 0 ∨ (liveTwin s).isNone then s
  else
    let s1 := wr { s with con := { s.con with misses := 0, lags := 0, held := false } } F.CON_STAT_SIDEBAND_OK 1
    if (ownLeases s1).isEmpty then enterCon s1 5 [] else twinLossRenew (enterCon s1 2 [St.CON_EXPOSED])

/-- Continuity stops: OFF. -/
def conStop (s : State) : State :=
  if conState s = 0 then s
  else
    let c : ConState := { s.con with
      waiting := none, unacked := [], delta := [], cutover := 0, held := false, overdue := false, probing := false }
    releaseMirrors (wr (wr (enterCon { s with con := c } 0 []) F.CON_STAT_SIDEBAND_OK 0) F.CON_STAT_PHASE 0)

/-- The mirror region and the delta log lie in HBM, in no suspect granule (R475). -/
def conRegionsOk (s : State) : Bool :=
  regionOk s (rd s F.CON_MIRROR_BASE_MIB * 2 ^ 20) (rd s F.CON_MIRROR_SIZE_MIB * 2 ^ 20) &&
    regionOk s (rd s F.CON_DELTA_BASE_MIB * 2 ^ 20) (rd s F.CON_DELTA_SIZE_GIB * 2 ^ 30)

/-- CON_ENABLE (R458): a write to CON_CTL. EN stays 0 while a region is not good (DEDUCED, log entry 132, from R475, which names the check and not
its outcome). -/
def conEnable (s : State) (w : Word) : State :=
  bar0 s (fun s =>
    let s1 := wr s F.CON_CTL_AUTO_REINT (bits w 62 62)
    if bit w 63 then
      if rd s F.CON_CTL_EN = 1 || conRegionsOk s then conStart (wr s1 F.CON_CTL_EN 1) else s1
    else flushReports (conStop (wr s1 F.CON_CTL_EN 0)))

/-- What Continuity does after the map changed. -/
def conMapSettle (old : DMap) (s : State) : State :=
  if old = s.dtm.map then s
  else if conState s ≠ 0 ∧ (liveTwin s).isNone then flushReports (conStop s)
  else conStart (rejoined old s)

/-! ### Yield (R452) -/

/-- A yield begins: every request is held. -/
def beginYield (s : State) : State := { s with con := { s.con with yielding := 1 } }

/-- YIELD (R452, R458). -/
def yield (s : State) : State :=
  bar0 s (fun s =>
    if conBusy s then conStatus s St.CON_CMD_BUSY
    else if conState s ≠ 1 then conStatus s St.CON_NOT_PAIRED
    else beginYield s)

/-- A yield goes on: beats with YIELD once every record is acknowledged, and the command's end once the last lease has lapsed
(R452). -/
def yieldSettle (s : State) : State :=
  if s.con.yielding = 1 ∧ s.con.unacked.isEmpty then { s with con := { s.con with yielding := 2 } }
  else if s.con.yielding = 4 ∧ (tvals s.dtm.leases).all (fun l => !l.live) then
    conStatus { s with con := { s.con with yielding := 5 } } St.OK
  else s

/-! ### A beat arrives (R437, R438, R445, R446, R451–R453, R455) -/

/-- What a valid beat's STATE and YIELD bring about. -/
def seeTwin (s : State) (before misses : Nat) (w : Word) : State :=
  let st := bits w 34 32
  if bit w 35 ∧ conState s = 1 then takeover s true
  else if st = 3 ∧ conState s = 1 then detach s
  else if st = 5 ∧ (conState s = 2 ∨ conState s = 3) ∧ rd s F.CON_CTL_AUTO_REINT = 1 then startSupply s
  else if st = 5 ∧ conState s = 4 ∧ 2 ≤ conPhase s ∧ 3 ≤ misses then startSupply (reintRestart s)
  else if st = 5 ∧ conState s = 5 then
    let s1 := if before = 4 then reintRestart (dropMirror s (fun _ => false)) else s
    becomePaired s1
  else if st = 2 ∧ conState s = 2 ∧ !s.con.probing then probe s
  else s

/-- BEAT (R437, R438, R445, R446): one that is not valid does nothing. -/
def beat (s : State) (sideband : Bool) (w : Word) : State :=
  whenUp s (fun s =>
    if conState s = 0 then s
    else if !beatValid w then (if sideband then { s with con := { s.con with good := 0 } } else s)
    else
      let lag := decide (3 ≤ (s.con.beatSeq + 2 * 2 ^ 16 - 1 - bits w 31 16) % 2 ^ 16)
      let lags := if lag then s.con.lags + 1 else 0
      let good := if sideband && rd s F.CON_STAT_SIDEBAND_OK == 0 then s.con.good + 1 else 0
      let s1 := { s with con := { s.con with
        seen := bits w 15 0, misses := 0, lags := lags, twinState := bits w 34 32, held := decide (2 ≤ lags), good := good } }
      let s2 := if 1000 ≤ good then wr { s1 with con := { s1.con with good := 0 } } F.CON_STAT_SIDEBAND_OK 1 else s1
      flushReports (seeTwin s2 s.con.twinState s.con.misses w))

/-! ### The mirror at the twin (R440–R442, R456) -/

/-- A frame for the mirror, by a local take, after eviction if need be (R442). -/
def mirrorFrame (s : State) (cls : Nat) : Option (State × Nat) :=
  let s1 := if (freeFrame s cls []).isSome then s else evictClass s cls
  match freeFrame s1 cls [] with
  | none => none
  | some f =>
    let s2 := localTake s1 [⟨0, ⟨kFrame, 0, 0⟩, .alloc cls⟩]
    if thas s2.kva.frames f then some (setFrame s2 f ⟨kvaAge s2, none, true⟩, f) else none

/-- A mirror frame returns to the pool by a local take. -/
def freeMirror (s : State) (e : Pte) : State :=
  if e.state = 1 then localTake s [⟨0, frameObj e.frame, .free⟩] else s

/-- The mirror changed. -/
def modMir (s : State) (f : Mirror → Mirror) : State := { s with con := { s.con with mir := f s.con.mir } }

/-- An ENTRY record (R441): the frame it names is this controller's own. None: no frame (R442). -/
def mirrorEntry (s : State) (k : Nat) (w0 w1 : Word) : Option State :=
  let old := tgetD s.con.mir.ptes k pteNone
  let e : Pte := ⟨0, bits w0 47 32, bits w0 50 48, bits w0 52 51, bit w0 53, bits w1 35 0, bits w1 43 36, bits w1 51 44⟩
  let put (s : State) (e : Pte) : State := modMir s (fun m => { m with ptes := tset m.ptes k e })
  if e.state = 1 then
    if old.state = 1 ∧ old.cls = e.cls then some (put s { e with frame := old.frame })
    else
      match mirrorFrame (freeMirror s old) e.cls with
      | some (s1, f) => some (put s1 { e with frame := f })
      | none => none
  else some (put (freeMirror s old) e)

/-- A state in which the mirror stands in the place of this controller's own pages and counts, to run the splice on; nothing it
sends leaves. -/
def mirrorScratch (s : State) : State :=
  wr { s with
    kva := { s.kva with ptes := s.con.mir.ptes, roots := s.con.mir.roots }
    smp := { s.smp with counts := s.con.mir.counts }
    con := { s.con with waiting := none } } F.CON_STAT_STATE 0

/-- A COMMIT record (R441): the splice copies, COMMITTED, the counts, and the next tree. -/
def mirrorCommit (s : State) (req : Nat) (accepted : List Nat) (committed : Nat) (counted tree : List Nat) : State :=
  match tget s.con.mir.roots req with
  | none => s
  | some root =>
    let r := tget s.con.mir.reqs req
    let standin := r.any (fun q => q.onStandin)
    let model := r.elim root.model (fun q => if standin then q.standin.getD q.model else q.model)
    let x := countTokens (spliceCopies (mirrorScratch s) req model (committed - accepted.length) accepted standin) req model counted
    modMir { s with hbm := x.hbm, mem := x.mem } (fun m => { m with
      roots := tset m.roots req { root with committed := committed }
      reqs := tmod m.reqs req (fun q => { q with committed := committed, pos := q.pos + counted.length, made := q.made + counted.length })
      counts := x.smp.counts
      trees := tset m.trees req tree })

/-- A record applied to the mirror (R441); none where no mirror frame can be had (R442). -/
def applyMirror (s : State) (b : MirrorBody) : Option State :=
  match b with
  | .rows p off bs soff sc =>
    let e := tgetD s.con.mir.ptes (keyOfPage p) pteNone
    some (if e.state = 1 then writeMem (writeMem s (frameAddr s e.frame + off) bs) (scaleAddr s e.frame + soff) sc else s)
  | .entry p w0 w1 => mirrorEntry s (keyOfPage p) w0 w1
  | .root req ws => some (modMir s (fun m => { m with
      roots := tset m.roots req (rootOfWords ws)
      reqs := match reqOfWords ws with
        | some q => tset m.reqs req q
        | none => m.reqs }))
  | .commit req _ acc n counted tree => some (mirrorCommit s req acc n counted tree)
  | .counts req es => some (modMir s (fun m => { m with
      counts := tset m.counts req (es.foldl (fun t e => tset t e.1 (e.2.1, e.2.2)) (tgetD m.counts req [])) }))
  | .intent id stamp part slate => some (modMir s (fun m => { m with
      intents := m.intents.filter (fun i => i.ref != id) ++ [⟨id, stamp, part, slate⟩] }))
  | .decision id stamp st nodes => some (modMir s (fun m => { m with
      decisions := m.decisions.filter (fun d => d.takeId != id) ++ [⟨id, stamp, st, nodes⟩] }))
  | .home req rec => some (modMir s (fun m => { m with
      homes := match rec with
        | some ws => tset m.homes req ⟨bits (wordAt ws 1) 31 0, bits (wordAt ws 1) 47 32, bits (wordAt ws 2) 19 0, bits (wordAt ws 2) 43 20⟩
        | none => tdel m.homes req }))
  | .transit req ws => some (modMir s (fun m => { m with
      transits := if ws.isEmpty then tdel m.transits req else tset m.transits req ws }))
  | .audit _ _ => some s
  | .release req =>
    let s1 := (s.con.mir.ptes.filter (fun e => pageReq e.1 == req)).foldl (fun s e => freeMirror s e.2) s
    some (dropMirror s1 (fun r => r != req))
  | .holder n a b => some (modMir s (fun m => { m with holders := tset m.holders n (a, b) }))
  | .reserved _ => some s

/-- The CRC-32C of a frame and its scale frame (R456). -/
def frameCrc (s : State) (e : Pte) : Nat :=
  crc32c (readMem s (frameAddr s e.frame) (frameSize e.cls) ++ readMem s (scaleAddr s e.frame) 2048)

/-- Whether an AUDIT record disagrees with the mirror frame (R456). -/
def auditBad (s : State) (b : MirrorBody) : Bool :=
  match b with
  | .audit p crc =>
    let e := tgetD s.con.mir.ptes (keyOfPage p) pteNone
    e.state == 1 && frameCrc s e != crc.toNat
  | _ => false

/-- An audit that found a mismatch, at either member (R456). -/
def auditFail (s : State) : State := openEvent (bump s F.CON_CMP_FAIL_CNT_COUNT) .error St.CON_AUDIT_MISMATCH noUnit 0 0

/-- The records that are next in MSEQ order, applied (R440); the status that the last one gives. -/
def applyEarly : Nat → State → Status → State × Status
  | 0, s, st => (s, st)
  | n + 1, s, st =>
    match s.con.early.find? (fun r => r.mseq == s.con.applied) with
    | none => (s, st)
    | some r =>
      match applyMirror s r.body with
      | none => ({ s with con := { s.con with early := s.con.early.filter (fun x => x.mseq != r.mseq) } }, St.KVA_POOL_EMPTY)
      | some s1 =>
        let s2 := { s1 with
          con := { s1.con with applied := (r.mseq + 1) % 2 ^ 48, early := s1.con.early.filter (fun x => x.mseq != r.mseq) }
          tak := { s1.tak with mseq := tset s1.tak.mseq ((twin s1).getD 0) (r.mseq % 2 ^ 32) } }
        if auditBad s r.body then applyEarly n (auditFail s2) St.CON_AUDIT_MISMATCH else applyEarly n s2 st

/-- KIND of a body (R441). -/
def kindOf : MirrorBody → Nat
  | .rows _ _ _ _ _ => 1 | .entry _ _ _ => 2 | .root _ _ => 3 | .commit _ _ _ _ _ _ => 4 | .counts _ _ => 5 | .intent _ _ _ _ => 6
  | .decision _ _ _ _ => 7 | .home _ _ => 8 | .transit _ _ => 9 | .audit _ _ => 10 | .release _ => 11 | .holder _ _ _ => 12
  | .reserved k => k

/-- MIRROR_RECORD (R440–R442, R459): applied in MSEQ order and answered with the highest MSEQ applied; a record of a reserved
kind or layout is answered with CON_BAD_RECORD, and this member enters DETACHED. Word 2 of the header is the TAG of the PUT that
brought it. -/
def mirrorRecord (s : State) (hdr : List Word) (body : MirrorBody) : State :=
  whenUp s (fun s =>
    match twin s with
    | none => s
    | some t =>
      if conState s = 0 ∨ conState s = 2 ∨ conState s = 6 then s
      else
        let mseq := bits (wordAt hdr 0) 47 0
        let kind := bits (wordAt hdr 0) 55 48
        let tag := bits (wordAt hdr 2) 31 0
        let answer (s : State) (st : Status) : State :=
          respond s t 4 tag (mkWord [(0, 16, st.toNat), (16, 48, (2 ^ 48 + s.con.applied - 1) % 2 ^ 48)]) []
        if bits (wordAt hdr 0) 63 56 ≠ 0 ∨ bits (wordAt hdr 1) 63 12 ≠ 0 ∨ 4080 < bits (wordAt hdr 1) 11 0 ∨ kind ≠ kindOf body ∨
            kind = 0 ∨ 13 ≤ kind then
          let s1 := answer s St.CON_BAD_RECORD
          if conState s = 1 then detach s1 else s1
        else if mseq < s.con.applied then answer s St.OK
        else
          let s1 := { s with con := { s.con with early := s.con.early.filter (fun r => r.mseq != mseq) ++ [⟨mseq, body⟩] } }
          let r := applyEarly s1.con.early.length s1 St.OK
          answer r.1 r.2)

/-! ### Compare mode (R456, R457) -/

/-- AUDIT_TICK (R456): the next primary frame, by rising frame number. -/
def auditTick (s : State) : State :=
  whenUp s (fun s =>
    if conState s ≠ 1 ∨ rd s F.CON_CMP_CFG_EN = 0 then s
    else
      let mine := s.kva.frames.filter (fun f => f.2.page.isSome && !f.2.mirror)
      match (mine.find? (fun f => decide (s.con.auditAt ≤ f.1))).orElse (fun _ => mine.head?) with
      | none => s
      | some (f, x) =>
        let k := x.page.getD 0
        mirrorRec { s with con := { s.con with auditAt := f + 1 } } (.audit (pageOfKey k) (BitVec.ofNat 32 (frameCrc s (pteOf s k)))))

/-- The KERNEL_RUN that the probe makes (R457). -/
def probeDesc (s : State) : Desc :=
  ⟨0, 0, mkWord [(0, 12, rd s F.CON_CMP_CFG_KHANDLE), (32, 32, rd s F.CON_CMP_TENS0_A)],
    mkWord [(0, 32, rd s F.CON_CMP_TENS0_B), (32, 32, rd s F.CON_CMP_TENS1_C)], 0, 0, 0, 0⟩

/-- The status of the first check of R162 that the probe fails, for the context that owns the kernel. -/
def probeCheck (s : State) : Option Status :=
  let c := (tget s.mxe.kernels (rd s F.CON_CMP_CFG_KHANDLE)).elim 0 (fun k => k.ctx)
  (firstFail (runChecks s ⟨c, 0, 0⟩ (probeDesc s))).map (fun c => c.st)

/-- COMPARE_PROBE (R457): the CRC-32C of C against EXPECT; a probe whose tensors fail a check is skipped. -/
def compareProbe (s : State) (crc : BitVec 32) : State :=
  whenUp s (fun s =>
    if conState s ≠ 1 ∨ rd s F.CON_CMP_CFG_EN = 0 then s
    else
      match probeCheck s with
      | some st => conStatus s st
      | none =>
        if crc.toNat = rd s F.CON_CMP_TENS1_EXPECT then s
        else
          let s1 := openEvent (bump s F.CON_CMP_FAIL_CNT_COUNT) .error St.CON_PROBE_FAIL noUnit 0 0
          if rd s F.CON_CMP_CFG_YIELD_ON_FAIL = 1 ∧ s1.con.yielding = 0 then beginYield s1 else s1)

/-! ### Answers (R409, R412, R447) -/

/-- Requests of the twin that a home did not grant (R409, R451): dropped, their state freed. -/
def dropClaimed (s : State) (home : Nat) : State :=
  let gone := s.con.claimed.filter (fun r => homeOf s.dtm.map r == home)
  gone.foldl (fun s r =>
    let s1 := freePages s r
    { s1 with
      sch := { s1.sch with reqs := tdel s1.sch.reqs r }
      trv := { s1.trv with trav := tdel s1.trv.trav r, pins := s1.trv.pins.filter (· != r) }
      con := { s1.con with claimed := s1.con.claimed.filter (· != r) } }) s

/-- The ANSWER to a CLAIM (R409). -/
def answerForClaim (s : State) (src : Nat) (w : List Word) : State :=
  let done := { s with dtm := { s.dtm with claims := tdel s.dtm.claims src } }
  if mSt w = St.OK then done
  else if mSt w = St.DTM_STALE_MAP ∨ mSt w = St.DTM_NOT_HOME then
    sendClaims (send done src 0 .mapFetch [at' 0 32 (epoch s)]) ((twin s).getD 0)
      (((s.con.claimed.filter (fun r => homeOf s.dtm.map r == src)).map (homeOf s.dtm.map)).dedup)
  else dropClaimed done src

/-- ANSWER (R405, R409, R412, R443, R447). -/
def answer (s : State) (src : Nat) (words : List Word) : State :=
  whenUp s (fun s =>
    if dtmBad words ∨ mKind words ≠ 4 then s
    else if mReq words ≠ 0 then answerForQuery s src words
    else if tget s.dtm.claims src = some (mSeq words) then answerForClaim s src words
    else
      let lost := if exposed s && mSt words == St.DTM_LEASE_REVOKED && (tget s.dtm.leases src).any (fun l => l.asked == some (mSeq words))
        then (ownLeases s).filter (fun r => homeOf s.dtm.map r == src) else []
      let s1 := lost.foldl (fun s r =>
        freePages { s with smp := { s.smp with results := tdel s.smp.results r } } r) (answerForRenew s src words)
      flushReports s1)

/-- CLAIM_RESEND (R408): no answer within the response limit; the same CLAIM goes to the home as the map now names it. -/
def claimResend (s : State) (home seq : Nat) : State :=
  whenUp s (fun s =>
    if tget s.dtm.claims home = some seq then
      sendClaims { s with dtm := { s.dtm with claims := tdel s.dtm.claims home } } ((twin s).getD 0) [home]
    else s)

end Sys2Proof.Machine
end

