-- ==== Sys2Proof/Machine/Clk.lean ====
section
/-! DEFINITION. Resets, clocks, power states and granules (R460–R480, R531–R535). -/

namespace Sys2Proof.Machine

open Sys2Proof

/-! ### What a reset keeps (R474, R518) -/

/-- The kinds of the retirement list (R506, R518): a pseudo-channel, a stack, a macro, a row of a pseudo-channel, a row of a macro
that waits for its spare row, and one that has it. -/
def rkPc : Nat := 3
def rkStack : Nat := 4
def rkMacro : Nat := 5
def rkHbmRow : Nat := 19
def rkSramRow : Nat := 21
def rkSramDone : Nat := 37

/-- Units of a kind on the list, in the order of its entries. -/
def listed (l : Tbl Retire) (kind : Nat) : List Nat := ((tvals l).filter (fun r => r.kind == kind)).map (fun r => r.unit)

/-- Pseudo-channels of a stack (R302). -/
def stackPcs (k : Nat) : List Nat := (List.range 64).map (fun i => 64 * k + i)

/-- Pseudo-channels retired, unless none would be left (R310). -/
def retireMore (ret : List Nat) (more : List Nat) : List Nat :=
  let u := ret ++ more.filter (fun p => !ret.contains p)
  if u.length < 512 then u else ret

/-- Pseudo-channels of a stack that are retired or SUSPECT. -/
def failing (s : State) (ret : List Nat) (k : Nat) : Nat :=
  ((stackPcs k).filter (fun p => ret.contains p || (tget s.mem.pcs p).elim false (fun i => i.suspect))).length

/-- SUSPECT pseudo-channels. -/
def suspectPcs (s : State) : List Nat := (s.mem.pcs.filter (fun e => e.2.suspect)).map (fun e => e.1)

/-- The pseudo-channels out of service after a reset (R310, R518): those listed or SUSPECT, the stacks listed or named by software,
and stacks with more than 8. -/
def retiredAtReset (s : State) : List Nat :=
  let r1 := (listed s.ras.retire rkPc ++ suspectPcs s).foldl (fun r p => retireMore r [p]) []
  let r2 := (listed s.ras.retire rkStack ++ s.mem.stackCmd).foldl (fun r k => retireMore r (stackPcs k)) r1
  ((List.range 8).filter (fun k => decide (8 < failing s r2 k))).foldl (fun r k => retireMore r (stackPcs k)) r2

/-- A pseudo-channel after a reset; its counts run since power-on. -/
def pcAfter (s : State) (poweron : Bool) (ret : List Nat) (p : Nat) : PcInfo :=
  let i := tgetD s.mem.pcs p ⟨false, false, 0, 0⟩
  ⟨false, ret.contains p, if poweron then 0 else i.rows, if poweron then 0 else i.ce⟩

/-- The pseudo-channels' table after a reset: those with an entry other than plain ACTIVE with zero counts. -/
def pcsAfter (s : State) (poweron : Bool) (ret : List Nat) : Tbl PcInfo :=
  (tkeys s.mem.pcs ++ ret).foldl (fun t p =>
    let i := pcAfter s poweron ret p
    if i = ⟨false, false, 0, 0⟩ then t else tset t p i) []

/-- The retirement list after a reset (R301, R309, R515, R518): rows of HBM leave it once they are hard-repaired, which a controller
reset does; a spare macro takes the rows of its macro with it; the other rows of macros have their spare rows. -/
def listAfter (l : Tbl Retire) (poweron : Bool) : Tbl Retire :=
  let macros := (listed l rkMacro).take 8
  (l.filter (fun e => !(e.2.kind == rkHbmRow && !poweron) &&
    !((e.2.kind == rkSramRow || e.2.kind == rkSramDone) && macros.contains e.2.unit))).map (fun e =>
      (e.1, if e.2.kind = rkSramRow then { e.2 with kind := rkSramDone } else e.2))

/-- Failed rows of the macros, by the list. -/
def sramAfter (l : Tbl Retire) : Tbl Nat :=
  (listed l rkSramDone).foldl (fun t m => tset t m (tgetD t m 0 + 1)) []

/-- Registers that a controller reset keeps: counts since power-on (R389, R541). -/
def keptRegs (s : State) (poweron : Bool) (base : State) : State :=
  if poweron then base
  else
    (List.range 8).foldl (fun b m => wri b F.BMV_MOVER_STOPS m (rdi s F.BMV_MOVER_STOPS m))
      (wr base F.MGT_THERM_STAT_ALERT_CNT (rd s F.MGT_THERM_STAT_ALERT_CNT))

/-- The matrix cores after a reset (R173): listed cores start RETIRED; the mismatch counts run since power-on. -/
def coresAfter (s : State) (poweron : Bool) : List MxCore :=
  (startCores (fun c => (listed s.ras.retire 1).contains c) 100 0).zipIdx.map (fun p =>
    if poweron then p.1 else { p.1 with mismatch := (s.mxe.cores.getD p.2 p.1).mismatch })

/-- RETIRE records of a reset (R310, R504, R524): pseudo-channels and stacks newly out of service, and macro rows repaired. -/
def resetRecords (s : State) (ret : List Nat) (b : State) : State :=
  let old (p : Nat) : Bool := (tget s.mem.pcs p).elim false (fun i => i.retired)
  let whole (k : Nat) : Bool := (stackPcs k).all ret.contains
  let gone := (List.range 8).filter (fun k => whole k && !(stackPcs k).all old)
  let pcs := ret.filter (fun p => !old p && !whole (p / 64))
  let b1 := gone.foldl (fun b k => recordRetire b St.RAS_PC_RETIRED ⟨4, k⟩ 0) b
  let b2 := pcs.foldl (fun b p => recordRetire b St.RAS_PC_RETIRED ⟨3, p⟩ 0) b1
  ((tvals s.ras.retire).filter (fun r => r.kind == rkSramRow)).foldl (fun b r =>
    recordRetire b St.RAS_ROW_REPAIR ⟨5, r.unit⟩ r.row) b2

/-! ### Resets (R472, R473) -/

/-- A reset (R473, R474): the transmitters stop, and every state but what the class keeps takes its reset value; STAGE is ROM. `last`
and `cause` go into CLK_STAT. -/
def resetMachine (s0 : State) (poweron : Bool) (last : Nat) (cause : Status) : State :=
  let s := flushRecords s0
  let ret := retiredAtReset s
  let pcs := pcsAfter s poweron ret
  let list := listAfter s.ras.retire poweron
  let lost := poweron || decide (ret.length ≠ 512 - activePc s)
  let base : State := { State.reset with
    hbm := if lost then [] else s.hbm.filter (fun c => decide (c.1 < stageBase))
    mem := { MemState.reset with
      pcs := pcs
      ue := if lost then [] else s.mem.ue
      sramRows := sramAfter list }
    clk := { ClkState.reset with
      contentsLost := lost
      crstLow := s.clk.crstLow
      porstLow := s.clk.porstLow
      railsBad := s.clk.railsBad
      busSel := s.clk.busSel
      addr := s.clk.addr }
    sec := { SecState.reset with fuses := s.sec.fuses, cores := s.sec.cores }
    ras := { s.ras with
      newest := none
      queue := []
      overflow := []
      boots := (s.ras.boots + 1) % 2 ^ 32
      retire := list
      sramSpares := 8 - min 8 (listed list rkMacro).length
      upCycles := 0
      exposedCycles := 0 }
    mgt := if poweron then MgtState.reset else s.mgt
    mxe := { MxeState.reset with cores := coresAfter s poweron }
    out := s.out ++ [.linksStop] ++ (if poweron && s.mgt.alert then [.pin 0 true] else []) ++
      (if poweron && s.mgt.trip then [.pin 1 true] else [])
    pending := s.pending
    free := s.free }
  let b1 := wr (wr (keptRegs s poweron base) F.CLK_STAT_LAST_RESET last) F.CLK_STAT_CAUSE cause.toNat
  checkReplace (resetRecords s ret b1)

/-! ### Rates and power states (R466–R471) -/

/-- TRIM holds: the power monitor, a thermal alert or FORCE (R469). -/
def trimOn (s : State) : Bool := s.clk.trimPower || s.clk.trimThermal || rd s F.CLK_PWR_CFG_FORCE == 1

/-- CORE's rate (R466, R467, R469). -/
def coreRate (s : State) : Nat :=
  if rd s F.CLK_STAT_DROOP = 1 then 1050 else if trimOn s then rd s F.CLK_PWR_CFG_CAP_MHZ else 1400

/-- CLK_STAT as the clocks stand (R468, R479). -/
def clkShow (s : State) : State :=
  let p := if s.clk.hold then 3 else if trimOn s then 1 else if !s.clk.gated.isEmpty then 2 else 0
  wr (wr (wr s F.CLK_STAT_PSTATE p) F.CLK_STAT_GATED (!s.clk.gated.isEmpty).toNat) F.CLK_STAT_CORE_MHZ (coreRate s)

/-- A cause of TRIM changed: an entry is counted (R469). -/
def trimChange (s s1 : State) : State :=
  clkShow (if !trimOn s && trimOn s1 then bump s1 F.CLK_TRIM_CNT_COUNT else s1)

/-- The clocks' state changed. -/
def modClk (s : State) (f : ClkState → ClkState) : State := { s with clk := f s.clk }

/-- A controller reset (R473), but for a thermal alert that still holds TRIM (R537). Ignored while one runs (R478). -/
def controllerResetBy (s : State) (last : Nat) (cause : Status) : State :=
  if inReset s then s
  else
    let r := resetMachine s false last cause
    trimChange r (modClk r (fun c => { c with trimThermal := r.mgt.alert }))

/-- CONTROLLER_RESET (R479): ignored without its KEY and OP. -/
def controllerReset (s : State) (w : Word) : State :=
  bar0 s (fun s => if bits w 15 8 = 0xC5 ∧ bits w 1 0 = 1 then controllerResetBy s 2 0 else s)

/-- CRST_FALL (R531); a low PORST_N overrides it (R478, R531). -/
def crstFall (s : State) : State :=
  modClk (controllerResetBy s 1 0) (fun c => { c with crstLow := true })

/-- CRST_RELEASE (R531): the boot ROM may begin. -/
def crstRelease (s : State) : State := modClk s (fun c => { c with crstLow := false })

/-- The causes of a controller fault (R472). -/
def faultCauses : List Status := [St.MEM_PC_FAIL, St.MEM_UE_OVERFLOW, St.MEM_UNCORR]

/-- A controller fault is raised: its ERROR event and record (R503), after which its reset is due. -/
def raiseFault (s : State) (cause : Status) (u : UnitRef) (d0 : Word) : State :=
  modClk (postEvent s .error cause u 0 0 d0 (Config.eventDetail (2 * s.out.length + 1)) true) (fun c => { c with fault := some cause })

/-- CONTROLLER_FAULT (R472, R473, R507): its record is written, and the controller resets. A fault that no command here raised, of
a word that only firmware reads, is raised first. -/
def controllerFault (s : State) (cause : Status) : State :=
  if !faultCauses.contains cause || inReset s then s
  else
    let s1 := if s.clk.fault = some cause then s
      else raiseFault s cause noUnit (Config.eventDetail (2 * s.out.length))
    controllerResetBy s1 3 cause

/-- PORST (R472): a power-on reset that holds while PORST_N is low. -/
def porst (s : State) : State := modClk (resetMachine s true 0 0) (fun c => { c with porstLow := true })

/-- Management cores whose self-test passed (R517). -/
def coresPassed (m : BitVec 4) : Nat := popcount m.toNat 4

/-- PORST_RELEASE (R517, R532, R535): the straps are sampled and the ROM starts; a management core that fails its self-test is left
out, and with fewer than 3 boot fails. -/
def porstRelease (s : State) (busSel : Bool) (addr : BitVec 3) (coresPass : BitVec 4) : State :=
  if !s.clk.porstLow then s
  else
    let s1 := modClk s (fun c => { c with porstLow := false, busSel := busSel, addr := addr })
    let s2 := { s1 with sec := { s1.sec with cores := coresPassed coresPass } }
    let s3 := ((List.range 4).filter (fun i => !coresPass.getLsbD i)).foldl (fun s i =>
      recordRetire s St.RAS_MGMT_CORE ⟨10, i⟩ 0) s2
    if coresPassed coresPass < 3 then
      wr (wr s3 F.SEC_BOOT_STAT_STAGE 4) F.SEC_BOOT_STAT_STATUS St.RAS_MGMT_CORE.toNat
    else s3

/-- RAIL_FAULT (R534): a power-on reset that holds while the rail is bad. Every rail is monitored alike. -/
def railFault (s : State) (_ : Rail) : State := modClk (resetMachine s true 0 0) (fun c => { c with railsBad := true })

/-- RAIL_RECOVERY (R534). -/
def railRecovery (s : State) : State := modClk s (fun c => { c with railsBad := false })

/-! ### Supply sag (R466, R467) -/

/-- DROOP_TRIP: CORE runs at 1.05 GHz; no effect during a reset (R478). -/
def droopTrip (s : State) (site : Nat) : State :=
  if inReset s then s
  else
    let s1 := modClk (bump s F.CLK_DROOP_CNT_COUNT) (fun c => { c with droopSites := (site :: c.droopSites).dedup })
    clkShow (wr s1 F.CLK_STAT_DROOP 1)

/-- DROOP_CLEAR: every sensor is clear, and the recovery wait runs. -/
def droopClear (s : State) : State := modClk s (fun c => { c with droopSites := [] })

/-- DROOP_RECOVERY: the wait has ended with every sensor clear, and CORE returns to its rate or its cap. -/
def droopRecovery (s : State) : State :=
  if rd s F.CLK_STAT_DROOP = 1 ∧ s.clk.droopSites = [] then clkShow (wr s F.CLK_STAT_DROOP 0) else s

/-! ### TRIM, IDLE, HOLD -/

/-- POWER_WINDOW (R469): above LIMIT_W TRIM is entered; below 95% of it the power monitor's cause ends. -/
def powerWindow (s : State) (watts : Nat) : State :=
  let limit := rd s F.CLK_PWR_CFG_LIMIT_W
  if inReset s then s
  else if limit < watts then trimChange s (modClk s (fun c => { c with trimPower := true }))
  else if watts * 100 < 95 * limit then trimChange s (modClk s (fun c => { c with trimPower := false }))
  else s

/-- Whether a CORE unit exists (R150, R182, R252, R285). -/
def unitExists : CoreUnit → Bool
  | .matrixCore c => decide (c < 100)
  | .expanderLane l => decide (l < 96)
  | .attentionPipe p => decide (p < 96)
  | .sampler => true
  | .gatherEngine e => decide (e < 4)

/-- Whether the work that is ready may need a CORE unit: gather engines serve gathers, and the others the matrix engine's units,
steps and prompts. -/
def unitNeeded (s : State) : CoreUnit → Bool
  | .gatherEngine _ => (tvals s.gth.runs).any (fun r => r.started)
  | _ => s.sch.running.isSome || !s.sch.units.isEmpty

/-- IDLE_GATE (R470): a unit without ready work is gated; IDLE_US = 0 disables gating. -/
def idleGate (s : State) (u : CoreUnit) : State :=
  whenUp s (fun s =>
    if rd s F.CLK_IDLE_CFG_IDLE_US = 0 ∨ unitExists u = false ∨ unitNeeded s u = true ∨ s.clk.gated.contains u = true then s
    else clkShow (modClk s (fun c => { c with gated := c.gated ++ [u] })))

/-- Units that ready work needs are ungated (R470). -/
def ungate (s : State) : State :=
  if s.clk.gated.any (unitNeeded s) then
    clkShow (modClk s (fun c => { c with gated := c.gated.filter (fun u => !unitNeeded s u) }))
  else s

/-- Whether the controller owns a request (R471): one that it serves and that has not ended. -/
def ownsRequest (s : State) : Bool := (tvals s.sch.reqs).any (fun r => r.phase != .ended)

/-- Whether HOLD is accepted (R471). -/
def mayHold (s : State) : Bool :=
  s.hpt.ctxs.isEmpty && (conState s == 0 || s.con.yielding == 5) && !ownsRequest s && s.con.mir == Mirror.empty

/-- Every enabled port stops, its EN unchanged (R471). -/
def stopPorts (s : State) : State :=
  ((List.range 60).filter (fun n => rdi s F.GLK_PORT_CTL_EN n == 1)).foldl (fun s n => setPortState (clearPort s n false) n 0) s

/-- The merge buffers go to flash (R471). -/
def flushMerge (s : State) : State :=
  mergeAll (modFlt s (fun t => { t with bufs := tmap (fun _ b => { b with due := true }) t.bufs }))

/-- HOLD (R471), or its refusal. -/
def hold (s : State) : State :=
  bar0 s (fun s =>
    if s.clk.hold then s
    else if !mayHold s then emit s (.status St.CLK_HOLD_REFUSED)
    else clkShow (modClk (flushMerge (stopPorts s)) (fun c => { c with hold := true })))

/-- RESUME (R471): ports retrain; ignored unless in HOLD. -/
def resume (s : State) : State :=
  bar0 s (fun s =>
    if !s.clk.hold then s
    else
      ((List.range 60).filter (fun n => rdi s F.GLK_PORT_CTL_EN n == 1)).foldl (fun s n => enterTrain s n St.OK false)
        (clkShow (modClk s (fun c => { c with hold := false }))))

/-! ### Granules (R475, R476) -/

/-- Granules that a granule number may name: those that begin below MEM_TOP. -/
def granuleCount (s : State) : Nat := ceilDiv (memTop s) (2 ^ 30)

/-- CLK_HBM_CMD's end: BUSY clears, with the result. -/
def hbmCmdEnd (s : State) (st : Status) : State :=
  wr (wr (modClk s (fun c => { c with hbm := none })) F.CLK_HBM_CMD_STAT_BUSY 0) F.CLK_HBM_CMD_STAT_STATUS st.toNat

/-- CLK_HBM_CMD's end at a granule that failed. -/
def hbmCmdFail (s : State) (g : Nat) (st : Status) : State := wr (hbmCmdEnd s st) F.CLK_HBM_CMD_STAT_FAILED g

/-- CLK_HBM_CMD begins (R479): LOST when one runs; MEM_BAD_ADDR past MEM_TOP. -/
def hbmCmdBegin (s : State) (clear : Bool) (first countM1 : Nat) (f : State → State) : State :=
  if rd s F.CLK_HBM_CMD_STAT_BUSY = 1 then wr s F.CLK_HBM_CMD_STAT_LOST 1
  else
    let s1 := wr (wr (wr s F.CLK_HBM_CMD_STAT_BUSY 1) F.CLK_HBM_CMD_STAT_DONE 0) F.CLK_HBM_CMD_STAT_STATUS 0
    if granuleCount s < first + countM1 + 1 then hbmCmdFail s1 first St.MEM_BAD_ADDR
    else f (modClk s1 (fun c => { c with hbm := some ⟨clear, first, first + countM1, none⟩ }))

/-- A granule leaves the suspect state, counted in DONE. -/
def trustGranule (s : State) (g : Nat) : State :=
  let s1 := modClk s (fun c => { c with clean := if c.clean.contains g then c.clean else insertBy (fun a b => decide (a < b)) g c.clean })
  wr s1 F.CLK_HBM_CMD_STAT_DONE (rd s1 F.CLK_HBM_CMD_STAT_DONE + 1)

/-- Whether a granule holds a listed line (R476). -/
def granuleListed (s : State) (g : Nat) : Bool := s.mem.ue.any (fun l => l * 64 / 2 ^ 30 == g)

/-- The first mismatch of a CHECK is kept (R479). -/
def noteMismatch (c : HbmCmd) : HbmCmd :=
  { c with failed := c.failed.orElse (fun _ => some (c.next, St.CLK_CHECK_MISMATCH)) }

/-- A CHECK's end with its first mismatch, if any. -/
def checkEnd (s : State) (c : HbmCmd) : State :=
  match c.failed with
  | some f => hbmCmdFail s f.1 f.2
  | none => hbmCmdEnd s St.OK

/-- A CHECK goes on to its next granule: one with a listed line mismatches; of the others the twin's CRC is asked on TC5 (R476). -/
def checkNext : Nat → State → HbmCmd → State
  | 0, s, c => checkEnd s c
  | n + 1, s, c =>
    if c.last < c.next then checkEnd s c
    else if granuleListed s c.next then checkNext n s { noteMismatch c with next := c.next + 1 }
    else
      emit (modClk s (fun k => { k with hbm := some c }))
        (.message (eTwin (ownEntry s)) 5 .check [at' 0 64 c.next])

/-- HBM_CHECK (R476). -/
def hbmCheck (s : State) (first countM1 : Nat) : State :=
  bar0 s (fun s => hbmCmdBegin s false first countM1 (fun s =>
    if s.clk.contentsLost then hbmCmdFail s first St.CLK_CHECK_MISMATCH
    else if !continuityUp s then hbmCmdFail s first St.CLK_NO_TWIN
    else checkNext (countM1 + 2) s ⟨false, first, first + countM1, none⟩))

/-- The CRC-32C of a granule, as far as it lies below MEM_TOP. -/
def granuleCrc (s : State) (g : Nat) : BitVec 32 :=
  BitVec.ofNat 32 (crc32c (readMem s (g * 2 ^ 30) (min (2 ^ 30) (memTop s - g * 2 ^ 30))))

/-- HBM_CHECK_REPLY (R476): the twin's CRC, or none when the twin is in controller reset or no continuity port is left. -/
def hbmCheckReply (s : State) (r : Option (BitVec 32)) : State :=
  match s.clk.hbm with
  | none => s
  | some c =>
    if c.clear then s
    else
      match r with
      | none => hbmCmdFail s c.next St.CLK_NO_TWIN
      | some crc =>
        if crc = granuleCrc s c.next then checkNext (c.last - c.next + 1) (trustGranule s c.next) { c with next := c.next + 1 }
        else checkNext (c.last - c.next + 1) s { noteMismatch c with next := c.next + 1 }

/-- HBM_CHECK_CRC_REQUEST (R476): the partner's request for a granule's CRC; a granule that may not be read gives none. -/
def hbmCheckCrcRequest (s : State) (granule : Nat) : State :=
  whenUp s (fun s =>
    let a := granule * 2 ^ 30
    let n := min (2 ^ 30) (memTop s - a)
    let refused := granuleCount s ≤ granule || (readRefusal s a n).isSome
    emit s (.message (eTwin (ownEntry s)) 5 .check
      (if refused then [setBit (at' 0 63 granule) 63 true] else [at' 0 63 granule, at' 0 32 (granuleCrc s granule).toNat])))

/-- HBM_CLEAR (R476): the granules are written with zeros. -/
def hbmClear (s : State) (first countM1 : Nat) : State :=
  bar0 s (fun s => hbmCmdBegin s true first countM1 id)

/-- HBM_CLEAR_DONE (R476): the granules hold zeros, leave the suspect state and lose their listed lines. -/
def hbmClearDone (s : State) : State :=
  match s.clk.hbm with
  | none => s
  | some c =>
    if !c.clear then s
    else
      let gs := (List.range (c.last + 1 - c.next)).map (fun i => c.next + i)
      hbmCmdEnd (gs.foldl (fun s g => trustGranule (zeroMem s (g * 2 ^ 30) (min (2 ^ 30) (memTop s - g * 2 ^ 30))) g) s) St.OK

end Sys2Proof.Machine
end

