-- ==== Sys2Proof/Machine/Mem.lean ====
section
/-! DEFINITION. HBM and SRAM: the correction code, scrubbing, repair and retirement, the memory-side add and the HDM window
(R301–R315). -/

namespace Sys2Proof.Machine

open Sys2Proof

/-! ### Interleave (R302, R303) -/

/-- Whether a pseudo-channel is in service. -/
def pcInService (s : State) (p : Nat) : Bool := decide (p < 512) && !(tget s.mem.pcs p).elim false (fun i => i.retired)

/-- Pseudo-channels in service, rising. -/
def pcsInService (s : State) : List Nat := (List.range 512).filter (pcInService s)

/-- The pseudo-channel of an HBM offset (R303). -/
def pcOf (s : State) (a : Nat) : Nat := (pcsInService s).getD (a / 256 % max 1 (activePc s)) 0

/-- Offset within its pseudo-channel (R303). -/
def pcOffset (s : State) (a : Nat) : Nat := a / 256 / max 1 (activePc s) * 256 + a % 256

/-! ### Repair and retirement (R309, R310, R515) -/

/-- A pseudo-channel's bookkeeping changed; a plain entry is not listed. -/
def modPc (s : State) (p : Nat) (f : PcInfo → PcInfo) : State :=
  let i := f (tgetD s.mem.pcs p ⟨false, false, 0, 0⟩)
  { s with mem := { s.mem with pcs := if i = ⟨false, false, 0, 0⟩ then tdel s.mem.pcs p else tset s.mem.pcs p i } }

/-- A pseudo-channel becomes SUSPECT, posted once, to be retired at the next reset (R310). -/
def becomeSuspect (s : State) (p : Nat) : State :=
  if !pcInService s p || (tget s.mem.pcs p).elim false (fun i => i.suspect) then s
  else
    openEvent (addRetire (modPc s p (fun i => { i with suspect := true })) rkPc p 0) .error St.MEM_PC_SUSPECT ⟨3, p⟩ 0 0

/-- The key of a row's corrected words. -/
def scrubKey (unit row : Nat) : Nat := row + 2 ^ 36 * unit

/-- A row of a pseudo-channel is repaired, or its pseudo-channel becomes SUSPECT when its bank has no resource left (R309, R310). -/
def repairRow (s : State) (p row : Nat) (spare : Bool) : State :=
  let s0 := { s with mem := { s.mem with rowCe := tdel s.mem.rowCe (scrubKey p row) } }
  if !spare then becomeSuspect s0 p
  else
    let s1 := recordRetire (bump s0 F.MEM_REPAIR_CNT_COUNT) St.RAS_ROW_REPAIR ⟨3, p⟩ row
    let s2 := modPc (addRetire s1 rkHbmRow p row) p (fun i => { i with rows := min 65535 (i.rows + 1) })
    let s3 := { s2 with mem := { s2.mem with softRows := s2.mem.softRows ++ [(p, row)] } }
    if rd s3 F.MEM_RETIRE_CFG_PC_ROWS ≤ (tgetD s3.mem.pcs p ⟨false, false, 0, 0⟩).rows then becomeSuspect s3 p else s3

/-- A failed row of an SRAM macro (R301, R515): it takes a spare row at the next reset; a macro with more than 4 takes a spare
macro. -/
def failSramRow (s : State) (m row : Nat) : State :=
  let n := tgetD s.mem.sramRows m 0 + 1
  let s0 := { s with mem := { s.mem with
    rowCe := tdel s.mem.rowCe (scrubKey (1024 + m) row)
    sramRows := tset s.mem.sramRows m n } }
  let s1 := addRetire s0 rkSramRow m row
  if n = 5 then addRetire (recordRetire s1 St.RAS_SRAM_SPARE ⟨5, m⟩ row) rkMacro m 0 else s1

/-! ### Scrub (R307–R309, R311, R312) -/

/-- A corrected word of a row counts against ROW_CE within this scrub pass; the new count. -/
def countRow (s : State) (key : Nat) : State × Nat :=
  let n := tgetD s.mem.rowCe key 0 + 1
  ({ s with mem := { s.mem with rowCe := tset s.mem.rowCe key n } }, n)

/-- The counts of one memory's rows start again with its scrub pass: HBM's at offset 0, SRAM's at row 0 of macro 0. -/
def newPass (s : State) (w : ScrubWord) : State :=
  if w.sram ∧ w.unit = 0 ∧ w.row = 0 then
    { s with mem := { s.mem with rowCe := tkeep (fun k _ => decide (k < scrubKey 1024 0)) s.mem.rowCe } }
  else if !w.sram ∧ w.offset = 0 then
    { s with mem := { s.mem with rowCe := tkeep (fun k _ => decide (scrubKey 1024 0 ≤ k)) s.mem.rowCe } }
  else s

/-- Whether an HBM offset lies in the composition map region and its log, whose loss is a controller fault (R312). -/
def mapLine (s : State) (a : Nat) : Bool :=
  (rd s F.DTM_EPOCH_EPOCH != 0 || rd s F.DTM_CTL_BUSY == 1) && overlap a 64 (rd s F.DTM_CTL_BASE_MIB * 2 ^ 20) 0x2020000

/-- A line enters the list of uncorrectable lines; a 65th is a controller fault (R311). -/
def listLine (s : State) (l : Nat) (u : UnitRef) : State :=
  if s.mem.ue.contains l then s
  else if 64 ≤ s.mem.ue.length then raiseFault s St.MEM_UE_OVERFLOW u (Config.eventDetail (2 * s.out.length))
  else { s with mem := { s.mem with ue := insertBy (fun a b => decide (a < b)) l s.mem.ue } }

/-- An uncorrectable word: counted, with its error record, or a controller fault where control state lay in it (R312). -/
def uncorrectable (s : State) (u : UnitRef) (control : Bool) : State :=
  let s1 := bump s F.MEM_UE_CNT_COUNT
  let d := Config.eventDetail (2 * s.out.length)
  if control then raiseFault s1 St.MEM_UNCORR u d
  else record s1 St.MEM_UNCORR u 0 0 d (Config.eventDetail (2 * s.out.length + 1))

/-- A corrected HBM word (R307, R309): counted, and written back unless a write has reached its line. -/
def correctHbm (s : State) (w : ScrubWord) (d : BitVec 32) : State :=
  let s1 := modPc (bump s F.MEM_CE_CNT_COUNT) w.unit (fun i => { i with ce := min (2 ^ 32 - 1) (i.ce + 1) })
  let s2 := if w.written then s1 else writeMem s1 w.offset (natBytes 4 d.toNat)
  match countRow s2 (scrubKey w.unit w.row) with
  | (s3, n) => if rd s3 F.MEM_RETIRE_CFG_ROW_CE ≤ n then repairRow s3 w.unit w.row w.spare else s3

/-- The HBM word that the scrub read. -/
def scrubHbm (s : State) (w : ScrubWord) : State :=
  match secdedDecode w.data w.check with
  | .clean => s
  | .corrected d => correctHbm s w d
  | .uncorrectable =>
    let s1 := uncorrectable s ⟨3, w.unit⟩ (mapLine s (w.offset / 64 * 64))
    listLine (repairRow s1 w.unit w.row w.spare) (w.offset / 64) ⟨3, w.unit⟩

/-- Macros of control memory: the partitions of R300 take the 768 macros in the order of its table. -/
def controlMacro (m : Nat) : Bool := decide (704 ≤ m) && decide (m < 768)

/-- The SRAM word that the scrub read. -/
def scrubSram (s : State) (w : ScrubWord) : State :=
  match secdedDecode w.data w.check with
  | .clean => s
  | .corrected _ =>
    match countRow (bump s F.MEM_CE_CNT_COUNT) (scrubKey (1024 + w.unit) w.row) with
    | (s1, n) => if rd s1 F.MEM_RETIRE_CFG_ROW_CE ≤ n then failSramRow s1 w.unit w.row else s1
  | .uncorrectable => failSramRow (uncorrectable s ⟨5, w.unit⟩ (controlMacro w.unit)) w.unit w.row

/-- PATROL_SCRUB (R308): one word is read and corrected. -/
def patrolScrub (s : State) (w : ScrubWord) : State :=
  whenUp s (fun s =>
    if w.sram then (if w.unit < 768 then scrubSram (newPass s w) w else s)
    else if inHbm s w.offset 4 && w.offset % 4 == 0 && w.unit == pcOf s w.offset then scrubHbm (newPass s w) w
    else s)

/-! ### Commands (R310) -/

/-- PC_INTERFACE_FAIL (R310): SUSPECT when it retrained, else MEM_PC_FAIL with the pseudo-channel to be retired. -/
def pcInterfaceFail (s : State) (pc : Nat) (retrained : Bool) : State :=
  whenUp s (fun s =>
    if !pcInService s pc then s
    else if retrained then becomeSuspect s pc
    else raiseFault (addRetire s rkPc pc 0) St.MEM_PC_FAIL ⟨3, pc⟩ (Config.eventDetail (2 * s.out.length)))

/-- PC_SUSPECT_CMD (R310, R328). -/
def pcSuspectCmd (s : State) (target : Nat) : State := bar0 s (fun s => if target < 512 then becomeSuspect s target else s)

/-- STACK_RETIRE_CMD (R310, R328). -/
def stackRetireCmd (s : State) (target : Nat) : State :=
  bar0 s (fun s =>
    if target < 8 then
      addRetire { s with mem := { s.mem with stackCmd := (target :: s.mem.stackCmd).dedup } } rkStack target 0
    else s)

/-! ### Memory-side add (R313) -/

/-- ATOMIC_ADD_LINE (R313): the issuer receives the refusal of a line that cannot be read, and nothing is written. -/
def atomicAddLine (s : State) (offset : Nat) (addends : List (BitVec 32)) : State :=
  whenUp s (fun s =>
    if offset % 64 ≠ 0 ∨ inHbm s offset 64 = false then emit s (.status St.MEM_BAD_ADDR)
    else
      match readRefusal s offset 64 with
      | some st => emit s (.status st)
      | none => addLine s offset addends)

/-! ### HDM window (R59, R315) -/

/-- Whether the HDM window serves an access of `n` bytes at an offset. -/
def hdmServes (s : State) (offset n : Nat) : Bool :=
  rd s F.HPT_HDM_CFG_EN == 1 && s.hpt.trained && !s.hpt.portDown && decide (offset + n ≤ rd s F.HPT_HDM_CFG_SIZE_GIB * 2 ^ 30)

/-- The local offset of a window offset. -/
def hdmLocal (s : State) (offset : Nat) : Nat := rd s F.HPT_HDM_CFG_BASE_GIB * 2 ^ 30 + offset

/-- HDM_HOST_READ (R315, R475) of the line that holds an offset: its bytes, or zeros with poison; of a listed line also the event. -/
def hdmHostRead (s : State) (offset : Nat) : State :=
  let o := offset / 64 * 64
  let a := hdmLocal s o
  let bad (s : State) : State := emit s (.hdmData (List.replicate 64 0) true)
  if !hdmServes s o 64 then s
  else if touchesSuspect s a 64 then bad s
  else if touchesUe s a 64 then
    errorEvent (bad s) St.MEM_UNCORR noUnit 0 0 (BitVec.ofNat 64 o) (Config.eventDetail (2 * s.out.length + 1))
  else
    emit { s with hpt := { s.hpt with hdmHeld := (a / 64 :: s.hpt.hdmHeld).dedup } } (.hdmData (readMem s a 64) false)

/-- HDM_HOST_WRITE (R315): the bytes lie within one line; one that covers a listed line removes it. -/
def hdmHostWrite (s : State) (offset : Nat) (bytes : List Byte) : State :=
  if hdmServes s offset bytes.length && decide (offset % 64 + bytes.length ≤ 64) then storeMem s (hdmLocal s offset) bytes else s

end Sys2Proof.Machine
end

