-- ==== Sys2Proof/Machine/Ras.lean ====
section
/-! DEFINITION. Re-fetch of damaged tensors, and package temperatures (R511, R512, R536–R541). -/

namespace Sys2Proof.Machine

open Sys2Proof

/-! ### Re-fetch (R511, R512) -/

/-- Whether a request's models still hold a damaged tensor. -/
def stillDamaged (s : State) (r : Req) : Bool :=
  s.mxe.models.any (fun e => (e.1 == r.model || r.standin == some e.1) &&
    (tkeys s.mxe.tensors).any (fun h => (tensorOf s h).image == e.2 && tensorDamaged s h))

/-- The hold of R510 ends for the requests whose tensors are whole again (R511, R512). -/
def releaseDamaged (s : State) : State :=
  if (tvals s.sch.reqs).any (fun r => r.damaged) then
    { s with sch := { s.sch with reqs := tmap (fun _ r => { r with damaged := r.damaged && stillDamaged s r }) s.sch.reqs } }
  else s

/-- Whether a range of a tensor awaits its copy (R511). -/
def rangeAwaited (s : State) (tensor offset : Nat) : Bool :=
  offset % 4096 == 0 && (damagedRanges s tensor).contains (offset / 4096)

/-- REFETCH_RANGE_DATA (R511, R512): the checked range is written whole; a block that fails its check fails the re-fetch. -/
def refetchRangeData (s : State) (tensor offset : Nat) (bytes : List Byte) (blocksOk : Bool) : State :=
  whenUp s (fun s =>
    if !rangeAwaited s tensor offset || bytes.length != 4096 then s
    else if !blocksOk then refetchFailed s tensor offset
    else releaseDamaged (writeMem s offset bytes))

/-- REFETCH_FAIL (R512). -/
def refetchFail (s : State) (tensor offset : Nat) : State :=
  whenUp s (fun s => if rangeAwaited s tensor offset then refetchFailed s tensor offset else s)

/-! ### Temperatures (R536–R541) -/

/-- The state of the package changed. -/
def modMgt (s : State) (f : MgtState → MgtState) : State := { s with mgt := f s.mgt }

/-- The stacks at the doubled refresh rate after a poll (R538): above 85 °C it doubles, below 82 °C it returns. -/
def refreshAfter (old temps : List Nat) : List Nat :=
  (List.range 8).filter (fun k => decide (85 < temps.getD k 0) || (old.contains k && decide (82 ≤ temps.getD k 0)))

/-- STACK_TEMP_POLL (R536, R538). -/
def stackTempPoll (s : State) (temps : List Nat) : State :=
  modMgt s (fun m => { m with stackTemps := temps.take 8, fastRefresh := refreshAfter m.fastRefresh temps })

/-- Whether some sensor stands at its alert level (R537). -/
def alertDue (s : State) (dieT stackT : List Nat) : Bool :=
  (dieT.take 32).any (fun t => decide (rd s F.MGT_THERM_CFG_ALERT_C ≤ t)) || (stackT.take 8).any (fun t => decide (95 ≤ t))

/-- Whether every sensor stands below its clear level (R537). -/
def alertOver (s : State) (dieT stackT : List Nat) : Bool :=
  (dieT.take 32).all (fun t => decide (t + 5 ≤ rd s F.MGT_THERM_CFG_ALERT_C)) && (stackT.take 8).all (fun t => decide (t < 90))

/-- Sensor values as read. -/
def readSensors (s : State) (dieT stackT : List Nat) : State :=
  modMgt s (fun m => { m with dieTemps := dieT.take 32, stackTemps := stackT.take 8 })

/-- THERMAL_ALERT (R537): the pin falls, TRIM is entered and the alert counted. -/
def thermalAlert (s : State) (dieT stackT : List Nat) : State :=
  let s1 := readSensors s dieT stackT
  if s1.mgt.alert || !alertDue s1 dieT stackT then s1
  else
    let s2 := emit (bump (modMgt s1 (fun m => { m with alert := true })) F.MGT_THERM_STAT_ALERT_CNT) (.pin 0 false)
    trimChange s2 (modClk s2 (fun c => { c with trimThermal := true }))

/-- THERMAL_ALERT_CLEAR (R537). -/
def thermalAlertClear (s : State) (dieT stackT : List Nat) : State :=
  let s1 := readSensors s dieT stackT
  if !s1.mgt.alert || !alertOver s1 dieT stackT then s1
  else
    let s2 := emit (modMgt s1 (fun m => { m with alert := false })) (.pin 0 true)
    trimChange s2 (modClk s2 (fun c => { c with trimThermal := false }))

/-- THERMAL_TRIP (R539): transmitters and beats stop, engines halt, and the pin stays low until the next power-on reset. -/
def thermalTrip (s : State) : State :=
  if s.mgt.trip then s else emits (modMgt s (fun m => { m with trip := true })) [.linksStop, .pin 1 false]

end Sys2Proof.Machine
end

