-- ==== Sys2Proof/Machine/Sec.lean ====
section
/-! DEFINITION. Boot, the protection tables, the lock and the SPDM responder (R481–R502). -/

namespace Sys2Proof.Machine

open Sys2Proof

/-! ### Images (R482–R486) -/

/-- BOOT_GO (R482, R486, R501): accepted in WAIT or FAILED; boot starts or restarts at step 4. With fewer than 3 management cores it
fails again (R517). -/
def bootGo (s : State) : State :=
  let st := rd s F.SEC_BOOT_STAT_STAGE
  if inReset s || !(st == 1 || st == 4) || decide (s.sec.cores < 3) then s
  else
    let a := rd s F.SEC_BOOT_ADDR_BASE * 4096
    let s1 := wr (wr (wr s F.SEC_BOOT_STAT_STAGE 1) F.SEC_BOOT_STAT_IMAGE 3) F.SEC_BOOT_STAT_STATUS 0
    emit { s1 with sec := { s1.sec with image := 0, imageAt := a } } (.hostRead (.shared none) a 512)

/-- Boot stops (R486): FAILED, with the cause, the image and an error record. -/
def bootFail (s : State) (st : Status) : State :=
  let s1 := wr (wr (wr s F.SEC_BOOT_STAT_STAGE 4) F.SEC_BOOT_STAT_IMAGE s.sec.image) F.SEC_BOOT_STAT_STATUS st.toNat
  record { s1 with sec := { s1.sec with image := 3 } } st noUnit 0 0
    (Config.eventDetail (2 * s.out.length)) (Config.eventDetail (2 * s.out.length + 1))

/-- Whether PAYLOAD_LEN suits the image (R483). -/
def lenOk (image len : Nat) : Bool :=
  if image = 0 then decide (1 ≤ len) && decide (len ≤ 262144)
  else if image = 1 then decide (1 ≤ len) && decide (len ≤ 786432)
  else len == 786432

/-- Whether a KEY_CLASS is allowed for the image (R485): 0 VENDOR, 1 OWNER, 2 NONE. -/
def classOk (owned : Bool) (image cls : Nat) : Bool :=
  if image = 2 then (if owned then cls == 1 else cls == 2) else cls == 0 || (cls == 1 && owned)

/-- Whether the signer's key is a fused one of its class and not revoked (R484, R485); NONE has no signer. -/
def signerOk (f : Fuses) (i : BootImage) : Bool :=
  if i.keyClass = 2 then true
  else
    match i.keyHash with
    | some k => if i.keyClass = 0 then decide (k < 4) && !f.revoked.testBit k else k == 4
    | none => false

/-- The fused minimum SVN of an image. -/
def minSvn (f : Fuses) (image : Nat) : Nat :=
  if image = 0 then f.minStage1 else if image = 1 then f.minRuntime else f.minProt

/-- The first failing check of an image (R484). -/
def imageFault (s : State) (i : BootImage) : Option Status :=
  let n := s.sec.image
  let f := s.sec.fuses
  if !i.fetched then some St.SEC_HOST_ERR
  else if i.magic ≠ 0x31424E54 ∨ i.hdrVer ≠ 1 ∨ i.kind ≠ n + 1 ∨ lenOk n i.len = false ∨ i.reservedZero = false
      ∨ classOk f.owned n i.keyClass = false then some St.SEC_BAD_IMAGE
  else if signerOk f i = false then some St.SEC_BAD_KEY
  else if i.keyClass ≠ 2 ∧ i.sigOk = false then some St.SEC_BAD_SIG
  else if i.digestOk = false then some St.SEC_BAD_DIGEST
  else if i.svn < minSvn f n then some St.SEC_ROLLBACK
  else none

/-! ### Protection tables (R487–R493) -/

/-- The payload as it is copied to the window: its nonzero words. -/
def tableWords (payload : Tbl Word) : Tbl Word :=
  payload.foldl (fun t e => if e.1 % 8 = 0 ∧ e.1 < 0xC0000 ∧ e.2 ≠ 0 then tset t e.1 e.2 else t) []

/-- Whether a table word holds no reserved bit or value (R488–R490, R492). -/
def wordOk (off : Nat) (w : Word) : Bool :=
  if off = 0 then bits w 63 10 == 0 && bits w 3 0 == 1
  else if off = 8 then bits w 63 28 == 0
  else if off = 0x10 then bits w 63 21 == 0
  else if off = 0x18 then bits w 63 29 == 0 && !bit w 15 && decide (bits w 14 0 ≤ 16384) && decide (bits w 28 16 ≤ 4096)
  else if off = 0x20 then bits w 63 22 == 0 && bits w 15 14 == 0 && bits w 7 6 == 0
  else if off < 0x40 then w == 0
  else if off < 0x180 then true
  else if off < 0x1000 then w == 0
  else if off < 0x9000 then bits w 62 10 == 0
  else if off < 0x10000 then w == 0
  else if off < 0x20000 then
    match off % 64 / 8 with
    | 0 => bits w 63 1 == 0
    | 1 => bits w 63 36 == 0
    | 2 => bits w 63 37 == 0 && decide (bits w 36 0 ≤ 2 ^ 36)
    | 3 => bits w 15 14 == 0 && bits w 63 31 == 0 && decide (bits w 30 16 ≤ 16384)
    | _ => w == 0
  else if off < 0xA0000 then
    match off % 32 / 8 with
    | 0 => bits w 63 4 == 0 && !bit w 1
    | 1 => bits w 11 0 == 0
    | 2 => bits w 11 0 == 0
    | _ => w == 0
  else
    match off % 32 / 8 with
    | 0 => bits w 63 44 == 0
    | 1 => true
    | 2 => true
    | _ => w == 0

/-- Whether region entry `i` is good (R493): BASE below LIMIT, and no LOCAL region over device stage memory. -/
def regionOkAt (s : State) (i : Nat) : Bool :=
  let b := 0x20000 + 32 * i
  let base := (winWord s (b + 8)).toNat
  let limit := (winWord s (b + 16)).toNat
  decide (base < limit) &&
    !(bits (winWord s b) 1 0 == 1 && overlap base (limit - base) stageDevice (stageTop - stageDevice))

/-- Whether remote grant `j` is good (R493). -/
def grantOkAt (s : State) (j : Nat) : Bool :=
  let b := 0xA0000 + 32 * j
  !bit (winWord s b) 43 || decide ((winWord s (b + 8)).toNat < (winWord s (b + 16)).toNat)

/-- First and count of a tenant's flash sectors. -/
def flashRange (s : State) (t : Nat) : Nat × Nat := (bits (tenantWord s t 1) 35 0, bits (tenantWord s t 2) 36 0)

/-- Enabled tenants. -/
def tenantsOn (s : State) : List Nat := (List.range 1024).filter (tenantEn s)

/-- Whether no two ranges of a list overlap. -/
def apart : List (Nat × Nat) → Bool
  | [] => true
  | r :: rs => rs.all (fun q => !overlap r.1 r.2 q.1 q.2) && apart rs

/-- The checks of R493, and R485's of PROVISION, on the tables as they stand in the window. -/
def tablesOk (s : State) : Bool :=
  let nrgn := bits (winWord s 0x18) 14 0
  let hdm := winWord s 0x10
  bits (winWord s 0) 3 0 == 1 && s.sec.window.all (fun e => wordOk e.1 e.2) &&
    (List.range nrgn).all (regionOkAt s) && (List.range (bits (winWord s 0x18) 28 16)).all (grantOkAt s) &&
    (List.range 4096).all (fun c => match binding s c with | some t => tenantEn s t | none => true) &&
    (List.range 1024).all (fun t => decide (bits (tenantWord s t 3) 13 0 + bits (tenantWord s t 3) 30 16 ≤ nrgn)) &&
    apart ((tenantsOn s).map (flashRange s)) &&
    (!bit hdm 0 || hdmOk s (bits hdm 10 1) (bits hdm 20 11)) &&
    !(bit (winWord s 0) 4 && s.sec.fuses.owned)

/-- Fuses as step 6 leaves them: only upward (R485). -/
def blowFuses (s : State) : Fuses :=
  let f := s.sec.fuses
  let h := winWord s 0
  let m := winWord s 0x20
  { f with
    owned := f.owned || bit h 4
    revoked := f.revoked ||| bits h 9 6
    minStage1 := max f.minStage1 (bits m 5 0)
    minRuntime := max f.minRuntime (bits m 13 8)
    minProt := max f.minProt (bits m 21 16) }

/-- Steps 6 and 7 of R482: the header's settings are copied (R488), fuses blown, keys made, the lock set; STAGE is RUN. -/
def finishBoot (s : State) : State :=
  let w := winWord s 8
  let hdm := winWord s 0x10
  let s1 := { s with sec := { s.sec with
    fuses := blowFuses s
    debug := bit (winWord s 0) 5
    image := 3
    keys := true } }
  let s2 := wr (wr s1 F.GLK_NODE_NODE_ID (bits w 19 0)) F.TAK_HOST_MASK_ALLOW (bits w 27 20)
  let s3 := placeHdm s2 (bit hdm 0) (bits hdm 10 1) (bits hdm 20 11)
  wr (wr s3 F.SEC_PROT_LOCK_LOCK 1) F.SEC_BOOT_STAT_STAGE 3

/-- An image passed its checks: the next one is read, or boot ends. Stage 1 checks the error records (R508). -/
def imagePassed (s : State) (i : BootImage) : State :=
  let a := s.sec.imageAt + roundUp (512 + i.len) 4096
  let next (s : State) (n : Nat) : State :=
    emit { s with sec := { s.sec with image := n, imageAt := a } } (.hostRead (.shared none) a 512)
  match s.sec.image with
  | 0 => next (wr (checkRecords s) F.SEC_BOOT_STAT_STAGE 2) 1
  | 1 => next s 2
  | _ =>
    let s1 := { s with sec := { s.sec with window := tableWords i.payload } }
    if tablesOk s1 then finishBoot s1 else bootFail s St.SEC_BAD_PROT

/-- IMAGE_FETCH_DONE (R482, R484). -/
def imageFetchDone (s : State) (i : BootImage) : State :=
  let st := rd s F.SEC_BOOT_STAT_STAGE
  if inReset s || decide (3 ≤ s.sec.image) || !(st == 1 || st == 2) then s
  else
    match imageFault s i with
    | some c => bootFail s c
    | none => imagePassed s i

/-! ### BAR0 before and after the lock (R481, R494) -/

/-- Whether an access lies in SEC_BOOT_ADDR, SEC_BOOT_CMD or SEC_BOOT_STAT. -/
def bootReg (a : RegAccess) : Bool := decide (0x10000 ≤ a.off) && decide (a.off + a.size ≤ 0x10018)

/-- PRELOCK_BAR0_ACCESS (R481). -/
def prelockBar0Access (s : State) (a : RegAccess) (write : Bool) : State :=
  if rd s F.SEC_PROT_LOCK_LOCK = 0 ∧ bootReg a = false then prelock s write else s

/-- The offsets of the BW registers (R542). -/
def bwRegs : List Nat := [0x10018, 0x30028, 0x50008, 0x1F0008]

/-- Whether an offset lies in the protection window. -/
def inWindow (off : Nat) : Bool := decide (0x400000 ≤ off) && decide (off < 0x800000)

/-- Whether an access is of 32 or 64 bits and aligned (R543). -/
def aligned (a : RegAccess) : Bool := (a.size == 4 || a.size == 8) && a.off % a.size == 0

/-- PROT_WINDOW_WRITE (R494, R543): a write to the window or to a BW register. -/
def protWindowWrite (s : State) (a : RegAccess) (_ : Word) : State :=
  if !(inWindow a.off || bwRegs.contains (a.off / 8 * 8)) then s
  else if rd s F.SEC_PROT_LOCK_LOCK = 0 then prelock s true
  else if aligned a then lockedWrite s
  else emit s .bar0Unsupported

/-! ### SPDM (R498, R499) -/

/-- SEC_LIFECYCLE (R501). -/
def lifecycle (s : State) : Word :=
  let f := s.sec.fuses
  mkWord [(26, 6, f.minProt), (20, 6, f.minRuntime), (14, 6, f.minStage1), (10, 4, f.revoked), (9, 1, (if s.sec.debug then 1 else 0)),
    (8, 1, f.owned.toNat)]

/-- An SPDM request: answered when the requests before it were (`need`), else with ERROR; not answered before step 7. -/
def spdmAnswer (s : State) (need : Nat) (ok : Bool) (set : Nat) (o : Output) : State :=
  whenUp s (fun s =>
    if s.sec.spdm < need then emit s (.spdm 0x7F [0x04] [])
    else if !ok then emit s (.spdm 0x7F [0x01] [])
    else emit { s with sec := { s.sec with spdm := set } } o)

/-- GET_VERSION: 1.3. -/
def spdmGetVersion (s : State) : State := spdmAnswer s 0 true 1 (.spdm 0x04 [0x13] [])

/-- GET_CAPABILITIES: certificates, challenge, signed measurements. -/
def spdmGetCapabilities (s : State) : State := spdmAnswer s 1 true (max 2 s.sec.spdm) (.spdm 0x61 [] [])

/-- NEGOTIATE_ALGORITHMS: P-521 with SHA-512 only. -/
def spdmNegotiateAlgorithms (s : State) (p521 sha512 : Bool) : State :=
  spdmAnswer s 2 (p521 && sha512) (max 3 s.sec.spdm) (.spdm 0x63 [521, 512] [])

/-- GET_DIGESTS: slot 0. -/
def spdmGetDigests (s : State) : State := spdmAnswer s 3 true 3 (.spdm 0x01 [0] [])

/-- GET_CERTIFICATE: slot 0, the Alias and DeviceID chain. -/
def spdmGetCertificate (s : State) (slot offset length : Nat) : State :=
  spdmAnswer s 3 (slot == 0) 3 (.spdm 0x02 [slot, offset, length] [])

/-- CHALLENGE, with measurement summary; its signature depends on a key that no agent can read (R496). -/
def spdmChallenge (s : State) (slot : Nat) (nonce : List Byte) : State :=
  spdmAnswer s 3 (slot == 0) 3 (.spdm 0x03 [slot] nonce)

/-- GET_MEASUREMENTS, signed: five measurements, of which the fifth is SEC_LIFECYCLE as raw bytes (R498). -/
def spdmGetMeasurements (s : State) (index : Nat) (nonce : List Byte) : State :=
  spdmAnswer s 3 (decide (index ≤ 5) || index == 255) 3
    (.spdm 0x60 [index, 5] (nonce ++ (if index = 5 ∨ index = 255 then wordBytes (lifecycle s) else [])))

end Sys2Proof.Machine
end

