-- ==== Sys2Proof/Machine/Regs.lean ====
section
/-! DEFINITION. BAR0: what a read of a register shows, and what a write to it leaves (R8, R542–R550). -/

namespace Sys2Proof.Machine

open Sys2Proof

/-! ### Registers that show other state -/

/-- The hottest of a list of sensors and the first that shows it (R536, R541). -/
def hottest (ts : List Nat) : Nat × Nat :=
  let m := ts.foldl max 0
  (m, (ts.findIdx? (fun t => t == m)).getD 0)

/-- GLB_ID (R3). -/
def showId (s : State) : Word :=
  setFld (setFld (resetWord 0) 40 4 s.sec.fuses.variant) 32 8 s.sec.fuses.stepping

/-- SEQ of the newest record, with ANY (R523). -/
def showRecSeq (s : State) : Word :=
  mkWord [(32, 1, (!s.ras.recs.isEmpty).toNat), (0, 32, (2 ^ 32 + s.ras.seq - 1) % 2 ^ 32)]

/-- SUSPECT bits of granules 64k to 64k + 63 below MEM_TOP (R475, R479). -/
def showMap (s : State) (k : Nat) : Word :=
  mkWord ((List.range 64).map (fun b => (b, 1, (decide (64 * k + b < granuleCount s) && suspect s (64 * k + b)).toNat)))

/-- GLB_STAT (R550). -/
def showStat (s : State) : Word :=
  mkWord [(63, 1, (rd s F.SEC_BOOT_STAT_STAGE == 3 && rd s F.SEC_PROT_LOCK_LOCK == 1).toNat),
    (62, 1, s.ras.replace.toNat), (61, 1, rd s F.CON_STAT_EXPOSED), (60, 1, s.mgt.alert.toNat),
    (57, 3, rd s F.CLK_STAT_PSTATE), (56, 1, rd s F.KVA_POOL_CTL_EN), (55, 1, rd s F.FLT_CTL_EN),
    (54, 1, (rd s F.DTM_EPOCH_EPOCH != 0).toNat),
    (53, 1, ((List.range (granuleCount s)).any (suspect s)).toNat),
    (32, 6, ((List.range 56).filter (fun n => portState s n == 5)).length),
    (0, 32, (2 ^ 32 + s.ras.seq - 1) % 2 ^ 32)]

/-- MEM_CAP (R328). -/
def showCap (s : State) : Word :=
  mkWord [(40, 10, activePc s),
    (0, 8, sumNat ((List.range 8).map (fun k => if (stackPcs k).any (pcInService s) then 2 ^ k else 0)))]

/-- MEM_PC[p] (R328). -/
def showPc (s : State) (p : Nat) : Word :=
  let i := tgetD s.mem.pcs p ⟨false, false, 0, 0⟩
  mkWord [(62, 2, if i.retired then 2 else if i.suspect then 1 else 0), (32, 16, i.rows), (0, 32, i.ce)]

/-- STATE codes of a core (R173). -/
def CoreSt.code : CoreSt → Nat
  | .active => 0
  | .spare => 1
  | .retired => 2
  | .test => 3
  | .rejoin => 4

/-- MXE_CORE[c] (R175). -/
def showCore (s : State) (c : Nat) : Word :=
  let x := coreAt s c
  mkWord [(24, 16, x.mismatch), (16, 7, x.slot), (8, 1, x.strike.toNat), (0, 3, CoreSt.code x.st)]

/-- RAS_RETIRE[i] (R523). -/
def showRetire (s : State) (i : Nat) : Word :=
  match tget s.ras.retire i with
  | some r => mkWord [(63, 1, 1), (52, 4, r.kind % 16), (36, 16, r.unit), (0, 36, r.row)]
  | none => 0

/-- MGT_THERM_STAT (R541). -/
def showTherm (s : State) : Word :=
  let d := hottest s.mgt.dieTemps
  let h := hottest s.mgt.stackTemps
  mkWord [(56, 8, d.1), (48, 8, h.1), (43, 5, d.2), (40, 3, h.2), (0, 24, rd s F.MGT_THERM_STAT_ALERT_CNT)]

/-- A register as a read shows it: what it holds, or, where it shows other state, that state. -/
def showReg (s : State) (off : Nat) : Word :=
  if off = 0 then showId s
  else if off = 0x10 then showStat s
  else if off = 0x10020 then lifecycle s
  else if within off 8 0x20100 0x20180 then showMap s ((off - 0x20100) / 8)
  else if off = 0x50018 then mkWord [(16, 32, intentsUsed s), (0, 13, takesOpen s)]
  else if off = 0x60000 then mkWord [(8, 7, coresIn s .spare), (0, 7, activeCores s)]
  else if within off 8 0x60100 0x60420 then showCore s ((off - 0x60100) / 8)
  else if within off 8 0x80120 0x80140 then at' 0 30 (freeFrames s ((off - 0x80120) / 8))
  else if off = 0xC0000 then showCap s
  else if off = 0xC0020 then at' 0 7 s.mem.ue.length
  else if within off 8 0xC1000 0xC2000 then showPc s ((off - 0xC1000) / 8)
  else if off = 0x200010 then
    mkWord [(32, 15, ((tvals s.shp.flows).filter (fun f => f.far)).length), (0, 15, s.shp.flows.length)]
  else if off = 0x230008 then at' 0 9 (travLed s)
  else if off = 0x250000 then
    mkWord [(63, 1, s.ras.replace.toNat), (32, 9, s.ras.retire.length), (0, 4, s.ras.sramSpares)]
  else if off = 0x250010 then showRecSeq s
  else if off = 0x250020 then at' 0 40 s.ras.up
  else if off = 0x250028 then at' 0 48 s.ras.exposed
  else if within off 8 0x254000 0x254800 then showRetire s ((off - 0x254000) / 8)
  else if within off 8 0x258000 0x260000 then wordAt (tgetD s.ras.recs ((off - 0x258000) / 64) []) ((off - 0x258000) % 64 / 8)
  else if off = 0x260108 then showTherm s
  else if inWindow off then winWord s (off - 0x400000)
  else s.reg off

/-! ### Access rules (R542–R546) -/

/-- Whether an offset is decoded (R542). -/
def decoded (off : Nat) : Bool :=
  decide (off < 0xE0000) || (decide (0x100000 ≤ off) && decide (off < 0x270000)) || inWindow off

/-- Whether an access lies in the low half of its register, or covers it all. -/
def touchesLow (a : RegAccess) : Bool := a.size == 8 || a.off % 8 == 0
/-- Whether an access lies in the high half of its register, or covers it all. -/
def touchesHigh (a : RegAccess) : Bool := a.size == 8 || a.off % 8 == 4

/-- Whether a field lies wholly in what an access covers (R544, R545). -/
def fieldIn (a : RegAccess) (f : FieldDef) : Bool :=
  a.size == 8 || (a.off % 8 == 0 && decide (f.lo + f.width ≤ 32)) || (a.off % 8 == 4 && decide (32 ≤ f.lo))

/-- A written word in its place, the other half zero: what a write-only register takes (R544). -/
def placed (a : RegAccess) (w : Word) : Word :=
  if a.size = 8 then w else if a.off % 8 = 0 then at' 0 32 (bits w 31 0) else at' 32 32 (bits w 31 0)

/-- Ranges outside which a write of a field is ignored, by the field tables of the chapters. -/
def rangeRules : List (Field × Nat × Nat) :=
  [(F.HPT_HOST_TMO_TMO_US, 1, 10000), (F.SCH_STEP_CFG_MAX_SEQ, 1, 128), (F.SCH_DRR_CFG_UNIT, 16, 255),
   (F.SCH_PROMPT_CFG_SLICE_US, 4, 24), (F.SCH_PROMPT_CFG_CHUNK_TOK, 64, 16384), (F.SCH_TENANT_WEIGHT, 1, 65535),
   (F.TAK_CFG_VOTE_US, 2, 16), (F.MXE_CFG_STRIKE_LOG2, 16, 30), (F.EXP_FALLBACK_NUM, 32, 64),
   (F.KVA_AGE_CFG_TICK_US, 1, 65535), (F.ATT_PC_CFG_AHEAD, 0, 2), (F.SMP_VOCAB_V, 1, 1048576)] ++
  [(F.GTH_CFG_CARRY_KIB, 256, 16384), (F.MEM_SCRUB_CFG_SRAM_MS, 10, 10000), (F.MEM_SCRUB_CFG_HBM_MIN, 60, 10080),
   (F.MEM_RETIRE_CFG_PC_ROWS, 1, 255), (F.MEM_RETIRE_CFG_ROW_CE, 1, 255), (F.FLT_CFG_RD_LIMIT, 1000, 10000000),
   (F.FLT_CFG_WEAR_DELTA, 16, 10000), (F.FLT_CFG_OP, 16, 128), (F.FLT_GC_CAP_PCT, 5, 100),
   (F.GLK_CFG_CREDIT_NS, 500, 4000), (F.GLK_CFG_REKEY_LOG2, 32, 44), (F.GLK_CFG_BUSY_NS, 100, 4000),
   (F.GLK_TC_CFG_RESP_US, 2, 64), (F.GLK_PORT_CTL_MAX_WIDTH, 1, 3)] ++
  [(F.DTM_GRACE_CFG_GRACE_US, 50, 10000), (F.DTM_SURVEY_CFG_PERIOD_US, 5, 1000), (F.DTM_SURVEY_CFG_FANOUT, 2, 8),
   (F.TRV_CFG_LEG_US, 50, 10000), (F.TRV_CFG_LEGS_OUT, 1, 8), (F.TRV_CFG_STALL_MS, 1, 65535),
   (F.CON_CFG_DRAIN_KIB, 64, 65535), (F.CON_CFG_ACK_US, 1, 20), (F.CON_CMP_CFG_PERIOD_MS, 10, 65535),
   (F.CON_DELTA_SIZE_GIB, 1, 256), (F.CLK_DROOP_CFG_TRIP_PCT, 2, 6), (F.CLK_PWR_CFG_WINDOW_US, 10, 10000),
   (F.CLK_PWR_CFG_CAP_MHZ, 1050, 1400), (F.CLK_PWR_CFG_LIMIT_W, 400, 800), (F.RAS_CFG_STEP_FAIL_MAX, 1, 255),
   (F.MGT_THERM_CFG_ALERT_C, 85, 110)]

/-- Whether a value lies in its field's range. -/
def inRange (base lo v : Nat) : Bool :=
  match rangeRules.find? (fun r => r.1.base == base && r.1.lo == lo) with
  | some r => decide (r.2.1 ≤ v) && decide (v ≤ r.2.2)
  | none => true

/-- Whether the state lets a field of the register with this base, number `i` of its array, be written now: the rules "writes ignored
while" of the field tables. -/
def stateAllows (s : State) (base lo i : Nat) : Bool :=
  if base = F.HPT_CTX_TABLE_BASE.base then s.hpt.ctxs.isEmpty && !ctxBusy s
  else if base = F.HPT_EVQ_BASE_BASE.base then rd s F.HPT_EVQ_CFG_EN == 0
  else if base = F.KVA_CLASS_COUNT.base ∨ base = F.KVA_POOL_CTL_EN.base then rd s F.KVA_POOL_CTL_EN == 0
  else if base = F.ATT_BIND_EN.base then rdi s F.ATT_BIND_EN i == 0
  else if base = F.ATT_PMAP_PROF.base then rdi s F.ATT_BIND_EN (i / 32) == 0
  else if base = F.SMP_VOCAB_V.base then rdi s F.ATT_BIND_EN i == 0
  else if base = F.FLT_CTL_EN.base then rd s F.FLT_CTL_EN == 0 && rd s F.FLT_CTL_BUSY == 0
  else if base = F.FLT_CFG_OP.base then lo != 0 || rd s F.FLT_CTL_EN == 0
  else if base = F.GLK_ROUTE_BASE_BASE_MIB.base then !anyPortEn s
  else if base = F.DTM_CTL_BUSY.base then lo != 0 || (rd s F.DTM_EPOCH_EPOCH == 0 && rd s F.DTM_CTL_BUSY == 0)
  else if base = F.CON_MIRROR_BASE_MIB.base then rd s F.CON_CTL_EN == 0
  else if base = F.CON_DELTA_BASE_MIB.base then lo != 0 || conState s != 4
  else if base = F.SHP_GCL_INTERVAL.base then rdi s F.SHP_GATE_CTL_BANK (i / 128) != i % 128 / 64
  else if base = F.SEC_BOOT_ADDR_BASE.base then rd s F.SEC_BOOT_STAT_STAGE == 1 || rd s F.SEC_BOOT_STAT_STAGE == 4
  else true

/-- Whether the values that a write would leave meet the conditions that join fields (R546). -/
def joinedOk (s : State) (off : Nat) (v : Word) : Bool :=
  if off = F.KVA_WATER_LOW.base then decide (bits v 9 0 < bits v 25 16) && decide (bits v 25 16 ≤ 500)
  else if off = F.FLT_GC_LOW.base then decide (bits v 41 32 < bits v 25 16) && decide (bits v 25 16 ≤ 500)
  else if off = F.DTM_LEASE_CFG_LEN_US.base then
    decide (10 ≤ bits v 15 0) && decide (bits v 15 0 ≤ 1000) && decide (1 ≤ bits v 31 16) &&
      decide (5 * bits v 31 16 ≤ 2 * bits v 15 0)
  else if 0x100000 ≤ off ∧ off < 0x1F0000 ∧ off % 0x4000 = 0x10 then
    rdi s F.GLK_PORT_CTL_EN ((off - 0x100000) / 0x4000) == 0 &&
      decide (sumNat ((List.range 12).map (fun v' => fld v (5 * v') 5)) ≤ 32)
  else true

/-- What a field of a register holds after a write of `v` (R8, R544, R546). -/
def fieldAfter (s : State) (a : RegAccess) (base i : Nat) (v : Word) (w : Word) (f : FieldDef) : Word :=
  if !fieldIn a f then w
  else
    match f.acc with
    | .rw => if inRange base f.lo (fld v f.lo f.width) && stateAllows s base f.lo i then setFld w f.lo f.width (fld v f.lo f.width) else w
    | .w1c => setFld w f.lo f.width (fld (w &&& ~~~v) f.lo f.width)
    | _ => w

/-- A write to a register's fields; a write under a joined condition that fails changes nothing (R546). -/
def writeFields (s : State) (a : RegAccess) (r : RegDef) (off : Nat) (v : Word) : State :=
  let new := r.fields.foldl (fieldAfter s a r.base ((off - r.base) / r.stride) v) (s.reg off)
  if joinedOk s off new then s.setReg off new else s

/-- The value that a 32-bit or 64-bit write would leave in a register, each half whole. -/
def leftBy (s : State) (a : RegAccess) (off : Nat) (w : Word) : Word := halfWritten (s.reg off) a w

/-- Register `i` of an array, if the offset lies in it. -/
def arrayAt (off base stride count : Nat) : Option Nat :=
  if base ≤ off ∧ (off - base) % stride = 0 ∧ (off - base) / stride < count then some ((off - base) / stride) else none

/-- A write to a register whose writes are commands of their own takes that command's effect, where the write says all of it: none for
other registers. RESET of a mover and REINTEGRATE come as their own commands, which carry what the engines report. -/
def commandWrite (s : State) (a : RegAccess) (off : Nat) (w : Word) : Option State :=
  let v := placed a w
  let x := leftBy s a off w
  if off = 0x10008 then some (if bits v 1 0 = 1 then bootGo s else s)
  else if off = 0x20020 then some (if bits v 1 0 = 1 then hold s else if bits v 1 0 = 2 then resume s else s)
  else if off = 0x20028 then some (controllerReset s v)
  else if off = 0x20030 then
    some (if a.size ≠ 8 then s
      else if bits v 63 62 = 1 then hbmCheck s (bits v 9 0) (bits v 25 16)
      else if bits v 63 62 = 2 then hbmClear s (bits v 9 0) (bits v 25 16)
      else if bits v 63 62 = 3 then hbmCmdBegin s false 0 0 (fun s => hbmCmdEnd s St.HPT_BAD_FIELD)
      else s)
  else if off = 0x30008 then
    some (if bits v 31 30 = 1 then ctxEnable s (bits v 11 0)
      else if bits v 31 30 = 2 then ctxDisable s (bits v 11 0)
      else if bits v 31 30 = 3 then ctxCmdBegin s ⟨false, bits v 11 0⟩ (fun s => ctxCmdEnd s St.HPT_BAD_FIELD)
      else s)
  else if off = 0x30020 then some (evqCfgWrite s x)
  else if off = 0x60010 then
    some (if bits v 9 8 = 1 then mxeCoreTest s (bits v 6 0)
      else if bits v 9 8 = 2 then mxeCoreRetire s (bits v 6 0)
      else if bits v 9 8 = 3 then coreCmdBegin s false (bits v 6 0) (fun s => coreCmdEnd s St.HPT_BAD_FIELD)
      else s)
  else if off = 0x80000 ∧ touchesHigh a then some (if bit x 63 then poolEnable s x else poolDisable s x)
  else if within off 8 0x91000 0x91400 then some (attProfWrite s a w)
  else if off = 0xC0018 then
    some (if bits v 11 10 = 1 then pcSuspectCmd s (bits v 9 0) else if bits v 11 10 = 2 then stackRetireCmd s (bits v 9 0) else s)
  else if off = 0xD0000 ∧ touchesHigh a then some (if bit x 63 then ftlEnable s x else ftlDisable s x)
  else if off = 0x210000 then some s
  else if off = 0x220000 ∧ touchesHigh a ∧ bit x 63 then some (dtmJoin s x)
  else if off = 0x240000 ∧ touchesHigh a then some (conEnable s x)
  else if off = 0x240008 then
    some (if bits v 1 0 = 0 ∨ bits v 1 0 = 2 then s
      else if bits v 1 0 = 1 then yield s
      else conStatus s (if conBusy s then St.CON_CMD_BUSY else St.HPT_BAD_FIELD))
  else
    match arrayAt off 0x90100 8 16, arrayAt off 0x100000 0x4000 60, arrayAt off 0x200000 8 2, arrayAt off 0x200100 8 56 with
    | some j, _, _, _ => if touchesHigh a then some (if bit x 63 then attBindEnable s j x else attBindDisable s j x) else none
    | _, some n, _, _ => if touchesHigh a then some (if bit x 63 then portEnable s n x else portDisable s n x) else none
    | _, _, some k, _ => some (shaperWrite s k (halfWritten (tgetD s.shp.shapes k (s.reg off)) a w))
    | _, _, _, some n =>
      some (if !touchesHigh a then writeBank s n x
        else if bit x 62 then gateSwapRequest s n x else gateEnable s n x)
    | _, _, _, _ => none

/-- A write to a decoded register after the lock, or to a boot register before it. -/
def writeReg (s : State) (a : RegAccess) (w : Word) : State :=
  let off := a.off / 8 * 8
  if inWindow off || bwRegs.contains off then lockedWrite s
  else
    match commandWrite s a off w, regAt off with
    | some s1, _ => s1
    | none, some r => trimChange s (writeFields s a r off (placed a w))
    | none, none => s

/-- Whether BAR0 refuses an access after the lock (R543). -/
def refusedForm (a : RegAccess) : Bool := !aligned a || !decoded a.off

/-- Whether BAR0 serves an access: after the lock any, before it the boot registers (R481). -/
def served (s : State) (a : RegAccess) : Bool := rd s F.SEC_PROT_LOCK_LOCK == 1 || bootReg a

/-- REGISTER_WRITE (R543, R544, R546). -/
def registerWrite (s : State) (a : RegAccess) (w : Word) : State :=
  if !served s a then prelock s true
  else if refusedForm a then emit s .bar0Unsupported
  else writeReg s a w

/-- The half of a word that a 32-bit read returns (R545). -/
def halfRead (a : RegAccess) (w : Word) : Word :=
  if a.size = 8 then w else if a.off % 8 = 0 then at' 0 32 (bits w 31 0) else at' 0 32 (bits w 63 32)

/-- Read-clear fields that lie wholly in what was read are zero after it (R8, R545). -/
def clearRead (s : State) (a : RegAccess) : State :=
  let off := a.off / 8 * 8
  match regAt off with
  | none => s
  | some r =>
    if r.fields.any (fun f => f.acc == .rc && fieldIn a f) then
      s.setReg off (r.fields.foldl (fun w f => if f.acc == .rc && fieldIn a f then setFld w f.lo f.width 0 else w) (s.reg off))
    else s

/-- RC_FIELD_READ (R543, R545): a read answers with the register's word or half, and clears its read-clear fields there. -/
def rcFieldRead (s : State) (a : RegAccess) : State :=
  if !served s a then prelock s false
  else if refusedForm a then emit s .bar0Unsupported
  else emit (clearRead s a) (.bar0Data (halfRead a (showReg s (a.off / 8 * 8))))

/-- BAR0_UNSUPPORTED (R543): an access that is not decoded, narrow or unaligned. -/
def bar0Unsupported (s : State) (a : RegAccess) (write : Bool) : State :=
  if !served s a then prelock s write
  else if refusedForm a then emit s .bar0Unsupported
  else s

end Sys2Proof.Machine
end

