-- ==== Sys2Proof/Machine/Resp.lean ====
section
/-! DEFINITION. What ends an operation this controller has outstanding: responses, limits, busy answers and flow moves (R344,
R350, R351, R399). -/

namespace Sys2Proof.Machine

open Sys2Proof

/-- An operation taken out of those outstanding. -/
def dropOp (s : State) (tag : Nat) : State := { s with glk := { s.glk with ops := tdel s.glk.ops tag } }

/-- The frames of an operation go to the node that it now names; an operation without a route ends (R344). -/
def resend (s : State) (tag : Nat) (o : RemoteOp) (dest : Nat) : Option State :=
  (flowPort s dest o.tc o.stripe).map (fun n => startOp s tag { o with dest := dest } n)

/-- Whether an operation waits because its flow still uses another port (R344). -/
def movingFlow (s : State) (o : RemoteOp) : Bool :=
  match flowPort s o.dest o.tc o.stripe with
  | some n => tgetD s.glk.flows (flowKeyOf o.dest o.tc o.stripe) n != n
  | none => true

/-- The first operation that waits for a tag starts when one is free (R351). -/
def feedTag (s : State) : State :=
  if 65536 ≤ (s.glk.ops.filter (fun e => e.2.port.isSome)).length then s
  else
    match s.glk.ops.find? (fun e => e.2.port.isNone && !movingFlow s e.2) with
    | some (tag, o) => (resend s tag o o.dest).getD s
    | none => s

/-- The request of a mirror record, if its body names one (R441). -/
def bodyReq : MirrorBody → Option Nat
  | .rows p _ _ _ _ => some p.req
  | .entry p _ _ => some p.req
  | .root r _ => some r
  | .commit r _ _ _ _ _ => some r
  | .counts r _ => some r
  | .home r _ => some r
  | .transit r _ => some r
  | .audit p _ => some p.req
  | .release r => some r
  | .intent _ _ _ _ => none
  | .decision _ _ _ _ => none
  | .holder _ _ _ => none
  | .reserved _ => none

/-- Requests that the twin had no mirror frame for are held no longer once no record of theirs is outstanding (R442). -/
def feedMirrored (s : State) : State :=
  let waits (r : Nat) : Bool := s.con.unacked.any (fun u => bodyReq u.body == some r)
  let (stay, go) := s.kva.starved.partition (fun p => p.2 != twinClass || waits p.1)
  go.foldl (fun s p => modReq s p.1 (fun r => { r with starved := stay.any (fun q => q.1 == p.1) }))
    { s with kva := { s.kva with starved := stay } }

/-- Every record up to an MSEQ is acknowledged (R440, R443). -/
def mirrorAcked (s : State) (mseq : Nat) : State :=
  let left := s.con.unacked.filter (fun r => decide (mseq < r.mseq))
  flushReports (feedMirrored { s with con := { s.con with unacked := left, overdue := s.con.overdue && !left.isEmpty } })

/-- The response to a mirror record (R440, R442, R444, R456); `top` is the highest MSEQ the twin has applied. A record without a
mirror frame at the twin holds its request and is sent again. -/
def mirrorAnswered (s : State) (mseq : Nat) (st : Status) (top : Nat) : State :=
  let rec_ := s.con.unacked.find? (fun r => r.mseq == mseq)
  if st = St.OK then mirrorAcked s top
  else if st = St.CON_AUDIT_MISMATCH then
    let s1 := mirrorAcked s top
    match rec_ with
    | some ⟨_, .audit p _⟩ => auditFail (losePage s1 (keyOfPage p))
    | _ => s1
  else if st = St.KVA_POOL_EMPTY then
    match rec_ with
    | some r =>
      let s1 := match bodyReq r.body with
        | some req =>
          if s.kva.starved.contains (req, twinClass) then s else poolEmpty s req twinClass
        | none => s
      sendMirror s1 r.mseq r.body
    | none => s
  else mirrorFails s

/-- What follows when an operation has ended with a status. -/
def afterOp (s : State) (tag : Nat) (o : RemoteOp) (st : Status) (arg : Word) : State :=
  match o.what with
  | .move m c => putAnswered s m c tag st
  | .park id => if st = St.OK then completeWith s id St.OK (at' 0 32 (bits arg 63 32)) else completeSt s id st
  | .mirror mseq => mirrorAnswered s mseq st (bits arg 63 16)
  | .message =>
    if o.kind = .get ∧ o.tc = 5 ∧ st ≠ St.OK then
      let h := bits (wordAt o.words 0) 31 0
      refetchFailed s h (if wordAt o.words 2 = 4096 then (wordAt o.words 1).toNat else (damagedRanges s h).headD 0 * 4096)
    else s

/-- An operation ends with a status: it leaves its tag, which a waiting one takes. -/
def endOp (s : State) (tag : Nat) (o : RemoteOp) (st : Status) (arg : Word) : State := feedTag (afterOp (dropOp s tag) tag o st arg)

/-- A DTM_STALE_MAP answer (R399): the missing records are fetched from the receiver, and the operation goes to HINT_NODE, or where
the own map points. -/
def staleAnswered (s : State) (tag : Nat) (o : RemoteOp) (arg : Word) : State :=
  let s1 := send s o.dest 0 .mapFetch [at' 0 32 (epoch s)]
  let hint := bits arg 35 16
  match resend s1 tag o (if hint = 0xFFFFF then o.dest else hint) with
  | some s2 => s2
  | none => endOp s1 tag o St.GLK_NO_ROUTE 0

/-- REMOTE_RESPONSE (R350, R351, R399). -/
def remoteResponse (s : State) (tag : Nat) (status : BitVec 16) (arg : Word) (_ : List Byte) : State :=
  whenUp s (fun s =>
    match tget s.glk.ops tag with
    | none => bump s F.GLK_LATE_CNT_COUNT
    | some o =>
      if status = St.GLK_BUSY then bump s F.GLK_BUSY_CNT_COUNT
      else if status = St.DTM_STALE_MAP then staleAnswered s tag o arg
      else endOp s tag o status arg)

/-- RESP_TIMEOUT (R351): the operation ends with GLK_RESP_TIMEOUT. -/
def respTimeout (s : State) (tag : Nat) : State :=
  whenUp s (fun s =>
    match tget s.glk.ops tag with
    | none => s
    | some o => endOp (bump s F.GLK_TIMEOUT_CNT_COUNT) tag o St.GLK_RESP_TIMEOUT 0)

/-- BUSY_RETRY (R350): the operation is sent again. -/
def busyRetry (s : State) (tag : Nat) : State :=
  whenUp s (fun s =>
    match tget s.glk.ops tag with
    | none => s
    | some o => (resend s tag o o.dest).getD (endOp s tag o St.GLK_NO_ROUTE 0))

/-- The operations of a flow that wait, in the order in which they came. -/
def waitingOps (s : State) (f : FlowKey) : Tbl RemoteOp :=
  s.glk.ops.filter (fun e => e.2.dest == f.dest && e.2.tc == f.tc && e.2.stripe == f.stripe && e.2.port.isNone)

/-- FLOW_MOVE (R344): with nothing outstanding on the old port, the flow takes its new one and its waiting operations start. -/
def flowMove (s : State) (f : FlowKey) : State :=
  whenUp s (fun s =>
    if flowBusy s f.dest f.tc f.stripe then s
    else
      let ws := waitingOps s f
      match flowPort s f.dest f.tc f.stripe with
      | none => ws.foldl (fun s e => endOp s e.1 e.2 St.GLK_NO_ROUTE 0) s
      | some n =>
        let s1 := { s with glk := { s.glk with flows := tset s.glk.flows (flowKeyOf f.dest f.tc f.stripe) n } }
        ws.foldl (fun s e => startOp s e.1 e.2 n) s1)

end Sys2Proof.Machine
end

