-- ==== Sys2Proof/Machine/Teardown.lean ====
section
/-! DEFINITION. Context teardown and DISABLE (R63, R119, R120, R147, R162, R279, R387, R432). -/

namespace Sys2Proof.Machine

open Sys2Proof

/-- A context's teardown changed. -/
def modDown (s : State) (c : Nat) (f : Teardown → Teardown) : State := modCtx s c (fun x => { x with down := x.down.map f })

/-- Descriptors of a context counted as aborted (R120). -/
def countAborted (s : State) (c n : Nat) : State := modDown s c (fun d => { d with aborted := d.aborted + n })

/-! ### Step 2: descriptors -/

/-- Each fetched descriptor that is not dispatched writes a record with HPT_CTX_DOWN, in count order. -/
def abortWaiting (s : State) (c : Nat) : State :=
  match tget s.hpt.ctxs c with
  | none => s
  | some x =>
    x.rings.zipIdx.foldl (fun s p =>
      let r := p.1
      let s1 := modCtx s c (fun y => { y with rings := y.rings.set p.2 { r with waiting := [] } })
      r.waiting.zipIdx.foldl (fun s q =>
        let d := q.1
        let key : DescKey := ⟨c, p.2, (2 ^ 32 + r.fetched - r.waiting.length + q.2) % 2 ^ 32⟩
        let id := flightId key
        completeSt (countAborted (setFlight s id ⟨key, dOpcode d, dNocomp d, dIntr d, dTag d, dReq d, none⟩) c 1) id St.HPT_CTX_DOWN) s1) s

/-- Each pending SEM_WAIT of the context, on any semaphore, ends and takes nothing from the count. -/
def abortWaits (s : State) (c : Nat) : State :=
  (s.sch.waiters.filter (fun w => w.ctx == c)).foldl (fun s w =>
    serveAll (completeSt (countAborted (dropWaiter s w) c 1) w.flight St.HPT_CTX_DOWN) w.sem) s

/-- Whether a descriptor goes on during its context's teardown: its unit runs (step 3), its take is open (step 4), or a read fault
stops its MOVE (R384, R387). -/
def goesOn (s : State) (id : Nat) : Bool :=
  (match s.sch.running with
   | some u => u.kind == .work id
   | none => false) ||
  s.tak.coord.any (fun e => match e.2.who with
    | .host f _ => f == id
    | _ => false) ||
  s.tak.forwarded.any (fun e => match e.2 with
    | .host f _ => f == id
    | _ => false) ||
  s.bmv.chans.any (fun e => e.2.flight == id)

/-- Every dispatched descriptor that does not go on is aborted. -/
def abortFlights (s : State) (c : Nat) : State :=
  (s.hpt.flight.filter (fun e => e.2.key.ctx == c && e.2.ready.isNone && !goesOn s e.1)).foldl (fun s e =>
    let s1 := countAborted s c 1
    if e.2.opcode = 1 then
      let pos := (reqOf s1 e.2.req).elim 0 (fun r => r.pos)
      complete { s1 with hpt := { s1.hpt with posts := tdel s1.hpt.posts e.2.req } } e.1 St.HPT_CTX_DOWN (posWord pos 0)
        (postDetail e.1 pos) false
    else completeSt s1 e.1 St.HPT_CTX_DOWN) s

/-- Units, runs, slates that were being read and recomputed prompts whose descriptor is gone. -/
def sweepWork (s : State) : State :=
  let gone (id : Nat) : Bool := !thas s.hpt.flight id
  let s1 := { s with
    sch := { s.sch with units := s.sch.units.filter (fun u => match u.kind with
      | .work id => !gone id
      | _ => true) }
    mxe := { s.mxe with
      runs := tkeep (fun id _ => id == 0 || !gone id) s.mxe.runs
      retries := s.mxe.retries.filter (fun r => r.flight == 0 || !gone r.flight) }
    tak := { s.tak with submits := tkeep (fun id _ => !gone id) s.tak.submits } }
  (s1.kva.asks.filter (fun e => gone e.1)).foldl (fun s e =>
    let s2 := { s with kva := { s.kva with asks := tdel s.kva.asks e.1 } }
    if reshootHere s2 e.2 then s2
    else
      let s3 := freePages s2 e.2
      { s3 with sch := { s3.sch with reqs := tdel s3.sch.reqs e.2 } }) s1

/-! ### Step 4: takes -/

/-- The context's undecided takes that are coordinated here abort with TAK_CTX_DOWN; the records of decided ones will carry
HPT_CTX_DOWN (R147). -/
def abortTakes (s : State) (c : Nat) : State :=
  (s.tak.coord.filter (fun e => match e.2.who with
    | .host _ x => x == c
    | _ => false)).foldl (fun s e =>
      let t := { e.2 with status := St.TAK_CTX_DOWN, badAction := 0, badPart := 0, partStatus := St.OK }
      match e.2.state with
      | .voting => decide' s e.1 t
      | .retrying _ => endTake s e.1 t
      | .mirroring => endTake (bump (finishPart s ⟨self s, e.1⟩ false) F.TAK_ABORT_CNT_COUNT) e.1 t
      | .decided => setCoord s e.1 { e.2 with ctxDown := true }
      | .announced => setCoord s e.1 { e.2 with ctxDown := true }) s

/-! ### Steps 6 and 7, and the handles -/

/-- The context's requests are released by their homes (R119 step 6); a Traverse that this controller leads is abandoned
(R432). -/
def releaseRequests (s : State) (c : Nat) : State :=
  (s.hpt.made.filter (fun e => e.2 == c)).foldl (fun s e => askRelease (endTrav s e.1) e.1 none none) s

/-- The context's semaphores are cleared, and waiters of other contexts complete with SCH_SEM_OWNER_DOWN (R119 step 7). -/
def clearSems (s : State) (c : Nat) : State :=
  let s1 := (s.sch.waiters.filter (fun w => w.sem / 16 == c)).foldl (fun s w =>
    completeSt (dropWaiter s w) w.flight St.SCH_SEM_OWNER_DOWN) s
  { s1 with sch := { s1.sch with
      sems := tkeep (fun h _ => h / 16 != c) s1.sch.sems
      inherit := tkeep (fun h _ => h / 16 != c) s1.sch.inherit } }

/-- Handles that the context loaded, made or registered are freed once its descriptors are over (R162, R191, R279). -/
def freeHandles (s : State) (c : Nat) : State :=
  let s1 := { s with mxe := { s.mxe with
    kernels := tkeep (fun _ x => x.ctx != c) s.mxe.kernels
    tensors := tkeep (fun _ t => !(t.image == 0 && t.ctx == c)) s.mxe.tensors } }
  freeTables (dropEmptyImages s1) c

/-! ### The whole -/

/-- No descriptor of the context is in flight. -/
def noFlights (s : State) (c : Nat) : Bool := !s.hpt.flight.any (fun e => e.2.key.ctx == c)

/-- What follows for a context that goes down: steps 2 to 7 begin, or what they waited for is taken up. -/
def downSettle (s : State) (c : Nat) (d : Teardown) : State :=
  let s1 :=
    if d.started then s
    else
      let s2 := modDown s c (fun d => { d with started := true })
      clearSems (releaseRequests (abortWaits (dropMoves (abortTakes s2 c) c) c) c) c
  let s3 := abortFlights s1 c
  let s4 := sweepWork (if d.started then s3 else abortWaiting s3 c)
  if noFlights s4 c then freeHandles s4 c else s4

/-- Every context that goes down (R63, R119). -/
def teardownSettle (s : State) : State :=
  s.hpt.ctxs.foldl (fun s e =>
    match e.2.down with
    | some d => downSettle s e.1 d
    | none => s) s

/-- Steps 2 to 7 are over: no descriptor or request of the context is left, and its last record is written, unless the port is
down (R58, R63). -/
def downOver (s : State) (c : Nat) (x : Ctx) : Bool :=
  (x.down.elim false (fun d => d.started)) && noFlights s c && !(tvals s.hpt.made).contains c &&
    (s.hpt.portDown || x.cqs.all (fun q => q.delayed.isEmpty))

/-- The context is disabled; a DISABLE that waits for that completes (R63, R120). -/
def endDown (s : State) (c : Nat) : State :=
  let s1 := { s with hpt := { s.hpt with ctxs := tdel s.hpt.ctxs c } }
  if s.hpt.cmd = some ⟨false, c⟩ then ctxCmdEnd s1 St.OK else s1

/-- CONTEXT_TEARDOWN (R119): step 1; steps 2 to 7 follow with the command's settling. -/
def contextTeardown (s : State) (ctx : Nat) (cause : BitVec 16) : State := whenUp s (fun s => faultCtx s ctx cause)

/-- CONTEXT_TEARDOWN_DONE (R119 step 8, R120). -/
def contextTeardownDone (s : State) (ctx : Nat) : State :=
  whenUp s (fun s =>
    match tget s.hpt.ctxs ctx with
    | none => s
    | some x =>
      match x.down with
      | some d =>
        if d.fault ∧ downOver s ctx x = true then
          endDown (postEvent s .contextDown d.cause ⟨9, ctx⟩ 0 ctx (BitVec.ofNat 64 d.released) (BitVec.ofNat 64 d.aborted)) ctx
        else s
      | none => s)

/-- CTX_DISABLE_DONE (R63). -/
def ctxDisableDone (s : State) (ctx : Nat) : State :=
  whenUp s (fun s =>
    match tget s.hpt.ctxs ctx with
    | none => s
    | some x =>
      match x.down with
      | some d => if d.fault = false ∧ downOver s ctx x = true then endDown s ctx else s
      | none => s)

end Sys2Proof.Machine
end

