-- ==== Sys2Proof/Machine/Settle.lean ====
section
/-! DEFINITION. What a command brings about beyond its own effect: takes that ended, contexts that go down, a changed map, and work
that may go on (R119, R131, R133, R407, R419, R442, R470, R511). -/

namespace Sys2Proof.Machine

open Sys2Proof

/-- DETAIL of a TAKE_SUBMIT's record (R131); a slate that was rejected before a take began has R553's layout. -/
def takeDetail (e : TakeEnd) : Word :=
  if e.status = St.TAK_BAD_COORD ∧ e.takeId = 0 then rejectDetail (chkSlate true e.status (0x80 + 32 * e.action + 1))
  else if e.status = St.TAK_TOO_MANY_OPEN then rejectDetail (chk true e.status 0)
  else mkWord [(0, 24, e.takeId), (24, 6, e.action), (30, 4, e.part), (34, 5, e.tries), (48, 16, e.partStatus.toNat)]

/-- The record of a TAKE_SUBMIT (R131, R147). -/
def hostTakeEnded (s : State) (flight : Nat) (e : TakeEnd) : State :=
  let st := if e.ctxDown = true ∧ e.status ≠ St.TAK_CTX_DOWN then St.HPT_CTX_DOWN else e.status
  completeWith s flight st (takeDetail e)

/-- What follows the end of a take, for the block that asked for it. -/
def takeEnded (s : State) (e : TakeEnd) : State :=
  match e.who with
  | .host flight _ => hostTakeEnded s flight e
  | .forwarded node key => reportEnd s node key e.takeId e.status e.action e.part e.partStatus e.tries
  | .create req => createEnded s req e.status e.partStatus
  | .release req group flight => releaseEnded s req group flight e.status e.partStatus
  | .releaseFor req group node key again => releaseForEnded s e req group node key again
  | .closing req => closingEnded s req e.status e.partStatus
  | .confirm _ _ => s
  | .route n => if e.status = St.TAK_CHECK_FAIL ∧ portState s n = 4 then routeTake s n else s
  | .migrate table row => migrateEnded s table row e.status
  | .bucket _ => s
  | .rejoin => rejoinEnded s e.status
  | .cutover => cutoverEnded s e.status
  | .plain => s

/-- Every ended take, in the order in which they ended. -/
def takesSettle (s : State) : State :=
  s.tak.ended.foldl takeEnded { s with tak := { s.tak with ended := [] } }

/-- With the last continuity port gone the mirror path has failed (R444). -/
def portsSettle (ports : List Nat) (s : State) : State :=
  if !ports.isEmpty && (contPorts s).isEmpty then mirrorFails s else s

/-- One round of what follows; `m` and `ports` are the map and the ACTIVE continuity ports before. -/
def settleRound (m : DMap) (ports : List Nat) (s : State) : State :=
  let s1 := teardownSettle (takesSettle s)
  let s2 := conMapSettle m (mapSettle m s1)
  let s3 := portsSettle ports s2
  let s4 := settleWaits s3.tak.part.length s3
  let s5 := endRepairs (pumpWaiting s4.trv.waiting.length (trvSettle s4))
  let s6 := sweepRuns (answerHeld s5)
  ungate (releaseDamaged (feedStarved (yieldSettle (deltaFull s6))))

/-- Whether a further round has anything to take up. -/
def unsettled (m : DMap) (s : State) : Bool :=
  !s.tak.ended.isEmpty || m != s.dtm.map || s.hpt.ctxs.any (fun e => e.2.down.elim false (fun d => !d.started))

/-- Rounds until nothing more follows; the first number bounds them. -/
def settleRounds : Nat → DMap → List Nat → State → State
  | 0, _, _, s => s
  | n + 1, m, ports, s =>
    let s1 := settleRound m ports s
    if unsettled s.dtm.map s1 then settleRounds n s.dtm.map (contPorts s) s1 else s1

/-- What follows a command that took the state from `old` to `s`. -/
def settle (old s : State) : State := settleRounds 64 old.dtm.map (contPorts old) s

end Sys2Proof.Machine
end

