-- ==== Sys2Proof/Machine/Meanings.lean ====
section
/-! DEFINITION. The meaning of each command, in the order of the opcode table: its own effect, and where it may end a take, bring a
context down, change the map or let work go on, what follows (`settle`). -/

namespace Sys2Proof.Machine

open Sys2Proof

/-- The end of a unit: the kernel boundary, the collective that follows a unit of a step (R355), and a window of gather work
(R283). -/
def unitEnds (s : State) (r : UnitResult) : State :=
  let u := s.sch.running
  let st := (u.elim 0 (fun _ => unitStatus s r))
  let s1 := unitEnd s r
  match u, isUp s with
  | some x, true =>
    match x.kind with
    | .step _ => startCollective s1 (ownGroup s1)
    | .work id => if thas s.gth.runs id then windowDone s1 id st else s1
    | .prompt _ _ => s1
    | .catchUp _ _ => s1
  | _, _ => s1

/-- UCIE_LINK_TRAINING (R56): The host port trains the UCIe link and declines any option it does not support. -/
def execUcieLinkTraining (offer : List UcieOption) (modUp rateGt repairs : Nat) (s : State) : Host.Outcome State Fault Refusal :=
  .next (ucieLinkTraining s offer modUp rateGt repairs)

/-- UCIE_MODULE_FAIL (R58): A UCIe module fails beyond repair; the port continues on the remaining modules, posts LINK_CHANGE with
HPT_LINK_DEGRADED and updates HPT_LINK_STAT. -/
def execUcieModuleFail (m : Nat) (s : State) : Host.Outcome State Fault Refusal := .next (settle s (ucieModuleFail s m))

/-- CTX_ENABLE (R62): HPT_CTX_CMD OP ENABLE sets BUSY and starts the reads of the context-table entry and the doorbell line. -/
def execCtxEnable (ctx : Nat) (s : State) : Host.Outcome State Fault Refusal := .next (ctxEnable s ctx)

/-- CTX_ENABLE_READ_DONE (R62): The ENABLE reads return; the entry is checked, ring heads and producer counts are zeroed and BUSY
clears with the status. -/
def execCtxEnableReadDone (entry line : List Word) (s : State) : Host.Outcome State Fault Refusal :=
  .next (settle s (ctxEnableReadDone s entry line))

/-- CTX_DISABLE (R63): HPT_CTX_CMD OP DISABLE stops fetching from the context's rings and starts teardown steps 2 to 7 without an
ERROR event. -/
def execCtxDisable (ctx : Nat) (s : State) : Host.Outcome State Fault Refusal := .next (settle s (ctxDisable s ctx))

/-- CTX_DISABLE_DONE (R63): Once the context's last completion record is written, BUSY clears with STATUS 0x0000. -/
def execCtxDisableDone (ctx : Nat) (s : State) : Host.Outcome State Fault Refusal := .next (settle s (ctxDisableDone s ctx))

/-- EVQ_CFG_WRITE (R60): A write to HPT_EVQ_CFG enables or disables the event queue; an enable takes LOG2SIZE and VECTOR and
restarts SEQ at 0. -/
def execEvqCfgWrite (w : Word) (s : State) : Host.Outcome State Fault Refusal := .next (evqCfgWrite s w)

/-- HDM_CFG_WRITE (R60): A BW write to HPT_HDM_CFG places the HDM window; EN stays 0 when the size or region is out of range. -/
def execHdmCfgWrite (w : Word) (s : State) : Host.Outcome State Fault Refusal := .next (hdmCfgWrite s w)

/-- DOORBELL_SNOOP (R66): A snoop-invalidate of a context's doorbell line arrives; the controller answers it, marks the context
pending and issues a shared re-read. -/
def execDoorbellSnoop (ctx : Nat) (s : State) : Host.Outcome State Fault Refusal := .next (doorbellSnoop s ctx)

/-- DOORBELL_POLL (R68): The HPT_DB_POLL period expires and every enabled context's doorbell line is re-read as a backstop. -/
def execDoorbellPoll (s : State) : Host.Outcome State Fault Refusal := .next (doorbellPoll s)

/-- DOORBELL_LINE_DATA (R66): Doorbell line data returns; the watch is re-armed, the TAILs are compared and descriptor reads are
issued for the rings that advanced. -/
def execDoorbellLineData (ctx : Nat) (line : List Word) (s : State) : Host.Outcome State Fault Refusal :=
  .next (settle s (doorbellLineData s ctx line))

/-- CQ_HEAD_SNOOP (R78): A change to a watched CQHEAD line frees space, and the delayed completion records are written. -/
def execCqHeadSnoop (ctx : Nat) (line : List Word) (s : State) : Host.Outcome State Fault Refusal :=
  .next (settle s (cqHeadSnoop s ctx line))

/-- HOST_ACCESS_TIMEOUT (R91): A host-memory access exceeds HPT_HOST_TMO; its data is unused, an ERROR event is posted, and the
context is torn down or the descriptor is failed. -/
def execHostAccessTimeout (a : HostAccess) (s : State) : Host.Outcome State Fault Refusal := .next (settle s (hostAccessTimeout s a))

/-- HOST_DATA_ERROR (R91): A host-memory read returns an error or poisoned data; it is handled as HPT_HOST_DATA_ERR. -/
def execHostDataError (a : HostAccess) (s : State) : Host.Outcome State Fault Refusal := .next (settle s (hostDataError s a))

/-- NOP (R72): A NOP descriptor is validated and completes. -/
def execNop (k : RingKey) (d : Desc) (s : State) : Host.Outcome State Fault Refusal := .next (nop s k d)

/-- RESERVED_OPCODE (R72): A descriptor with a reserved opcode, or with an opcode whose GLB_CAP bit is 0, is rejected with
HPT_BAD_OPCODE. -/
def execReservedOpcode (k : RingKey) (d : Desc) (s : State) : Host.Outcome State Fault Refusal := .next (reservedOpcode s k d)

/-- REQ_POST (R74): REQ_POST posts a new request or a new turn of a parked request, after its header, payload, parameter and model
checks. -/
def execReqPost (k : RingKey) (d : Desc) (param : List Word) (input : List (BitVec 32)) (home : HomeView) (s : State) : Host.Outcome State Fault Refusal :=
  .next (settle s (reqPost s k d param input home))

/-- REQ_PARK (R417): REQ_PARK checks the request through the home and starts a Traverse to a CACHE group. -/
def execReqPark (k : RingKey) (d : Desc) (home : HomeView) (s : State) : Host.Outcome State Fault Refusal :=
  .next (settle s (reqPark s k d home))

/-- REQ_CANCEL (R117): REQ_CANCEL sends a cancel through the home to the owning group, which removes the request at its next roster. -/
def execReqCancel (k : RingKey) (d : Desc) (home : HomeView) (s : State) : Host.Outcome State Fault Refusal :=
  .next (settle s (reqCancel s k d home))

/-- REQ_RELEASE_FREE (R225): REQ_RELEASE FREE releases a parked request by a home-coordinated OWNER take, and its frames and flash
records are then freed. -/
def execReqReleaseFree (k : RingKey) (d : Desc) (home : HomeView) (s : State) : Host.Outcome State Fault Refusal :=
  .next (settle s (reqReleaseFree s k d home))

/-- REQ_RELEASE_RESHOOT (R226): REQ_RELEASE RESHOOT asks the owner group's leader to recompute positions 0 to END - 1 through the
prompt group. -/
def execReqReleaseReshoot (k : RingKey) (d : Desc) (home : HomeView) (s : State) : Host.Outcome State Fault Refusal :=
  .next (settle s (reqReleaseReshoot s k d home))

/-- KERNEL_LOAD (R157): KERNEL_LOAD with OP LOAD reads a kernel image, checks it in order and loads its kernels, tensors and model. -/
def execKernelLoad (k : RingKey) (d : Desc) (image : List Word) (s : State) : Host.Outcome State Fault Refusal :=
  .next (kernelLoad s k d image)

/-- KERNEL_UNLOAD (R157): KERNEL_LOAD with OP UNLOAD frees a range of the context's kernel handles. -/
def execKernelUnload (k : RingKey) (d : Desc) (s : State) : Host.Outcome State Fault Refusal := .next (kernelUnload s k d)

/-- KERNEL_RUN (R162): KERNEL_RUN checks the kernel and its tensors, then divides the product into units for the matrix cores. -/
def execKernelRun (k : RingKey) (d : Desc) (s : State) : Host.Outcome State Fault Refusal := .next (kernelRun s k d)

/-- MOVE (R378): A MOVE descriptor is checked and then queued for a channel of its mover. -/
def execMove (k : RingKey) (d : Desc) (s : State) : Host.Outcome State Fault Refusal := .next (move s k d)

/-- PACK_CODE (R187): PACK with OP CODE counts, builds a 12-bit-limited code table and writes a coded tensor. -/
def execPackCode (k : RingKey) (d : Desc) (s : State) : Host.Outcome State Fault Refusal := .next (packCode s k d)

/-- PACK_CODE_SAFE (R187): PACK with OP CODE_SAFE codes a tensor under an 8-bit length limit. -/
def execPackCodeSafe (k : RingKey) (d : Desc) (s : State) : Host.Outcome State Fault Refusal := .next (packCodeSafe s k d)

/-- PACK_UNPACK (R186): PACK with OP UNPACK decodes a coded tensor into raw TILE64 form. -/
def execPackUnpack (k : RingKey) (d : Desc) (s : State) : Host.Outcome State Fault Refusal := .next (packUnpack s k d)

/-- PACK_FREE (R186): PACK with OP FREE frees a tensor handle that a PACK of the same context made. -/
def execPackFree (k : RingKey) (d : Desc) (s : State) : Host.Outcome State Fault Refusal := .next (packFree s k d)

/-- TABLE_REGISTER (R278): TABLE_REG REGISTER checks and registers an embedding table, with every row in state TAIL. -/
def execTableRegister (k : RingKey) (d : Desc) (s : State) : Host.Outcome State Fault Refusal := .next (tableRegister s k d)

/-- TABLE_FREE (R279): TABLE_REG FREE frees a table unless a descriptor that uses it is running. -/
def execTableFree (k : RingKey) (d : Desc) (s : State) : Host.Outcome State Fault Refusal := .next (settle s (tableFree s k d))

/-- TABLE_REFRESH (R291): TABLE_REG REFRESH starts hot-set promotions and demotions from a list. -/
def execTableRefresh (k : RingKey) (d : Desc) (list : List Word) (s : State) : Host.Outcome State Fault Refusal :=
  .next (settle s (tableRefresh s k d list))

/-- TABLE_LOAD (R294): TABLE_REG LOAD writes rows to a flash tail and frees their delta entries. -/
def execTableLoad (k : RingKey) (d : Desc) (rows : List (List Byte)) (s : State) : Host.Outcome State Fault Refusal :=
  .next (tableLoad s k d rows)

/-- TABLE_SYNC (R295): TABLE_REG SYNC writes merged rows out, rewrites their flash copies and frees their delta entries. -/
def execTableSync (k : RingKey) (d : Desc) (flash : List (Option (List Byte))) (s : State) : Host.Outcome State Fault Refusal :=
  .next (tableSync s k d flash)

/-- GATHER_POOL (R284): GATHER in MODE POOL pools deduplicated rows into bags, window by window. -/
def execGatherPool (k : RingKey) (d : Desc) (g : GatherLists) (s : State) : Host.Outcome State Fault Refusal := .next (gatherPool s k d g)

/-- GATHER_COPY (R284): GATHER in MODE COPY copies a row out for each index. -/
def execGatherCopy (k : RingKey) (d : Desc) (g : GatherLists) (s : State) : Host.Outcome State Fault Refusal := .next (gatherCopy s k d g)

/-- UPDATE (R289): UPDATE pre-sums scaled gradients for each unique row and adds them atomically to an FP32 table. -/
def execUpdate (k : RingKey) (d : Desc) (g : GatherLists) (s : State) : Host.Outcome State Fault Refusal := .next (update s k d g)

/-- TAKE_SUBMIT (R130): TAKE_SUBMIT reads a slate from host memory in order to begin a take. -/
def execTakeSubmit (k : RingKey) (d : Desc) (s : State) : Host.Outcome State Fault Refusal := .next (takeSubmit s k d)

/-- TAKE_SLATE_READ (R130): The slate read returns; the slate is checked and the take begins, or the slate is forwarded to its
coordinator. -/
def execTakeSlateRead (k : DescKey) (slate : List Word) (s : State) : Host.Outcome State Fault Refusal :=
  .next (settle s (takeSlateRead s k slate))

/-- SEM_SIGNAL_ADD (R108): SEM_SIGNAL with MODE ADD adds VALUE to a semaphore and completes the waits that now fit. -/
def execSemSignalAdd (k : RingKey) (d : Desc) (s : State) : Host.Outcome State Fault Refusal := .next (semSignalAdd s k d)

/-- SEM_SIGNAL_SET (R108): SEM_SIGNAL with MODE SET sets a semaphore count and completes the waits that now fit. -/
def execSemSignalSet (k : RingKey) (d : Desc) (s : State) : Host.Outcome State Fault Refusal := .next (semSignalSet s k d)

/-- SEM_WAIT (R109): SEM_WAIT takes NEED from a semaphore, or blocks its ring in arrival order. -/
def execSemWait (k : RingKey) (d : Desc) (s : State) : Host.Outcome State Fault Refusal := .next (semWait s k d)

/-- SEM_WAIT_TIMEOUT (R109): TIMEOUT_US expires on a pending wait, which completes with SCH_SEM_TIMEOUT. -/
def execSemWaitTimeout (k : DescKey) (s : State) : Host.Outcome State Fault Refusal := .next (semWaitTimeout s k)

/-- STEP_ADMISSION (R99): While a step runs, the step leader admits requests for the next step by deficit round robin and sends the
roster on TC0. -/
def execStepAdmission (est : StepEstimate) (s : State) : Host.Outcome State Fault Refusal := .next (settle s (stepAdmission s est))

/-- PROMPT_ADMISSION (R100): Prompt chunks are admitted by a second deficit round robin instance. -/
def execPromptAdmission (s : State) : Host.Outcome State Fault Refusal := .next (settle s (promptAdmission s))

/-- ROSTER (R96): A roster arrives at a member; its epoch and fields are checked, and it marks the member's local step start. -/
def execRoster (src : Nat) (words : List Word) (s : State) : Host.Outcome State Fault Refusal := .next (settle s (roster s src words))

/-- UNIT_END (R103): A running matrix-engine unit ends, and the scheduler starts the highest-ranking ready unit. -/
def execUnitEnd (r : UnitResult) (s : State) : Host.Outcome State Fault Refusal := .next (settle s (unitEnds s r))

/-- CONTEXT_TEARDOWN (R119): A context fault posts an ERROR event, stops the rings and starts teardown of the context. -/
def execContextTeardown (ctx : Nat) (cause : BitVec 16) (s : State) : Host.Outcome State Fault Refusal :=
  .next (settle s (contextTeardown s ctx cause))

/-- CONTEXT_TEARDOWN_DONE (R120): Once teardown steps 2 to 7 are done, CONTEXT_DOWN is posted and the context is disabled. -/
def execContextTeardownDone (ctx : Nat) (s : State) : Host.Outcome State Fault Refusal := .next (settle s (contextTeardownDone s ctx))

/-- TAKE_SLATE_FORWARD (R130): A slate forwarded on TC0 reaches its coordinator, which begins the take. -/
def execTakeSlateForward (src : Nat) (srcKey : Nat) (retries : Nat) (host : Bool) (slate : List Word) (s : State) : Host.Outcome State Fault Refusal :=
  .next (settle s (takeSlateForward s src srcKey retries host slate))

/-- TAKE_PREPARE (R138): A PREPARE reaches a participant, which checks the epoch, locks the objects, makes the checks and writes its
intents. -/
def execTakePrepare (m : PrepareMsg) (s : State) : Host.Outcome State Fault Refusal := .next (settle s (takePrepare s m))

/-- INTENT_MIRROR_ACK (R140): The twin acknowledges the mirrored intents, and the participant votes yes or applies its local take. -/
def execIntentMirrorAck (id : TakeRef) (s : State) : Host.Outcome State Fault Refusal := .next (settle s (intentMirrorAck s id))

/-- TAKE_VOTE (R141): A vote reaches the coordinator; a no vote, or the last yes vote, decides the take. -/
def execTakeVote (m : VoteMsg) (s : State) : Host.Outcome State Fault Refusal := .next (settle s (takeVote s m))

/-- TAKE_VOTE_TIMEOUT (R139): VOTE_US passes without a vote, and the coordinator decides abort with TAK_VOTE_TIMEOUT. -/
def execTakeVoteTimeout (takeId part : Nat) (s : State) : Host.Outcome State Fault Refusal :=
  .next (settle s (takeVoteTimeout s takeId part))

/-- DECISION_MIRROR_ACK (R138): The coordinator's decision is mirrored on its twin, and COMMIT or ABORT is sent. -/
def execDecisionMirrorAck (takeId : Nat) (s : State) : Host.Outcome State Fault Refusal := .next (settle s (decisionMirrorAck s takeId))

/-- TAKE_COMMIT (R138): COMMIT reaches a participant, which applies its actions in slate order, releases its locks and acknowledges. -/
def execTakeCommit (id : TakeRef) (stamp : Nat) (s : State) : Host.Outcome State Fault Refusal := .next (settle s (takeCommit s id stamp))

/-- TAKE_ABORT (R138): ABORT reaches a participant, which discards its intents and releases its locks. -/
def execTakeAbort (id : TakeRef) (stamp : Nat) (s : State) : Host.Outcome State Fault Refusal := .next (settle s (takeAbort s id stamp))

/-- TAKE_ACK (R138): The coordinator collects the acknowledgements, frees the decision record and writes the completion. -/
def execTakeAck (m : AckMsg) (s : State) : Host.Outcome State Fault Refusal := .next (settle s (takeAck s m))

/-- TAKE_INDOUBT_TIMEOUT (R143): A yes-voted participant has no decision within the TC0 response limit, enters doubt, and asks the
coordinator or its twin. -/
def execTakeIndoubtTimeout (id : TakeRef) (s : State) : Host.Outcome State Fault Refusal := .next (settle s (takeIndoubtTimeout s id))

/-- TAKE_INQUIRY (R143): A coordinator or its twin answers an in-doubt question from its decision record, or with ABORT when it
holds none. -/
def execTakeInquiry (src : Nat) (id : TakeRef) (stamp : Nat) (s : State) : Host.Outcome State Fault Refusal :=
  .next (settle s (takeInquiry s src id stamp))

/-- TAKE_ENDED_NOTICE (R134): An ENDED notice tells the coordinator that the conflicting take has released its locks, and the retry
begins. -/
def execTakeEndedNotice (ended : TakeRef) (s : State) : Host.Outcome State Fault Refusal := .next (settle s (takeEndedNotice s ended))

/-- TAKE_RETRY (R134): 1 µs after an abort without an ENDED notice, the coordinator begins the retry with the same stamp. -/
def execTakeRetry (takeId : Nat) (s : State) : Host.Outcome State Fault Refusal := .next (settle s (takeRetry s takeId))

/-- MXE_UNIT_DONE (R170): A matrix unit ends on a core, its checksums are compared, and its output is released or it is queued for a
retry. -/
def execMxeUnitDone (flight kernel unit core : Nat) (sums : List ChecksumPair) (numeric : Bool) (s : State) : Host.Outcome State Fault Refusal :=
  .next (mxeUnitDone s flight kernel unit core sums numeric)

/-- MXE_RETRY_DONE (R170): A retried unit is compared; the outcome sets a strike, retires a core, or completes the kernel with
MXE_TILE_FAIL. -/
def execMxeRetryDone (flight kernel unit core : Nat) (sums : List ChecksumPair) (numeric : Bool) (s : State) : Host.Outcome State Fault Refusal :=
  .next (mxeRetryDone s flight kernel unit core sums numeric)

/-- MXE_CORE_TEST (R174): MXE_CORE_CMD OP TEST resets a retired core alone and starts its self-test. -/
def execMxeCoreTest (core : Nat) (s : State) : Host.Outcome State Fault Refusal := .next (mxeCoreTest s core)

/-- MXE_CORE_RETIRE (R174): MXE_CORE_CMD OP RETIRE takes a core out of service at the next kernel boundary. -/
def execMxeCoreRetire (core : Nat) (s : State) : Host.Outcome State Fault Refusal := .next (mxeCoreRetire s core)

/-- CORE_SELFTEST_DONE (R174): A core's self-test ends; the core enters REJOIN, or returns to RETIRED with MXE_SELFTEST_FAIL. -/
def execCoreSelftestDone (core : Nat) (pass : Bool) (s : State) : Host.Outcome State Fault Refusal := .next (coreSelftestDone s core pass)

/-- EXPANDER_BLOCK (R193): A block's data reaches an expander lane, which checks its CRC, header and sub-streams and decodes it into
the operand queue. -/
def execExpanderBlock (run tensor block : Nat) (s : State) : Host.Outcome State Fault Refusal := .next (expanderBlock s run tensor block)

/-- EXPANDER_REREAD (R198): The second read of a block whose CRC failed returns; the kernel continues, or fails with an error event. -/
def execExpanderReread (run tensor block : Nat) (s : State) : Host.Outcome State Fault Refusal :=
  .next (expanderReread s run tensor block)

/-- APPEND_ROWS (R211): The appender takes key and value rows from stage memory, checks the lease, quantises them and writes them
into pages. -/
def execAppendRows (a : AppendBatch) (s : State) : Host.Outcome State Fault Refusal := .next (settle s (appendRows s a))

/-- KVA_AGE_TICK (R217): On CACHE role, KVA_AGE advances every TICK_US. -/
def execKvaAgeTick (s : State) : Host.Outcome State Fault Refusal := .next (kvaAgeTick s)

/-- EVICTION (R218): A class's free frames fall below LOW, and the pool evicts the oldest eligible frames until HIGH is reached. -/
def execEviction (cls : Nat) (s : State) : Host.Outcome State Fault Refusal := .next (settle s (eviction s cls))

/-- DEMOTE_WRITE_DONE (R220): The flash write of an evicted page completes, and a local take moves the entry to FLASH and frees the
frame. -/
def execDemoteWriteDone (frame : Nat) (flashAddr : Nat) (ok : Bool) (s : State) : Host.Outcome State Fault Refusal :=
  .next (settle s (demoteWriteDone s frame flashAddr ok))

/-- PAGE_PROMOTE (R221): A FLASH page read into the page cache completes and is promoted to HBM by a local take. -/
def execPagePromote (page : PageKey) (ok : Bool) (bytes : List Byte) (s : State) : Host.Outcome State Fault Refusal :=
  .next (settle s (pagePromote s page ok bytes))

/-- DROP_NOTICE (R223): A drop or LOST notice reaches the group leader, which updates END and holds the request. -/
def execDropNotice (src req highest count : Nat) (lost : Bool) (s : State) : Host.Outcome State Fault Refusal :=
  .next (settle s (dropNotice s src req highest count lost))

/-- RESHOOT_REQUEST (R226): The owner group's leader checks a reshoot request, and the prompt group prefills the positions. -/
def execReshootRequest (req inCount origin flight : Nat) (s : State) : Host.Outcome State Fault Refusal :=
  .next (settle s (reshootRequest s req inCount origin flight))

/-- RESHOOT_COMPLETE (R226): No DROPPED or LOST entry remains below END; the request becomes eligible and the completion record is
written. -/
def execReshootComplete (req : Nat) (answer : Option ReshootEnd) (s : State) : Host.Outcome State Fault Refusal :=
  .next (settle s (reshootComplete s req answer))

/-- POOL_ENABLE (R206): A write of KVA_POOL_CTL.EN = 1 checks the class regions and enables the pool with every frame free, or sets
ERR. -/
def execPoolEnable (w : Word) (s : State) : Host.Outcome State Fault Refusal := .next (poolEnable s w)

/-- POOL_DISABLE (R206): A write of KVA_POOL_CTL.EN = 0 disables the pool, unless a frame is allocated. -/
def execPoolDisable (w : Word) (s : State) : Host.Outcome State Fault Refusal := .next (poolDisable s w)

/-- ATTENTION_PASS (R248): A KV group's attention work for a layer runs over the member's pages and forms member partials. -/
def execAttentionPass (p : PassKey) (s : State) : Host.Outcome State Fault Refusal := .next (attentionPass s p)

/-- PARTIAL_RECORD (R247): A partial record arrives at its merge home and is merged by the merge procedure. -/
def execPartialRecord (tag : Option Nat) (words : List Word) (num : List (BitVec 32)) (s : State) : Host.Outcome State Fault Refusal :=
  .next (partialRecord s tag words num)

/-- PARTIAL_REQUEST (R250): A cache controller checks a partial request and answers each entry with a partial record or a failure. -/
def execPartialRequest (hdr entries : List Word) (s : State) : Host.Outcome State Fault Refusal := .next (partialRequest s hdr entries)

/-- PARTIAL_REPLY_TIMEOUT (R251): A cache-pool reply does not arrive within the TC2 limit; the request commits nothing and
ATT_REMOTE_TIMEOUT is posted. -/
def execPartialReplyTimeout (req tag : Nat) (s : State) : Host.Outcome State Fault Refusal := .next (partialReplyTimeout s req tag)

/-- ATT_BIND_ENABLE (R233): A write of ATT_BIND[j].EN = 1 checks the binding's profiles and enables it, or sets ERR. -/
def execAttBindEnable (j : Nat) (w : Word) (s : State) : Host.Outcome State Fault Refusal := .next (attBindEnable s j w)

/-- ATT_BIND_DISABLE (R233): A write of ATT_BIND[j].EN = 0 disables the binding unless a resident request uses the model. -/
def execAttBindDisable (j : Nat) (w : Word) (s : State) : Host.Outcome State Fault Refusal := .next (attBindDisable s j w)

/-- ATT_PROF_WRITE (R234): A write to an attention profile is judged on the value it would leave and is ignored when that value is
invalid. -/
def execAttProfWrite (a : RegAccess) (w : Word) (s : State) : Host.Outcome State Fault Refusal := .next (attProfWrite s a w)

/-- SAMPLER_PASS (R263): The LM-head logits are in stage memory, and each slice converts them, applies penalties and temperature,
and sends round A summaries. -/
def execSamplerPass (req node : Nat) (logits : List (BitVec 32)) (heads : List (List (BitVec 32))) (s : State) : Host.Outcome State Fault Refusal :=
  .next (samplerPass s req node logits heads)

/-- ROUND_A_SUMMARY (R265): The sampling home merges the slices' summary records and forms the threshold. -/
def execRoundASummary (slot : Nat) (words : List Word) (s : State) : Host.Outcome State Fault Refusal :=
  .next (roundASummary s slot words)

/-- THRESHOLD_RETURN (R266): The threshold returns to the slices, which run their Gumbel draws and head rankings and send round B. -/
def execThresholdReturn (req node : Nat) (theta : BitVec 16) (s : State) : Host.Outcome State Fault Refusal :=
  .next (thresholdReturn s req node theta)

/-- ROUND_B_DRAW (R267): The sampling home takes the winning draw of each row across the slices. -/
def execRoundBDraw (m : DrawMsg) (s : State) : Host.Outcome State Fault Refusal := .next (roundBDraw s m)

/-- VERIFY_RESULT (R216): A member receives the accepted slots and splices them, commits COMMITTED, and frees the unused pages. -/
def execVerifyResult (m : VerifyMsg) (s : State) : Host.Outcome State Fault Refusal := .next (settle s (verifyResult s m))

/-- MIRRORED_REPORT (R443): A member reports a step as mirrored; when every member has reported, the home releases the tokens. -/
def execMirroredReport (src step : Nat) (reqs : List Nat) (s : State) : Host.Outcome State Fault Refusal :=
  .next (settle s (mirroredReport s src step reqs))

/-- TOKEN_DELIVERY (R269): The origin controller writes the released tokens at OUT_ADDR and then the completion record. -/
def execTokenDelivery (m : DeliveryMsg) (s : State) : Host.Outcome State Fault Refusal := .next (settle s (tokenDelivery s m))

/-- LOGIT_SLICE (R272): Under ADJUSTED or RAW, slice logits reach the origin, which writes them and a COUNT 0 record. -/
def execLogitSlice (req position slot nslots first : Nat) (codes : List (BitVec 16)) (s : State) : Host.Outcome State Fault Refusal :=
  .next (logitSlice s req position slot nslots first codes)

/-- HOST_CHOICE (R272): The host writes its choice to the watched output entry, and the choice is delivered like a drawn token. -/
def execHostChoice (req : Nat) (entry : BitVec 32) (s : State) : Host.Outcome State Fault Refusal := .next (hostChoice s req entry)

/-- GATHER_ROW_DATA (R284): A fetched row returns and is pooled or copied, then placed in the carry cache. -/
def execGatherRowData (k : DescKey) (row : Nat) (ok : Bool) (bytes : List Byte) (s : State) : Host.Outcome State Fault Refusal :=
  .next (gatherRowData s k row ok bytes)

/-- MIGRATION_ADDS_DRAINED (R292): Adds issued before T1 complete at the old copy, and the migration reads and merges the row. -/
def execMigrationAddsDrained (table row : Nat) (s : State) : Host.Outcome State Fault Refusal :=
  .next (settle s (migrationAddsDrained s table row))

/-- MIGRATION_COPY_DONE (R292): The merged row is written to the new location, and take T2 moves the redirect. -/
def execMigrationCopyDone (table row : Nat) (st : BitVec 16) (bytes : List Byte) (s : State) : Host.Outcome State Fault Refusal :=
  .next (settle s (migrationCopyDone s table row st bytes))

/-- PATROL_SCRUB (R308): The patrol scrub reads HBM lines and SRAM words and corrects them. -/
def execPatrolScrub (w : ScrubWord) (s : State) : Host.Outcome State Fault Refusal := .next (patrolScrub s w)

/-- PC_INTERFACE_FAIL (R310): A pseudo-channel interface fails without retraining; MEM_PC_FAIL starts a controller fault. -/
def execPcInterfaceFail (pc : Nat) (retrained : Bool) (s : State) : Host.Outcome State Fault Refusal :=
  .next (pcInterfaceFail s pc retrained)

/-- PC_SUSPECT_CMD (R310): MEM_RETIRE_CMD OP 0b01 makes a pseudo-channel SUSPECT, to be retired at the next reset. -/
def execPcSuspectCmd (target : Nat) (s : State) : Host.Outcome State Fault Refusal := .next (pcSuspectCmd s target)

/-- STACK_RETIRE_CMD (R310): MEM_RETIRE_CMD OP 0b10 marks a stack for retirement at the next reset. -/
def execStackRetireCmd (target : Nat) (s : State) : Host.Outcome State Fault Refusal := .next (stackRetireCmd s target)

/-- ATOMIC_ADD_LINE (R313): A pseudo-channel's atomic unit adds 16 FP32 values to one line as one indivisible change. -/
def execAtomicAddLine (offset : Nat) (addends : List (BitVec 32)) (s : State) : Host.Outcome State Fault Refusal :=
  .next (settle s (atomicAddLine s offset addends))

/-- HDM_HOST_READ (R315): A host CXL.mem read of the HDM window is checked; an uncorrectable or suspect line is answered with poison. -/
def execHdmHostRead (offset : Nat) (s : State) : Host.Outcome State Fault Refusal := .next (hdmHostRead s offset)

/-- HDM_HOST_WRITE (R315): A host CXL.mem write to the HDM window is applied; a full-line write removes a listed line. -/
def execHdmHostWrite (offset : Nat) (bytes : List Byte) (s : State) : Host.Outcome State Fault Refusal :=
  .next (settle s (hdmHostWrite s offset bytes))

/-- FTL_ENABLE (R329): A write of FLT_CTL.EN = 1 sets BUSY and brings up the flash channels. -/
def execFtlEnable (w : Word) (s : State) : Host.Outcome State Fault Refusal := .next (ftlEnable s w)

/-- FTL_BRINGUP_DONE (R316): Channel training and bad-block reading end; EN becomes 1, or ERR is set. -/
def execFtlBringupDone (chans : List ChanFound) (badBlocks : List Nat) (s : State) : Host.Outcome State Fault Refusal :=
  .next (ftlBringupDone s chans badBlocks)

/-- FTL_DISABLE (R329): A write of FLT_CTL.EN = 0 disables the flash tier and discards the map. -/
def execFtlDisable (w : Word) (s : State) : Host.Outcome State Fault Refusal := .next (ftlDisable s w)

/-- SECTOR_READ (R321): A client sector read is checked against the grants and issued as a page read. -/
def execSectorRead (c : FlashClient) (sector : Nat) (s : State) : Host.Outcome State Fault Refusal := .next (sectorRead s c sector)

/-- SECTOR_READ_DATA (R321): A codeword is transferred and decoded; the plaintext CRC is checked and the data is delivered, or
FLT_UNCORR is returned. -/
def execSectorReadData (sector : Nat) (o : CodewordOutcome) (s : State) : Host.Outcome State Fault Refusal :=
  .next (settle s (sectorReadData s sector o))

/-- SECTOR_WRITE (R319): A client write is programmed as a whole unit, or merged in an HBM buffer. -/
def execSectorWrite (c : FlashClient) (sector : Nat) (data : List (List Byte)) (s : State) : Host.Outcome State Fault Refusal :=
  .next (sectorWrite s c sector data)

/-- MERGE_TIMEOUT (R319): A partial unit has waited 1 ms; it is read, merged and programmed. -/
def execMergeTimeout (unit : Nat) (s : State) : Host.Outcome State Fault Refusal := .next (mergeTimeout s unit)

/-- PAGE_PROGRAM_DONE (R322): A page program completes; on failure the block is retired and the data is programmed elsewhere. -/
def execPageProgramDone (unit : Nat) (ok : Bool) (s : State) : Host.Outcome State Fault Refusal := .next (pageProgramDone s unit ok)

/-- BLOCK_ERASE_DONE (R322): A block erase completes, or fails and retires the block. -/
def execBlockEraseDone (block : Nat) (ok : Bool) (s : State) : Host.Outcome State Fault Refusal := .next (blockEraseDone s block ok)

/-- GARBAGE_COLLECTION (R324): Garbage collection picks the block with the fewest valid units, relocates them by compare and swap,
and erases the block. -/
def execGarbageCollection (s : State) : Host.Outcome State Fault Refusal := .next (garbageCollection s)

/-- STATIC_LEVELLING (R322): Erase counts spread beyond WEAR_DELTA, and the least-erased block's data is moved. -/
def execStaticLevelling (s : State) : Host.Outcome State Fault Refusal := .next (staticLevelling s)

/-- ZQ_CALIBRATION (R317): Every 100 ms, the controller runs ZQ calibration on each channel. -/
def execZqCalibration (s : State) : Host.Outcome State Fault Refusal := .next (zqCalibration s)

/-- FLASH_CHANNEL_FAIL (R327): A channel fails training or stops answering; it becomes FAILED and FLT_CHAN_FAIL is posted. -/
def execFlashChannelFail (chan : Nat) (s : State) : Host.Outcome State Fault Refusal := .next (flashChannelFail s chan)

/-- PORT_ENABLE (R336): A write of GLK_PORT_CTL.EN = 1 starts port training. -/
def execPortEnable (n : Nat) (w : Word) (s : State) : Host.Outcome State Fault Refusal := .next (portEnable s n w)

/-- PORT_DISABLE (R339): A write of GLK_PORT_CTL.EN = 0 makes the port DISABLED at once. -/
def execPortDisable (n : Nat) (w : Word) (s : State) : Host.Outcome State Fault Refusal := .next (settle s (portDisable s n w))

/-- PORT_RETRAIN (R336): A write of RETRAIN = 1 to an ACTIVE or REJOIN port retrains it. -/
def execPortRetrain (n : Nat) (s : State) : Host.Outcome State Fault Refusal := .next (settle s (portRetrain s n))

/-- PMD_TRAINING_DONE (R336): Lane training ends; a width is chosen, FEC locks and the key exchange starts, or the port returns to
TRAIN. -/
def execPmdTrainingDone (n : Nat) (lanes : BitVec 8) (s : State) : Host.Outcome State Fault Refusal := .next (pmdTrainingDone s n lanes)

/-- TRAIN_RETRY (R336): 1 s after a failed training or key exchange, the port trains again. -/
def execTrainRetry (n : Nat) (s : State) : Host.Outcome State Fault Refusal := .next (trainRetry s n)

/-- KEYX_FRAME (R346): A KEYX frame is checked against the trust anchor and the peer, and link keys are derived. -/
def execKeyxFrame (n : Nat) (f : KeyxMsg) (s : State) : Host.Outcome State Fault Refusal := .next (settle s (keyxFrame s n f))

/-- CREDIT_FRAME (R349): A CREDIT frame returns credits and acknowledgements, or carries a NAK. -/
def execCreditFrame (n : Nat) (f : CreditMsg) (s : State) : Host.Outcome State Fault Refusal := .next (settle s (creditFrame s n f))

/-- LINK_TEST_FRAME (R336): A TC5 link-test echo frame is answered or checked. -/
def execLinkTestFrame (n : Nat) (echo : Bool) (ok : Bool) (s : State) : Host.Outcome State Fault Refusal :=
  .next (settle s (linkTestFrame s n echo ok))

/-- LANE_FAULT (R339): A lane loses lock or errs; the port downshifts, or retrains when too few lanes remain. -/
def execLaneFault (n : Nat) (good : BitVec 8) (s : State) : Host.Outcome State Fault Refusal := .next (settle s (laneFault s n good))

/-- PORT_RX_TIMEOUT (R339): No valid frame arrives for 10 µs, and the port retrains with GLK_PORT_DOWN. -/
def execPortRxTimeout (n : Nat) (s : State) : Host.Outcome State Fault Refusal := .next (settle s (portRxTimeout s n))

/-- CREDIT_TIMEOUT (R339): No credit is returned within CREDIT_NS on a waiting VC, and the port retrains. -/
def execCreditTimeout (n vc : Nat) (s : State) : Host.Outcome State Fault Refusal := .next (creditTimeout s n vc)

/-- DATA_FRAME (R341): A DATA frame is accepted in sequence, checked and decrypted, or discarded and NAKed. -/
def execDataFrame (n : Nat) (f : DataMsg) (s : State) : Host.Outcome State Fault Refusal := .next (settle s (dataFrame s n f))

/-- PUT (R352): A remote PUT is checked and its bytes are written at OFFSET. -/
def execPut (r : RemoteReq) (bytes : List Byte) (s : State) : Host.Outcome State Fault Refusal := .next (settle s (put s r bytes))

/-- GET (R352): A remote GET is checked and the bytes are returned. -/
def execGet (r : RemoteReq) (host : List Byte) (s : State) : Host.Outcome State Fault Refusal := .next (get s r host)

/-- ADD_F32 (R352): A remote ADD_F32 adds 16 FP32 values to one HBM line. -/
def execAddF32 (r : RemoteReq) (addends : List (BitVec 32)) (s : State) : Host.Outcome State Fault Refusal :=
  .next (settle s (addF32 s r addends))

/-- ADD_U64 (R352): A remote ADD_U64 adds to an 8-byte word and returns the old value. -/
def execAddU64 (r : RemoteReq) (v : Word) (s : State) : Host.Outcome State Fault Refusal := .next (settle s (addU64 s r v))

/-- CAS64 (R352): A remote CAS64 swaps an 8-byte word when it equals the compare value, and returns the old value. -/
def execCas64 (r : RemoteReq) (cmp swp : Word) (s : State) : Host.Outcome State Fault Refusal := .next (settle s (cas64 s r cmp swp))

/-- PUT_SIGNAL (R352): A remote PUT_SIGNAL writes its bytes and then adds 1 to the signal word. -/
def execPutSignal (r : RemoteReq) (bytes : List Byte) (s : State) : Host.Outcome State Fault Refusal :=
  .next (settle s (putSignal s r bytes))

/-- REMOTE_RESPONSE (R351): A response ends an outstanding remote operation; a late response is discarded. -/
def execRemoteResponse (tag : Nat) (status : BitVec 16) (arg : Word) (bytes : List Byte) (s : State) : Host.Outcome State Fault Refusal :=
  .next (settle s (remoteResponse s tag status arg bytes))

/-- RESP_TIMEOUT (R351): RESP_US passes without a response, and the operation ends with GLK_RESP_TIMEOUT. -/
def execRespTimeout (tag : Nat) (s : State) : Host.Outcome State Fault Refusal := .next (settle s (respTimeout s tag))

/-- BUSY_RETRY (R350): BUSY_NS after a GLK_BUSY answer, the operation is sent again. -/
def execBusyRetry (tag : Nat) (s : State) : Host.Outcome State Fault Refusal := .next (busyRetry s tag)

/-- FLOW_MOVE (R344): A flow's outstanding operations finish after its route's ACTIVE ports change, and the flow moves to its new port. -/
def execFlowMove (f : FlowKey) (s : State) : Host.Outcome State Fault Refusal := .next (flowMove s f)

/-- COLL_TIMEOUT (R356): A collective phase is not complete within the TC1 limit; it ends with GLK_COLL_TIMEOUT and the step commits
nothing. -/
def execCollTimeout (coll : Nat) (s : State) : Host.Outcome State Fault Refusal := .next (collTimeout s coll)

/-- REEL_SLOT (R363): A Reel slot boundary refills buckets and makes the slot's flows eligible. -/
def execReelSlot (s : State) : Host.Outcome State Fault Refusal := .next (reelSlot s)

/-- SHAPER_WRITE (R365): A write to SHP_TC_SHAPE takes effect at the next slot boundary, and flows are recomputed. -/
def execShaperWrite (k : Nat) (w : Word) (s : State) : Host.Outcome State Fault Refusal := .next (shaperWrite s k w)

/-- GATE_ENTRY_END (R366): A gate entry's interval ends, and the next entry, the hold or the repeat begins. -/
def execGateEntryEnd (n : Nat) (s : State) : Host.Outcome State Fault Refusal := .next (gateEntryEnd s n)

/-- GATE_SWAP_REQUEST (R371): A write of PEND = 1 asks for the gate banks to swap at the next anchor. -/
def execGateSwapRequest (n : Nat) (w : Word) (s : State) : Host.Outcome State Fault Refusal := .next (gateSwapRequest s n w)

/-- GATE_ENABLE (R367): A write to SHP_GATE_CTL.EN enables the gates from the next anchor, or opens every gated class at once. -/
def execGateEnable (n : Nat) (w : Word) (s : State) : Host.Outcome State Fault Refusal := .next (gateEnable s n w)

/-- MOVE_CHANNEL_GRANT (R374): A channel frees, and a waiting MOVE takes it and starts. -/
def execMoveChannelGrant (mover : Nat) (host : List Byte) (s : State) : Host.Outcome State Fault Refusal :=
  .next (moveChannelGrant s mover host)

/-- MOVE_COMPLETE (R382): A MOVE's writes or remote PUT responses are all done, and its record is written. -/
def execMoveComplete (mover chan : Nat) (s : State) : Host.Outcome State Fault Refusal := .next (settle s (moveComplete s mover chan))

/-- MOVER_READ_FAULT (R384): A mover's read-ahead read faults; the mover enters STOPPING and discards its read-ahead data. -/
def execMoverReadFault (mover : Nat) (st : BitVec 16) (done : List Nat) (s : State) : Host.Outcome State Fault Refusal :=
  .next (moverReadFault s mover st done)

/-- MOVER_STOP_DRAINED (R384): The issued writes complete, the stopped MOVEs write their records, BMV_MOVER_STOP is posted, and the
mover returns to RUN. -/
def execMoverStopDrained (mover : Nat) (s : State) : Host.Outcome State Fault Refusal := .next (moverStopDrained s mover)

/-- MOVER_WRITE_FAULT (R385): A write fault stops one channel, and its MOVE completes with the status. -/
def execMoverWriteFault (mover chan : Nat) (st : BitVec 16) (done : Nat) (s : State) : Host.Outcome State Fault Refusal :=
  .next (settle s (moverWriteFault s mover chan st done))

/-- MOVER_RESET (R387): BMV_MOVER_CMD RESET stops a mover's MOVEs with BMV_RESET and returns the mover to RUN. -/
def execMoverReset (mover : Nat) (done : List Nat) (s : State) : Host.Outcome State Fault Refusal := .next (moverReset s mover done)

/-- MAP_LOG_RECORD (R396): A spread map log record is applied, fetched up to, or causes a whole-region copy, and is forwarded by
fanout. -/
def execMapLogRecord (src : Nat) (words : List Word) (s : State) : Host.Outcome State Fault Refusal :=
  .next (settle s (mapLogRecord s src words))

/-- SURVEY_ROUND (R397): Each PERIOD_US, a controller sends its epoch to the next entry. -/
def execSurveyRound (s : State) : Host.Outcome State Fault Refusal := .next (surveyRound s)

/-- SURVEY_EPOCH (R397): A survey epoch arrives; a receiver that is behind fetches, and one that is ahead pushes its records. -/
def execSurveyEpoch (src : Nat) (epoch : Nat) (s : State) : Host.Outcome State Fault Refusal := .next (settle s (surveyEpoch s src epoch))

/-- DTM_JOIN (R395): A write of DTM_CTL.JOIN = 1 starts copying the map region and log from SEED. -/
def execDtmJoin (w : Word) (s : State) : Host.Outcome State Fault Refusal := .next (dtmJoin s w)

/-- JOIN_COPY_DONE (R395): The copy from SEED completes, and the controller takes SEED's epoch. -/
def execJoinCopyDone (epoch : Nat) (entries : List (Nat × List Word)) (log : List (List Word)) (ok : Bool) (s : State) : Host.Outcome State Fault Refusal :=
  .next (settle s (joinCopyDone s epoch entries log ok))

/-- JOIN_TIMEOUT (R395): SEED fails to answer within 100 ms, and ERR is set with DTM_JOIN_FAIL. -/
def execJoinTimeout (s : State) : Host.Outcome State Fault Refusal := .next (joinTimeout s)

/-- RENEW_TIMER (R405): Every RENEW_US, a controller sends RENEW to each home it depends on. -/
def execRenewTimer (s : State) : Host.Outcome State Fault Refusal := .next (renewTimer s)

/-- RENEW (R405): A home receives a RENEW and answers it, noting TWIN_LOSS or answering DTM_LEASE_REVOKED. -/
def execRenew (epoch : Nat) (words : List Word) (s : State) : Host.Outcome State Fault Refusal := .next (settle s (renew s epoch words))

/-- LEASE_LAPSE (R405): A holder's lease passes 0.9 × LEN_US without renewal, and it stops writing. -/
def execLeaseLapse (home : Nat) (s : State) : Host.Outcome State Fault Refusal := .next (settle s (leaseLapse s home))

/-- HOLDER_EXPIRY (R411): At a home, both members of a pair have lapsed; their records are released and DTM_REQUEST_LOST is posted. -/
def execHolderExpiry (node : Nat) (s : State) : Host.Outcome State Fault Refusal := .next (settle s (holderExpiry s node))

/-- QUERY (R407): A home answers a QUERY with the record's owner and lease epoch. -/
def execQuery (epoch : Nat) (words : List Word) (s : State) : Host.Outcome State Fault Refusal := .next (settle s (query s epoch words))

/-- ANSWER (R412): An ANSWER arrives, and the asker serves or stops serving the request. -/
def execAnswer (src : Nat) (words : List Word) (s : State) : Host.Outcome State Fault Refusal := .next (settle s (answer s src words))

/-- QUERY_TIMEOUT (R412): No ANSWER arrives within LEN_US, and the QUERY is sent again. -/
def execQueryTimeout (req : Nat) (s : State) : Host.Outcome State Fault Refusal := .next (queryTimeout s req)

/-- CLAIM (R409): A home receives a CLAIM for a twin's requests and refuses it, or revokes the twin. -/
def execClaim (epoch : Nat) (words : List Word) (s : State) : Host.Outcome State Fault Refusal := .next (settle s (claim s epoch words))

/-- BUCKET_COPY (R404): After MOVING is set, the old home copies the bucket's records to NEXT by takes. -/
def execBucketCopy (bucket : Nat) (s : State) : Host.Outcome State Fault Refusal := .next (settle s (bucketCopy s bucket))

/-- TRAVERSE_OPEN (R419): A Traverse trigger starts a transit record, a pin and an OPEN, up to 256 Traverses at once. -/
def execTraverseOpen (t : TraverseTrigger) (s : State) : Host.Outcome State Fault Refusal := .next (settle s (traverseOpen s t))

/-- OPEN (R419): A destination leader checks an OPEN, records it and answers ACCEPT or a refusal. -/
def execOpenMsg (hdr : List Word) (rec : List Word) (s : State) : Host.Outcome State Fault Refusal := .next (settle s (openMsg s hdr rec))

/-- ACCEPT (R419): The source leader receives ACCEPT, or a refusal that makes it try the next group or abandon. -/
def execAccept (hdr : List Word) (s : State) : Host.Outcome State Fault Refusal := .next (settle s (accept s hdr))

/-- OPEN_TIMEOUT (R419): No ACCEPT arrives within LEG_US, and OPEN is sent again. -/
def execOpenTimeout (req : Nat) (s : State) : Host.Outcome State Fault Refusal := .next (settle s (openTimeout s req))

/-- LEG_RESERVE_RETRY (R426): A frame is freed, or 100 µs pass, and the destination asks again for the frames a leg still needs. -/
def execLegReserveRetry (req : Nat) (s : State) : Host.Outcome State Fault Refusal := .next (settle s (legReserveRetry s req))

/-- LEG_RESERVE_STALL (R426): A leg's frames are not reserved within STALL_MS, and ABANDON with TRV_NO_FRAMES is sent. -/
def execLegReserveStall (req : Nat) (s : State) : Host.Outcome State Fault Refusal := .next (settle s (legReserveStall s req))

/-- LEG_REQ (R426): A source member checks a LEG_REQ and PUTs the pages followed by LEG_REPLY. -/
def execLegReq (hdr : List Word) (entries : List Word) (flash : List (Option (List Byte))) (s : State) : Host.Outcome State Fault Refusal :=
  .next (settle s (legReq s hdr entries flash))

/-- LEG_REPLY (R426): The destination receives the reply, decodes coded data, and commits a leg take. -/
def execLegReply (hdr : List Word) (entries : List Word) (coded : List Byte) (s : State) : Host.Outcome State Fault Refusal :=
  .next (settle s (legReply s hdr entries coded))

/-- LEG_TIMEOUT (R428): No reply arrives within LEG_US, and the LEG_REQ is sent to the source's twin, alternating between the two. -/
def execLegTimeout (req seq : Nat) (s : State) : Host.Outcome State Fault Refusal := .next (settle s (legTimeout s req seq))

/-- COUNT_ENTRY (R423): Count-table entries arrive and are inserted into the destination slice's table. -/
def execCountEntry (req srcSlot : Nat) (entries : List Word) (last : Bool) (s : State) : Host.Outcome State Fault Refusal :=
  .next (settle s (countEntry s req srcSlot entries last))

/-- DONE (R430): The destination leader collects DONE from every member and builds the closing take. -/
def execDoneMsg (hdr : List Word) (s : State) : Host.Outcome State Fault Refusal := .next (settle s (doneMsg s hdr))

/-- OWNED (R431): A destination member writes E + 1 into its root and takes the request into rosters. -/
def execOwned (hdr : List Word) (s : State) : Host.Outcome State Fault Refusal := .next (settle s (owned s hdr))

/-- RELEASE (R431): A source member or outside holder frees the request's frames and root, or keeps them unpinned. -/
def execRelease (hdr : List Word) (s : State) : Host.Outcome State Fault Refusal := .next (settle s (release s hdr))

/-- ABANDON (R432): The destination frees the request's frames, reservations and root; at the source leader, it abandons the Traverse. -/
def execAbandon (hdr : List Word) (s : State) : Host.Outcome State Fault Refusal := .next (settle s (abandon s hdr))

/-- TRAVERSE_DEST_RETRY (R416): Every STALL_MS, a held source leader tries again to find a destination. -/
def execTraverseDestRetry (req : Nat) (s : State) : Host.Outcome State Fault Refusal := .next (settle s (traverseDestRetry s req))

/-- AUTO_PARK (R418): A request held for KVA_POOL_EMPTY for AUTO_PARK_MS is ended with TRV_PARKED and parked. -/
def execAutoPark (req : Nat) (s : State) : Host.Outcome State Fault Refusal := .next (settle s (autoPark s req))

/-- BEAT_SEND (R437): Every 1,600 FAB cycles, a member sends a heartbeat beat to its twin. -/
def execBeatSend (s : State) : Host.Outcome State Fault Refusal := .next (settle s (beatSend s))

/-- BEAT (R437): A valid beat arrives, clears the miss count, and conveys the twin's state and YIELD. -/
def execBeat (sideband : Bool) (w : Word) (s : State) : Host.Outcome State Fault Refusal := .next (settle s (beat s sideband w))

/-- BEAT_MISS (R438): 1,600 FAB cycles pass without a valid beat, and a miss is counted. -/
def execBeatMiss (s : State) : Host.Outcome State Fault Refusal := .next (settle s (beatMiss s))

/-- PROBE_REPLY (R446): A probe is answered; the sideband fault is noted, or the pair becomes DETACHED. -/
def execProbeReply (r : ProbeAnswer) (s : State) : Host.Outcome State Fault Refusal := .next (settle s (probeReply s r))

/-- PROBE_TIMEOUT (R446): Neither probe is answered within 2 µs, and the takeover starts. -/
def execProbeTimeout (s : State) : Host.Outcome State Fault Refusal := .next (settle s (probeTimeout s))

/-- MIRROR_RECORD (R441): The twin applies a mirror record in MSEQ order and acknowledges it. -/
def execMirrorRecord (hdr : List Word) (body : MirrorBody) (s : State) : Host.Outcome State Fault Refusal :=
  .next (settle s (mirrorRecord s hdr body))

/-- MIRROR_ACK_TIMEOUT (R444): A mirror record goes unacknowledged for ACK_US, and the member holds and probes. -/
def execMirrorAckTimeout (s : State) : Host.Outcome State Fault Refusal := .next (settle s (mirrorAckTimeout s))

/-- CON_ENABLE (R458): A write to CON_CTL.EN starts or stops Continuity and its beats. -/
def execConEnable (w : Word) (s : State) : Host.Outcome State Fault Refusal := .next (settle s (conEnable s w))

/-- YIELD (R452): CON_CMD YIELD hands every request to the twin in a planned handover. -/
def execYield (s : State) : Host.Outcome State Fault Refusal := .next (settle s (yield s))

/-- REINTEGRATE (R453): CON_CMD REINTEGRATE starts supplying state to a returning twin. -/
def execReintegrate (crcMatch : Bool) (s : State) : Host.Outcome State Fault Refusal := .next (settle s (reintegrate s crcMatch))

/-- REINT_BULK_DONE (R453): The bulk copy ends and the replay passes begin. -/
def execReintBulkDone (s : State) : Host.Outcome State Fault Refusal := .next (settle s (reintBulkDone s))

/-- REINT_REPLAY_PASS_DONE (R453): A replay pass ends; another pass runs, or the cutover starts. -/
def execReintReplayPassDone (s : State) : Host.Outcome State Fault Refusal := .next (settle s (reintReplayPassDone s))

/-- AUDIT_TICK (R456): In compare mode, a frame is audited by CRC against its mirror. -/
def execAuditTick (s : State) : Host.Outcome State Fault Refusal := .next (settle s (auditTick s))

/-- COMPARE_PROBE (R457): Every PERIOD_MS, the probe kernel runs and its CRC is checked against EXPECT. -/
def execCompareProbe (crc : BitVec 32) (s : State) : Host.Outcome State Fault Refusal := .next (settle s (compareProbe s crc))

/-- DROOP_TRIP (R466): A droop sensor trips, and CORE runs at 1.05 GHz. -/
def execDroopTrip (site : Nat) (s : State) : Host.Outcome State Fault Refusal := .next (droopTrip s site)

/-- DROOP_CLEAR (R466): Every sensor clears, and the 200 ns recovery wait starts. -/
def execDroopClear (s : State) : Host.Outcome State Fault Refusal := .next (droopClear s)

/-- DROOP_RECOVERY (R466): The recovery wait ends, and CORE returns to its former rate. -/
def execDroopRecovery (s : State) : Host.Outcome State Fault Refusal := .next (droopRecovery s)

/-- POWER_WINDOW (R469): A power-estimate window ends, and TRIM is entered or left. -/
def execPowerWindow (watts : Nat) (s : State) : Host.Outcome State Fault Refusal := .next (powerWindow s watts)

/-- IDLE_GATE (R470): A CORE unit has no work for IDLE_US, and its clock is gated. -/
def execIdleGate (u : CoreUnit) (s : State) : Host.Outcome State Fault Refusal := .next (idleGate s u)

/-- HOLD (R471): CLK_PSTATE_CMD HOLD enters HOLD, or is refused. -/
def execHold (s : State) : Host.Outcome State Fault Refusal := .next (hold s)

/-- RESUME (R471): CLK_PSTATE_CMD RESUME returns the controller to FULL. -/
def execResume (s : State) : Host.Outcome State Fault Refusal := .next (resume s)

/-- CONTROLLER_RESET (R473): CLK_RESET_CMD CONTROLLER with the right KEY starts a controller reset. -/
def execControllerReset (w : Word) (s : State) : Host.Outcome State Fault Refusal := .next (controllerReset s w)

/-- CRST_FALL (R531): A falling edge of CRST_N starts a controller reset. -/
def execCrstFall (s : State) : Host.Outcome State Fault Refusal := .next (crstFall s)

/-- CONTROLLER_FAULT (R472): Once a controller fault's error record is written, a controller reset starts. -/
def execControllerFault (cause : BitVec 16) (s : State) : Host.Outcome State Fault Refusal := .next (controllerFault s cause)

/-- PORST (R472): PORST_N is asserted, or power comes up, and a power-on reset starts. -/
def execPorst (s : State) : Host.Outcome State Fault Refusal := .next (porst s)

/-- PORST_RELEASE (R535): PORST_N is released, the straps are sampled, and the ROM starts. -/
def execPorstRelease (busSel : Bool) (addr : BitVec 3) (coresPass : BitVec 4) (s : State) : Host.Outcome State Fault Refusal :=
  .next (porstRelease s busSel addr coresPass)

/-- RAIL_FAULT (R534): A rail lies outside its monitor thresholds for 1 µs, and a power-on reset is held. -/
def execRailFault (rail : Rail) (s : State) : Host.Outcome State Fault Refusal := .next (railFault s rail)

/-- RAIL_RECOVERY (R534): Every rail has been within its limits for 100 µs, and the power-on reset ends. -/
def execRailRecovery (s : State) : Host.Outcome State Fault Refusal := .next (railRecovery s)

/-- HBM_CHECK (R476): CLK_HBM_CMD CHECK forms granule CRCs and asks the twin for its CRCs. -/
def execHbmCheck (first countM1 : Nat) (s : State) : Host.Outcome State Fault Refusal := .next (hbmCheck s first countM1)

/-- HBM_CHECK_REPLY (R476): The twin's CRC arrives, and the granule leaves the suspect state or stays suspect. -/
def execHbmCheckReply (r : Option (BitVec 32)) (s : State) : Host.Outcome State Fault Refusal := .next (hbmCheckReply s r)

/-- HBM_CHECK_CRC_REQUEST (R476): A twin computes a granule CRC at scrub priority for its partner. -/
def execHbmCheckCrcRequest (granule : Nat) (s : State) : Host.Outcome State Fault Refusal := .next (hbmCheckCrcRequest s granule)

/-- HBM_CLEAR (R476): CLK_HBM_CMD CLEAR writes granules with zeros and valid check bits. -/
def execHbmClear (first countM1 : Nat) (s : State) : Host.Outcome State Fault Refusal := .next (hbmClear s first countM1)

/-- HBM_CLEAR_DONE (R476): The granules leave the suspect state, and BUSY clears. -/
def execHbmClearDone (s : State) : Host.Outcome State Fault Refusal := .next (settle s (hbmClearDone s))

/-- STACK_TEMP_POLL (R536): Every 1 ms, each stack's temperature sensor is read. -/
def execStackTempPoll (temps : List Nat) (s : State) : Host.Outcome State Fault Refusal := .next (stackTempPoll s temps)

/-- THERMAL_ALERT (R537): A sensor reaches its alert level; THERM_ALERT_N falls and TRIM is entered. -/
def execThermalAlert (dieT : List Nat) (stackT : List Nat) (s : State) : Host.Outcome State Fault Refusal :=
  .next (thermalAlert s dieT stackT)

/-- THERMAL_ALERT_CLEAR (R537): The temperatures fall below their clear levels, and the alert ends. -/
def execThermalAlertClear (dieT : List Nat) (stackT : List Nat) (s : State) : Host.Outcome State Fault Refusal :=
  .next (thermalAlertClear s dieT stackT)

/-- THERMAL_TRIP (R539): A trip temperature is reached; the transmitters and beats stop and THERM_TRIP_N falls. -/
def execThermalTrip (s : State) : Host.Outcome State Fault Refusal := .next (thermalTrip s)

/-- BOOT_GO (R482): SEC_BOOT_CMD GO starts fetching and checking the boot bundle. -/
def execBootGo (s : State) : Host.Outcome State Fault Refusal := .next (bootGo s)

/-- IMAGE_FETCH_DONE (R484): A boot image is read and checked, and boot continues to its next stage. -/
def execImageFetchDone (img : BootImage) (s : State) : Host.Outcome State Fault Refusal := .next (imageFetchDone s img)

/-- PRELOCK_BAR0_ACCESS (R481): Before the lock, a host BAR0 access outside the boot registers gets Unsupported Request; a write is counted. -/
def execPrelockBar0Access (a : RegAccess) (write : Bool) (s : State) : Host.Outcome State Fault Refusal :=
  .next (prelockBar0Access s a write)

/-- PROT_WINDOW_WRITE (R494): A write to the protection window or a BW register after the lock is ignored and logged with SEC_LOCKED. -/
def execProtWindowWrite (a : RegAccess) (w : Word) (s : State) : Host.Outcome State Fault Refusal := .next (protWindowWrite s a w)

/-- SPDM_GET_VERSION (R499): The SPDM responder answers GET_VERSION. -/
def execSpdmGetVersion (s : State) : Host.Outcome State Fault Refusal := .next (spdmGetVersion s)

/-- SPDM_GET_CAPABILITIES (R499): The SPDM responder answers GET_CAPABILITIES. -/
def execSpdmGetCapabilities (s : State) : Host.Outcome State Fault Refusal := .next (spdmGetCapabilities s)

/-- SPDM_NEGOTIATE_ALGORITHMS (R499): The SPDM responder answers NEGOTIATE_ALGORITHMS with P-521 and SHA-512. -/
def execSpdmNegotiateAlgorithms (offersP521 offersSha512 : Bool) (s : State) : Host.Outcome State Fault Refusal :=
  .next (spdmNegotiateAlgorithms s offersP521 offersSha512)

/-- SPDM_GET_DIGESTS (R499): The SPDM responder returns certificate digests. -/
def execSpdmGetDigests (s : State) : Host.Outcome State Fault Refusal := .next (spdmGetDigests s)

/-- SPDM_GET_CERTIFICATE (R499): The SPDM responder returns the slot 0 certificate chain. -/
def execSpdmGetCertificate (slot offset length : Nat) (s : State) : Host.Outcome State Fault Refusal :=
  .next (spdmGetCertificate s slot offset length)

/-- SPDM_CHALLENGE (R499): The SPDM responder answers CHALLENGE with a measurement summary. -/
def execSpdmChallenge (slot : Nat) (nonce : List Byte) (s : State) : Host.Outcome State Fault Refusal :=
  .next (spdmChallenge s slot nonce)

/-- SPDM_GET_MEASUREMENTS (R499): The SPDM responder returns signed measurements. -/
def execSpdmGetMeasurements (index : Nat) (nonce : List Byte) (s : State) : Host.Outcome State Fault Refusal :=
  .next (spdmGetMeasurements s index nonce)

/-- ERROR_RECORD_WRITE (R507): A queued error record is written to its NVS slot, or merged into the newest record. -/
def execErrorRecordWrite (s : State) : Host.Outcome State Fault Refusal := .next (errorRecordWrite s)

/-- REFETCH_RANGE_DATA (R511): A re-fetched range arrives, is checked and written, and the held requests are released after the last
range. -/
def execRefetchRangeData (tensor offset : Nat) (bytes : List Byte) (blocksOk : Bool) (s : State) : Host.Outcome State Fault Refusal :=
  .next (settle s (refetchRangeData s tensor offset bytes blocksOk))

/-- REFETCH_FAIL (R512): The re-fetch fails or has no answer within 1 ms, and RAS_REFETCH_FAIL is posted. -/
def execRefetchFail (tensor offset : Nat) (s : State) : Host.Outcome State Fault Refusal := .next (refetchFail s tensor offset)

/-- REGISTER_WRITE (R543): A BAR0 write to a register with no row of its own takes effect by its fields' access types. -/
def execRegisterWrite (a : RegAccess) (w : Word) (s : State) : Host.Outcome State Fault Refusal := .next (settle s (registerWrite s a w))

/-- RC_FIELD_READ (R545): A read of a read-clear field returns its count and clears it. -/
def execRcFieldRead (a : RegAccess) (s : State) : Host.Outcome State Fault Refusal := .next (rcFieldRead s a)

/-- BAR0_UNSUPPORTED (R543): An undecoded, narrow or unaligned BAR0 access gets Unsupported Request. -/
def execBar0Unsupported (a : RegAccess) (write : Bool) (s : State) : Host.Outcome State Fault Refusal := .next (bar0Unsupported s a write)

/-- CRST_RELEASE (R531): CRST_N rises after being held low, and step 6 of the controller reset (the boot ROM) may begin. -/
def execCrstRelease (s : State) : Host.Outcome State Fault Refusal := .next (crstRelease s)

/-- CREDIT_FRAME_INTERVAL (R341): A receiver sends a CREDIT frame at least every 100 ns while it owes an acknowledgement, and at
least every 1 µs otherwise. -/
def execCreditFrameInterval (n : Nat) (s : State) : Host.Outcome State Fault Refusal := .next (creditFrameInterval s n)

/-- FRAME_ON_WIRE_FINISHES (R348): The frame on a port's wire finishes, and the port picks its next frame by class order, gate
window and credits. -/
def execFrameOnWireFinishes (n : Nat) (s : State) : Host.Outcome State Fault Refusal := .next (frameOnWireFinishes s n)

/-- CANCEL_REACHES_OWNER (R117): A REQ_CANCEL forwarded through the home reaches the owning group's leader, which marks the cancel
pending and holds the request. -/
def execCancelReachesOwner (req node : Nat) (src : DescKey) (s : State) : Host.Outcome State Fault Refusal :=
  .next (settle s (cancelReachesOwner s req node src))

/-- CLAIM_RESEND (R408): A RENEW or CLAIM sent to a home that failed before answering goes unanswered for the TC0 response limit and
is sent again to the new home. -/
def execClaimResend (home seq : Nat) (s : State) : Host.Outcome State Fault Refusal := .next (claimResend s home seq)

end Sys2Proof.Machine
end

