-- ==== Sys2Proof/Machine/Dispatch.lean ====
section
/-! DEFINITION. What each command does: one arm per constructor. -/

namespace Sys2Proof.Machine

open Sys2Proof

def exec (i : Instr) (s : State) : Host.Outcome State Fault Refusal :=
  match i with
  | .ucieLinkTraining offer modUp rateGt repairs => Sys2Proof.Machine.execUcieLinkTraining offer modUp rateGt repairs s
  | .ucieModuleFail m => Sys2Proof.Machine.execUcieModuleFail m s
  | .ctxEnable ctx => Sys2Proof.Machine.execCtxEnable ctx s
  | .ctxEnableReadDone entry line => Sys2Proof.Machine.execCtxEnableReadDone entry line s
  | .ctxDisable ctx => Sys2Proof.Machine.execCtxDisable ctx s
  | .ctxDisableDone ctx => Sys2Proof.Machine.execCtxDisableDone ctx s
  | .evqCfgWrite w => Sys2Proof.Machine.execEvqCfgWrite w s
  | .hdmCfgWrite w => Sys2Proof.Machine.execHdmCfgWrite w s
  | .doorbellSnoop ctx => Sys2Proof.Machine.execDoorbellSnoop ctx s
  | .doorbellPoll => Sys2Proof.Machine.execDoorbellPoll s
  | .doorbellLineData ctx line => Sys2Proof.Machine.execDoorbellLineData ctx line s
  | .cqHeadSnoop ctx line => Sys2Proof.Machine.execCqHeadSnoop ctx line s
  | .hostAccessTimeout a => Sys2Proof.Machine.execHostAccessTimeout a s
  | .hostDataError a => Sys2Proof.Machine.execHostDataError a s
  | .nop k d => Sys2Proof.Machine.execNop k d s
  | .reservedOpcode k d => Sys2Proof.Machine.execReservedOpcode k d s
  | .reqPost k d param input home => Sys2Proof.Machine.execReqPost k d param input home s
  | .reqPark k d home => Sys2Proof.Machine.execReqPark k d home s
  | .reqCancel k d home => Sys2Proof.Machine.execReqCancel k d home s
  | .reqReleaseFree k d home => Sys2Proof.Machine.execReqReleaseFree k d home s
  | .reqReleaseReshoot k d home => Sys2Proof.Machine.execReqReleaseReshoot k d home s
  | .kernelLoad k d image => Sys2Proof.Machine.execKernelLoad k d image s
  | .kernelUnload k d => Sys2Proof.Machine.execKernelUnload k d s
  | .kernelRun k d => Sys2Proof.Machine.execKernelRun k d s
  | .move k d => Sys2Proof.Machine.execMove k d s
  | .packCode k d => Sys2Proof.Machine.execPackCode k d s
  | .packCodeSafe k d => Sys2Proof.Machine.execPackCodeSafe k d s
  | .packUnpack k d => Sys2Proof.Machine.execPackUnpack k d s
  | .packFree k d => Sys2Proof.Machine.execPackFree k d s
  | .tableRegister k d => Sys2Proof.Machine.execTableRegister k d s
  | .tableFree k d => Sys2Proof.Machine.execTableFree k d s
  | .tableRefresh k d list => Sys2Proof.Machine.execTableRefresh k d list s
  | .tableLoad k d rows => Sys2Proof.Machine.execTableLoad k d rows s
  | .tableSync k d flash => Sys2Proof.Machine.execTableSync k d flash s
  | .gatherPool k d g => Sys2Proof.Machine.execGatherPool k d g s
  | .gatherCopy k d g => Sys2Proof.Machine.execGatherCopy k d g s
  | .update k d g => Sys2Proof.Machine.execUpdate k d g s
  | .takeSubmit k d => Sys2Proof.Machine.execTakeSubmit k d s
  | .takeSlateRead k slate => Sys2Proof.Machine.execTakeSlateRead k slate s
  | .semSignalAdd k d => Sys2Proof.Machine.execSemSignalAdd k d s
  | .semSignalSet k d => Sys2Proof.Machine.execSemSignalSet k d s
  | .semWait k d => Sys2Proof.Machine.execSemWait k d s
  | .semWaitTimeout k => Sys2Proof.Machine.execSemWaitTimeout k s
  | .stepAdmission est => Sys2Proof.Machine.execStepAdmission est s
  | .promptAdmission => Sys2Proof.Machine.execPromptAdmission s
  | .roster src words => Sys2Proof.Machine.execRoster src words s
  | .unitEnd r => Sys2Proof.Machine.execUnitEnd r s
  | .contextTeardown ctx cause => Sys2Proof.Machine.execContextTeardown ctx cause s
  | .contextTeardownDone ctx => Sys2Proof.Machine.execContextTeardownDone ctx s
  | .takeSlateForward src srcKey retries host slate => Sys2Proof.Machine.execTakeSlateForward src srcKey retries host slate s
  | .takePrepare m => Sys2Proof.Machine.execTakePrepare m s
  | .intentMirrorAck id => Sys2Proof.Machine.execIntentMirrorAck id s
  | .takeVote m => Sys2Proof.Machine.execTakeVote m s
  | .takeVoteTimeout takeId part => Sys2Proof.Machine.execTakeVoteTimeout takeId part s
  | .decisionMirrorAck takeId => Sys2Proof.Machine.execDecisionMirrorAck takeId s
  | .takeCommit id stamp => Sys2Proof.Machine.execTakeCommit id stamp s
  | .takeAbort id stamp => Sys2Proof.Machine.execTakeAbort id stamp s
  | .takeAck m => Sys2Proof.Machine.execTakeAck m s
  | .takeIndoubtTimeout id => Sys2Proof.Machine.execTakeIndoubtTimeout id s
  | .takeInquiry src id stamp => Sys2Proof.Machine.execTakeInquiry src id stamp s
  | .takeEndedNotice ended => Sys2Proof.Machine.execTakeEndedNotice ended s
  | .takeRetry takeId => Sys2Proof.Machine.execTakeRetry takeId s
  | .mxeUnitDone flight kernel unit core sums numeric => Sys2Proof.Machine.execMxeUnitDone flight kernel unit core sums numeric s
  | .mxeRetryDone flight kernel unit core sums numeric => Sys2Proof.Machine.execMxeRetryDone flight kernel unit core sums numeric s
  | .mxeCoreTest core => Sys2Proof.Machine.execMxeCoreTest core s
  | .mxeCoreRetire core => Sys2Proof.Machine.execMxeCoreRetire core s
  | .coreSelftestDone core pass => Sys2Proof.Machine.execCoreSelftestDone core pass s
  | .expanderBlock run tensor block => Sys2Proof.Machine.execExpanderBlock run tensor block s
  | .expanderReread run tensor block => Sys2Proof.Machine.execExpanderReread run tensor block s
  | .appendRows a => Sys2Proof.Machine.execAppendRows a s
  | .kvaAgeTick => Sys2Proof.Machine.execKvaAgeTick s
  | .eviction cls => Sys2Proof.Machine.execEviction cls s
  | .demoteWriteDone frame flashAddr ok => Sys2Proof.Machine.execDemoteWriteDone frame flashAddr ok s
  | .pagePromote page ok bytes => Sys2Proof.Machine.execPagePromote page ok bytes s
  | .dropNotice src req highest count lost => Sys2Proof.Machine.execDropNotice src req highest count lost s
  | .reshootRequest req inCount origin flight => Sys2Proof.Machine.execReshootRequest req inCount origin flight s
  | .reshootComplete req answer => Sys2Proof.Machine.execReshootComplete req answer s
  | .poolEnable w => Sys2Proof.Machine.execPoolEnable w s
  | .poolDisable w => Sys2Proof.Machine.execPoolDisable w s
  | .attentionPass p => Sys2Proof.Machine.execAttentionPass p s
  | .partialRecord tag words num => Sys2Proof.Machine.execPartialRecord tag words num s
  | .partialRequest hdr entries => Sys2Proof.Machine.execPartialRequest hdr entries s
  | .partialReplyTimeout req tag => Sys2Proof.Machine.execPartialReplyTimeout req tag s
  | .attBindEnable j w => Sys2Proof.Machine.execAttBindEnable j w s
  | .attBindDisable j w => Sys2Proof.Machine.execAttBindDisable j w s
  | .attProfWrite a w => Sys2Proof.Machine.execAttProfWrite a w s
  | .samplerPass req node logits heads => Sys2Proof.Machine.execSamplerPass req node logits heads s
  | .roundASummary slot words => Sys2Proof.Machine.execRoundASummary slot words s
  | .thresholdReturn req node theta => Sys2Proof.Machine.execThresholdReturn req node theta s
  | .roundBDraw m => Sys2Proof.Machine.execRoundBDraw m s
  | .verifyResult m => Sys2Proof.Machine.execVerifyResult m s
  | .mirroredReport src step reqs => Sys2Proof.Machine.execMirroredReport src step reqs s
  | .tokenDelivery m => Sys2Proof.Machine.execTokenDelivery m s
  | .logitSlice req position slot nslots first codes => Sys2Proof.Machine.execLogitSlice req position slot nslots first codes s
  | .hostChoice req entry => Sys2Proof.Machine.execHostChoice req entry s
  | .gatherRowData k row ok bytes => Sys2Proof.Machine.execGatherRowData k row ok bytes s
  | .migrationAddsDrained table row => Sys2Proof.Machine.execMigrationAddsDrained table row s
  | .migrationCopyDone table row st bytes => Sys2Proof.Machine.execMigrationCopyDone table row st bytes s
  | .patrolScrub w => Sys2Proof.Machine.execPatrolScrub w s
  | .pcInterfaceFail pc retrained => Sys2Proof.Machine.execPcInterfaceFail pc retrained s
  | .pcSuspectCmd target => Sys2Proof.Machine.execPcSuspectCmd target s
  | .stackRetireCmd target => Sys2Proof.Machine.execStackRetireCmd target s
  | .atomicAddLine offset addends => Sys2Proof.Machine.execAtomicAddLine offset addends s
  | .hdmHostRead offset => Sys2Proof.Machine.execHdmHostRead offset s
  | .hdmHostWrite offset bytes => Sys2Proof.Machine.execHdmHostWrite offset bytes s
  | .ftlEnable w => Sys2Proof.Machine.execFtlEnable w s
  | .ftlBringupDone chans badBlocks => Sys2Proof.Machine.execFtlBringupDone chans badBlocks s
  | .ftlDisable w => Sys2Proof.Machine.execFtlDisable w s
  | .sectorRead c sector => Sys2Proof.Machine.execSectorRead c sector s
  | .sectorReadData sector o => Sys2Proof.Machine.execSectorReadData sector o s
  | .sectorWrite c sector data => Sys2Proof.Machine.execSectorWrite c sector data s
  | .mergeTimeout unit => Sys2Proof.Machine.execMergeTimeout unit s
  | .pageProgramDone unit ok => Sys2Proof.Machine.execPageProgramDone unit ok s
  | .blockEraseDone block ok => Sys2Proof.Machine.execBlockEraseDone block ok s
  | .garbageCollection => Sys2Proof.Machine.execGarbageCollection s
  | .staticLevelling => Sys2Proof.Machine.execStaticLevelling s
  | .zqCalibration => Sys2Proof.Machine.execZqCalibration s
  | .flashChannelFail chan => Sys2Proof.Machine.execFlashChannelFail chan s
  | .portEnable n w => Sys2Proof.Machine.execPortEnable n w s
  | .portDisable n w => Sys2Proof.Machine.execPortDisable n w s
  | .portRetrain n => Sys2Proof.Machine.execPortRetrain n s
  | .pmdTrainingDone n lanes => Sys2Proof.Machine.execPmdTrainingDone n lanes s
  | .trainRetry n => Sys2Proof.Machine.execTrainRetry n s
  | .keyxFrame n f => Sys2Proof.Machine.execKeyxFrame n f s
  | .creditFrame n f => Sys2Proof.Machine.execCreditFrame n f s
  | .linkTestFrame n echo ok => Sys2Proof.Machine.execLinkTestFrame n echo ok s
  | .laneFault n good => Sys2Proof.Machine.execLaneFault n good s
  | .portRxTimeout n => Sys2Proof.Machine.execPortRxTimeout n s
  | .creditTimeout n vc => Sys2Proof.Machine.execCreditTimeout n vc s
  | .dataFrame n f => Sys2Proof.Machine.execDataFrame n f s
  | .put r bytes => Sys2Proof.Machine.execPut r bytes s
  | .get r host => Sys2Proof.Machine.execGet r host s
  | .addF32 r addends => Sys2Proof.Machine.execAddF32 r addends s
  | .addU64 r v => Sys2Proof.Machine.execAddU64 r v s
  | .cas64 r cmp swp => Sys2Proof.Machine.execCas64 r cmp swp s
  | .putSignal r bytes => Sys2Proof.Machine.execPutSignal r bytes s
  | .remoteResponse tag status arg bytes => Sys2Proof.Machine.execRemoteResponse tag status arg bytes s
  | .respTimeout tag => Sys2Proof.Machine.execRespTimeout tag s
  | .busyRetry tag => Sys2Proof.Machine.execBusyRetry tag s
  | .flowMove f => Sys2Proof.Machine.execFlowMove f s
  | .collTimeout coll => Sys2Proof.Machine.execCollTimeout coll s
  | .reelSlot => Sys2Proof.Machine.execReelSlot s
  | .shaperWrite k w => Sys2Proof.Machine.execShaperWrite k w s
  | .gateEntryEnd n => Sys2Proof.Machine.execGateEntryEnd n s
  | .gateSwapRequest n w => Sys2Proof.Machine.execGateSwapRequest n w s
  | .gateEnable n w => Sys2Proof.Machine.execGateEnable n w s
  | .moveChannelGrant mover host => Sys2Proof.Machine.execMoveChannelGrant mover host s
  | .moveComplete mover chan => Sys2Proof.Machine.execMoveComplete mover chan s
  | .moverReadFault mover st done => Sys2Proof.Machine.execMoverReadFault mover st done s
  | .moverStopDrained mover => Sys2Proof.Machine.execMoverStopDrained mover s
  | .moverWriteFault mover chan st done => Sys2Proof.Machine.execMoverWriteFault mover chan st done s
  | .moverReset mover done => Sys2Proof.Machine.execMoverReset mover done s
  | .mapLogRecord src words => Sys2Proof.Machine.execMapLogRecord src words s
  | .surveyRound => Sys2Proof.Machine.execSurveyRound s
  | .surveyEpoch src epoch => Sys2Proof.Machine.execSurveyEpoch src epoch s
  | .dtmJoin w => Sys2Proof.Machine.execDtmJoin w s
  | .joinCopyDone epoch entries log ok => Sys2Proof.Machine.execJoinCopyDone epoch entries log ok s
  | .joinTimeout => Sys2Proof.Machine.execJoinTimeout s
  | .renewTimer => Sys2Proof.Machine.execRenewTimer s
  | .renew epoch words => Sys2Proof.Machine.execRenew epoch words s
  | .leaseLapse home => Sys2Proof.Machine.execLeaseLapse home s
  | .holderExpiry node => Sys2Proof.Machine.execHolderExpiry node s
  | .query epoch words => Sys2Proof.Machine.execQuery epoch words s
  | .answer src words => Sys2Proof.Machine.execAnswer src words s
  | .queryTimeout req => Sys2Proof.Machine.execQueryTimeout req s
  | .claim epoch words => Sys2Proof.Machine.execClaim epoch words s
  | .bucketCopy bucket => Sys2Proof.Machine.execBucketCopy bucket s
  | .traverseOpen t => Sys2Proof.Machine.execTraverseOpen t s
  | .openMsg hdr rec => Sys2Proof.Machine.execOpenMsg hdr rec s
  | .accept hdr => Sys2Proof.Machine.execAccept hdr s
  | .openTimeout req => Sys2Proof.Machine.execOpenTimeout req s
  | .legReserveRetry req => Sys2Proof.Machine.execLegReserveRetry req s
  | .legReserveStall req => Sys2Proof.Machine.execLegReserveStall req s
  | .legReq hdr entries flash => Sys2Proof.Machine.execLegReq hdr entries flash s
  | .legReply hdr entries coded => Sys2Proof.Machine.execLegReply hdr entries coded s
  | .legTimeout req seq => Sys2Proof.Machine.execLegTimeout req seq s
  | .countEntry req srcSlot entries last => Sys2Proof.Machine.execCountEntry req srcSlot entries last s
  | .doneMsg hdr => Sys2Proof.Machine.execDoneMsg hdr s
  | .owned hdr => Sys2Proof.Machine.execOwned hdr s
  | .release hdr => Sys2Proof.Machine.execRelease hdr s
  | .abandon hdr => Sys2Proof.Machine.execAbandon hdr s
  | .traverseDestRetry req => Sys2Proof.Machine.execTraverseDestRetry req s
  | .autoPark req => Sys2Proof.Machine.execAutoPark req s
  | .beatSend => Sys2Proof.Machine.execBeatSend s
  | .beat sideband w => Sys2Proof.Machine.execBeat sideband w s
  | .beatMiss => Sys2Proof.Machine.execBeatMiss s
  | .probeReply r => Sys2Proof.Machine.execProbeReply r s
  | .probeTimeout => Sys2Proof.Machine.execProbeTimeout s
  | .mirrorRecord hdr body => Sys2Proof.Machine.execMirrorRecord hdr body s
  | .mirrorAckTimeout => Sys2Proof.Machine.execMirrorAckTimeout s
  | .conEnable w => Sys2Proof.Machine.execConEnable w s
  | .yield => Sys2Proof.Machine.execYield s
  | .reintegrate crcMatch => Sys2Proof.Machine.execReintegrate crcMatch s
  | .reintBulkDone => Sys2Proof.Machine.execReintBulkDone s
  | .reintReplayPassDone => Sys2Proof.Machine.execReintReplayPassDone s
  | .auditTick => Sys2Proof.Machine.execAuditTick s
  | .compareProbe crc => Sys2Proof.Machine.execCompareProbe crc s
  | .droopTrip site => Sys2Proof.Machine.execDroopTrip site s
  | .droopClear => Sys2Proof.Machine.execDroopClear s
  | .droopRecovery => Sys2Proof.Machine.execDroopRecovery s
  | .powerWindow watts => Sys2Proof.Machine.execPowerWindow watts s
  | .idleGate u => Sys2Proof.Machine.execIdleGate u s
  | .hold => Sys2Proof.Machine.execHold s
  | .resume => Sys2Proof.Machine.execResume s
  | .controllerReset w => Sys2Proof.Machine.execControllerReset w s
  | .crstFall => Sys2Proof.Machine.execCrstFall s
  | .controllerFault cause => Sys2Proof.Machine.execControllerFault cause s
  | .porst => Sys2Proof.Machine.execPorst s
  | .porstRelease busSel addr coresPass => Sys2Proof.Machine.execPorstRelease busSel addr coresPass s
  | .railFault rail => Sys2Proof.Machine.execRailFault rail s
  | .railRecovery => Sys2Proof.Machine.execRailRecovery s
  | .hbmCheck first countM1 => Sys2Proof.Machine.execHbmCheck first countM1 s
  | .hbmCheckReply r => Sys2Proof.Machine.execHbmCheckReply r s
  | .hbmCheckCrcRequest granule => Sys2Proof.Machine.execHbmCheckCrcRequest granule s
  | .hbmClear first countM1 => Sys2Proof.Machine.execHbmClear first countM1 s
  | .hbmClearDone => Sys2Proof.Machine.execHbmClearDone s
  | .stackTempPoll temps => Sys2Proof.Machine.execStackTempPoll temps s
  | .thermalAlert dieT stackT => Sys2Proof.Machine.execThermalAlert dieT stackT s
  | .thermalAlertClear dieT stackT => Sys2Proof.Machine.execThermalAlertClear dieT stackT s
  | .thermalTrip => Sys2Proof.Machine.execThermalTrip s
  | .bootGo => Sys2Proof.Machine.execBootGo s
  | .imageFetchDone img => Sys2Proof.Machine.execImageFetchDone img s
  | .prelockBar0Access a write => Sys2Proof.Machine.execPrelockBar0Access a write s
  | .protWindowWrite a w => Sys2Proof.Machine.execProtWindowWrite a w s
  | .spdmGetVersion => Sys2Proof.Machine.execSpdmGetVersion s
  | .spdmGetCapabilities => Sys2Proof.Machine.execSpdmGetCapabilities s
  | .spdmNegotiateAlgorithms offersP521 offersSha512 => Sys2Proof.Machine.execSpdmNegotiateAlgorithms offersP521 offersSha512 s
  | .spdmGetDigests => Sys2Proof.Machine.execSpdmGetDigests s
  | .spdmGetCertificate slot offset length => Sys2Proof.Machine.execSpdmGetCertificate slot offset length s
  | .spdmChallenge slot nonce => Sys2Proof.Machine.execSpdmChallenge slot nonce s
  | .spdmGetMeasurements index nonce => Sys2Proof.Machine.execSpdmGetMeasurements index nonce s
  | .errorRecordWrite => Sys2Proof.Machine.execErrorRecordWrite s
  | .refetchRangeData tensor offset bytes blocksOk => Sys2Proof.Machine.execRefetchRangeData tensor offset bytes blocksOk s
  | .refetchFail tensor offset => Sys2Proof.Machine.execRefetchFail tensor offset s
  | .registerWrite a w => Sys2Proof.Machine.execRegisterWrite a w s
  | .rcFieldRead a => Sys2Proof.Machine.execRcFieldRead a s
  | .bar0Unsupported a write => Sys2Proof.Machine.execBar0Unsupported a write s
  | .crstRelease => Sys2Proof.Machine.execCrstRelease s
  | .creditFrameInterval n => Sys2Proof.Machine.execCreditFrameInterval n s
  | .frameOnWireFinishes n => Sys2Proof.Machine.execFrameOnWireFinishes n s
  | .cancelReachesOwner req node src => Sys2Proof.Machine.execCancelReachesOwner req node src s
  | .claimResend home seq => Sys2Proof.Machine.execClaimResend home seq s

end Sys2Proof.Machine
end

