-- ==== Sys2Proof/Machine/Idle.lean ====
section
/-! DEFINITION. One MGMT cycle in which no command waits (R462, R522). -/

namespace Sys2Proof.Machine

open Sys2Proof

/-- The accounting of R522 for one MGMT cycle: a second in STAGE RUN is 400,000,000 cycles, a millisecond exposed 400,000. -/
def account (s : State) : State :=
  if rd s F.SEC_BOOT_STAT_STAGE ≠ 3 then s
  else
    let r := s.ras
    let sec := decide (400000000 ≤ r.upCycles + 1)
    let r1 := { r with up := if sec then r.up + 1 else r.up, upCycles := if sec then 0 else r.upCycles + 1 }
    let ms := decide (400000 ≤ r.exposedCycles + 1)
    let r2 := { r1 with
      exposed := if ms then r1.exposed + 1 else r1.exposed
      exposedCycles := if ms then 0 else r1.exposedCycles + 1 }
    { s with ras := if rd s F.CON_STAT_EXPOSED = 1 ∧ rd s F.CON_CTL_EN = 1 then r2 else r1 }

/-- One MGMT cycle: the free-running count advances (R462), and so does the accounting. -/
def idleCycle (s : State) : State :=
  wr (account s) F.GLB_MGMT_CYCLES_COUNT ((rd s F.GLB_MGMT_CYCLES_COUNT + 1) % 2 ^ 64)

end Sys2Proof.Machine
end

