-- ==== Sys2Proof/Safety.lean ====
section
/-! DEFINITION. What counts as a safe state and a safe run, in the terms that statements use. -/

namespace Sys2Proof.Machine

open Sys2Proof

/-- The bytes of HBM and stage memory stand in their canonical form. -/
def State.memoryWf (s : State) : Bool := Memory.wf s.hbm

/-- Registers stand in rising order of their offsets, and none is listed at its reset value (R548). -/
def State.regsWf (s : State) : Bool := twf s.regs && s.regs.all (fun e => e.2 != resetWord e.1)

/-- Fuses change only upward (R485): what is blown stays blown, and no minimum SVN falls. -/
def fusesRise (a b : Fuses) : Prop :=
  b.variant = a.variant ∧ b.stepping = a.stepping ∧ (a.owned = true → b.owned = true) ∧
    (∀ i, a.revoked.testBit i = true → b.revoked.testBit i = true) ∧
    a.minStage1 ≤ b.minStage1 ∧ a.minRuntime ≤ b.minRuntime ∧ a.minProt ≤ b.minProt

/-- A take that waits here for another one's locks (R133). -/
def PartTake.waits (p : PartTake) : Bool :=
  match p.state with
  | .waiting _ => true
  | _ => false

/-- Nothing in the state waits for what a command can let go on: no take has ended unreported, no context is being brought down, no
take waits for locks, no Traverse waits or runs from here, no query is held, every gather run has its descriptor, no re-forming or
YIELD is under way, no request is short of frames or damaged, and no clock is gated. -/
def State.quiet (s : State) : Bool :=
  s.tak.ended.isEmpty && s.tak.part.all (fun p => !p.2.waits) && s.hpt.ctxs.all (fun e => e.2.down.isNone) &&
  s.trv.waiting.isEmpty && s.trv.trav.all (fun e => e.2.repair.isNone && e.2.src != .running && e.2.src != .opening) &&
  s.dtm.held.isEmpty && s.gth.runs.all (fun e => thas s.hpt.flight e.1) && s.gth.refresh.all (fun e => thas s.hpt.flight e.1) &&
  conState s != 4 && s.con.yielding != 1 && s.con.yielding != 4 && s.kva.starved.isEmpty &&
  (tvals s.sch.reqs).all (fun r => !r.damaged) && s.clk.gated.isEmpty

/-- `t` holds what `s` holds in every register but those at the offsets listed. -/
def sameRegsBut (s t : State) (offs : List Nat) : Prop := ∀ o, o ∉ offs → t.reg o = s.reg o

/-- `t` holds what `s` holds in every register but those of the fields `ones` and those of the arrays named with how many
registers each has. -/
def regsKept (s t : State) (ones : List Field) (arrays : List (Field × Nat)) : Prop :=
  ∀ o, (∀ f ∈ ones, f.off 0 ≠ o) → (∀ f ∈ arrays, ∀ i, i < f.2 → f.1.off i ≠ o) → t.reg o = s.reg o

/-- Descriptor `d`, next on ring `k` of a controller that is up and held up by nothing, is dispatched in state `u` under `key`
(R66, R71): the ring's count has advanced and the descriptor is in flight. -/
def dispatched (s : State) (k : RingKey) (d : Desc) (key : DescKey) (u : State) : Prop :=
  isUp s = true ∧ ∃ s1, takeDesc s k d = .dispatched s1 key ∧
    u = setFlight s1 (flightId key) ⟨key, dOpcode d, dNocomp d, dIntr d, dTag d, dReq d, none⟩

/-- No check of a descriptor fails: its header, its payload bytes, and the further checks of its opcode (R73). -/
def passes (d : Desc) (payload : List Nat) (checks : List Check) : Prop := firstFail (headChecks d payload ++ checks) = none

/-- Commands of the host port: link, contexts, event queue, HDM window and doorbells. -/
def hostOnly : Instr → Bool
  | .ucieLinkTraining .. | .ctxEnable .. | .evqCfgWrite .. | .hdmCfgWrite .. | .doorbellSnoop .. | .doorbellPoll ..
  | .hdmHostRead .. => true
  | _ => false

/-- Commands of the host port: link, contexts, event queue, HDM window and doorbells; what follows in other parts settles after them. -/
def hostSettling : Instr → Bool
  | .ucieModuleFail .. | .ctxDisable .. | .ctxDisableDone .. | .doorbellLineData .. | .contextTeardown .. | .contextTeardownDone .. => true
  | _ => false

/-- Commands of completion queues and failed host accesses; what follows in other parts settles after them. -/
def queueSettling : Instr → Bool
  | .cqHeadSnoop .. | .hostAccessTimeout .. | .hostDataError .. => true
  | _ => false

/-- Descriptors whose dispatch stays in the rings, the semaphores and the engine that runs them. -/
def descOnly : Instr → Bool
  | .nop .. | .reservedOpcode .. | .kernelLoad .. | .kernelUnload .. | .kernelRun .. | .move ..
  | .packCode .. | .packCodeSafe .. | .packUnpack .. | .packFree .. | .tableRegister .. | .tableLoad ..
  | .tableSync .. | .takeSubmit .. | .semSignalAdd .. | .semSignalSet .. | .semWait .. | .semWaitTimeout .. => true
  | _ => false

/-- Gather descriptors and the rows they read. -/
def gatherOnly : Instr → Bool
  | .gatherPool .. | .gatherCopy .. | .update .. | .gatherRowData .. => true
  | _ => false

/-- Commands of the matrix cores and the expanders. -/
def matrixOnly : Instr → Bool
  | .mxeUnitDone .. | .mxeRetryDone .. | .mxeCoreTest .. | .mxeCoreRetire .. | .coreSelftestDone .. | .expanderBlock ..
  | .expanderReread .. => true
  | _ => false

/-- Commands of the key/value pool and the model bindings. -/
def poolOnly : Instr → Bool
  | .kvaAgeTick .. | .poolEnable .. | .poolDisable .. | .attBindEnable .. | .attBindDisable .. | .partialReplyTimeout .. => true
  | _ => false

/-- Commands of the flash tier. -/
def flashOnly : Instr → Bool
  | .ftlEnable .. | .ftlBringupDone .. | .ftlDisable .. | .sectorRead .. | .sectorWrite .. | .mergeTimeout ..
  | .pageProgramDone .. | .blockEraseDone .. | .garbageCollection .. | .staticLevelling .. | .zqCalibration .. => true
  | _ => false

/-- Commands of the Ghemlink ports. -/
def portOnly : Instr → Bool
  | .portEnable .. | .pmdTrainingDone .. | .trainRetry .. | .creditTimeout .. | .creditFrameInterval .. => true
  | _ => false

/-- Commands of the Ghemlink ports; what follows in other parts settles after them. -/
def portSettling : Instr → Bool
  | .portDisable .. | .portRetrain .. | .keyxFrame .. | .laneFault .. | .portRxTimeout .. => true
  | _ => false

/-- Frames on the ports, the shapers and the time gates. -/
def shapeOnly : Instr → Bool
  | .frameOnWireFinishes .. | .shaperWrite .. | .gateEntryEnd .. | .gateSwapRequest .. | .gateEnable .. => true
  | _ => false

/-- Frames on the ports, the shapers and the time gates; what follows in other parts settles after them. -/
def frameSettling : Instr → Bool
  | .creditFrame .. | .dataFrame .. => true
  | _ => false

/-- Commands of the map, the leases and the queries. -/
def mapOnly : Instr → Bool
  | .surveyRound .. | .dtmJoin .. | .joinTimeout .. | .renewTimer .. | .queryTimeout .. | .claimResend .. => true
  | _ => false

/-- Commands of the map, the leases and the queries; what follows in other parts settles after them. -/
def mapSettling : Instr → Bool
  | .surveyEpoch .. | .joinCopyDone .. | .leaseLapse .. | .query .. => true
  | _ => false

/-- Commands of the twin; what follows in other parts settles after them. -/
def twinSettling : Instr → Bool
  | .beatSend .. | .beatMiss .. | .mirrorAckTimeout .. | .yield .. | .reintegrate .. | .reintBulkDone ..
  | .auditTick .. | .compareProbe .. => true
  | _ => false

/-- Commands of the clocks and the temperature sensors. -/
def clockOnly : Instr → Bool
  | .droopTrip .. | .droopClear .. | .droopRecovery .. | .powerWindow .. | .idleGate .. | .railRecovery ..
  | .crstRelease .. | .stackTempPoll .. | .thermalAlert .. | .thermalAlertClear .. | .thermalTrip .. => true
  | _ => false

/-- Commands that check or clear HBM granules. -/
def granuleOnly : Instr → Bool
  | .hbmCheck .. | .hbmCheckReply .. | .hbmCheckCrcRequest .. | .hbmClear .. => true
  | _ => false

/-- Commands of boot and attestation. -/
def bootOnly : Instr → Bool
  | .bootGo .. | .prelockBar0Access .. | .protWindowWrite .. | .bar0Unsupported .. | .spdmGetVersion .. | .spdmGetCapabilities ..
  | .spdmNegotiateAlgorithms .. | .spdmGetDigests .. | .spdmGetCertificate .. | .spdmChallenge .. | .spdmGetMeasurements .. | .errorRecordWrite .. => true
  | _ => false

/-- Every step of a run of `n` steps answers a next state. -/
def safeRun : Nat → State → Bool
  | 0, _ => true
  | n + 1, s =>
    match step s with
    | .next s1 => safeRun n s1
    | .fault _ => false
    | .refused _ => false

end Sys2Proof.Machine
end

