-- ==== Sys2Proof/Certificates/Slice0/Obligations.lean ====
section
/-! DEFINITION. The statements for the provers. Each is a conjunction of clauses; the line before a clause names the command or the
case that the clause is about. A clause whose conclusion is `exec … = .next …` says that the command completes there, and how. -/

open Sys2Proof Sys2Proof.Machine

/-- Training, module loss, context enable and disable, event queue and HDM window. What the commands that set up the host
port do, each under the conditions that its clause names. Rules: R56, R58, R60, R62, R63. It rests on the model's own
choices in log entries 3, 5, 13. -/
def Obligations.HostPortSetUp : Prop :=
  -- ucieLinkTraining
  (∀ (s : State) (offer : List UcieOption) (modUp rateGt repairs : Nat), s.clk.crstLow = false → s.clk.porstLow = false →
     s.clk.railsBad = false → s.hpt.portDown = false → modUp % 16 ≠ 0 →
     ∃ t, exec (.ucieLinkTraining offer modUp rateGt repairs) s = .next t ∧
       rd t F.HPT_LINK_STAT_MOD_UP = modUp % 2 ^ 4 ∧ rd t F.HPT_LINK_STAT_RATE_GT = rateGt % 2 ^ 8 ∧
       rd t F.SEC_BOOT_STAT_STAGE = (if rd s F.SEC_BOOT_STAT_STAGE = 0 then 1 else rd s F.SEC_BOOT_STAT_STAGE) ∧
       t = { s with
         regs := t.regs
         hpt := { s.hpt with trained := true }
         out := s.out ++ [.ucieTrained (offer.filter (fun o =>
           o == .standardPackage || o == .ucie3d || o == .retimers || o == .rawProtocol))] } ∧
       sameRegsBut s t [F.HPT_LINK_STAT_MOD_UP.base, F.SEC_BOOT_STAT_STAGE.base]) ∧
  -- ucieModuleFail goes on
  (∀ (s : State) (m : Nat), m < 4 → (rd s F.HPT_LINK_STAT_MOD_UP).testBit m = true → rd s F.HPT_LINK_STAT_MOD_UP ≠ 2 ^ m →
     exec (.ucieModuleFail m) s = .next (settle s (openEvent (wr s F.HPT_LINK_STAT_MOD_UP (rd s F.HPT_LINK_STAT_MOD_UP - 2 ^ m))
       .linkChange St.HPT_LINK_DEGRADED ⟨7, m⟩ 0 0))) ∧
  -- ucieModuleFail last module
  (∀ (s : State) (m : Nat), m < 4 → rd s F.HPT_LINK_STAT_MOD_UP = 2 ^ m →
     exec (.ucieModuleFail m) s = .next (settle s ((tkeys s.hpt.ctxs).foldl (fun u c => faultCtx u c St.HPT_LINK_DOWN)
       { wr s F.HPT_LINK_STAT_MOD_UP 0 with hpt := { s.hpt with portDown := true } }))) ∧
  -- ctxEnable begins
  (∀ (s : State) (ctx : Nat), rd s F.SEC_PROT_LOCK_LOCK = 1 → rd s F.HPT_CTX_STAT_BUSY = 0 → thas s.hpt.ctxs ctx = false →
     exec (.ctxEnable ctx) s = .next (emit (wr { s with hpt := { s.hpt with cmd := some ⟨true, ctx⟩ } } F.HPT_CTX_STAT_BUSY 1)
       (.hostRead .enable (rd s F.HPT_CTX_TABLE_BASE * 2 ^ 20 + 256 * ctx) 256))) ∧
  -- ctxEnable of an enabled context
  (∀ (s : State) (ctx : Nat), rd s F.SEC_PROT_LOCK_LOCK = 1 → rd s F.HPT_CTX_STAT_BUSY = 0 → thas s.hpt.ctxs ctx = true →
     exec (.ctxEnable ctx) s = .next (wr (wr { wr { s with hpt := { s.hpt with cmd := some ⟨true, ctx⟩ } } F.HPT_CTX_STAT_BUSY 1 with
       hpt := { s.hpt with cmd := none } } F.HPT_CTX_STAT_BUSY 0) F.HPT_CTX_STAT_STATUS St.HPT_CTX_BUSY.toNat)) ∧
  -- ctxEnable while a command is in progress
  (∀ (s : State) (ctx : Nat), rd s F.SEC_PROT_LOCK_LOCK = 1 → rd s F.HPT_CTX_STAT_BUSY = 1 →
     exec (.ctxEnable ctx) s = .next (wr s F.HPT_CTX_STAT_LOST 1)) ∧
  -- ctxEnableReadDone
  (∀ (s : State) (ctx : Nat) (entry line : List Word), s.hpt.cmd = some ⟨true, ctx⟩ → entryBad entry = false →
     entryProt s ctx (entryRead entry) = false → lineFault (newCtx (entryRead entry)) line = none →
     ∃ t x, exec (.ctxEnableReadDone entry line) s = .next (settle s t) ∧ rd t F.HPT_CTX_STAT_BUSY = 0 ∧
       rd t F.HPT_CTX_STAT_STATUS = 0 ∧ t.hpt.cmd = none ∧ tget t.hpt.ctxs ctx = some x ∧ x.entry = entryRead entry ∧
       x.rings = (entryRead entry).rings.zipIdx.map (fun p => ⟨0, bits (wordAt line p.2) 31 0, []⟩) ∧
       x.cqs = (entryRead entry).cqs.map (fun _ => ⟨0, 0, false, []⟩) ∧ x.armed = true ∧ x.down = none ∧
       (∀ c, c ≠ ctx → tget t.hpt.ctxs c = tget s.hpt.ctxs c) ∧
       (∀ h, h / 16 = ctx → tget t.sch.sems h = none)) ∧
  -- ctxDisable begins
  (∀ (s : State) (ctx : Nat) (x : Ctx), rd s F.SEC_PROT_LOCK_LOCK = 1 → rd s F.HPT_CTX_STAT_BUSY = 0 →
     tget s.hpt.ctxs ctx = some x → x.down = none →
     exec (.ctxDisable ctx) s = .next (settle s (setCtx (wr { s with hpt := { s.hpt with cmd := some ⟨false, ctx⟩ } }
       F.HPT_CTX_STAT_BUSY 1) ctx { x with down := some ⟨St.OK, false, false, 0, 0⟩ }))) ∧
  -- ctxDisable of a context not enabled
  (∀ (s : State) (ctx : Nat), rd s F.SEC_PROT_LOCK_LOCK = 1 → rd s F.HPT_CTX_STAT_BUSY = 0 → tget s.hpt.ctxs ctx = none →
     exec (.ctxDisable ctx) s = .next (settle s (wr (wr { wr { s with hpt := { s.hpt with cmd := some ⟨false, ctx⟩ } }
       F.HPT_CTX_STAT_BUSY 1 with hpt := { s.hpt with cmd := none } } F.HPT_CTX_STAT_BUSY 0)
       F.HPT_CTX_STAT_STATUS St.HPT_CTX_DISABLED.toNat))) ∧
  -- ctxDisableDone
  (∀ (s : State) (ctx : Nat) (x : Ctx) (d : Teardown), isUp s = true → tget s.hpt.ctxs ctx = some x → x.down = some d →
     d.fault = false → d.started = true → (∀ e ∈ s.hpt.flight, e.2.key.ctx ≠ ctx) → (∀ e ∈ s.hpt.made, e.2 ≠ ctx) →
     (∀ q ∈ x.cqs, q.delayed = []) → s.hpt.cmd = some ⟨false, ctx⟩ →
     exec (.ctxDisableDone ctx) s = .next (settle s (wr (wr { s with hpt := { s.hpt with
       ctxs := tdel s.hpt.ctxs ctx, cmd := none } } F.HPT_CTX_STAT_BUSY 0) F.HPT_CTX_STAT_STATUS 0))) ∧
  -- evqCfgWrite enables
  (∀ (s : State) (w : Word), rd s F.SEC_PROT_LOCK_LOCK = 1 → rd s F.HPT_EVQ_CFG_EN = 0 → bit w 63 = true →
     6 ≤ bits w 4 0 → bits w 4 0 ≤ 16 →
     exec (.evqCfgWrite w) s = .next (wr { wr (wr s F.HPT_EVQ_CFG_LOG2SIZE (bits w 4 0)) F.HPT_EVQ_CFG_VECTOR (bits w 42 32) with
       hpt := { s.hpt with evProd := 0 } } F.HPT_EVQ_CFG_EN 1)) ∧
  -- evqCfgWrite while enabled
  (∀ (s : State) (w : Word), rd s F.SEC_PROT_LOCK_LOCK = 1 → rd s F.HPT_EVQ_CFG_EN = 1 → bit w 63 = true →
     exec (.evqCfgWrite w) s = .next s) ∧
  -- evqCfgWrite disables
  (∀ (s : State) (w : Word), rd s F.SEC_PROT_LOCK_LOCK = 1 → bit w 63 = false →
     exec (.evqCfgWrite w) s = .next (wr (wr (wr s F.HPT_EVQ_CFG_EN 0) F.HPT_EVQ_CFG_LOG2SIZE (bits w 4 0))
       F.HPT_EVQ_CFG_VECTOR (bits w 42 32))) ∧
  -- hdmCfgWrite
  (∀ (s : State) (w : Word), rd s F.SEC_PROT_LOCK_LOCK = 0 →
     exec (.hdmCfgWrite w) s = .next (wr (wr (wr s F.HPT_HDM_CFG_SIZE_GIB (bits w 49 40)) F.HPT_HDM_CFG_BASE_GIB (bits w 39 30))
       F.HPT_HDM_CFG_EN (if bit w 63 = true ∧ 1 ≤ bits w 49 40 ∧ bits w 49 40 ≤ 512 ∧
         bits w 39 30 * 2 ^ 30 + bits w 49 40 * 2 ^ 30 ≤ memTop s then 1 else 0))) ∧
  -- hdmCfgWrite after the lock
  (∀ (s : State) (w : Word), rd s F.SEC_PROT_LOCK_LOCK = 1 →
     exec (.hdmCfgWrite w) s = .next (recordLocked (bump s F.SEC_REJECT_CNT_COUNT)))

/-- Doorbells bring descriptors, and queue heads let waiting records out. What a doorbell, a poll, a doorbell line and a
written queue head do to a context and its rings. Rules: R66, R68, R78. It rests on the model's own choices in log
entries 5, 17. -/
def Obligations.DoorbellsAndQueueHeads : Prop :=
  -- doorbellSnoop
  (∀ (s : State) (ctx : Nat) (x : Ctx), isUp s = true → tget s.hpt.ctxs ctx = some x → x.armed = true → x.down = none →
     exec (.doorbellSnoop ctx) s = .next { s with
       hpt := { s.hpt with ctxs := tset s.hpt.ctxs ctx { x with armed := false, pending := true } }
       out := s.out ++ [.snoopAnswer ctx, .hostRead (.context ctx) x.entry.dbAddr 64] }) ∧
  -- doorbellPoll
  (∀ (s : State), isUp s = true → rd s F.HPT_DB_POLL_PERIOD_US ≠ 0 →
     exec .doorbellPoll s = .next (s.hpt.ctxs.foldl (fun u e =>
       if e.2.down = none then emit (setCtx u e.1 { e.2 with armed := false, pending := true }) (.hostRead (.context e.1) e.2.entry.dbAddr 64)
       else u) s)) ∧
  -- doorbellLineData
  (∀ (s : State) (ctx : Nat) (x : Ctx) (line : List Word), isUp s = true → tget s.hpt.ctxs ctx = some x → x.pending = true →
     x.down = none → lineFault x line = none →
     exec (.doorbellLineData ctx line) s = .next (settle s (emits
       (setCtx s ctx { x with
         rings := x.rings.zipIdx.map (fun p => { p.1 with tail := bits (wordAt line p.2) 31 0 })
         armed := true
         pending := false })
       (x.rings.zipIdx.flatMap (fun p => (List.range ((2 ^ 32 + bits (wordAt line p.2) 31 0 - p.1.tail) % 2 ^ 32)).map (fun j =>
         .hostRead (.context ctx) ((x.entry.rings.getD p.2 ⟨0, 0, 0⟩).base +
           64 * ((p.1.tail + j) % 2 ^ (x.entry.rings.getD p.2 ⟨0, 0, 0⟩).log2)) 64)))))) ∧
  -- doorbellLineData with a ring out of order
  (∀ (s : State) (ctx : Nat) (x : Ctx) (line : List Word) (st : Status), isUp s = true → tget s.hpt.ctxs ctx = some x →
     x.pending = true → x.down = none → lineFault x line = some st →
     exec (.doorbellLineData ctx line) s = .next (settle s (faultCtx (setCtx s ctx { x with armed := true, pending := false }) ctx st))) ∧
  -- cqHeadSnoop
  (∀ (s : State) (ctx : Nat) (x : Ctx) (line : List Word), isUp s = true → tget s.hpt.ctxs ctx = some x →
     (∃ q ∈ x.cqs, q.watch = true) →
     exec (.cqHeadSnoop ctx line) s = .next (settle s (
       let qs := x.cqs.zipIdx.map (fun p => if p.1.watch = true then { p.1 with cons := bits (wordAt line p.2) 31 0 } else p.1)
       let u := (List.range qs.length).foldl (fun v q =>
         if (qs.getD q ⟨0, 0, false, []⟩).watch = true then drainQueue ((qs.getD q ⟨0, 0, false, []⟩).delayed.length + 1) v ctx q else v)
         (setCtx s ctx { x with cqs := qs })
       { u with sch := { u.sch with reqs := tmap (fun r y => { y with delayed := recordDelayed u r && y.delayed }) u.sch.reqs } }))) ∧
  -- drainQueue
  (∀ (n : Nat) (s : State) (c q : Nat) (x : Ctx) (cfg : CqCfg) (cq : CqState) (r : HeldRecord) (rest : List HeldRecord),
     tget s.hpt.ctxs c = some x → x.entry.cqs[q]? = some cfg → x.cqs[q]? = some cq → cq.delayed = r :: rest →
     s.hpt.portDown = false →
     drainQueue (n + 1) s c q = (if cqFull cfg cq = true then s
       else drainQueue n (putRecord s c q x cfg { cq with delayed := rest } r) c q))

/-- What a failed or timed-out host access does. A failed access of a context faults it; one of ENABLE, of a descriptor
or of nothing outstanding has the effect named. Rules: R91. It rests on the model's own choices in log entries 3, 15,
16. -/
def Obligations.FailedHostAccesses : Prop :=
  -- hostAccessTimeout of a context
  (∀ (s : State) (c : Nat), isUp s = true →
     exec (.hostAccessTimeout (.context c)) s = .next (settle s (faultCtx s c St.HPT_HOST_TIMEOUT)) ∧
     exec (.hostDataError (.context c)) s = .next (settle s (faultCtx s c St.HPT_HOST_DATA_ERR))) ∧
  -- of ENABLE
  (∀ (s : State) (ctx : Nat), isUp s = true → s.hpt.cmd = some ⟨true, ctx⟩ →
     exec (.hostAccessTimeout .enable) s = .next (settle s (openEvent (wr (wr { s with hpt := { s.hpt with cmd := none } }
       F.HPT_CTX_STAT_BUSY 0) F.HPT_CTX_STAT_STATUS St.HPT_HOST_TIMEOUT.toNat) .error St.HPT_HOST_TIMEOUT ⟨9, ctx⟩ 0 ctx)) ∧
     exec (.hostDataError .enable) s = .next (settle s (openEvent (wr (wr { s with hpt := { s.hpt with cmd := none } }
       F.HPT_CTX_STAT_BUSY 0) F.HPT_CTX_STAT_STATUS St.HPT_HOST_DATA_ERR.toNat) .error St.HPT_HOST_DATA_ERR ⟨9, ctx⟩ 0 ctx))) ∧
  -- of a descriptor without a context
  (∀ (s : State) (id : Nat) (f : Flight), isUp s = true → tget s.hpt.flight id = some f →
     exec (.hostAccessTimeout (.shared (some id))) s = .next (settle s (completeSt (openEvent s .error St.HPT_HOST_TIMEOUT
       ⟨9, f.key.ctx⟩ f.req f.key.ctx) id St.HPT_HOST_TIMEOUT)) ∧
     exec (.hostDataError (.shared (some id))) s = .next (settle s (completeSt (openEvent s .error St.HPT_HOST_DATA_ERR
       ⟨9, f.key.ctx⟩ f.req f.key.ctx) id St.HPT_HOST_DATA_ERR))) ∧
  -- of no descriptor
  (∀ (s : State), isUp s = true →
     exec (.hostAccessTimeout (.shared none)) s = .next (settle s (openEvent s .error St.HPT_HOST_TIMEOUT noUnit 0 0)) ∧
     exec (.hostDataError (.shared none)) s = .next (settle s (openEvent s .error St.HPT_HOST_DATA_ERR noUnit 0 0))) ∧
  -- faultCtx
  (∀ (s : State) (c : Nat) (x : Ctx), tget s.hpt.ctxs c = some x → x.down = none → ∀ st,
     tget (faultCtx s c st).hpt.ctxs c = some { x with down := some ⟨st, true, false, 0, 0⟩ } ∧
     ∀ c', c' ≠ c → tget (faultCtx s c st).hpt.ctxs c' = tget (openEvent s .error st ⟨9, c⟩ 0 c).hpt.ctxs c')

/-- How a descriptor is taken from its ring and how its record is written. NOP and a reserved opcode complete; taking a
descriptor advances the ring; a record goes to its queue with its phase bit, or waits when the queue is full. Rules:
R72. It rests on the model's own choices in log entries 15, 17, 18. -/
def Obligations.DescriptorsTakenAndCompleted : Prop :=
  -- nop
  (∀ (s s1 : State) (k : RingKey) (d : Desc) (key : DescKey), isUp s = true → dOpcode d = 0 → takeDesc s k d = .dispatched s1 key →
     firstFail (headChecks d (resvWords d [0x10, 0x18, 0x20, 0x28, 0x30, 0x38])) = none →
     exec (.nop k d) s = .next (completeOk (setFlight s1 (flightId key) ⟨key, 0, dNocomp d, dIntr d, dTag d, dReq d, none⟩) (flightId key))) ∧
  -- reservedOpcode
  (∀ (s s1 : State) (k : RingKey) (d : Desc) (key : DescKey), isUp s = true → knownOpcode (dOpcode d) = false →
     dVersion d = 1 → takeDesc s k d = .dispatched s1 key →
     exec (.reservedOpcode k d) s = .next (completeWith (setFlight s1 (flightId key)
       ⟨key, dOpcode d, dNocomp d, dIntr d, dTag d, dReq d, none⟩) (flightId key) St.HPT_BAD_OPCODE 0)) ∧
  -- takeDesc
  (∀ (s : State) (k : RingKey) (d : Desc) (x : Ctx) (r : RingState), tget s.hpt.ctxs k.ctx = some x → x.rings[k.ring]? = some r →
     x.down = none → r.waiting = [] → r.fetched ≠ r.tail → ringBlocked s k = false → (dFence d = true → ringOpen s x k = false) →
     takeDesc s k d = .dispatched (emit (setCtx s k.ctx { x with rings := x.rings.set k.ring { r with
         fetched := (r.fetched + 1) % 2 ^ 32 } })
       (.hostWrite (x.entry.rheadAddr + 8 * k.ring) (natBytes 8 ((r.fetched + 1) % 2 ^ 32)))) ⟨k.ctx, k.ring, r.fetched⟩) ∧
  -- writeRecord
  (∀ (s : State) (c q : Nat) (x : Ctx) (cfg : CqCfg) (cq : CqState) (r : HeldRecord), tget s.hpt.ctxs c = some x →
     x.entry.cqs[q]? = some cfg → x.cqs[q]? = some cq → s.hpt.portDown = false → cqFull cfg cq = false → cq.delayed = [] →
     writeRecord s c q r = emits (setCtx s c { x with cqs := x.cqs.set q { cq with prod := (cq.prod + 1) % 2 ^ 32 } })
       (.record c q cq.prod (cfg.base + 32 * (cq.prod % 2 ^ cfg.log2))
         [setFld r.w0 26 1 (if (cq.prod >>> cfg.log2) % 2 = 0 then 1 else 0), r.w1, r.w2, r.w3] ::
         (if r.intr = true ∧ cfg.vecEn = true then [.msix cfg.vector] else []))) ∧
  -- writeRecord full
  (∀ (s : State) (c q : Nat) (x : Ctx) (cfg : CqCfg) (cq : CqState) (r : HeldRecord), tget s.hpt.ctxs c = some x →
     x.entry.cqs[q]? = some cfg → x.cqs[q]? = some cq → s.hpt.portDown = false → cqFull cfg cq = true →
     writeRecord s c q r = emit (modReq (bump (setCtx s c { x with cqs := x.cqs.set q { cq with
       watch := true, delayed := cq.delayed ++ [r] } }) F.HPT_CQ_STALL_CNT_COUNT) r.req (fun y => { y with delayed := true }))
       (.hostRead (.context c) x.entry.cqheadAddr 64))

/-- Request descriptors that pass their checks have their effect. A request descriptor whose checks pass creates, parks,
cancels or releases its request, here or through its home. Rules: R74, R117, R225, R226, R417. It rests on the
model's own choices in log entries 42, 50, 53, 57, 70, 124, 136. -/
def Obligations.RequestCommands : Prop :=
  -- reqPost of a new request
  (∀ (s u : State) (k : RingKey) (d : Desc) (key : DescKey) (param : List Word) (input : List (BitVec 32)),
     dispatched s k d key u → dOpcode d = 1 → passes d (postBytes d) (postChecks d param input .unknown u key) →
     pPromptCounts (paramOf d param) = false →
     exec (.reqPost k d param input .unknown) s = .next (settle s (giveSlate { u with
         hpt := { u.hpt with posts := tset u.hpt.posts (dReq d) ⟨flightId key, qOut d, qLog2 d, qModel d, paramOf d param⟩ }
         sch := { u.sch with reqs := tset u.sch.reqs (dReq d) (postReq u key d (paramOf d param) 0) }
         kva := { u.kva with roots := tset u.kva.roots (dReq d) ⟨qFmt d, (pageClass (modelDim u (qModel d)) (qFmt d == 1)).getD 0,
           qModel d, modelLayers u (qModel d), kvHeads u, 0, 0⟩ } }
       (creatingSlate u (dReq d)) (.create (dReq d))))) ∧
  -- reqPost of a further turn
  (∀ (s u : State) (k : RingKey) (d : Desc) (key : DescKey) (param : List Word) (input : List (BitVec 32)) (parked re : Bool) (g e c n : Nat),
     dispatched s k d key u → dOpcode d = 1 → passes d (postBytes d) (postChecks d param input (.record parked g e c re) u key) →
     pPromptCounts (paramOf d param) = false → leaderOf u.dtm.map g = some n →
     exec (.reqPost k d param input (.record parked g e c re)) s = .next (settle s (send { u with
         hpt := { u.hpt with posts := tset u.hpt.posts (dReq d) ⟨flightId key, qOut d, qLog2 d, qModel d, paramOf d param⟩ }
         sch := { u.sch with reqs := tset u.sch.reqs (dReq d) (postReq u key d (paramOf d param) c) } }
       n 0 .post [at' 0 48 (dReq d), at' 0 16 (ownGroup u)]))) ∧
  -- reqPark at the owner's leader
  (∀ (s u : State) (k : RingKey) (d : Desc) (key : DescKey) (parked re : Bool) (g e c : Nat), dispatched s k d key u → dOpcode d = 2 →
     passes d (resv d 0x10 63 16 ++ resvWords d [0x18, 0x20, 0x28, 0x30, 0x38]) (parkChecks d (.record parked g e c re) u key) →
     leads u g = true →
     exec (.reqPark k d (.record parked g e c re)) s = .next (settle s (openTraverse u (.park (dReq d) (kDst d) (self u) (flightId key))))) ∧
  -- reqPark elsewhere
  (∀ (s u : State) (k : RingKey) (d : Desc) (key : DescKey) (parked re : Bool) (g e c n : Nat), dispatched s k d key u → dOpcode d = 2 →
     passes d (resv d 0x10 63 16 ++ resvWords d [0x18, 0x20, 0x28, 0x30, 0x38]) (parkChecks d (.record parked g e c re) u key) →
     leads u g = false → leaderOf u.dtm.map g = some n →
     exec (.reqPark k d (.record parked g e c re)) s = .next (settle s (sendFor u n 0 .park
       [mkWord [(0, 48, dReq d), (48, 16, kDst d)], BitVec.ofNat 64 (flightId key)] (.park (flightId key))).1)) ∧
  -- reqCancel through the home
  (∀ (s u : State) (k : RingKey) (d : Desc) (key : DescKey) (g e c : Nat) (re : Bool), dispatched s k d key u → dOpcode d = 3 →
     role u ≠ 0 → passes d (resvWords d [0x10, 0x18, 0x20, 0x28, 0x30, 0x38]) [] → thas u.sch.reqs (dReq d) = false →
     exec (.reqCancel k d (.record false g e c re)) s = .next (settle s (send u (homeOf u.dtm.map (dReq d)) 0 .cancel
       [at' 0 48 (dReq d), mkWord [(0, 20, self u), (20, 12, key.ctx), (32, 3, key.ring)], at' 0 32 key.count]))) ∧
  -- reqCancel at the owner's leader
  (∀ (s u : State) (k : RingKey) (d : Desc) (key : DescKey) (g e c : Nat) (re : Bool), dispatched s k d key u → dOpcode d = 3 →
     role u ≠ 0 → passes d (resvWords d [0x10, 0x18, 0x20, 0x28, 0x30, 0x38]) [] → thas u.sch.reqs (dReq d) = true →
     leadsFor u (dReq d) = true →
     exec (.reqCancel k d (.record false g e c re)) s = .next (settle s (cancelReshoot (cancelWait (modReq u (dReq d) (fun r => { r with
       cancel := if r.cancel.contains (self u, key) then r.cancel else r.cancel ++ [(self u, key)] })) (dReq d)) (dReq d)))) ∧
  -- cancelReachesOwner
  (∀ (s : State) (req node : Nat) (key : DescKey), isUp s = true → thas s.sch.reqs req = true → leadsFor s req = true →
     exec (.cancelReachesOwner req node key) s = .next (settle s (cancelReshoot (cancelWait (modReq s req (fun r => { r with
       cancel := if r.cancel.contains (node, key) then r.cancel else r.cancel ++ [(node, key)] })) req) req))) ∧
  -- reqReleaseFree
  (∀ (s u : State) (k : RingKey) (d : Desc) (key : DescKey) (g e c : Nat), dispatched s k d key u → dOpcode d = 4 → lOp d = 0 →
     role u ≠ 0 → passes d (releaseBytes d) [] →
     exec (.reqReleaseFree k d (.record true g e c false)) s = .next (settle s
       (if homeOf u.dtm.map (dReq d) = self u then startTake u (releaseSlate u (dReq d) g e) (.release (dReq d) g (some (flightId key))) .block 15
        else giveSlate u (releaseSlate u (dReq d) g e) (.release (dReq d) 0xFFFF (some (flightId key)))))) ∧
  -- reqReleaseReshoot at the owner's leader
  (∀ (s u : State) (k : RingKey) (d : Desc) (key : DescKey) (g e c : Nat) (re parked : Bool), dispatched s k d key u → dOpcode d = 4 → lOp d = 1 →
     passes d (releaseBytes d) [chk (lIn d % 64 != 0) St.HPT_BAD_ADDR 0x18, chk (!hostOk u key false (lIn d) (4 * lCount d)) St.HPT_PROT 0x18,
       chk (!servesPrefill (role u)) St.SCH_ROLE_MISMATCH 0] → leads u g = true →
     exec (.reqReleaseReshoot k d (.record parked g e c re)) s = .next (settle s (checkReshoot { u with
       kva := { u.kva with asks := tset u.kva.asks (flightId key) (dReq d) } } (dReq d) (lCount d) (self u) (flightId key)))) ∧
  -- reqReleaseReshoot elsewhere
  (∀ (s u : State) (k : RingKey) (d : Desc) (key : DescKey) (g e c n : Nat) (re parked : Bool), dispatched s k d key u → dOpcode d = 4 → lOp d = 1 →
     passes d (releaseBytes d) [chk (lIn d % 64 != 0) St.HPT_BAD_ADDR 0x18, chk (!hostOk u key false (lIn d) (4 * lCount d)) St.HPT_PROT 0x18,
       chk (!servesPrefill (role u)) St.SCH_ROLE_MISMATCH 0] → leads u g = false → leaderOf u.dtm.map g = some n →
     exec (.reqReleaseReshoot k d (.record parked g e c re)) s = .next (settle s (send (beginRecompute u key d (flightId key) g c) n 0 .reshootAsk
       [at' 0 48 (dReq d), mkWord [(0, 23, lCount d), (32, 20, self u)], BitVec.ofNat 64 (flightId key)])))

/-- Kernel, PACK and MOVE descriptors that pass their checks have their effect. A descriptor of these engines whose
checks pass loads, unloads or starts a run, packs, unpacks or frees a tensor, or starts a MOVE. Rules: R157, R162,
R186, R187, R378. It rests on the model's own choices in log entries 34, 36, 41, 42, 99. -/
def Obligations.KernelCommands : Prop :=
  -- kernelLoad
  (∀ (s u : State) (k : RingKey) (d : Desc) (key : DescKey) (image : List Word), dispatched s k d key u → dOpcode d = 0x10 →
     dfld d 0x18 45 44 = 0 → passes d (loadBytes d) ([chk ((Desc.word d 2).toNat % 64 != 0) St.HPT_BAD_ADDR 0x10,
       chk (!hostOk u key false (Desc.word d 2).toNat (dfld d 0x18 31 0)) St.HPT_PROT 0x10] ++ imageChecks u key d image) →
     exec (.kernelLoad k d image) s = .next (completeOk { u with mxe := { u.mxe with
       kernels := (List.range (imKern image)).foldl (fun t j => tset t (dfld d 0x18 43 32 + j)
         ⟨imK image j, key.ctx, ctxTenant u key.ctx, u.mxe.nextImage⟩) u.mxe.kernels
       tensors := (List.range (imTens image)).foldl (fun m t => tset m (teHandle image t)
         (teTensor image t (teFull u image t) key.ctx u.mxe.nextImage)) u.mxe.tensors
       models := if imModel image = 0 then u.mxe.models else tset u.mxe.models (imModel image) u.mxe.nextImage
       nextImage := u.mxe.nextImage + 1 } } (flightId key))) ∧
  -- kernelUnload
  (∀ (s u : State) (k : RingKey) (d : Desc) (key : DescKey), dispatched s k d key u → dOpcode d = 0x10 →
     dfld d 0x18 45 44 = 1 → passes d (loadBytes d)
       [chk (!(List.range (dfld d 0x18 31 0)).all (fun i => ownsKernel u key.ctx (dfld d 0x18 43 32 + i))) St.MXE_NO_KERNEL 0x1C] →
     exec (.kernelUnload k d) s = .next (completeOk (dropEmptyImages { u with mxe := { u.mxe with
       kernels := tkeep (fun h _ => !(decide (dfld d 0x18 43 32 ≤ h) && decide (h < dfld d 0x18 43 32 + dfld d 0x18 31 0)))
         u.mxe.kernels } }) (flightId key))) ∧
  -- kernelRun
  (∀ (s u : State) (k : RingKey) (d : Desc) (key : DescKey), dispatched s k d key u → dOpcode d = 0x11 →
     passes d (resv d 0x10 31 12 ++ resv d 0x30 63 32 ++ resvWords d [0x38]) (runChecks u key d) →
     exec (.kernelRun k d) s = .next (addUnit { u with mxe := { u.mxe with
         runs := tset u.mxe.runs (flightId key) ⟨d, rKernel d, if rM d = 0 then kM (kernelWords u (rKernel d)) else rM d, 0, false, none, []⟩ } } 2 key.ctx none
       (.work (flightId key)) (kernelUnits u (kernelWords u (rKernel d))
         ((tget u.mxe.tensors (rB d)).elim false (fun t => t.coded))
         (if rM d = 0 then kM (kernelWords u (rKernel d)) else rM d) - 1))) ∧
  -- packCode
  (∀ (s u : State) (k : RingKey) (d : Desc) (key : DescKey), dispatched s k d key u → dOpcode d = 0x21 → pOp d = 0 →
     passes d (packBytes d) (packChecks u key d) →
     exec (.packCode k d) s = .next (addUnit { u with mxe := { u.mxe with
         runs := tset u.mxe.runs (flightId key) ⟨d, 0, 0, rd u F.EXP_FALLBACK_NUM, false, none, []⟩ } } 2 key.ctx none (.work (flightId key))
       (2 * ceilDiv (blocksOf (pTensor u d).rows (pTensor u d).cols) 64 + 12 - 1))) ∧
  -- packCodeSafe
  (∀ (s u : State) (k : RingKey) (d : Desc) (key : DescKey), dispatched s k d key u → dOpcode d = 0x21 → pOp d = 1 →
     passes d (packBytes d) (packChecks u key d) →
     exec (.packCodeSafe k d) s = .next (addUnit { u with mxe := { u.mxe with
         runs := tset u.mxe.runs (flightId key) ⟨d, 0, 0, rd u F.EXP_FALLBACK_NUM, false, none, []⟩ } } 2 key.ctx none (.work (flightId key))
       (2 * ceilDiv (blocksOf (pTensor u d).rows (pTensor u d).cols) 64 + 8 - 1))) ∧
  -- packUnpack
  (∀ (s u : State) (k : RingKey) (d : Desc) (key : DescKey), dispatched s k d key u → dOpcode d = 0x21 → pOp d = 2 →
     passes d (packBytes d) (packChecks u key d) →
     exec (.packUnpack k d) s = .next (addUnit { u with mxe := { u.mxe with
         runs := tset u.mxe.runs (flightId key) ⟨d, 0, 0, rd u F.EXP_FALLBACK_NUM, false, none, []⟩ } } 2 key.ctx none (.work (flightId key))
       (ceilDiv (blocksOf (pTensor u d).rows (pTensor u d).cols) 64 - 1))) ∧
  -- packFree
  (∀ (s u : State) (k : RingKey) (d : Desc) (key : DescKey) (t : Tensor), dispatched s k d key u → dOpcode d = 0x21 → pOp d = 3 →
     tget u.mxe.tensors (pDst d) = some t → t.image = 0 → t.ctx = key.ctx → passes d (packBytes d) [] →
     exec (.packFree k d) s = .next (completeOk { u with mxe := { u.mxe with tensors := tdel u.mxe.tensors (pDst d) } } (flightId key))) ∧
  -- move
  (∀ (s u : State) (k : RingKey) (d : Desc) (key : DescKey), dispatched s k d key u → dOpcode d = 0x20 →
     passes d (moveBytes d) (moveChecks d u key) →
     exec (.move k d) s = .next { u with bmv := { u.bmv with waiting := u.bmv.waiting ++ [⟨flightId key, d⟩] } })

/-- Table and gather descriptors that pass their checks have their effect. A table descriptor registers, frees,
refreshes, loads or writes back; a gather descriptor begins its run; lists out of order are refused. Rules: R278,
R279, R284, R289, R291, R294, R295. It rests on the model's own choices in log entries 42, 92, 97. -/
def Obligations.TableCommands : Prop :=
  -- tableRegister
  (∀ (s u : State) (k : RingKey) (d : Desc) (key : DescKey), dispatched s k d key u → dOpcode d = 0x30 → gOp d = 0 →
     passes d (registerBytes d) (registerChecks d u key) →
     exec (.tableRegister k d) s = .next (completeOk (wr { u with
         tak := { u.tak with redirects := tkeep (fun r _ => r / 2 ^ 32 != gTable d) u.tak.redirects }
         gth := { u.gth with
           tables := tset u.gth.tables (gTable d) ⟨key.ctx, ctxTenant u key.ctx, gFmt d, gTail d == 1, gDim d, gRows d, gHot d,
             dfld d 0x20 51 0, (Desc.word d 5).toNat, gDelta d, [], [], []⟩ } }
       F.GTH_TABLES_COUNT (tset u.gth.tables (gTable d) (gNew d key.ctx (ctxTenant u key.ctx))).length) (flightId key))) ∧
  -- tableFree
  (∀ (s u : State) (k : RingKey) (d : Desc) (key : DescKey), dispatched s k d key u → dOpcode d = 0x30 → gOp d = 1 →
     passes d (tableOpBytes d) (ownerChecks d u key ++ [chk (tableInUse u (gTable d)) St.GTH_TABLE_BUSY 0x12]) →
     exec (.tableFree k d) s = .next (settle s (completeOk (freeTable u (gTable d)) (flightId key))) ∧
     tget (freeTable u (gTable d)).gth.tables (gTable d) = none) ∧
  -- tableRefresh
  (∀ (s u : State) (k : RingKey) (d : Desc) (key : DescKey) (list : List Word), dispatched s k d key u → dOpcode d = 0x30 → gOp d = 2 →
     passes d (tableOpBytes d) (listChecks d u key false (8 * gRows d) ++ ownerChecks d u key) →
     exec (.tableRefresh k d list) s = .next (settle s (advanceRefresh ((list.take (gRows d)).length + 1) { u with gth := { u.gth with
       refresh := tset u.gth.refresh (flightId key) ⟨gTable d, list.take (gRows d), 0, [], 0, none⟩ } } (flightId key)))) ∧
  -- tableLoad
  (∀ (s u : State) (k : RingKey) (d : Desc) (key : DescKey) (rows : List (List Byte)), dispatched s k d key u → dOpcode d = 0x30 →
     gOp d = 3 → passes d (tableOpBytes d) (loadChecks d u key) →
     exec (.tableLoad k d rows) s = .next (completeOk (modTable
       ((rows.take (gRows d)).zipIdx.foldl (fun v p => writeTail v (tableAt u (gTable d)) (gFirst d + p.2)
         (p.1.take (tRb (tableAt u (gTable d))))) u) (gTable d)
       (fun t => { t with delta := tkeep (fun r _ => !(decide (gFirst d ≤ r) && decide (r < gFirst d + gRows d))) t.delta }))
       (flightId key))) ∧
  -- tableSync
  (∀ (s u v : State) (k : RingKey) (d : Desc) (key : DescKey) (flash : List (Option (List Byte))) (n : Nat), dispatched s k d key u →
     dOpcode d = 0x30 → gOp d = 4 →
     passes d (tableOpBytes d) (listChecks d u key true (gRows d * (64 + tRb (tableAt u (gTable d)))) ++ ownerChecks d u key) →
     syncRun (gTable d) (gList d) ((syncRows u (gTable d) (gRows d)).zipIdx.map (fun p => (p.1, (flash[p.2]?).getD none))) u 0 =
       (v, n, none) →
     exec (.tableSync k d flash) s = .next (completeWith v (flightId key) St.OK (BitVec.ofNat 64 (n % 2 ^ 32)))) ∧
  -- gatherPool
  (∀ (s u : State) (k : RingKey) (d : Desc) (key : DescKey) (g : GatherLists), dispatched s k d key u → dOpcode d = 0x31 →
     dfld d 0x10 17 16 = 0 → passes d (gatherBytes d) (gatherChecks d u key) → listFault d g (tableAt u (gaTable d)).rows = none →
     exec (.gatherPool k d g) s = .next (engines { u with gth := { u.gth with
       runs := tset u.gth.runs (flightId key)
         ⟨d, g, gaTable d, false, u.gth.order, 0, 0, [], [], 0, [], [], none, []⟩
       order := u.gth.order + 1 } })) ∧
  -- gatherCopy
  (∀ (s u : State) (k : RingKey) (d : Desc) (key : DescKey) (g : GatherLists), dispatched s k d key u → dOpcode d = 0x31 →
     dfld d 0x10 17 16 = 1 → passes d (gatherBytes d) (gatherChecks d u key) → listFault d g (tableAt u (gaTable d)).rows = none →
     exec (.gatherCopy k d g) s = .next (engines { u with gth := { u.gth with
       runs := tset u.gth.runs (flightId key)
         ⟨d, g, gaTable d, false, u.gth.order, 0, 0, [], [], 0, [], [], none, []⟩
       order := u.gth.order + 1 } })) ∧
  -- update
  (∀ (s u : State) (k : RingKey) (d : Desc) (key : DescKey) (g : GatherLists), dispatched s k d key u → dOpcode d = 0x32 →
     passes d (updateBytes d) (updateChecks d u key) → listFault d g (tableAt u (gaTable d)).rows = none →
     exec (.update k d g) s = .next (engines { u with gth := { u.gth with
       runs := tset u.gth.runs (flightId key)
         ⟨d, g, gaTable d, false, u.gth.order, 0, 0, [], [], 0, [], [], none, []⟩
       order := u.gth.order + 1 } })) ∧
  -- lists out of order
  (∀ (s u : State) (k : RingKey) (d : Desc) (key : DescKey) (g : GatherLists) (st : Status) (p : Nat), dispatched s k d key u →
     dOpcode d = 0x31 → dfld d 0x10 17 16 = 0 → passes d (gatherBytes d) (gatherChecks d u key) →
     listFault d g (tableAt u (gaTable d)).rows = some (st, p) →
     exec (.gatherPool k d g) s = .next (completeWith u (flightId key) st (BitVec.ofNat 64 (p % 2 ^ 32))))

/-- Semaphore descriptors, and the teardown of a context. SEM_SIGNAL adds or sets and wakes those that waited, SEM_WAIT
completes or waits or times out, and a context is torn down in two commands. Rules: R108, R109, R119, R120. It rests
on the model's own choices in log entries 18, 126, 127. -/
def Obligations.SemaphoreCommands : Prop :=
  -- semSignalAdd
  (∀ (s u : State) (k : RingKey) (d : Desc) (key : DescKey), dispatched s k d key u → dOpcode d = 0x50 → dfld d 0x10 17 16 = 0 →
     semHandle d / 16 = key.ctx → passes d (signalBytes d) [] → semCount u (semHandle d) + dfld d 0x10 63 32 < 2 ^ 32 →
     exec (.semSignalAdd k d) s = .next (
       let v := serveAll (setSem { u with sch := { u.sch with inherit := tdel u.sch.inherit (semHandle d) } } (semHandle d)
         (semCount u (semHandle d) + dfld d 0x10 63 32)) (semHandle d)
       completeWith v (flightId key) St.OK (BitVec.ofNat 64 (semCount v (semHandle d) % 2 ^ 32)))) ∧
  -- semSignalAdd beyond the count
  (∀ (s u : State) (k : RingKey) (d : Desc) (key : DescKey), dispatched s k d key u → dOpcode d = 0x50 → dfld d 0x10 17 16 = 0 →
     semHandle d / 16 = key.ctx → passes d (signalBytes d) [] → 2 ^ 32 ≤ semCount u (semHandle d) + dfld d 0x10 63 32 →
     exec (.semSignalAdd k d) s = .next (completeSt { u with sch := { u.sch with inherit := tdel u.sch.inherit (semHandle d) } }
       (flightId key) St.SCH_SEM_OVERFLOW)) ∧
  -- semSignalSet
  (∀ (s u : State) (k : RingKey) (d : Desc) (key : DescKey), dispatched s k d key u → dOpcode d = 0x50 → dfld d 0x10 17 16 = 1 →
     semHandle d / 16 = key.ctx → passes d (signalBytes d) [] →
     exec (.semSignalSet k d) s = .next (
       let v := serveAll (setSem { u with sch := { u.sch with inherit := tdel u.sch.inherit (semHandle d) } } (semHandle d)
         (dfld d 0x10 63 32)) (semHandle d)
       completeWith v (flightId key) St.OK (BitVec.ofNat 64 (semCount v (semHandle d) % 2 ^ 32)))) ∧
  -- semWait that the count suffices for
  (∀ (s u : State) (k : RingKey) (d : Desc) (key : DescKey), dispatched s k d key u → dOpcode d = 0x51 → waitProt u d key = false →
     passes d (resv d 0x10 31 16 ++ badAt (dfld d 0x10 63 32 == 0) 0x10 32 ++ resv d 0x18 63 32 ++ resvWords d [0x20, 0x28, 0x30, 0x38]) [] →
     (∀ w ∈ u.sch.waiters, w.sem ≠ semHandle d) → dfld d 0x10 63 32 ≤ semCount u (semHandle d) →
     exec (.semWait k d) s = .next (completeOk (setSem u (semHandle d) (semCount u (semHandle d) - dfld d 0x10 63 32)) (flightId key))) ∧
  -- semWait that waits
  (∀ (s u : State) (k : RingKey) (d : Desc) (key : DescKey), dispatched s k d key u → dOpcode d = 0x51 → waitProt u d key = false →
     passes d (resv d 0x10 31 16 ++ badAt (dfld d 0x10 63 32 == 0) 0x10 32 ++ resv d 0x18 63 32 ++ resvWords d [0x20, 0x28, 0x30, 0x38]) [] →
     semCount u (semHandle d) < dfld d 0x10 63 32 →
     exec (.semWait k d) s = .next (lendTo { u with sch := { u.sch with waiters := u.sch.waiters ++
       [⟨semHandle d, flightId key, key.ctx, key.ring, dfld d 0x10 63 32, dfld d 0x18 31 0 != 0⟩] } } (semHandle d) key.ctx)) ∧
  -- semWaitTimeout
  (∀ (s : State) (key : DescKey) (w : Waiter), isUp s = true →
     s.sch.waiters.find? (fun w => w.flight == flightId key && w.limited) = some w →
     exec (.semWaitTimeout key) s = .next (serveAll (completeSt { s with sch := { s.sch with waiters := s.sch.waiters.erase w } }
       w.flight St.SCH_SEM_TIMEOUT) w.sem)) ∧
  -- contextTeardown
  (∀ (s : State) (c : Nat) (cause : BitVec 16), isUp s = true →
     exec (.contextTeardown c cause) s = .next (settle s (faultCtx s c cause))) ∧
  -- contextTeardownDone
  (∀ (s : State) (c : Nat) (x : Ctx) (t : Teardown), isUp s = true → tget s.hpt.ctxs c = some x → x.down = some t →
     t.fault = true → t.started = true → (∀ e ∈ s.hpt.flight, e.2.key.ctx ≠ c) → (∀ e ∈ s.hpt.made, e.2 ≠ c) →
     (∀ q ∈ x.cqs, q.delayed = []) →
     exec (.contextTeardownDone c) s = .next (settle s (endDown (postEvent s .contextDown t.cause ⟨9, c⟩ 0 c
       (BitVec.ofNat 64 t.released) (BitVec.ofNat 64 t.aborted)) c)))

/-- Admission of a step and of prompt work, rosters and the end of a unit. What is admitted is what the admission rules
pick; the roster goes out, and is taken or dropped by another member; a unit that ends lets the next begin. Rules:
R96, R99, R100, R103. It rests on the model's own choices in log entries 39, 51, 130. -/
def Obligations.StepCommands : Prop :=
  -- stepAdmission
  (∀ (s : State) (est : StepEstimate), isUp s = true → mayAdmit s = true → servesDecode (role s) = true →
     let s1 := removeCancelled (feedStarved s)
     let cands := (s1.sch.reqs.filter (fun e => eligible s1 e.2 && leadsFor s1 e.1)).map
       (fun e => (⟨e.1, e.2.tenant, e.2.lastAdmit, 16 + ceilDiv e.2.committed 1024⟩ : Cand))
     ∃ v seqs, exec (.stepAdmission est) s = .next (settle s (sendRoster v seqs)) ∧
       seqs.map (fun q => q.1) = (admitWork s1 cands s1.sch.drr).2) ∧
  -- promptAdmission
  (∀ (s : State), isUp s = true → mayAdmit s = true → servesPrefill (role s) = true →
     let s1 := removeCancelled (feedStarved s)
     let cands := (s1.sch.reqs.filter (fun e => promptEligible s1 e.2 && leadsFor s1 e.1)).map
       (fun e => (⟨e.1, e.2.tenant, e.2.lastAdmit, ceilDiv (chunkOf s1 e.2) 32⟩ : Cand))
     let a := admitWork s1 cands s1.sch.drrPrompt
     let s2 := { s1 with sch := { s1.sch with drrPrompt := a.1 } }
     let s3 := a.2.foldl (fun u r => modReq u r (fun q => { q with lastAdmit := s1.sch.nextStep + 1 })) s2
     exec .promptAdmission s = .next (settle s (if a.2 = [] then s3 else sendRoster s3 (a.2.map (fun r => (r, false, budgetOf s3 r)))))) ∧
  -- sendRoster
  (∀ (s : State) (seqs : List (Nat × Bool × Nat)), sendRoster s seqs =
     (((ledGroups s).flatMap (servers s)).dedup).foldl (fun t n => send t n 0 .roster
       ([mkWord [(0, 32, epoch s), (32, 8, seqs.length)], BitVec.ofNat 64 s.sch.nextStep] ++
         seqs.flatMap (fun q => [mkWord [(0, 48, q.1), (48, 1, if q.2.1 = true then 1 else 0)], at' 0 16 q.2.2])))
       { s with sch := { s.sch with nextStep := (s.sch.nextStep + 1) % 2 ^ 64 } }) ∧
  -- roster
  (∀ (s : State) (src : Nat) (words : List Word), isUp s = true → epochRule s (bits (wordAt words 0) 31 0) = none →
     rosterBad words = false → stepStarted s (wordAt words 1).toNat = false →
     exec (.roster src words) s = .next (settle s (anchorGates (startStep s (bits (wordAt words 0) 31 0) (wordAt words 1).toNat
       ((List.range (bits (wordAt words 0) 39 32)).map (fun i => (bits (wordAt words (2 + 2 * i)) 47 0,
         bit (wordAt words (2 + 2 * i)) 48, bits (wordAt words (3 + 2 * i)) 15 0))))))) ∧
  -- roster of a stale map
  (∀ (s : State) (src : Nat) (words : List Word) (st : Status), isUp s = true → epochRule s (bits (wordAt words 0) 31 0) = some st →
     exec (.roster src words) s = .next (settle s (staleRoster s src (bits (wordAt words 0) 31 0) st))) ∧
  -- roster with bad fields, and one of a step that has started
  (∀ (s : State) (src : Nat) (words : List Word), isUp s = true → epochRule s (bits (wordAt words 0) 31 0) = none →
     (rosterBad words = true → exec (.roster src words) s = .next (settle s (openEvent s .error St.SCH_BAD_ROSTER noUnit 0 0))) ∧
     (rosterBad words = false → stepStarted s (wordAt words 1).toNat = true → exec (.roster src words) s = .next (settle s s))) ∧
  -- unitEnd with units left
  (∀ (s : State) (u : MxeUnit) (p id : Nat), isUp s = true → s.sch.running = some u → u.left ≠ 0 → s.mxe.bad = none →
     u.kind = .work id → u.prio = some p →
     exec (.unitEnd ⟨0, 0⟩) s = .next (settle s (
       let b := kernelBoundary { s with sch := { s.sch with running := none } }
       let v := startUnit { b with sch := { b.sch with units := b.sch.units ++ [{ u with left := u.left - 1 }] } }
       if thas s.gth.runs id = true then windowDone v id 0 else v))) ∧
  -- unitEnd of a step's unit
  (∀ (s : State) (u : MxeUnit) (p m : Nat), isUp s = true → s.sch.running = some u → u.left ≠ 0 → s.mxe.bad = none →
     u.kind = .step m → u.prio = some p →
     exec (.unitEnd ⟨0, 0⟩) s = .next (settle s (
       let b := kernelBoundary { s with sch := { s.sch with running := none } }
       let v := startUnit { b with sch := { b.sch with units := b.sch.units ++ [{ u with left := u.left - 1 }] } }
       startCollective v (ownGroup v))))

/-- A take starts: its slate is read, checked and carried to its coordinator. TAKE_SUBMIT reads a slate; a slate that
checks begins a take here, is decided at once when no other controller takes part, or goes to its coordinator. Rules:
R130. It rests on the model's own choices in log entries 60, 131, 133. -/
def Obligations.TakeStart : Prop :=
  -- takeSubmit
  (∀ (s u : State) (k : RingKey) (d : Desc) (key : DescKey), dispatched s k d key u → dOpcode d = 0x40 →
     passes d (submitBytes d) (submitChecks d u key) →
     exec (.takeSubmit k d) s = .next { u with
       tak := { u.tak with submits := tset u.tak.submits (flightId key) d }
       out := u.out ++ [.hostRead (.context key.ctx) (tAddr d) (tLen d)] }) ∧
  -- takeSlateRead at the coordinator
  (∀ (s : State) (key : DescKey) (d : Desc) (slate : List Word), isUp s = true → tget s.tak.submits (flightId key) = some d →
     firstFail (hostSlateChecks { s with tak := { s.tak with submits := tdel s.tak.submits (flightId key) } } d slate) = none →
     (slateOf slate).nodes.getD (slateOf slate).coord 0 = self s → (slateOf slate).nodes ≠ [self s] →
     takesOpen s < 4096 →
     exec (.takeSlateRead key slate) s = .next (settle s (beginTake (wr { s with tak := { s.tak with
         submits := tdel s.tak.submits (flightId key) } } F.TAK_CLOCK_STAMP (rd s F.TAK_CLOCK_STAMP + 1))
       (rd s F.TAK_CLOCK_STAMP + 1) (slateOf slate) (.host (flightId key) key.ctx) (.hostHere key.ctx (ctxTenant s key.ctx)) 1 (tRetry d)))) ∧
  -- takeSlateRead of a take with no other participant
  (∀ (s : State) (key : DescKey) (d : Desc) (slate : List Word), isUp s = true → tget s.tak.submits (flightId key) = some d →
     firstFail (hostSlateChecks { s with tak := { s.tak with submits := tdel s.tak.submits (flightId key) } } d slate) = none →
     (slateOf slate).nodes = [self s] → (slateOf slate).coord = 0 →
     exec (.takeSlateRead key slate) s = .next (settle s (localFor { s with tak := { s.tak with
       submits := tdel s.tak.submits (flightId key) } } (.hostHere key.ctx (ctxTenant s key.ctx)) (.host (flightId key) key.ctx)
       (slateOf slate).actions))) ∧
  -- takeSlateRead forwards
  (∀ (s : State) (key : DescKey) (d : Desc) (slate : List Word), isUp s = true → tget s.tak.submits (flightId key) = some d →
     firstFail (hostSlateChecks { s with tak := { s.tak with submits := tdel s.tak.submits (flightId key) } } d slate) = none →
     (slateOf slate).nodes.getD (slateOf slate).coord 0 ≠ self s →
     exec (.takeSlateRead key slate) s = .next (settle s (send { s with tak := { s.tak with
         submits := tdel s.tak.submits (flightId key)
         nextFwd := (s.tak.nextFwd + 1) % 2 ^ 32
         forwarded := tset s.tak.forwarded s.tak.nextFwd (.host (flightId key) key.ctx) } }
       ((slNodes slate).getD (slCoord slate) 0) 0 .slate
       (mkWord [(0, 32, s.tak.nextFwd), (32, 4, tRetry d), (36, 1, 1)] :: slate)))) ∧
  -- takeSlateForward
  (∀ (s : State) (src srcKey retries : Nat) (slate : List Word), isUp s = true → badOwner s.dtm.map (slateOf slate) = none →
     takesOpen s < 4096 →
     exec (.takeSlateForward src srcKey retries true slate) s = .next (settle s (beginTake
       (wr s F.TAK_CLOCK_STAMP (rd s F.TAK_CLOCK_STAMP + 1)) (rd s F.TAK_CLOCK_STAMP + 1) (slateOf slate) (.forwarded src srcKey)
       (.hostAt src) 1 retries))) ∧
  -- takeSlateForward with another coordinator's objects
  (∀ (s : State) (src srcKey retries a : Nat) (host : Bool) (slate : List Word), isUp s = true →
     badOwner s.dtm.map (slateOf slate) = some a →
     exec (.takeSlateForward src srcKey retries host slate) s = .next (settle s (send s src 0 .slateDone
       [mkWord [(0, 32, srcKey), (32, 24, 0)], mkWord [(0, 16, St.TAK_BAD_COORD.toNat), (16, 6, a), (22, 4, 0), (26, 5, 1), (32, 16, 0)]]))) ∧
  -- beginTake
  (∀ (s : State) (stamp : Nat) (sl : Slate) (who : TakeFor) (src : Source) (tries retries : Nat), self s ∉ sl.nodes →
     beginTake s stamp sl who src tries retries =
       sendAll (setCoord (newTakeId s).1 (newTakeId s).2 ⟨stamp, sl, who, src, .voting, [], St.OK, 0, 0, St.OK, [], tries, retries, false⟩)
         (sl.nodes.zipIdx.map (fun p => (p.1, .prepare, [mkWord [(0, 24, (newTakeId s).2), (24, 4, p.2)], BitVec.ofNat 64 stamp,
           hostWord s who src] ++ slateWords sl (fun a => a.part == p.2)))))

/-- PREPARE, votes and the decision of a take. A participant votes yes, votes no or waits; the coordinator gathers votes;
the last one, a no vote or the timeout decides. Rules: R138, R139, R140, R141. It rests on the model's own choices in
log entries 58, 61, 135, 136. -/
def Obligations.TakeVotes : Prop :=
  -- takePrepare
  (∀ (s u : State) (m : PrepareMsg) (frames : Tbl Nat) (n : Nat), isUp s = true → m.host = none →
     partOf (seeStamp s m.stamp) m.ref = none → epochRule (seeStamp s m.stamp) (blockSlate m.slate).epoch = none →
     takesOpen (seeStamp s m.stamp) < 4096 → exposed (seeStamp s m.stamp) = false →
     prepare (seeStamp s m.stamp) .block m.ref m.stamp (blockSlate m.slate).nodes (partActions (blockSlate m.slate) m.part) = .yes u frames n →
     exec (.takePrepare m) s = .next (settle s (mirrorRec (setPart u m.ref ⟨m.stamp, m.part, (blockSlate m.slate).epoch, .block,
         (blockSlate m.slate).nodes, partActions (blockSlate m.slate) m.part, frames, .mirroring, n, []⟩)
       (.intent m.ref m.stamp m.part (slateWords (blockSlate m.slate) (fun a => a.part == m.part)))))) ∧
  -- takePrepare votes no
  (∀ (s : State) (m : PrepareMsg) (i : Nat) (st : Status), isUp s = true → m.host = none →
     partOf (seeStamp s m.stamp) m.ref = none → epochRule (seeStamp s m.stamp) (blockSlate m.slate).epoch = none →
     takesOpen (seeStamp s m.stamp) < 4096 →
     prepare (seeStamp s m.stamp) .block m.ref m.stamp (blockSlate m.slate).nodes (partActions (blockSlate m.slate) m.part) = .no i st none →
     exec (.takePrepare m) s = .next (settle s (sendVote (seeStamp s m.stamp) m.ref m.stamp m.part st i none))) ∧
  -- takePrepare waits
  (∀ (s : State) (m : PrepareMsg) (h : TakeRef), isUp s = true → m.host = none →
     partOf (seeStamp s m.stamp) m.ref = none → epochRule (seeStamp s m.stamp) (blockSlate m.slate).epoch = none →
     takesOpen (seeStamp s m.stamp) < 4096 →
     prepare (seeStamp s m.stamp) .block m.ref m.stamp (blockSlate m.slate).nodes (partActions (blockSlate m.slate) m.part) = .waits h →
     exec (.takePrepare m) s = .next (settle s (setPart (seeStamp s m.stamp) m.ref ⟨m.stamp, m.part, (blockSlate m.slate).epoch, .block,
         (blockSlate m.slate).nodes, partActions (blockSlate m.slate) m.part, [], .waiting h, 0, []⟩))) ∧
  -- takePrepare of a stale map
  (∀ (s : State) (m : PrepareMsg), isUp s = true → m.host = none →
     partOf (seeStamp s m.stamp) m.ref = none → epochRule (seeStamp s m.stamp) (blockSlate m.slate).epoch = some St.DTM_STALE_MAP →
     exec (.takePrepare m) s = .next (settle s (sendVote (bump (seeStamp s m.stamp) F.DTM_STALE_CNT_COUNT) m.ref m.stamp m.part
       St.DTM_STALE_MAP 0 none))) ∧
  -- intentMirrorAck
  (∀ (s : State) (r : TakeRef) (p : PartTake), isUp s = true → partOf s r = some p → r.node ≠ self s → p.state = .mirroring →
     exec (.intentMirrorAck r) s = .next (settle s (send (setPart s r { p with state := .prepared }) r.node 0 .vote
       [mkWord [(0, 24, r.id), (24, 4, p.part), (32, 16, 0), (48, 6, 0)], BitVec.ofNat 64 p.stamp, 0]))) ∧
  -- intentMirrorAck of a local take
  (∀ (s : State) (id : Nat) (p : PartTake) (c : CoordTake), isUp s = true → partOf s ⟨self s, id⟩ = some p → tget s.tak.coord id = some c →
     c.state = .mirroring →
     exec (.intentMirrorAck ⟨self s, id⟩) s = .next (settle s (endTake (bump (finishPart s ⟨self s, id⟩ true) F.TAK_COMMIT_CNT_COUNT) id
       { c with status := St.OK }))) ∧
  -- takeVote, not the last
  (∀ (s : State) (m : VoteMsg) (c : CoordTake), isUp s = true → tget s.tak.coord m.takeId = some c → c.state = .voting →
     m.part < c.slate.nodes.length → m.status = St.OK → c.votes.contains m.part = false → c.votes.length + 1 ≠ c.slate.nodes.length →
     exec (.takeVote m) s = .next (settle s (setCoord (seeStamp s m.stamp) m.takeId { c with votes := c.votes ++ [m.part] }))) ∧
  -- takeVote, the last
  (∀ (s : State) (m : VoteMsg) (c : CoordTake), isUp s = true → tget s.tak.coord m.takeId = some c → c.state = .voting →
     m.part < c.slate.nodes.length → m.status = St.OK → c.votes.contains m.part = false → c.votes.length + 1 = c.slate.nodes.length →
     exec (.takeVote m) s = .next (settle s (decide' (seeStamp s m.stamp) m.takeId { c with votes := c.votes ++ [m.part], status := St.OK }))) ∧
  -- takeVote no
  (∀ (s : State) (m : VoteMsg) (c : CoordTake), isUp s = true → tget s.tak.coord m.takeId = some c → c.state = .voting →
     m.part < c.slate.nodes.length → m.status ≠ St.OK →
     exec (.takeVote m) s = .next (settle s (voteNo (seeStamp s m.stamp) m.takeId c m.part m.action m.status m.against))) ∧
  -- takeVote after the decision
  (∀ (s : State) (m : VoteMsg) (c : CoordTake), isUp s = true → tget s.tak.coord m.takeId = some c → c.state ≠ .voting →
     exec (.takeVote m) s = .next (settle s (seeStamp s m.stamp))) ∧
  -- takeVoteTimeout
  (∀ (s : State) (id part : Nat) (c : CoordTake), isUp s = true → tget s.tak.coord id = some c → c.state = .voting →
     part < c.slate.nodes.length → c.votes.contains part = false →
     exec (.takeVoteTimeout id part) s = .next (settle s (decide' s id { c with
       status := St.TAK_VOTE_TIMEOUT, badAction := 0, badPart := part, partStatus := St.OK }))) ∧
  -- the decision
  (∀ (s : State) (id : Nat) (c : CoordTake),
     (exposed s = false → decide' s id c = mirrorRec (setCoord s id { c with state := .decided })
       (.decision id c.stamp c.status c.slate.nodes)) ∧
     (exposed s = true → decide' s id c = carryOut s id { c with state := .announced }))

/-- The decision is mirrored, announced, applied and acknowledged; doubt is asked about. What follows a decision at the
coordinator and at a participant, what a take that is over answers, and what a take in doubt asks. Rules: R134, R138,
R143. It rests on the model's own choices in log entries 58, 59, 83, 136. -/
def Obligations.TakeOutcome : Prop :=
  -- decisionMirrorAck
  (∀ (s : State) (id n : Nat) (c : CoordTake), isUp s = true → tget s.tak.coord id = some c → c.state = .decided →
     n ∈ c.slate.nodes → n ≠ self s →
     exec (.decisionMirrorAck id) s = .next (settle s (announce (bump (finishPart s ⟨self s, id⟩ (decide (c.status = St.OK)))
       (if c.status = St.OK then F.TAK_COMMIT_CNT_COUNT else F.TAK_ABORT_CNT_COUNT)) id c))) ∧
  -- announce
  (∀ (s : State) (id : Nat) (c : CoordTake), announce s id c = sendAll (setCoord s id { c with state := .announced })
     ((c.slate.nodes.filter (fun n => n != self s)).map (fun n => (n, if c.status = St.OK then MsgKind.commit else MsgKind.abort,
       [mkWord [(0, 24, id), (24, 20, self s)], BitVec.ofNat 64 c.stamp])))) ∧
  -- takeCommit
  (∀ (s : State) (r : TakeRef) (stamp : Nat) (p : PartTake), isUp s = true → partOf (seeStamp s stamp) r = some p → isPrepared p = true →
     exec (.takeCommit r stamp) s = .next (settle s (
       let u := notifyEnded (dropPart (commitActs (seeStamp s stamp) r p.nodes p.frames p.actions) r) r p
       send u r.node 0 .ack [mkWord [(0, 24, r.id), (24, 20, self u)], BitVec.ofNat 64 (rd u F.TAK_CLOCK_STAMP)]))) ∧
  -- takeAbort
  (∀ (s : State) (r : TakeRef) (stamp : Nat) (p : PartTake), isUp s = true → partOf (seeStamp s stamp) r = some p →
     exec (.takeAbort r stamp) s = .next (settle s (
       let u := notifyEnded (dropPart (seeStamp s stamp) r) r p
       send u r.node 0 .ack [mkWord [(0, 24, r.id), (24, 20, self u)], BitVec.ofNat 64 (rd u F.TAK_CLOCK_STAMP)]))) ∧
  -- decisions of a take that is over
  (∀ (s : State) (r : TakeRef) (stamp : Nat), isUp s = true → partOf (seeStamp s stamp) r = none →
     exec (.takeCommit r stamp) s = .next (settle s (sendAck (seeStamp s stamp) r)) ∧
     exec (.takeAbort r stamp) s = .next (settle s (sendAck (seeStamp s stamp) r))) ∧
  -- takeAck, not the last
  (∀ (s : State) (id node stamp n : Nat) (c : CoordTake), isUp s = true → tget s.tak.coord id = some c → c.state = .announced →
     c.acks.contains node = false → n ∈ c.slate.nodes → n ≠ self (seeStamp s stamp) → n ≠ node → n ∉ c.acks →
     exec (.takeAck (.ack id node stamp)) s = .next (settle s (setCoord (seeStamp s stamp) id { c with acks := c.acks ++ [node] }))) ∧
  -- takeAck, the last
  (∀ (s : State) (id node stamp : Nat) (c : CoordTake), isUp s = true → tget s.tak.coord id = some c → c.state = .announced →
     c.acks.contains node = false → (∀ n ∈ c.slate.nodes, n = self (seeStamp s stamp) ∨ n = node ∨ n ∈ c.acks) →
     exec (.takeAck (.ack id node stamp)) s = .next (settle s { seeStamp s stamp with tak := { s.tak with
       coord := tdel s.tak.coord id
       ended := s.tak.ended ++ [⟨c.who, id, c.status, c.badAction, c.badPart, c.partStatus, c.tries, c.ctxDown⟩] } })) ∧
  -- takeAck of a forwarded slate's end
  (∀ (s : State) (key takeId action part tries : Nat) (st ps : Status) (who : TakeFor), isUp s = true →
     tget s.tak.forwarded key = some who →
     exec (.takeAck (.ended key takeId st action part ps tries)) s = .next (settle s { s with tak := { s.tak with
       forwarded := tdel s.tak.forwarded key
       ended := s.tak.ended ++ [⟨who, takeId, st, action, part, ps, tries, askerDown s who⟩] } })) ∧
  -- takeIndoubtTimeout
  (∀ (s : State) (r : TakeRef) (p : PartTake), isUp s = true → partOf s r = some p → p.state = .prepared → r.node ≠ self s →
     exec (.takeIndoubtTimeout r) s = .next (settle s (send (setPart (bump s F.TAK_INDOUBT_CNT_COUNT) r { p with state := .doubt false })
       r.node 0 .inquiry [mkWord [(0, 20, r.node), (20, 24, r.id)], BitVec.ofNat 64 p.stamp]))) ∧
  -- takeIndoubtTimeout again
  (∀ (s : State) (r : TakeRef) (p : PartTake) (b : Bool), isUp s = true → partOf s r = some p → p.state = .doubt b →
     exec (.takeIndoubtTimeout r) s = .next (settle s (send (setPart s r { p with state := .doubt (!b) })
       (if b = true then r.node else eTwin (mapGet s.dtm.map r.node)) 0 .inquiry
       [mkWord [(0, 20, r.node), (20, 24, r.id)], BitVec.ofNat 64 p.stamp]))) ∧
  -- takeInquiry
  (∀ (s : State) (src id stamp : Nat), isUp s = true →
     (tget s.tak.coord id = none → exec (.takeInquiry src ⟨self (seeStamp s stamp), id⟩ stamp) s = .next (settle s (send (seeStamp s stamp) src 0 .abort
       [mkWord [(0, 24, id), (24, 20, self (seeStamp s stamp))], BitVec.ofNat 64 stamp]))) ∧
     (∀ c, tget s.tak.coord id = some c → c.state = .announced →
       exec (.takeInquiry src ⟨self (seeStamp s stamp), id⟩ stamp) s = .next (settle s (send (seeStamp s stamp) src 0 (if c.status = St.OK then .commit else .abort)
         [mkWord [(0, 24, id), (24, 20, self (seeStamp s stamp))], BitVec.ofNat 64 stamp]))) ∧
     (∀ c, tget s.tak.coord id = some c → c.state = .voting →
       exec (.takeInquiry src ⟨self (seeStamp s stamp), id⟩ stamp) s = .next (settle s (seeStamp s stamp)))) ∧
  -- takeRetry
  (∀ (s : State) (id : Nat) (c : CoordTake) (r : TakeRef), isUp s = true → tget s.tak.coord id = some c → c.state = .retrying r →
     exec (.takeRetry id) s = .next (settle s (beginTake { bump s F.TAK_RETRY_CNT_COUNT with
       tak := { s.tak with coord := tdel s.tak.coord id } } c.stamp c.slate c.who c.src (c.tries + 1) (c.retries - 1)))) ∧
  -- takeEndedNotice
  (∀ (s : State) (r : TakeRef) (id : Nat) (c : CoordTake), isUp s = true →
     s.tak.coord.filter (fun e => e.2.state == .retrying r) = [(id, c)] →
     exec (.takeEndedNotice r) s = .next (settle s (beginTake { bump s F.TAK_RETRY_CNT_COUNT with
       tak := { s.tak with coord := tdel s.tak.coord id } } c.stamp c.slate c.who c.src (c.tries + 1) (c.retries - 1))))

/-- A core unit passes, mismatches and is run again; an expander block decodes or fails. The end of a unit on a matrix
core, its one retry, the strike that a second mismatch is, and what an expander does with a block. Rules: R170, R193,
R198. It rests on the model's own choices in log entries 36, 37, 38. -/
def Obligations.MatrixUnits : Prop :=
  -- mxeUnitDone that passes
  (∀ (s : State) (flight kernel unit core : Nat) (sums : List ChecksumPair) (numeric : Bool), isUp s = true → unitKnown s flight = true →
     (coreAt s core).st = .active → core < 100 → sumsPass s kernel sums = true →
     exec (.mxeUnitDone flight kernel unit core sums numeric) s = .next { s with mxe := { s.mxe with
       cores := s.mxe.cores.set core { coreAt s core with
         passes := (coreAt s core).passes + 1
         strike := (coreAt s core).strike && decide ((coreAt s core).passes + 1 < 2 ^ rd s F.MXE_CFG_STRIKE_LOG2) }
       runs := tmod s.mxe.runs flight (fun r => { r with numeric := r.numeric || numeric }) } }) ∧
  -- mxeUnitDone that mismatches
  (∀ (s : State) (flight kernel unit core : Nat) (sums : List ChecksumPair) (numeric : Bool), isUp s = true → unitKnown s flight = true →
     (coreAt s core).st = .active → core < 100 → sumsPass s kernel sums = false →
     exec (.mxeUnitDone flight kernel unit core sums numeric) s = .next (bump { s with mxe := { s.mxe with
       cores := s.mxe.cores.set core { coreAt s core with passes := 0, mismatch := min 65535 ((coreAt s core).mismatch + 1) }
       retries := s.mxe.retries ++ [⟨flight, kernel, unit, core⟩] } } F.MXE_MISMATCH_CNT_COUNT)) ∧
  -- mxeRetryDone that passes
  (∀ (s : State) (flight kernel unit core : Nat) (sums : List ChecksumPair) (numeric : Bool) (r : Retry), isUp s = true →
     s.mxe.retries.find? (fun r => r.flight == flight && r.kernel == kernel && r.unit == unit) = some r →
     mayRetry s r.core core = true → sumsPass s kernel sums = true →
     exec (.mxeRetryDone flight kernel unit core sums numeric) s = .next (coreStrike (unitPassed (corePass { s with mxe := { s.mxe with
       retries := s.mxe.retries.erase r } } core) flight numeric) r.core (some core))) ∧
  -- mxeRetryDone that mismatches again
  (∀ (s : State) (flight kernel unit core : Nat) (sums : List ChecksumPair) (numeric : Bool) (r : Retry), isUp s = true →
     s.mxe.retries.find? (fun r => r.flight == flight && r.kernel == kernel && r.unit == unit) = some r →
     mayRetry s r.core core = true → sumsPass s kernel sums = false →
     exec (.mxeRetryDone flight kernel unit core sums numeric) s = .next (openEvent (unitFailed (coreStrike (coreStrike (coreMiss { s with
       mxe := { s.mxe with retries := s.mxe.retries.erase r } } core) r.core none) core none) flight unit St.MXE_TILE_FAIL)
       .error St.MXE_TILE_FAIL ⟨1, core⟩ 0 0)) ∧
  -- a strike
  (∀ (s : State) (c : Nat) (heir : Option Nat),
     ((coreAt s c).strike = false → coreStrike s c heir = { s with mxe := { s.mxe with
       cores := s.mxe.cores.set c { coreAt s c with strike := true } } }) ∧
     ((coreAt s c).strike = true → coreStrike s c heir = coreRetire s c heir)) ∧
  -- expanderBlock that decodes
  (∀ (s : State) (flight tensor block : Nat) (x : Tensor) (codes : List Nat), isUp s = true → tget s.mxe.tensors tensor = some x →
     x.coded = true → block < blocksOf x.rows x.cols → unitKnown s flight = true →
     prologueOk (readMem s x.base 256) x.fmt (blocksOf x.rows x.cols) = true → readBlock s x block = .ok codes →
     exec (.expanderBlock flight tensor block) s = .next s) ∧
  -- expanderBlock that fails its CRC
  (∀ (s : State) (flight tensor block : Nat) (x : Tensor), isUp s = true → tget s.mxe.tensors tensor = some x →
     x.coded = true → block < blocksOf x.rows x.cols → unitKnown s flight = true →
     prologueOk (readMem s x.base 256) x.fmt (blocksOf x.rows x.cols) = true → readBlock s x block = .error St.EXP_BLOCK_CRC →
     exec (.expanderBlock flight tensor block) s = .next (bump { s with mxe := { s.mxe with
       reread := s.mxe.reread ++ [(flight, tensor, block)] } } F.EXP_CRC_CNT_COUNT)) ∧
  -- expanderBlock that fails another check
  (∀ (s : State) (flight tensor block : Nat) (x : Tensor) (st : Status), isUp s = true → tget s.mxe.tensors tensor = some x →
     x.coded = true → block < blocksOf x.rows x.cols → unitKnown s flight = true → st ≠ St.EXP_BLOCK_CRC →
     prologueOk (readMem s x.base 256) x.fmt (blocksOf x.rows x.cols) = true → readBlock s x block = .error st →
     exec (.expanderBlock flight tensor block) s = .next (openEvent (unitFailed s flight block st) .error st ⟨2, 0⟩ 0 0)) ∧
  -- expanderReread
  (∀ (s : State) (flight tensor block : Nat) (x : Tensor), isUp s = true → tget s.mxe.tensors tensor = some x →
     (flight, tensor, block) ∈ s.mxe.reread →
     let s1 := { s with mxe := { s.mxe with reread := s.mxe.reread.erase (flight, tensor, block) } }
     (∀ codes, readBlock s x block = .ok codes → exec (.expanderReread flight tensor block) s = .next s1) ∧
     (∀ st, readBlock s x block = .error st →
       exec (.expanderReread flight tensor block) s = .next (openEvent (unitFailed s1 flight block st) .error st ⟨2, 0⟩ 0 0)))

/-- Tests and retirement of matrix cores. What MXE_CORE_CMD does for a retired, an active and a spare core, and what the
self-test at its end does. Rules: R174. It rests on the model's own choices in log entries 12, 37, 38. -/
def Obligations.CoreCommands : Prop :=
  -- mxeCoreTest of a retired core
  (∀ (s : State) (c : Nat), rd s F.SEC_PROT_LOCK_LOCK = 1 → rd s F.MXE_CORE_CMD_STAT_BUSY = 0 → c < 100 → (coreAt s c).st = .retired →
     exec (.mxeCoreTest c) s = .next (wr { s with mxe := { s.mxe with
       cmd := some (true, c), cores := s.mxe.cores.set c { coreAt s c with st := .test } } } F.MXE_CORE_CMD_STAT_BUSY 1)) ∧
  -- mxeCoreTest refused
  (∀ (s : State) (c : Nat), rd s F.SEC_PROT_LOCK_LOCK = 1 → rd s F.MXE_CORE_CMD_STAT_BUSY = 0 →
     (100 ≤ c → exec (.mxeCoreTest c) s = .next (wr (wr { s with mxe := { s.mxe with cmd := none } } F.MXE_CORE_CMD_STAT_BUSY 0)
       F.MXE_CORE_CMD_STAT_STATUS St.HPT_BAD_FIELD.toNat)) ∧
     (c < 100 → (coreAt s c).st ≠ .retired → exec (.mxeCoreTest c) s = .next (wr (wr (wr { s with mxe := { s.mxe with cmd := none } }
       F.MXE_CORE_CMD_STAT_BUSY 1) F.MXE_CORE_CMD_STAT_BUSY 0) F.MXE_CORE_CMD_STAT_STATUS St.MXE_CORE_BUSY.toNat))) ∧
  -- mxeCoreRetire of an active core
  (∀ (s : State) (c : Nat), rd s F.SEC_PROT_LOCK_LOCK = 1 → rd s F.MXE_CORE_CMD_STAT_BUSY = 0 → c < 100 → (coreAt s c).st = .active →
     (1 < activeCores s ∨ coresIn s .spare ≠ 0) →
     exec (.mxeCoreRetire c) s = .next (wr { s with mxe := { s.mxe with
       cmd := some (false, c), cores := s.mxe.cores.set c { coreAt s c with leaving := true } } } F.MXE_CORE_CMD_STAT_BUSY 1)) ∧
  -- mxeCoreRetire of a spare
  (∀ (s : State) (c : Nat), rd s F.SEC_PROT_LOCK_LOCK = 1 → rd s F.MXE_CORE_CMD_STAT_BUSY = 0 → c < 100 → (coreAt s c).st = .spare →
     exec (.mxeCoreRetire c) s = .next (
       let v := addRetire (bump (wr { s with mxe := { s.mxe with
         cmd := some (false, c), cores := s.mxe.cores.set c { coreAt s c with st := .retired, takes := none } } } F.MXE_CORE_CMD_STAT_BUSY 1)
         F.MXE_RETIRE_CNT_COUNT) 1 c 0
       wr (wr { v with mxe := { v.mxe with cmd := none } } F.MXE_CORE_CMD_STAT_BUSY 0) F.MXE_CORE_CMD_STAT_STATUS 0)) ∧
  -- mxeCoreRetire of the last active core
  (∀ (s : State) (c : Nat), rd s F.SEC_PROT_LOCK_LOCK = 1 → rd s F.MXE_CORE_CMD_STAT_BUSY = 0 → c < 100 → (coreAt s c).st = .active →
     activeCores s ≤ 1 → coresIn s .spare = 0 →
     exec (.mxeCoreRetire c) s = .next (wr (wr (wr { s with mxe := { s.mxe with cmd := none } }
       F.MXE_CORE_CMD_STAT_BUSY 1) F.MXE_CORE_CMD_STAT_BUSY 0) F.MXE_CORE_CMD_STAT_STATUS St.MXE_CORE_BUSY.toNat)) ∧
  -- coreSelftestDone
  (∀ (s : State) (c : Nat), isUp s = true → (coreAt s c).st = .test →
     exec (.coreSelftestDone c true) s = .next { s with mxe := { s.mxe with
       cores := s.mxe.cores.set c { coreAt s c with st := .rejoin } } } ∧
     (s.mxe.cmd = some (true, c) → exec (.coreSelftestDone c false) s = .next (recordRetire (wr (wr { s with mxe := { s.mxe with
       cmd := none, cores := s.mxe.cores.set c { coreAt s c with st := .retired } } } F.MXE_CORE_CMD_STAT_BUSY 0)
       F.MXE_CORE_CMD_STAT_STATUS St.MXE_SELFTEST_FAIL.toNat) St.MXE_SELFTEST_FAIL ⟨1, c⟩ 0)))

/-- Pages of the pool: rows appended, aged, evicted, promoted, dropped and computed again. What the commands of the
key/value pool do to its pages and frames, each under the conditions that its clause names. Rules: R206, R211, R217,
R218, R220, R221, R223, R226. It rests on the model's own choices in log entries 45, 46, 47, 69. -/
def Obligations.PageCommands : Prop :=
  -- appendRows
  (∀ (s : State) (a : AppendBatch) (root : Root) (r : Req), isUp s = true → tget s.kva.roots a.req = some root → reqOf s a.req = some r →
     a.req ∉ s.kva.skip → root.lease ≠ 0 → leaseLive s a.req = true →
     s.kva.mapped.any (fun k => pageReq k == a.req && pageStandin k == a.standin) = true →
     exec (.appendRows a) s = .next (settle s ((List.range a.keys.length).foldl
       (fun u i => appendRow u a (modelDim u (if a.standin = true then r.standin.getD r.model else r.model)) i)
       ((((List.range a.keys.length).map (fun i => (a.pos + i) / 256)).dedup).foldl (fun u i => choosePageBases u a i) s)))) ∧
  -- appendRows without a live lease
  (∀ (s : State) (a : AppendBatch) (root : Root) (r : Req), isUp s = true → tget s.kva.roots a.req = some root → reqOf s a.req = some r →
     a.req ∉ s.kva.skip → reshootHere s a.req = false → (root.lease = 0 ∨ leaseLive s a.req = false) →
     exec (.appendRows a) s = .next (settle s (askHome (bump (openEvent (modReq { s with kva := { s.kva with skip := s.kva.skip ++ [a.req] } }
       a.req (fun q => { q with doubt := true })) .error St.KVA_LEASE_STALE noUnit a.req r.key.ctx) F.KVA_REFUSE_CNT_COUNT) a.req))) ∧
  -- kvaAgeTick
  (∀ (s : State), isUp s = true →
     (role s = 3 → exec .kvaAgeTick s = .next (wr s F.KVA_AGE_AGE ((rd s F.KVA_AGE_AGE + 1) % 2 ^ 48))) ∧
     (role s ≠ 3 → exec .kvaAgeTick s = .next s)) ∧
  -- eviction on a role that drops
  (∀ (s : State) (c : Nat), isUp s = true → c < 4 → role s ≠ 3 → rd s F.KVA_POOL_CTL_EN ≠ 0 → belowLow s c = true →
     exec (.eviction c) s = .next (settle s (
       let fs := withPages ((evictable s c).take (evictCount s c))
       (chunks 32 fs.length fs).foldl dropTake s))) ∧
  -- eviction on CACHE
  (∀ (s : State) (c : Nat), isUp s = true → c < 4 → role s = 3 → rd s F.KVA_POOL_CTL_EN ≠ 0 → belowLow s c = true →
     exec (.eviction c) s = .next (settle s (
       let fs := withPages ((evictable s c).take (evictCount s c))
       (fs.take (evictCount s c - (s.kva.demoting.filter (fun e => e.1 / 2 ^ 30 == c)).length)).foldl (fun u p =>
         { u with kva := { u.kva with demoting := tset u.kva.demoting p.1 p.2 } }) s))) ∧
  -- eviction of a class above its mark
  (∀ (s : State) (c : Nat), isUp s = true → c < 4 → belowLow s c = false → exec (.eviction c) s = .next (settle s s)) ∧
  -- demoteWriteDone
  (∀ (s : State) (f flashAddr k : Nat) (x : Frame), isUp s = true → tget s.kva.demoting f = some k → tget s.kva.frames f = some x →
     x.stamp < kvaAge s →
     let s1 := { s with kva := { s.kva with demoting := tdel s.kva.demoting f } }
     let e := pteOf s1 k
     let l := runLocal s1 .block .plain [⟨0, pageObj k, .ptMap e.version 0 none ((e.version + 1) % 65536) (pteFlags 2 e.cls e.kv4)⟩,
       ⟨0, pageObj k, .putEntry (mkWord [(0, 36, flashAddr), (36, 8, e.kb), (44, 8, e.vb)])⟩, ⟨0, frameObj f, .free⟩]
     exec (.demoteWriteDone f flashAddr true) s = .next (settle s (
       if l.2.committed = true then bump (bump l.1 F.KVA_EVICT_CNT_COUNT) F.KVA_DEMOTE_CNT_COUNT else l.1))) ∧
  -- demoteWriteDone of a frame read meanwhile
  (∀ (s : State) (f flashAddr k : Nat) (x : Frame), isUp s = true → tget s.kva.demoting f = some k → tget s.kva.frames f = some x →
     kvaAge s ≤ x.stamp →
     exec (.demoteWriteDone f flashAddr true) s = .next (settle s (bump { s with kva := { s.kva with
       demoting := tdel s.kva.demoting f } } F.TAK_ABORT_CNT_COUNT))) ∧
  -- pagePromote
  (∀ (s u : State) (page : PageKey) (bytes : List Byte) (r : Local), isUp s = true →
     let k := pageKey page.req (page.layer * 256 + page.head) page.page
     let e := pteOf s k
     e.state = 2 → aboveLow s e.cls = true →
     runLocal s .block .plain [⟨0, ⟨kFrame, 0, 0⟩, .alloc e.cls⟩,
       ⟨0, pageObj k, .ptMap e.version 0 (some 0) ((e.version + 1) % 65536) (pteFlags 1 e.cls e.kv4)⟩,
       ⟨0, pageObj k, .putEntry (mkWord [(36, 8, e.kb), (44, 8, e.vb)])⟩] = (u, r) → r.committed = true →
     exec (.pagePromote page true bytes) s = .next (settle s (writeMem (writeMem u (frameAddr u (pteOf u k).frame)
       (bytes.take (frameSize e.cls))) (scaleAddr u (pteOf u k).frame) ((bytes.drop (frameSize e.cls)).take 2048)))) ∧
  -- pagePromote unreadable, or without room
  (∀ (s : State) (page : PageKey) (bytes : List Byte), isUp s = true → (pteOf s (keyOfPage page)).state = 2 →
     exec (.pagePromote page false bytes) s = .next (settle s (losePage s (keyOfPage page))) ∧
     (aboveLow s (pteOf s (keyOfPage page)).cls = false → exec (.pagePromote page true bytes) s = .next (settle s s))) ∧
  -- dropNotice
  (∀ (s : State) (src req highest count : Nat) (lost : Bool), isUp s = true → leadsFor s req = true →
     exec (.dropNotice src req highest count lost) s = .next (settle s (takeNotice s src req highest count lost))) ∧
  -- takeNotice
  (∀ (s : State) (src req highest count : Nat) (lost : Bool) (r : Req), reqOf s req = some r → noticesOf s req = [] → count ≠ 0 →
     let n := modReq { s with kva := { s.kva with notices := tset s.kva.notices req [(src, ⟨highest, count, lost⟩)] } } req
       (fun q => { q with dropped := true })
     takeNotice s src req highest count lost =
       if tgetD n.kva.announced req 0 < reshootEnd n req ∧ thas n.kva.reshoots req = false then reshootEvent n req else n) ∧
  -- reshootRequest at the owner's leader
  (∀ (s : State) (req inCount origin flight : Nat), isUp s = true → leadsFor s req = true → thas s.kva.reshoots req = false →
     let s1 := checkReshoot s req inCount origin flight
     exec (.reshootRequest req inCount origin flight) s = .next (settle s (
       if thas s1.kva.reshoots req = true then
         beginRepair (((servers s (groupOf s req)).filter (fun n => n != self s)).foldl (fun u n =>
           send u n 0 .reshootAsk [at' 0 48 req, mkWord [(0, 23, inCount), (32, 20, origin)], BitVec.ofNat 64 flight]) s1) req origin
       else s1))) ∧
  -- reshootRequest at another member
  (∀ (s : State) (req inCount origin flight : Nat), isUp s = true → leadsFor s req = false →
     exec (.reshootRequest req inCount origin flight) s = .next (settle s (beginRepair s req origin))) ∧
  -- checkReshoot
  (∀ (s : State) (req inCount origin flight : Nat),
     (reshootEnd s req = 0 → checkReshoot s req inCount origin flight = answerReshoot s origin flight St.KVA_NO_RESHOOT 0) ∧
     (reshootEnd s req ≠ 0 → thas s.kva.reshoots req = true →
       checkReshoot s req inCount origin flight = answerReshoot s origin flight St.KVA_RESHOOT_BUSY 0) ∧
     (reshootEnd s req ≠ 0 → thas s.kva.reshoots req = false → inCount ≠ reshootEnd s req →
       checkReshoot s req inCount origin flight = answerReshoot s origin flight St.KVA_RESHOOT_RANGE 0) ∧
     (reshootEnd s req ≠ 0 → thas s.kva.reshoots req = false → inCount = reshootEnd s req →
       checkReshoot s req inCount origin flight = { s with kva := { s.kva with reshoots := tset s.kva.reshoots req ⟨inCount, origin, flight⟩ } })) ∧
  -- reshootComplete at the leader
  (∀ (s : State) (req : Nat) (r : Reshoot), isUp s = true → tget s.kva.reshoots req = some r →
     (∀ e ∈ missing s req, r.upto ≤ pageStart e.1) →
     exec (.reshootComplete req none) s = .next (settle s (finishReshoot s req r))) ∧
  -- reshootComplete at the asker
  (∀ (s : State) (req : Nat) (a : ReshootEnd), isUp s = true → thas s.kva.asks a.flight = true →
     reshootHere (answerReshoot s (self s) a.flight a.status a.repaired) req = false →
     exec (.reshootComplete req (some a)) s = .next (settle s (
       let u := freePages (answerReshoot s (self s) a.flight a.status a.repaired) req
       { u with sch := { u.sch with reqs := tdel u.sch.reqs req } }))) ∧
  -- poolEnable
  (∀ (s : State) (w : Word), rd s F.SEC_PROT_LOCK_LOCK = 1 → bit w 63 = true → rd s F.KVA_POOL_CTL_EN = 0 →
     poolOk (wr s F.KVA_POOL_CTL_SCALE_BASE_MIB (bits w 19 0)) = true →
     exec (.poolEnable w) s = .next (wr (wr { wr s F.KVA_POOL_CTL_SCALE_BASE_MIB (bits w 19 0) with kva := { s.kva with frames := [] } }
       F.KVA_POOL_CTL_EN 1) F.KVA_POOL_CTL_ERR 0)) ∧
  -- poolEnable refused
  (∀ (s : State) (w : Word), rd s F.SEC_PROT_LOCK_LOCK = 1 → bit w 63 = true →
     (rd s F.KVA_POOL_CTL_EN = 0 → poolOk (wr s F.KVA_POOL_CTL_SCALE_BASE_MIB (bits w 19 0)) = false →
       exec (.poolEnable w) s = .next (wr (wr s F.KVA_POOL_CTL_SCALE_BASE_MIB (bits w 19 0)) F.KVA_POOL_CTL_ERR 1)) ∧
     (rd s F.KVA_POOL_CTL_EN = 1 → exec (.poolEnable w) s = .next s)) ∧
  -- poolDisable
  (∀ (s : State) (w : Word), rd s F.SEC_PROT_LOCK_LOCK = 1 → bit w 63 = false → rd s F.KVA_POOL_CTL_EN = 1 →
     (s.kva.frames = [] → exec (.poolDisable w) s = .next (wr s F.KVA_POOL_CTL_EN 0)) ∧
     (s.kva.frames ≠ [] → exec (.poolDisable w) s = .next s))

/-- Attention passes, partial records from another group, bindings and profiles. An attention pass gives its free result
or asks for what lies elsewhere; partial records and requests come and go; bindings and profiles are written. Rules:
R233, R234, R247, R248, R250, R251. It rests on the model's own choices in log entries 22, 136. -/
def Obligations.AttentionCommands : Prop :=
  -- attentionPass
  (∀ (s : State) (p : PassKey) (r : Req), isUp s = true → reqOf s p.req = some r → p.req ∉ s.kva.skip → role s = 3 →
     exec (.attentionPass p) s = .next (
       let model := if runsStandin s p.req = true then r.standin.getD r.model else r.model
       let s1 := p.rows.foldl (fun u x => passRow u p r model (modelDim s model) (runsStandin s p.req) x) (stampRead s p.req p.layer p.head)
       let mine := p.rows.filter (fun x => memberAt s p.req (querySlot (groupSize s) (kvHeads s) (kvGroup s) x.qhead) == some (self s))
       if mine = [] then s1
       else (cacheNodes s r p.layer p.head).foldl (fun u n => partialAsk u p r model (modelDim s model) mine n) s1)) ∧
  -- attentionPass with every page here
  (∀ (s : State) (p : PassKey) (r : Req), isUp s = true → reqOf s p.req = some r → p.req ∉ s.kva.skip → role s ≠ 3 →
     let model := if runsStandin s p.req = true then r.standin.getD r.model else r.model
     (∀ x ∈ p.rows, absentPage s p.req p.layer p.head (rowRange r (rowMask s model p.layer) x).1
       (min (rowRange r (rowMask s model p.layer) x).2 r.committed) (runsStandin s p.req) = none) →
     (∀ x ∈ p.rows, memberAt s p.req (querySlot (groupSize s) (kvHeads s) (kvGroup s) x.qhead) ≠ some (self s)) →
     exec (.attentionPass p) s = .next (p.rows.foldl (fun u x => passRow u p r model (modelDim s model) (runsStandin s p.req) x)
       (stampRead s p.req p.layer p.head))) ∧
  -- attentionPass with a page away
  (∀ (s : State) (p : PassKey) (r : Req) (k : Nat) (lost : Bool), isUp s = true → reqOf s p.req = some r → p.req ∉ s.kva.skip → role s ≠ 3 →
     let model := if runsStandin s p.req = true then r.standin.getD r.model else r.model
     p.rows.findSome? (fun x => absentPage s p.req p.layer p.head (rowRange r (rowMask s model p.layer) x).1
       (min (rowRange r (rowMask s model p.layer) x).2 r.committed) (runsStandin s p.req)) = some (k, lost) →
     exec (.attentionPass p) s = .next (openEvent (skipStep (if lost = true then losePage s k else s) p.req) .error St.ATT_PAGE_ABSENT noUnit
       p.req r.key.ctx)) ∧
  -- partialRecord of this group
  (∀ (s : State) (words : List Word) (num : List (BitVec 32)) (r : Req), isUp s = true → reqOf s (bits (wordAt words 0) 47 0) = some r →
     partialBad words = false → bits (wordAt words 3) 63 48 = 0 →
     exec (.partialRecord none words num) s = .next (mergeRow s r (bits (wordAt words 0) 47 0) (bits (wordAt words 1) 7 0)
       (bits (wordAt words 1) 17 8) (bits (wordAt words 1) 24 18) ⟨bits (wordAt words 1) 63 32, BitVec.ofNat 32 (bits (wordAt words 2) 31 0), num,
         bits (wordAt words 2) 54 32, bits (wordAt words 3) 22 0, bits (wordAt words 3) 45 23, bit (wordAt words 1) 25, false, 0⟩)) ∧
  -- partialRecord of the last row of a request to the cache pool
  (∀ (s : State) (t : Nat) (words : List Word) (num : List (BitVec 32)) (r : Req) (a : PartialAsk), isUp s = true →
     reqOf s (bits (wordAt words 0) 47 0) = some r → partialBad words = false → bits (wordAt words 3) 63 48 = 0 →
     tget s.att.asks t = some a → a.rows = 1 →
     exec (.partialRecord (some t) words num) s = .next (mergeRow { bump s F.ATT_REMOTE_CNT_COUNT with
         att := { s.att with asks := tdel s.att.asks t } } r (bits (wordAt words 0) 47 0) (bits (wordAt words 1) 7 0)
       (bits (wordAt words 1) 17 8) (bits (wordAt words 1) 24 18) ⟨bits (wordAt words 1) 63 32, BitVec.ofNat 32 (bits (wordAt words 2) 31 0), num,
         bits (wordAt words 2) 54 32, bits (wordAt words 3) 22 0, bits (wordAt words 3) 45 23, bit (wordAt words 1) 25, false, 0⟩)) ∧
  -- partialRecord with bad fields
  (∀ (s : State) (tag : Option Nat) (words : List Word) (num : List (BitVec 32)) (r : Req), isUp s = true →
     reqOf s (bits (wordAt words 0) 47 0) = some r → partialBad words = true →
     exec (.partialRecord tag words num) s = .next (skipStep (record s St.ATT_BAD_PREQ noUnit (bits (wordAt words 0) 47 0) r.key.ctx
       (Config.eventDetail (2 * s.out.length)) (Config.eventDetail (2 * s.out.length + 1))) (bits (wordAt words 0) 47 0))) ∧
  -- partialRequest
  (∀ (s : State) (hdr entries : List Word), isUp s = true → partialCheck s hdr = none →
     missing s (bits (wordAt hdr 0) 47 0) = [] →
     exec (.partialRequest hdr entries) s = .next ((List.range (bits (wordAt hdr 1) 24 16)).foldl (fun u e =>
       answerEntry u hdr (modelDim s (bits (wordAt hdr 0) 63 48))
         (wordAt entries ((1 + modelDim s (bits (wordAt hdr 0) 63 48) / 2) * e)) none)
       (stampRead s (bits (wordAt hdr 0) 47 0) (bits (wordAt hdr 1) 7 0) (bits (wordAt hdr 1) 15 8)))) ∧
  -- partialRequest that fails a check
  (∀ (s : State) (hdr entries : List Word), isUp s = true → partialCheck s hdr = some St.ATT_BAD_PREQ →
     missing s (bits (wordAt hdr 0) 47 0) = [] →
     exec (.partialRequest hdr entries) s = .next ((List.range (bits (wordAt hdr 1) 24 16)).foldl (fun u e =>
       answerEntry u hdr (modelDim s (bits (wordAt hdr 0) 63 48))
         (wordAt entries ((1 + modelDim s (bits (wordAt hdr 0) 63 48) / 2) * e)) (some St.ATT_BAD_PREQ)) s)) ∧
  -- partialReplyTimeout
  (∀ (s : State) (req tag : Nat) (a : PartialAsk) (r : Req), isUp s = true → tget s.att.asks tag = some a → a.req = req → reqOf s req = some r →
     exec (.partialReplyTimeout req tag) s = .next (openEvent (skipStep { s with att := { s.att with asks := tdel s.att.asks tag } } req) .error
       St.ATT_REMOTE_TIMEOUT noUnit req r.key.ctx)) ∧
  -- attBindEnable
  (∀ (s : State) (j : Nat) (w : Word), rd s F.SEC_PROT_LOCK_LOCK = 1 → bit w 63 = true → j < 16 → rdi s F.ATT_BIND_EN j = 0 →
     let s1 := wri (wri s F.ATT_BIND_NLAYERS_M1 j (bits w 23 16)) F.ATT_BIND_MODEL j (bits w 15 0)
     exec (.attBindEnable j w) s = .next (
       if bindOk s1 j (bits w 23 16 + 1) (bits w 15 0) = true then wri (wri s1 F.ATT_BIND_EN j 1) F.ATT_BIND_ERR j 0
       else wri s1 F.ATT_BIND_ERR j 1)) ∧
  -- attBindDisable
  (∀ (s : State) (j : Nat) (w : Word), rd s F.SEC_PROT_LOCK_LOCK = 1 → bit w 63 = false → j < 16 → rdi s F.ATT_BIND_EN j = 1 →
     (modelInUse s (rdi s F.ATT_BIND_MODEL j) = false → exec (.attBindDisable j w) s = .next (wri s F.ATT_BIND_EN j 0)) ∧
     (modelInUse s (rdi s F.ATT_BIND_MODEL j) = true → exec (.attBindDisable j w) s = .next s)) ∧
  -- attProfWrite
  (∀ (s : State) (p : Nat) (w : Word), rd s F.SEC_PROT_LOCK_LOCK = 1 → p < 64 → profInUse s p = false →
     (profBad w = false → exec (.attProfWrite ⟨0x91000 + 16 * p, 8⟩ w) s = .next (s.setReg (0x91000 + 16 * p) w)) ∧
     (profBad w = true → exec (.attProfWrite ⟨0x91000 + 16 * p, 8⟩ w) s = .next s)) ∧
  -- attProfWrite of a profile in use
  (∀ (s : State) (p : Nat) (w : Word), rd s F.SEC_PROT_LOCK_LOCK = 1 → p < 64 → profInUse s p = true →
     exec (.attProfWrite ⟨0x91000 + 16 * p, 8⟩ w) s = .next s)

/-- Sampling passes, both rounds, verification, delivery and the choice of the host. What a row sampled does at the
members and at the sampling home, until its tokens are delivered. Rules: R216, R263, R265, R266, R267, R269, R272,
R443. It rests on the model's own choices in log entries 20, 23, 48, 49, 52. -/
def Obligations.SamplerCommands : Prop :=
  -- samplerPass of a greedy row
  (∀ (s : State) (req node home : Nat) (r : Req) (logits : List (BitVec 32)), isUp s = true → reqOf s req = some r → samplingHome s req = some home →
     req ∉ s.kva.skip → node < treeSize s req r → r.sampleMode = 0 → pInvTemp r.param = 0 →
     exec (.samplerPass req node logits []) s = .next (
       let v := modelVocab s (stepModel s req r)
       let first := sliceFirst v (groupSize s) (ownSlot s)
       let conv := (logits.take (sliceLen v (groupSize s) (ownSlot s))).map logitCode
       let s1 := if conv.any (fun c => c.2) = true then raiseNumeric s req 0x08E0 else s
       let path := (treePath r.param 64 node).map (fun t => (treeTokens s req).getD t 0)
       let pen := (conv.map (fun c => c.1)).zipIdx.map (fun c =>
         penalise r.param (countOf (tgetD s.smp.counts req []) c.2 + (path.filter (fun x => x == first + c.2)).length) c.1)
       sendDraw { s1 with smp := { s1.smp with
         heads := tset s1.smp.heads (smpRow req node) (tset (tgetD s1.smp.heads (smpRow req node) []) (ownSlot s) ⟨[]⟩) } } req node (sliceGreedy first pen))) ∧
  -- samplerPass of a row for the host
  (∀ (s : State) (req node home : Nat) (r : Req) (logits : List (BitVec 32)) (heads : List (List (BitVec 32))), isUp s = true →
     reqOf s req = some r → samplingHome s req = some home → req ∉ s.kva.skip → node < treeSize s req r → r.sampleMode = 2 →
     exec (.samplerPass req node logits heads) s = .next (
       let v := modelVocab s (stepModel s req r)
       let conv := (logits.take (sliceLen v (groupSize s) (ownSlot s))).map logitCode
       sendLogits (if conv.any (fun c => c.2) = true then raiseNumeric s req 0x08E0 else s) r req (sliceFirst v (groupSize s) (ownSlot s))
         (conv.map (fun c => c.1)))) ∧
  -- roundASummary, not the last
  (∀ (s : State) (slot : Nat) (words : List Word) (r : Req), isUp s = true → reqOf s (bits (wordAt words 0) 47 0) = some r →
     samplingHome s (bits (wordAt words 0) 47 0) = some (self s) →
     let k := smpRow (bits (wordAt words 0) 47 0) (bits (wordAt words 0) 53 48)
     let row := (tget s.smp.rows k).getD ⟨[], none, []⟩
     (tset row.summaries slot words).length < groupSize s →
     exec (.roundASummary slot words) s = .next { s with smp := { s.smp with rows := tset s.smp.rows k { row with summaries := tset row.summaries slot words } } }) ∧
  -- roundASummary, the last
  (∀ (s : State) (slot : Nat) (words : List Word) (r : Req), isUp s = true → reqOf s (bits (wordAt words 0) 47 0) = some r →
     samplingHome s (bits (wordAt words 0) 47 0) = some (self s) →
     let req := bits (wordAt words 0) 47 0
     let node := bits (wordAt words 0) 53 48
     let row := (tget s.smp.rows (smpRow req node)).getD ⟨[], none, []⟩
     let th := threshold r.param (tvals (tset row.summaries slot words))
     groupSize s ≤ (tset row.summaries slot words).length →
     exec (.roundASummary slot words) s = .next (
       let s2 := bumpBy { s with smp := { s.smp with
         rows := tset s.smp.rows (smpRow req node) { row with summaries := tset row.summaries slot words, theta := some th.1 } } } F.SMP_WIDE_CNT_COUNT th.2
       applyThreshold (((slotMembers s2 req).filter (fun n => n != self s2)).foldl (fun u n =>
         send u n 1 .threshold [mkWord [(0, 48, req), (48, 6, node)], at' 0 16 th.1]) s2) req node th.1)) ∧
  -- thresholdReturn
  (∀ (s : State) (req node : Nat) (theta : BitVec 16) (r : Req) (codes : List Nat), isUp s = true → reqOf s req = some r →
     tget s.smp.codes (smpRow req node) = some codes →
     exec (.thresholdReturn req node theta) s = .next (sendDraw { s with smp := { s.smp with codes := tdel s.smp.codes (smpRow req node) } } req node
       (sliceDraw r.param (drawPos r node) (sliceFirst (modelVocab s (stepModel s req r)) (groupSize s) (ownSlot s)) theta.toNat codes))) ∧
  -- roundBDraw
  (∀ (s : State) (m : DrawMsg) (r : Req), isUp s = true → reqOf s m.req = some r → samplingHome s m.req = some (self s) →
     let row := (tget s.smp.rows (smpRow m.req m.node)).getD ⟨[], none, []⟩
     let s1 : State := { s with smp := { s.smp with
       rows := tset s.smp.rows (smpRow m.req m.node) { row with draws := tset row.draws m.slot (if m.kept = true then some (m.token, m.g) else none) }
       heads := tset s.smp.heads (smpRow m.req m.node) (tset (tgetD s.smp.heads (smpRow m.req m.node) []) m.slot ⟨m.heads⟩) } }
     ((∃ t, t < treeSize s1 m.req r ∧ ((tget s1.smp.rows (smpRow m.req t)).elim [] (fun x => x.draws)).length ≠ groupSize s1) →
       exec (.roundBDraw m) s = .next s1) ∧
     ((∀ t, t < treeSize s1 m.req r → ((tget s1.smp.rows (smpRow m.req t)).elim [] (fun x => x.draws)).length = groupSize s1) →
       exec (.roundBDraw m) s = .next (verifyWalk s1 m.req r))) ∧
  -- verifyResult
  (∀ (s : State) (m : VerifyMsg), isUp s = true → exec (.verifyResult m) s = .next (settle s (applyVerify s m)) ∧
     (m.req ∈ s.kva.skip → applyVerify s m = s) ∧ (reqOf s m.req = none → applyVerify s m = s)) ∧
  -- mirroredReport
  (∀ (s : State) (src step : Nat) (reqs : List Nat), isUp s = true →
     exec (.mirroredReport src step reqs) s = .next (settle s (reqs.foldl (fun u r => noteReport u src step r) s))) ∧
  -- noteReport, not the last
  (∀ (s : State) (src step req n : Nat) (x : SmpResult) (r : Req), tget s.smp.results req = some x → reqOf s req = some r → x.step = step →
     src ∉ x.reported → n ∈ slotMembers s req → n ∉ x.reported → n ≠ src →
     noteReport s src step req = { s with smp := { s.smp with results := tset s.smp.results req { x with reported := x.reported ++ [src] } } }) ∧
  -- noteReport, the last
  (∀ (s : State) (src step req : Nat) (x : SmpResult) (r : Req), tget s.smp.results req = some x → reqOf s req = some r → x.step = step →
     src ∉ x.reported → (∀ n ∈ slotMembers s req, n ∈ x.reported ∨ n = src) → x.final = none →
     noteReport s src step req = deliver { s with smp := { s.smp with results := tdel s.smp.results req } } r.origin
       ⟨req, true, x.pos, x.tokens, x.late, false, x.numeric, []⟩) ∧
  -- tokenDelivery
  (∀ (s : State) (m : DeliveryMsg) (p : Post) (f : Flight), isUp s = true → tget s.hpt.posts m.req = some p → tget s.hpt.flight p.flight = some f →
     m.record = true →
     exec (.tokenDelivery m) s = .next (settle s (
       let s1 := writeTokens s p m.pos m.late m.tokens
       endCancels (if m.final = true then complete { s1 with hpt := { s1.hpt with posts := tdel s1.hpt.posts m.req } } p.flight m.status
           (posWord m.pos m.tokens.length) (postDetail p.flight m.pos) m.late
         else postRecord s1 p.flight f m.status m.pos m.tokens.length m.late false) m.cancels))) ∧
  -- logitSlice, not the last
  (∀ (s : State) (req position slot nslots first : Nat) (codes : List (BitVec 16)) (p : Post) (f : Flight), isUp s = true →
     tget s.hpt.posts req = some p → tget s.hpt.flight p.flight = some f → pLogitF32 p.param = false → tgetD s.smp.slices req [] = [] → 1 < nslots →
     exec (.logitSlice req position slot nslots first codes) s = .next { s with
       smp := { s.smp with slices := tset s.smp.slices req [slot] }
       out := s.out ++ [.hostWrite (p.outAddr + 4 * (position % 2 ^ p.outLog2)) [0, 0, 0, 0],
         .hostWrite (pLogitAddr p.param + first * 2) (codes.flatMap (fun c => natBytes 2 c.toNat))] }) ∧
  -- logitSlice, the last
  (∀ (s : State) (req position slot first : Nat) (codes : List (BitVec 16)) (p : Post) (f : Flight), isUp s = true →
     tget s.hpt.posts req = some p → tget s.hpt.flight p.flight = some f → pLogitF32 p.param = true → tgetD s.smp.slices req [] = [] →
     exec (.logitSlice req position slot 1 first codes) s = .next (postRecord { s with
       smp := { s.smp with slices := tdel s.smp.slices req, choices := tset s.smp.choices req position }
       out := s.out ++ [.hostWrite (p.outAddr + 4 * (position % 2 ^ p.outLog2)) [0, 0, 0, 0],
         .hostWrite (pLogitAddr p.param + first * 4) (codes.flatMap (fun c => natBytes 4 (codeLogit c.toNat).toNat))] }
       p.flight f St.OK position 0 false true)) ∧
  -- hostChoice
  (∀ (s : State) (req : Nat) (entry : BitVec 32), isUp s = true → thas s.smp.choices req = true → entry.toNat / 2 ^ 20 = 0x800 →
     let s1 : State := { s with smp := { s.smp with choices := tdel s.smp.choices req } }
     (thas s.sch.reqs req = true → exec (.hostChoice req entry) s = .next (applyChoice s1 req (entry.toNat % 2 ^ 20))) ∧
     (thas s.sch.reqs req = false → exec (.hostChoice req entry) s = .next (send s1 (homeOf s.dtm.map req) 0 .choice
       [at' 0 48 req, at' 0 20 (entry.toNat % 2 ^ 20)]))) ∧
  -- hostChoice not made yet
  (∀ (s : State) (req : Nat) (entry : BitVec 32), isUp s = true → entry.toNat / 2 ^ 20 ≠ 0x800 →
     exec (.hostChoice req entry) s = .next s)

/-- Rows come to a gather run, and migration entries end. The row that is not the last of its window, the last one, the
one that cannot be read, and the end of a promotion or demotion. Rules: R284, R292. It rests on the model's own
choices in log entries 93, 94, 96. -/
def Obligations.GatherProgress : Prop :=
  -- gatherRowData, not the last of its window
  (∀ (s : State) (key : DescKey) (row : Nat) (bytes : List Byte) (r : GthRun) (sums : List (List F32)), isUp s = true →
     tget s.gth.runs (flightId key) = some r → tget r.want row = some sums → tdel r.want row ≠ [] →
     exec (.gatherRowData key row true bytes) s = .next { s with gth := { s.gth with
       runs := tset s.gth.runs (flightId key) { r with
         want := tdel r.want row
         rows := tset r.rows row (withSums (tableAt s r.table) (bytes.take (tRb (tableAt s r.table))) sums) } } }) ∧
  -- gatherRowData, the last of its window
  (∀ (s : State) (key : DescKey) (row : Nat) (bytes : List Byte) (r : GthRun) (sums : List (List F32)), isUp s = true →
     tget s.gth.runs (flightId key) = some r → tget r.want row = some sums → tdel r.want row = [] →
     exec (.gatherRowData key row true bytes) s = .next (
       let r2 := fillCarry { r with
         want := [], rows := tset r.rows row (withSums (tableAt s r.table) (bytes.take (tRb (tableAt s r.table))) sums) }
       engines (runWindows (windows r + 1) { s with gth := { s.gth with
         runs := tset s.gth.runs (flightId key) { r2 with past := r2.past ++ [r2.rows], rows := [], window := r2.window + 1 } } } (flightId key)))) ∧
  -- gatherRowData of a row that cannot be read
  (∀ (s : State) (key : DescKey) (row : Nat) (bytes : List Byte) (r : GthRun), isUp s = true →
     tget s.gth.runs (flightId key) = some r → thas r.want row = true →
     exec (.gatherRowData key row false bytes) s = .next (engines (completeWith { s with gth := { s.gth with
         runs := tdel s.gth.runs (flightId key), adds := s.gth.adds.filter (fun a => a.flight != flightId key) } } (flightId key) St.GTH_ROW_ERR
       (BitVec.ofNat 64 (row % 2 ^ 32))))) ∧
  -- migrationAddsDrained of a promotion
  (∀ (s : State) (table row : Nat) (m : Migration), isUp s = true → tget s.gth.moves (gRow table row) = some m → m.phase = .draining →
     m.demote = false →
     exec (.migrationAddsDrained table row) s = .next (settle s (askTail (modMove s table row (fun m => { m with phase := .copying }))
       (tableAt s table) m.flight row))) ∧
  -- migrationAddsDrained of a demotion
  (∀ (s : State) (table row : Nat) (m : Migration), isUp s = true → tget s.gth.moves (gRow table row) = some m → m.phase = .draining →
     m.demote = true → readRefusal s (slotAddr (tableAt s table) (bits m.oldLoc 23 0)) (tRb (tableAt s table)) = none →
     exec (.migrationAddsDrained table row) s = .next (settle s (writeTail (modMove s table row (fun m => { m with phase := .copying }))
       (tableAt s table) row (readMem s (slotAddr (tableAt s table) (bits m.oldLoc 23 0)) (tRb (tableAt s table)))))) ∧
  -- migrationCopyDone
  (∀ (s u : State) (table row : Nat) (bytes : List Byte) (m : Migration), isUp s = true → tget s.gth.moves (gRow table row) = some m →
     m.phase = .copying → m.demote = false → fillHot s (tableAt s table) m row bytes = some u →
     exec (.migrationCopyDone table row 0 bytes) s = .next (settle s (redirectTake (modMove (modTable u table (fun t => { t with
       frozen := t.frozen ++ [row] })) table row (fun m => { m with phase := .t2 })) table row 2 1 (newLoc m)))) ∧
  -- migrationCopyDone of a demotion
  (∀ (s : State) (table row : Nat) (bytes : List Byte) (m : Migration), isUp s = true → tget s.gth.moves (gRow table row) = some m →
     m.phase = .copying → m.demote = true → (tableAt s table).flash = false →
     exec (.migrationCopyDone table row 0 bytes) s = .next (settle s (redirectTake (modMove (modTable s table (fun t => { t with
       frozen := t.frozen ++ [row] })) table row (fun m => { m with phase := .t2 })) table row 2 0 (newLoc m)))) ∧
  -- migrationCopyDone of a failed copy
  (∀ (s : State) (table row : Nat) (st : BitVec 16) (bytes : List Byte) (m : Migration), isUp s = true →
     tget s.gth.moves (gRow table row) = some m → m.phase = .copying → st ≠ 0 →
     exec (.migrationCopyDone table row st bytes) s = .next (settle s (undoMove s table row (copyFault st))))

/-- The scrubber, retirement of memory, atomic adds and the HDM window. What a word that the scrubber reads does, what
retires a unit, and that memory reads what was written through the HDM window and by atomic adds. Rules: R308, R310,
R313, R315. It rests on the model's own choices in log entries 8, 19, 106, 107, 109, 111. -/
def Obligations.MemoryCommands : Prop :=
  -- patrolScrub of a clean HBM word
  (∀ (s : State) (w : ScrubWord), isUp s = true → w.sram = false → inHbm s w.offset 4 = true → w.offset % 4 = 0 → w.unit = pcOf s w.offset →
     w.offset ≠ 0 → secdedDecode w.data w.check = .clean → exec (.patrolScrub w) s = .next s) ∧
  -- patrolScrub of an HBM word with one bit wrong
  (∀ (s : State) (w : ScrubWord) (d : BitVec 32), isUp s = true → w.sram = false → inHbm s w.offset 4 = true → w.offset % 4 = 0 →
     w.unit = pcOf s w.offset → w.offset ≠ 0 → secdedDecode w.data w.check = .corrected d →
     exec (.patrolScrub w) s = .next (
       let s1 := modPc (bump s F.MEM_CE_CNT_COUNT) w.unit (fun i => { i with ce := min (2 ^ 32 - 1) (i.ce + 1) })
       let s2 := if w.written = true then s1 else writeMem s1 w.offset (natBytes 4 d.toNat)
       let n := tgetD s2.mem.rowCe (scrubKey w.unit w.row) 0 + 1
       let s3 := { s2 with mem := { s2.mem with rowCe := tset s2.mem.rowCe (scrubKey w.unit w.row) n } }
       if rd s3 F.MEM_RETIRE_CFG_ROW_CE ≤ n then repairRow s3 w.unit w.row w.spare else s3)) ∧
  -- patrolScrub of an uncorrectable HBM word
  (∀ (s : State) (w : ScrubWord), isUp s = true → w.sram = false → inHbm s w.offset 4 = true → w.offset % 4 = 0 →
     w.unit = pcOf s w.offset → w.offset ≠ 0 → secdedDecode w.data w.check = .uncorrectable →
     exec (.patrolScrub w) s = .next (listLine (repairRow (uncorrectable s ⟨3, w.unit⟩ (mapLine s (w.offset / 64 * 64))) w.unit w.row w.spare)
       (w.offset / 64) ⟨3, w.unit⟩)) ∧
  -- patrolScrub of an SRAM word
  (∀ (s : State) (w : ScrubWord), isUp s = true → w.sram = true → w.unit < 768 → w.unit ≠ 0 →
     (secdedDecode w.data w.check = .clean → exec (.patrolScrub w) s = .next s) ∧
     (∀ d, secdedDecode w.data w.check = .corrected d → exec (.patrolScrub w) s = .next (
       let s1 := bump s F.MEM_CE_CNT_COUNT
       let n := tgetD s1.mem.rowCe (scrubKey (1024 + w.unit) w.row) 0 + 1
       let s2 := { s1 with mem := { s1.mem with rowCe := tset s1.mem.rowCe (scrubKey (1024 + w.unit) w.row) n } }
       if rd s2 F.MEM_RETIRE_CFG_ROW_CE ≤ n then failSramRow s2 w.unit w.row else s2)) ∧
     (secdedDecode w.data w.check = .uncorrectable →
       exec (.patrolScrub w) s = .next (failSramRow (uncorrectable s ⟨5, w.unit⟩ (controlMacro w.unit)) w.unit w.row))) ∧
  -- pcInterfaceFail
  (∀ (s : State) (pc : Nat), isUp s = true → pcInService s pc = true →
     exec (.pcInterfaceFail pc true) s = .next (becomeSuspect s pc) ∧
     exec (.pcInterfaceFail pc false) s = .next (raiseFault (addRetire s rkPc pc 0) St.MEM_PC_FAIL ⟨3, pc⟩ (Config.eventDetail (2 * s.out.length)))) ∧
  -- pcSuspectCmd
  (∀ (s : State) (p : Nat), rd s F.SEC_PROT_LOCK_LOCK = 1 → pcInService s p = true → (∀ i, tget s.mem.pcs p = some i → i.suspect = false) →
     exec (.pcSuspectCmd p) s = .next (openEvent (addRetire (modPc s p (fun i => { i with suspect := true })) rkPc p 0) .error
       St.MEM_PC_SUSPECT ⟨3, p⟩ 0 0)) ∧
  -- stackRetireCmd
  (∀ (s : State) (k : Nat), rd s F.SEC_PROT_LOCK_LOCK = 1 → k < 8 →
     exec (.stackRetireCmd k) s = .next (addRetire { s with mem := { s.mem with stackCmd := (k :: s.mem.stackCmd).dedup } } rkStack k 0)) ∧
  -- atomicAddLine
  (∀ (s : State) (offset : Nat) (addends : List (BitVec 32)), isUp s = true → offset % 64 = 0 → inHbm s offset 64 = true →
     (readRefusal s offset 64 = none → exec (.atomicAddLine offset addends) s = .next (settle s (addLine s offset addends))) ∧
     (∀ st, readRefusal s offset 64 = some st → exec (.atomicAddLine offset addends) s = .next (settle s { s with out := s.out ++ [.status st] }))) ∧
  -- hdmHostRead
  (∀ (s : State) (o : Nat), hdmServes s (64 * o) 64 = true →
     let a := rd s F.HPT_HDM_CFG_BASE_GIB * 2 ^ 30 + 64 * o
     (touchesSuspect s a 64 = true → exec (.hdmHostRead (64 * o)) s = .next { s with out := s.out ++ [.hdmData (List.replicate 64 0) true] }) ∧
     (touchesSuspect s a 64 = false → touchesUe s a 64 = false → exec (.hdmHostRead (64 * o)) s = .next { s with
       hpt := { s.hpt with hdmHeld := (a / 64 :: s.hpt.hdmHeld).dedup }, out := s.out ++ [.hdmData (readMem s a 64) false] })) ∧
  -- hdmHostWrite
  (∀ (s : State) (o : Nat) (bytes : List Byte), hdmServes s o bytes.length = true → o % 64 + bytes.length ≤ 64 →
     exec (.hdmHostWrite o bytes) s = .next (settle s (storeMem s (rd s F.HPT_HDM_CFG_BASE_GIB * 2 ^ 30 + o) bytes))) ∧
  -- hdm access without the window
  (∀ (s : State) (o : Nat) (bytes : List Byte), rd s F.HPT_HDM_CFG_EN = 0 →
     exec (.hdmHostRead o) s = .next s ∧ exec (.hdmHostWrite o bytes) s = .next (settle s s)) ∧
  -- memory reads what was written
  (∀ (s : State) (a : Nat) (bs : List Byte), (∀ i, i < bs.length → byteAt (writeMem s a bs).hbm (a + i) = bs.getD i 0) ∧
     (∀ b, b < a ∨ a + bs.length ≤ b → byteAt (writeMem s a bs).hbm b = byteAt s.hbm b))

/-- The flash tier is enabled and disabled, and serves reads and writes of sectors. Enabling and disabling, and sectors
read and written, buffered or not, refused or not. Rules: R316, R319, R321, R329. It rests on the model's own choices
in log entries 87, 88, 89, 90. -/
def Obligations.FlashService : Prop :=
  -- ftlEnable
  (∀ (s : State) (w : Word), rd s F.SEC_PROT_LOCK_LOCK = 1 → bit w 63 = true → rd s F.FLT_CTL_EN = 0 → rd s F.FLT_CTL_BUSY = 0 →
     exec (.ftlEnable w) s = .next (emits (wr (wr (wr s F.FLT_CTL_MAP_BASE_MIB (bits w 19 0)) F.FLT_CTL_BUSY 1) F.FLT_CTL_ERR 0)
       ((List.range 16).map (fun c => .onfi c .bringUp 0 0)))) ∧
  -- ftlBringupDone
  (∀ (s : State) (chans : List ChanFound) (bad : List Nat), isUp s = true → rd s F.FLT_CTL_BUSY ≠ 0 →
     exec (.ftlBringupDone chans bad) s = .next (
       let cs := chans.take 16
       let s1 := cs.zipIdx.foldl (fun u p => foundChan u p.2 p.1) s
       let bu := ((cs.filter (fun c => c.trained)).map (fun c => c.blockUnits)).foldl max 0
       let units := (goodBlocks s1 cs bad).length * bu * (256 - rd s F.FLT_CFG_OP) / 256
       let s2 := wr (wr s1 F.FLT_CAP_UNITS units) F.FLT_CAP_MAP_MIB (ceilDiv (8 * units) (2 ^ 20) + Config.mergeMib)
       let s3 := wr { s2 with flt := { FltState.reset with blocks := goodBlocks s1 cs bad, blockUnits := bu } } F.FLT_CTL_BUSY 0
       if chansUp s3 ≠ [] ∧ mapRegionOk s3 = true then wr s3 F.FLT_CTL_EN 1
       else { wr s3 F.FLT_CTL_ERR 1 with flt := FltState.reset })) ∧
  -- ftlDisable
  (∀ (s : State) (w : Word), rd s F.SEC_PROT_LOCK_LOCK = 1 → bit w 63 = false → rd s F.FLT_CTL_EN = 1 →
     exec (.ftlDisable w) s = .next { wr (wr (wr (wr s F.FLT_CTL_EN 0) F.FLT_CTL_BUSY 0) F.FLT_CAP_UNITS 0) F.FLT_CAP_MAP_MIB 0 with
       flt := FltState.reset }) ∧
  -- sectorRead of a buffered sector
  (∀ (s : State) (c : FlashClient) (sector : Nat) (d : List Byte), isUp s = true → fltReady s = true → clientOk s c sector 1 = true →
     bufferedSector s sector = some d →
     exec (.sectorRead c sector) s = .next { s with out := s.out ++ [.flashReply c sector St.OK d] }) ∧
  -- sectorRead of a sector in flash
  (∀ (s : State) (c : FlashClient) (sector : Nat) (m : UnitMap), isUp s = true → fltReady s = true → clientOk s c sector 1 = true →
     bufferedSector s sector = none → tget s.flt.map (sector / 32) = some m → m.mask.testBit (sector % 32) = true →
     chanUp s (m.block / 2 ^ 20) = true →
     exec (.sectorRead c sector) s = .next { s with
       flt := { s.flt with reads := s.flt.reads ++ [⟨some c, sector, m.block⟩] }
       out := s.out ++ [.onfi (m.block / 2 ^ 20) .readPage m.block m.slot] }) ∧
  -- sectorRead answered at once
  (∀ (s : State) (c : FlashClient) (sector : Nat), isUp s = true →
     (fltReady s = false → exec (.sectorRead c sector) s = .next { s with out := s.out ++ [.flashReply c sector St.FLT_NOT_READY []] }) ∧
     (fltReady s = true → clientOk s c sector 1 = false →
       exec (.sectorRead c sector) s = .next { s with out := s.out ++ [.flashReply c sector St.FLT_PROT []] }) ∧
     (fltReady s = true → clientOk s c sector 1 = true → bufferedSector s sector = none → tget s.flt.map (sector / 32) = none →
       exec (.sectorRead c sector) s = .next { s with out := s.out ++ [.flashReply c sector St.FLT_UNWRITTEN []] })) ∧
  -- sectorReadData
  (∀ (s : State) (sector : Nat) (d : List Byte) (r : FltRead), isUp s = true → s.flt.reads.find? (fun r => r.sector == sector) = some r →
     exec (.sectorReadData sector (.hard d true)) s = .next (settle s (eraseWhenDone (countRead (giveSector (bumpBy { s with flt := { s.flt with
       reads := s.flt.reads.erase r } } F.FLT_RETRY_CNT_COUNT 0) r (some d)) r.block 0) r.block)) ∧
     exec (.sectorReadData sector .fail) s = .next (settle s (eraseWhenDone (countRead (giveSector (bump (bumpBy { s with flt := { s.flt with
       reads := s.flt.reads.erase r } } F.FLT_RETRY_CNT_COUNT (rd s F.FLT_CFG_RETRY)) F.FLT_UE_CNT_COUNT) r none) r.block (rd s F.FLT_CFG_RETRY)) r.block))) ∧
  -- sectorWrite
  (∀ (s : State) (c : FlashClient) (sector : Nat) (data : List (List Byte)), isUp s = true → fltReady s = true →
     clientOk s c sector data.length = true → ceilDiv (sector + data.length) 32 ≤ rd s F.FLT_CAP_UNITS →
     exec (.sectorWrite c sector data) s = .next (emit
       ((((List.range data.length).map (fun i => (sector + i) / 32)).dedup).foldl mergeOn
         (countClient (data.zipIdx.foldl (fun u p => putSector u (sector + p.2) p.1) s) data.length))
       (.flashReply c sector St.OK []))) ∧
  -- sectorWrite refused
  (∀ (s : State) (c : FlashClient) (sector : Nat) (data : List (List Byte)), isUp s = true →
     (fltReady s = false → exec (.sectorWrite c sector data) s = .next { s with out := s.out ++ [.flashReply c sector St.FLT_NOT_READY []] }) ∧
     (fltReady s = true → clientOk s c sector data.length = false →
       exec (.sectorWrite c sector data) s = .next { s with out := s.out ++ [.flashReply c sector St.FLT_PROT []] }) ∧
     (fltReady s = true → clientOk s c sector data.length = true → rd s F.FLT_CAP_UNITS < ceilDiv (sector + data.length) 32 →
       exec (.sectorWrite c sector data) s = .next { s with out := s.out ++ [.flashReply c sector St.FLT_NO_SPACE []] }))

/-- The flash tier programs, erases, collects, levels and loses a channel. What the timers and replies of the flash
channels do to blocks, the map and the counters. Rules: R317, R319, R322, R324, R327. It rests on the model's own
choices in log entries 87, 88, 89. -/
def Obligations.FlashUpkeep : Prop :=
  -- mergeTimeout
  (∀ (s : State) (unit : Nat), isUp s = true → thas s.flt.bufs unit = true → fltReady s = true →
     exec (.mergeTimeout unit) s = .next (mergeOn { s with flt := { s.flt with bufs := tmod s.flt.bufs unit (fun b => { b with due := true }) } } unit)) ∧
  -- pageProgramDone
  (∀ (s : State) (unit : Nat) (p : FltProg), isUp s = true → s.flt.progs.find? (fun p => p.unit == unit) = some p →
     let s1 := bumpBy { s with flt := { s.flt with progs := s.flt.progs.erase p } } F.FLT_NAND_WR_CNT_COUNT 4
     exec (.pageProgramDone unit true) s = .next (unitStored s1 p) ∧
     exec (.pageProgramDone unit false) s = .next (progAgain (retireBlock s1 p.block) p)) ∧
  -- a programmed unit enters the map
  (∀ (s : State) (p : FltProg), (p.old = none → tget (mapUnit s p).flt.map p.unit = some ⟨p.block, p.slot, p.mask⟩) ∧
     (∀ o m, p.old = some o → tget s.flt.map p.unit = some m → (m.block, m.slot) ≠ o → mapUnit s p = s) ∧
     (∀ m, p.old = some (m.block, m.slot) → tget s.flt.map p.unit = some m →
       tget (mapUnit s p).flt.map p.unit = some ⟨p.block, p.slot, m.mask⟩)) ∧
  -- blockEraseDone
  (∀ (s : State) (b : Nat), isUp s = true → thas s.flt.blocks b = true → (blockOf s b).erasing = true → (blockOf s b).leaving = false →
     exec (.blockEraseDone b true) s = .next (mergeAll (moveRest (modBlock (modBlock s b (fun x => { x with erases := x.erases + 1, reads := 0 })) b
       (fun x => { x with erasing := false, moving := false, next := 0, clean := true }))))) ∧
  -- blockEraseDone failed
  (∀ (s : State) (b : Nat), isUp s = true → thas s.flt.blocks b = true →
     exec (.blockEraseDone b false) s = .next (reprogram (retireBlock (modBlock s b (fun x => { x with erasing := false, moving := false })) b)
       (fun c => c == b))) ∧
  -- garbageCollection
  (∀ (s : State) (b : Nat) (x : FltBlock), isUp s = true → fltReady s = true →
     minBy (fun e => validUnits s e.1 * 2 ^ 64 + e.2.age) ((usedBlocks s).filter (fun e => e.2.next == s.flt.blockUnits)) = some (b, x) →
     exec .garbageCollection s = .next (moveBlock s b)) ∧
  -- staticLevelling
  (∀ (s : State) (b : Nat) (x : FltBlock), isUp s = true → fltReady s = true → minBy (fun e => e.2.erases) (usedBlocks s) = some (b, x) →
     (x.erases + rd s F.FLT_CFG_WEAR_DELTA < ((usedBlocks s).map (fun e => e.2.erases)).foldl max 0 →
       exec .staticLevelling s = .next (moveBlock s b)) ∧
     (((usedBlocks s).map (fun e => e.2.erases)).foldl max 0 ≤ x.erases + rd s F.FLT_CFG_WEAR_DELTA → exec .staticLevelling s = .next s)) ∧
  -- zqCalibration
  (∀ (s : State), isUp s = true → fltReady s = true →
     exec .zqCalibration s = .next { s with out := s.out ++ (((List.range 16).filter (chanUp s)).map (fun c => .onfi c .zq 0 0)) }) ∧
  -- flashChannelFail
  (∀ (s : State) (c : Nat), isUp s = true → c < 16 → chanUp s c = true →
     exec (.flashChannelFail c) s = .next (
       let u := openEvent (wri s F.FLT_CHAN_STATE c 2) .error St.FLT_CHAN_FAIL ⟨8, c⟩ 0 0
       reprogram ((s.flt.reads.filter (fun r => r.block / 2 ^ 20 == c)).foldl (fun v r => giveSector v r none)
         { u with flt := { u.flt with reads := u.flt.reads.filter (fun r => r.block / 2 ^ 20 != c) } }) (fun b => b / 2 ^ 20 == c)))

/-- A port is enabled, trains, exchanges keys, retrains and is disabled. The states of a port and what moves it from one
to the next. Rules: R336, R339, R346. It rests on the model's own choices in log entries 6, 136. -/
def Obligations.PortTraining : Prop :=
  -- portEnable trains a disabled port
  (∀ (s : State) (n : Nat) (w : Word), rd s F.SEC_PROT_LOCK_LOCK = 1 → bit w 63 = true → n < 60 → rdi s F.GLK_PORT_CTL_EN n = 0 →
     bits w 1 0 = 0 →
     exec (.portEnable n w) s = .next (enterTrain (wri s F.GLK_PORT_CTL_EN n 1) n St.OK false)) ∧
  -- enterTrain
  (∀ (s : State) (n : Nat) (st : Status) (retry : Bool), n < 56 → enterTrain s n st retry = linkChange
     (addSat (wri (wri (wri (wri { s with glk := { s.glk with ports := tset s.glk.ports n { GPort.fresh with retry := retry } } }
       F.GLK_PORT_STAT_WIDTH n 0) F.GLK_PORT_STAT_LANE_OK n 0) F.GLK_PORT_STAT_PEER n 0) F.GLK_PORT_STAT_STATE n 1)
       F.GLK_PORT_ERR_CNT_RETRAIN n 1) n st) ∧
  -- portDisable
  (∀ (s : State) (n : Nat) (w : Word), rd s F.SEC_PROT_LOCK_LOCK = 1 → bit w 63 = false → n < 56 → rdi s F.GLK_PORT_CTL_EN n = 1 →
     bits w 1 0 = 0 →
     exec (.portDisable n w) s = .next (settle s (wri (wri (clearPort s n false) F.GLK_PORT_STAT_STATE n 0) F.GLK_PORT_CTL_EN n 0))) ∧
  -- portRetrain
  (∀ (s : State) (n : Nat), rd s F.SEC_PROT_LOCK_LOCK = 1 → n < 60 →
     (portState s n = 4 ∨ portState s n = 5 → exec (.portRetrain n) s = .next (settle s (enterTrain s n St.OK false))) ∧
     (portState s n ≠ 4 → portState s n ≠ 5 → exec (.portRetrain n) s = .next (settle s s))) ∧
  -- pmdTrainingDone
  (∀ (s : State) (n w : Nat) (lanes : BitVec 8), n < 56 → portState s n = 1 → (portOf s n).retry = false →
     widthFor lanes (2 ^ rdi s F.GLK_PORT_CTL_MAX_WIDTH n) = some w →
     exec (.pmdTrainingDone n lanes) s = .next (emit (wri { wri (wri s F.GLK_PORT_STAT_WIDTH n w) F.GLK_PORT_STAT_LANE_OK n lanes.toNat with
       glk := { s.glk with ports := tset s.glk.ports n GPort.fresh } } F.GLK_PORT_STAT_STATE n 2) (.keyxFrame n))) ∧
  -- pmdTrainingDone without enough lanes
  (∀ (s : State) (n : Nat) (lanes : BitVec 8), n < 60 → portState s n = 1 → (portOf s n).retry = false →
     widthFor lanes (2 ^ rdi s F.GLK_PORT_CTL_MAX_WIDTH n) = none →
     exec (.pmdTrainingDone n lanes) s = .next (enterTrain s n St.OK true)) ∧
  -- trainRetry
  (∀ (s : State) (n : Nat), n < 60 → portState s n = 1 →
     exec (.trainRetry n) s = .next { s with glk := { s.glk with ports := tset s.glk.ports n { portOf s n with retry := false } } }) ∧
  -- keyxFrame at training
  (∀ (s : State) (n : Nat) (f : KeyxMsg), n < 56 → portState s n = 2 → f.good = true →
     exec (.keyxFrame n f) s = .next (settle s (sendCredit (wri (wri { s with glk := { s.glk with
       ports := tset s.glk.ports n { portOf s n with freed := grantedCredits s n } } } F.GLK_PORT_STAT_PEER n f.peer)
       F.GLK_PORT_STAT_STATE n 3) n false))) ∧
  -- keyxFrame beside traffic
  (∀ (s : State) (n : Nat) (f : KeyxMsg), n < 56 → portState s n = 5 → (portOf s n).rekey = true → f.good = true →
     exec (.keyxFrame n f) s = .next (settle s { s with glk := { s.glk with ports := tset s.glk.ports n { portOf s n with
       rekey := false, gen := ((portOf s n).gen + 1) % 4, sealed_ := 0 } } })) ∧
  -- keyxFrame that does not check
  (∀ (s : State) (n : Nat) (f : KeyxMsg), n < 60 → portState s n = 2 → f.good = false →
     exec (.keyxFrame n f) s = .next (settle s (
       let u := enterTrain s n St.OK true
       errorEvent u St.GLK_KEY_FAIL ⟨6, n⟩ 0 0 0 (Config.eventDetail (2 * s.out.length + 1)))))

/-- Frames, credits and faults of a port in service. What a frame of credits, a data frame, a bad frame, a lane fault and
a silence do to a port. Rules: R336, R339, R341, R348, R349. It rests on the model's own choices in log entries 6,
54, 55, 136. -/
def Obligations.PortTraffic : Prop :=
  -- creditFrame while serving
  (∀ (s : State) (n : Nat) (f : CreditMsg), n < 60 → 3 ≤ portState s n → f.check = .good → f.seq = (portOf s n).rxSeq →
     portState (acceptSeq s n f.ack f.nak) n = 5 →
     exec (.creditFrame n f) s = .next (settle s (
       let s1 := acceptSeq s n f.ack f.nak
       servePort (setPort s1 n { portOf s1 n with credits := (List.range 12).map (fun i => (portOf s1 n).credits.getD i 0 +
         (f.counts.getD i 0 + 65536 - (portOf s1 n).credits.getD i 0 % 65536) % 65536) }) n false))) ∧
  -- creditFrame ends CREDIT
  (∀ (s : State) (n : Nat) (f : CreditMsg), n < 56 → 3 ≤ portState s n → f.check = .good → f.seq = (portOf s n).rxSeq →
     portState (acceptSeq s n f.ack f.nak) n = 3 →
     exec (.creditFrame n f) s = .next (settle s (
       let s1 := acceptSeq s n f.ack f.nak
       emit (wri (setPort s1 n { portOf s1 n with credits := (List.range 12).map (fun i => (portOf s1 n).credits.getD i 0 +
         (f.counts.getD i 0 + 65536 - (portOf s1 n).credits.getD i 0 % 65536) % 65536) }) F.GLK_PORT_STAT_STATE n 4) (.linkTest n false)))) ∧
  -- frames that do not check, or are out of order
  (∀ (s : State) (n : Nat) (f : CreditMsg) (d : DataMsg), n < 60 → 4 ≤ portState s n →
     (f.check ≠ .good → exec (.creditFrame n f) s = .next (settle s (badCheck s n f.check))) ∧
     (f.check = .good → f.seq ≠ (portOf s n).rxSeq → exec (.creditFrame n f) s = .next (settle s (nakFrame s n))) ∧
     (d.check ≠ .good → exec (.dataFrame n d) s = .next (settle s (badCheck s n d.check))) ∧
     (d.check = .good → d.vc < 12 → d.seq ≠ (portOf s n).rxSeq → exec (.dataFrame n d) s = .next (settle s (nakFrame s n)))) ∧
  -- dataFrame
  (∀ (s : State) (n : Nat) (f : DataMsg), n < 60 → 4 ≤ portState s n → f.check = .good → f.vc < 12 → f.seq = (portOf s n).rxSeq →
     portState (acceptSeq s n f.ack f.nak) n ≠ 1 →
     exec (.dataFrame n f) s = .next (settle s (
       let s1 := acceptSeq s n f.ack f.nak
       let s2 := setPort s1 n { portOf s1 n with freed := addAt (portOf s1 n).freed f.vc (ceilDiv f.len 64) }
       if carries n (f.vc / 2) = true then servePort s2 n false
       else openEvent (addSat s2 F.GLK_PORT_ERR_CNT_BAD_FRAME n 1) .error St.GLK_BAD_FRAME ⟨6, n⟩ 0 0))) ∧
  -- linkTestFrame
  (∀ (s : State) (n : Nat), n < 60 → portState s n = 4 →
     (∀ ok, exec (.linkTestFrame n false ok) s = .next (settle s (emit s (.linkTest n true)))) ∧
     exec (.linkTestFrame n true false) s = .next (settle s (enterTrain s n St.OK false)) ∧
     ((portOf s n).tested + 1 < 65536 → exec (.linkTestFrame n true true) s = .next (settle s (setPort s n
       { portOf s n with tested := (portOf s n).tested + 1 }))) ∧
     ((portOf s n).tested + 1 = 65536 → n < 56 → exec (.linkTestFrame n true true) s = .next (settle s (routeTake (setPort s n
       { portOf s n with tested := 65536 }) n))) ∧
     ((portOf s n).tested + 1 = 65536 → 56 ≤ n → exec (.linkTestFrame n true true) s = .next (settle s (servePort (setPortState (setPort s n
       { portOf s n with tested := 65536 }) n 5) n false)))) ∧
  -- laneFault
  (∀ (s : State) (n w : Nat) (good : BitVec 8), n < 60 → 2 ≤ portState s n → (portOf s n).unacked = [] →
     widthFor (BitVec.ofNat 8 (rdi s F.GLK_PORT_STAT_LANE_OK n) &&& good) (rdi s F.GLK_PORT_STAT_WIDTH n) = some w →
     w ≠ rdi s F.GLK_PORT_STAT_WIDTH n →
     exec (.laneFault n good) s = .next (settle s (linkChange (wri (wri s F.GLK_PORT_STAT_WIDTH n w) F.GLK_PORT_STAT_LANE_OK n
       (BitVec.ofNat 8 (rdi s F.GLK_PORT_STAT_LANE_OK n) &&& good).toNat) n St.GLK_WIDTH_DOWN))) ∧
  -- laneFault without a group of good lanes
  (∀ (s : State) (n : Nat) (good : BitVec 8), n < 60 → 2 ≤ portState s n →
     widthFor (BitVec.ofNat 8 (rdi s F.GLK_PORT_STAT_LANE_OK n) &&& good) (rdi s F.GLK_PORT_STAT_WIDTH n) = none →
     exec (.laneFault n good) s = .next (settle s (enterTrain s n St.GLK_PORT_DOWN false))) ∧
  -- portRxTimeout and creditTimeout
  (∀ (s : State) (n vc : Nat) (f : GFrame), n < 60 → portState s n = 5 →
     exec (.portRxTimeout n) s = .next (settle s (enterTrain s n St.GLK_PORT_DOWN false)) ∧
     (f ∈ (portOf s n).queue → f.vc = vc → (portOf s n).credits.getD vc 0 < (portOf s n).used.getD vc 0 + creditNeed f →
       exec (.creditTimeout n vc) s = .next (enterTrain s n St.GLK_CREDIT_TIMEOUT false))) ∧
  -- creditFrameInterval
  (∀ (s : State) (n : Nat), n < 60 → 3 ≤ portState s n →
     exec (.creditFrameInterval n) s = .next (emit (setPort s n { portOf s n with
       txSeq := ((portOf s n).txSeq + 1) % 4096, sealed_ := (portOf s n).sealed_ + 1 })
       (.creditFrame n (portOf s n).txSeq (((portOf s n).rxSeq + 4095) % 4096) false ((portOf s n).freed.map (fun c => c % 65536))))) ∧
  -- frameOnWireFinishes
  (∀ (s : State) (n : Nat) (f : GFrame), n < 60 → (portOf s n).wire = some f →
     exec (.frameOnWireFinishes n) s = .next (servePort (setPort s n { portOf s n with wire := none }) n false))

/-- Remote operations are done and answered, time out and move to another port. PUT, GET, adds, compare-and-swap and
PUT_SIGNAL act on memory and answer; a refused one answers its status; a late one times out. Rules: R344, R350, R351,
R352, R356. It rests on the model's own choices in log entries 27, 28, 56, 122, 136. -/
def Obligations.RemoteOperations : Prop :=
  -- put
  (∀ (s : State) (r : RemoteReq) (bytes : List Byte), isUp s = true →
     remoteRefusal s r (bytes.length == 0 || decide (4096 < bytes.length) || r.arg != 0) 41 false [(r.offset, bytes.length)] [] = none →
     inHostWindow r.offset bytes.length = false → (partialLines r.offset bytes.length).findSome? (fun l => readRefusal s l 64) = none →
     exec (.put r bytes) s = .next (settle s (respond (writeMem s r.offset bytes) r.src r.tc r.tag 0 []))) ∧
  -- get
  (∀ (s : State) (r : RemoteReq) (host : List Byte), isUp s = true →
     remoteRefusal s r (bits r.arg 12 0 == 0 || decide (4096 < bits r.arg 12 0) || bits r.arg 63 13 != 0) 40 true [(r.offset, bits r.arg 12 0)] [] = none →
     inHostWindow r.offset (bits r.arg 12 0) = false → inMap s r.offset (bits r.arg 12 0) = false →
     readRefusal s r.offset (bits r.arg 12 0) = none →
     exec (.get r host) s = .next (respond s r.src r.tc r.tag 0 (readMem s r.offset (bits r.arg 12 0)))) ∧
  -- addF32
  (∀ (s : State) (r : RemoteReq) (xs : List (BitVec 32)), isUp s = true →
     remoteRefusal s r (xs.length != 16 || r.arg != 0) 42 false [(r.offset, 64)] [(r.offset, 64, false)] = none → readRefusal s r.offset 64 = none →
     exec (.addF32 r xs) s = .next (settle s (respond (writeMem s r.offset ((List.range 16).flatMap (fun i =>
       natBytes 4 (f32Add (BitVec.ofNat 32 (readNat s (r.offset + 4 * i) 4)) (xs.getD i 0)).toNat))) r.src r.tc r.tag 0 []))) ∧
  -- addU64 and cas64
  (∀ (s : State) (r : RemoteReq) (v cmp swp : Word), isUp s = true →
     remoteRefusal s r (r.arg != 0) 42 false [(r.offset, 8)] [(r.offset, 8, true)] = none → readRefusal s r.offset 8 = none →
     exec (.addU64 r v) s = .next (settle s (respond (writeWord s r.offset (readWord s r.offset + v)) r.src r.tc r.tag 0
       (wordBytes (readWord s r.offset)))) ∧
     exec (.cas64 r cmp swp) s = .next (settle s (respond (if readWord s r.offset = cmp then writeWord s r.offset swp else s) r.src r.tc r.tag 0
       (wordBytes (readWord s r.offset))))) ∧
  -- putSignal
  (∀ (s : State) (r : RemoteReq) (bytes : List Byte), isUp s = true →
     remoteRefusal s r (bytes.length == 0 || decide (4096 < bytes.length) || bits r.arg 63 52 != 0) 41 false
       [(r.offset, bytes.length), (bits r.arg 51 0, 8)] [(bits r.arg 51 0, 8, true)] = none →
     inHostWindow r.offset bytes.length = false → (partialLines r.offset bytes.length).findSome? (fun l => readRefusal s l 64) = none →
     readRefusal s (bits r.arg 51 0) 8 = none →
     exec (.putSignal r bytes) s = .next (settle s (
       let s1 := writeMem s r.offset bytes
       respond (countSignal (writeWord s1 (bits r.arg 51 0) (readWord s1 (bits r.arg 51 0) + 1)) (bits r.arg 51 0)) r.src r.tc r.tag 0 []))) ∧
  -- an operation refused
  (∀ (s : State) (r : RemoteReq) (bytes : List Byte) (st : Status), isUp s = true →
     remoteRefusal s r (bytes.length == 0 || decide (4096 < bytes.length) || r.arg != 0) 41 false [(r.offset, bytes.length)] [] = some st →
     exec (.put r bytes) s = .next (settle s (refuseOp s r st)) ∧
     (st ≠ St.DTM_STALE_MAP → st ≠ St.GLK_BUSY → refuseOp s r st = respond s r.src r.tc r.tag (at' 0 16 st.toNat) []) ∧
     refuseOp s r St.DTM_STALE_MAP = respond (bump s F.DTM_STALE_CNT_COUNT) r.src r.tc r.tag
       (mkWord [(0, 16, St.DTM_STALE_MAP.toNat), (16, 20, hintNode s r.epoch)]) []) ∧
  -- remoteResponse
  (∀ (s : State) (tag : Nat) (st : BitVec 16) (arg : Word) (bytes : List Byte), isUp s = true →
     (tget s.glk.ops tag = none → exec (.remoteResponse tag st arg bytes) s = .next (settle s (bump s F.GLK_LATE_CNT_COUNT))) ∧
     (∀ o, tget s.glk.ops tag = some o → st = St.GLK_BUSY → exec (.remoteResponse tag st arg bytes) s = .next (settle s (bump s F.GLK_BUSY_CNT_COUNT))) ∧
     (∀ o, tget s.glk.ops tag = some o → st = St.DTM_STALE_MAP → exec (.remoteResponse tag st arg bytes) s = .next (settle s (staleAnswered s tag o arg))) ∧
     (∀ o, tget s.glk.ops tag = some o → st ≠ St.GLK_BUSY → st ≠ St.DTM_STALE_MAP → exec (.remoteResponse tag st arg bytes) s = .next (settle s
       (feedTag (afterOp { s with glk := { s.glk with ops := tdel s.glk.ops tag } } tag o st arg))))) ∧
  -- respTimeout
  (∀ (s : State) (tag : Nat) (o : RemoteOp), isUp s = true → tget s.glk.ops tag = some o →
     exec (.respTimeout tag) s = .next (settle s (feedTag (afterOp { bump s F.GLK_TIMEOUT_CNT_COUNT with glk := { s.glk with
       ops := tdel s.glk.ops tag } } tag o St.GLK_RESP_TIMEOUT 0)))) ∧
  -- busyRetry
  (∀ (s : State) (tag n : Nat) (o : RemoteOp), isUp s = true → tget s.glk.ops tag = some o →
     (flowPort s o.dest o.tc o.stripe = some n → exec (.busyRetry tag) s = .next (startOp s tag o n)) ∧
     (flowPort s o.dest o.tc o.stripe = none → exec (.busyRetry tag) s = .next (endOp s tag o St.GLK_NO_ROUTE 0))) ∧
  -- flowMove
  (∀ (s : State) (f : FlowKey) (n : Nat), isUp s = true → flowBusy s f.dest f.tc f.stripe = false →
     flowPort s f.dest f.tc f.stripe = some n →
     exec (.flowMove f) s = .next ((s.glk.ops.filter (fun e => e.2.dest == f.dest && e.2.tc == f.tc && e.2.stripe == f.stripe &&
         e.2.port.isNone)).foldl (fun u e => startOp u e.1 e.2 n)
       { s with glk := { s.glk with flows := tset s.glk.flows (flowKeyOf f.dest f.tc f.stripe) n } })) ∧
  -- collTimeout
  (∀ (s : State) (c : Nat), isUp s = true → thas s.glk.colls c = true →
     exec (.collTimeout c) s = .next (failStep (openEvent { s with glk := { s.glk with colls := tdel s.glk.colls c } } .error
       St.GLK_COLL_TIMEOUT noUnit 0 0)))

/-- Reels, buckets, shapers and time gates. What the schedulers of the ports do when a slot or an entry ends and when
software writes them. Rules: R363, R365, R366, R367, R371. It rests on the model's own choices in log entries 54, 55. -/
def Obligations.ShapingCommands : Prop :=
  -- reelSlot with no flow
  (∀ (s : State), s.shp.flows = [] → s.shp.shapes = [] →
     exec .reelSlot s = .next (serveIdle (admitFlows { s with shp := { s.shp with slot := s.shp.slot + 1, flows := [], shapes := [] } }))) ∧
  -- a bucket refills
  (∀ (s : State) (key : Nat) (f : ShpFlow),
     (shaped s (key % 8) = false → (refill s key f).tokens = shapeBurst s (key % 8)) ∧
     (shaped s (key % 8) = true → f.tokens < shapeBurst s (key % 8) →
       (refill s key f).tokens = min (shapeBurst s (key % 8)) (f.tokens + shapeRate s (key % 8))) ∧
     (shaped s (key % 8) = true → shapeBurst s (key % 8) ≤ f.tokens → refill s key f = f)) ∧
  -- shaperWrite
  (∀ (s : State) (k : Nat) (w : Word), rd s F.SEC_PROT_LOCK_LOCK = 1 → k < 2 →
     exec (.shaperWrite k w) s = .next { s with shp := { s.shp with shapes := tset s.shp.shapes k w } }) ∧
  -- gateEntryEnd
  (∀ (s : State) (n : Nat) (g : Gate), tget s.shp.gates n = some g → g.held = false → n < 56 → rdi s F.SHP_GATE_CTL_EN n = 1 →
     thas s.glk.ports n = false →
     let now := rd s F.GLB_MGMT_CYCLES_COUNT
     (g.entry + 1 < gateLen s n → exec (.gateEntryEnd n) s = .next (servePort { s with shp := { s.shp with
       gates := tset s.shp.gates n ⟨g.entry + 1, now, false⟩ } } n true)) ∧
     (gateLen s n ≤ g.entry + 1 → gateRepeat s n = true → exec (.gateEntryEnd n) s = .next (servePort { s with shp := { s.shp with
       gates := tset s.shp.gates n ⟨0, now, false⟩ } } n true)) ∧
     (gateLen s n ≤ g.entry + 1 → gateRepeat s n = false → exec (.gateEntryEnd n) s = .next { s with shp := { s.shp with
       gates := tset s.shp.gates n ⟨g.entry, now, true⟩ } })) ∧
  -- gateSwapRequest
  (∀ (s : State) (n : Nat) (w : Word), rd s F.SEC_PROT_LOCK_LOCK = 1 → n < 56 → bit w 62 = true → bit w 63 = true →
     rdi (writeBank s n w) F.SHP_GATE_CTL_EN n = 1 →
     exec (.gateSwapRequest n w) s = .next (wri (writeBank s n w) F.SHP_GATE_CTL_PEND n 1)) ∧
  -- gateEnable
  (∀ (s : State) (n : Nat) (w : Word), rd s F.SEC_PROT_LOCK_LOCK = 1 → n < 56 → bit w 62 = false →
     (bit w 63 = true → rdi (writeBank s n w) F.SHP_GATE_CTL_EN n = 0 →
       exec (.gateEnable n w) s = .next (wri (writeBank s n w) F.SHP_GATE_CTL_EN n 1)) ∧
     (bit w 63 = false → thas s.glk.ports n = false →
       exec (.gateEnable n w) s = .next (wri { writeBank s n w with shp := { s.shp with gates := tdel s.shp.gates n } } F.SHP_GATE_CTL_EN n 0)))

/-- MOVEs take a channel, complete, fault and are stopped. A waiting MOVE takes the channel granted, completes with its
bytes at the destination, or ends with the fault that its clause names. Rules: R374, R382, R384, R385, R387. It rests
on the model's own choices in log entries 99, 100. -/
def Obligations.MoverCommands : Prop :=
  -- moveChannelGrant of a local MOVE
  (∀ (s : State) (m c : Nat) (host : List Byte) (w : MoveWait), isUp s = true → m < 8 → rdi s F.BMV_MOVER_STATE m = 0 →
     nextMove s m = some w → firstFree 32 (fun c => !thas s.bmv.chans (32 * m + c)) = some c → mvRemote s w.desc = false →
     exec (.moveChannelGrant m host) s = .next (showBusy { s with bmv := { s.bmv with waiting := s.bmv.waiting.erase w, chans := tset s.bmv.chans (32 * m + c) ⟨w.flight, w.desc, host, []⟩ } })) ∧
  -- moveChannelGrant of a remote MOVE sends its PUTs
  (∀ (s : State) (m c : Nat) (host : List Byte) (w : MoveWait) (s2 : State) (ps : List MovePut), isUp s = true → m < 8 →
     rdi s F.BMV_MOVER_STATE m = 0 → nextMove s m = some w → firstFree 32 (fun c => !thas s.bmv.chans (32 * m + c)) = some c →
     mvRemote s w.desc = true → srcFault s w.desc (mvSkip w.desc) (sideCount (dstSide w.desc)) = none →
     sendPuts { s with bmv := { s.bmv with waiting := s.bmv.waiting.erase w, chans := tset s.bmv.chans (32 * m + c) ⟨w.flight, w.desc, host, []⟩ } }
       m c w.desc host = (s2, ps, none) →
     exec (.moveChannelGrant m host) s = .next (showBusy { s2 with bmv := { s2.bmv with
       chans := tset s2.bmv.chans (32 * m + c) ⟨w.flight, w.desc, host, ps⟩ } })) ∧
  -- the MOVE that takes the channel
  (∀ (s : State) (m : Nat) (w : MoveWait), nextMove s m = some w → w ∈ s.bmv.waiting ∧ moverFor s w.desc = m ∧
     (∀ v ∈ s.bmv.waiting, moverFor s v.desc = m → 3 - ctxPrio s (flightCtx w.flight) ≤ 3 - ctxPrio s (flightCtx v.flight))) ∧
  -- moveComplete of a local MOVE
  (∀ (s : State) (m c : Nat) (x : MoveChan), isUp s = true → c < 32 → tget s.bmv.chans (32 * m + c) = some x → rdi s F.BMV_MOVER_STATE m = 0 →
     mvRemote s x.desc = false → srcFault s x.desc (mvSkip x.desc) (sideCount (dstSide x.desc)) = none →
     (pieces (dstSide x.desc) ((dstSide x.desc).len * (dstSide x.desc).width) (sideCount (dstSide x.desc) - mvSkip x.desc) (mvSkip x.desc)
       (sideCount (dstSide x.desc))).find? (fun p => (writeRefusal s p.2.1 (p.2.2 * (dstSide x.desc).width)).isSome) = none →
     exec (.moveComplete m c) s = .next (settle s (endMoveChan (writeElems s x.desc x.host (mvSkip x.desc) (sideCount (dstSide x.desc)))
       (32 * m + c) x (if mvNumeric s x.desc x.host (mvSkip x.desc) (sideCount (dstSide x.desc)) then 0x0EE0 else St.OK)
       (sideCount (dstSide x.desc))))) ∧
  -- moveComplete of a remote MOVE
  (∀ (s : State) (m c : Nat) (x : MoveChan), isUp s = true → c < 32 → tget s.bmv.chans (32 * m + c) = some x → rdi s F.BMV_MOVER_STATE m = 0 →
     mvRemote s x.desc = true → x.puts = [] →
     exec (.moveComplete m c) s = .next (settle s (endMoveChan
       (bumpBy s F.BMV_BYTES_CNT_COUNT ((sideCount (dstSide x.desc) - mvSkip x.desc) * (dstSide x.desc).width)) (32 * m + c) x
       (if mvNumeric s x.desc x.host (mvSkip x.desc) (sideCount (dstSide x.desc)) then 0x0EE0 else St.OK) (sideCount (dstSide x.desc))))) ∧
  -- moveComplete whose source cannot be read
  (∀ (s : State) (m c : Nat) (x : MoveChan) (f : Status), isUp s = true → c < 32 → tget s.bmv.chans (32 * m + c) = some x →
     rdi s F.BMV_MOVER_STATE m = 0 → mvRemote s x.desc = false →
     srcFault s x.desc (mvSkip x.desc) (sideCount (dstSide x.desc)) = some f →
     exec (.moveComplete m c) s = .next (settle s (stopMover s m f []))) ∧
  -- moverReadFault
  (∀ (s : State) (m : Nat) (st : BitVec 16) (done : List Nat), isUp s = true → m < 8 → rdi s F.BMV_MOVER_STATE m = 0 → busyChans s m ≠ [] →
     exec (.moverReadFault m st done) s = .next (stopMover s m st done) ∧
     rdi (stopMover s m st done) F.BMV_MOVER_STATE m = 1) ∧
  -- moverStopDrained
  (∀ (s : State) (m : Nat) (x : MoveStop), isUp s = true → tget s.bmv.stops m = some x →
     let s1 := endStopped s m x.status x.done
     let s2 := errorEvent s1 St.BMV_MOVER_STOP noUnit 0 0 (mkWord [(0, 3, m), (16, 16, x.status.toNat)]) (Config.eventDetail (2 * s1.out.length))
     let s3 := addSat (bump s2 F.BMV_STOP_CNT_COUNT) F.BMV_MOVER_STOPS m 1
     exec (.moverStopDrained m) s = .next (wri { s3 with bmv := { s3.bmv with stops := tdel s3.bmv.stops m } } F.BMV_MOVER_STATE m 0)) ∧
  -- moverWriteFault
  (∀ (s : State) (m c done : Nat) (st : BitVec 16) (x : MoveChan), isUp s = true → c < 32 → tget s.bmv.chans (32 * m + c) = some x →
     rdi s F.BMV_MOVER_STATE m = 0 → mvRemote s x.desc = false →
     mvSkip x.desc ≤ done → done ≤ sideCount (dstSide x.desc) →
     (st ≠ St.HPT_HOST_TIMEOUT → st ≠ St.HPT_HOST_DATA_ERR → exec (.moverWriteFault m c st done) s = .next (settle s
       (endMoveChan (writeElems s x.desc x.host (mvSkip x.desc) done) (32 * m + c) x st done))) ∧
     ((st = St.HPT_HOST_TIMEOUT ∨ st = St.HPT_HOST_DATA_ERR) → exec (.moverWriteFault m c st done) s = .next (settle s
       (faultCtx (writeElems s x.desc x.host (mvSkip x.desc) done) (flightCtx x.flight) st)))) ∧
  -- moverReset of a running mover
  (∀ (s : State) (m : Nat) (done : List Nat) (x : MoveStop), rd s F.SEC_PROT_LOCK_LOCK = 1 → m < 8 → rdi s F.BMV_MOVER_STATE m = 0 →
     tget (stopMover s m St.BMV_RESET done).bmv.stops m = some x →
     let s1 := endStopped (stopMover s m St.BMV_RESET done) m x.status x.done
     exec (.moverReset m done) s = .next (wri { s1 with bmv := { s1.bmv with stops := tdel s1.bmv.stops m } } F.BMV_MOVER_STATE m 0)) ∧
  -- moverReset of a mover that is stopping
  (∀ (s : State) (m : Nat) (done : List Nat), rd s F.SEC_PROT_LOCK_LOCK = 1 → m < 8 → rdi s F.BMV_MOVER_STATE m ≠ 0 →
     exec (.moverReset m done) s = .next { s with bmv := { s.bmv with stops := tmod s.bmv.stops m (fun x => { x with reset := true }) } })

/-- Map records spread, and a controller joins. The record of the next epoch is taken and changes the map, others are
fetched, and a join copies the map or fails. Rules: R395, R396, R397. It rests on the model's own choices in log
entries 72, 73, 132, 136. -/
def Obligations.MapSpread : Prop :=
  -- mapLogRecord of the next epoch
  (∀ (s : State) (src e : Nat) (ws : List Word) (es : List (Nat × List Word)), isUp s = true → recordOf ws = (e, es) → epoch s ≠ 0 →
     (epochDiff e (epoch s) = 1 → exec (.mapLogRecord src ws) s = .next (settle s (spreadRecord (advanceEpoch s e es) e es))) ∧
     (epochDiff e (epoch s) ≤ 0 → exec (.mapLogRecord src ws) s = .next (settle s s)) ∧
     (2 ≤ epochDiff e (epoch s) → exec (.mapLogRecord src ws) s = .next (settle s (fetchFrom s src e)))) ∧
  -- what a record changes
  (∀ (s : State) (e : Nat) (es : List (Nat × List Word)),
     (advanceEpoch s e es).dtm.map = es.foldl (fun m x => mapSet m x.1 x.2) s.dtm.map ∧
     tget (advanceEpoch s e es).dtm.log (e % 64) = some (e, es) ∧
     (advanceEpoch s e es).dtm.since = rd s F.GLB_MGMT_CYCLES_COUNT ∧
     (advanceEpoch s e es).dtm.homes = s.dtm.homes ∧ (advanceEpoch s e es).hbm = s.hbm ∧ (advanceEpoch s e es).kva = s.kva ∧
     (e < 2 ^ 32 → epoch (advanceEpoch s e es) = e)) ∧
  -- fetching what is missing
  (∀ (s : State) (node c : Nat),
     (epoch s ≠ 0 → epochDiff c (epoch s) ≤ 64 → fetchFrom s node c = send s node 0 .mapFetch [at' 0 32 (epoch s)]) ∧
     ((epoch s = 0 ∨ 64 < epochDiff c (epoch s)) →
       fetchFrom s node c = send { s with dtm := { s.dtm with copying := some node } } node 0 .mapFetch [0])) ∧
  -- surveyRound
  (∀ (s : State), isUp s = true → epoch s ≠ 0 → surveyPeer s ≠ self s →
     exec .surveyRound s = .next (send s (surveyPeer s) 0 .epoch [at' 0 32 (epoch s)])) ∧
  -- surveyEpoch
  (∀ (s : State) (src e : Nat), isUp s = true →
     (epochDiff e (epoch s) = 0 → exec (.surveyEpoch src e) s = .next (settle s s)) ∧
     (0 < epochDiff e (epoch s) → exec (.surveyEpoch src e) s = .next (settle s (fetchFrom s src e))) ∧
     (epochDiff e (epoch s) < 0 → -64 ≤ epochDiff e (epoch s) → exec (.surveyEpoch src e) s = .next (settle s (pushRecords 64 s src e))) ∧
     (epochDiff e (epoch s) < -64 → exec (.surveyEpoch src e) s = .next (settle s s))) ∧
  -- a record pushed
  (∀ (s : State) (node n c : Nat) (es : List (Nat × List Word)), 0 < epochDiff (epoch s) c →
     tget s.dtm.log ((c + 1) % 2 ^ 32 % 64) = some ((c + 1) % 2 ^ 32, es) →
     pushRecords (n + 1) s node c = pushRecords n (send s node 0 .mapRecord (logWords ((c + 1) % 2 ^ 32) es)) node ((c + 1) % 2 ^ 32)) ∧
  -- dtmJoin
  (∀ (s : State) (w : Word), rd s F.SEC_PROT_LOCK_LOCK = 1 → bit w 63 = true → epoch s = 0 → rd s F.DTM_CTL_BUSY = 0 →
     let s1 := wr (wr (wr (wr s F.DTM_CTL_SEED (bits w 39 20)) F.DTM_CTL_BASE_MIB (bits w 19 0)) F.DTM_CTL_BUSY 1) F.DTM_CTL_ERR 0
     (joinRegionOk s1 = true → exec (.dtmJoin w) s = .next (send { s1 with dtm := { s.dtm with copying := some (bits w 39 20) } }
       (bits w 39 20) 0 .mapFetch [0])) ∧
     (joinRegionOk s1 = false → exec (.dtmJoin w) s = .next (joinFail s1))) ∧
  -- dtmJoin of a controller in a composition
  (∀ (s : State) (w : Word), rd s F.SEC_PROT_LOCK_LOCK = 1 → bit w 63 = true → (epoch s ≠ 0 ∨ rd s F.DTM_CTL_BUSY = 1) →
     exec (.dtmJoin w) s = .next s) ∧
  -- joinCopyDone
  (∀ (s : State) (node e : Nat) (entries : List (Nat × List Word)) (log : List (List Word)), isUp s = true → s.dtm.copying = some node →
     let m := entries.foldl (fun m x => mapSet m (x.1 % 2 ^ 20) ((List.range 4).map (wordAt x.2))) []
     exec (.joinCopyDone e entries log true) s = .next (settle s (writeEvent (wr (wr { s with dtm := { s.dtm with
       copying := none, map := m, log := (log.map recordOf).foldl (fun l r => tset l (r.1 % 64) r) [],
       since := rd s F.GLB_MGMT_CYCLES_COUNT, holders := clearRevoked s.dtm.map m s.dtm.holders } } F.DTM_CTL_BUSY 0)
       F.DTM_EPOCH_EPOCH (e % 2 ^ 32)) .mapChange St.OK 0 0 (at' 0 32 e) 0))) ∧
  -- a join that fails
  (∀ (s : State) (node e : Nat) (entries : List (Nat × List Word)) (log : List (List Word)), isUp s = true → s.dtm.copying = some node →
     exec .joinTimeout s = .next (joinFail s) ∧
     exec (.joinCopyDone e entries log false) s = .next (settle s (joinFail s)) ∧
     (rd s F.DTM_CTL_BUSY = 1 → joinFail s = openEvent (wr (wr { s with dtm := { s.dtm with copying := none } } F.DTM_CTL_BUSY 0) F.DTM_CTL_ERR 1)
       .error St.DTM_JOIN_FAIL noUnit 0 0))

/-- Leases are renewed, lapse and expire. What a holder and a home do at a renewal, at its answer and when it does not
come. Rules: R405, R411, R412. It rests on the model's own choices in log entries 73, 74, 75, 136. -/
def Obligations.LeasesAndHolders : Prop :=
  -- renewTimer
  (∀ (s : State), isUp s = true → epoch s ≠ 0 →
     exec .renewTimer s = .next ((homesNeeded s).foldl (fun s h => sendRenew s h (twinLossAt s h)) s)) ∧
  -- renew by a new holder, and with room
  (∀ (s : State) (e : Nat) (ws : List Word), isUp s = true → dtmBad ws = false → mKind ws = 1 → epochRule s e = none → isHome s = true →
     ((∀ h, tget s.dtm.holders (mNode ws) = some h → h.revoked = false) →
       (tget s.dtm.holders (mNode ws) = none → s.dtm.holders.length < 16384) →
       exec (.renew e ws) s = .next (settle s (sendAnswer (setHolder s (mNode ws) ⟨true, mLoss ws, false⟩) (mNode ws) (mSeq ws) 0 0 0 St.OK))) ∧
     (∀ h, tget s.dtm.holders (mNode ws) = some h → h.revoked = true →
       exec (.renew e ws) s = .next (settle s (sendAnswer s (mNode ws) (mSeq ws) 0 0 0 St.DTM_LEASE_REVOKED))) ∧
     (tget s.dtm.holders (mNode ws) = none → 16384 ≤ s.dtm.holders.length →
       exec (.renew e ws) s = .next (settle s (sendAnswer s (mNode ws) (mSeq ws) 0 0 0 St.DTM_HOME_FULL)))) ∧
  -- messages that a home refuses
  (∀ (s : State) (e : Nat) (ws : List Word), isUp s = true →
     (dtmBad ws = true → exec (.renew e ws) s = .next (settle s (sendAnswer s (mNode ws) (mSeq ws) (mReq ws) 0 0 St.DTM_BAD_MSG))) ∧
     (dtmBad ws = false → mKind ws = 1 → epochRule s e = some St.DTM_STALE_MAP → exec (.renew e ws) s = .next (settle s
       (sendAnswer (bump s F.DTM_STALE_CNT_COUNT) (mNode ws) (mSeq ws) (mReq ws) 0 0 St.DTM_STALE_MAP))) ∧
     (dtmBad ws = false → mKind ws = 1 → epochRule s e = some St.GLK_BUSY → exec (.renew e ws) s = .next (settle s
       (sendAnswer (fetchFrom s (mNode ws) e) (mNode ws) (mSeq ws) (mReq ws) 0 0 St.GLK_BUSY))) ∧
     (dtmBad ws = false → mKind ws = 1 → epochRule s e = none → isHome s = false → exec (.renew e ws) s = .next (settle s
       (sendAnswer s (mNode ws) (mSeq ws) (mReq ws) 0 0 St.DTM_NOT_HOME)))) ∧
  -- leaseLapse
  (∀ (s : State) (home : Nat) (l : Lease), isUp s = true → tget s.dtm.leases home = some l → l.live = true →
     exec (.leaseLapse home) s = .next (settle s (bump { s with dtm := { s.dtm with
       leases := tset s.dtm.leases home { l with live := false } } } F.DTM_LAPSE_CNT_COUNT))) ∧
  -- holderExpiry with the twin alive, and of a pair
  (∀ (s : State) (n : Nat) (h : Holder), isUp s = true → tget s.dtm.holders n = some h → h.live = true → h.revoked = false →
     let s1 := { s with dtm := { s.dtm with holders := tset s.dtm.holders n { h with live := false } } }
     let o := tgetD s1.dtm.holders (eTwin (mapGet s.dtm.map n)) ⟨false, false, false⟩
     (o.live = true ∨ o.revoked = true → exec (.holderExpiry n) s = .next (settle s s1)) ∧
     (o.live = false → o.revoked = false → exec (.holderExpiry n) s = .next (settle s (losePair s1 n)))) ∧
  -- answer to a renewal
  (∀ (s : State) (src : Nat) (ws : List Word) (l : Lease), isUp s = true → dtmBad ws = false → mKind ws = 4 → mReq ws = 0 →
     tget s.dtm.claims src = none → exposed s = false → tget s.dtm.leases src = some l →
     l.asked = some (mSeq ws) → mSt ws = St.OK →
     exec (.answer src ws) s = .next (settle s (flushReports { s with dtm := { s.dtm with leases := tset s.dtm.leases src ⟨true, none⟩ } })))

/-- Queries for an owner, claims and the copy of a bucket. What the answer to a query does, when a claim is sent again
and what a home does with it. Rules: R404, R407, R408, R409, R412. It rests on the model's own choices in log entries
73, 74, 80, 136. -/
def Obligations.QueriesAndClaims : Prop :=
  -- query
  (∀ (s : State) (e : Nat) (ws : List Word), isUp s = true → dtmBad ws = false → mKind ws = 2 → epochRule s e = none →
     actsAs s (homeOf s.dtm.map (mReq ws)) = true →
     (recordPrepared s (mReq ws) = true → exec (.query e ws) s = .next (settle s { s with dtm := { s.dtm with
       held := s.dtm.held ++ [⟨mNode ws, mSeq ws, mReq ws⟩] } })) ∧
     (∀ h, recordPrepared s (mReq ws) = false → tget s.dtm.homes (mReq ws) = some h → exec (.query e ws) s = .next (settle s
       (sendAnswer (bump s F.DTM_QUERY_CNT_COUNT) (mNode ws) (mSeq ws) (mReq ws) h.owner h.epoch St.OK))) ∧
     (recordPrepared s (mReq ws) = false → tget s.dtm.homes (mReq ws) = none → exec (.query e ws) s = .next (settle s
       (sendAnswer (bump s F.DTM_QUERY_CNT_COUNT) (mNode ws) (mSeq ws) (mReq ws) 0 0 St.HPT_REQ_UNKNOWN)))) ∧
  -- queryTimeout
  (∀ (s : State) (req : Nat), isUp s = true → req ∈ s.dtm.queries → exec (.queryTimeout req) s = .next (askHome s req)) ∧
  -- answer that names another owner, or none
  (∀ (s : State) (src : Nat) (ws : List Word), isUp s = true → dtmBad ws = false → mKind ws = 4 → mReq ws ≠ 0 → mReq ws ∈ s.dtm.queries →
     let done := { s with dtm := { s.dtm with queries := s.dtm.queries.filter (· != mReq ws) } }
     (mSt ws = St.HPT_REQ_UNKNOWN → exec (.answer src ws) s = .next (settle s (stopServing done (mReq ws)))) ∧
     (mSt ws = St.OK → mOwner ws ≠ ownGroup s → s.con.both = false → role s ≠ 3 →
       exec (.answer src ws) s = .next (settle s (stopServing done (mReq ws)))) ∧
     (mSt ws = St.DTM_NOT_HOME → exec (.answer src ws) s = .next (settle s
       (askHome (send s src 0 .mapFetch [at' 0 32 (epoch s)]) (mReq ws))))) ∧
  -- answer that confirms the owner
  (∀ (s : State) (src : Nat) (ws : List Word), isUp s = true → dtmBad ws = false → mKind ws = 4 → mReq ws ≠ 0 → mReq ws ∈ s.dtm.queries →
     mSt ws = St.OK → mOwner ws = ownGroup s →
     let s1 := localTake { s with dtm := { s.dtm with queries := s.dtm.queries.filter (· != mReq ws) } } [⟨0, rootObj (mReq ws), .putLease (mReq ws) (mEpoch ws)⟩]
     leaseLive s1 (mReq ws) = true →
     exec (.answer src ws) s = .next (settle s (modReq s1 (mReq ws) (fun r => { r with doubt := false })))) ∧
  -- claim
  (∀ (s : State) (e : Nat) (ws : List Word), isUp s = true → dtmBad ws = false → mKind ws = 3 → epochRule s e = none → isHome s = true →
     let x := mSubject ws
     let h := tgetD s.dtm.holders x ⟨false, false, false⟩
     let mine := s.dtm.homes.filter (fun e => e.2.owner == eGroup (mapGet s.dtm.map x) && e.2.owner != 0xFFFF)
     ((eTwin (mapGet s.dtm.map (mNode ws)) ≠ x ∨ eState (mapGet s.dtm.map (mNode ws)) = 0 ∨ h.twinLoss = true) →
       exec (.claim e ws) s = .next (settle s (sendAnswer s (mNode ws) (mSeq ws) 0 0 0 St.DTM_CLAIM_REFUSED))) ∧
     (eTwin (mapGet s.dtm.map (mNode ws)) = x → eState (mapGet s.dtm.map (mNode ws)) ≠ 0 → h.twinLoss = false →
       (mine = [] → exec (.claim e ws) s = .next (settle s (sendAnswer (setHolder s x { h with revoked := true }) (mNode ws) (mSeq ws) 0 0 0 St.HPT_REQ_UNKNOWN))) ∧
       (mine ≠ [] → exec (.claim e ws) s = .next (settle s (confirmTakes
         (sendAnswer (setHolder s x { h with revoked := true }) (mNode ws) (mSeq ws) 0 0 0 St.OK) (mNode ws) (mSeq ws) mine))))) ∧
  -- claimResend
  (∀ (s : State) (home seq : Nat), isUp s = true → tget s.dtm.claims home = some seq →
     exec (.claimResend home seq) s = .next (sendClaims { s with dtm := { s.dtm with claims := tdel s.dtm.claims home } } ((twin s).getD 0) [home])) ∧
  -- bucketCopy
  (∀ (s : State) (b : Nat), isUp s = true → b < 4096 → bMoving (mapGet s.dtm.map (bucketBase + b)) = true →
     actsAs s (bucketHome s.dtm.map b) = true →
     let e := mapGet s.dtm.map (bucketBase + b)
     let recs := s.dtm.homes.filter (fun r => bucketOf r.1 == b)
     exec (.bucketCopy b) s = .next (settle s ((chunks 64 recs.length recs).foldl (fun s c =>
       startTake s ⟨[self s, bNext e], 0, epoch s, c.map (fun r => ⟨1, ⟨kRegion, 3, r.1⟩, .putHome r.1 r.2⟩)⟩ (.bucket b) .block 15) s)))

/-- A Traverse opens: the source asks, the destination accepts or refuses. Which group a try goes to, what it is sent,
and what the members of the destination answer. Rules: R416, R419, R430, R431, R432. It rests on the model's own
choices in log entries 30, 31, 62, 65, 67. -/
def Obligations.TraverseOpening : Prop :=
  -- traverseOpen of a handover, a prefill's end or an automatic park
  (∀ (s : State) (tr : TraverseTrigger) (r : Req) (root : Root), isUp s = true → reqOf s (triggerReq tr) = some r → leadsFor s (triggerReq tr) = true →
     triggerFits r tr = true → (∀ q d o f, tr ≠ .park q d o f) → travOf s (triggerReq tr) = none → thas s.kva.reshoots (triggerReq tr) = false →
     tget s.kva.roots (triggerReq tr) = some root →
     (travLed s < 256 → exec (.traverseOpen tr) s = .next (settle s (tryDest (modReq s (triggerReq tr) (fun q => { q with phase := .traversing }))
       (triggerReq tr) r { freshTrav (transitWords (triggerReq tr) r root (groupOf s (triggerReq tr)) 0 (planFor r tr).1 (planFor r tr).2
         (treeTokens s (triggerReq tr))) with trigger := some tr }))) ∧
     (256 ≤ travLed s → tr ∉ s.trv.waiting → exec (.traverseOpen tr) s = .next (settle s { s with trv := { s.trv with
       waiting := s.trv.waiting ++ [tr] } }))) ∧
  -- traverseOpen of a park
  (∀ (s : State) (req dst origin flight : Nat) (r : Req) (root : Root), isUp s = true → reqOf s req = some r → leadsFor s req = true →
     thas s.kva.reshoots req = false → travLed s < 256 → tget s.kva.roots req = some root →
     (parkCheck s req r dst = St.OK → exec (.traverseOpen (.park req dst origin flight)) s = .next (settle s
       (beginTraverse s req r (.park req dst origin flight)))) ∧
     (parkCheck s req r dst ≠ St.OK → exec (.traverseOpen (.park req dst origin flight)) s = .next (settle s
       (answerPark s origin flight (parkCheck s req r dst) 0)))) ∧
  -- the group that a try goes to
  (∀ (s : State) (req g : Nat) (r : Req) (t : Trav) (tr : TraverseTrigger), t.trigger = some tr →
     (fixedDest r tr = some g → t.tried = 0 → tryDest s req r t = openTo s req t g) ∧
     (fixedDest r tr = some g → t.tried ≠ 0 → tryDest s req r t = stayHere s req t t.last) ∧
     (∀ rng : Nat × Nat, fixedDest r tr = none → destRange s r.model (parks tr) = some rng → t.tried < rng.2 → role s ≠ 4 →
       tryDest s req r t = openTo s req t (rng.1 + (crc32c (natBytes 6 req) / 4096 + t.tried) % rng.2)) ∧
     (∀ rng : Nat × Nat, fixedDest r tr = none → destRange s r.model (parks tr) = some rng → rng.2 ≤ t.tried →
       tryDest s req r t = stayHere s req t t.last)) ∧
  -- openMsg that is refused
  (∀ (s : State) (hdr rc : List Word), isUp s = true → hdrBad hdr = false → transitBad rc = false → bits (wordAt hdr 0) 3 0 = 1 →
     leads s (tDst rc) = true → eGroup (mapGet s.dtm.map (hNode hdr)) ≠ tDst rc → openCheck s (hReq hdr) rc ≠ St.OK →
     exec (.openMsg hdr rc) s = .next (settle s (sendTrv s (hNode hdr) 2 (openCheck s (hReq hdr) rc) (hSeq hdr) (hReq hdr) (tEpoch rc)))) ∧
  -- openMsg that is accepted
  (∀ (s : State) (hdr rc : List Word), isUp s = true → hdrBad hdr = false → transitBad rc = false → bits (wordAt hdr 0) 3 0 = 1 →
     leads s (tDst rc) = true → eGroup (mapGet s.dtm.map (hNode hdr)) ≠ tDst rc → openCheck s (hReq hdr) rc = St.OK →
     travOf s (hReq hdr) = none → travLed s < 256 → planOf rc ≠ 3 →
     exec (.openMsg hdr rc) s = .next (settle s (joinTransit (((servers s (tDst rc)).filter (· != self s)).foldl (fun s n =>
       send s n 0 .trv (trvHdr s 1 0 St.OK 0 (hReq hdr) 0 (tEpoch rc) ++ rc))
       (sendTrv (recordTransit s (hReq hdr) rc) (hNode hdr) 2 St.OK (hSeq hdr) (hReq hdr) (tEpoch rc))) (hReq hdr) rc true))) ∧
  -- openMsg at a member of the destination
  (∀ (s : State) (hdr rc : List Word), isUp s = true → hdrBad hdr = false → transitBad rc = false → bits (wordAt hdr 0) 3 0 = 1 →
     leads s (tDst rc) = false → tDst rc = ownGroup s → leaderOf s.dtm.map (ownGroup s) = some (hNode hdr) →
     exec (.openMsg hdr rc) s = .next (settle s (joinTransit s (hReq hdr) rc false))) ∧
  -- a TRV message that breaks its layout
  (∀ (s : State) (hdr : List Word), isUp s = true → hdrBad hdr = true →
     exec (.accept hdr) s = .next (settle s (openEvent s .error St.TRV_BAD_MSG noUnit 0 0)) ∧
     exec (.doneMsg hdr) s = .next (settle s (openEvent s .error St.TRV_BAD_MSG noUnit 0 0)) ∧
     exec (.owned hdr) s = .next (settle s (openEvent s .error St.TRV_BAD_MSG noUnit 0 0)) ∧
     exec (.release hdr) s = .next (settle s (openEvent s .error St.TRV_BAD_MSG noUnit 0 0)) ∧
     exec (.abandon hdr) s = .next (settle s (openEvent s .error St.TRV_BAD_MSG noUnit 0 0))) ∧
  -- accept
  (∀ (s : State) (hdr : List Word) (t : Trav), isUp s = true → hdrBad hdr = false → bits (wordAt hdr 0) 3 0 = 2 →
     travOf s (hReq hdr) = some t → t.src = .opening → tEpoch t.words = hEp hdr →
     (hSt hdr = St.OK → planOf t.words ≠ 3 → exec (.accept hdr) s = .next (settle s
       (sendCounts (setTrav s (hReq hdr) { t with src := .running }) (hReq hdr) (tModel t.words) (tDst t.words)))) ∧
     (hSt hdr = St.OK → planOf t.words = 3 → exec (.accept hdr) s = .next (settle s (setTrav s (hReq hdr) { t with src := .running }))) ∧
     (hSt hdr ≠ St.OK → exec (.accept hdr) s = .next (settle s (abandonTrav s (hReq hdr) (hSt hdr))))) ∧
  -- openTimeout and traverseDestRetry
  (∀ (s : State) (req : Nat) (t : Trav) (r : Req), isUp s = true → travOf s req = some t →
     (t.src = .opening → exec (.openTimeout req) s = .next (settle s (openTo s req t (tDst t.words)))) ∧
     (t.src = .waiting → reqOf s req = some r → exec (.traverseDestRetry req) s = .next (settle s (tryDest s req r { t with tried := 0 }))))

/-- Pages move in legs. What a member of the destination asks for, what the source answers, what commits a leg and what
fails it. Rules: R423, R426, R428. It rests on the model's own choices in log entries 31, 64, 67, 68. -/
def Obligations.TraverseLegs : Prop :=
  -- legReserveRetry
  (∀ (s : State) (req : Nat) (t : Trav), isUp s = true → travOf s req = some t → t.member = true →
     exec (.legReserveRetry req) s = .next (settle s (checkDone (issueLegs ((wants s req t).length + 1) s req) req))) ∧
  -- legReserveStall
  (∀ (s : State) (req n : Nat) (t : Trav), isUp s = true → travOf s req = some t → t.member = true → wants s req t ≠ [] →
     leaderOf s.dtm.map (tSrc t.words) = some n →
     exec (.legReserveStall req) s = .next (settle s (sendTrv s n 8 St.TRV_NO_FRAMES 0 req (tEpoch t.words)))) ∧
  -- legReq for pages not held here
  (∀ (s : State) (hdr es : List Word) (flash : List (Option (List Byte))), isUp s = true → hdrBad hdr = false → bits (wordAt hdr 0) 3 0 = 3 →
     hNp hdr ≤ 64 → (List.range (es.length / 2)).any (fun i => bits (wordAt es (2 * i + 1)) 63 24 != 0) = false →
     ((thas s.kva.roots (hReq hdr) || thas s.con.mir.roots (hReq hdr)) = false ∨
       (legPages s (hReq hdr) (hLh hdr) (es.take (2 * hNp hdr)) flash).all (fun p => heldHere s (hLh hdr) (pageIdx p.2.1 % 2 ^ 23)) = false) →
     exec (.legReq hdr es flash) s = .next (settle s (send s (hNode hdr) 3 .trv
       (trvHdr s 4 0 St.TRV_NOT_SOURCE (hSeq hdr) (hReq hdr) (hLh hdr) (hEp hdr))))) ∧
  -- legReq that is answered
  (∀ (s : State) (hdr es : List Word) (flash : List (Option (List Byte))), isUp s = true → hdrBad hdr = false → bits (wordAt hdr 0) 3 0 = 3 →
     hNp hdr ≤ 64 → (List.range (es.length / 2)).any (fun i => bits (wordAt es (2 * i + 1)) 63 24 != 0) = false →
     (thas s.kva.roots (hReq hdr) || thas s.con.mir.roots (hReq hdr)) = true → hReq hdr ∈ s.trv.pins →
     let ps := legPages s (hReq hdr) (hLh hdr) (es.take (2 * hNp hdr)) flash
     ps.all (fun p => heldHere s (hLh hdr) (pageIdx p.2.1 % 2 ^ 23)) = true → ps.any (fun p => p.2.2.1.state == 0) = false →
     let sent := ps.map (fun p => (p.1, p.2.2.1, pageBytes s p.2.2.1 p.2.2.2))
     let s1 := sendLegData s (hNode hdr) (rd s F.TRV_CFG_CODE == 1 && !sent.any (fun p => p.2.1.kv4))
       (sent.filterMap (fun p => p.2.2.map (fun b => (p.1, b.1, b.2))))
     exec (.legReq hdr es flash) s = .next (settle s (send s1 (hNode hdr) 3 .trv
       (trvHdr s1 4 sent.length St.OK (hSeq hdr) (hReq hdr) (hLh hdr) (hEp hdr) ++ sent.map (fun p => replyEntry p.2.1 p.2.2.isSome))))) ∧
  -- legReply that commits
  (∀ (s : State) (hdr es : List Word) (t : Trav) (l : Leg), isUp s = true → hdrBad hdr = false → bits (wordAt hdr 0) 3 0 = 4 →
     es.any (fun w => bits w 63 35 != 0 || !([1, 3, 4].contains (bits w 18 16))) = false →
     travOf s (hReq hdr) = some t → t.legs.find? (fun l => l.seq == hSeq hdr) = some l → hSt hdr = St.OK →
     let acts := legActs s (hReq hdr) t l es
     let r := runLocal s .block .plain (acts.flatMap (fun a => a.2))
     let used := (acts.filter (fun a => !a.2.isEmpty && a.1 != 0)).map (fun a => a.1)
     r.2.committed = true →
     exec (.legReply hdr es []) s = .next (settle s (runLegs (bump (setTrav r.1 (hReq hdr) { t with
       legs := t.legs.filter (fun x => x.seq != l.seq), reserved := t.reserved ++ l.frames.filter (fun f => !used.contains f) })
       F.TRV_LEG_CNT_COUNT) (hReq hdr)))) ∧
  -- legReply of a refused or damaged leg
  (∀ (s : State) (hdr es : List Word) (coded : List Byte) (t : Trav) (l : Leg), isUp s = true → hdrBad hdr = false → bits (wordAt hdr 0) 3 0 = 4 →
     es.any (fun w => bits w 63 35 != 0 || !([1, 3, 4].contains (bits w 18 16))) = false →
     travOf s (hReq hdr) = some t → t.legs.find? (fun l => l.seq == hSeq hdr) = some l →
     (hSt hdr ≠ St.OK → exec (.legReply hdr es coded) s = .next (settle s (runLegs (setTrav s (hReq hdr) { t with
       legs := t.legs.filter (fun x => x.seq != l.seq), reserved := t.reserved ++ l.frames }) (hReq hdr)))) ∧
     (hSt hdr = St.OK → coded ≠ [] →
       decodeLeg s (travClass s t.words) ((l.pages.zipIdx.filter (fun p => bits (wordAt es p.2) 18 16 == 1)).map (fun p => l.frames.getD p.2 0)) coded = none →
       exec (.legReply hdr es coded) s = .next (settle s (sendLegReq s (hReq hdr) t l)))) ∧
  -- legTimeout
  (∀ (s : State) (req seq : Nat) (t : Trav) (l : Leg), isUp s = true → travOf s req = some t → t.legs.find? (fun l => l.seq == seq) = some l →
     exec (.legTimeout req seq) s = .next (settle s (sendLegReq (setTrav s req { t with legs := t.legs.map (fun x =>
       if x.seq = seq then { l with late := !l.late } else x) }) req t { l with late := !l.late }))) ∧
  -- countEntry
  (∀ (s : State) (req slot : Nat) (t : Trav), isUp s = true → travOf s req = some t → slot ∉ t.counts →
     exec (.countEntry req slot [] true) s = .next (settle s (checkDone (setTrav s req { t with counts := t.counts ++ [slot] }) req)) ∧
     (∀ w, let first := sliceFirst (modelVocab s (tModel t.words)) (groupSize s) (ownSlot s)
       let r := addCount (tgetD s.smp.counts req []) (bits w 19 0 - first) (bits w 47 32)
       first ≤ bits w 19 0 → bits w 19 0 < first + sliceLen (modelVocab s (tModel t.words)) (groupSize s) (ownSlot s) →
       r.2 = false → exec (.countEntry req slot [w] false) s = .next (settle s { s with smp := { s.smp with counts := tset s.smp.counts req r.1 } })))

/-- A Traverse ends with its closing take, or is abandoned. What the end of the last leg, the closing take, the owner and
the release do on both sides. Rules: R418, R430, R431, R432. It rests on the model's own choices in log entries 63,
66. -/
def Obligations.TraverseEnd : Prop :=
  -- doneMsg
  (∀ (s : State) (hdr : List Word) (t : Trav), isUp s = true → hdrBad hdr = false → bits (wordAt hdr 0) 3 0 = 5 →
     travOf s (hReq hdr) = some t → tEpoch t.words = hEp hdr → t.dst = true → hNode hdr ∉ t.done →
     let t1 := { t with done := t.done ++ [hNode hdr] }
     (t.closing = false → (servers s (tDst t.words)).all (fun n => t1.done.contains n) = true →
       exec (.doneMsg hdr) s = .next (settle s (buildClosing s (hReq hdr) t1))) ∧
     ((servers s (tDst t.words)).all (fun n => t1.done.contains n) = false →
       exec (.doneMsg hdr) s = .next (settle s (setTrav s (hReq hdr) t1)))) ∧
  -- the closing take
  (∀ (s : State) (req src : Nat) (t : Trav), leaderOf s.dtm.map (tSrc t.words) = some src →
     buildClosing s req t = giveSlate (setTrav s req { t with closing := true }) ⟨[homeOf s.dtm.map req, self s, src], 0, epoch s,
       [⟨0, ⟨kHome, 0, req⟩, .owner (tEpoch t.words) (tSrc t.words) (tEpoch t.words + 1) (tDst t.words)⟩,
        ⟨1, rootObj req, .putLease req (tEpoch t.words + 1)⟩, ⟨2, rootObj req, .putLease req 0⟩]⟩ (.closing req)) ∧
  -- owned
  (∀ (s : State) (hdr : List Word) (t : Trav), isUp s = true → hdrBad hdr = false → bits (wordAt hdr 0) 3 0 = 6 →
     travOf s (hReq hdr) = some t →
     (hEp hdr = (tEpoch t.words + 1) % 2 ^ 32 → exec (.owned hdr) s = .next (settle s (takeOwned s (hReq hdr) (hEp hdr)))) ∧
     (hEp hdr ≠ (tEpoch t.words + 1) % 2 ^ 32 → exec (.owned hdr) s = .next (settle s s))) ∧
  -- release
  (∀ (s : State) (hdr : List Word) (root : Root), isUp s = true → hdrBad hdr = false → bits (wordAt hdr 0) 3 0 = 7 →
     tget s.kva.roots (hReq hdr) = some root →
     let dropReq (t : State) : State := { t with sch := { t.sch with reqs := tdel t.sch.reqs (hReq hdr) } }
     (hEp hdr ≠ 0 → role s = 3 → root.lease ≠ 0 → exec (.release hdr) s = .next (settle s
       (dropReq (localTake (unpin s (hReq hdr)) [⟨0, rootObj (hReq hdr), .putLease (hReq hdr) 0⟩])))) ∧
     (hEp hdr ≠ 0 → role s ≠ 3 → exec (.release hdr) s = .next (settle s
       (dropReq (releasePages (unpin s (hReq hdr)) (hReq hdr))))) ∧
     (hEp hdr = 0 → exec (.release hdr) s = .next (settle s (dropReq (releasePages (unpin (endTrav s (hReq hdr)) (hReq hdr)) (hReq hdr)))))) ∧
  -- abandon
  (∀ (s : State) (hdr : List Word) (t : Trav), isUp s = true → hdrBad hdr = false → bits (wordAt hdr 0) 3 0 = 8 →
     travOf s (hReq hdr) = some t → tEpoch t.words = hEp hdr →
     ((t.src = .running ∨ t.src = .opening) → votedClosing s (hReq hdr) = false → exec (.abandon hdr) s = .next (settle s
       (afterAbandon (unpin (setTrav (bump (sendAbandon s (hReq hdr) t (hSt hdr)) F.TRV_ABANDON_CNT_COUNT) (hReq hdr)
         { t with abandoned := true }) (hReq hdr)) (hReq hdr) t (hSt hdr)))) ∧
     ((t.src = .running ∨ t.src = .opening) → votedClosing s (hReq hdr) = true → exec (.abandon hdr) s = .next (settle s s)) ∧
     (t.src = .none → t.member = true → exec (.abandon hdr) s = .next (settle s (dropTransit s (hReq hdr) t)))) ∧
  -- autoPark
  (∀ (s : State) (req : Nat) (r : Req), isUp s = true → rd s F.TRV_CFG_AUTO_PARK_MS ≠ 0 → reqOf s req = some r → leadsFor s req = true →
     r.starved = true → r.phase = .decode → travOf s req = none →
     exec (.autoPark req) s = .next (settle s (parkNow s req r)) ∧
     (tget s.smp.results req = none → parkNow s req r = openTraverse (modReq (deliverEnd s r req r.pos [] false St.TRV_PARKED) req
       (fun q => { q with phase := .ended, cancel := [] })) (.auto req)))

/-- Beats and probes of a pair, and what a missing twin leads to. The beats sent are valid, a valid beat brings the pair
together, a missed one counts, and the third decides what the member becomes. Rules: R437, R438, R444, R446. It rests
on the model's own choices in log entries 76, 77, 78, 79, 83, 136. -/
def Obligations.BeatsAndProbes : Prop :=
  -- beatSend
  (∀ (s : State) (t : Nat), isUp s = true → liveTwin s = some t → conState s ≠ 0 → s.con.yielding = 0 → rd s F.CON_STAT_SIDEBAND_OK = 1 →
     exec .beatSend s = .next (settle s { emit s (.message t 6 .beat [beatWord s]) with con := { s.con with beatSeq := (s.con.beatSeq + 1) % 2 ^ 16 } })) ∧
  -- the beat that is sent is valid
  (∀ (s : State), beatValid (beatWord s) = true) ∧
  -- beat
  (∀ (s : State) (w : Word), isUp s = true → conState s ≠ 0 → beatValid w = true → rd s F.CON_STAT_SIDEBAND_OK = 1 →
     (s.con.beatSeq + 2 * 2 ^ 16 - 1 - bits w 31 16) % 2 ^ 16 < 3 →
     exec (.beat true w) s = .next (settle s (flushReports (seeTwin { s with con := { s.con with
       seen := bits w 15 0, misses := 0, lags := 0, twinState := bits w 34 32, held := false, good := 0 } } s.con.twinState s.con.misses w)))) ∧
  -- beat that is not valid
  (∀ (s : State) (w : Word), isUp s = true → conState s ≠ 0 → beatValid w = false →
     exec (.beat true w) s = .next (settle s { s with con := { s.con with good := 0 } }) ∧
     exec (.beat false w) s = .next (settle s s)) ∧
  -- what a beat brings about
  (∀ (s : State) (before misses : Nat) (w : Word), bit w 35 = false →
     (conState s = 1 → bits w 34 32 = 3 → seeTwin s before misses w = detach s) ∧
     (conState s = 1 → bits w 34 32 = 1 → seeTwin s before misses w = s) ∧
     ((conState s = 2 ∨ conState s = 3) → bits w 34 32 = 5 → rd s F.CON_CTL_AUTO_REINT = 1 → seeTwin s before misses w = startSupply s)) ∧
  -- a yield's beat hands over
  (∀ (s : State) (before misses : Nat) (w : Word), bit w 35 = true → conState s = 1 → seeTwin s before misses w = takeover s true) ∧
  -- beatMiss
  (∀ (s : State) (t : Nat), isUp s = true → conState s ≠ 0 → liveTwin s = some t →
     let s1 := bump { s with con := { s.con with misses := s.con.misses + 1, good := 0, held := s.con.held || decide (2 ≤ s.con.misses + 1) } }
       F.CON_MISS_CNT_COUNT
     (s.con.misses + 1 ≠ 3 → exec .beatMiss s = .next (settle s s1)) ∧
     (s.con.misses = 2 → conState s = 1 → s.con.yielding = 0 → exec .beatMiss s = .next (settle s (probe s1)))) ∧
  -- mirrorAckTimeout
  (∀ (s : State), isUp s = true → s.con.unacked ≠ [] → conState s = 1 → s.con.yielding = 0 →
     exec .mirrorAckTimeout s = .next (settle s (probe { s with con := { s.con with overdue := true } }))) ∧
  -- probeTimeout
  (∀ (s : State), isUp s = true → s.con.probing = true →
     (conState s = 1 → exec .probeTimeout s = .next (settle s (takeover s false))) ∧
     (conState s ≠ 1 → exec .probeTimeout s = .next (settle s { s with con := { s.con with probing := false } }))) ∧
  -- probeReply
  (∀ (s : State) (w : Word), isUp s = true → s.con.probing = true →
     let s1 := { s with con := { s.con with probing := false } }
     (conState s = 1 → exec (.probeReply .echo) s = .next (settle s (openEvent (wr { s1 with con := { s1.con with misses := 0, good := 0 } }
       F.CON_STAT_SIDEBAND_OK 0) .error St.CON_SIDEBAND_FAIL noUnit 0 0))) ∧
     (conState s = 1 → exec (.probeReply (.status w)) s = .next (settle s (detach s1))) ∧
     (conState s = 2 → bits w 63 61 = 2 → exec (.probeReply (.status w)) s = .next (settle s (twinLossRenew (enterCon s1 6 [St.CON_SPLIT])))))

/-- Mirror records, and the twin is paired, yields and comes back. The record next in order is applied and acknowledged;
the commands of the pair move it between its states. Rules: R441, R452, R453, R456, R457, R458. It rests on the
model's own choices in log entries 81, 82, 84, 85, 86, 132. -/
def Obligations.MirrorAndPair : Prop :=
  -- mirrorRecord of a reserved kind or layout
  (∀ (s : State) (hdr : List Word) (body : MirrorBody) (t : Nat), isUp s = true → twin s = some t → conState s ≠ 0 → conState s ≠ 2 → conState s ≠ 6 →
     (bits (wordAt hdr 0) 63 56 ≠ 0 ∨ bits (wordAt hdr 1) 63 12 ≠ 0 ∨ 4080 < bits (wordAt hdr 1) 11 0 ∨ bits (wordAt hdr 0) 55 48 ≠ kindOf body ∨
       bits (wordAt hdr 0) 55 48 = 0 ∨ 13 ≤ bits (wordAt hdr 0) 55 48) →
     let s1 := respond s t 4 (bits (wordAt hdr 2) 31 0) (mkWord [(0, 16, St.CON_BAD_RECORD.toNat), (16, 48, (2 ^ 48 + s.con.applied - 1) % 2 ^ 48)]) []
     exec (.mirrorRecord hdr body) s = .next (settle s (if conState s = 1 then detach s1 else s1))) ∧
  -- mirrorRecord that is next in order
  (∀ (s s2 : State) (hdr : List Word) (body : MirrorBody) (t : Nat), isUp s = true → twin s = some t → conState s ≠ 0 → conState s ≠ 2 → conState s ≠ 6 →
     bits (wordAt hdr 0) 63 56 = 0 → bits (wordAt hdr 1) 63 12 = 0 → bits (wordAt hdr 1) 11 0 ≤ 4080 → bits (wordAt hdr 0) 55 48 = kindOf body →
     0 < kindOf body → kindOf body < 13 → bits (wordAt hdr 0) 47 0 = s.con.applied → s.con.early = [] →
     let s1 := { s with con := { s.con with early := [⟨s.con.applied, body⟩] } }
     applyMirror s1 body = some s2 → auditBad s1 body = false →
     let s3 := { s2 with
       con := { s2.con with applied := (s.con.applied + 1) % 2 ^ 48, early := s2.con.early.filter (fun x => x.mseq != s.con.applied) }
       tak := { s2.tak with mseq := tset s2.tak.mseq ((twin s2).getD 0) (s.con.applied % 2 ^ 32) } }
     exec (.mirrorRecord hdr body) s = .next (settle s (respond s3 t 4 (bits (wordAt hdr 2) 31 0)
       (mkWord [(0, 16, 0), (16, 48, (2 ^ 48 + s3.con.applied - 1) % 2 ^ 48)]) []))) ∧
  -- rows of a mirrored page
  (∀ (s : State) (p : PageKey) (off soff : Nat) (bs sc : List Byte),
     let e := tgetD s.con.mir.ptes (keyOfPage p) pteNone
     (e.state = 1 → applyMirror s (.rows p off bs soff sc) = some (writeMem (writeMem s (frameAddr s e.frame + off) bs) (scaleAddr s e.frame + soff) sc)) ∧
     (e.state ≠ 1 → applyMirror s (.rows p off bs soff sc) = some s)) ∧
  -- a record sent while paired
  (∀ (s : State) (b : MirrorBody), s.con.waiting = none → conState s = 1 →
     mirrorOne s b = sendMirror { s with con := { s.con with mseq := (s.con.mseq + 1) % 2 ^ 48, unacked := s.con.unacked ++ [⟨s.con.mseq, b⟩] } }
       s.con.mseq b) ∧
  -- conEnable
  (∀ (s : State) (w : Word), rd s F.SEC_PROT_LOCK_LOCK = 1 →
     let s1 := wr s F.CON_CTL_AUTO_REINT (bits w 62 62)
     (bit w 63 = true → rd s F.CON_CTL_EN = 0 → conRegionsOk s = true → exec (.conEnable w) s = .next (settle s (conStart (wr s1 F.CON_CTL_EN 1)))) ∧
     (bit w 63 = true → rd s F.CON_CTL_EN = 0 → conRegionsOk s = false → exec (.conEnable w) s = .next (settle s s1)) ∧
     (bit w 63 = false → exec (.conEnable w) s = .next (settle s (flushReports (conStop (wr s1 F.CON_CTL_EN 0)))))) ∧
  -- yield
  (∀ (s : State), rd s F.SEC_PROT_LOCK_LOCK = 1 →
     (conBusy s = true → exec .yield s = .next (settle s (conStatus s St.CON_CMD_BUSY))) ∧
     (conBusy s = false → conState s ≠ 1 → exec .yield s = .next (settle s (conStatus s St.CON_NOT_PAIRED))) ∧
     (conBusy s = false → conState s = 1 → exec .yield s = .next (settle s { s with con := { s.con with yielding := 1 } }))) ∧
  -- reintegrate
  (∀ (s : State), rd s F.SEC_PROT_LOCK_LOCK = 1 → isUp s = true →
     (conBusy s = true → ∀ b, exec (.reintegrate b) s = .next (settle s (conStatus s St.CON_CMD_BUSY))) ∧
     (conBusy s = false → (conState s = 2 ∨ conState s = 3 ∨ conState s = 4) →
       exec (.reintegrate true) s = .next (settle s (conStatus (startBulk (startSupply s)) St.OK)) ∧
       exec (.reintegrate false) s = .next (settle s (conStatus (startSupply s) St.CON_CFG_MISMATCH)))) ∧
  -- reintBulkDone
  (∀ (s : State), isUp s = true → conState s = 4 → conPhase s = 2 →
     exec .reintBulkDone s = .next (settle s (replayPass (wr (wr s F.CON_STAT_PHASE 3) F.CON_BULK_PROG_DONE_GIB (rd s F.CON_BULK_PROG_TOTAL_GIB))))) ∧
  -- reintReplayPassDone
  (∀ (s : State) (t : Nat), isUp s = true → twin s = some t → conState s = 4 → 3 ≤ conPhase s → s.con.cutover = 0 →
     let left := sumNat (s.con.delta.map (fun r => 16 + bodyBytes r.body))
     (left < rd s F.CON_CFG_DRAIN_KIB * 1024 → exec .reintReplayPassDone s = .next (settle s (rejoinMark (wr s F.CON_STAT_PHASE 4) t))) ∧
     (rd s F.CON_CFG_DRAIN_KIB * 1024 ≤ left → exec .reintReplayPassDone s = .next (settle s (replayPass s)))) ∧
  -- auditTick
  (∀ (s : State) (f : Nat) (x : Frame), isUp s = true → conState s = 1 → rd s F.CON_CMP_CFG_EN = 1 →
     ((s.kva.frames.filter (fun f => f.2.page.isSome && !f.2.mirror)).find? (fun e => decide (s.con.auditAt ≤ e.1))) = some (f, x) →
     exec .auditTick s = .next (settle s (mirrorRec { s with con := { s.con with auditAt := f + 1 } }
       (.audit (pageOfKey (x.page.getD 0)) (BitVec.ofNat 32 (frameCrc s (pteOf s (x.page.getD 0)))))))) ∧
  -- compareProbe
  (∀ (s : State) (crc : BitVec 32), isUp s = true → conState s = 1 → rd s F.CON_CMP_CFG_EN = 1 →
     (∀ st, probeCheck s = some st → exec (.compareProbe crc) s = .next (settle s (conStatus s st))) ∧
     (probeCheck s = none → crc.toNat = rd s F.CON_CMP_TENS1_EXPECT → exec (.compareProbe crc) s = .next (settle s s)) ∧
     (probeCheck s = none → crc.toNat ≠ rd s F.CON_CMP_TENS1_EXPECT → rd s F.CON_CMP_CFG_YIELD_ON_FAIL = 0 →
       exec (.compareProbe crc) s = .next (settle s (openEvent (bump s F.CON_CMP_FAIL_CNT_COUNT) .error St.CON_PROBE_FAIL noUnit 0 0))))

/-- Droops, clock rates, gating, HOLD and temperatures. What the clock and thermal events do to the rates, the counters
and the alerts. Rules: R466, R469, R470, R471, R536, R537, R539. It rests on the model's own choices in log entries
11, 102, 111, 114, 115, 121. -/
def Obligations.ClockStates : Prop :=
  -- droopTrip
  (∀ (s : State) (site : Nat), inReset s = false →
     exec (.droopTrip site) s = .next (clkShow (wr { bump s F.CLK_DROOP_CNT_COUNT with clk := { s.clk with
       droopSites := (site :: s.clk.droopSites).dedup } } F.CLK_STAT_DROOP 1))) ∧
  -- droopClear and droopRecovery
  (∀ (s : State), exec .droopClear s = .next { s with clk := { s.clk with droopSites := [] } } ∧
     (rd s F.CLK_STAT_DROOP = 1 → s.clk.droopSites = [] → exec .droopRecovery s = .next (clkShow (wr s F.CLK_STAT_DROOP 0)))) ∧
  -- the rate of CORE
  (∀ (s : State), rd (clkShow s) F.CLK_STAT_CORE_MHZ = (if rd s F.CLK_STAT_DROOP = 1 then 1050 else if trimOn s then rd s F.CLK_PWR_CFG_CAP_MHZ else 1400) % 2048 ∧
     rd (clkShow s) F.CLK_STAT_PSTATE = (if s.clk.hold then 3 else if trimOn s then 1 else if s.clk.gated = [] then 0 else 2)) ∧
  -- powerWindow
  (∀ (s : State) (w : Nat), inReset s = false →
     (rd s F.CLK_PWR_CFG_LIMIT_W < w → exec (.powerWindow w) s = .next (trimChange s { s with clk := { s.clk with trimPower := true } })) ∧
     (w * 100 < 95 * rd s F.CLK_PWR_CFG_LIMIT_W → exec (.powerWindow w) s = .next (trimChange s { s with clk := { s.clk with trimPower := false } })) ∧
     (95 * rd s F.CLK_PWR_CFG_LIMIT_W ≤ w * 100 → w ≤ rd s F.CLK_PWR_CFG_LIMIT_W → exec (.powerWindow w) s = .next s)) ∧
  -- an entry to TRIM is counted
  (∀ (s s1 : State), trimChange s s1 = clkShow (if trimOn s = false ∧ trimOn s1 = true then bump s1 F.CLK_TRIM_CNT_COUNT else s1)) ∧
  -- idleGate
  (∀ (s : State) (u : CoreUnit), isUp s = true → rd s F.CLK_IDLE_CFG_IDLE_US ≠ 0 → unitExists u = true → unitNeeded s u = false → u ∉ s.clk.gated →
     exec (.idleGate u) s = .next (clkShow { s with clk := { s.clk with gated := s.clk.gated ++ [u] } })) ∧
  -- hold
  (∀ (s : State), rd s F.SEC_PROT_LOCK_LOCK = 1 → s.clk.hold = false →
     (mayHold s = true → exec .hold s = .next (clkShow (modClk (flushMerge (stopPorts s)) (fun c => { c with hold := true })))) ∧
     (mayHold s = false → exec .hold s = .next (emit s (.status St.CLK_HOLD_REFUSED)))) ∧
  -- resume
  (∀ (s : State), rd s F.SEC_PROT_LOCK_LOCK = 1 →
     (s.clk.hold = false → exec .resume s = .next s) ∧
     (s.clk.hold = true → exec .resume s = .next (((List.range 60).filter (fun n => rdi s F.GLK_PORT_CTL_EN n == 1)).foldl
       (fun s n => enterTrain s n St.OK false) (clkShow { s with clk := { s.clk with hold := false } })))) ∧
  -- stackTempPoll, thermalTrip
  (∀ (s : State) (ts : List Nat),
     exec (.stackTempPoll ts) s = .next { s with mgt := { s.mgt with stackTemps := ts.take 8, fastRefresh := (List.range 8).filter (fun k => decide (85 < ts.getD k 0) || (s.mgt.fastRefresh.contains k && decide (82 ≤ ts.getD k 0))) } } ∧
     (s.mgt.trip = false → exec .thermalTrip s = .next (emits { s with mgt := { s.mgt with trip := true } } [.linksStop, .pin 1 false]))) ∧
  -- thermalAlert
  (∀ (s : State) (d k : List Nat), s.mgt.alert = false → alertDue s d k = true →
     let s1 := { s with mgt := { s.mgt with dieTemps := d.take 32, stackTemps := k.take 8, alert := true } }
     let s2 := emit (bump s1 F.MGT_THERM_STAT_ALERT_CNT) (.pin 0 false)
     exec (.thermalAlert d k) s = .next (trimChange s2 { s2 with clk := { s2.clk with trimThermal := true } })) ∧
  -- thermalAlertClear
  (∀ (s : State) (d k : List Nat), s.mgt.alert = true → alertOver s d k = true →
     let s1 := { s with mgt := { s.mgt with dieTemps := d.take 32, stackTemps := k.take 8, alert := false } }
     let s2 := emit s1 (.pin 0 true)
     exec (.thermalAlertClear d k) s = .next (trimChange s2 { s2 with clk := { s2.clk with trimThermal := false } }))

/-- Controller reset, power-on reset and rail faults. What each reset keeps and clears and what starts it. Rules: R472,
R473, R531, R534, R535. It rests on the model's own choices in log entries 102, 103, 104, 105, 106, 116. -/
def Obligations.Resets : Prop :=
  -- controllerReset
  (∀ (s : State) (w : Word), rd s F.SEC_PROT_LOCK_LOCK = 1 → bits w 15 8 = 0xC5 → bits w 1 0 = 1 → inReset s = false →
     let r := resetMachine s false 2 0
     exec (.controllerReset w) s = .next (trimChange r { r with clk := { r.clk with trimThermal := r.mgt.alert } })) ∧
  -- controllerReset without its key
  (∀ (s : State) (w : Word), rd s F.SEC_PROT_LOCK_LOCK = 1 → (bits w 15 8 ≠ 0xC5 ∨ bits w 1 0 ≠ 1) → exec (.controllerReset w) s = .next s) ∧
  -- crstFall and crstRelease
  (∀ (s : State),
     (inReset s = false → let r := resetMachine s false 1 0
       let t := trimChange r { r with clk := { r.clk with trimThermal := r.mgt.alert } }
       exec .crstFall s = .next { t with clk := { t.clk with crstLow := true } }) ∧
     exec .crstRelease s = .next { s with clk := { s.clk with crstLow := false } }) ∧
  -- controllerFault
  (∀ (s : State) (c : BitVec 16), inReset s = false → c ∈ faultCauses → s.clk.fault = some c →
     let r := resetMachine s false 3 c
     exec (.controllerFault c) s = .next (trimChange r { r with clk := { r.clk with trimThermal := r.mgt.alert } })) ∧
  -- porst, railFault and railRecovery
  (∀ (s : State) (r : Rail),
     exec .porst s = .next { resetMachine s true 0 0 with clk := { (resetMachine s true 0 0).clk with porstLow := true } } ∧
     exec (.railFault r) s = .next { resetMachine s true 0 0 with clk := { (resetMachine s true 0 0).clk with railsBad := true } } ∧
     exec .railRecovery s = .next { s with clk := { s.clk with railsBad := false } }) ∧
  -- porstRelease
  (∀ (s : State) (b : Bool) (a : BitVec 3), s.clk.porstLow = true →
     exec (.porstRelease b a 15) s = .next { s with
       clk := { s.clk with porstLow := false, busSel := b, addr := a }
       sec := { s.sec with cores := 4 } })

/-- HBM granules are checked and cleared, lost ranges fetched again, errors recorded. How CHECK and CLEAR begin, what the
reply of the twin does, and how a record is written. Rules: R476, R507, R511, R512. It rests on the model's own
choices in log entries 112, 113, 125. -/
def Obligations.GranuleCommands : Prop :=
  -- hbmCheck and hbmClear begin
  (∀ (s : State) (f n : Nat), rd s F.SEC_PROT_LOCK_LOCK = 1 → rd s F.CLK_HBM_CMD_STAT_BUSY = 0 → f + n + 1 ≤ granuleCount s →
     let s1 := wr (wr (wr s F.CLK_HBM_CMD_STAT_BUSY 1) F.CLK_HBM_CMD_STAT_DONE 0) F.CLK_HBM_CMD_STAT_STATUS 0
     let s2 (clear : Bool) : State := { s1 with clk := { s1.clk with hbm := some ⟨clear, f, f + n, none⟩ } }
     granuleCount s1 = granuleCount s ∧
     exec (.hbmClear f n) s = .next (s2 true) ∧
     (s.clk.contentsLost = true → exec (.hbmCheck f n) s = .next (hbmCmdFail (s2 false) f St.CLK_CHECK_MISMATCH)) ∧
     (s.clk.contentsLost = false → continuityUp (s2 false) = false → exec (.hbmCheck f n) s = .next (hbmCmdFail (s2 false) f St.CLK_NO_TWIN)) ∧
     (s.clk.contentsLost = false → continuityUp (s2 false) = true → exec (.hbmCheck f n) s = .next (checkNext (n + 2) (s2 false) ⟨false, f, f + n, none⟩))) ∧
  -- while one runs, and past the end of memory
  (∀ (s : State) (f n : Nat), rd s F.SEC_PROT_LOCK_LOCK = 1 →
     (rd s F.CLK_HBM_CMD_STAT_BUSY = 1 → exec (.hbmCheck f n) s = .next (wr s F.CLK_HBM_CMD_STAT_LOST 1) ∧
       exec (.hbmClear f n) s = .next (wr s F.CLK_HBM_CMD_STAT_LOST 1)) ∧
     (rd s F.CLK_HBM_CMD_STAT_BUSY = 0 → granuleCount s < f + n + 1 →
       let s1 := wr (wr (wr s F.CLK_HBM_CMD_STAT_BUSY 1) F.CLK_HBM_CMD_STAT_DONE 0) F.CLK_HBM_CMD_STAT_STATUS 0
       exec (.hbmCheck f n) s = .next (hbmCmdFail s1 f St.MEM_BAD_ADDR) ∧ exec (.hbmClear f n) s = .next (hbmCmdFail s1 f St.MEM_BAD_ADDR))) ∧
  -- hbmCheckReply
  (∀ (s : State) (c : HbmCmd) (crc : BitVec 32), s.clk.hbm = some c → c.clear = false →
     exec (.hbmCheckReply none) s = .next (hbmCmdFail s c.next St.CLK_NO_TWIN) ∧
     (crc = granuleCrc s c.next → exec (.hbmCheckReply (some crc)) s = .next (checkNext (c.last - c.next + 1) (trustGranule s c.next)
       { c with next := c.next + 1 })) ∧
     (crc ≠ granuleCrc s c.next → c.failed = none → exec (.hbmCheckReply (some crc)) s = .next (checkNext (c.last - c.next + 1) s
       { c with next := c.next + 1, failed := some (c.next, St.CLK_CHECK_MISMATCH) }))) ∧
  -- hbmCheckCrcRequest
  (∀ (s : State) (g : Nat), isUp s = true → g < granuleCount s → readRefusal s (g * 2 ^ 30) (min (2 ^ 30) (memTop s - g * 2 ^ 30)) = none →
     exec (.hbmCheckCrcRequest g) s = .next (emit s (.message (eTwin (ownEntry s)) 5 .check [at' 0 63 g, at' 0 32 (granuleCrc s g).toNat]))) ∧
  -- hbmClearDone
  (∀ (s : State) (c : HbmCmd), s.clk.hbm = some c → c.clear = true →
     exec .hbmClearDone s = .next (settle s (hbmCmdEnd (((List.range (c.last + 1 - c.next)).map (fun i => c.next + i)).foldl (fun s g =>
       trustGranule (zeroMem s (g * 2 ^ 30) (min (2 ^ 30) (memTop s - g * 2 ^ 30))) g) s) St.OK))) ∧
  -- refetchRangeData and refetchFail
  (∀ (s : State) (h off : Nat) (bytes : List Byte), isUp s = true → rangeAwaited s h off = true →
     (bytes.length = 4096 → exec (.refetchRangeData h off bytes true) s = .next (settle s (releaseDamaged (writeMem s off bytes)))) ∧
     (bytes.length = 4096 → exec (.refetchRangeData h off bytes false) s = .next (settle s (refetchFailed s h off))) ∧
     exec (.refetchFail h off) s = .next (refetchFailed s h off)) ∧
  -- errorRecordWrite
  (∀ (s : State) (r : RasRec), nextRecord s.ras.queue = some r →
     let s1 := { s with ras := { s.ras with queue := s.ras.queue.erase r ++ s.ras.overflow.take 1, overflow := s.ras.overflow.drop 1 } }
     exec .errorRecordWrite s = .next (bump { s1 with ras := { s1.ras with recs := tset s.ras.recs (s.ras.seq % 512) (recordWords r s.ras.seq s.ras.boots), seq := (s.ras.seq + 1) % 2 ^ 32, newest := some r } } F.RAS_REC_CNT_COUNT))

/-- Boot checks each image, and attestation answers in its order. BOOT_GO starts, a bad image stops and a good one goes
on, and SPDM requests are answered in their order only. Rules: R481, R482, R484, R494, R499. It rests on the model's
own choices in log entries 6, 117, 119, 137. -/
def Obligations.BootAndAttest : Prop :=
  -- bootGo
  (∀ (s : State), inReset s = false → (rd s F.SEC_BOOT_STAT_STAGE = 1 ∨ rd s F.SEC_BOOT_STAT_STAGE = 4) → 3 ≤ s.sec.cores →
     let s1 := wr (wr (wr s F.SEC_BOOT_STAT_STAGE 1) F.SEC_BOOT_STAT_IMAGE 3) F.SEC_BOOT_STAT_STATUS 0
     exec .bootGo s = .next (emit { s1 with sec := { s.sec with image := 0, imageAt := rd s F.SEC_BOOT_ADDR_BASE * 4096 } }
       (.hostRead (.shared none) (rd s F.SEC_BOOT_ADDR_BASE * 4096) 512))) ∧
  -- imageFetchDone of a bad image
  (∀ (s : State) (i : BootImage) (c : Status), inReset s = false → s.sec.image < 3 → (rd s F.SEC_BOOT_STAT_STAGE = 1 ∨ rd s F.SEC_BOOT_STAT_STAGE = 2) →
     imageFault s i = some c →
     exec (.imageFetchDone i) s = .next (bootFail s c) ∧ rd (bootFail s c) F.SEC_BOOT_STAT_STAGE = 4) ∧
  -- imageFetchDone of a good image
  (∀ (s : State) (i : BootImage), inReset s = false → (rd s F.SEC_BOOT_STAT_STAGE = 1 ∨ rd s F.SEC_BOOT_STAT_STAGE = 2) → imageFault s i = none →
     let a := s.sec.imageAt + roundUp (512 + i.len) 4096
     (s.sec.image = 0 → exec (.imageFetchDone i) s = .next (
       let s1 := wr (checkRecords s) F.SEC_BOOT_STAT_STAGE 2
       emit { s1 with sec := { s1.sec with image := 1, imageAt := a } } (.hostRead (.shared none) a 512))) ∧
     (s.sec.image = 1 → exec (.imageFetchDone i) s = .next (emit { s with sec := { s.sec with image := 2, imageAt := a } } (.hostRead (.shared none) a 512))) ∧
     (s.sec.image = 2 → let s1 := { s with sec := { s.sec with window := tableWords i.payload } }
       exec (.imageFetchDone i) s = .next (if tablesOk s1 then finishBoot s1 else bootFail s St.SEC_BAD_PROT))) ∧
  -- prelockBar0Access
  (∀ (s : State) (a : RegAccess), rd s F.SEC_PROT_LOCK_LOCK = 0 → bootReg a = false →
     exec (.prelockBar0Access a false) s = .next (emit s .bar0Unsupported) ∧
     exec (.prelockBar0Access a true) s = .next (recordLocked (bump (emit s .bar0Unsupported) F.SEC_REJECT_CNT_COUNT))) ∧
  -- protWindowWrite
  (∀ (s : State) (a : RegAccess) (w : Word), inWindow a.off = true → aligned a = true → rd s F.SEC_PROT_LOCK_LOCK = 1 →
     exec (.protWindowWrite a w) s = .next (recordLocked (bump s F.SEC_REJECT_CNT_COUNT))) ∧
  -- SPDM requests in their order
  (∀ (s : State), isUp s = true →
     exec .spdmGetVersion s = .next (emit { s with sec := { s.sec with spdm := 1 } } (.spdm 0x04 [0x13] [])) ∧
     (1 ≤ s.sec.spdm → exec .spdmGetCapabilities s = .next (emit { s with sec := { s.sec with spdm := max 2 s.sec.spdm } } (.spdm 0x61 [] []))) ∧
     (2 ≤ s.sec.spdm → exec (.spdmNegotiateAlgorithms true true) s = .next (emit { s with sec := { s.sec with spdm := max 3 s.sec.spdm } }
       (.spdm 0x63 [521, 512] []))) ∧
     (3 ≤ s.sec.spdm →
       exec .spdmGetDigests s = .next (emit { s with sec := { s.sec with spdm := 3 } } (.spdm 0x01 [0] [])) ∧
       (∀ o l, exec (.spdmGetCertificate 0 o l) s = .next (emit { s with sec := { s.sec with spdm := 3 } } (.spdm 0x02 [0, o, l] []))) ∧
       (∀ n, exec (.spdmChallenge 0 n) s = .next (emit { s with sec := { s.sec with spdm := 3 } } (.spdm 0x03 [0] n))) ∧
       (∀ n, exec (.spdmGetMeasurements 5 n) s = .next (emit { s with sec := { s.sec with spdm := 3 } }
         (.spdm 0x60 [5, 5] (n ++ wordBytes (lifecycle s))))))) ∧
  -- an SPDM request out of order, or before boot has ended
  (∀ (s : State) (n : List Byte), (isUp s = false → exec .spdmGetVersion s = .next s) ∧
     (isUp s = true → s.sec.spdm < 3 → exec (.spdmChallenge 0 n) s = .next (emit s (.spdm 0x7F [0x04] []))))

/-- Registers are written and read by their fields, and locked before boot ends. A read-write field takes a value in its
range, anything else leaves it, and no access counts before the lock. Rules: R543, R545. It rests on the model's own
choices in log entries 14, 101, 118, 120. -/
def Obligations.RegisterAccess : Prop :=
  -- registerWrite of a plain register
  (∀ (s : State) (a : RegAccess) (w : Word) (r : RegDef), served s a = true → refusedForm a = false → inWindow (a.off / 8 * 8) = false →
     (a.off / 8 * 8) ∉ bwRegs → commandWrite s a (a.off / 8 * 8) w = none → regAt (a.off / 8 * 8) = some r →
     exec (.registerWrite a w) s = .next (settle s (trimChange s (writeFields s a r (a.off / 8 * 8) (placed a w))))) ∧
  -- registerWrite of a command register
  (∀ (s t : State) (a : RegAccess) (w : Word), served s a = true → refusedForm a = false → inWindow (a.off / 8 * 8) = false →
     (a.off / 8 * 8) ∉ bwRegs → commandWrite s a (a.off / 8 * 8) w = some t →
     exec (.registerWrite a w) s = .next (settle s t)) ∧
  -- a read-write field takes a value in its range
  (∀ (s : State) (base i : Nat) (v w : Word) (f : FieldDef), f.acc = .rw → inRange base f.lo (fld v f.lo f.width) = true →
     stateAllows s base f.lo i = true → f.lo + f.width ≤ 64 →
     fld (fieldAfter s ⟨0, 8⟩ base i v w f) f.lo f.width = fld v f.lo f.width) ∧
  -- a write out of range, of a read-only field, or of the other half changes nothing
  (∀ (s : State) (a : RegAccess) (base i : Nat) (v w : Word) (f : FieldDef),
     (fieldIn a f = false ∨ (f.acc = .rw ∧ inRange base f.lo (fld v f.lo f.width) = false) ∨ f.acc = .ro ∨ f.acc = .rc) →
     fieldAfter s a base i v w f = w) ∧
  -- rcFieldRead
  (∀ (s : State) (a : RegAccess), served s a = true → refusedForm a = false →
     exec (.rcFieldRead a) s = .next (emit (clearRead s a) (.bar0Data (halfRead a (showReg s (a.off / 8 * 8)))))) ∧
  -- bar0Unsupported
  (∀ (s : State) (a : RegAccess) (b : Bool), served s a = true → refusedForm a = true →
     exec (.bar0Unsupported a b) s = .next (emit s .bar0Unsupported) ∧
     (∀ w, exec (.registerWrite a w) s = .next (settle s (emit s .bar0Unsupported)))) ∧
  -- accesses before the lock
  (∀ (s : State) (a : RegAccess) (w : Word) (b : Bool), served s a = false →
     exec (.registerWrite a w) s = .next (settle s (prelock s true)) ∧ exec (.rcFieldRead a) s = .next (prelock s false) ∧
     exec (.bar0Unsupported a b) s = .next (prelock s b))

/-- A step runs the command at the front of the queue; on an empty queue one cycle passes. For every command c and state
s with c at the front of its queue, step answers what exec answers for c on s with the rest of the queue. On an empty
queue it answers the state after one idle cycle. It rests on the model's own choices in log entries 1, 2. -/
def Obligations.StepTakesTheFront : Prop :=
  -- step
  (∀ (s : State) (c : Instr) (rest : List Instr), s.pending = c :: rest → step s = exec c { s with pending := rest }) ∧
  -- empty queue
  (∀ s : State, s.pending = [] → step s = .next (idleCycle s))

/-- Every command of the table answers a next state in every state. For every command and every state exec answers a next
state: no command ends in a fault or a refusal. It rests on the model's own choices in log entry 3. -/
def Obligations.EveryCommandCompletes : Prop :=
  ∀ (c : Instr) (s : State), ∃ t, exec c s = .next t

/-- The reset state is in canonical form, with an empty queue and nothing in progress. Registers and memory of the reset
state are in canonical form, its queue and its outputs are empty and nothing waits in it. Rules: R474, R548. It rests
on the model's own choices in log entries 8, 14, 13. -/
def Obligations.ResetIsCanonical : Prop :=
  State.reset.regsWf = true ∧ State.reset.memoryWf = true ∧ State.reset.pending = [] ∧ State.reset.out = [] ∧ State.reset.quiet = true

/-- Every step keeps registers and memory in canonical form. For every state whose registers and memory are in canonical
form, a step that answers a next state leaves them so. It rests on the model's own choices in log entry 8. -/
def Obligations.StepKeepsCanonicalForm : Prop :=
  ∀ s t : State, s.regsWf = true → s.memoryWf = true → step s = .next t → t.regsWf = true ∧ t.memoryWf = true

/-- A step takes one command off the queue and only appends to what was sent. For every state, a step that answers a next
state leaves the tail of the queue and extends the list of outputs. It rests on the model's own choices in log
entries 2, 5. -/
def Obligations.StepsTakeOneCommandEach : Prop :=
  ∀ s t : State, step s = .next t → t.pending = s.pending.tail ∧ s.out <+: t.out

/-- No step lowers a fuse. For every state, a step that answers a next state keeps variant and stepping, keeps every key
revoked and the part owned once they are, and lowers no minimum SVN. Rules: R485. It rests on the model's own choices
in log entry 9. -/
def Obligations.FusesOnlyRise : Prop :=
  ∀ s t : State, step s = .next t → fusesRise s.sec.fuses t.sec.fuses

/-- Admission fills at most MAX_SEQ seats, and no deficit grows beyond one cost. Admission seats at most MAX_SEQ
requests, each once and each a candidate. If no candidate costs more than 4,112 and no deficit has reached that (plus
the quantum of the tenant whose turn is open), no deficit reaches it afterwards. Rules: R99, R100. -/
def Obligations.AdmissionSeatsAndDeficits : Prop :=
  -- seats
  (∀ (s : State) (cs : List Cand) (d : Drr),
     (admitWork s cs d).2.length ≤ rd s F.SCH_STEP_CFG_MAX_SEQ ∧ (admitWork s cs d).2.Nodup ∧
     ∀ r ∈ (admitWork s cs d).2, ∃ c ∈ cs, c.req = r) ∧
  -- deficits
  (∀ (s : State) (cs : List Cand) (d : Drr), (∀ c ∈ cs, c.cost ≤ 4112) →
     (∀ t, tgetD d.deficit t 0 < 4112 + if d.opened = true ∧ d.ring[d.ptr]? = some t then quantum s t else 0) →
     ∀ t, tgetD (admitWork s cs d).1.deficit t 0 <
       4112 + if (admitWork s cs d).1.opened = true ∧ (admitWork s cs d).1.ring[(admitWork s cs d).1.ptr]? = some t then quantum s t else 0)

/-- The budget monitor moves members to their stand-ins until the tightest budget is met. When the monitor ends, the
forecast is within the tightest budget of the members that are left and have a stand-in; it drops no member and adds
none, and members without a stand-in stay. Rules: R112. -/
def Obligations.MonitorSettles : Prop :=
  ∀ (s : State) (est : StepEstimate) (n : Nat) (main others : List Nat), main.length ≤ n →
    let m := monitor s est n main others
    (∀ r, tightest s m.1 = some r → forecast s est m.1 m.2 ≤ budgetOf s r) ∧
    (∀ r ∈ m.1, r ∈ main) ∧ (∀ r, (r ∈ m.1 ∨ r ∈ m.2) ↔ (r ∈ main ∨ r ∈ others)) ∧
    (∀ r ∈ main, (reqOf s r).elim false (fun q => q.standin.isSome) = false → r ∈ m.1)

/-- Frames: commands of the host port and of completion queues. For every state, each command of these groups answers a
next state in which nothing has changed but the parts named and, among the registers, those of the fields named.
Where the command can let other work go on, that state is followed by settle. Rules: R56, R58, R60, R62, R63, R66,
R68, R78, R91, R119, R120, R315. It rests on the model's own choices in log entry 5. -/
def Obligations.HostFrames : Prop :=
  -- hostOnly
  (∀ (c : Instr) (s : State), hostOnly c = true → ∃ b, exec c s = .next b ∧
     b = { s with regs := b.regs, hpt := b.hpt, ras := b.ras, out := b.out } ∧
     regsKept s b [F.SEC_BOOT_STAT_STAGE, F.SEC_REJECT_CNT_COUNT, F.HPT_CTX_STAT_BUSY, F.HPT_EVQ_CFG_EN,
       F.HPT_HDM_CFG_BASE_GIB, F.HPT_LINK_STAT_MOD_UP]
       []) ∧
  -- hostSettling
  (∀ (c : Instr) (s : State), hostSettling c = true → ∃ b, exec c s = .next (settle s b) ∧
     b = { s with regs := b.regs, hpt := b.hpt, ras := b.ras, out := b.out } ∧
     regsKept s b [F.SEC_REJECT_CNT_COUNT, F.HPT_CTX_STAT_BUSY, F.HPT_LINK_STAT_MOD_UP]
       []) ∧
  -- queueSettling
  (∀ (c : Instr) (s : State), queueSettling c = true → ∃ b, exec c s = .next (settle s b) ∧
     b = { s with regs := b.regs, hpt := b.hpt, sch := b.sch, ras := b.ras, out := b.out } ∧
     regsKept s b [F.HPT_CTX_STAT_BUSY, F.HPT_CQ_STALL_CNT_COUNT]
       [])

/-- Frames: descriptors that stay in their rings and engines, and gather rows. For every state, each command of these
groups answers a next state in which nothing has changed but the parts named and, among the registers, those of the
fields named. Rules: R72, R108, R109, R130, R157, R162, R186, R187, R278, R284, R289, R294, R295, R378. It rests on
the model's own choices in log entry 42. -/
def Obligations.DescriptorFrames : Prop :=
  -- descOnly
  (∀ (c : Instr) (s : State), descOnly c = true → ∃ b, exec c s = .next b ∧
     b = { s with regs := b.regs, hpt := b.hpt, sch := b.sch, tak := b.tak, mxe := b.mxe, gth := b.gth, bmv := b.bmv, out := b.out } ∧
     regsKept s b [F.HPT_CQ_STALL_CNT_COUNT, F.SCH_INHERIT_CNT_COUNT, F.GTH_TABLES_COUNT]
       []) ∧
  -- gatherOnly
  (∀ (c : Instr) (s : State), gatherOnly c = true → ∃ b, exec c s = .next b ∧
     b = { s with regs := b.regs, hbm := b.hbm, hpt := b.hpt, sch := b.sch, mem := b.mem, gth := b.gth, out := b.out, free := b.free } ∧
     regsKept s b [F.HPT_CQ_STALL_CNT_COUNT, F.GTH_FETCH_CNT_COUNT, F.GTH_CARRY_HIT_CNT_COUNT]
       [])

/-- Frames: matrix cores, key/value pool and flash tier. For every state, each command of these groups answers a next
state in which nothing has changed but the parts named and, among the registers, those of the fields named. Rules:
R170, R174, R193, R198, R206, R217, R233, R251, R316, R317, R319, R321, R322, R324, R329. -/
def Obligations.EngineFrames : Prop :=
  -- matrixOnly
  (∀ (c : Instr) (s : State), matrixOnly c = true → ∃ b, exec c s = .next b ∧
     b = { s with regs := b.regs, hpt := b.hpt, ras := b.ras, mxe := b.mxe, out := b.out } ∧
     regsKept s b [F.SEC_REJECT_CNT_COUNT, F.MXE_CORE_CMD_STAT_BUSY, F.MXE_MISMATCH_CNT_COUNT, F.MXE_RETIRE_CNT_COUNT,
       F.EXP_CRC_CNT_COUNT]
       []) ∧
  -- poolOnly
  (∀ (c : Instr) (s : State), poolOnly c = true → ∃ b, exec c s = .next b ∧
     b = { s with regs := b.regs, hpt := b.hpt, ras := b.ras, kva := b.kva, att := b.att, out := b.out } ∧
     regsKept s b [F.SEC_REJECT_CNT_COUNT, F.KVA_POOL_CTL_EN, F.KVA_AGE_AGE]
       [(F.ATT_BIND_EN, 16)]) ∧
  -- flashOnly
  (∀ (c : Instr) (s : State), flashOnly c = true → ∃ b, exec c s = .next b ∧
     b = { s with regs := b.regs, hpt := b.hpt, ras := b.ras, flt := b.flt, out := b.out } ∧
     regsKept s b [F.SEC_REJECT_CNT_COUNT, F.FLT_CTL_BUSY, F.FLT_CAP_MAP_MIB, F.FLT_CLIENT_WR_CNT_COUNT,
       F.FLT_NAND_WR_CNT_COUNT, F.FLT_BAD_BLK_CNT_COUNT]
       [(F.FLT_CHAN_RATE_MT, 16)])

/-- Frames: ports, shapers and gates. For every state, each command of these groups answers a next state in which nothing
has changed but the parts named and, among the registers, those of the fields named. Where the command can let other
work go on, that state is followed by settle. Rules: R336, R339, R341, R346, R348, R349, R365, R366, R367, R371. -/
def Obligations.FabricFrames : Prop :=
  -- portOnly
  (∀ (c : Instr) (s : State), portOnly c = true → ∃ b, exec c s = .next b ∧
     b = { s with regs := b.regs, hpt := b.hpt, ras := b.ras, glk := b.glk, out := b.out } ∧
     regsKept s b [F.SEC_REJECT_CNT_COUNT, F.CON_STAT_PORTS_UP]
       [(F.GLK_PORT_CTL_EN, 60), (F.GLK_PORT_STAT_LANE_OK, 60), (F.GLK_PORT_ERR_CNT_RETRAIN, 60)]) ∧
  -- portSettling
  (∀ (c : Instr) (s : State), portSettling c = true → ∃ b, exec c s = .next (settle s b) ∧
     b = { s with regs := b.regs, hpt := b.hpt, ras := b.ras, glk := b.glk, out := b.out } ∧
     regsKept s b [F.SEC_REJECT_CNT_COUNT, F.CON_STAT_PORTS_UP]
       [(F.GLK_PORT_CTL_EN, 60), (F.GLK_PORT_STAT_LANE_OK, 60), (F.GLK_PORT_ERR_CNT_REPLAY, 60)]) ∧
  -- shapeOnly
  (∀ (c : Instr) (s : State), shapeOnly c = true → ∃ b, exec c s = .next b ∧
     b = { s with regs := b.regs, ras := b.ras, glk := b.glk, shp := b.shp, out := b.out } ∧
     regsKept s b [F.SEC_REJECT_CNT_COUNT, F.SHP_GATE_WAIT_CNT_COUNT, F.SHP_OVERRUN_CNT_COUNT]
       [(F.SHP_GATE_CTL_EN, 56)]) ∧
  -- frameSettling
  (∀ (c : Instr) (s : State), frameSettling c = true → ∃ b, exec c s = .next (settle s b) ∧
     b = { s with regs := b.regs, hpt := b.hpt, ras := b.ras, glk := b.glk, shp := b.shp, out := b.out } ∧
     regsKept s b [F.SHP_GATE_WAIT_CNT_COUNT, F.SHP_OVERRUN_CNT_COUNT, F.CON_STAT_PORTS_UP]
       [(F.GLK_PORT_STAT_LANE_OK, 60), (F.GLK_PORT_ERR_CNT_AUTH_ERR, 60)])

/-- Frames: map, leases and queries, and the twin. For every state, each command of these groups answers a next state in
which nothing has changed but the parts named and, among the registers, those of the fields named. Where the command
can let other work go on, that state is followed by settle. Rules: R395, R397, R405, R407, R408, R412, R437, R438,
R444, R452, R453, R456, R457. -/
def Obligations.MapFrames : Prop :=
  -- mapOnly
  (∀ (c : Instr) (s : State), mapOnly c = true → ∃ b, exec c s = .next b ∧
     b = { s with regs := b.regs, hpt := b.hpt, ras := b.ras, dtm := b.dtm, glk := b.glk, shp := b.shp, out := b.out } ∧
     regsKept s b [F.SEC_REJECT_CNT_COUNT, F.SHP_FULL_CNT_COUNT, F.SHP_GATE_WAIT_CNT_COUNT, F.SHP_OVERRUN_CNT_COUNT,
       F.DTM_CTL_BASE_MIB]
       []) ∧
  -- mapSettling
  (∀ (c : Instr) (s : State), mapSettling c = true → ∃ b, exec c s = .next (settle s b) ∧
     b = { s with regs := b.regs, hpt := b.hpt, ras := b.ras, dtm := b.dtm, glk := b.glk, shp := b.shp, out := b.out } ∧
     regsKept s b [F.SHP_FULL_CNT_COUNT, F.SHP_GATE_WAIT_CNT_COUNT, F.SHP_OVERRUN_CNT_COUNT, F.DTM_CTL_BUSY,
       F.DTM_EPOCH_EPOCH, F.DTM_STALE_CNT_COUNT, F.DTM_LAPSE_CNT_COUNT, F.DTM_QUERY_CNT_COUNT]
       []) ∧
  -- twinSettling
  (∀ (c : Instr) (s : State), twinSettling c = true → ∃ b, exec c s = .next (settle s b) ∧
     b = { s with regs := b.regs, hpt := b.hpt, ras := b.ras, con := b.con, glk := b.glk, shp := b.shp, out := b.out } ∧
     regsKept s b [F.SEC_REJECT_CNT_COUNT, F.SHP_FULL_CNT_COUNT, F.SHP_GATE_WAIT_CNT_COUNT, F.SHP_OVERRUN_CNT_COUNT,
       F.CON_STAT_CMD_STATUS, F.CON_BULK_PROG_DONE_GIB, F.CON_MISS_CNT_COUNT, F.CON_CMP_FAIL_CNT_COUNT]
       [])

/-- Frames: clocks and sensors, granules, boot and attestation. For every state, each command of these groups answers a
next state in which nothing has changed but the parts named and, among the registers, those of the fields named.
Rules: R466, R469, R470, R476, R481, R482, R494, R499, R507, R531, R534, R536, R537, R539, R543. -/
def Obligations.ManagementFrames : Prop :=
  -- clockOnly
  (∀ (c : Instr) (s : State), clockOnly c = true → ∃ b, exec c s = .next b ∧
     b = { s with regs := b.regs, clk := b.clk, mgt := b.mgt, out := b.out } ∧
     regsKept s b [F.CLK_STAT_CORE_MHZ, F.CLK_DROOP_CNT_COUNT, F.CLK_TRIM_CNT_COUNT, F.MGT_THERM_STAT_ALERT_CNT]
       []) ∧
  -- granuleOnly
  (∀ (c : Instr) (s : State), granuleOnly c = true → ∃ b, exec c s = .next b ∧
     b = { s with regs := b.regs, clk := b.clk, ras := b.ras, out := b.out } ∧
     regsKept s b [F.SEC_REJECT_CNT_COUNT, F.CLK_HBM_CMD_STAT_BUSY]
       []) ∧
  -- bootOnly
  (∀ (c : Instr) (s : State), bootOnly c = true → ∃ b, exec c s = .next b ∧
     b = { s with regs := b.regs, sec := b.sec, ras := b.ras, out := b.out } ∧
     regsKept s b [F.SEC_BOOT_STAT_IMAGE, F.SEC_REJECT_CNT_COUNT, F.RAS_REC_CNT_COUNT]
       [])

/-- Frames: what each storing command stores to, and that every other byte stays. For every state, PUT, PUT_SIGNAL,
ADD_F32, ADD_U64, CAS64, ATOMIC_ADD_LINE, HDM_HOST_WRITE and REFETCH_RANGE_DATA answer a next state in which every
byte of memory outside those that the command stores to reads as before, and nothing else has changed but the parts
and registers named; settle follows. Rules: R313, R315, R352, R511. It rests on the model's own choices in log
entries 7, 8. -/
def Obligations.StoreFrames : Prop :=
  -- PUT
  (∀ (s : State) (r : RemoteReq) (bytes : List Byte), ∃ b, exec (.put r bytes) s = .next (settle s b) ∧
     (∀ a, a < r.offset ∨ r.offset + bytes.length ≤ a → byteAt b.hbm a = byteAt s.hbm a) ∧
     b = { s with regs := b.regs, hbm := b.hbm, hpt := b.hpt, mem := b.mem, glk := b.glk, shp := b.shp, out := b.out } ∧
     regsKept s b [F.DTM_STALE_CNT_COUNT, F.SHP_FULL_CNT_COUNT, F.SHP_GATE_WAIT_CNT_COUNT, F.SHP_OVERRUN_CNT_COUNT] []) ∧
  -- PUT_SIGNAL
  (∀ (s : State) (r : RemoteReq) (bytes : List Byte), ∃ b, exec (.putSignal r bytes) s = .next (settle s b) ∧
     (∀ a, a < r.offset ∨ r.offset + bytes.length ≤ a → a < bits r.arg 51 0 ∨ bits r.arg 51 0 + 8 ≤ a → byteAt b.hbm a = byteAt s.hbm a) ∧
     b = { s with regs := b.regs, hbm := b.hbm, hpt := b.hpt, mem := b.mem, glk := b.glk, shp := b.shp, out := b.out } ∧
     regsKept s b [F.DTM_STALE_CNT_COUNT, F.SHP_FULL_CNT_COUNT, F.SHP_GATE_WAIT_CNT_COUNT, F.SHP_OVERRUN_CNT_COUNT] []) ∧
  -- ADD_F32
  (∀ (s : State) (r : RemoteReq) (addends : List (BitVec 32)), ∃ b, exec (.addF32 r addends) s = .next (settle s b) ∧
     (∀ a, a < r.offset ∨ r.offset + 64 ≤ a → byteAt b.hbm a = byteAt s.hbm a) ∧
     b = { s with regs := b.regs, hbm := b.hbm, hpt := b.hpt, mem := b.mem, glk := b.glk, shp := b.shp, out := b.out } ∧
     regsKept s b [F.DTM_STALE_CNT_COUNT, F.SHP_FULL_CNT_COUNT, F.SHP_GATE_WAIT_CNT_COUNT, F.SHP_OVERRUN_CNT_COUNT] []) ∧
  -- ADD_U64
  (∀ (s : State) (r : RemoteReq) (v : Word), ∃ b, exec (.addU64 r v) s = .next (settle s b) ∧
     (∀ a, a < r.offset ∨ r.offset + 8 ≤ a → byteAt b.hbm a = byteAt s.hbm a) ∧
     b = { s with regs := b.regs, hbm := b.hbm, hpt := b.hpt, mem := b.mem, glk := b.glk, shp := b.shp, out := b.out } ∧
     regsKept s b [F.DTM_STALE_CNT_COUNT, F.SHP_FULL_CNT_COUNT, F.SHP_GATE_WAIT_CNT_COUNT, F.SHP_OVERRUN_CNT_COUNT] []) ∧
  -- CAS64
  (∀ (s : State) (r : RemoteReq) (cmp swp : Word), ∃ b, exec (.cas64 r cmp swp) s = .next (settle s b) ∧
     (∀ a, a < r.offset ∨ r.offset + 8 ≤ a → byteAt b.hbm a = byteAt s.hbm a) ∧
     b = { s with regs := b.regs, hbm := b.hbm, hpt := b.hpt, mem := b.mem, glk := b.glk, shp := b.shp, out := b.out } ∧
     regsKept s b [F.DTM_STALE_CNT_COUNT, F.SHP_FULL_CNT_COUNT, F.SHP_GATE_WAIT_CNT_COUNT, F.SHP_OVERRUN_CNT_COUNT] []) ∧
  -- ATOMIC_ADD_LINE
  (∀ (s : State) (offset : Nat) (addends : List (BitVec 32)), ∃ b, exec (.atomicAddLine offset addends) s = .next (settle s b) ∧
     (∀ a, a < offset ∨ offset + 64 ≤ a → byteAt b.hbm a = byteAt s.hbm a) ∧
     b = { s with hbm := b.hbm, hpt := b.hpt, mem := b.mem, out := b.out } ∧
     (∀ o, b.reg o = s.reg o)) ∧
  -- HDM_HOST_WRITE
  (∀ (s : State) (o : Nat) (bytes : List Byte), ∃ b, exec (.hdmHostWrite o bytes) s = .next (settle s b) ∧
     (∀ a, a < rd s F.HPT_HDM_CFG_BASE_GIB * 2 ^ 30 + o ∨ rd s F.HPT_HDM_CFG_BASE_GIB * 2 ^ 30 + o + bytes.length ≤ a → byteAt b.hbm a = byteAt s.hbm a) ∧
     b = { s with hbm := b.hbm, mem := b.mem } ∧
     (∀ f, rd b f = rd s f)) ∧
  -- REFETCH_RANGE_DATA
  (∀ (s : State) (tensor offset : Nat) (bytes : List Byte) (ok : Bool), ∃ b, exec (.refetchRangeData tensor offset bytes ok) s = .next (settle s b) ∧
     (∀ a, a < offset ∨ offset + 4096 ≤ a → byteAt b.hbm a = byteAt s.hbm a) ∧
     b = { s with hbm := b.hbm, hpt := b.hpt, sch := b.sch, mem := b.mem, ras := b.ras, out := b.out } ∧
     (∀ o, b.reg o = s.reg o))

/-- A read clears an RC field only when it reads the whole of it. For every state and access: a 32-bit or 64-bit read of
a register, once the lock allows it, answers next; each RC field of the register that the read covers whole is zero
afterwards, every other field of it and every other register read as before. Rules: R545. -/
def Obligations.ReadClearFields : Prop :=
  ∀ (s : State) (a : RegAccess) (r : RegDef), served s a = true → refusedForm a = false → regAt (a.off / 8 * 8) = some r →
    ∃ t, exec (.rcFieldRead a) s = .next t ∧ t = { s with regs := t.regs, out := s.out ++ [.bar0Data (halfRead a (showReg s (a.off / 8 * 8)))] } ∧
      (∀ f ∈ r.fields, fld (t.reg (a.off / 8 * 8)) f.lo f.width =
        if f.acc = .rc ∧ (a.size = 8 ∨ (a.off % 8 = 0 ∧ f.lo + f.width ≤ 32) ∨ (a.off % 8 = 4 ∧ 32 ≤ f.lo)) then 0
        else fld (s.reg (a.off / 8 * 8)) f.lo f.width) ∧
      (∀ o, o ≠ a.off / 8 * 8 → t.reg o = s.reg o)

/-- A write of SLICE_US or CHUNK_TOK out of its range is ignored. For every state and every write that reaches
SCH_PROMPT_CFG: the write answers next (what other parts do then is settle), and a SLICE_US outside 4 to 24 leaves
SLICE_US as it was, a CHUNK_TOK outside 64 to 16,384 leaves CHUNK_TOK as it was. Rules: R105. -/
def Obligations.StepShapeWrites : Prop :=
  ∀ (s : State) (a : RegAccess) (w : Word), a.off / 8 * 8 = F.SCH_PROMPT_CFG_SLICE_US.base →
    let slice := fld (placed a w) F.SCH_PROMPT_CFG_SLICE_US.lo F.SCH_PROMPT_CFG_SLICE_US.width
    let chunk := fld (placed a w) F.SCH_PROMPT_CFG_CHUNK_TOK.lo F.SCH_PROMPT_CFG_CHUNK_TOK.width
    ∃ b, exec (.registerWrite a w) s = .next (settle s b) ∧
      (slice < 4 ∨ 24 < slice → rd b F.SCH_PROMPT_CFG_SLICE_US = rd s F.SCH_PROMPT_CFG_SLICE_US) ∧
      (chunk < 64 ∨ 16384 < chunk → rd b F.SCH_PROMPT_CFG_CHUNK_TOK = rd s F.SCH_PROMPT_CFG_CHUNK_TOK)

/-- What each SECDED syndrome means, and that every double error is detected. A zero syndrome means a clean word, a
syndrome of one bit a check bit in error, a syndrome that is a column its data bit, which is corrected, and any other
syndrome an uncorrectable word. Every single error is corrected and every double error is detected. A corrected word
of HBM or SRAM is counted and repaired as the rule says. Rules: R306. -/
def Obligations.SecdedOutcomes : Prop :=
  -- the table
  (∀ (d : BitVec 32) (c : BitVec 7),
     let syn := c.toNat ^^^ secdedCheck d
     (syn = 0 → secdedDecode d c = .clean) ∧
     (popcount syn 7 = 1 → secdedDecode d c = .corrected d) ∧
     (∀ i, i < 32 → syn = secdedCols.getD i 0 → secdedDecode d c = .corrected (d ^^^ BitVec.ofNat 32 (2 ^ i))) ∧
     (syn ≠ 0 → popcount syn 7 ≠ 1 → (∀ i, i < 32 → syn ≠ secdedCols.getD i 0) → secdedDecode d c = .uncorrectable)) ∧
  -- one bit and two bits
  (∀ (d : BitVec 32) (c : BitVec 7), c.toNat = secdedCheck d →
     (∀ i, i < 32 → secdedDecode (d ^^^ BitVec.ofNat 32 (2 ^ i)) c = .corrected d) ∧
     (∀ i, i < 7 → secdedDecode d (c ^^^ BitVec.ofNat 7 (2 ^ i)) = .corrected d) ∧
     (∀ i j, i < j → j < 32 → secdedDecode (d ^^^ BitVec.ofNat 32 (2 ^ i) ^^^ BitVec.ofNat 32 (2 ^ j)) c = .uncorrectable) ∧
     (∀ i j, i < 32 → j < 7 → secdedDecode (d ^^^ BitVec.ofNat 32 (2 ^ i)) (c ^^^ BitVec.ofNat 7 (2 ^ j)) = .uncorrectable) ∧
     (∀ i j, i < j → j < 7 → secdedDecode d (c ^^^ BitVec.ofNat 7 (2 ^ i) ^^^ BitVec.ofNat 7 (2 ^ j)) = .uncorrectable)) ∧
  -- a corrected HBM word is counted
  (∀ (s : State) (w : ScrubWord) (d : BitVec 32), isUp s = true → w.sram = false → inHbm s w.offset 4 = true → w.offset % 4 = 0 →
     w.unit = pcOf s w.offset → w.offset ≠ 0 → secdedDecode w.data w.check = .corrected d →
     exec (.patrolScrub w) s = .next (
       let s1 := modPc (bump s F.MEM_CE_CNT_COUNT) w.unit (fun i => { i with ce := min (2 ^ 32 - 1) (i.ce + 1) })
       let s2 := if w.written = true then s1 else writeMem s1 w.offset (natBytes 4 d.toNat)
       let n := tgetD s2.mem.rowCe (scrubKey w.unit w.row) 0 + 1
       let s3 := { s2 with mem := { s2.mem with rowCe := tset s2.mem.rowCe (scrubKey w.unit w.row) n } }
       if rd s3 F.MEM_RETIRE_CFG_ROW_CE ≤ n then repairRow s3 w.unit w.row w.spare else s3)) ∧
  -- a corrected SRAM word is counted
  (∀ (s : State) (w : ScrubWord), isUp s = true → w.sram = true → w.unit < 768 → w.unit ≠ 0 →
     (secdedDecode w.data w.check = .clean → exec (.patrolScrub w) s = .next s) ∧
     (∀ d, secdedDecode w.data w.check = .corrected d → exec (.patrolScrub w) s = .next (
       let s1 := bump s F.MEM_CE_CNT_COUNT
       let n := tgetD s1.mem.rowCe (scrubKey (1024 + w.unit) w.row) 0 + 1
       let s2 := { s1 with mem := { s1.mem with rowCe := tset s1.mem.rowCe (scrubKey (1024 + w.unit) w.row) n } }
       if rd s2 F.MEM_RETIRE_CFG_ROW_CE ≤ n then failSramRow s2 w.unit w.row else s2)) ∧
     (secdedDecode w.data w.check = .uncorrectable →
       exec (.patrolScrub w) s = .next (failSramRow (uncorrectable s ⟨5, w.unit⟩ (controlMacro w.unit)) w.unit w.row)))

/-- A REQ_POST that needs a stand-in it does not have is rejected. A REQ_POST that passes all checks before this one and
carries DEADLINE_POLICY DISCARD, a nonzero BUDGET_US and STANDIN 0xFFFF is rejected with SCH_NO_STANDIN. One whose
STANDIN names a model that is not loaded is rejected with SCH_NO_MODEL. Both answer a next state with that record.
Rules: R113. -/
def Obligations.StandinRejections : Prop :=
  -- no stand-in
  (∀ (s u : State) (k : RingKey) (d : Desc) (key : DescKey) (param : List Word) (input : List (BitVec 32)) (home : HomeView),
     dispatched s k d key u → dOpcode d = 1 → passes d (postBytes d) ((postChecks d param input home u key).take 12) →
     qPolicy d = 1 → qBudget d ≠ 0 → qStandin d = none →
     exec (.reqPost k d param input home) s = .next (settle s (completeWith u (flightId key) St.SCH_NO_STANDIN
       (rejectDetail (chk true St.SCH_NO_STANDIN 0x2A))))) ∧
  -- a stand-in that is not loaded
  (∀ (s u : State) (k : RingKey) (d : Desc) (key : DescKey) (param : List Word) (input : List (BitVec 32)) (home : HomeView) (m : Nat),
     dispatched s k d key u → dOpcode d = 1 → passes d (postBytes d) ((postChecks d param input home u key).take 13) →
     qStandin d = some m → modelLoaded u m = false →
     exec (.reqPost k d param input home) s = .next (settle s (completeWith u (flightId key) St.SCH_NO_MODEL
       (rejectDetail (chk true St.SCH_NO_MODEL 0x2A)))))

/-- A revoked holder is told so, drops its requests, and is taken back by a map change. A REVOKED holder that renews is
answered DTM_LEASE_REVOKED. A holder so answered drops its requests at that home and writes LEASE 0 into each such
root by a local take. A map change that moves the entry of the holder from REJOIN to SERVING ends its revocation, and
no other map change does. Rules: R410. -/
def Obligations.RevokedHolders : Prop :=
  -- the home's answer
  (∀ (s : State) (e : Nat) (ws : List Word) (h : Holder), isUp s = true → dtmBad ws = false → mKind ws = 1 → epochRule s e = none →
     isHome s = true → tget s.dtm.holders (mNode ws) = some h → h.revoked = true →
     exec (.renew e ws) s = .next (settle s (sendAnswer s (mNode ws) (mSeq ws) 0 0 0 St.DTM_LEASE_REVOKED))) ∧
  -- the holder drops its requests
  (∀ (s : State) (src : Nat) (ws : List Word) (l : Lease), isUp s = true → dtmBad ws = false → mKind ws = 4 → mReq ws = 0 →
     tget s.dtm.claims src ≠ some (mSeq ws) → tget s.dtm.leases src = some l → l.asked = some (mSeq ws) → mSt ws = St.DTM_LEASE_REVOKED →
     let mine := (s.kva.roots.filter (fun e => e.2.lease != 0 && homeOf s.dtm.map e.1 == src)).map (fun e => e.1)
     let dropped := mine.foldl (fun u req =>
         let v := if (tget u.kva.roots req).any (fun r => r.lease != 0) then localTake u [⟨0, rootObj req, .putLease req 0⟩] else u
         { v with sch := { v.sch with reqs := tdel v.sch.reqs req } })
       { s with dtm := { s.dtm with leases := tset s.dtm.leases src ⟨false, none⟩ } }
     exec (.answer src ws) s = .next (settle s (flushReports (
       if exposed s = true then ((ownLeases s).filter (fun r => homeOf s.dtm.map r == src)).foldl (fun u r =>
         freePages { u with smp := { u.smp with results := tdel u.smp.results r } } r) dropped
       else dropped)))) ∧
  -- the end of a revocation
  (∀ (old new : DMap) (hs : Tbl Holder) (n : Nat) (h : Holder), tget hs n = some h →
     tget (clearRevoked old new hs) n = some (if eState (mapGet old n) = 2 ∧ eState (mapGet new n) = 1 then { h with revoked := false } else h)) ∧
  -- a map change ends it
  (∀ (s : State) (e : Nat) (es : List (Nat × List Word)), (advanceEpoch s e es).dtm.holders =
     clearRevoked s.dtm.map (advanceEpoch s e es).dtm.map s.dtm.holders)
end

