-- ==== Sys2Proof/Laws/Table.lean ====
section
/-! SUPPORT. The laws of keyed tables, of registers and of memory: what a read after a write gives, and that every operation
keeps the canonical form. -/

namespace Sys2Proof.Laws

open Sys2Proof Sys2Proof.Machine

/-! ### Reads of a table -/

theorem find_tins_ne {α : Type} (k j : Nat) (v : α) (t : Tbl α) (h : k ≠ j) :
    (tins k v t).find? (fun p => p.1 == j) = t.find? (fun p => p.1 == j) := by
  induction t with
  | nil => simp [tins, h]
  | cons p t ih =>
    simp only [tins]
    split
    · simp [List.find?_cons, h]
    · simp only [List.find?_cons, ih]

theorem find_tins_same {α : Type} (k : Nat) (v : α) (t : Tbl α) (h : ∀ p ∈ t, p.1 ≠ k) :
    (tins k v t).find? (fun p => p.1 == k) = some (k, v) := by
  induction t with
  | nil => simp [tins]
  | cons p t ih =>
    simp only [tins]
    split
    · simp
    · have hp : (p.1 == k) = false := by simpa using h p (by simp)
      rw [List.find?_cons, hp]
      exact ih (fun q hq => h q (List.mem_cons_of_mem p hq))

/-- A key just set reads as its value. -/
@[simp] theorem tget_tset_same {α : Type} (t : Tbl α) (k : Nat) (v : α) : tget (tset t k v) k = some v := by
  have h : ∀ p ∈ tdel t k, p.1 ≠ k := by
    intro p hp
    simpa using (List.mem_filter.1 hp).2
  simp [tget, tset, find_tins_same k v _ h]

/-- Deleting a key leaves every other one alone. -/
theorem tget_tdel_ne {α : Type} (t : Tbl α) (k j : Nat) (h : j ≠ k) : tget (tdel t k) j = tget t j := by
  unfold tget tdel
  congr 1
  induction t with
  | nil => rfl
  | cons p t ih =>
    by_cases hp : p.1 = k
    · have h1 : (p.1 != k) = false := by simp [hp]
      have h2 : (p.1 == j) = false := by simp only [beq_eq_false_iff_ne]; omega
      simp [h1, h2, ih]
    · have h1 : (p.1 != k) = true := by simp [hp]
      simp only [List.filter_cons, h1, if_true, List.find?_cons, ih]

/-- A deleted key is not listed. -/
@[simp] theorem tget_tdel_same {α : Type} (t : Tbl α) (k : Nat) : tget (tdel t k) k = none := by
  simp [tget, tdel, List.find?_filter]

/-- Setting a key leaves every other one alone. -/
theorem tget_tset_ne {α : Type} (t : Tbl α) (k j : Nat) (v : α) (h : j ≠ k) : tget (tset t k v) j = tget t j := by
  rw [← tget_tdel_ne t k j h]
  simp only [tget, tset, find_tins_ne k j v _ (Ne.symm h)]

/-! ### The canonical form of a table -/

/-- Keys strictly rising, as a relation between any two places. -/
theorem twf_iff_pairwise {α : Type} (t : Tbl α) : twf t = true ↔ t.Pairwise (fun a b => a.1 < b.1) := by
  induction t with
  | nil => simp [twf]
  | cons p t ih => simp [twf, ih]

theorem twf_filter {α : Type} (t : Tbl α) (f : Nat × α → Bool) (h : twf t = true) : twf (t.filter f) = true := by
  rw [twf_iff_pairwise] at h ⊢
  exact h.filter f

theorem twf_tdel {α : Type} (t : Tbl α) (k : Nat) (h : twf t = true) : twf (tdel t k) = true := twf_filter t _ h

theorem mem_tins {α : Type} (k : Nat) (v : α) (t : Tbl α) (p : Nat × α) : p ∈ tins k v t ↔ p = (k, v) ∨ p ∈ t := by
  induction t with
  | nil => simp [tins]
  | cons q t ih =>
    simp only [tins]
    split
    · simp
    · simp only [List.mem_cons, ih]
      tauto

theorem twf_tins {α : Type} (k : Nat) (v : α) (t : Tbl α) (h : twf t = true) (hk : ∀ p ∈ t, p.1 ≠ k) :
    twf (tins k v t) = true := by
  rw [twf_iff_pairwise] at h ⊢
  induction t with
  | nil => simp [tins]
  | cons q t ih =>
    simp only [tins]
    obtain ⟨hq, ht⟩ := List.pairwise_cons.1 h
    split
    next hlt =>
      refine List.pairwise_cons.2 ⟨?_, h⟩
      intro p hp
      rcases List.mem_cons.1 hp with rfl | hp
      · exact hlt
      · exact lt_trans hlt (hq p hp)
    next hlt =>
      refine List.pairwise_cons.2 ⟨?_, ih ht (fun p hp => hk p (List.mem_cons_of_mem q hp))⟩
      intro p hp
      have hqk := hk q (by simp)
      rcases (mem_tins k v t p).1 hp with rfl | hp
      · show q.1 < k
        omega
      · exact hq p hp

theorem twf_tset {α : Type} (t : Tbl α) (k : Nat) (v : α) (h : twf t = true) : twf (tset t k v) = true := by
  refine twf_tins k v _ (twf_tdel t k h) ?_
  intro p hp
  simpa using (List.mem_filter.1 hp).2

theorem mem_tset {α : Type} (t : Tbl α) (k : Nat) (v : α) (p : Nat × α) (h : p ∈ tset t k v) : p = (k, v) ∨ p ∈ t := by
  rcases (mem_tins k v _ p).1 h with h | h
  · exact .inl h
  · exact .inr (List.mem_filter.1 h).1

/-! ### Memory -/

/-- A byte just written reads as it was written (R17). -/
@[simp] theorem byteAt_setByte_same (m : List Host.Cell) (a : Nat) (b : Byte) : byteAt (setByte m a b) a = b := by
  unfold byteAt setByte tgetD
  split
  next h => simp [h]
  next h => simp

/-- A byte written leaves every other address alone. -/
theorem byteAt_setByte_ne (m : List Host.Cell) (a c : Nat) (b : Byte) (h : c ≠ a) :
    byteAt (setByte m a b) c = byteAt m c := by
  unfold byteAt setByte tgetD
  split
  · rw [tget_tdel_ne m a c h]
  · rw [tget_tset_ne m a c b h]

/-- Bytes written leave every address outside them alone. -/
theorem byteAt_setBytes_outside (bs : List Byte) (m : List Host.Cell) (a c : Nat) (h : c < a ∨ a + bs.length ≤ c) :
    byteAt (setBytes m a bs) c = byteAt m c := by
  induction bs generalizing m a with
  | nil => rfl
  | cons b bs ih =>
    simp only [List.length_cons] at h
    rw [setBytes, ih _ _ (by omega), byteAt_setByte_ne _ _ _ _ (by omega)]

/-- Bytes written read as they were written. -/
theorem byteAt_setBytes_inside (bs : List Byte) (m : List Host.Cell) (a i : Nat) (h : i < bs.length) :
    byteAt (setBytes m a bs) (a + i) = bs.getD i 0 := by
  induction bs generalizing m a i with
  | nil => simp at h
  | cons b bs ih =>
    cases i with
    | zero =>
      rw [setBytes, Nat.add_zero, byteAt_setBytes_outside _ _ _ _ (by omega)]
      simp
    | succ i =>
      simp only [List.length_cons] at h
      rw [setBytes, show a + (i + 1) = a + 1 + i by omega, ih _ _ _ (by omega)]
      simp

theorem wf_setByte (m : List Host.Cell) (a : Nat) (b : Byte) (h : Memory.wf m = true) :
    Memory.wf (setByte m a b) = true := by
  simp only [Memory.wf, Bool.and_eq_true, List.all_eq_true] at h ⊢
  unfold setByte
  split
  · exact ⟨twf_tdel m a h.1, fun c hc => h.2 c (List.mem_filter.1 hc).1⟩
  next hb =>
    refine ⟨twf_tset m a b h.1, ?_⟩
    intro c hc
    rcases mem_tset m a b c hc with rfl | hc
    · simpa using hb
    · exact h.2 c hc

/-- Writing bytes keeps memory in its canonical form. -/
theorem wf_setBytes (bs : List Byte) (m : List Host.Cell) (a : Nat) (h : Memory.wf m = true) :
    Memory.wf (setBytes m a bs) = true := by
  induction bs generalizing m a with
  | nil => exact h
  | cons b bs ih => exact ih _ _ (wf_setByte m a b h)

/-- Dropping bytes keeps memory in its canonical form. -/
theorem wf_filter (m : List Host.Cell) (f : Host.Cell → Bool) (h : Memory.wf m = true) : Memory.wf (m.filter f) = true := by
  simp only [Memory.wf, Bool.and_eq_true, List.all_eq_true] at h ⊢
  exact ⟨twf_filter m f h.1, fun c hc => h.2 c (List.mem_filter.1 hc).1⟩

/-! ### Registers -/

/-- A register just written reads as it was written. -/
@[simp] theorem reg_setReg_same (s : State) (off : Nat) (w : Word) : (s.setReg off w).reg off = w := by
  unfold State.reg State.setReg tgetD
  simp only
  split
  next h => simp [h]
  next h => simp

/-- A register written leaves every other one alone. -/
theorem reg_setReg_ne (s : State) (off o : Nat) (w : Word) (h : o ≠ off) : (s.setReg off w).reg o = s.reg o := by
  unfold State.reg State.setReg tgetD
  simp only
  split
  · rw [tget_tdel_ne _ _ _ h]
  · rw [tget_tset_ne _ _ _ _ h]

/-- Writing a register keeps the registers in their canonical form. -/
theorem regsWf_setReg (s : State) (off : Nat) (w : Word) (h : s.regsWf = true) :
    (s.setReg off w).regsWf = true := by
  simp only [State.regsWf, Bool.and_eq_true, List.all_eq_true] at h ⊢
  unfold State.setReg
  simp only
  split
  · exact ⟨twf_tdel _ _ h.1, fun c hc => h.2 c (List.mem_filter.1 hc).1⟩
  next hw =>
    refine ⟨twf_tset _ _ _ h.1, ?_⟩
    intro c hc
    rcases mem_tset _ _ _ c hc with rfl | hc
    · simpa using hw
    · exact h.2 c hc

/-! ### The least of a list -/

/-- The element found is one of the list. -/
theorem minBy_mem {α : Type} (f : α → Nat) (l : List α) (x : α) (h : minBy f l = some x) : x ∈ l := by
  induction l generalizing x with
  | nil => simp [minBy] at h
  | cons y ys ih =>
    simp only [minBy] at h
    split at h
    · simp_all
    next z hz =>
      split at h
      · simp_all
      · exact List.mem_cons_of_mem _ (ih x (by simp_all))

/-- No element of the list has a lower key than the one found. -/
theorem minBy_le {α : Type} (f : α → Nat) (l : List α) (x : α) (h : minBy f l = some x) (y : α) (hy : y ∈ l) : f x ≤ f y := by
  induction l generalizing x with
  | nil => simp at hy
  | cons z zs ih =>
    simp only [minBy] at h
    split at h
    next hz =>
      cases zs with
      | nil => simp_all
      | cons a b => simp only [minBy] at hz; split at hz <;> (try split at hz) <;> simp at hz
    next w hw =>
      split at h <;> rename_i hle <;> cases h <;> rcases List.mem_cons.1 hy with rfl | hy
      · exact Nat.le_refl _
      · exact Nat.le_trans hle (ih _ hw hy)
      · omega
      · exact ih _ hw hy

/-! ### Sorted lists -/

/-- An insertion adds the element and nothing else. -/
theorem mem_insertBy {α : Type} (lt : α → α → Bool) (x y : α) (l : List α) : y ∈ insertBy lt x l ↔ y = x ∨ y ∈ l := by
  induction l with
  | nil => simp [insertBy]
  | cons z zs ih =>
    unfold insertBy
    split
    · simp
    · simp only [List.mem_cons, ih]
      exact or_left_comm

/-- Sorting keeps the elements. -/
theorem mem_sortBy {α : Type} (lt : α → α → Bool) (y : α) (l : List α) : y ∈ sortBy lt l ↔ y ∈ l := by
  have h : ∀ (l acc : List α), y ∈ l.foldl (fun acc x => insertBy lt x acc) acc ↔ y ∈ acc ∨ y ∈ l := by
    intro l
    induction l with
    | nil => intro acc; simp
    | cons z zs ih =>
      intro acc
      rw [List.foldl_cons, ih, mem_insertBy, List.mem_cons]
      constructor <;> rintro (h | h) <;> tauto
  unfold sortBy
  rw [h]
  simp

end Sys2Proof.Laws
end

