-- ==== Sys2Proof/Laws/Fields.lean ====
section
/-! SUPPORT. What a field of a register reads after a write of a field. -/

namespace Sys2Proof.Laws

open Sys2Proof Sys2Proof.Machine

theorem fld_testBit (w : Word) (lo width k : Nat) :
    (fld w lo width).testBit k = (decide (k < width) && w.getLsbD (lo + k)) := by
  simp [fld, Nat.testBit_mod_two_pow, Nat.testBit_shiftRight, BitVec.getLsbD]

theorem setFld_getLsbD (w : Word) (lo width v k : Nat) (hk : k < 64) :
    (setFld w lo width v).getLsbD k =
      if lo ≤ k ∧ k < lo + width then v.testBit (k - lo) else w.getLsbD k := by
  simp only [setFld, BitVec.getLsbD_or, BitVec.getLsbD_and, BitVec.getLsbD_not, BitVec.getLsbD_ofNat, Nat.testBit_shiftLeft,
    Nat.testBit_mod_two_pow, Nat.testBit_two_pow_sub_one, hk, decide_true, Bool.true_and]
  by_cases h1 : lo ≤ k
  · by_cases h2 : k < lo + width
    · have h3 : k - lo < width := by omega
      simp [h1, h2, h3]
    · have h3 : ¬ k - lo < width := by omega
      simp [h2, h3]
  · simp [h1]

/-- A field just written reads as the value, modulo its size. -/
theorem fld_setFld_same (w : Word) (lo width v : Nat) (h : lo + width ≤ 64) :
    fld (setFld w lo width v) lo width = v % 2 ^ width := by
  apply Nat.eq_of_testBit_eq
  intro k
  rw [fld_testBit, Nat.testBit_mod_two_pow]
  by_cases hk : k < width
  · rw [setFld_getLsbD _ _ _ _ _ (by omega)]
    simp [hk]
  · simp [hk]

/-- A field written leaves every field of other bits alone. -/
theorem fld_setFld_ne (w : Word) (lo width v lo2 width2 : Nat) (h : lo + width ≤ lo2 ∨ lo2 + width2 ≤ lo) :
    fld (setFld w lo width v) lo2 width2 = fld w lo2 width2 := by
  apply Nat.eq_of_testBit_eq
  intro k
  rw [fld_testBit, fld_testBit]
  by_cases hk : k < width2
  · by_cases h64 : lo2 + k < 64
    · rw [setFld_getLsbD _ _ _ _ _ h64, if_neg (by omega)]
    · rw [BitVec.getLsbD_of_ge _ _ (by omega), BitVec.getLsbD_of_ge _ _ (by omega)]
  · simp [hk]

theorem fld_lt (w : Word) (lo width : Nat) : fld w lo width < 2 ^ width := Nat.mod_lt _ (Nat.two_pow_pos _)

/-- A field of an array just written reads as the value, modulo its size. -/
theorem rdi_wri_same (s : State) (f : Field) (i v : Nat) (h : f.lo + f.width ≤ 64) :
    rdi (wri s f i v) f i = v % 2 ^ f.width := by
  unfold rdi wri
  rw [reg_setReg_same, fld_setFld_same _ _ _ _ h]

/-- A write of one register leaves the others alone. -/
theorem rdi_wri_off (s : State) (f g : Field) (i j v : Nat) (h : g.off j ≠ f.off i) :
    rdi (wri s f i v) g j = rdi s g j := by
  unfold rdi wri
  rw [reg_setReg_ne _ _ _ _ h]

/-- A write of a field leaves fields of other bits alone, whatever their registers. -/
theorem rdi_wri_bits (s : State) (f g : Field) (i j v : Nat) (h : f.lo + f.width ≤ g.lo ∨ g.lo + g.width ≤ f.lo) :
    rdi (wri s f i v) g j = rdi s g j := by
  by_cases ho : g.off j = f.off i
  · unfold rdi wri
    rw [ho, reg_setReg_same, fld_setFld_ne _ _ _ _ _ _ h]
  · exact rdi_wri_off s f g i j v ho

/-- Two fields of single registers that share no bit. -/
def apart (f g : Field) : Bool :=
  decide (g.base ≠ f.base) || decide (f.lo + f.width ≤ g.lo) || decide (g.lo + g.width ≤ f.lo)

/-- A field just written reads as the value, modulo its size. -/
theorem rd_wr_same (s : State) (f : Field) (v : Nat) (h : f.lo + f.width ≤ 64) : rd (wr s f v) f = v % 2 ^ f.width :=
  rdi_wri_same s f 0 v h

/-- A field written leaves every field apart from it alone. -/
theorem rd_wr_apart (s : State) (f g : Field) (v : Nat) (h : apart f g = true) : rd (wr s f v) g = rd s g := by
  simp only [apart, Bool.or_eq_true, decide_eq_true_eq] at h
  rcases h with (h | h) | h
  · exact rdi_wri_off s f g 0 0 v (by simpa [Field.off] using h)
  · exact rdi_wri_bits s f g 0 0 v (.inl h)
  · exact rdi_wri_bits s f g 0 0 v (.inr h)

/-- A counter bumped reads one more, up to its largest value (R8). -/
theorem rd_bump_same (s : State) (f : Field) (h : f.lo + f.width ≤ 64) :
    rd (bump s f) f = min (2 ^ f.width - 1) (rd s f + 1) := by
  unfold bump addSat
  rw [show wri s f 0 (min (2 ^ f.width - 1) (rdi s f 0 + 1)) = wr s f (min (2 ^ f.width - 1) (rd s f + 1)) from rfl,
    rd_wr_same _ _ _ h]
  exact Nat.mod_eq_of_lt (by have := Nat.two_pow_pos f.width; omega)

/-- A counter bumped leaves every field apart from it alone. -/
theorem rd_bump_apart (s : State) (f g : Field) (h : apart f g = true) : rd (bump s f) g = rd s g :=
  rd_wr_apart s f g _ h

/-! ### Fields of a register table -/

/-- Field `f` of register `i` of an array, in a register table. -/
def rdT (r : Tbl Word) (f : Field) (i : Nat) : Nat := fld (tgetD r (f.off i) (resetWord (f.off i))) f.lo f.width

/-- A register table with field `f` of register `i` of an array written. -/
def wrT (r : Tbl Word) (f : Field) (i v : Nat) : Tbl Word := (wri { State.reset with regs := r } f i v).regs

theorem rdi_eq (s : State) (f : Field) (i : Nat) : rdi s f i = rdT s.regs f i := rfl
theorem rd_eq (s : State) (f : Field) : rd s f = rdT s.regs f 0 := rfl
theorem wri_regs (s : State) (f : Field) (i v : Nat) : (wri s f i v).regs = wrT s.regs f i v := rfl
theorem wr_regs (s : State) (f : Field) (v : Nat) : (wr s f v).regs = wrT s.regs f 0 v := rfl
theorem addSat_regs (s : State) (f : Field) (i n : Nat) :
    (addSat s f i n).regs = wrT s.regs f i (min (2 ^ f.width - 1) (rdT s.regs f i + n)) := rfl
theorem bump_regs (s : State) (f : Field) : (bump s f).regs = wrT s.regs f 0 (min (2 ^ f.width - 1) (rdT s.regs f 0 + 1)) := rfl
theorem bumpBy_regs (s : State) (f : Field) (n : Nat) :
    (bumpBy s f n).regs = wrT s.regs f 0 (min (2 ^ f.width - 1) (rdT s.regs f 0 + n)) := rfl

/-- A field of a table just written reads as the value, modulo its size. -/
theorem rdT_wrT_same (r : Tbl Word) (f : Field) (i v : Nat) (h : f.lo + f.width ≤ 64) :
    rdT (wrT r f i v) f i = v % 2 ^ f.width := rdi_wri_same { State.reset with regs := r } f i v h

/-- A field of a table written leaves every field apart from it alone. -/
theorem rdT_wrT_apart (r : Tbl Word) (f g : Field) (v : Nat) (h : apart f g = true) :
    rdT (wrT r f 0 v) g 0 = rdT r g 0 := rd_wr_apart { State.reset with regs := r } f g v h

/-- Another register of an array keeps its fields. -/
theorem rdT_wrT_off (r : Tbl Word) (f g : Field) (i j v : Nat) (h : g.off j ≠ f.off i) :
    rdT (wrT r f i v) g j = rdT r g j := rdi_wri_off { State.reset with regs := r } f g i j v h

/-- Fields of other bits are left alone, whatever their registers. -/
theorem rdT_wrT_bits (r : Tbl Word) (f g : Field) (i j v : Nat) (h : f.lo + f.width ≤ g.lo ∨ g.lo + g.width ≤ f.lo) :
    rdT (wrT r f i v) g j = rdT r g j := rdi_wri_bits { State.reset with regs := r } f g i j v h

/-! ### Registers left alone -/

/-- States of one register table read the same fields. -/
theorem rd_congr {s t : State} (h : t.regs = s.regs) (f : Field) : rd t f = rd s f := by
  unfold rd rdi State.reg
  rw [h]

theorem rdi_congr {s t : State} (h : t.regs = s.regs) (f : Field) (i : Nat) : rdi t f i = rdi s f i := by
  unfold rdi State.reg
  rw [h]

theorem sameRegsBut_refl (s : State) (offs : List Nat) : sameRegsBut s s offs := fun _ _ => rfl

theorem sameRegsBut_congr {s t u : State} {offs : List Nat} (h : sameRegsBut s t offs) (k : u.regs = t.regs) :
    sameRegsBut s u offs := by
  intro o ho
  rw [← h o ho]
  unfold State.reg
  rw [k]

/-- The registers of `t` are a table that differs from that of `s` at the offsets listed. -/
def sameT (r u : Tbl Word) (offs : List Nat) : Prop :=
  ∀ o, o ∉ offs → tgetD u o (resetWord o) = tgetD r o (resetWord o)

theorem sameRegsBut_iff (s t : State) (offs : List Nat) : sameRegsBut s t offs ↔ sameT s.regs t.regs offs := Iff.rfl

theorem sameT_refl (r : Tbl Word) (offs : List Nat) : sameT r r offs := fun _ _ => rfl

theorem sameT_wrT {r u : Tbl Word} {offs : List Nat} (f : Field) (i v : Nat) (hm : f.off i ∈ offs) (h : sameT r u offs) :
    sameT r (wrT u f i v) offs := by
  intro o ho
  rw [← h o ho]
  exact reg_setReg_ne { State.reset with regs := u } _ _ _ (fun e => ho (e ▸ hm))

theorem sameRegsBut_wri {s t : State} {offs : List Nat} (f : Field) (i v : Nat) (h : sameRegsBut s t offs)
    (hm : f.off i ∈ offs) : sameRegsBut s (wri t f i v) offs := by
  intro o ho
  rw [← h o ho]
  exact reg_setReg_ne _ _ _ _ (fun e => ho (e ▸ hm))

theorem sameRegsBut_wr {s t : State} {offs : List Nat} (f : Field) (v : Nat) (h : sameRegsBut s t offs)
    (hm : f.off 0 ∈ offs) : sameRegsBut s (wr t f v) offs := sameRegsBut_wri f 0 v h hm

end Sys2Proof.Laws
end

