-- ==== Sys2Proof/Laws/Desc.lean ====
section
/-! SUPPORT. What becomes of a descriptor that is dispatched. -/

namespace Sys2Proof.Laws

open Sys2Proof Sys2Proof.Machine

/-- A dispatched descriptor that passes its checks is acted on. -/
theorem runDesc_acts {s u : State} {k : RingKey} {d : Desc} {key : DescKey} {payload : List Nat}
    {checks : State → DescKey → List Check} {act : State → DescKey → Nat → State} (h : dispatched s k d key u)
    (hc : passes d payload (checks u key)) : runDesc s k d payload checks act = act u key (flightId key) := by
  obtain ⟨hu, s1, ht, rfl⟩ := h
  unfold passes at hc
  simp only [runDesc, whenUp, hu, ht, hc, if_true]

/-- A dispatched descriptor that fails a check is rejected with the first that fails. -/
theorem runDesc_rejects {s u : State} {k : RingKey} {d : Desc} {key : DescKey} {payload : List Nat} {c : Check}
    {checks : State → DescKey → List Check} {act : State → DescKey → Nat → State} (h : dispatched s k d key u)
    (hc : firstFail (headChecks d payload ++ checks u key) = some c) :
    runDesc s k d payload checks act = reject u (flightId key) c := by
  obtain ⟨hu, s1, ht, rfl⟩ := h
  simp only [runDesc, whenUp, hu, ht, hc, if_true]

/-- A descriptor passes when its header and payload bytes do and none of its further checks fails. -/
theorem passes_of {d : Desc} {payload : List Nat} {checks : List Check} (h : passes d payload [])
    (hc : checks.all (fun c => !c.bad) = true) : passes d payload checks := by
  unfold passes firstFail at h ⊢
  rw [List.append_nil] at h
  rw [List.find?_append, h, Option.none_or, List.find?_eq_none]
  intro c hm
  simpa using List.all_eq_true.1 hc c hm

/-- Before the controller is up no descriptor is taken. -/
theorem runDesc_down {s : State} {k : RingKey} {d : Desc} {payload : List Nat} {checks : State → DescKey → List Check}
    {act : State → DescKey → Nat → State} (h : isUp s = false) : runDesc s k d payload checks act = s := by
  simp only [runDesc, whenUp, h, Bool.false_eq_true, if_false]

end Sys2Proof.Laws
end

