-- ==== Sys2Proof/Laws/Evo.lean ====
section
/-! SUPPORT. What no operation of the block does: break the canonical form of registers or memory, touch the queue of waiting
commands, turn back a fuse, or take back what has been sent. `Evo s t` says that `t` comes of `s` in this way. -/

namespace Sys2Proof.Laws

open Sys2Proof Sys2Proof.Machine

theorem fusesRise_refl (a : Fuses) : fusesRise a a :=
  ⟨rfl, rfl, id, fun _ => id, Nat.le_refl _, Nat.le_refl _, Nat.le_refl _⟩

theorem fusesRise_trans {a b c : Fuses} (h : fusesRise a b) (k : fusesRise b c) : fusesRise a c := by
  obtain ⟨h1, h2, h3, h4, h5, h6, h7⟩ := h
  obtain ⟨k1, k2, k3, k4, k5, k6, k7⟩ := k
  exact ⟨k1.trans h1, k2.trans h2, k3 ∘ h3, fun i => k4 i ∘ h4 i, h5.trans k5, h6.trans k6, h7.trans k7⟩

/-- Registers and memory stay in their canonical form, the queue stands, what was sent is only added to, and fuses change only
upward. -/
structure Evo (s t : State) : Prop where
  regs : s.regsWf = true → t.regsWf = true
  hbm : s.memoryWf = true → t.memoryWf = true
  pending : t.pending = s.pending
  out : s.out <+: t.out
  fuses : fusesRise s.sec.fuses t.sec.fuses

theorem Evo.refl (s : State) : Evo s s := ⟨id, id, rfl, List.prefix_rfl, fusesRise_refl _⟩

theorem Evo.trans {s t u : State} (h : Evo s t) (k : Evo t u) : Evo s u :=
  ⟨k.regs ∘ h.regs, k.hbm ∘ h.hbm, k.pending.trans h.pending, h.out.trans k.out, fusesRise_trans h.fuses k.fuses⟩

/-- A state that differs in none of registers, memory, queue, fuses and what was sent. -/
theorem evo_mk {z e : State} {sec : SecState} {a1 a2 a3 a4 a6 a7 a8 a9 a10 a11 a12 a13 a14 a15 a16 a17 a18 a19 a20 f}
    (hs : sec.fuses = e.sec.fuses) :
    Evo z (State.mk e.regs e.hbm a1 a2 a3 a4 sec a6 a7 a8 a9 a10 a11 a12 a13 a14 a15 a16 a17 a18 a19 a20 e.out e.pending f) ↔
      Evo z e :=
  ⟨fun h => ⟨h.regs, h.hbm, h.pending, h.out, hs ▸ h.fuses⟩,
    fun h => ⟨h.regs, h.hbm, h.pending, h.out, show fusesRise _ sec.fuses from hs ▸ h.fuses⟩⟩

theorem pair_evo {α : Type} {z t : State} {p : State × α} {x : α} (e : p = (t, x)) (h : Evo z p.1) : Evo z t := by
  rw [e] at h
  exact h

/-- Every state that an optional result holds comes of `z`. -/
def OEvo (z : State) (o : Option State) : Prop := ∀ t, o = some t → Evo z t

theorem Evo.foldl {α : Type} {z : State} {f : State → α → State} (hf : ∀ s x, Evo z s → Evo z (f s x)) (l : List α)
    {s : State} (h : Evo z s) : Evo z (l.foldl f s) := by
  induction l generalizing s with
  | nil => exact h
  | cons x l ih => exact ih (hf s x h)

theorem Evo.foldl_fst {α β : Type} {z : State} {f : State × β → α → State × β}
    (hf : ∀ p x, Evo z p.1 → Evo z (f p x).1) (l : List α) {p : State × β} (h : Evo z p.1) : Evo z (l.foldl f p).1 := by
  induction l generalizing p with
  | nil => exact h
  | cons x l ih => exact ih (hf p x h)

theorem Evo.elim {α : Type} {z d : State} {f : α → State} {o : Option α} (h : Evo z d) (hf : ∀ x, Evo z (f x)) :
    Evo z (o.elim d f) := by
  cases o with
  | none => exact h
  | some x => exact hf x

theorem Evo.getD {z d : State} {o : Option State} (h : Evo z d) (ho : ∀ t, o = some t → Evo z t) : Evo z (o.getD d) := by
  cases o with
  | none => exact h
  | some t => exact ho t rfl

theorem evo_setReg {z s : State} {off : Nat} {w : Word} (h : Evo z s) : Evo z (s.setReg off w) :=
  ⟨fun k => regsWf_setReg s off w (h.regs k), h.hbm, h.pending, h.out, h.fuses⟩

theorem evo_emit {z s : State} {o : Output} (h : Evo z s) : Evo z (emit s o) :=
  ⟨h.regs, h.hbm, h.pending, h.out.trans (List.prefix_append _ _), h.fuses⟩

theorem evo_emits {z s : State} {os : List Output} (h : Evo z s) : Evo z (emits s os) :=
  ⟨h.regs, h.hbm, h.pending, h.out.trans (List.prefix_append _ _), h.fuses⟩

theorem evo_storeMem {z s : State} {a : Nat} {bs : List Byte} (h : Evo z s) : Evo z (storeMem s a bs) :=
  ⟨h.regs, fun k => wf_setBytes bs s.hbm a (h.hbm k), h.pending, h.out, h.fuses⟩

end Sys2Proof.Laws
end

