-- ==== Sys2Proof/Laws/EvoOps.lean ====
section
/-! SUPPORT. The operations of the named operations keep registers and memory in their canonical form, leave the queue alone, and
take nothing back that was sent (`Evo`). -/

namespace Sys2Proof.Laws

open Sys2Proof Sys2Proof.Machine

theorem evo_wri {z : State} {s : State} {a2} {a3} {a4} (hs : Evo z s) :
    Evo z (Machine.wri s a2 a3 a4) := by
  unfold Machine.wri
  repeat' with_reducible first
    | assumption | apply evo_setReg

theorem evo_wr {z : State} {s : State} {a2} {a3} (hs : Evo z s) :
    Evo z (Machine.wr s a2 a3) := by
  unfold Machine.wr
  repeat' with_reducible first
    | assumption | apply evo_wri

theorem evo_addSat {z : State} {s : State} {a2} {a3} {a4} (hs : Evo z s) :
    Evo z (Machine.addSat s a2 a3 a4) := by
  unfold Machine.addSat
  repeat' with_reducible first
    | assumption | apply evo_wri

theorem evo_bump {z : State} {s : State} {a2} (hs : Evo z s) :
    Evo z (Machine.bump s a2) := by
  unfold Machine.bump
  repeat' with_reducible first
    | assumption | apply evo_addSat

theorem evo_bumpBy {z : State} {s : State} {a2} {a3} (hs : Evo z s) :
    Evo z (Machine.bumpBy s a2 a3) := by
  unfold Machine.bumpBy
  repeat' with_reducible first
    | assumption | apply evo_addSat

theorem evo_tickFree {z : State} {s : State} (hs : Evo z s) :
    Evo z (Machine.tickFree s) := by
  unfold Machine.tickFree
  repeat' first
    | (with_reducible first
        | assumption | apply Evo.foldl | apply Evo.foldl_fst | apply Evo.elim | apply Evo.getD)
    | simp only [evo_mk]

theorem evo_whenUp {z : State} {s : State} {a2 : State → State} (hs : Evo z s) (ha2 : ∀ x0, Evo z x0 → Evo z (a2 x0)) :
    Evo z (Machine.whenUp s a2) := by
  unfold Machine.whenUp
  repeat' first
    | (with_reducible first
        | assumption | apply ha2 | apply Evo.foldl | apply Evo.foldl_fst | apply Evo.elim | apply Evo.getD)
    | simp only [evo_mk] | split

theorem evo_backInvalidate {z : State} {s : State} {a2} {a3} (hs : Evo z s) :
    Evo z (Machine.backInvalidate s a2 a3) := by
  unfold Machine.backInvalidate
  repeat' first
    | (with_reducible first
        | assumption | apply evo_emits | apply Evo.foldl | apply Evo.foldl_fst | apply Evo.elim | apply Evo.getD)
    | simp only [evo_mk] | split

theorem evo_writeMem {z : State} {s : State} {a2} {a3} (hs : Evo z s) :
    Evo z (Machine.writeMem s a2 a3) := by
  unfold Machine.writeMem
  repeat' with_reducible first
    | assumption | apply evo_storeMem | apply evo_backInvalidate

theorem evo_writeWord {z : State} {s : State} {a2} {a3} (hs : Evo z s) :
    Evo z (Machine.writeWord s a2 a3) := by
  unfold Machine.writeWord
  repeat' with_reducible first
    | assumption | apply evo_writeMem

theorem evo_zeroMem {z : State} {s : State} {a2} {a3} (hs : Evo z s) :
    Evo z (Machine.zeroMem s a2 a3) :=
  have h := evo_backInvalidate (a2 := a2) (a3 := a3) hs
  ⟨h.regs, fun k => wf_filter _ _ (h.hbm k), h.pending, h.out, h.fuses⟩

theorem evo_rasRepeat {z : State} {s : State} (hs : Evo z s) :
    Evo z (Machine.rasRepeat s) := by
  unfold Machine.rasRepeat
  repeat' first
    | (with_reducible first
        | assumption | apply Evo.foldl | apply Evo.foldl_fst | apply Evo.elim | apply Evo.getD)
    | simp only [evo_mk] | split

theorem evo_raiseRecord_place {z : State} {s : State} {a2} (hs : Evo z s) :
    Evo z (Machine.raiseRecord.place s a2) := by
  unfold Machine.raiseRecord.place
  repeat' first
    | (with_reducible first
        | assumption | apply Evo.foldl | apply Evo.foldl_fst | apply Evo.elim | apply Evo.getD)
    | simp only [evo_mk] | split

theorem evo_raiseRecord {z : State} {s : State} {a2} (hs : Evo z s) :
    Evo z (Machine.raiseRecord s a2) := by
  unfold Machine.raiseRecord
  repeat' first
    | (with_reducible first
        | assumption | apply evo_rasRepeat | apply evo_raiseRecord_place | apply Evo.foldl | apply Evo.foldl_fst
        | apply Evo.elim | apply Evo.getD)
    | simp only [evo_mk] | split

theorem evo_record {z : State} {s : State} {a2} {a3} {a4} {a5} {a6} {a7} {a8} (hs : Evo z s) :
    Evo z (Machine.record s a2 a3 a4 a5 a6 a7 a8) := by
  unfold Machine.record
  repeat' with_reducible first
    | assumption | apply evo_raiseRecord

theorem evo_recordRetire {z : State} {s : State} {a2} {a3} {a4} (hs : Evo z s) :
    Evo z (Machine.recordRetire s a2 a3 a4) := by
  unfold Machine.recordRetire
  repeat' with_reducible first
    | assumption | apply evo_raiseRecord

theorem evo_writeEvent {z : State} {s : State} {a2} {a3} {a4} {a5} {a6} {a7} (hs : Evo z s) :
    Evo z (Machine.writeEvent s a2 a3 a4 a5 a6 a7) := by
  unfold Machine.writeEvent
  repeat' first
    | (with_reducible first
        | assumption | apply evo_emits | apply Evo.foldl | apply Evo.foldl_fst | apply Evo.elim | apply Evo.getD)
    | simp only [evo_mk] | split

theorem evo_postEvent {z : State} {s : State} {a2} {a3} {a4} {a5} {a6} {a7} {a8} {a9} (hs : Evo z s) :
    Evo z (Machine.postEvent s a2 a3 a4 a5 a6 a7 a8 a9) := by
  unfold Machine.postEvent
  repeat' first
    | (with_reducible first
        | assumption | apply evo_record | apply evo_writeEvent | apply Evo.foldl | apply Evo.foldl_fst | apply Evo.elim
        | apply Evo.getD)
    | simp only [evo_mk] | split

theorem evo_errorEvent {z : State} {s : State} {a2} {a3} {a4} {a5} {a6} {a7} (hs : Evo z s) :
    Evo z (Machine.errorEvent s a2 a3 a4 a5 a6 a7) := by
  unfold Machine.errorEvent
  repeat' with_reducible first
    | assumption | apply evo_postEvent

theorem evo_openEvent {z : State} {s : State} {a2} {a3} {a4} {a5} {a6} (hs : Evo z s) :
    Evo z (Machine.openEvent s a2 a3 a4 a5 a6) := by
  unfold Machine.openEvent
  repeat' with_reducible first
    | assumption | apply evo_postEvent

theorem evo_recordLocked {z : State} {s : State} (hs : Evo z s) :
    Evo z (Machine.recordLocked s) := by
  unfold Machine.recordLocked
  repeat' with_reducible first
    | assumption | apply evo_record

theorem evo_prelock {z : State} {s : State} {a2} (hs : Evo z s) :
    Evo z (Machine.prelock s a2) := by
  unfold Machine.prelock
  repeat' first
    | (with_reducible first
        | assumption | apply evo_bump | apply evo_emit | apply evo_recordLocked | apply Evo.foldl | apply Evo.foldl_fst
        | apply Evo.elim | apply Evo.getD)
    | dsimp only | split

theorem evo_bar0 {z : State} {s : State} {a2 : State → State} (hs : Evo z s) (ha2 : ∀ x0, Evo z x0 → Evo z (a2 x0)) :
    Evo z (Machine.bar0 s a2) := by
  unfold Machine.bar0
  repeat' first
    | (with_reducible first
        | assumption | apply ha2 | apply evo_prelock | apply Evo.foldl | apply Evo.foldl_fst | apply Evo.elim
        | apply Evo.getD)
    | simp only [evo_mk] | split

theorem evo_lockedWrite {z : State} {s : State} (hs : Evo z s) :
    Evo z (Machine.lockedWrite s) := by
  unfold Machine.lockedWrite
  repeat' with_reducible first
    | assumption | apply evo_recordLocked | apply evo_bump

theorem evo_faultCtx {z : State} {s : State} {a2} {a3} (hs : Evo z s) :
    Evo z (Machine.faultCtx s a2 a3) := by
  unfold Machine.faultCtx
  repeat' first
    | (with_reducible first
        | assumption | apply evo_openEvent | apply Evo.foldl | apply Evo.foldl_fst | apply Evo.elim | apply Evo.getD)
    | simp only [evo_mk] | split

end Sys2Proof.Laws
end

