-- ==== Sys2Proof/Laws/EvoOperands.lean ====
section
/-! SUPPORT. The operations of the operand and completion operations keep registers and memory in their canonical form, leave the queue alone, and
take nothing back that was sent (`Evo`). -/

namespace Sys2Proof.Laws

open Sys2Proof Sys2Proof.Machine

theorem evo_setCtx {z : State} {s : State} {a2} {a3} (hs : Evo z s) :
    Evo z (Machine.setCtx s a2 a3) := by
  unfold Machine.setCtx
  repeat' first
    | (with_reducible first
        | assumption | apply Evo.foldl | apply Evo.foldl_fst | apply Evo.elim | apply Evo.getD)
    | simp only [evo_mk]

theorem evo_modCtx {z : State} {s : State} {a2} {a3} (hs : Evo z s) :
    Evo z (Machine.modCtx s a2 a3) := by
  unfold Machine.modCtx
  repeat' first
    | (with_reducible first
        | assumption | apply Evo.foldl | apply Evo.foldl_fst | apply Evo.elim | apply Evo.getD)
    | simp only [evo_mk]

theorem evo_setFlight {z : State} {s : State} {a2} {a3} (hs : Evo z s) :
    Evo z (Machine.setFlight s a2 a3) := by
  unfold Machine.setFlight
  repeat' first
    | (with_reducible first
        | assumption | apply Evo.foldl | apply Evo.foldl_fst | apply Evo.elim | apply Evo.getD)
    | simp only [evo_mk]

theorem evo_delFlight {z : State} {s : State} {a2} (hs : Evo z s) :
    Evo z (Machine.delFlight s a2) := by
  unfold Machine.delFlight
  repeat' first
    | (with_reducible first
        | assumption | apply Evo.foldl | apply Evo.foldl_fst | apply Evo.elim | apply Evo.getD)
    | simp only [evo_mk]

theorem evo_modReq {z : State} {s : State} {a2} {a3} (hs : Evo z s) :
    Evo z (Machine.modReq s a2 a3) := by
  unfold Machine.modReq
  repeat' first
    | (with_reducible first
        | assumption | apply Evo.foldl | apply Evo.foldl_fst | apply Evo.elim | apply Evo.getD)
    | simp only [evo_mk]

theorem evo_putRecord {z : State} {s : State} {a2} {a3} {a4} {a5} {a6} {a7} (hs : Evo z s) :
    Evo z (Machine.putRecord s a2 a3 a4 a5 a6 a7) := by
  unfold Machine.putRecord
  repeat' with_reducible first
    | assumption | apply evo_setCtx | apply evo_emits

theorem evo_writeRecord {z : State} {s : State} {a2} {a3} {a4} (hs : Evo z s) :
    Evo z (Machine.writeRecord s a2 a3 a4) := by
  unfold Machine.writeRecord
  repeat' first
    | (with_reducible first
        | assumption | apply evo_setCtx | apply evo_bump | apply evo_emit | apply evo_modReq | apply evo_putRecord
        | apply Evo.foldl | apply Evo.foldl_fst | apply Evo.elim | apply Evo.getD)
    | dsimp only | split

theorem evo_endFlight {z : State} {s : State} {a2} {a3} {a4} {a5} {a6} {a7} (hs : Evo z s) :
    Evo z (Machine.endFlight s a2 a3 a4 a5 a6 a7) := by
  unfold Machine.endFlight
  repeat' first
    | (with_reducible first
        | assumption | apply evo_delFlight | apply evo_writeRecord | apply Evo.foldl | apply Evo.foldl_fst | apply Evo.elim
        | apply Evo.getD)
    | dsimp only | split

theorem evo_releaseReady {z : State} {a1} {s : State} {a3} {a4} (hs : Evo z s) :
    Evo z (Machine.releaseReady a1 s a3 a4) := by
  induction a1 generalizing s a3 a4 with
  | zero =>
    unfold Machine.releaseReady
    repeat' with_reducible first
      | assumption
  | succ n ih =>
    unfold Machine.releaseReady
    repeat' first
      | (with_reducible first
          | assumption | apply ih | apply evo_endFlight | apply Evo.foldl | apply Evo.foldl_fst | apply Evo.elim
          | apply Evo.getD)
      | simp only [evo_mk] | split

theorem evo_complete {z : State} {s : State} {a2} {a3} {a4} {a5} {a6} (hs : Evo z s) :
    Evo z (Machine.complete s a2 a3 a4 a5 a6) := by
  unfold Machine.complete
  repeat' first
    | (with_reducible first
        | assumption | apply evo_setFlight | apply evo_endFlight | apply evo_releaseReady | apply Evo.foldl
        | apply Evo.foldl_fst | apply Evo.elim | apply Evo.getD)
    | dsimp only | split

theorem evo_completeWith {z : State} {s : State} {a2} {a3} {a4} (hs : Evo z s) :
    Evo z (Machine.completeWith s a2 a3 a4) := by
  unfold Machine.completeWith
  repeat' with_reducible first
    | assumption | apply evo_complete

theorem evo_completeSt {z : State} {s : State} {a2} {a3} (hs : Evo z s) :
    Evo z (Machine.completeSt s a2 a3) := by
  unfold Machine.completeSt
  repeat' with_reducible first
    | assumption | apply evo_completeWith

theorem evo_completeOk {z : State} {s : State} {a2} (hs : Evo z s) :
    Evo z (Machine.completeOk s a2) := by
  unfold Machine.completeOk
  repeat' with_reducible first
    | assumption | apply evo_completeSt

theorem evo_reject {z : State} {s : State} {a2} {a3} (hs : Evo z s) :
    Evo z (Machine.reject s a2 a3) := by
  unfold Machine.reject
  repeat' with_reducible first
    | assumption | apply evo_completeWith

theorem evo_takeDesc_waits {z s t : State} {k d} (hs : Evo z s) (ht : takeDesc s k d = .waits t) : Evo z t := by
  unfold Machine.takeDesc at ht
  repeat' first
    | (with_reducible first
        | assumption | apply evo_emits | apply evo_emit | apply evo_setCtx)
    | split at ht | dsimp only at ht | (obtain rfl := Taken.waits.inj ht) | cases ht

theorem evo_takeDesc_dispatched {z s t : State} {k d key} (hs : Evo z s) (ht : takeDesc s k d = .dispatched t key) :
    Evo z t := by
  unfold Machine.takeDesc at ht
  repeat' first
    | (with_reducible first
        | assumption | apply evo_emits | apply evo_emit | apply evo_setCtx)
    | split at ht | dsimp only at ht | (obtain ⟨rfl, rfl⟩ := Taken.dispatched.inj ht) | cases ht

theorem evo_runDesc {z : State} {s : State} {a2} {a3} {a4} {a5} {a6 : State → Sys2Proof.DescKey → ℕ → State}
    (hs : Evo z s) (ha6 : ∀ x0 x1 x2, Evo z x0 → Evo z (a6 x0 x1 x2)) :
    Evo z (Machine.runDesc s a2 a3 a4 a5 a6) := by
  unfold Machine.runDesc
  repeat' first
    | (with_reducible first
        | assumption | apply ha6 | apply evo_whenUp | apply evo_setFlight | apply evo_reject | apply Evo.foldl
        | apply Evo.foldl_fst | apply Evo.elim | apply Evo.getD)
    | (refine evo_takeDesc_waits ?_ (by with_reducible assumption))
    | (refine evo_takeDesc_dispatched ?_ (by with_reducible assumption)) | dsimp only | split | intro _

end Sys2Proof.Laws
end

