-- ==== Sys2Proof/Laws/EvoFabric.lean ====
section
/-! SUPPORT. The operations of the fabric operations keep registers and memory in their canonical form, leave the queue alone, and
take nothing back that was sent (`Evo`). -/

namespace Sys2Proof.Laws

open Sys2Proof Sys2Proof.Machine

theorem evo_setPort {z : State} {s : State} {a2} {a3} (hs : Evo z s) :
    Evo z (Machine.setPort s a2 a3) := by
  unfold Machine.setPort
  repeat' first
    | (with_reducible first
        | assumption | apply Evo.foldl | apply Evo.foldl_fst | apply Evo.elim | apply Evo.getD)
    | simp only [evo_mk]

theorem evo_placeFlow {z : State} {s : State} {a2} {a3} (hs : Evo z s) :
    Evo z (Machine.placeFlow s a2 a3) := by
  unfold Machine.placeFlow
  repeat' first
    | (with_reducible first
        | assumption | apply Evo.foldl | apply Evo.foldl_fst | apply Evo.elim | apply Evo.getD)
    | simp only [evo_mk] | split

theorem evo_takeEntry {z : State} {s : State} {a2} (hs : Evo z s) :
    Evo z (Machine.takeEntry s a2) := by
  unfold Machine.takeEntry
  repeat' first
    | (with_reducible first
        | assumption | apply evo_placeFlow | apply evo_bump | apply Evo.foldl | apply Evo.foldl_fst | apply Evo.elim
        | apply Evo.getD)
    | simp only [evo_mk] | split

theorem evo_countWaits {z : State} {s : State} {a2} {a3} (hs : Evo z s) :
    Evo z (Machine.countWaits s a2 a3).1 := by
  unfold Machine.countWaits
  repeat' first
    | (with_reducible first
        | assumption | apply evo_bump | apply Evo.foldl | apply Evo.foldl_fst | apply Evo.elim | apply Evo.getD)
    | dsimp only | split | intro _

theorem evo_servePort {z : State} {s : State} {a2} {a3} (hs : Evo z s) :
    Evo z (Machine.servePort s a2 a3) := by
  unfold Machine.servePort
  repeat' first
    | (with_reducible first
        | assumption | apply evo_countWaits | apply evo_setPort | apply evo_bump | apply evo_emit | apply evo_placeFlow
        | apply Evo.foldl | apply Evo.foldl_fst | apply Evo.elim | apply Evo.getD)
    | dsimp only | split

theorem evo_queueFrame {z : State} {s : State} {a2} {a3} (hs : Evo z s) :
    Evo z (Machine.queueFrame s a2 a3) := by
  unfold Machine.queueFrame
  repeat' first
    | (with_reducible first
        | assumption | apply evo_setPort | apply evo_servePort | apply evo_takeEntry | apply Evo.foldl
        | apply Evo.foldl_fst | apply Evo.elim | apply Evo.getD)
    | simp only [evo_mk] | split

theorem evo_startOp {z : State} {s : State} {a2} {a3} {a4} (hs : Evo z s) :
    Evo z (Machine.startOp s a2 a3 a4) := by
  unfold Machine.startOp
  repeat' first
    | (with_reducible first
        | assumption | apply evo_queueFrame | apply Evo.foldl | apply Evo.foldl_fst | apply Evo.elim | apply Evo.getD)
    | simp only [evo_mk] | split | intro _

theorem evo_issueOp {z : State} {s : State} {a2} {a3} {a4} {a5} {a6} {a7} {a8} (hs : Evo z s) :
    Evo z (Machine.issueOp s a2 a3 a4 a5 a6 a7 a8).1 := by
  unfold Machine.issueOp
  repeat' first
    | (with_reducible first
        | assumption | apply evo_startOp | apply Evo.foldl | apply Evo.foldl_fst | apply Evo.elim | apply Evo.getD)
    | simp only [evo_mk] | split

theorem evo_sendFor {z : State} {s : State} {a2} {a3} {a4} {a5} {a6} (hs : Evo z s) :
    Evo z (Machine.sendFor s a2 a3 a4 a5 a6).1 := by
  unfold Machine.sendFor
  repeat' first
    | (with_reducible first
        | assumption | apply evo_emit | apply evo_issueOp | apply Evo.foldl | apply Evo.foldl_fst | apply Evo.elim
        | apply Evo.getD)
    | dsimp only | split

theorem evo_send {z : State} {s : State} {a2} {a3} {a4} {a5} (hs : Evo z s) :
    Evo z (Machine.send s a2 a3 a4 a5) := by
  unfold Machine.send
  repeat' with_reducible first
    | assumption | apply evo_sendFor

theorem evo_sendAll {z : State} {s : State} {a2} (hs : Evo z s) :
    Evo z (Machine.sendAll s a2) := by
  unfold Machine.sendAll
  repeat' first
    | (with_reducible first
        | assumption | apply evo_send | apply Evo.foldl | apply Evo.foldl_fst | apply Evo.elim | apply Evo.getD)
    | simp only [evo_mk] | split | intro _

theorem evo_respond {z : State} {s : State} {a2} {a3} {a4} {a5} {a6} (hs : Evo z s) :
    Evo z (Machine.respond s a2 a3 a4 a5 a6) := by
  unfold Machine.respond
  repeat' first
    | (with_reducible first
        | assumption | apply evo_emit | apply evo_queueFrame | apply Evo.foldl | apply Evo.foldl_fst | apply Evo.elim
        | apply Evo.getD)
    | dsimp only | split | intro _

end Sys2Proof.Laws
end

