-- ==== Sys2Proof/Laws/EvoMirror.lean ====
section
/-! SUPPORT. The operations of the mirror records keep registers and memory in their canonical form, leave the queue alone, and
take nothing back that was sent (`Evo`). -/

namespace Sys2Proof.Laws

open Sys2Proof Sys2Proof.Machine

theorem evo_sendMirror {z : State} {s : State} {a2} {a3} (hs : Evo z s) :
    Evo z (Machine.sendMirror s a2 a3) := by
  unfold Machine.sendMirror
  repeat' first
    | (with_reducible first
        | assumption | apply evo_emit | apply evo_issueOp | apply Evo.foldl | apply Evo.foldl_fst | apply Evo.elim
        | apply Evo.getD)
    | dsimp only | split

theorem evo_mirrorOne {z : State} {s : State} {a2} (hs : Evo z s) :
    Evo z (Machine.mirrorOne s a2) := by
  unfold Machine.mirrorOne
  repeat' first
    | (with_reducible first
        | assumption | apply evo_sendMirror | apply Evo.foldl | apply Evo.foldl_fst | apply Evo.elim | apply Evo.getD)
    | simp only [evo_mk] | split

theorem evo_mirrorRec {z : State} {s : State} {a2} (hs : Evo z s) :
    Evo z (Machine.mirrorRec s a2) := by
  unfold Machine.mirrorRec
  repeat' with_reducible first
    | assumption | apply evo_mirrorOne | apply Evo.foldl

end Sys2Proof.Laws
end

