-- ==== Sys2Proof/Laws/EvoTakeOps.lean ====
section
/-! SUPPORT. The operations of the operations on takes keep registers and memory in their canonical form, leave the queue alone, and
take nothing back that was sent (`Evo`). -/

namespace Sys2Proof.Laws

open Sys2Proof Sys2Proof.Machine

theorem evo_setPte {z : State} {s : State} {a2} {a3} (hs : Evo z s) :
    Evo z (Machine.setPte s a2 a3) := by
  unfold Machine.setPte
  repeat' first
    | (with_reducible first
        | assumption | apply Evo.foldl | apply Evo.foldl_fst | apply Evo.elim | apply Evo.getD)
    | simp only [evo_mk]

theorem evo_setFrame {z : State} {s : State} {a2} {a3} (hs : Evo z s) :
    Evo z (Machine.setFrame s a2 a3) := by
  unfold Machine.setFrame
  repeat' first
    | (with_reducible first
        | assumption | apply Evo.foldl | apply Evo.foldl_fst | apply Evo.elim | apply Evo.getD)
    | simp only [evo_mk]

theorem evo_seeStamp {z : State} {s : State} {a2} (hs : Evo z s) :
    Evo z (Machine.seeStamp s a2) := by
  unfold Machine.seeStamp
  repeat' with_reducible first
    | assumption | apply evo_wr

theorem evo_newStamp {z : State} {s : State} (hs : Evo z s) :
    Evo z (Machine.newStamp s).1 := by
  unfold Machine.newStamp
  repeat' with_reducible first
    | assumption | apply evo_wr

theorem evo_setPart {z : State} {s : State} {a2} {a3} (hs : Evo z s) :
    Evo z (Machine.setPart s a2 a3) := by
  unfold Machine.setPart
  repeat' first
    | (with_reducible first
        | assumption | apply Evo.foldl | apply Evo.foldl_fst | apply Evo.elim | apply Evo.getD)
    | simp only [evo_mk]

theorem evo_dropPart {z : State} {s : State} {a2} (hs : Evo z s) :
    Evo z (Machine.dropPart s a2) := by
  unfold Machine.dropPart
  repeat' first
    | (with_reducible first
        | assumption | apply Evo.foldl | apply Evo.foldl_fst | apply Evo.elim | apply Evo.getD)
    | simp only [evo_mk]

end Sys2Proof.Laws
end

