-- ==== Sys2Proof/Laws/EvoTakeRun.lean ====
section
/-! SUPPORT. The operations of the running of takes keep registers and memory in their canonical form, leave the queue alone, and
take nothing back that was sent (`Evo`). -/

namespace Sys2Proof.Laws

open Sys2Proof Sys2Proof.Machine

theorem evo_spreadRecord {z : State} {s : State} {a2} {a3} (hs : Evo z s) :
    Evo z (Machine.spreadRecord s a2 a3) := by
  unfold Machine.spreadRecord
  repeat' first
    | (with_reducible first
        | assumption | apply evo_sendAll | apply Evo.foldl | apply Evo.foldl_fst | apply Evo.elim | apply Evo.getD)
    | dsimp only | split

theorem evo_advanceEpoch {z : State} {s : State} {a2} {a3} (hs : Evo z s) :
    Evo z (Machine.advanceEpoch s a2 a3) := by
  unfold Machine.advanceEpoch
  repeat' first
    | (with_reducible first
        | assumption | apply evo_wr | apply evo_writeEvent | apply Evo.foldl | apply Evo.foldl_fst | apply Evo.elim
        | apply Evo.getD)
    | simp only [evo_mk] | split

theorem evo_applyPtMap {z : State} {s : State} {a2} {a3} {a4} {a5} (hs : Evo z s) :
    Evo z (Machine.applyPtMap s a2 a3 a4 a5) := by
  unfold Machine.applyPtMap
  repeat' first
    | (with_reducible first
        | assumption | apply evo_setPte | apply Evo.foldl | apply Evo.foldl_fst | apply Evo.elim | apply Evo.getD)
    | simp only [evo_mk] | split

theorem evo_applyAction {z : State} {s : State} {a2} {a3} {a4} {a5} {a6} (hs : Evo z s) :
    Evo z (Machine.applyAction s a2 a3 a4 a5 a6) := by
  unfold Machine.applyAction
  repeat' first
    | (with_reducible first
        | assumption | apply evo_applyPtMap | apply evo_setFrame | apply evo_writeMem | apply evo_writeWord
        | apply evo_modReq | apply evo_setPte | apply Evo.foldl | apply Evo.foldl_fst | apply Evo.elim | apply Evo.getD)
    | simp only [evo_mk] | split

theorem evo_activatePorts {z : State} {s : State} (hs : Evo z s) :
    Evo z (Machine.activatePorts s) := by
  unfold Machine.activatePorts
  repeat' first
    | (with_reducible first
        | assumption | apply evo_servePort | apply evo_wri | apply Evo.foldl | apply Evo.foldl_fst | apply Evo.elim
        | apply Evo.getD)
    | simp only [evo_mk] | split | intro _

theorem evo_applyEpochs {z : State} {s : State} {a2} (hs : Evo z s) :
    Evo z (Machine.applyEpochs s a2) := by
  unfold Machine.applyEpochs
  repeat' first
    | (with_reducible first
        | assumption | apply evo_advanceEpoch | apply evo_spreadRecord | apply evo_activatePorts | apply evo_wr
        | apply Evo.foldl | apply Evo.foldl_fst | apply Evo.elim | apply Evo.getD)
    | dsimp only | split

theorem evo_applyRings {z : State} {s : State} {a2} (hs : Evo z s) :
    Evo z (Machine.applyRings s a2) := by
  unfold Machine.applyRings
  repeat' first
    | (with_reducible first
        | assumption | apply evo_writeRecord | apply Evo.foldl | apply Evo.foldl_fst | apply Evo.elim | apply Evo.getD)
    | simp only [evo_mk] | split | intro _

theorem evo_applyTake {z : State} {s : State} {a2} {a3} {a4} {a5} (hs : Evo z s) :
    Evo z (Machine.applyTake s a2 a3 a4 a5) := by
  unfold Machine.applyTake
  repeat' first
    | (with_reducible first
        | assumption | apply evo_applyAction | apply evo_applyRings | apply evo_applyEpochs | apply Evo.foldl
        | apply Evo.foldl_fst | apply Evo.elim | apply Evo.getD)
    | simp only [evo_mk] | split | intro _

theorem evo_wound {z : State} {s : State} {a2} {a3} (hs : Evo z s) :
    Evo z (Machine.wound s a2 a3) := by
  unfold Machine.wound
  repeat' first
    | (with_reducible first
        | assumption | apply evo_send | apply evo_dropPart | apply Evo.foldl | apply Evo.foldl_fst | apply Evo.elim
        | apply Evo.getD)
    | simp only [evo_mk] | split

theorem evo_mirrorEffects {z : State} {s : State} {a2} (hs : Evo z s) :
    Evo z (Machine.mirrorEffects s a2) := by
  unfold Machine.mirrorEffects
  repeat' first
    | (with_reducible first
        | assumption | apply evo_mirrorRec | apply Evo.foldl | apply Evo.foldl_fst | apply Evo.elim | apply Evo.getD)
    | dsimp only | split | intro _

theorem evo_commitActs {z : State} {s : State} {a2} {a3} {a4} {a5} (hs : Evo z s) :
    Evo z (Machine.commitActs s a2 a3 a4 a5) := by
  unfold Machine.commitActs
  repeat' with_reducible first
    | assumption | apply evo_mirrorEffects | apply evo_applyTake

theorem evo_newTakeId {z : State} {s : State} (hs : Evo z s) :
    Evo z (Machine.newTakeId s).1 := by
  unfold Machine.newTakeId
  repeat' first
    | (with_reducible first
        | assumption | apply Evo.foldl | apply Evo.foldl_fst | apply Evo.elim | apply Evo.getD)
    | simp only [evo_mk]

theorem evo_prepare {z s t : State} {src ref stamp nodes acts frames n} (hs : Evo z s)
    (ht : prepare s src ref stamp nodes acts = .yes t frames n) : Evo z t := by
  unfold Machine.prepare at ht
  repeat' first
    | (with_reducible first
        | assumption | apply evo_wound | apply Evo.foldl)
    | split at ht | dsimp only at ht | (obtain ⟨rfl, rfl, rfl⟩ := Prepared.yes.inj ht) | cases ht | split
    | simp only [evo_mk] | intro _

theorem evo_runLocal {z : State} {s : State} {a2} {a3} {a4} (hs : Evo z s) :
    Evo z (Machine.runLocal s a2 a3 a4).1 := by
  unfold Machine.runLocal
  repeat' first
    | (with_reducible first
        | assumption | apply evo_newStamp | apply evo_newTakeId | apply evo_bump | apply evo_setPart | apply evo_mirrorRec
        | apply evo_commitActs | apply evo_dropPart | apply Evo.foldl | apply Evo.foldl_fst | apply Evo.elim
        | apply Evo.getD)
    | (refine evo_prepare ?_ (by with_reducible assumption)) | simp only [evo_mk] | split

theorem evo_localTake {z : State} {s : State} {a2} (hs : Evo z s) :
    Evo z (Machine.localTake s a2) := by
  unfold Machine.localTake
  repeat' with_reducible first
    | assumption | apply evo_runLocal

theorem evo_setCoord {z : State} {s : State} {a2} {a3} (hs : Evo z s) :
    Evo z (Machine.setCoord s a2 a3) := by
  unfold Machine.setCoord
  repeat' first
    | (with_reducible first
        | assumption | apply Evo.foldl | apply Evo.foldl_fst | apply Evo.elim | apply Evo.getD)
    | simp only [evo_mk]

theorem evo_endTake {z : State} {s : State} {a2} {a3} (hs : Evo z s) :
    Evo z (Machine.endTake s a2 a3) := by
  unfold Machine.endTake
  repeat' first
    | (with_reducible first
        | assumption | apply Evo.foldl | apply Evo.foldl_fst | apply Evo.elim | apply Evo.getD)
    | simp only [evo_mk]

theorem evo_announce {z : State} {s : State} {a2} {a3} (hs : Evo z s) :
    Evo z (Machine.announce s a2 a3) := by
  unfold Machine.announce
  repeat' with_reducible first
    | assumption | apply evo_sendAll | apply evo_setCoord

theorem evo_notifyEnded {z : State} {s : State} {a2} {a3} (hs : Evo z s) :
    Evo z (Machine.notifyEnded s a2 a3) := by
  unfold Machine.notifyEnded
  repeat' with_reducible first
    | assumption | apply evo_sendAll

theorem evo_finishPart {z : State} {s : State} {a2} {a3} (hs : Evo z s) :
    Evo z (Machine.finishPart s a2 a3) := by
  unfold Machine.finishPart
  repeat' first
    | (with_reducible first
        | assumption | apply evo_commitActs | apply evo_notifyEnded | apply evo_dropPart | apply Evo.foldl
        | apply Evo.foldl_fst | apply Evo.elim | apply Evo.getD)
    | dsimp only | split

theorem evo_carryOut {z : State} {s : State} {a2} {a3} (hs : Evo z s) :
    Evo z (Machine.carryOut s a2 a3) := by
  unfold Machine.carryOut
  repeat' first
    | (with_reducible first
        | assumption | apply evo_finishPart | apply evo_bump | apply evo_announce | apply evo_endTake | apply Evo.foldl
        | apply Evo.foldl_fst | apply Evo.elim | apply Evo.getD)
    | dsimp only | split

theorem evo_decide' {z : State} {s : State} {a2} {a3} (hs : Evo z s) :
    Evo z (Machine.decide' s a2 a3) := by
  unfold Machine.decide'
  repeat' first
    | (with_reducible first
        | assumption | apply evo_carryOut | apply evo_mirrorRec | apply evo_setCoord | apply Evo.foldl
        | apply Evo.foldl_fst | apply Evo.elim | apply Evo.getD)
    | simp only [evo_mk] | split

theorem evo_voteNo {z : State} {s : State} {a2} {a3} {a4} {a5} {a6} {a7} (hs : Evo z s) :
    Evo z (Machine.voteNo s a2 a3 a4 a5 a6 a7) := by
  unfold Machine.voteNo
  repeat' first
    | (with_reducible first
        | assumption | apply evo_finishPart | apply evo_bump | apply evo_announce | apply evo_setCoord | apply evo_decide'
        | apply Evo.foldl | apply Evo.foldl_fst | apply Evo.elim | apply Evo.getD)
    | dsimp only | split

theorem evo_voteYes {z : State} {s : State} {a2} {a3} {a4} (hs : Evo z s) :
    Evo z (Machine.voteYes s a2 a3 a4) := by
  unfold Machine.voteYes
  repeat' first
    | (with_reducible first
        | assumption | apply evo_decide' | apply evo_setCoord | apply Evo.foldl | apply Evo.foldl_fst | apply Evo.elim
        | apply Evo.getD)
    | dsimp only | split

theorem evo_sendVote {z : State} {s : State} {a2} {a3} {a4} {a5} {a6} {a7} (hs : Evo z s) :
    Evo z (Machine.sendVote s a2 a3 a4 a5 a6 a7) := by
  unfold Machine.sendVote
  repeat' first
    | (with_reducible first
        | assumption | apply evo_voteYes | apply evo_voteNo | apply evo_send | apply Evo.foldl | apply Evo.foldl_fst
        | apply Evo.elim | apply Evo.getD)
    | simp only [evo_mk] | split

theorem evo_addNotify {z : State} {s : State} {a2} {a3} (hs : Evo z s) :
    Evo z (Machine.addNotify s a2 a3) := by
  unfold Machine.addNotify
  repeat' first
    | (with_reducible first
        | assumption | apply evo_setPart | apply Evo.foldl | apply Evo.foldl_fst | apply Evo.elim | apply Evo.getD)
    | simp only [evo_mk] | split

theorem evo_prepareHere {z : State} {s : State} {a2} {a3} {a4} {a5} {a6} (hs : Evo z s) :
    Evo z (Machine.prepareHere s a2 a3 a4 a5 a6) := by
  unfold Machine.prepareHere
  repeat' first
    | (with_reducible first
        | assumption | apply evo_sendVote | apply evo_addNotify | apply evo_setPart | apply evo_bump | apply evo_mirrorRec
        | apply Evo.foldl | apply Evo.foldl_fst | apply Evo.elim | apply Evo.getD)
    | (refine evo_prepare ?_ (by with_reducible assumption)) | dsimp only | split

theorem evo_handlePrepare {z : State} {s : State} {a2} {a3} {a4} {a5} {a6} (hs : Evo z s) :
    Evo z (Machine.handlePrepare s a2 a3 a4 a5 a6) := by
  unfold Machine.handlePrepare
  repeat' first
    | (with_reducible first
        | assumption | apply evo_prepareHere | apply evo_sendVote | apply evo_bump | apply Evo.foldl | apply Evo.foldl_fst
        | apply Evo.elim | apply Evo.getD)
    | simp only [evo_mk] | split | intro _

theorem evo_wakeWaiters {z : State} {s : State} {a2} (hs : Evo z s) :
    Evo z (Machine.wakeWaiters s a2) := by
  unfold Machine.wakeWaiters
  repeat' first
    | (with_reducible first
        | assumption | apply evo_dropPart | apply evo_sendVote | apply evo_setPart | apply evo_bump | apply evo_mirrorRec
        | apply Evo.foldl | apply Evo.foldl_fst | apply Evo.elim | apply Evo.getD)
    | (refine evo_prepare ?_ (by with_reducible assumption)) | dsimp only | split | intro _

theorem evo_beginTake {z : State} {s : State} {a2} {a3} {a4} {a5} {a6} {a7} (hs : Evo z s) :
    Evo z (Machine.beginTake s a2 a3 a4 a5 a6 a7) := by
  unfold Machine.beginTake
  repeat' first
    | (with_reducible first
        | assumption | apply evo_newTakeId | apply evo_setCoord | apply evo_sendAll | apply evo_handlePrepare
        | apply Evo.foldl | apply Evo.foldl_fst | apply Evo.elim | apply Evo.getD)
    | dsimp only | split

theorem evo_startTake {z : State} {s : State} {a2} {a3} {a4} {a5} (hs : Evo z s) :
    Evo z (Machine.startTake s a2 a3 a4 a5) := by
  unfold Machine.startTake
  repeat' first
    | (with_reducible first
        | assumption | apply evo_newStamp | apply evo_beginTake | apply Evo.foldl | apply Evo.foldl_fst | apply Evo.elim
        | apply Evo.getD)
    | simp only [evo_mk] | split

theorem evo_localFor {z : State} {s : State} {a2} {a3} {a4} (hs : Evo z s) :
    Evo z (Machine.localFor s a2 a3 a4) := by
  unfold Machine.localFor
  repeat' first
    | (with_reducible first
        | assumption | apply evo_runLocal | apply Evo.foldl | apply Evo.foldl_fst | apply Evo.elim | apply Evo.getD
        | exact Evo.refl _)
    | simp only [evo_mk] | split | intro _
    | (refine pair_evo (by with_reducible assumption) ?_; with_reducible apply evo_runLocal)

end Sys2Proof.Laws
end

