-- ==== Sys2Proof/Laws/EvoHpt.lean ====
section
/-! SUPPORT. The operations of the host port keep registers and memory in their canonical form, leave the queue alone, and
take nothing back that was sent (`Evo`). -/

namespace Sys2Proof.Laws

open Sys2Proof Sys2Proof.Machine

theorem evo_ucieLinkTraining {z : State} {s : State} {a2} {a3} {a4} {a5} (hs : Evo z s) :
    Evo z (Machine.ucieLinkTraining s a2 a3 a4 a5) := by
  unfold Machine.ucieLinkTraining
  repeat' first
    | (with_reducible first
        | assumption | apply evo_wr | apply evo_addSat | apply evo_emit | apply Evo.foldl | apply Evo.foldl_fst
        | apply Evo.elim | apply Evo.getD)
    | simp only [evo_mk] | split

theorem evo_ucieModuleFail {z : State} {s : State} {a2} (hs : Evo z s) :
    Evo z (Machine.ucieModuleFail s a2) := by
  unfold Machine.ucieModuleFail
  repeat' first
    | (with_reducible first
        | assumption | apply evo_wr | apply evo_openEvent | apply evo_faultCtx | apply Evo.foldl | apply Evo.foldl_fst
        | apply Evo.elim | apply Evo.getD)
    | simp only [evo_mk] | split | intro _

theorem evo_ctxCmdEnd {z : State} {s : State} {a2} (hs : Evo z s) :
    Evo z (Machine.ctxCmdEnd s a2) := by
  unfold Machine.ctxCmdEnd
  repeat' first
    | (with_reducible first
        | assumption | apply evo_wr | apply Evo.foldl | apply Evo.foldl_fst | apply Evo.elim | apply Evo.getD)
    | simp only [evo_mk]

theorem evo_ctxCmdBegin {z : State} {s : State} {a2} {a3 : State → State} (hs : Evo z s) (ha3 : ∀ x0, Evo z x0 → Evo z
    (a3 x0)) :
    Evo z (Machine.ctxCmdBegin s a2 a3) := by
  unfold Machine.ctxCmdBegin
  repeat' first
    | (with_reducible first
        | assumption | apply ha3 | apply evo_wr | apply Evo.foldl | apply Evo.foldl_fst | apply Evo.elim | apply Evo.getD)
    | simp only [evo_mk] | split

theorem evo_ctxEnable {z : State} {s : State} {a2} (hs : Evo z s) :
    Evo z (Machine.ctxEnable s a2) := by
  unfold Machine.ctxEnable
  repeat' first
    | (with_reducible first
        | assumption | apply evo_bar0 | apply evo_ctxCmdBegin | apply evo_ctxCmdEnd | apply evo_emit | apply Evo.foldl
        | apply Evo.foldl_fst | apply Evo.elim | apply Evo.getD)
    | simp only [evo_mk] | split | intro _

theorem evo_seeLine {z : State} {s : State} {a2} {a3} (hs : Evo z s) :
    Evo z (Machine.seeLine s a2 a3) := by
  unfold Machine.seeLine
  repeat' first
    | (with_reducible first
        | assumption | apply evo_faultCtx | apply evo_setCtx | apply evo_emits | apply Evo.foldl | apply Evo.foldl_fst
        | apply Evo.elim | apply Evo.getD)
    | dsimp only | split

theorem evo_ctxEnableReadDone {z : State} {s : State} {a2} {a3} (hs : Evo z s) :
    Evo z (Machine.ctxEnableReadDone s a2 a3) := by
  unfold Machine.ctxEnableReadDone
  repeat' first
    | (with_reducible first
        | assumption | apply evo_ctxCmdEnd | apply evo_emit | apply evo_setCtx | apply evo_seeLine | apply Evo.foldl
        | apply Evo.foldl_fst | apply Evo.elim | apply Evo.getD)
    | simp only [evo_mk] | split

theorem evo_ctxDisable {z : State} {s : State} {a2} (hs : Evo z s) :
    Evo z (Machine.ctxDisable s a2) := by
  unfold Machine.ctxDisable
  repeat' first
    | (with_reducible first
        | assumption | apply evo_bar0 | apply evo_ctxCmdBegin | apply evo_ctxCmdEnd | apply evo_setCtx | apply Evo.foldl
        | apply Evo.foldl_fst | apply Evo.elim | apply Evo.getD)
    | simp only [evo_mk] | split | intro _

theorem evo_evqCfgWrite {z : State} {s : State} {a2} (hs : Evo z s) :
    Evo z (Machine.evqCfgWrite s a2) := by
  unfold Machine.evqCfgWrite
  repeat' first
    | (with_reducible first
        | assumption | apply evo_bar0 | apply evo_wr | apply Evo.foldl | apply Evo.foldl_fst | apply Evo.elim
        | apply Evo.getD)
    | simp only [evo_mk] | split | intro _

theorem evo_placeHdm {z : State} {s : State} {a2} {a3} {a4} (hs : Evo z s) :
    Evo z (Machine.placeHdm s a2 a3 a4) := by
  unfold Machine.placeHdm
  repeat' with_reducible first
    | assumption | apply evo_wr

theorem evo_hdmCfgWrite {z : State} {s : State} {a2} (hs : Evo z s) :
    Evo z (Machine.hdmCfgWrite s a2) := by
  unfold Machine.hdmCfgWrite
  repeat' first
    | (with_reducible first
        | assumption | apply evo_lockedWrite | apply evo_placeHdm | apply Evo.foldl | apply Evo.foldl_fst | apply Evo.elim
        | apply Evo.getD)
    | simp only [evo_mk] | split

theorem evo_rereadLine {z : State} {s : State} {a2} {a3} (hs : Evo z s) :
    Evo z (Machine.rereadLine s a2 a3) := by
  unfold Machine.rereadLine
  repeat' with_reducible first
    | assumption | apply evo_emit | apply evo_setCtx

theorem evo_doorbellSnoop {z : State} {s : State} {a2} (hs : Evo z s) :
    Evo z (Machine.doorbellSnoop s a2) := by
  unfold Machine.doorbellSnoop
  repeat' first
    | (with_reducible first
        | assumption | apply evo_whenUp | apply evo_rereadLine | apply evo_emit | apply Evo.foldl | apply Evo.foldl_fst
        | apply Evo.elim | apply Evo.getD)
    | simp only [evo_mk] | split | intro _

theorem evo_doorbellPoll {z : State} {s : State} (hs : Evo z s) :
    Evo z (Machine.doorbellPoll s) := by
  unfold Machine.doorbellPoll
  repeat' first
    | (with_reducible first
        | assumption | apply evo_whenUp | apply evo_rereadLine | apply Evo.foldl | apply Evo.foldl_fst | apply Evo.elim
        | apply Evo.getD)
    | simp only [evo_mk] | split | intro _

theorem evo_doorbellLineData {z : State} {s : State} {a2} {a3} (hs : Evo z s) :
    Evo z (Machine.doorbellLineData s a2 a3) := by
  unfold Machine.doorbellLineData
  repeat' first
    | (with_reducible first
        | assumption | apply evo_whenUp | apply evo_seeLine | apply Evo.foldl | apply Evo.foldl_fst | apply Evo.elim
        | apply Evo.getD)
    | simp only [evo_mk] | split | intro _

theorem evo_drainQueue {z : State} {a1} {s : State} {a3} {a4} (hs : Evo z s) :
    Evo z (Machine.drainQueue a1 s a3 a4) := by
  induction a1 generalizing s a3 a4 with
  | zero =>
    unfold Machine.drainQueue
    repeat' with_reducible first
      | assumption
  | succ n ih =>
    unfold Machine.drainQueue
    repeat' first
      | (with_reducible first
          | assumption | apply ih | apply evo_setCtx | apply evo_putRecord | apply Evo.foldl | apply Evo.foldl_fst
          | apply Evo.elim | apply Evo.getD)
      | simp only [evo_mk] | split

theorem evo_cqHeadSnoop {z : State} {s : State} {a2} {a3} (hs : Evo z s) :
    Evo z (Machine.cqHeadSnoop s a2 a3) := by
  unfold Machine.cqHeadSnoop
  repeat' first
    | (with_reducible first
        | assumption | apply evo_whenUp | apply evo_setCtx | apply evo_drainQueue | apply Evo.foldl | apply Evo.foldl_fst
        | apply Evo.elim | apply Evo.getD)
    | simp only [evo_mk] | split | intro _

theorem evo_hostAccessFail {z : State} {s : State} {a2} {a3} (hs : Evo z s) :
    Evo z (Machine.hostAccessFail s a2 a3) := by
  unfold Machine.hostAccessFail
  repeat' first
    | (with_reducible first
        | assumption | apply evo_openEvent | apply evo_ctxCmdEnd | apply evo_faultCtx | apply evo_completeSt
        | apply Evo.foldl | apply Evo.foldl_fst | apply Evo.elim | apply Evo.getD)
    | simp only [evo_mk] | split

theorem evo_hostAccessTimeout {z : State} {s : State} {a2} (hs : Evo z s) :
    Evo z (Machine.hostAccessTimeout s a2) := by
  unfold Machine.hostAccessTimeout
  repeat' first
    | (with_reducible first
        | assumption | apply evo_whenUp | apply evo_hostAccessFail | apply Evo.foldl | apply Evo.foldl_fst | apply Evo.elim
        | apply Evo.getD)
    | simp only [evo_mk] | split | intro _

theorem evo_hostDataError {z : State} {s : State} {a2} (hs : Evo z s) :
    Evo z (Machine.hostDataError s a2) := by
  unfold Machine.hostDataError
  repeat' first
    | (with_reducible first
        | assumption | apply evo_whenUp | apply evo_hostAccessFail | apply Evo.foldl | apply Evo.foldl_fst | apply Evo.elim
        | apply Evo.getD)
    | simp only [evo_mk] | split | intro _

theorem evo_ofForm {z : State} {a1} {s : State} {s2 : State} (hs : Evo z s) (hs2 : Evo z s2) :
    Evo z (Machine.ofForm a1 s s2) := by
  unfold Machine.ofForm
  repeat' first
    | (with_reducible first
        | assumption | apply Evo.foldl | apply Evo.foldl_fst | apply Evo.elim | apply Evo.getD)
    | simp only [evo_mk] | split

theorem evo_nop {z : State} {s : State} {a2} {a3} (hs : Evo z s) :
    Evo z (Machine.nop s a2 a3) := by
  unfold Machine.nop
  repeat' first
    | (with_reducible first
        | assumption | apply evo_ofForm | apply evo_runDesc | apply evo_completeOk | apply Evo.foldl | apply Evo.foldl_fst
        | apply Evo.elim | apply Evo.getD)
    | simp only [evo_mk] | split | intro _

theorem evo_reservedOpcode {z : State} {s : State} {a2} {a3} (hs : Evo z s) :
    Evo z (Machine.reservedOpcode s a2 a3) := by
  unfold Machine.reservedOpcode
  repeat' first
    | (with_reducible first
        | assumption | apply evo_ofForm | apply evo_runDesc | apply Evo.foldl | apply Evo.foldl_fst | apply Evo.elim
        | apply Evo.getD)
    | simp only [evo_mk] | split | intro _

end Sys2Proof.Laws
end

