-- ==== Sys2Proof/Laws/EvoUnits.lean ====
section
/-! SUPPORT. The operations of the units and semaphores keep registers and memory in their canonical form, leave the queue alone, and
take nothing back that was sent (`Evo`). -/

namespace Sys2Proof.Laws

open Sys2Proof Sys2Proof.Machine

theorem evo_startUnit {z : State} {s : State} (hs : Evo z s) :
    Evo z (Machine.startUnit s) := by
  unfold Machine.startUnit
  repeat' first
    | (with_reducible first
        | assumption | apply Evo.foldl | apply Evo.foldl_fst | apply Evo.elim | apply Evo.getD)
    | simp only [evo_mk] | split

theorem evo_addUnit {z : State} {s : State} {a2} {a3} {a4} {a5} {a6} (hs : Evo z s) :
    Evo z (Machine.addUnit s a2 a3 a4 a5 a6) := by
  unfold Machine.addUnit
  repeat' first
    | (with_reducible first
        | assumption | apply evo_startUnit | apply Evo.foldl | apply Evo.foldl_fst | apply Evo.elim | apply Evo.getD)
    | simp only [evo_mk]

theorem evo_setSem {z : State} {s : State} {a2} {a3} (hs : Evo z s) :
    Evo z (Machine.setSem s a2 a3) := by
  unfold Machine.setSem
  repeat' first
    | (with_reducible first
        | assumption | apply Evo.foldl | apply Evo.foldl_fst | apply Evo.elim | apply Evo.getD)
    | simp only [evo_mk]

theorem evo_dropWaiter {z : State} {s : State} {a2} (hs : Evo z s) :
    Evo z (Machine.dropWaiter s a2) := by
  unfold Machine.dropWaiter
  repeat' first
    | (with_reducible first
        | assumption | apply Evo.foldl | apply Evo.foldl_fst | apply Evo.elim | apply Evo.getD)
    | simp only [evo_mk]

theorem evo_serveSem {z : State} {a1} {s : State} {a3} (hs : Evo z s) :
    Evo z (Machine.serveSem a1 s a3) := by
  induction a1 generalizing s a3 with
  | zero =>
    unfold Machine.serveSem
    repeat' with_reducible first
      | assumption
  | succ n ih =>
    unfold Machine.serveSem
    repeat' first
      | (with_reducible first
          | assumption | apply ih | apply evo_completeOk | apply evo_dropWaiter | apply evo_setSem | apply Evo.foldl
          | apply Evo.foldl_fst | apply Evo.elim | apply Evo.getD)
      | simp only [evo_mk] | split

theorem evo_serveAll {z : State} {s : State} {a2} (hs : Evo z s) :
    Evo z (Machine.serveAll s a2) := by
  unfold Machine.serveAll
  repeat' with_reducible first
    | assumption | apply evo_serveSem

theorem evo_lendTo {z : State} {s : State} {a2} {a3} (hs : Evo z s) :
    Evo z (Machine.lendTo s a2 a3) := by
  unfold Machine.lendTo
  repeat' first
    | (with_reducible first
        | assumption | apply evo_bump | apply Evo.foldl | apply Evo.foldl_fst | apply Evo.elim | apply Evo.getD)
    | simp only [evo_mk] | split

theorem evo_signalTo {z : State} {s : State} {a2} {a3} {a4} (hs : Evo z s) :
    Evo z (Machine.signalTo s a2 a3 a4) := by
  unfold Machine.signalTo
  repeat' first
    | (with_reducible first
        | assumption | apply evo_serveAll | apply evo_setSem | apply evo_completeWith | apply Evo.foldl
        | apply Evo.foldl_fst | apply Evo.elim | apply Evo.getD)
    | simp only [evo_mk]

theorem evo_semSignalAdd {z : State} {s : State} {a2} {a3} (hs : Evo z s) :
    Evo z (Machine.semSignalAdd s a2 a3) := by
  unfold Machine.semSignalAdd
  repeat' first
    | (with_reducible first
        | assumption | apply evo_ofForm | apply evo_runDesc | apply evo_completeSt | apply evo_signalTo | apply Evo.foldl
        | apply Evo.foldl_fst | apply Evo.elim | apply Evo.getD)
    | simp only [evo_mk] | split | intro _

theorem evo_semSignalSet {z : State} {s : State} {a2} {a3} (hs : Evo z s) :
    Evo z (Machine.semSignalSet s a2 a3) := by
  unfold Machine.semSignalSet
  repeat' first
    | (with_reducible first
        | assumption | apply evo_ofForm | apply evo_runDesc | apply evo_signalTo | apply Evo.foldl | apply Evo.foldl_fst
        | apply Evo.elim | apply Evo.getD)
    | simp only [evo_mk] | split | intro _

theorem evo_semWait {z : State} {s : State} {a2} {a3} (hs : Evo z s) :
    Evo z (Machine.semWait s a2 a3) := by
  unfold Machine.semWait
  repeat' first
    | (with_reducible first
        | assumption | apply evo_ofForm | apply evo_runDesc | apply evo_completeOk | apply evo_setSem | apply evo_lendTo
        | apply Evo.foldl | apply Evo.foldl_fst | apply Evo.elim | apply Evo.getD)
    | simp only [evo_mk] | split | intro _

theorem evo_semWaitTimeout {z : State} {s : State} {a2} (hs : Evo z s) :
    Evo z (Machine.semWaitTimeout s a2) := by
  unfold Machine.semWaitTimeout
  repeat' first
    | (with_reducible first
        | assumption | apply evo_whenUp | apply evo_serveAll | apply evo_completeSt | apply evo_dropWaiter
        | apply Evo.foldl | apply Evo.foldl_fst | apply Evo.elim | apply Evo.getD)
    | simp only [evo_mk] | split | intro _

end Sys2Proof.Laws
end

