-- ==== Sys2Proof/Laws/EvoModel.lean ====
section
/-! SUPPORT. The operations of the model look-ups keep registers and memory in their canonical form, leave the queue alone, and
take nothing back that was sent (`Evo`). -/

namespace Sys2Proof.Laws

open Sys2Proof Sys2Proof.Machine

theorem evo_sendDtm {z : State} {s : State} {a2} {a3} {a4} {a5} {a6} (hs : Evo z s) :
    Evo z (Machine.sendDtm s a2 a3 a4 a5 a6) := by
  unfold Machine.sendDtm
  repeat' first
    | (with_reducible first
        | assumption | apply evo_send | apply Evo.foldl | apply Evo.foldl_fst | apply Evo.elim | apply Evo.getD)
    | simp only [evo_mk]

theorem evo_askHome {z : State} {s : State} {a2} (hs : Evo z s) :
    Evo z (Machine.askHome s a2) := by
  unfold Machine.askHome
  repeat' first
    | (with_reducible first
        | assumption | apply evo_sendDtm | apply Evo.foldl | apply Evo.foldl_fst | apply Evo.elim | apply Evo.getD)
    | simp only [evo_mk]

theorem evo_raiseNumeric {z : State} {s : State} {a2} {a3} (hs : Evo z s) :
    Evo z (Machine.raiseNumeric s a2 a3) := by
  unfold Machine.raiseNumeric
  repeat' with_reducible first
    | assumption | apply evo_modReq

end Sys2Proof.Laws
end

