-- ==== Sys2Proof/Laws/EvoKva.lean ====
section
/-! SUPPORT. The operations of the key-value store keep registers and memory in their canonical form, leave the queue alone, and
take nothing back that was sent (`Evo`). -/

namespace Sys2Proof.Laws

open Sys2Proof Sys2Proof.Machine

theorem evo_poolEnable {z : State} {s : State} {a2} (hs : Evo z s) :
    Evo z (Machine.poolEnable s a2) := by
  unfold Machine.poolEnable
  repeat' first
    | (with_reducible first
        | assumption | apply evo_ofForm | apply evo_bar0 | apply evo_wr | apply Evo.foldl | apply Evo.foldl_fst
        | apply Evo.elim | apply Evo.getD)
    | simp only [evo_mk] | split | intro _

theorem evo_poolDisable {z : State} {s : State} {a2} (hs : Evo z s) :
    Evo z (Machine.poolDisable s a2) := by
  unfold Machine.poolDisable
  repeat' first
    | (with_reducible first
        | assumption | apply evo_ofForm | apply evo_bar0 | apply evo_wr | apply Evo.foldl | apply Evo.foldl_fst
        | apply Evo.elim | apply Evo.getD)
    | simp only [evo_mk] | split | intro _

theorem evo_advanceAge {z : State} {s : State} (hs : Evo z s) :
    Evo z (Machine.advanceAge s) := by
  unfold Machine.advanceAge
  repeat' with_reducible first
    | assumption | apply evo_wr

theorem evo_stampFrame {z : State} {s : State} {a2} (hs : Evo z s) :
    Evo z (Machine.stampFrame s a2) := by
  unfold Machine.stampFrame
  repeat' first
    | (with_reducible first
        | assumption | apply Evo.foldl | apply Evo.foldl_fst | apply Evo.elim | apply Evo.getD)
    | simp only [evo_mk]

theorem evo_kvaAgeTick {z : State} {s : State} (hs : Evo z s) :
    Evo z (Machine.kvaAgeTick s) := by
  unfold Machine.kvaAgeTick
  repeat' first
    | (with_reducible first
        | assumption | apply evo_whenUp | apply evo_advanceAge | apply Evo.foldl | apply Evo.foldl_fst | apply Evo.elim
        | apply Evo.getD)
    | simp only [evo_mk] | split | intro _

theorem evo_reshootEvent {z : State} {s : State} {a2} (hs : Evo z s) :
    Evo z (Machine.reshootEvent s a2) := by
  unfold Machine.reshootEvent
  repeat' first
    | (with_reducible first
        | assumption | apply evo_postEvent | apply evo_send | apply Evo.foldl | apply Evo.foldl_fst | apply Evo.elim
        | apply Evo.getD)
    | simp only [evo_mk] | split

theorem evo_takeNotice {z : State} {s : State} {a2} {a3} {a4} {a5} {a6} (hs : Evo z s) :
    Evo z (Machine.takeNotice s a2 a3 a4 a5 a6) := by
  unfold Machine.takeNotice
  repeat' first
    | (with_reducible first
        | assumption | apply evo_modReq | apply evo_reshootEvent | apply Evo.foldl | apply Evo.foldl_fst | apply Evo.elim
        | apply Evo.getD)
    | simp only [evo_mk] | split

theorem evo_dropNotice {z : State} {s : State} {a2} {a3} {a4} {a5} {a6} (hs : Evo z s) :
    Evo z (Machine.dropNotice s a2 a3 a4 a5 a6) := by
  unfold Machine.dropNotice
  repeat' first
    | (with_reducible first
        | assumption | apply evo_whenUp | apply evo_takeNotice | apply Evo.foldl | apply Evo.foldl_fst | apply Evo.elim
        | apply Evo.getD)
    | simp only [evo_mk] | split | intro _

theorem evo_notifyLeader {z : State} {s : State} {a2} {a3} {a4} (hs : Evo z s) :
    Evo z (Machine.notifyLeader s a2 a3 a4) := by
  unfold Machine.notifyLeader
  repeat' first
    | (with_reducible first
        | assumption | apply evo_takeNotice | apply evo_send | apply evo_askHome | apply Evo.foldl | apply Evo.foldl_fst
        | apply Evo.elim | apply Evo.getD)
    | dsimp only | split

theorem evo_notifyOwner {z : State} {s : State} {a2} {a3} (hs : Evo z s) :
    Evo z (Machine.notifyOwner s a2 a3) := by
  unfold Machine.notifyOwner
  repeat' first
    | (with_reducible first
        | assumption | apply evo_send | apply Evo.foldl | apply Evo.foldl_fst | apply Evo.elim | apply Evo.getD)
    | simp only [evo_mk] | split

theorem evo_dropTake {z : State} {s : State} {a2} (hs : Evo z s) :
    Evo z (Machine.dropTake s a2) := by
  unfold Machine.dropTake
  repeat' first
    | (with_reducible first
        | assumption | apply evo_runLocal | apply evo_bumpBy | apply evo_notifyLeader | apply Evo.foldl
        | apply Evo.foldl_fst | apply Evo.elim | apply Evo.getD)
    | dsimp only | split | intro _

theorem evo_startDemotion {z : State} {s : State} {a2} {a3} (hs : Evo z s) :
    Evo z (Machine.startDemotion s a2 a3) := by
  unfold Machine.startDemotion
  repeat' first
    | (with_reducible first
        | assumption | apply Evo.foldl | apply Evo.foldl_fst | apply Evo.elim | apply Evo.getD)
    | simp only [evo_mk]

theorem evo_evictClass {z : State} {s : State} {a2} (hs : Evo z s) :
    Evo z (Machine.evictClass s a2) := by
  unfold Machine.evictClass
  repeat' first
    | (with_reducible first
        | assumption | apply evo_startDemotion | apply evo_dropTake | apply Evo.foldl | apply Evo.foldl_fst
        | apply Evo.elim | apply Evo.getD)
    | dsimp only | split | intro _

theorem evo_eviction {z : State} {s : State} {a2} (hs : Evo z s) :
    Evo z (Machine.eviction s a2) := by
  unfold Machine.eviction
  repeat' first
    | (with_reducible first
        | assumption | apply evo_whenUp | apply evo_evictClass | apply Evo.foldl | apply Evo.foldl_fst | apply Evo.elim
        | apply Evo.getD)
    | simp only [evo_mk] | split | intro _

theorem evo_demoteWriteDone {z : State} {s : State} {a2} {a3} {a4} (hs : Evo z s) :
    Evo z (Machine.demoteWriteDone s a2 a3 a4) := by
  unfold Machine.demoteWriteDone
  repeat' first
    | (with_reducible first
        | assumption | apply evo_whenUp | apply evo_startDemotion | apply evo_bump | apply evo_runLocal | apply Evo.foldl
        | apply Evo.foldl_fst | apply Evo.elim | apply Evo.getD)
    | simp only [evo_mk] | split | intro _

theorem evo_losePage {z : State} {s : State} {a2} (hs : Evo z s) :
    Evo z (Machine.losePage s a2) := by
  unfold Machine.losePage
  repeat' first
    | (with_reducible first
        | assumption | apply evo_runLocal | apply evo_notifyLeader | apply Evo.foldl | apply Evo.foldl_fst | apply Evo.elim
        | apply Evo.getD)
    | dsimp only | split

theorem evo_pagePromote {z : State} {s : State} {a2} {a3} {a4} (hs : Evo z s) :
    Evo z (Machine.pagePromote s a2 a3 a4) := by
  unfold Machine.pagePromote
  repeat' first
    | (with_reducible first
        | assumption | apply evo_whenUp | apply evo_losePage | apply evo_runLocal | apply evo_writeMem | apply Evo.foldl
        | apply Evo.foldl_fst | apply Evo.elim | apply Evo.getD)
    | dsimp only | split | intro _

theorem evo_clearScales {z : State} {s : State} {a2} (hs : Evo z s) :
    Evo z (Machine.clearScales s a2) := by
  unfold Machine.clearScales
  repeat' with_reducible first
    | assumption | apply evo_zeroMem

theorem evo_mapPages {z : State} {a1} {a2} {a3} {a4} {s : State} {a6} (hs : Evo z s) :
    Evo z (Machine.mapPages a1 a2 a3 a4 s a6).1 := by
  induction a4 generalizing a1 a2 a3 s a6 with
  | zero =>
    unfold Machine.mapPages
    repeat' with_reducible first
      | assumption
  | succ n ih =>
    unfold Machine.mapPages
    repeat' first
      | (with_reducible first
          | assumption | apply ih | apply evo_runLocal | apply evo_clearScales | apply Evo.foldl | apply Evo.foldl_fst
          | apply Evo.elim | apply Evo.getD)
      | simp only [evo_mk] | split

theorem evo_poolEmpty {z : State} {s : State} {a2} {a3} (hs : Evo z s) :
    Evo z (Machine.poolEmpty s a2 a3) := by
  unfold Machine.poolEmpty
  repeat' first
    | (with_reducible first
        | assumption | apply evo_openEvent | apply evo_modReq | apply Evo.foldl | apply Evo.foldl_fst | apply Evo.elim
        | apply Evo.getD)
    | simp only [evo_mk]

theorem evo_mapRequest {z : State} {s : State} {a2} {a3} {a4} {a5} {a6} {a7} {a8} (hs : Evo z s) :
    Evo z (Machine.mapRequest s a2 a3 a4 a5 a6 a7 a8) := by
  unfold Machine.mapRequest
  repeat' first
    | (with_reducible first
        | assumption | apply evo_mapPages | apply evo_evictClass | apply evo_poolEmpty | apply Evo.foldl
        | apply Evo.foldl_fst | apply Evo.elim | apply Evo.getD | exact Evo.refl _)
    | dsimp only | split | intro _ | (refine pair_evo (by with_reducible assumption) ?_; with_reducible apply evo_mapPages)

theorem evo_feedStarved {z : State} {s : State} (hs : Evo z s) :
    Evo z (Machine.feedStarved s) := by
  unfold Machine.feedStarved
  repeat' first
    | (with_reducible first
        | assumption | apply evo_modReq | apply Evo.foldl | apply Evo.foldl_fst | apply Evo.elim | apply Evo.getD)
    | simp only [evo_mk] | split | intro _

theorem evo_leaseStale {z : State} {s : State} {a2} (hs : Evo z s) :
    Evo z (Machine.leaseStale s a2) := by
  unfold Machine.leaseStale
  repeat' first
    | (with_reducible first
        | assumption | apply evo_modReq | apply evo_askHome | apply evo_bump | apply evo_openEvent | apply Evo.foldl
        | apply Evo.foldl_fst | apply Evo.elim | apply Evo.getD)
    | simp only [evo_mk]

theorem evo_writeRow {z : State} {s : State} {a2} {a3} {a4} {a5} {a6} {a7} (hs : Evo z s) :
    Evo z (Machine.writeRow s a2 a3 a4 a5 a6 a7) := by
  unfold Machine.writeRow
  repeat' with_reducible first
    | assumption | apply evo_writeMem | apply evo_mirrorRec | apply evo_stampFrame

theorem evo_appendRow {z : State} {s : State} {a2} {a3} {a4} (hs : Evo z s) :
    Evo z (Machine.appendRow s a2 a3 a4) := by
  unfold Machine.appendRow
  repeat' first
    | (with_reducible first
        | assumption | apply evo_writeRow | apply evo_bumpBy | apply evo_raiseNumeric | apply Evo.foldl
        | apply Evo.foldl_fst | apply Evo.elim | apply Evo.getD)
    | dsimp only | split

theorem evo_choosePageBases {z : State} {s : State} {a2} {a3} (hs : Evo z s) :
    Evo z (Machine.choosePageBases s a2 a3) := by
  unfold Machine.choosePageBases
  repeat' first
    | (with_reducible first
        | assumption | apply evo_runLocal | apply Evo.foldl | apply Evo.foldl_fst | apply Evo.elim | apply Evo.getD)
    | dsimp only | split

theorem evo_mapForAppend {z : State} {s : State} {a2} {a3} {a4} (hs : Evo z s) :
    Evo z (Machine.mapForAppend s a2 a3 a4) := by
  unfold Machine.mapForAppend
  repeat' first
    | (with_reducible first
        | assumption | apply evo_mapPages | apply evo_poolEmpty | apply Evo.foldl | apply Evo.foldl_fst | apply Evo.elim
        | apply Evo.getD | exact Evo.refl _)
    | dsimp only | split | intro _ | (refine pair_evo (by with_reducible assumption) ?_; with_reducible apply evo_mapPages)

theorem evo_appendRows {z : State} {s : State} {a2} (hs : Evo z s) :
    Evo z (Machine.appendRows s a2) := by
  unfold Machine.appendRows
  repeat' first
    | (with_reducible first
        | assumption | apply evo_whenUp | apply evo_leaseStale | apply evo_mapForAppend | apply evo_choosePageBases
        | apply evo_appendRow | apply Evo.foldl | apply Evo.foldl_fst | apply Evo.elim | apply Evo.getD)
    | dsimp only | split | intro _

theorem evo_copyRow {z : State} {s : State} {a2} {a3} {a4} {a5} {a6} {a7} {a8} {a9} (hs : Evo z s) :
    Evo z (Machine.copyRow s a2 a3 a4 a5 a6 a7 a8 a9) := by
  unfold Machine.copyRow
  repeat' first
    | (with_reducible first
        | assumption | apply evo_writeRow | apply evo_bumpBy | apply evo_send | apply Evo.foldl | apply Evo.foldl_fst
        | apply Evo.elim | apply Evo.getD)
    | dsimp only | split

theorem evo_spliceCopies {z : State} {s : State} {a2} {a3} {a4} {a5} {a6} (hs : Evo z s) :
    Evo z (Machine.spliceCopies s a2 a3 a4 a5 a6) := by
  unfold Machine.spliceCopies
  repeat' first
    | (with_reducible first
        | assumption | apply evo_copyRow | apply Evo.foldl | apply Evo.foldl_fst | apply Evo.elim | apply Evo.getD)
    | dsimp only | split | intro _

theorem evo_returnPages {z : State} {s : State} {a2} (hs : Evo z s) :
    Evo z (Machine.returnPages s a2) := by
  unfold Machine.returnPages
  repeat' first
    | (with_reducible first
        | assumption | apply evo_localTake | apply Evo.foldl | apply Evo.foldl_fst | apply Evo.elim | apply Evo.getD)
    | simp only [evo_mk] | split | intro _

theorem evo_commitRows {z : State} {s : State} {a2} {a3} (hs : Evo z s) :
    Evo z (Machine.commitRows s a2 a3) := by
  unfold Machine.commitRows
  repeat' first
    | (with_reducible first
        | assumption | apply evo_localTake | apply evo_modReq | apply Evo.foldl | apply Evo.foldl_fst | apply Evo.elim
        | apply Evo.getD)
    | dsimp only | split

theorem evo_splice {z : State} {s : State} {a2} {a3} (hs : Evo z s) :
    Evo z (Machine.splice s a2 a3) := by
  unfold Machine.splice
  repeat' first
    | (with_reducible first
        | assumption | apply evo_spliceCopies | apply evo_returnPages | apply evo_commitRows | apply Evo.foldl
        | apply Evo.foldl_fst | apply Evo.elim | apply Evo.getD)
    | dsimp only | split

theorem evo_freePages {z : State} {s : State} {a2} (hs : Evo z s) :
    Evo z (Machine.freePages s a2) := by
  unfold Machine.freePages
  repeat' first
    | (with_reducible first
        | assumption | apply evo_localTake | apply evo_feedStarved | apply evo_mirrorRec | apply Evo.foldl
        | apply Evo.foldl_fst | apply Evo.elim | apply Evo.getD)
    | simp only [evo_mk] | split | intro _

theorem evo_answerReshoot {z : State} {s : State} {a2} {a3} {a4} {a5} (hs : Evo z s) :
    Evo z (Machine.answerReshoot s a2 a3 a4 a5) := by
  unfold Machine.answerReshoot
  repeat' first
    | (with_reducible first
        | assumption | apply evo_completeWith | apply evo_completeSt | apply evo_send | apply Evo.foldl
        | apply Evo.foldl_fst | apply Evo.elim | apply Evo.getD)
    | simp only [evo_mk] | split

theorem evo_checkReshoot {z : State} {s : State} {a2} {a3} {a4} {a5} (hs : Evo z s) :
    Evo z (Machine.checkReshoot s a2 a3 a4 a5) := by
  unfold Machine.checkReshoot
  repeat' first
    | (with_reducible first
        | assumption | apply evo_answerReshoot | apply Evo.foldl | apply Evo.foldl_fst | apply Evo.elim | apply Evo.getD)
    | simp only [evo_mk] | split

theorem evo_finishReshoot {z : State} {s : State} {a2} {a3} (hs : Evo z s) :
    Evo z (Machine.finishReshoot s a2 a3) := by
  unfold Machine.finishReshoot
  repeat' first
    | (with_reducible first
        | assumption | apply evo_bump | apply evo_modReq | apply evo_answerReshoot | apply evo_reshootEvent
        | apply Evo.foldl | apply Evo.foldl_fst | apply Evo.elim | apply Evo.getD)
    | simp only [evo_mk] | split

theorem evo_reshootComplete {z : State} {s : State} {a2} {a3} (hs : Evo z s) :
    Evo z (Machine.reshootComplete s a2 a3) := by
  unfold Machine.reshootComplete
  repeat' first
    | (with_reducible first
        | assumption | apply evo_whenUp | apply evo_answerReshoot | apply evo_freePages | apply evo_finishReshoot
        | apply Evo.foldl | apply Evo.foldl_fst | apply Evo.elim | apply Evo.getD)
    | simp only [evo_mk] | split | intro _

theorem evo_cancelReshoot {z : State} {s : State} {a2} (hs : Evo z s) :
    Evo z (Machine.cancelReshoot s a2) := by
  unfold Machine.cancelReshoot
  repeat' first
    | (with_reducible first
        | assumption | apply evo_answerReshoot | apply Evo.foldl | apply Evo.foldl_fst | apply Evo.elim | apply Evo.getD)
    | simp only [evo_mk] | split

end Sys2Proof.Laws
end

