-- ==== Sys2Proof/Laws/EvoAtt.lean ====
section
/-! SUPPORT. The operations of the attention unit keep registers and memory in their canonical form, leave the queue alone, and
take nothing back that was sent (`Evo`). -/

namespace Sys2Proof.Laws

open Sys2Proof Sys2Proof.Machine

theorem evo_attBindEnable {z : State} {s : State} {a2} {a3} (hs : Evo z s) :
    Evo z (Machine.attBindEnable s a2 a3) := by
  unfold Machine.attBindEnable
  repeat' first
    | (with_reducible first
        | assumption | apply evo_ofForm | apply evo_bar0 | apply evo_wri | apply Evo.foldl | apply Evo.foldl_fst
        | apply Evo.elim | apply Evo.getD)
    | dsimp only | split | intro _

theorem evo_attBindDisable {z : State} {s : State} {a2} {a3} (hs : Evo z s) :
    Evo z (Machine.attBindDisable s a2 a3) := by
  unfold Machine.attBindDisable
  repeat' first
    | (with_reducible first
        | assumption | apply evo_ofForm | apply evo_bar0 | apply evo_wri | apply Evo.foldl | apply Evo.foldl_fst
        | apply Evo.elim | apply Evo.getD)
    | simp only [evo_mk] | split | intro _

theorem evo_attProfWrite {z : State} {s : State} {a2} {a3} (hs : Evo z s) :
    Evo z (Machine.attProfWrite s a2 a3) := by
  unfold Machine.attProfWrite
  repeat' first
    | (with_reducible first
        | assumption | apply evo_ofForm | apply evo_bar0 | apply evo_setReg | apply Evo.foldl | apply Evo.foldl_fst
        | apply Evo.elim | apply Evo.getD)
    | dsimp only | split | intro _

theorem evo_skipStep {z : State} {s : State} {a2} (hs : Evo z s) :
    Evo z (Machine.skipStep s a2) := by
  unfold Machine.skipStep
  repeat' first
    | (with_reducible first
        | assumption | apply Evo.foldl | apply Evo.foldl_fst | apply Evo.elim | apply Evo.getD)
    | simp only [evo_mk]

theorem evo_mergeRow {z : State} {s : State} {a2} {a3} {a4} {a5} {a6} {a7} (hs : Evo z s) :
    Evo z (Machine.mergeRow s a2 a3 a4 a5 a6 a7) := by
  unfold Machine.mergeRow
  repeat' first
    | (with_reducible first
        | assumption | apply evo_bump | apply evo_raiseNumeric | apply Evo.foldl | apply Evo.foldl_fst | apply Evo.elim
        | apply Evo.getD)
    | simp only [evo_mk] | split

theorem evo_passRow {z : State} {s : State} {a2} {a3} {a4} {a5} {a6} {a7} (hs : Evo z s) :
    Evo z (Machine.passRow s a2 a3 a4 a5 a6 a7) := by
  unfold Machine.passRow
  repeat' first
    | (with_reducible first
        | assumption | apply evo_bumpBy | apply evo_tickFree | apply evo_mergeRow | apply evo_send | apply Evo.foldl
        | apply Evo.foldl_fst | apply Evo.elim | apply Evo.getD)
    | dsimp only | split

theorem evo_stampRead {z : State} {s : State} {a2} {a3} {a4} (hs : Evo z s) :
    Evo z (Machine.stampRead s a2 a3 a4) := by
  unfold Machine.stampRead
  repeat' first
    | (with_reducible first
        | assumption | apply evo_stampFrame | apply Evo.foldl | apply Evo.foldl_fst | apply Evo.elim | apply Evo.getD)
    | simp only [evo_mk] | split | intro _

theorem evo_partialAsk {z : State} {s : State} {a2} {a3} {a4} {a5} {a6} {a7} (hs : Evo z s) :
    Evo z (Machine.partialAsk s a2 a3 a4 a5 a6 a7) := by
  unfold Machine.partialAsk
  repeat' first
    | (with_reducible first
        | assumption | apply evo_send | apply Evo.foldl | apply Evo.foldl_fst | apply Evo.elim | apply Evo.getD)
    | simp only [evo_mk]

theorem evo_attentionPass {z : State} {s : State} {a2} (hs : Evo z s) :
    Evo z (Machine.attentionPass s a2) := by
  unfold Machine.attentionPass
  repeat' first
    | (with_reducible first
        | assumption | apply evo_whenUp | apply evo_losePage | apply evo_openEvent | apply evo_skipStep | apply evo_passRow
        | apply evo_stampRead | apply evo_partialAsk | apply Evo.foldl | apply Evo.foldl_fst | apply Evo.elim
        | apply Evo.getD)
    | dsimp only | split | intro _

theorem evo_failedPartial {z : State} {s : State} {a2} {a3} (hs : Evo z s) :
    Evo z (Machine.failedPartial s a2 a3) := by
  unfold Machine.failedPartial
  repeat' first
    | (with_reducible first
        | assumption | apply evo_skipStep | apply evo_askHome | apply Evo.foldl | apply Evo.foldl_fst | apply Evo.elim
        | apply Evo.getD)
    | dsimp only | split

theorem evo_partialRecord {z : State} {s : State} {a2} {a3} {a4} (hs : Evo z s) :
    Evo z (Machine.partialRecord s a2 a3 a4) := by
  unfold Machine.partialRecord
  repeat' first
    | (with_reducible first
        | assumption | apply evo_whenUp | apply evo_record | apply evo_skipStep | apply evo_failedPartial | apply evo_bump
        | apply evo_mergeRow | apply Evo.foldl | apply Evo.foldl_fst | apply Evo.elim | apply Evo.getD)
    | simp only [evo_mk] | split | intro _

theorem evo_partialReplyTimeout {z : State} {s : State} {a2} {a3} (hs : Evo z s) :
    Evo z (Machine.partialReplyTimeout s a2 a3) := by
  unfold Machine.partialReplyTimeout
  repeat' first
    | (with_reducible first
        | assumption | apply evo_whenUp | apply evo_openEvent | apply evo_skipStep | apply Evo.foldl | apply Evo.foldl_fst
        | apply Evo.elim | apply Evo.getD)
    | simp only [evo_mk] | split | intro _

theorem evo_answerEntry {z : State} {s : State} {a2} {a3} {a4} {a5} (hs : Evo z s) :
    Evo z (Machine.answerEntry s a2 a3 a4 a5) := by
  unfold Machine.answerEntry
  repeat' first
    | (with_reducible first
        | assumption | apply evo_send | apply evo_bumpBy | apply evo_tickFree | apply Evo.foldl | apply Evo.foldl_fst
        | apply Evo.elim | apply Evo.getD)
    | dsimp only | split

theorem evo_partialRequest {z : State} {s : State} {a2} {a3} (hs : Evo z s) :
    Evo z (Machine.partialRequest s a2 a3) := by
  unfold Machine.partialRequest
  repeat' first
    | (with_reducible first
        | assumption | apply evo_whenUp | apply evo_bump | apply evo_notifyOwner | apply evo_stampRead
        | apply evo_answerEntry | apply Evo.foldl | apply Evo.foldl_fst | apply Evo.elim | apply Evo.getD)
    | simp only [evo_mk] | split | intro _

end Sys2Proof.Laws
end

