-- ==== Sys2Proof/Laws/EvoSpares.lean ====
section
/-! SUPPORT. The operations of the retirement list keep registers and memory in their canonical form, leave the queue alone, and
take nothing back that was sent (`Evo`). -/

namespace Sys2Proof.Laws

open Sys2Proof Sys2Proof.Machine

theorem evo_checkReplace {z : State} {s : State} (hs : Evo z s) :
    Evo z (Machine.checkReplace s) := by
  unfold Machine.checkReplace
  repeat' first
    | (with_reducible first
        | assumption | apply evo_openEvent | apply Evo.foldl | apply Evo.foldl_fst | apply Evo.elim | apply Evo.getD)
    | simp only [evo_mk] | split

theorem evo_addRetire {z : State} {s : State} {a2} {a3} {a4} (hs : Evo z s) :
    Evo z (Machine.addRetire s a2 a3 a4) := by
  unfold Machine.addRetire
  repeat' first
    | (with_reducible first
        | assumption | apply evo_checkReplace | apply evo_recordRetire | apply Evo.foldl | apply Evo.foldl_fst
        | apply Evo.elim | apply Evo.getD)
    | simp only [evo_mk] | split

end Sys2Proof.Laws
end

