-- ==== Sys2Proof/Laws/EvoMxe.lean ====
section
/-! SUPPORT. The operations of the matrix engine keep registers and memory in their canonical form, leave the queue alone, and
take nothing back that was sent (`Evo`). -/

namespace Sys2Proof.Laws

open Sys2Proof Sys2Proof.Machine

theorem evo_loadImage {z : State} {s : State} {a2} {a3} {a4} (hs : Evo z s) :
    Evo z (Machine.loadImage s a2 a3 a4) := by
  unfold Machine.loadImage
  repeat' first
    | (with_reducible first
        | assumption | apply Evo.foldl | apply Evo.foldl_fst | apply Evo.elim | apply Evo.getD)
    | simp only [evo_mk]

theorem evo_kernelLoad {z : State} {s : State} {a2} {a3} {a4} (hs : Evo z s) :
    Evo z (Machine.kernelLoad s a2 a3 a4) := by
  unfold Machine.kernelLoad
  repeat' first
    | (with_reducible first
        | assumption | apply evo_ofForm | apply evo_runDesc | apply evo_completeOk | apply evo_loadImage | apply Evo.foldl
        | apply Evo.foldl_fst | apply Evo.elim | apply Evo.getD)
    | simp only [evo_mk] | split | intro _

theorem evo_dropEmptyImages {z : State} {s : State} (hs : Evo z s) :
    Evo z (Machine.dropEmptyImages s) := by
  unfold Machine.dropEmptyImages
  repeat' first
    | (with_reducible first
        | assumption | apply Evo.foldl | apply Evo.foldl_fst | apply Evo.elim | apply Evo.getD)
    | simp only [evo_mk]

theorem evo_kernelUnload {z : State} {s : State} {a2} {a3} (hs : Evo z s) :
    Evo z (Machine.kernelUnload s a2 a3) := by
  unfold Machine.kernelUnload
  repeat' first
    | (with_reducible first
        | assumption | apply evo_ofForm | apply evo_runDesc | apply evo_completeOk | apply evo_dropEmptyImages
        | apply Evo.foldl | apply Evo.foldl_fst | apply Evo.elim | apply Evo.getD)
    | simp only [evo_mk] | split | intro _

theorem evo_kernelRun {z : State} {s : State} {a2} {a3} (hs : Evo z s) :
    Evo z (Machine.kernelRun s a2 a3) := by
  unfold Machine.kernelRun
  repeat' first
    | (with_reducible first
        | assumption | apply evo_ofForm | apply evo_runDesc | apply evo_addUnit | apply Evo.foldl | apply Evo.foldl_fst
        | apply Evo.elim | apply Evo.getD)
    | simp only [evo_mk] | split | intro _

theorem evo_modCore {z : State} {s : State} {a2} {a3} (hs : Evo z s) :
    Evo z (Machine.modCore s a2 a3) := by
  unfold Machine.modCore
  repeat' first
    | (with_reducible first
        | assumption | apply Evo.foldl | apply Evo.foldl_fst | apply Evo.elim | apply Evo.getD)
    | simp only [evo_mk]

theorem evo_corePass {z : State} {s : State} {a2} (hs : Evo z s) :
    Evo z (Machine.corePass s a2) := by
  unfold Machine.corePass
  repeat' with_reducible first
    | assumption | apply evo_modCore

theorem evo_coreMiss {z : State} {s : State} {a2} (hs : Evo z s) :
    Evo z (Machine.coreMiss s a2) := by
  unfold Machine.coreMiss
  repeat' with_reducible first
    | assumption | apply evo_bump | apply evo_modCore

theorem evo_coreRetire {z : State} {s : State} {a2} {a3} (hs : Evo z s) :
    Evo z (Machine.coreRetire s a2 a3) := by
  unfold Machine.coreRetire
  repeat' first
    | (with_reducible first
        | assumption | apply evo_modCore | apply evo_bump | apply evo_addRetire | apply evo_openEvent | apply Evo.foldl
        | apply Evo.foldl_fst | apply Evo.elim | apply Evo.getD)
    | simp only [evo_mk] | split

theorem evo_coreStrike {z : State} {s : State} {a2} {a3} (hs : Evo z s) :
    Evo z (Machine.coreStrike s a2 a3) := by
  unfold Machine.coreStrike
  repeat' first
    | (with_reducible first
        | assumption | apply evo_coreRetire | apply evo_modCore | apply Evo.foldl | apply Evo.foldl_fst | apply Evo.elim
        | apply Evo.getD)
    | simp only [evo_mk] | split

theorem evo_modRun {z : State} {s : State} {a2} {a3} (hs : Evo z s) :
    Evo z (Machine.modRun s a2 a3) := by
  unfold Machine.modRun
  repeat' first
    | (with_reducible first
        | assumption | apply Evo.foldl | apply Evo.foldl_fst | apply Evo.elim | apply Evo.getD)
    | simp only [evo_mk]

theorem evo_unitPassed {z : State} {s : State} {a2} {a3} (hs : Evo z s) :
    Evo z (Machine.unitPassed s a2 a3) := by
  unfold Machine.unitPassed
  repeat' with_reducible first
    | assumption | apply evo_modRun

theorem evo_unitFailed {z : State} {s : State} {a2} {a3} {a4} (hs : Evo z s) :
    Evo z (Machine.unitFailed s a2 a3 a4) := by
  unfold Machine.unitFailed
  repeat' first
    | (with_reducible first
        | assumption | apply evo_modRun | apply Evo.foldl | apply Evo.foldl_fst | apply Evo.elim | apply Evo.getD)
    | simp only [evo_mk] | split

theorem evo_mxeUnitDone {z : State} {s : State} {a2} {a3} {a4} {a5} {a6} {a7} (hs : Evo z s) :
    Evo z (Machine.mxeUnitDone s a2 a3 a4 a5 a6 a7) := by
  unfold Machine.mxeUnitDone
  repeat' first
    | (with_reducible first
        | assumption | apply evo_whenUp | apply evo_unitPassed | apply evo_corePass | apply evo_coreMiss | apply Evo.foldl
        | apply Evo.foldl_fst | apply Evo.elim | apply Evo.getD)
    | simp only [evo_mk] | split | intro _

theorem evo_mxeRetryDone {z : State} {s : State} {a2} {a3} {a4} {a5} {a6} {a7} (hs : Evo z s) :
    Evo z (Machine.mxeRetryDone s a2 a3 a4 a5 a6 a7) := by
  unfold Machine.mxeRetryDone
  repeat' first
    | (with_reducible first
        | assumption | apply evo_whenUp | apply evo_coreStrike | apply evo_unitPassed | apply evo_corePass
        | apply evo_coreMiss | apply evo_openEvent | apply evo_unitFailed | apply Evo.foldl | apply Evo.foldl_fst
        | apply Evo.elim | apply Evo.getD)
    | simp only [evo_mk] | split | intro _

theorem evo_coreCmdEnd {z : State} {s : State} {a2} (hs : Evo z s) :
    Evo z (Machine.coreCmdEnd s a2) := by
  unfold Machine.coreCmdEnd
  repeat' first
    | (with_reducible first
        | assumption | apply evo_wr | apply Evo.foldl | apply Evo.foldl_fst | apply Evo.elim | apply Evo.getD)
    | simp only [evo_mk]

theorem evo_coreCmdBegin {z : State} {s : State} {a2} {a3} {a4 : State → State} (hs : Evo z s)
    (ha4 : ∀ x0, Evo z x0 → Evo z (a4 x0)) :
    Evo z (Machine.coreCmdBegin s a2 a3 a4) := by
  unfold Machine.coreCmdBegin
  repeat' first
    | (with_reducible first
        | assumption | apply ha4 | apply evo_bar0 | apply evo_wr | apply evo_coreCmdEnd | apply Evo.foldl
        | apply Evo.foldl_fst | apply Evo.elim | apply Evo.getD)
    | simp only [evo_mk] | split | intro _

theorem evo_mxeCoreTest {z : State} {s : State} {a2} (hs : Evo z s) :
    Evo z (Machine.mxeCoreTest s a2) := by
  unfold Machine.mxeCoreTest
  repeat' first
    | (with_reducible first
        | assumption | apply evo_coreCmdBegin | apply evo_modCore | apply evo_coreCmdEnd | apply Evo.foldl
        | apply Evo.foldl_fst | apply Evo.elim | apply Evo.getD)
    | simp only [evo_mk] | split | intro _

theorem evo_mxeCoreRetire {z : State} {s : State} {a2} (hs : Evo z s) :
    Evo z (Machine.mxeCoreRetire s a2) := by
  unfold Machine.mxeCoreRetire
  repeat' first
    | (with_reducible first
        | assumption | apply evo_coreCmdBegin | apply evo_coreCmdEnd | apply evo_modCore | apply evo_addRetire
        | apply evo_bump | apply Evo.foldl | apply Evo.foldl_fst | apply Evo.elim | apply Evo.getD)
    | dsimp only | split | intro _

theorem evo_coreSelftestDone {z : State} {s : State} {a2} {a3} (hs : Evo z s) :
    Evo z (Machine.coreSelftestDone s a2 a3) := by
  unfold Machine.coreSelftestDone
  repeat' first
    | (with_reducible first
        | assumption | apply evo_whenUp | apply evo_modCore | apply evo_coreCmdEnd | apply evo_recordRetire
        | apply Evo.foldl | apply Evo.foldl_fst | apply Evo.elim | apply Evo.getD)
    | dsimp only | split | intro _

theorem evo_fillSlot {z : State} {s : State} {a2} {a3} (hs : Evo z s) :
    Evo z (Machine.fillSlot s a2 a3) := by
  unfold Machine.fillSlot
  repeat' with_reducible first
    | assumption | apply evo_modCore

theorem evo_fillSpares {z : State} {a1} {s : State} (hs : Evo z s) :
    Evo z (Machine.fillSpares a1 s) := by
  induction a1 generalizing s with
  | zero =>
    unfold Machine.fillSpares
    repeat' with_reducible first
      | assumption
  | succ n ih =>
    unfold Machine.fillSpares
    repeat' first
      | (with_reducible first
          | assumption | apply ih | apply evo_fillSlot | apply Evo.foldl | apply Evo.foldl_fst | apply Evo.elim
          | apply Evo.getD)
      | simp only [evo_mk] | split

theorem evo_kernelBoundary {z : State} {s : State} (hs : Evo z s) :
    Evo z (Machine.kernelBoundary s) := by
  unfold Machine.kernelBoundary
  repeat' first
    | (with_reducible first
        | assumption | apply evo_modCore | apply evo_addRetire | apply evo_bump | apply evo_coreCmdEnd | apply evo_fillSlot
        | apply evo_checkReplace | apply evo_fillSpares | apply Evo.foldl | apply Evo.foldl_fst | apply Evo.elim
        | apply Evo.getD)
    | simp only [evo_mk] | split | intro _

end Sys2Proof.Laws
end

