-- ==== Sys2Proof/Laws/EvoPack.lean ====
section
/-! SUPPORT. The operations of the packer keep registers and memory in their canonical form, leave the queue alone, and
take nothing back that was sent (`Evo`). -/

namespace Sys2Proof.Laws

open Sys2Proof Sys2Proof.Machine

theorem evo_startPack {z : State} {s : State} {a2} {a3} {a4} (hs : Evo z s) :
    Evo z (Machine.startPack s a2 a3 a4) := by
  unfold Machine.startPack
  repeat' first
    | (with_reducible first
        | assumption | apply evo_addUnit | apply Evo.foldl | apply Evo.foldl_fst | apply Evo.elim | apply Evo.getD)
    | simp only [evo_mk]

theorem evo_packCode {z : State} {s : State} {a2} {a3} (hs : Evo z s) :
    Evo z (Machine.packCode s a2 a3) := by
  unfold Machine.packCode
  repeat' first
    | (with_reducible first
        | assumption | apply evo_ofForm | apply evo_runDesc | apply evo_startPack | apply Evo.foldl | apply Evo.foldl_fst
        | apply Evo.elim | apply Evo.getD)
    | simp only [evo_mk] | split | intro _

theorem evo_packCodeSafe {z : State} {s : State} {a2} {a3} (hs : Evo z s) :
    Evo z (Machine.packCodeSafe s a2 a3) := by
  unfold Machine.packCodeSafe
  repeat' first
    | (with_reducible first
        | assumption | apply evo_ofForm | apply evo_runDesc | apply evo_startPack | apply Evo.foldl | apply Evo.foldl_fst
        | apply Evo.elim | apply Evo.getD)
    | simp only [evo_mk] | split | intro _

theorem evo_packUnpack {z : State} {s : State} {a2} {a3} (hs : Evo z s) :
    Evo z (Machine.packUnpack s a2 a3) := by
  unfold Machine.packUnpack
  repeat' first
    | (with_reducible first
        | assumption | apply evo_ofForm | apply evo_runDesc | apply evo_startPack | apply Evo.foldl | apply Evo.foldl_fst
        | apply Evo.elim | apply Evo.getD)
    | simp only [evo_mk] | split | intro _

theorem evo_packFree {z : State} {s : State} {a2} {a3} (hs : Evo z s) :
    Evo z (Machine.packFree s a2 a3) := by
  unfold Machine.packFree
  repeat' first
    | (with_reducible first
        | assumption | apply evo_ofForm | apply evo_runDesc | apply evo_completeOk | apply Evo.foldl | apply Evo.foldl_fst
        | apply Evo.elim | apply Evo.getD)
    | simp only [evo_mk] | split | intro _

theorem evo_finishPack {z : State} {s : State} {a2} {a3} (hs : Evo z s) :
    Evo z (Machine.finishPack s a2 a3) := by
  unfold Machine.finishPack
  repeat' first
    | (with_reducible first
        | assumption | apply evo_openEvent | apply evo_completeSt | apply evo_writeMem | apply evo_bumpBy
        | apply evo_completeWith | apply Evo.foldl | apply Evo.foldl_fst | apply Evo.elim | apply Evo.getD)
    | simp only [evo_mk] | split

theorem evo_blockFailed {z : State} {s : State} {a2} {a3} {a4} {a5} (hs : Evo z s) :
    Evo z (Machine.blockFailed s a2 a3 a4 a5) := by
  unfold Machine.blockFailed
  repeat' with_reducible first
    | assumption | apply evo_openEvent | apply evo_unitFailed

theorem evo_expanderBlock {z : State} {s : State} {a2} {a3} {a4} (hs : Evo z s) :
    Evo z (Machine.expanderBlock s a2 a3 a4) := by
  unfold Machine.expanderBlock
  repeat' first
    | (with_reducible first
        | assumption | apply evo_whenUp | apply evo_blockFailed | apply evo_bump | apply Evo.foldl | apply Evo.foldl_fst
        | apply Evo.elim | apply Evo.getD)
    | simp only [evo_mk] | split | intro _

theorem evo_expanderReread {z : State} {s : State} {a2} {a3} {a4} (hs : Evo z s) :
    Evo z (Machine.expanderReread s a2 a3 a4) := by
  unfold Machine.expanderReread
  repeat' first
    | (with_reducible first
        | assumption | apply evo_whenUp | apply evo_blockFailed | apply Evo.foldl | apply Evo.foldl_fst | apply Evo.elim
        | apply Evo.getD)
    | simp only [evo_mk] | split | intro _

end Sys2Proof.Laws
end

