-- ==== Sys2Proof/Laws/EvoKern.lean ====
section
/-! SUPPORT. The operations of the kernel images keep registers and memory in their canonical form, leave the queue alone, and
take nothing back that was sent (`Evo`). -/

namespace Sys2Proof.Laws

open Sys2Proof Sys2Proof.Machine

theorem evo_writeProduct {z : State} {s : State} {s2 : State} {a3} {a4} {a5} {a6} (_hs : Evo z s) (hs2 : Evo z s2) :
    Evo z (Machine.writeProduct s s2 a3 a4 a5 a6) := by
  unfold Machine.writeProduct
  repeat' first
    | (with_reducible first
        | assumption | apply evo_writeMem | apply Evo.foldl | apply Evo.foldl_fst | apply Evo.elim | apply Evo.getD)
    | dsimp only | split | intro _

theorem evo_refreshLines {z : State} {s : State} {a2} {a3} (hs : Evo z s) :
    Evo z (Machine.refreshLines s a2 a3) := by
  unfold Machine.refreshLines
  repeat' first
    | (with_reducible first
        | assumption | apply Evo.foldl | apply Evo.foldl_fst | apply Evo.elim | apply Evo.getD)
    | simp only [evo_mk]

theorem evo_finishRun {z : State} {s : State} {a2} {a3} (hs : Evo z s) :
    Evo z (Machine.finishRun s a2 a3) := by
  unfold Machine.finishRun
  repeat' first
    | (with_reducible first
        | assumption | apply evo_writeProduct | apply evo_refreshLines | apply evo_tickFree | apply evo_completeSt
        | apply Evo.foldl | apply Evo.foldl_fst | apply Evo.elim | apply Evo.getD)
    | simp only [evo_mk] | split | intro _

end Sys2Proof.Laws
end

