-- ==== Sys2Proof/Laws/EvoSmp.lean ====
section
/-! SUPPORT. The operations of the sampler keep registers and memory in their canonical form, leave the queue alone, and
take nothing back that was sent (`Evo`). -/

namespace Sys2Proof.Laws

open Sys2Proof Sys2Proof.Machine

theorem evo_countTokens {z : State} {s : State} {a2} {a3} {a4} (hs : Evo z s) :
    Evo z (Machine.countTokens s a2 a3 a4) := by
  unfold Machine.countTokens
  repeat' first
    | (with_reducible first
        | assumption | apply evo_bump | apply Evo.foldl | apply Evo.foldl_fst | apply Evo.elim | apply Evo.getD)
    | simp only [evo_mk] | split | intro _

theorem evo_postRecord {z : State} {s : State} {a2} {a3} {a4} {a5} {a6} {a7} {a8} (hs : Evo z s) :
    Evo z (Machine.postRecord s a2 a3 a4 a5 a6 a7 a8) := by
  unfold Machine.postRecord
  repeat' first
    | (with_reducible first
        | assumption | apply evo_writeRecord | apply Evo.foldl | apply Evo.foldl_fst | apply Evo.elim | apply Evo.getD)
    | simp only [evo_mk] | split

theorem evo_writeTokens {z : State} {s : State} {a2} {a3} {a4} {a5} (hs : Evo z s) :
    Evo z (Machine.writeTokens s a2 a3 a4 a5) := by
  unfold Machine.writeTokens
  repeat' with_reducible first
    | assumption | apply evo_emits

theorem evo_endCancels {z : State} {s : State} {a2} (hs : Evo z s) :
    Evo z (Machine.endCancels s a2) := by
  unfold Machine.endCancels
  repeat' first
    | (with_reducible first
        | assumption | apply evo_completeOk | apply Evo.foldl | apply Evo.foldl_fst | apply Evo.elim | apply Evo.getD)
    | simp only [evo_mk] | split | intro _

theorem evo_applyDelivery {z : State} {s : State} {a2} (hs : Evo z s) :
    Evo z (Machine.applyDelivery s a2) := by
  unfold Machine.applyDelivery
  repeat' first
    | (with_reducible first
        | assumption | apply evo_postEvent | apply evo_send | apply evo_endCancels | apply evo_writeTokens
        | apply evo_complete | apply evo_postRecord | apply Evo.foldl | apply Evo.foldl_fst | apply Evo.elim
        | apply Evo.getD)
    | simp only [evo_mk] | split

theorem evo_tokenDelivery {z : State} {s : State} {a2} (hs : Evo z s) :
    Evo z (Machine.tokenDelivery s a2) := by
  unfold Machine.tokenDelivery
  repeat' first
    | (with_reducible first
        | assumption | apply evo_whenUp | apply evo_applyDelivery | apply Evo.foldl | apply Evo.foldl_fst | apply Evo.elim
        | apply Evo.getD)
    | simp only [evo_mk] | split | intro _

theorem evo_deliver {z : State} {s : State} {a2} {a3} (hs : Evo z s) :
    Evo z (Machine.deliver s a2 a3) := by
  unfold Machine.deliver
  repeat' first
    | (with_reducible first
        | assumption | apply evo_applyDelivery | apply evo_send | apply Evo.foldl | apply Evo.foldl_fst | apply Evo.elim
        | apply Evo.getD)
    | simp only [evo_mk] | split

theorem evo_deliverEnd {z : State} {s : State} {a2} {a3} {a4} {a5} {a6} {a7} (hs : Evo z s) :
    Evo z (Machine.deliverEnd s a2 a3 a4 a5 a6 a7) := by
  unfold Machine.deliverEnd
  repeat' first
    | (with_reducible first
        | assumption | apply evo_deliver | apply Evo.foldl | apply Evo.foldl_fst | apply Evo.elim | apply Evo.getD)
    | simp only [evo_mk] | split | intro _

theorem evo_noteReport {z : State} {s : State} {a2} {a3} {a4} (hs : Evo z s) :
    Evo z (Machine.noteReport s a2 a3 a4) := by
  unfold Machine.noteReport
  repeat' first
    | (with_reducible first
        | assumption | apply evo_deliverEnd | apply evo_deliver | apply Evo.foldl | apply Evo.foldl_fst | apply Evo.elim
        | apply Evo.getD)
    | simp only [evo_mk] | split

theorem evo_mirroredReport {z : State} {s : State} {a2} {a3} {a4} (hs : Evo z s) :
    Evo z (Machine.mirroredReport s a2 a3 a4) := by
  unfold Machine.mirroredReport
  repeat' first
    | (with_reducible first
        | assumption | apply evo_whenUp | apply evo_noteReport | apply Evo.foldl | apply Evo.foldl_fst | apply Evo.elim
        | apply Evo.getD)
    | simp only [evo_mk] | split | intro _

theorem evo_flushReports {z : State} {s : State} (hs : Evo z s) :
    Evo z (Machine.flushReports s) := by
  unfold Machine.flushReports
  repeat' first
    | (with_reducible first
        | assumption | apply evo_noteReport | apply evo_send | apply Evo.foldl | apply Evo.foldl_fst | apply Evo.elim
        | apply Evo.getD)
    | simp only [evo_mk] | split | intro _

theorem evo_applyVerify {z : State} {s : State} {a2} (hs : Evo z s) :
    Evo z (Machine.applyVerify s a2) := by
  unfold Machine.applyVerify
  split
  · exact hs
  · split
    · exact hs
    · extract_lets standin switch s1 s2 s3 sm s4 s5 s6 seq committed s7
      have h1 : Evo z s1 := evo_splice hs
      have h2 : Evo z s2 := by
        unfold s2
        split
        · exact h1
        · exact evo_countTokens h1
      have h3 : Evo z s3 := evo_modReq h2
      have h4 : Evo z s4 := by
        unfold s4
        split
        · exact h3
        · exact (evo_mk rfl).2 h3
      have h5 : Evo z s5 := by
        unfold s5
        split
        · exact evo_bump h4
        · exact h4
      have h6 : Evo z s6 := by
        unfold s6
        split
        · exact evo_bump h5
        · exact h5
      have h7 : Evo z s7 := evo_mirrorRec h6
      clear_value s7
      split
      · exact evo_flushReports ((evo_mk rfl).2 h7)
      · exact h7

theorem evo_verifyResult {z : State} {s : State} {a2} (hs : Evo z s) :
    Evo z (Machine.verifyResult s a2) := by
  unfold Machine.verifyResult
  repeat' first
    | (with_reducible first
        | assumption | apply evo_whenUp | apply evo_applyVerify | apply Evo.foldl | apply Evo.foldl_fst | apply Evo.elim
        | apply Evo.getD)
    | simp only [evo_mk] | split | intro _

theorem evo_announceResult {z : State} {s : State} {a2} {a3} (hs : Evo z s) :
    Evo z (Machine.announceResult s a2 a3) := by
  unfold Machine.announceResult
  repeat' first
    | (with_reducible first
        | assumption | apply evo_send | apply evo_applyVerify | apply Evo.foldl | apply Evo.foldl_fst | apply Evo.elim
        | apply Evo.getD)
    | simp only [evo_mk] | split | intro _

theorem evo_clearRows {z : State} {s : State} {a2} (hs : Evo z s) :
    Evo z (Machine.clearRows s a2) := by
  unfold Machine.clearRows
  repeat' first
    | (with_reducible first
        | assumption | apply Evo.foldl | apply Evo.foldl_fst | apply Evo.elim | apply Evo.getD)
    | simp only [evo_mk]

theorem evo_verifyWalk {z : State} {s : State} {a2} {a3} (hs : Evo z s) :
    Evo z (Machine.verifyWalk s a2 a3) := by
  unfold Machine.verifyWalk
  repeat' first
    | (with_reducible first
        | assumption | apply evo_clearRows | apply evo_announceResult | apply evo_bumpBy | apply evo_bump | apply Evo.foldl
        | apply Evo.foldl_fst | apply Evo.elim | apply Evo.getD)
    | dsimp only | split

theorem evo_takeDraw {z : State} {s : State} {a2} (hs : Evo z s) :
    Evo z (Machine.takeDraw s a2) := by
  unfold Machine.takeDraw
  repeat' first
    | (with_reducible first
        | assumption | apply evo_verifyWalk | apply Evo.foldl | apply Evo.foldl_fst | apply Evo.elim | apply Evo.getD)
    | simp only [evo_mk] | split

theorem evo_roundBDraw {z : State} {s : State} {a2} (hs : Evo z s) :
    Evo z (Machine.roundBDraw s a2) := by
  unfold Machine.roundBDraw
  repeat' first
    | (with_reducible first
        | assumption | apply evo_whenUp | apply evo_takeDraw | apply Evo.foldl | apply Evo.foldl_fst | apply Evo.elim
        | apply Evo.getD)
    | simp only [evo_mk] | split | intro _

theorem evo_sendDraw {z : State} {s : State} {a2} {a3} {a4} (hs : Evo z s) :
    Evo z (Machine.sendDraw s a2 a3 a4) := by
  unfold Machine.sendDraw
  repeat' first
    | (with_reducible first
        | assumption | apply evo_takeDraw | apply evo_send | apply Evo.foldl | apply Evo.foldl_fst | apply Evo.elim
        | apply Evo.getD)
    | dsimp only | split

theorem evo_applyThreshold {z : State} {s : State} {a2} {a3} {a4} (hs : Evo z s) :
    Evo z (Machine.applyThreshold s a2 a3 a4) := by
  unfold Machine.applyThreshold
  repeat' first
    | (with_reducible first
        | assumption | apply evo_sendDraw | apply Evo.foldl | apply Evo.foldl_fst | apply Evo.elim | apply Evo.getD)
    | simp only [evo_mk] | split

theorem evo_thresholdReturn {z : State} {s : State} {a2} {a3} {a4} (hs : Evo z s) :
    Evo z (Machine.thresholdReturn s a2 a3 a4) := by
  unfold Machine.thresholdReturn
  repeat' first
    | (with_reducible first
        | assumption | apply evo_whenUp | apply evo_applyThreshold | apply Evo.foldl | apply Evo.foldl_fst | apply Evo.elim
        | apply Evo.getD)
    | simp only [evo_mk] | split | intro _

theorem evo_takeSummary {z : State} {s : State} {a2} {a3} (hs : Evo z s) :
    Evo z (Machine.takeSummary s a2 a3) := by
  unfold Machine.takeSummary
  repeat' first
    | (with_reducible first
        | assumption | apply evo_bumpBy | apply evo_send | apply evo_applyThreshold | apply Evo.foldl | apply Evo.foldl_fst
        | apply Evo.elim | apply Evo.getD)
    | simp only [evo_mk] | split | intro _

theorem evo_roundASummary {z : State} {s : State} {a2} {a3} (hs : Evo z s) :
    Evo z (Machine.roundASummary s a2 a3) := by
  unfold Machine.roundASummary
  repeat' first
    | (with_reducible first
        | assumption | apply evo_whenUp | apply evo_takeSummary | apply Evo.foldl | apply Evo.foldl_fst | apply Evo.elim
        | apply Evo.getD)
    | simp only [evo_mk] | split | intro _

theorem evo_sendLogits {z : State} {s : State} {a2} {a3} {a4} {a5} (hs : Evo z s) :
    Evo z (Machine.sendLogits s a2 a3 a4 a5) := by
  unfold Machine.sendLogits
  repeat' with_reducible first
    | assumption | apply evo_modReq | apply evo_send

theorem evo_samplerPass {z : State} {s : State} {a2} {a3} {a4} {a5} (hs : Evo z s) :
    Evo z (Machine.samplerPass s a2 a3 a4 a5) := by
  unfold Machine.samplerPass
  repeat' first
    | (with_reducible first
        | assumption | apply evo_whenUp | apply evo_raiseNumeric | apply evo_sendLogits | apply evo_sendDraw
        | apply evo_takeSummary | apply evo_send | apply Evo.foldl | apply Evo.foldl_fst | apply Evo.elim | apply Evo.getD)
    | simp only [evo_mk] | split | intro _

theorem evo_logitSlice {z : State} {s : State} {a2} {a3} {a4} {a5} {a6} {a7} (hs : Evo z s) :
    Evo z (Machine.logitSlice s a2 a3 a4 a5 a6 a7) := by
  unfold Machine.logitSlice
  repeat' first
    | (with_reducible first
        | assumption | apply evo_whenUp | apply evo_emit | apply evo_postRecord | apply Evo.foldl | apply Evo.foldl_fst
        | apply Evo.elim | apply Evo.getD)
    | simp only [evo_mk] | split | intro _

theorem evo_applyChoice {z : State} {s : State} {a2} {a3} (hs : Evo z s) :
    Evo z (Machine.applyChoice s a2 a3) := by
  unfold Machine.applyChoice
  repeat' first
    | (with_reducible first
        | assumption | apply evo_modReq | apply evo_announceResult | apply evo_bump | apply Evo.foldl | apply Evo.foldl_fst
        | apply Evo.elim | apply Evo.getD)
    | dsimp only | split

theorem evo_hostChoice {z : State} {s : State} {a2} {a3} (hs : Evo z s) :
    Evo z (Machine.hostChoice s a2 a3) := by
  unfold Machine.hostChoice
  repeat' first
    | (with_reducible first
        | assumption | apply evo_whenUp | apply evo_applyChoice | apply evo_send | apply Evo.foldl | apply Evo.foldl_fst
        | apply Evo.elim | apply Evo.getD)
    | simp only [evo_mk] | split | intro _

end Sys2Proof.Laws
end

