-- ==== Sys2Proof/Laws/EvoSch.lean ====
section
/-! SUPPORT. The operations of the scheduler keep registers and memory in their canonical form, leave the queue alone, and
take nothing back that was sent (`Evo`). -/

namespace Sys2Proof.Laws

open Sys2Proof Sys2Proof.Machine

theorem evo_endRequest {z : State} {s : State} {a2} {a3} {a4} (hs : Evo z s) :
    Evo z (Machine.endRequest s a2 a3 a4) := by
  unfold Machine.endRequest
  repeat' first
    | (with_reducible first
        | assumption | apply evo_cancelReshoot | apply evo_modReq | apply evo_deliver | apply evo_deliverEnd
        | apply Evo.foldl | apply Evo.foldl_fst | apply Evo.elim | apply Evo.getD)
    | simp only [evo_mk] | split | intro _

theorem evo_removeCancelled {z : State} {s : State} (hs : Evo z s) :
    Evo z (Machine.removeCancelled s) := by
  unfold Machine.removeCancelled
  repeat' first
    | (with_reducible first
        | assumption | apply evo_endRequest | apply Evo.foldl | apply Evo.foldl_fst | apply Evo.elim | apply Evo.getD)
    | simp only [evo_mk] | split | intro _

theorem evo_sendRoster {z : State} {s : State} {a2} (hs : Evo z s) :
    Evo z (Machine.sendRoster s a2) := by
  unfold Machine.sendRoster
  repeat' first
    | (with_reducible first
        | assumption | apply evo_send | apply Evo.foldl | apply Evo.foldl_fst | apply Evo.elim | apply Evo.getD)
    | simp only [evo_mk] | split | intro _

theorem evo_stepAdmission {z : State} {s : State} {a2} (hs : Evo z s) :
    Evo z (Machine.stepAdmission s a2) := by
  unfold Machine.stepAdmission
  repeat' first
    | (with_reducible first
        | assumption | apply evo_whenUp | apply evo_removeCancelled | apply evo_feedStarved | apply evo_modReq
        | apply evo_bumpBy | apply evo_sendRoster | apply Evo.foldl | apply Evo.foldl_fst | apply Evo.elim
        | apply Evo.getD)
    | simp only [evo_mk] | split | intro _

theorem evo_promptAdmission {z : State} {s : State} (hs : Evo z s) :
    Evo z (Machine.promptAdmission s) := by
  unfold Machine.promptAdmission
  repeat' first
    | (with_reducible first
        | assumption | apply evo_whenUp | apply evo_removeCancelled | apply evo_feedStarved | apply evo_modReq
        | apply evo_sendRoster | apply Evo.foldl | apply Evo.foldl_fst | apply Evo.elim | apply Evo.getD)
    | simp only [evo_mk] | split | intro _

theorem evo_stampRequest {z : State} {s : State} {a2} (hs : Evo z s) :
    Evo z (Machine.stampRequest s a2) := by
  unfold Machine.stampRequest
  repeat' first
    | (with_reducible first
        | assumption | apply Evo.foldl | apply Evo.foldl_fst | apply Evo.elim | apply Evo.getD)
    | simp only [evo_mk]

theorem evo_takeStandin {z : State} {s : State} {a2} {a3} (hs : Evo z s) :
    Evo z (Machine.takeStandin s a2 a3) := by
  unfold Machine.takeStandin
  repeat' with_reducible first
    | assumption | apply evo_modReq

theorem evo_mapSeq {z : State} {s : State} {a2} {a3} (hs : Evo z s) :
    Evo z (Machine.mapSeq s a2 a3) := by
  unfold Machine.mapSeq
  repeat' first
    | (with_reducible first
        | assumption | apply evo_mapRequest | apply Evo.foldl | apply Evo.foldl_fst | apply Evo.elim | apply Evo.getD)
    | dsimp only | split

theorem evo_catchUp {z : State} {s : State} {a2} (hs : Evo z s) :
    Evo z (Machine.catchUp s a2) := by
  unfold Machine.catchUp
  repeat' first
    | (with_reducible first
        | assumption | apply evo_addUnit | apply Evo.foldl | apply Evo.foldl_fst | apply Evo.elim | apply Evo.getD)
    | dsimp only | split

theorem evo_startUnits {z : State} {s : State} {a2} (hs : Evo z s) :
    Evo z (Machine.startUnits s a2) := by
  unfold Machine.startUnits
  repeat' first
    | (with_reducible first
        | assumption | apply evo_addUnit | apply evo_catchUp | apply Evo.foldl | apply Evo.foldl_fst | apply Evo.elim
        | apply Evo.getD)
    | simp only [evo_mk] | split | intro _

theorem evo_startStep {z : State} {s : State} {a2} {a3} {a4} (hs : Evo z s) :
    Evo z (Machine.startStep s a2 a3 a4) := by
  unfold Machine.startStep
  repeat' first
    | (with_reducible first
        | assumption | apply evo_advanceAge | apply evo_takeStandin | apply evo_stampRequest | apply evo_mapSeq
        | apply evo_startUnits | apply Evo.foldl | apply Evo.foldl_fst | apply Evo.elim | apply Evo.getD)
    | simp only [evo_mk] | split | intro _

theorem evo_refetchFailed {z : State} {s : State} {a2} {a3} (hs : Evo z s) :
    Evo z (Machine.refetchFailed s a2 a3) := by
  unfold Machine.refetchFailed
  repeat' with_reducible first
    | assumption | apply evo_errorEvent

theorem evo_refetch {z : State} {s : State} {a2} (hs : Evo z s) :
    Evo z (Machine.refetch s a2) := by
  unfold Machine.refetch
  repeat' first
    | (with_reducible first
        | assumption | apply evo_send | apply evo_refetchFailed | apply Evo.foldl | apply Evo.foldl_fst | apply Evo.elim
        | apply Evo.getD)
    | dsimp only | split | intro _

theorem evo_failStep {z : State} {s : State} (hs : Evo z s) :
    Evo z (Machine.failStep s) := by
  unfold Machine.failStep
  repeat' first
    | (with_reducible first
        | assumption | apply evo_skipStep | apply Evo.foldl | apply Evo.foldl_fst | apply Evo.elim | apply Evo.getD)
    | simp only [evo_mk] | split | intro _

theorem evo_holdDamaged {z : State} {s : State} {a2} (hs : Evo z s) :
    Evo z (Machine.holdDamaged s a2) := by
  unfold Machine.holdDamaged
  repeat' first
    | (with_reducible first
        | assumption | apply evo_refetch | apply Evo.foldl | apply Evo.foldl_fst | apply Evo.elim | apply Evo.getD)
    | simp only [evo_mk]

theorem evo_countFail {z : State} {s : State} (hs : Evo z s) :
    Evo z (Machine.countFail s) := by
  unfold Machine.countFail
  repeat' first
    | (with_reducible first
        | assumption | apply evo_openEvent | apply Evo.foldl | apply Evo.foldl_fst | apply Evo.elim | apply Evo.getD)
    | simp only [evo_mk] | split

theorem evo_endModel {z : State} {s : State} {a2} {a3} (hs : Evo z s) :
    Evo z (Machine.endModel s a2 a3) := by
  unfold Machine.endModel
  repeat' first
    | (with_reducible first
        | assumption | apply evo_countFail | apply Evo.foldl | apply Evo.foldl_fst | apply Evo.elim | apply Evo.getD)
    | simp only [evo_mk] | split

theorem evo_endChunk {z : State} {s : State} {a2} {a3} (hs : Evo z s) :
    Evo z (Machine.endChunk s a2 a3) := by
  unfold Machine.endChunk
  repeat' first
    | (with_reducible first
        | assumption | apply evo_commitRows | apply evo_modReq | apply Evo.foldl | apply Evo.foldl_fst | apply Evo.elim
        | apply Evo.getD)
    | dsimp only | split

theorem evo_endWork {z : State} {s : State} {a2} (hs : Evo z s) :
    Evo z (Machine.endWork s a2) := by
  unfold Machine.endWork
  repeat' first
    | (with_reducible first
        | assumption | apply evo_finishRun | apply evo_finishPack | apply Evo.foldl | apply Evo.foldl_fst | apply Evo.elim
        | apply Evo.getD)
    | simp only [evo_mk] | split

theorem evo_endUnit {z : State} {s : State} {a2} {a3} (hs : Evo z s) :
    Evo z (Machine.endUnit s a2 a3) := by
  unfold Machine.endUnit
  repeat' first
    | (with_reducible first
        | assumption | apply evo_endModel | apply evo_endChunk | apply evo_modReq | apply evo_endWork | apply Evo.foldl
        | apply Evo.foldl_fst | apply Evo.elim | apply Evo.getD)
    | simp only [evo_mk] | split

theorem evo_unitFault {z : State} {s : State} {a2} {a3} {a4} (hs : Evo z s) :
    Evo z (Machine.unitFault s a2 a3 a4) := by
  unfold Machine.unitFault
  repeat' first
    | (with_reducible first
        | assumption | apply evo_failStep | apply evo_skipStep | apply evo_modRun | apply evo_holdDamaged | apply Evo.foldl
        | apply Evo.foldl_fst | apply Evo.elim | apply Evo.getD)
    | dsimp only | split

theorem evo_unitEnd {z : State} {s : State} {a2} (hs : Evo z s) :
    Evo z (Machine.unitEnd s a2) := by
  unfold Machine.unitEnd
  repeat' first
    | (with_reducible first
        | assumption | apply evo_whenUp | apply evo_kernelBoundary | apply evo_unitFault | apply evo_endUnit
        | apply evo_startUnit | apply Evo.foldl | apply Evo.foldl_fst | apply Evo.elim | apply Evo.getD)
    | simp only [evo_mk] | split | intro _

end Sys2Proof.Laws
end

