-- ==== Sys2Proof/Laws/EvoGlk.lean ====
section
/-! SUPPORT. The operations of the links keep registers and memory in their canonical form, leave the queue alone, and
take nothing back that was sent (`Evo`). -/

namespace Sys2Proof.Laws

open Sys2Proof Sys2Proof.Machine

theorem evo_linkChange {z : State} {s : State} {a2} {a3} (hs : Evo z s) :
    Evo z (Machine.linkChange s a2 a3) := by
  unfold Machine.linkChange
  repeat' with_reducible first
    | assumption | apply evo_postEvent

theorem evo_setPortState {z : State} {s : State} {a2} {a3} (hs : Evo z s) :
    Evo z (Machine.setPortState s a2 a3) := by
  unfold Machine.setPortState
  repeat' first
    | (with_reducible first
        | assumption | apply evo_wri | apply evo_wr | apply Evo.foldl | apply Evo.foldl_fst | apply Evo.elim
        | apply Evo.getD)
    | dsimp only | split

theorem evo_clearPort {z : State} {s : State} {a2} {a3} (hs : Evo z s) :
    Evo z (Machine.clearPort s a2 a3) := by
  unfold Machine.clearPort
  repeat' with_reducible first
    | assumption | apply evo_wri | apply evo_setPort

theorem evo_enterTrain {z : State} {s : State} {a2} {a3} {a4} (hs : Evo z s) :
    Evo z (Machine.enterTrain s a2 a3 a4) := by
  unfold Machine.enterTrain
  repeat' with_reducible first
    | assumption | apply evo_linkChange | apply evo_addSat | apply evo_setPortState | apply evo_clearPort

theorem evo_setMaxWidth {z : State} {s : State} {a2} {a3} (hs : Evo z s) :
    Evo z (Machine.setMaxWidth s a2 a3) := by
  unfold Machine.setMaxWidth
  repeat' first
    | (with_reducible first
        | assumption | apply evo_wri | apply Evo.foldl | apply Evo.foldl_fst | apply Evo.elim | apply Evo.getD)
    | simp only [evo_mk] | split

theorem evo_portEnable {z : State} {s : State} {a2} {a3} (hs : Evo z s) :
    Evo z (Machine.portEnable s a2 a3) := by
  unfold Machine.portEnable
  repeat' first
    | (with_reducible first
        | assumption | apply evo_ofForm | apply evo_bar0 | apply evo_setMaxWidth | apply evo_enterTrain | apply evo_wri
        | apply Evo.foldl | apply Evo.foldl_fst | apply Evo.elim | apply Evo.getD)
    | dsimp only | split | intro _

theorem evo_portDisable {z : State} {s : State} {a2} {a3} (hs : Evo z s) :
    Evo z (Machine.portDisable s a2 a3) := by
  unfold Machine.portDisable
  repeat' first
    | (with_reducible first
        | assumption | apply evo_ofForm | apply evo_bar0 | apply evo_setMaxWidth | apply evo_wri | apply evo_setPortState
        | apply evo_clearPort | apply Evo.foldl | apply Evo.foldl_fst | apply Evo.elim | apply Evo.getD)
    | dsimp only | split | intro _

theorem evo_portRetrain {z : State} {s : State} {a2} (hs : Evo z s) :
    Evo z (Machine.portRetrain s a2) := by
  unfold Machine.portRetrain
  repeat' first
    | (with_reducible first
        | assumption | apply evo_bar0 | apply evo_enterTrain | apply Evo.foldl | apply Evo.foldl_fst | apply Evo.elim
        | apply Evo.getD)
    | simp only [evo_mk] | split | intro _

theorem evo_pmdTrainingDone {z : State} {s : State} {a2} {a3} (hs : Evo z s) :
    Evo z (Machine.pmdTrainingDone s a2 a3) := by
  unfold Machine.pmdTrainingDone
  repeat' first
    | (with_reducible first
        | assumption | apply evo_enterTrain | apply evo_wri | apply evo_emit | apply evo_setPortState | apply evo_setPort
        | apply Evo.foldl | apply Evo.foldl_fst | apply Evo.elim | apply Evo.getD)
    | dsimp only | split

theorem evo_trainRetry {z : State} {s : State} {a2} (hs : Evo z s) :
    Evo z (Machine.trainRetry s a2) := by
  unfold Machine.trainRetry
  repeat' first
    | (with_reducible first
        | assumption | apply evo_setPort | apply Evo.foldl | apply Evo.foldl_fst | apply Evo.elim | apply Evo.getD)
    | dsimp only | split

theorem evo_sendCredit {z : State} {s : State} {a2} {a3} (hs : Evo z s) :
    Evo z (Machine.sendCredit s a2 a3) := by
  unfold Machine.sendCredit
  repeat' with_reducible first
    | assumption | apply evo_emit | apply evo_setPort

theorem evo_keyxFrame {z : State} {s : State} {a2} {a3} (hs : Evo z s) :
    Evo z (Machine.keyxFrame s a2 a3) := by
  unfold Machine.keyxFrame
  repeat' first
    | (with_reducible first
        | assumption | apply evo_errorEvent | apply evo_enterTrain | apply evo_sendCredit | apply evo_setPortState
        | apply evo_wri | apply evo_setPort | apply Evo.foldl | apply Evo.foldl_fst | apply Evo.elim | apply Evo.getD)
    | dsimp only | split

theorem evo_replay {z : State} {s : State} {a2} {a3} (hs : Evo z s) :
    Evo z (Machine.replay s a2 a3) := by
  unfold Machine.replay
  repeat' first
    | (with_reducible first
        | assumption | apply evo_addSat | apply evo_setPort | apply evo_enterTrain | apply evo_emits | apply Evo.foldl
        | apply Evo.foldl_fst | apply Evo.elim | apply Evo.getD)
    | dsimp only | split

theorem evo_nakFrame {z : State} {s : State} {a2} (hs : Evo z s) :
    Evo z (Machine.nakFrame s a2) := by
  unfold Machine.nakFrame
  repeat' first
    | (with_reducible first
        | assumption | apply evo_sendCredit | apply evo_setPort | apply Evo.foldl | apply Evo.foldl_fst | apply Evo.elim
        | apply Evo.getD)
    | dsimp only | split

theorem evo_badCheck {z : State} {s : State} {a2} {a3} (hs : Evo z s) :
    Evo z (Machine.badCheck s a2 a3) := by
  unfold Machine.badCheck
  repeat' first
    | (with_reducible first
        | assumption | apply evo_addSat | apply evo_setPort | apply evo_enterTrain | apply evo_nakFrame | apply Evo.foldl
        | apply Evo.foldl_fst | apply Evo.elim | apply Evo.getD)
    | dsimp only | split

theorem evo_acceptSeq {z : State} {s : State} {a2} {a3} {a4} (hs : Evo z s) :
    Evo z (Machine.acceptSeq s a2 a3 a4) := by
  unfold Machine.acceptSeq
  repeat' first
    | (with_reducible first
        | assumption | apply evo_setPort | apply evo_replay | apply Evo.foldl | apply Evo.foldl_fst | apply Evo.elim
        | apply Evo.getD)
    | dsimp only | split

theorem evo_beginTest {z : State} {s : State} {a2} (hs : Evo z s) :
    Evo z (Machine.beginTest s a2) := by
  unfold Machine.beginTest
  repeat' with_reducible first
    | assumption | apply evo_emit | apply evo_setPortState

theorem evo_creditFrame {z : State} {s : State} {a2} {a3} (hs : Evo z s) :
    Evo z (Machine.creditFrame s a2 a3) := by
  unfold Machine.creditFrame
  repeat' first
    | (with_reducible first
        | assumption | apply evo_badCheck | apply evo_nakFrame | apply evo_acceptSeq | apply evo_setPort
        | apply evo_beginTest | apply evo_servePort | apply Evo.foldl | apply Evo.foldl_fst | apply Evo.elim
        | apply Evo.getD)
    | dsimp only | split

theorem evo_creditFrameInterval {z : State} {s : State} {a2} (hs : Evo z s) :
    Evo z (Machine.creditFrameInterval s a2) := by
  unfold Machine.creditFrameInterval
  repeat' first
    | (with_reducible first
        | assumption | apply evo_sendCredit | apply Evo.foldl | apply Evo.foldl_fst | apply Evo.elim | apply Evo.getD)
    | simp only [evo_mk] | split

theorem evo_routeTake {z : State} {s : State} {a2} (hs : Evo z s) :
    Evo z (Machine.routeTake s a2) := by
  unfold Machine.routeTake
  repeat' with_reducible first
    | assumption | apply evo_localFor

theorem evo_linkTestFrame {z : State} {s : State} {a2} {a3} {a4} (hs : Evo z s) :
    Evo z (Machine.linkTestFrame s a2 a3 a4) := by
  unfold Machine.linkTestFrame
  repeat' first
    | (with_reducible first
        | assumption | apply evo_emit | apply evo_enterTrain | apply evo_setPort | apply evo_servePort
        | apply evo_setPortState | apply evo_routeTake | apply Evo.foldl | apply Evo.foldl_fst | apply Evo.elim
        | apply Evo.getD)
    | dsimp only | split

theorem evo_laneFault {z : State} {s : State} {a2} {a3} (hs : Evo z s) :
    Evo z (Machine.laneFault s a2 a3) := by
  unfold Machine.laneFault
  repeat' first
    | (with_reducible first
        | assumption | apply evo_enterTrain | apply evo_wri | apply evo_emits | apply evo_addSat | apply evo_linkChange
        | apply Evo.foldl | apply Evo.foldl_fst | apply Evo.elim | apply Evo.getD)
    | dsimp only | split

theorem evo_portRxTimeout {z : State} {s : State} {a2} (hs : Evo z s) :
    Evo z (Machine.portRxTimeout s a2) := by
  unfold Machine.portRxTimeout
  repeat' first
    | (with_reducible first
        | assumption | apply evo_enterTrain | apply Evo.foldl | apply Evo.foldl_fst | apply Evo.elim | apply Evo.getD)
    | simp only [evo_mk] | split

theorem evo_creditTimeout {z : State} {s : State} {a2} {a3} (hs : Evo z s) :
    Evo z (Machine.creditTimeout s a2 a3) := by
  unfold Machine.creditTimeout
  repeat' first
    | (with_reducible first
        | assumption | apply evo_enterTrain | apply Evo.foldl | apply Evo.foldl_fst | apply Evo.elim | apply Evo.getD)
    | dsimp only | split

theorem evo_dataFrame {z : State} {s : State} {a2} {a3} (hs : Evo z s) :
    Evo z (Machine.dataFrame s a2 a3) := by
  unfold Machine.dataFrame
  repeat' first
    | (with_reducible first
        | assumption | apply evo_badCheck | apply evo_nakFrame | apply evo_acceptSeq | apply evo_setPort
        | apply evo_servePort | apply evo_openEvent | apply evo_addSat | apply Evo.foldl | apply Evo.foldl_fst
        | apply Evo.elim | apply Evo.getD)
    | dsimp only | split

theorem evo_frameOnWireFinishes {z : State} {s : State} {a2} (hs : Evo z s) :
    Evo z (Machine.frameOnWireFinishes s a2) := by
  unfold Machine.frameOnWireFinishes
  repeat' first
    | (with_reducible first
        | assumption | apply evo_servePort | apply evo_setPort | apply Evo.foldl | apply Evo.foldl_fst | apply Evo.elim
        | apply Evo.getD)
    | dsimp only | split

theorem evo_takeShape {z : State} {s : State} {a2} {a3} (hs : Evo z s) :
    Evo z (Machine.takeShape s a2 a3) := by
  unfold Machine.takeShape
  repeat' first
    | (with_reducible first
        | assumption | apply evo_wri | apply evo_placeFlow | apply Evo.foldl | apply Evo.foldl_fst | apply Evo.elim
        | apply Evo.getD)
    | simp only [evo_mk] | split | intro _

theorem evo_serveIdle {z : State} {s : State} (hs : Evo z s) :
    Evo z (Machine.serveIdle s) := by
  unfold Machine.serveIdle
  repeat' first
    | (with_reducible first
        | assumption | apply evo_servePort | apply Evo.foldl | apply Evo.foldl_fst | apply Evo.elim | apply Evo.getD)
    | simp only [evo_mk] | split | intro _

theorem evo_admitFlows {z : State} {s : State} (hs : Evo z s) :
    Evo z (Machine.admitFlows s) := by
  unfold Machine.admitFlows
  repeat' first
    | (with_reducible first
        | assumption | apply evo_placeFlow | apply Evo.foldl | apply Evo.foldl_fst | apply Evo.elim | apply Evo.getD)
    | simp only [evo_mk] | split | intro _

theorem evo_reelSlot {z : State} {s : State} (hs : Evo z s) :
    Evo z (Machine.reelSlot s) := by
  unfold Machine.reelSlot
  repeat' first
    | (with_reducible first
        | assumption | apply evo_placeFlow | apply evo_takeShape | apply evo_serveIdle | apply evo_admitFlows
        | apply Evo.foldl | apply Evo.foldl_fst | apply Evo.elim | apply Evo.getD)
    | simp only [evo_mk] | split | intro _

theorem evo_shaperWrite {z : State} {s : State} {a2} {a3} (hs : Evo z s) :
    Evo z (Machine.shaperWrite s a2 a3) := by
  unfold Machine.shaperWrite
  repeat' first
    | (with_reducible first
        | assumption | apply evo_ofForm | apply evo_bar0 | apply Evo.foldl | apply Evo.foldl_fst | apply Evo.elim
        | apply Evo.getD)
    | simp only [evo_mk] | split | intro _

theorem evo_clearWaits {z : State} {s : State} {a2} (hs : Evo z s) :
    Evo z (Machine.clearWaits s a2) := by
  unfold Machine.clearWaits
  repeat' with_reducible first
    | assumption | apply evo_setPort

theorem evo_gateEntryEnd {z : State} {s : State} {a2} (hs : Evo z s) :
    Evo z (Machine.gateEntryEnd s a2) := by
  unfold Machine.gateEntryEnd
  repeat' first
    | (with_reducible first
        | assumption | apply evo_servePort | apply evo_clearWaits | apply Evo.foldl | apply Evo.foldl_fst | apply Evo.elim
        | apply Evo.getD)
    | simp only [evo_mk] | split

theorem evo_anchorPort {z : State} {s : State} {a2} (hs : Evo z s) :
    Evo z (Machine.anchorPort s a2) := by
  unfold Machine.anchorPort
  repeat' first
    | (with_reducible first
        | assumption | apply evo_wri | apply evo_bump | apply evo_servePort | apply evo_clearWaits | apply Evo.foldl
        | apply Evo.foldl_fst | apply Evo.elim | apply Evo.getD)
    | simp only [evo_mk] | split

theorem evo_anchorGates {z : State} {s : State} (hs : Evo z s) :
    Evo z (Machine.anchorGates s) := by
  unfold Machine.anchorGates
  repeat' first
    | (with_reducible first
        | assumption | apply evo_anchorPort | apply Evo.foldl | apply Evo.foldl_fst | apply Evo.elim | apply Evo.getD)
    | simp only [evo_mk] | split | intro _

theorem evo_writeBank {z : State} {s : State} {a2} {a3} (hs : Evo z s) :
    Evo z (Machine.writeBank s a2 a3) := by
  unfold Machine.writeBank
  repeat' first
    | (with_reducible first
        | assumption | apply evo_wri | apply Evo.foldl | apply Evo.foldl_fst | apply Evo.elim | apply Evo.getD)
    | simp only [evo_mk] | split

theorem evo_writeGateCtl {z : State} {s : State} {a2} {a3} (hs : Evo z s) :
    Evo z (Machine.writeGateCtl s a2 a3) := by
  unfold Machine.writeGateCtl
  repeat' first
    | (with_reducible first
        | assumption | apply evo_writeBank | apply evo_wri | apply evo_servePort | apply Evo.foldl | apply Evo.foldl_fst
        | apply Evo.elim | apply Evo.getD)
    | simp only [evo_mk] | split

theorem evo_gateSwapRequest {z : State} {s : State} {a2} {a3} (hs : Evo z s) :
    Evo z (Machine.gateSwapRequest s a2 a3) := by
  unfold Machine.gateSwapRequest
  repeat' first
    | (with_reducible first
        | assumption | apply evo_ofForm | apply evo_bar0 | apply evo_writeGateCtl | apply Evo.foldl | apply Evo.foldl_fst
        | apply Evo.elim | apply Evo.getD)
    | simp only [evo_mk] | split | intro _

theorem evo_gateEnable {z : State} {s : State} {a2} {a3} (hs : Evo z s) :
    Evo z (Machine.gateEnable s a2 a3) := by
  unfold Machine.gateEnable
  repeat' first
    | (with_reducible first
        | assumption | apply evo_ofForm | apply evo_bar0 | apply evo_writeGateCtl | apply Evo.foldl | apply Evo.foldl_fst
        | apply Evo.elim | apply Evo.getD)
    | simp only [evo_mk] | split | intro _

theorem evo_refuseOp {z : State} {s : State} {a2} {a3} (hs : Evo z s) :
    Evo z (Machine.refuseOp s a2 a3) := by
  unfold Machine.refuseOp
  repeat' first
    | (with_reducible first
        | assumption | apply evo_respond | apply evo_bump | apply evo_send | apply Evo.foldl | apply Evo.foldl_fst
        | apply Evo.elim | apply Evo.getD)
    | simp only [evo_mk] | split

theorem evo_storeAt {z : State} {s : State} {a2} {a3} (hs : Evo z s) :
    Evo z (Machine.storeAt s a2 a3) := by
  unfold Machine.storeAt
  repeat' first
    | (with_reducible first
        | assumption | apply evo_emit | apply evo_writeMem | apply Evo.foldl | apply Evo.foldl_fst | apply Evo.elim
        | apply Evo.getD)
    | simp only [evo_mk] | split

theorem evo_put {z : State} {s : State} {a2} {a3} (hs : Evo z s) :
    Evo z (Machine.put s a2 a3) := by
  unfold Machine.put
  repeat' first
    | (with_reducible first
        | assumption | apply evo_whenUp | apply evo_refuseOp | apply evo_respond | apply evo_storeAt | apply Evo.foldl
        | apply Evo.foldl_fst | apply Evo.elim | apply Evo.getD)
    | dsimp only | split | intro _

theorem evo_get {z : State} {s : State} {a2} {a3} (hs : Evo z s) :
    Evo z (Machine.get s a2 a3) := by
  unfold Machine.get
  repeat' first
    | (with_reducible first
        | assumption | apply evo_whenUp | apply evo_refuseOp | apply evo_respond | apply evo_emit | apply Evo.foldl
        | apply Evo.foldl_fst | apply Evo.elim | apply Evo.getD)
    | dsimp only | split | intro _

theorem evo_addLine {z : State} {s : State} {a2} {a3} (hs : Evo z s) :
    Evo z (Machine.addLine s a2 a3) := by
  unfold Machine.addLine
  repeat' with_reducible first
    | assumption | apply evo_writeMem

theorem evo_addF32 {z : State} {s : State} {a2} {a3} (hs : Evo z s) :
    Evo z (Machine.addF32 s a2 a3) := by
  unfold Machine.addF32
  repeat' first
    | (with_reducible first
        | assumption | apply evo_whenUp | apply evo_refuseOp | apply evo_respond | apply evo_addLine | apply Evo.foldl
        | apply Evo.foldl_fst | apply Evo.elim | apply Evo.getD)
    | simp only [evo_mk] | split | intro _

theorem evo_atomic64 {z : State} {s : State} {a2} {a3} (hs : Evo z s) :
    Evo z (Machine.atomic64 s a2 a3) := by
  unfold Machine.atomic64
  repeat' first
    | (with_reducible first
        | assumption | apply evo_whenUp | apply evo_refuseOp | apply evo_writeWord | apply evo_respond | apply Evo.foldl
        | apply Evo.foldl_fst | apply Evo.elim | apply Evo.getD)
    | dsimp only | split | intro _

theorem evo_addU64 {z : State} {s : State} {a2} {a3} (hs : Evo z s) :
    Evo z (Machine.addU64 s a2 a3) := by
  unfold Machine.addU64
  repeat' with_reducible first
    | assumption | apply evo_atomic64

theorem evo_cas64 {z : State} {s : State} {a2} {a3} {a4} (hs : Evo z s) :
    Evo z (Machine.cas64 s a2 a3 a4) := by
  unfold Machine.cas64
  repeat' with_reducible first
    | assumption | apply evo_atomic64

theorem evo_countSignal {z : State} {s : State} {a2} (hs : Evo z s) :
    Evo z (Machine.countSignal s a2) := by
  unfold Machine.countSignal
  repeat' first
    | (with_reducible first
        | assumption | apply Evo.foldl | apply Evo.foldl_fst | apply Evo.elim | apply Evo.getD)
    | simp only [evo_mk] | split

theorem evo_putSignal {z : State} {s : State} {a2} {a3} (hs : Evo z s) :
    Evo z (Machine.putSignal s a2 a3) := by
  unfold Machine.putSignal
  repeat' first
    | (with_reducible first
        | assumption | apply evo_whenUp | apply evo_refuseOp | apply evo_storeAt | apply evo_writeWord | apply evo_respond
        | apply evo_countSignal | apply Evo.foldl | apply Evo.foldl_fst | apply Evo.elim | apply Evo.getD)
    | dsimp only | split | intro _

theorem evo_startCollective {z : State} {s : State} {a2} (hs : Evo z s) :
    Evo z (Machine.startCollective s a2) := by
  unfold Machine.startCollective
  repeat' first
    | (with_reducible first
        | assumption | apply evo_tickFree | apply evo_send | apply Evo.foldl | apply Evo.foldl_fst | apply Evo.elim
        | apply Evo.getD)
    | simp only [evo_mk] | split | intro _

theorem evo_collTimeout {z : State} {s : State} {a2} (hs : Evo z s) :
    Evo z (Machine.collTimeout s a2) := by
  unfold Machine.collTimeout
  repeat' first
    | (with_reducible first
        | assumption | apply evo_whenUp | apply evo_failStep | apply evo_openEvent | apply Evo.foldl | apply Evo.foldl_fst
        | apply Evo.elim | apply Evo.getD)
    | simp only [evo_mk] | split | intro _

theorem evo_staleRoster {z : State} {s : State} {a2} {a3} {a4} (hs : Evo z s) :
    Evo z (Machine.staleRoster s a2 a3 a4) := by
  unfold Machine.staleRoster
  repeat' first
    | (with_reducible first
        | assumption | apply evo_send | apply evo_bump | apply Evo.foldl | apply Evo.foldl_fst | apply Evo.elim
        | apply Evo.getD)
    | simp only [evo_mk] | split

theorem evo_roster {z : State} {s : State} {a2} {a3} (hs : Evo z s) :
    Evo z (Machine.roster s a2 a3) := by
  unfold Machine.roster
  repeat' first
    | (with_reducible first
        | assumption | apply evo_whenUp | apply evo_staleRoster | apply evo_openEvent | apply evo_anchorGates
        | apply evo_startStep | apply Evo.foldl | apply Evo.foldl_fst | apply Evo.elim | apply Evo.getD)
    | simp only [evo_mk] | split | intro _

end Sys2Proof.Laws
end

