-- ==== Sys2Proof/Laws/EvoBmv.lean ====
section
/-! SUPPORT. The operations of the movers keep registers and memory in their canonical form, leave the queue alone, and
take nothing back that was sent (`Evo`). -/

namespace Sys2Proof.Laws

open Sys2Proof Sys2Proof.Machine

theorem evo_modBmv {z : State} {s : State} {a2} (hs : Evo z s) :
    Evo z (Machine.modBmv s a2) := by
  unfold Machine.modBmv
  repeat' first
    | (with_reducible first
        | assumption | apply Evo.foldl | apply Evo.foldl_fst | apply Evo.elim | apply Evo.getD)
    | simp only [evo_mk]

theorem evo_move {z : State} {s : State} {a2} {a3} (hs : Evo z s) :
    Evo z (Machine.move s a2 a3) := by
  unfold Machine.move
  repeat' first
    | (with_reducible first
        | assumption | apply evo_ofForm | apply evo_runDesc | apply evo_modBmv | apply Evo.foldl | apply Evo.foldl_fst
        | apply Evo.elim | apply Evo.getD)
    | simp only [evo_mk] | split | intro _

theorem evo_writeElems {z : State} {s : State} {a2} {a3} {a4} {a5} (hs : Evo z s) :
    Evo z (Machine.writeElems s a2 a3 a4 a5) := by
  unfold Machine.writeElems
  repeat' first
    | (with_reducible first
        | assumption | apply evo_bumpBy | apply evo_storeAt | apply Evo.foldl | apply Evo.foldl_fst | apply Evo.elim
        | apply Evo.getD)
    | simp only [evo_mk] | split | intro _

theorem evo_showBusy {z : State} {s : State} (hs : Evo z s) :
    Evo z (Machine.showBusy s) := by
  unfold Machine.showBusy
  repeat' first
    | (with_reducible first
        | assumption | apply evo_wri | apply Evo.foldl | apply Evo.foldl_fst | apply Evo.elim | apply Evo.getD)
    | simp only [evo_mk] | split | intro _

theorem evo_sendPuts {z : State} {s : State} {a2} {a3} {a4} {a5} (hs : Evo z s) :
    Evo z (Machine.sendPuts s a2 a3 a4 a5).1 := by
  unfold Machine.sendPuts
  repeat' first
    | (with_reducible first
        | assumption | apply evo_issueOp | apply evo_emit | apply Evo.foldl | apply Evo.foldl_fst | apply Evo.elim
        | apply Evo.getD | exact Evo.refl _)
    | dsimp only | split | intro _ | (refine pair_evo (by with_reducible assumption) ?_; with_reducible apply evo_issueOp)

theorem evo_endMoveChan {z : State} {s : State} {a2} {a3} {a4} {a5} (hs : Evo z s) :
    Evo z (Machine.endMoveChan s a2 a3 a4 a5) := by
  unfold Machine.endMoveChan
  repeat' first
    | (with_reducible first
        | assumption | apply evo_modBmv | apply evo_showBusy | apply evo_completeWith | apply Evo.foldl
        | apply Evo.foldl_fst | apply Evo.elim | apply Evo.getD)
    | simp only [evo_mk]

theorem evo_moveChannelGrant {z : State} {s : State} {a2} {a3} (hs : Evo z s) :
    Evo z (Machine.moveChannelGrant s a2 a3) := by
  unfold Machine.moveChannelGrant
  repeat' first
    | (with_reducible first
        | assumption | apply evo_whenUp | apply evo_modBmv | apply evo_sendPuts | apply evo_endMoveChan
        | apply evo_showBusy | apply Evo.foldl | apply Evo.foldl_fst | apply Evo.elim | apply Evo.getD)
    | dsimp only | split | intro _

theorem evo_stopMover {z : State} {s : State} {a2} {a3} {a4} (hs : Evo z s) :
    Evo z (Machine.stopMover s a2 a3 a4) := by
  unfold Machine.stopMover
  repeat' first
    | (with_reducible first
        | assumption | apply evo_writeElems | apply evo_wri | apply evo_modBmv | apply Evo.foldl | apply Evo.foldl_fst
        | apply Evo.elim | apply Evo.getD)
    | dsimp only | split | intro _

theorem evo_moverReadFault {z : State} {s : State} {a2} {a3} {a4} (hs : Evo z s) :
    Evo z (Machine.moverReadFault s a2 a3 a4) := by
  unfold Machine.moverReadFault
  repeat' first
    | (with_reducible first
        | assumption | apply evo_whenUp | apply evo_stopMover | apply Evo.foldl | apply Evo.foldl_fst | apply Evo.elim
        | apply Evo.getD)
    | simp only [evo_mk] | split | intro _

theorem evo_endStopped {z : State} {s : State} {a2} {a3} {a4} (hs : Evo z s) :
    Evo z (Machine.endStopped s a2 a3 a4) := by
  unfold Machine.endStopped
  repeat' first
    | (with_reducible first
        | assumption | apply evo_endMoveChan | apply Evo.foldl | apply Evo.foldl_fst | apply Evo.elim | apply Evo.getD)
    | simp only [evo_mk] | split | intro _

theorem evo_moverStopDrained {z : State} {s : State} {a2} (hs : Evo z s) :
    Evo z (Machine.moverStopDrained s a2) := by
  unfold Machine.moverStopDrained
  repeat' first
    | (with_reducible first
        | assumption | apply evo_whenUp | apply evo_endStopped | apply evo_errorEvent | apply evo_addSat | apply evo_bump
        | apply evo_wri | apply evo_modBmv | apply Evo.foldl | apply Evo.foldl_fst | apply Evo.elim | apply Evo.getD)
    | dsimp only | split | intro _

theorem evo_moveComplete {z : State} {s : State} {a2} {a3} (hs : Evo z s) :
    Evo z (Machine.moveComplete s a2 a3) := by
  unfold Machine.moveComplete
  repeat' first
    | (with_reducible first
        | assumption | apply evo_whenUp | apply evo_endMoveChan | apply evo_bumpBy | apply evo_stopMover
        | apply evo_writeElems | apply Evo.foldl | apply Evo.foldl_fst | apply Evo.elim | apply Evo.getD)
    | dsimp only | split | intro _

theorem evo_writeFault {z : State} {s : State} {a2} {a3} {a4} {a5} (hs : Evo z s) :
    Evo z (Machine.writeFault s a2 a3 a4 a5) := by
  unfold Machine.writeFault
  repeat' first
    | (with_reducible first
        | assumption | apply evo_writeElems | apply evo_faultCtx | apply evo_endMoveChan | apply Evo.foldl
        | apply Evo.foldl_fst | apply Evo.elim | apply Evo.getD)
    | dsimp only | split

theorem evo_moverWriteFault {z : State} {s : State} {a2} {a3} {a4} {a5} (hs : Evo z s) :
    Evo z (Machine.moverWriteFault s a2 a3 a4 a5) := by
  unfold Machine.moverWriteFault
  repeat' first
    | (with_reducible first
        | assumption | apply evo_whenUp | apply evo_writeFault | apply Evo.foldl | apply Evo.foldl_fst | apply Evo.elim
        | apply Evo.getD)
    | dsimp only | split | intro _

theorem evo_putAnswered {z : State} {s : State} {a2} {a3} {a4} {a5} (hs : Evo z s) :
    Evo z (Machine.putAnswered s a2 a3 a4 a5) := by
  unfold Machine.putAnswered
  repeat' first
    | (with_reducible first
        | assumption | apply evo_modBmv | apply evo_endMoveChan | apply Evo.foldl | apply Evo.foldl_fst | apply Evo.elim
        | apply Evo.getD)
    | dsimp only | split

theorem evo_moverReset {z : State} {s : State} {a2} {a3} (hs : Evo z s) :
    Evo z (Machine.moverReset s a2 a3) := by
  unfold Machine.moverReset
  repeat' first
    | (with_reducible first
        | assumption | apply evo_bar0 | apply evo_modBmv | apply evo_stopMover | apply evo_wri | apply evo_endStopped
        | apply Evo.foldl | apply Evo.foldl_fst | apply Evo.elim | apply Evo.getD)
    | dsimp only | split | intro _

theorem evo_dropMoves {z : State} {s : State} {a2} (hs : Evo z s) :
    Evo z (Machine.dropMoves s a2) := by
  unfold Machine.dropMoves
  repeat' first
    | (with_reducible first
        | assumption | apply evo_endMoveChan | apply evo_completeSt | apply evo_modBmv | apply Evo.foldl
        | apply Evo.foldl_fst | apply Evo.elim | apply Evo.getD)
    | simp only [evo_mk] | split | intro _

end Sys2Proof.Laws
end

