-- ==== Sys2Proof/Laws/EvoFlt.lean ====
section
/-! SUPPORT. The operations of the flash tier keep registers and memory in their canonical form, leave the queue alone, and
take nothing back that was sent (`Evo`). -/

namespace Sys2Proof.Laws

open Sys2Proof Sys2Proof.Machine

theorem evo_modFlt {z : State} {s : State} {a2} (hs : Evo z s) :
    Evo z (Machine.modFlt s a2) := by
  unfold Machine.modFlt
  repeat' first
    | (with_reducible first
        | assumption | apply Evo.foldl | apply Evo.foldl_fst | apply Evo.elim | apply Evo.getD)
    | simp only [evo_mk]

theorem evo_modBlock {z : State} {s : State} {a2} {a3} (hs : Evo z s) :
    Evo z (Machine.modBlock s a2 a3) := by
  unfold Machine.modBlock
  repeat' with_reducible first
    | assumption | apply evo_modFlt

theorem evo_ftlEnable {z : State} {s : State} {a2} (hs : Evo z s) :
    Evo z (Machine.ftlEnable s a2) := by
  unfold Machine.ftlEnable
  repeat' first
    | (with_reducible first
        | assumption | apply evo_ofForm | apply evo_bar0 | apply evo_wr | apply evo_emits | apply Evo.foldl
        | apply Evo.foldl_fst | apply Evo.elim | apply Evo.getD)
    | dsimp only | split | intro _

theorem evo_dropMap {z : State} {s : State} (hs : Evo z s) :
    Evo z (Machine.dropMap s) := by
  unfold Machine.dropMap
  repeat' first
    | (with_reducible first
        | assumption | apply Evo.foldl | apply Evo.foldl_fst | apply Evo.elim | apply Evo.getD)
    | simp only [evo_mk]

theorem evo_ftlDisable {z : State} {s : State} {a2} (hs : Evo z s) :
    Evo z (Machine.ftlDisable s a2) := by
  unfold Machine.ftlDisable
  repeat' first
    | (with_reducible first
        | assumption | apply evo_ofForm | apply evo_bar0 | apply evo_wr | apply evo_dropMap | apply Evo.foldl
        | apply Evo.foldl_fst | apply Evo.elim | apply Evo.getD)
    | dsimp only | split | intro _

theorem evo_chanFailed {z : State} {s : State} {a2} (hs : Evo z s) :
    Evo z (Machine.chanFailed s a2) := by
  unfold Machine.chanFailed
  repeat' with_reducible first
    | assumption | apply evo_openEvent | apply evo_wri

theorem evo_foundChan {z : State} {s : State} {a2} {a3} (hs : Evo z s) :
    Evo z (Machine.foundChan s a2 a3) := by
  unfold Machine.foundChan
  repeat' first
    | (with_reducible first
        | assumption | apply evo_chanFailed | apply evo_wri | apply Evo.foldl | apply Evo.foldl_fst | apply Evo.elim
        | apply Evo.getD)
    | simp only [evo_mk] | split

theorem evo_ftlBringupDone {z : State} {s : State} {a2} {a3} (hs : Evo z s) :
    Evo z (Machine.ftlBringupDone s a2 a3) := by
  unfold Machine.ftlBringupDone
  repeat' first
    | (with_reducible first
        | assumption | apply evo_whenUp | apply evo_foundChan | apply evo_wr | apply evo_dropMap | apply Evo.foldl
        | apply Evo.foldl_fst | apply Evo.elim | apply Evo.getD)
    | simp only [evo_mk] | split | intro _

theorem evo_retireBlock {z : State} {s : State} {a2} (hs : Evo z s) :
    Evo z (Machine.retireBlock s a2) := by
  unfold Machine.retireBlock
  repeat' first
    | (with_reducible first
        | assumption | apply evo_emit | apply evo_bump | apply evo_modBlock | apply Evo.foldl | apply Evo.foldl_fst
        | apply Evo.elim | apply Evo.getD)
    | simp only [evo_mk] | split

theorem evo_startProg {z : State} {s : State} {a2} {a3} {a4} {a5} {t : State} (hs : Evo z s)
    (ht : Machine.startProg s a2 a3 a4 a5 = some t) :
    Evo z t := by
  unfold Machine.startProg at ht
  repeat' first
    | (with_reducible first
        | assumption | apply evo_modBlock | apply evo_modFlt | apply evo_emits | apply Evo.foldl | apply Evo.foldl_fst
        | apply Evo.elim | apply Evo.getD | exact Evo.refl _)
    | simp only [evo_mk] | split | intro _ | split at ht | dsimp only at ht | (obtain rfl := Option.some.inj ht) | cases ht

theorem evo_mergeOn {z : State} {s : State} {a2} (hs : Evo z s) :
    Evo z (Machine.mergeOn s a2) := by
  unfold Machine.mergeOn
  repeat' first
    | (with_reducible first
        | assumption | apply evo_modFlt | apply evo_emit | apply Evo.foldl | apply Evo.foldl_fst | apply Evo.elim
        | apply Evo.getD | exact Evo.refl _)
    | dsimp only | split | intro _ | (refine evo_startProg (ht := by with_reducible assumption) ?_)

theorem evo_mergeAll {z : State} {s : State} (hs : Evo z s) :
    Evo z (Machine.mergeAll s) := by
  unfold Machine.mergeAll
  repeat' with_reducible first
    | assumption | apply evo_mergeOn | apply Evo.foldl

theorem evo_eraseWhenDone {z : State} {s : State} {a2} (hs : Evo z s) :
    Evo z (Machine.eraseWhenDone s a2) := by
  unfold Machine.eraseWhenDone
  repeat' first
    | (with_reducible first
        | assumption | apply evo_emit | apply evo_modBlock | apply Evo.foldl | apply Evo.foldl_fst | apply Evo.elim
        | apply Evo.getD)
    | dsimp only | split

theorem evo_moveBlock {z : State} {s : State} {a2} (hs : Evo z s) :
    Evo z (Machine.moveBlock s a2) := by
  unfold Machine.moveBlock
  repeat' first
    | (with_reducible first
        | assumption | apply evo_modBlock | apply evo_eraseWhenDone | apply evo_emit | apply Evo.foldl
        | apply Evo.foldl_fst | apply Evo.elim | apply Evo.getD | exact Evo.refl _)
    | dsimp only | split | intro _ | (refine evo_startProg (ht := by with_reducible assumption) ?_)

theorem evo_moveRest {z : State} {s : State} (hs : Evo z s) :
    Evo z (Machine.moveRest s) := by
  unfold Machine.moveRest
  repeat' first
    | (with_reducible first
        | assumption | apply evo_emit | apply Evo.foldl | apply Evo.foldl_fst | apply Evo.elim | apply Evo.getD
        | exact Evo.refl _)
    | simp only [evo_mk] | split | intro _ | (refine evo_startProg (ht := by with_reducible assumption) ?_)

theorem evo_sectorRead {z : State} {s : State} {a2} {a3} (hs : Evo z s) :
    Evo z (Machine.sectorRead s a2 a3) := by
  unfold Machine.sectorRead
  repeat' first
    | (with_reducible first
        | assumption | apply evo_whenUp | apply evo_emit | apply evo_modFlt | apply Evo.foldl | apply Evo.foldl_fst
        | apply Evo.elim | apply Evo.getD)
    | dsimp only | split | intro _

theorem evo_countRead {z : State} {s : State} {a2} {a3} (hs : Evo z s) :
    Evo z (Machine.countRead s a2 a3) := by
  unfold Machine.countRead
  repeat' first
    | (with_reducible first
        | assumption | apply evo_modBlock | apply evo_moveBlock | apply evo_bump | apply Evo.foldl | apply Evo.foldl_fst
        | apply Evo.elim | apply Evo.getD)
    | dsimp only | split

theorem evo_loseFlashPage {z : State} {s : State} {a2} (hs : Evo z s) :
    Evo z (Machine.loseFlashPage s a2) := by
  unfold Machine.loseFlashPage
  repeat' first
    | (with_reducible first
        | assumption | apply evo_losePage | apply Evo.foldl | apply Evo.foldl_fst | apply Evo.elim | apply Evo.getD)
    | simp only [evo_mk] | split | intro _

theorem evo_giveSector {z : State} {s : State} {a2} {a3} (hs : Evo z s) :
    Evo z (Machine.giveSector s a2 a3) := by
  unfold Machine.giveSector
  repeat' first
    | (with_reducible first
        | assumption | apply evo_emit | apply evo_loseFlashPage | apply evo_modFlt | apply evo_mergeOn | apply Evo.foldl
        | apply Evo.foldl_fst | apply Evo.elim | apply Evo.getD)
    | dsimp only | split

theorem evo_sectorReadData {z : State} {s : State} {a2} {a3} (hs : Evo z s) :
    Evo z (Machine.sectorReadData s a2 a3) := by
  unfold Machine.sectorReadData
  repeat' first
    | (with_reducible first
        | assumption | apply evo_whenUp | apply evo_modFlt | apply evo_bumpBy | apply evo_bump | apply evo_eraseWhenDone
        | apply evo_countRead | apply evo_giveSector | apply Evo.foldl | apply Evo.foldl_fst | apply Evo.elim
        | apply Evo.getD)
    | dsimp only | split | intro _

theorem evo_countClient {z : State} {s : State} {a2} (hs : Evo z s) :
    Evo z (Machine.countClient s a2) := by
  unfold Machine.countClient
  repeat' with_reducible first
    | assumption | apply evo_bumpBy | apply evo_modFlt

theorem evo_putSector {z : State} {s : State} {a2} {a3} (hs : Evo z s) :
    Evo z (Machine.putSector s a2 a3) := by
  unfold Machine.putSector
  repeat' with_reducible first
    | assumption | apply evo_modFlt

theorem evo_sectorWrite {z : State} {s : State} {a2} {a3} {a4} (hs : Evo z s) :
    Evo z (Machine.sectorWrite s a2 a3 a4) := by
  unfold Machine.sectorWrite
  repeat' first
    | (with_reducible first
        | assumption | apply evo_whenUp | apply evo_emit | apply evo_countClient | apply evo_putSector | apply evo_mergeOn
        | apply Evo.foldl | apply Evo.foldl_fst | apply Evo.elim | apply Evo.getD)
    | dsimp only | split | intro _

theorem evo_mergeTimeout {z : State} {s : State} {a2} (hs : Evo z s) :
    Evo z (Machine.mergeTimeout s a2) := by
  unfold Machine.mergeTimeout
  repeat' first
    | (with_reducible first
        | assumption | apply evo_whenUp | apply evo_mergeOn | apply evo_modFlt | apply Evo.foldl | apply Evo.foldl_fst
        | apply Evo.elim | apply Evo.getD)
    | simp only [evo_mk] | split | intro _

theorem evo_mapUnit {z : State} {s : State} {a2} (hs : Evo z s) :
    Evo z (Machine.mapUnit s a2) := by
  unfold Machine.mapUnit
  repeat' first
    | (with_reducible first
        | assumption | apply evo_modFlt | apply Evo.foldl | apply Evo.foldl_fst | apply Evo.elim | apply Evo.getD)
    | dsimp only | split

theorem evo_progAgain {z : State} {s : State} {a2} (hs : Evo z s) :
    Evo z (Machine.progAgain s a2) := by
  unfold Machine.progAgain
  repeat' first
    | (with_reducible first
        | assumption | apply evo_modFlt | apply Evo.foldl | apply Evo.foldl_fst | apply Evo.elim | apply Evo.getD
        | exact Evo.refl _)
    | dsimp only | split | intro _ | (refine evo_startProg (ht := by with_reducible assumption) ?_)

theorem evo_unitStored {z : State} {s : State} {a2} (hs : Evo z s) :
    Evo z (Machine.unitStored s a2) := by
  unfold Machine.unitStored
  repeat' first
    | (with_reducible first
        | assumption | apply evo_mergeOn | apply evo_mapUnit | apply evo_eraseWhenDone | apply Evo.foldl
        | apply Evo.foldl_fst | apply Evo.elim | apply Evo.getD)
    | simp only [evo_mk] | split | intro _

theorem evo_pageProgramDone {z : State} {s : State} {a2} {a3} (hs : Evo z s) :
    Evo z (Machine.pageProgramDone s a2 a3) := by
  unfold Machine.pageProgramDone
  repeat' first
    | (with_reducible first
        | assumption | apply evo_whenUp | apply evo_bumpBy | apply evo_modFlt | apply evo_unitStored | apply evo_progAgain
        | apply evo_retireBlock | apply Evo.foldl | apply Evo.foldl_fst | apply Evo.elim | apply Evo.getD)
    | dsimp only | split | intro _

theorem evo_reprogram {z : State} {s : State} {a2} (hs : Evo z s) :
    Evo z (Machine.reprogram s a2) := by
  unfold Machine.reprogram
  repeat' with_reducible first
    | assumption | apply evo_progAgain | apply evo_modFlt | apply Evo.foldl

theorem evo_blockEraseDone {z : State} {s : State} {a2} {a3} (hs : Evo z s) :
    Evo z (Machine.blockEraseDone s a2 a3) := by
  unfold Machine.blockEraseDone
  repeat' first
    | (with_reducible first
        | assumption | apply evo_whenUp | apply evo_reprogram | apply evo_retireBlock | apply evo_modBlock
        | apply evo_mergeAll | apply evo_moveRest | apply Evo.foldl | apply Evo.foldl_fst | apply Evo.elim
        | apply Evo.getD)
    | dsimp only | split | intro _

theorem evo_garbageCollection {z : State} {s : State} (hs : Evo z s) :
    Evo z (Machine.garbageCollection s) := by
  unfold Machine.garbageCollection
  repeat' first
    | (with_reducible first
        | assumption | apply evo_whenUp | apply evo_moveBlock | apply Evo.foldl | apply Evo.foldl_fst | apply Evo.elim
        | apply Evo.getD)
    | simp only [evo_mk] | split | intro _

theorem evo_staticLevelling {z : State} {s : State} (hs : Evo z s) :
    Evo z (Machine.staticLevelling s) := by
  unfold Machine.staticLevelling
  repeat' first
    | (with_reducible first
        | assumption | apply evo_whenUp | apply evo_moveBlock | apply Evo.foldl | apply Evo.foldl_fst | apply Evo.elim
        | apply Evo.getD)
    | dsimp only | split | intro _

theorem evo_zqCalibration {z : State} {s : State} (hs : Evo z s) :
    Evo z (Machine.zqCalibration s) := by
  unfold Machine.zqCalibration
  repeat' first
    | (with_reducible first
        | assumption | apply evo_whenUp | apply evo_emits | apply Evo.foldl | apply Evo.foldl_fst | apply Evo.elim
        | apply Evo.getD)
    | simp only [evo_mk] | split | intro _

theorem evo_flashChannelFail {z : State} {s : State} {a2} (hs : Evo z s) :
    Evo z (Machine.flashChannelFail s a2) := by
  unfold Machine.flashChannelFail
  repeat' first
    | (with_reducible first
        | assumption | apply evo_whenUp | apply evo_modFlt | apply evo_chanFailed | apply evo_reprogram
        | apply evo_giveSector | apply Evo.foldl | apply Evo.foldl_fst | apply Evo.elim | apply Evo.getD)
    | dsimp only | split | intro _

end Sys2Proof.Laws
end

