-- ==== Sys2Proof/Laws/EvoGth.lean ====
section
/-! SUPPORT. The operations of the gather unit keep registers and memory in their canonical form, leave the queue alone, and
take nothing back that was sent (`Evo`). -/

namespace Sys2Proof.Laws

open Sys2Proof Sys2Proof.Machine

theorem evo_modGth {z : State} {s : State} {a2} (hs : Evo z s) :
    Evo z (Machine.modGth s a2) := by
  unfold Machine.modGth
  repeat' first
    | (with_reducible first
        | assumption | apply Evo.foldl | apply Evo.foldl_fst | apply Evo.elim | apply Evo.getD)
    | simp only [evo_mk]

theorem evo_setTables {z : State} {s : State} {a2} (hs : Evo z s) :
    Evo z (Machine.setTables s a2) := by
  unfold Machine.setTables
  repeat' with_reducible first
    | assumption | apply evo_wr | apply evo_modGth

theorem evo_putTable {z : State} {s : State} {a2} {a3} (hs : Evo z s) :
    Evo z (Machine.putTable s a2 a3) := by
  unfold Machine.putTable
  repeat' with_reducible first
    | assumption | apply evo_modGth

theorem evo_modTable {z : State} {s : State} {a2} {a3} (hs : Evo z s) :
    Evo z (Machine.modTable s a2 a3) := by
  unfold Machine.modTable
  repeat' with_reducible first
    | assumption | apply evo_modGth

theorem evo_dropRedirects {z : State} {s : State} {a2} (hs : Evo z s) :
    Evo z (Machine.dropRedirects s a2) := by
  unfold Machine.dropRedirects
  repeat' first
    | (with_reducible first
        | assumption | apply Evo.foldl | apply Evo.foldl_fst | apply Evo.elim | apply Evo.getD)
    | simp only [evo_mk]

theorem evo_tableRegister {z : State} {s : State} {a2} {a3} (hs : Evo z s) :
    Evo z (Machine.tableRegister s a2 a3) := by
  unfold Machine.tableRegister
  repeat' first
    | (with_reducible first
        | assumption | apply evo_ofForm | apply evo_runDesc | apply evo_completeOk | apply evo_setTables
        | apply evo_dropRedirects | apply Evo.foldl | apply Evo.foldl_fst | apply Evo.elim | apply Evo.getD)
    | simp only [evo_mk] | split | intro _

theorem evo_dropMigrationTakes {z : State} {s : State} {a2} (hs : Evo z s) :
    Evo z (Machine.dropMigrationTakes s a2) := by
  unfold Machine.dropMigrationTakes
  repeat' first
    | (with_reducible first
        | assumption | apply evo_finishPart | apply Evo.foldl | apply Evo.foldl_fst | apply Evo.elim | apply Evo.getD)
    | simp only [evo_mk] | split | intro _

theorem evo_freeTable {z : State} {s : State} {a2} (hs : Evo z s) :
    Evo z (Machine.freeTable s a2) := by
  unfold Machine.freeTable
  repeat' with_reducible first
    | assumption | apply evo_setTables | apply evo_dropRedirects | apply evo_dropMigrationTakes | apply evo_modGth

theorem evo_freeTables {z : State} {s : State} {a2} (hs : Evo z s) :
    Evo z (Machine.freeTables s a2) := by
  unfold Machine.freeTables
  repeat' with_reducible first
    | assumption | apply evo_freeTable | apply Evo.foldl

theorem evo_tableFree {z : State} {s : State} {a2} {a3} (hs : Evo z s) :
    Evo z (Machine.tableFree s a2 a3) := by
  unfold Machine.tableFree
  repeat' first
    | (with_reducible first
        | assumption | apply evo_ofForm | apply evo_runDesc | apply evo_completeOk | apply evo_freeTable | apply Evo.foldl
        | apply Evo.foldl_fst | apply Evo.elim | apply Evo.getD)
    | simp only [evo_mk] | split | intro _

theorem evo_addAt' {z : State} {s : State} {a2} {a3} {t : State} (hs : Evo z s) (ht : Machine.addAt' s a2 a3 = some t) :
    Evo z t := by
  unfold Machine.addAt' at ht
  repeat' first
    | (with_reducible first
        | assumption | apply evo_writeMem | apply Evo.foldl | apply Evo.foldl_fst | apply Evo.elim | apply Evo.getD
        | exact Evo.refl _)
    | simp only [evo_mk] | split | intro _ | split at ht | dsimp only at ht | (obtain rfl := Option.some.inj ht) | cases ht

theorem evo_askTail {z : State} {s : State} {a2} {a3} {a4} (hs : Evo z s) :
    Evo z (Machine.askTail s a2 a3 a4) := by
  unfold Machine.askTail
  repeat' first
    | (with_reducible first
        | assumption | apply evo_emit | apply Evo.foldl | apply Evo.foldl_fst | apply Evo.elim | apply Evo.getD)
    | simp only [evo_mk] | split

theorem evo_putRun {z : State} {s : State} {a2} {a3} (hs : Evo z s) :
    Evo z (Machine.putRun s a2 a3) := by
  unfold Machine.putRun
  repeat' with_reducible first
    | assumption | apply evo_modGth

theorem evo_endRun {z : State} {s : State} {a2} {a3} {a4} (hs : Evo z s) :
    Evo z (Machine.endRun s a2 a3 a4) := by
  unfold Machine.endRun
  repeat' first
    | (with_reducible first
        | assumption | apply evo_modGth | apply evo_completeWith | apply evo_completeSt | apply Evo.foldl
        | apply Evo.foldl_fst | apply Evo.elim | apply Evo.getD)
    | dsimp only | split

theorem evo_writeRows {z : State} {s : State} {a2} {a3} {a4} (hs : Evo z s) :
    Evo z (Machine.writeRows s a2 a3 a4) := by
  unfold Machine.writeRows
  repeat' first
    | (with_reducible first
        | assumption | apply evo_writeMem | apply evo_emit | apply Evo.foldl | apply Evo.foldl_fst | apply Evo.elim
        | apply Evo.getD)
    | dsimp only | split | intro _

theorem evo_finishGather {z : State} {s : State} {a2} {a3} (hs : Evo z s) :
    Evo z (Machine.finishGather s a2 a3) := by
  unfold Machine.finishGather
  repeat' with_reducible first
    | assumption | apply evo_endRun | apply evo_tickFree | apply evo_writeRows

theorem evo_fetchRow {z s t : State} {h f r sums} (hs : Evo z s) (ht : fetchRow s h f r = .later t sums) : Evo z t := by
  unfold Machine.fetchRow at ht
  repeat' first
    | (with_reducible first
        | assumption | apply evo_askTail)
    | split at ht | dsimp only at ht | (obtain ⟨rfl, rfl⟩ := Fetched.later.inj ht) | cases ht

theorem evo_fetchOne {z : State} {id ix row} {x : Fetching} (hx : Evo z x.s) : Evo z (fetchOne id ix x row).s := by
  unfold Machine.fetchOne
  repeat' first
    | (with_reducible first
        | assumption | apply evo_bump)
    | split | dsimp only | (refine evo_fetchRow ?_ (by with_reducible assumption))

theorem evo_fetchAll {z : State} {id ix} {x : Fetching} (rows : List Nat) (hx : Evo z x.s) :
    Evo z (rows.foldl (fetchOne id ix) x).s := by
  induction rows generalizing x with
  | nil => exact hx
  | cons r rs ih => exact ih (evo_fetchOne hx)

theorem evo_runWindows {z : State} {a1} {s : State} {a3} (hs : Evo z s) :
    Evo z (Machine.runWindows a1 s a3) := by
  induction a1 generalizing s a3 with
  | zero =>
    unfold Machine.runWindows
    repeat' with_reducible first
      | assumption
  | succ n ih =>
    unfold Machine.runWindows
    repeat' first
      | (with_reducible first
          | assumption | apply ih | apply evo_finishGather | apply evo_endRun | apply evo_Fetching_s | apply evo_putRun
          | apply evo_fetchAll | apply Evo.foldl | apply Evo.foldl_fst | apply Evo.elim | apply Evo.getD)
      | dsimp only | split

theorem evo_startRun {z : State} {s : State} {a2} {a3} (hs : Evo z s) :
    Evo z (Machine.startRun s a2 a3) := by
  unfold Machine.startRun
  repeat' first
    | (with_reducible first
        | assumption | apply evo_putRun | apply evo_runWindows | apply evo_addUnit | apply Evo.foldl | apply Evo.foldl_fst
        | apply Evo.elim | apply Evo.getD)
    | dsimp only | split

theorem evo_startEngines {z : State} {a1} {s : State} (hs : Evo z s) :
    Evo z (Machine.startEngines a1 s) := by
  induction a1 generalizing s with
  | zero =>
    unfold Machine.startEngines
    repeat' with_reducible first
      | assumption
  | succ n ih =>
    unfold Machine.startEngines
    repeat' first
      | (with_reducible first
          | assumption | apply ih | apply evo_startRun | apply Evo.foldl | apply Evo.foldl_fst | apply Evo.elim
          | apply Evo.getD)
      | simp only [evo_mk] | split

theorem evo_engines {z : State} {s : State} (hs : Evo z s) :
    Evo z (Machine.engines s) := by
  unfold Machine.engines
  repeat' with_reducible first
    | assumption | apply evo_startEngines

theorem evo_acceptRun {z : State} {s : State} {a2} {a3} {a4} (hs : Evo z s) :
    Evo z (Machine.acceptRun s a2 a3 a4) := by
  unfold Machine.acceptRun
  repeat' first
    | (with_reducible first
        | assumption | apply evo_completeWith | apply evo_engines | apply evo_modGth | apply Evo.foldl
        | apply Evo.foldl_fst | apply Evo.elim | apply Evo.getD)
    | dsimp only | split

theorem evo_gatherPool {z : State} {s : State} {a2} {a3} {a4} (hs : Evo z s) :
    Evo z (Machine.gatherPool s a2 a3 a4) := by
  unfold Machine.gatherPool
  repeat' first
    | (with_reducible first
        | assumption | apply evo_ofForm | apply evo_runDesc | apply evo_acceptRun | apply Evo.foldl | apply Evo.foldl_fst
        | apply Evo.elim | apply Evo.getD)
    | simp only [evo_mk] | split | intro _

theorem evo_gatherCopy {z : State} {s : State} {a2} {a3} {a4} (hs : Evo z s) :
    Evo z (Machine.gatherCopy s a2 a3 a4) := by
  unfold Machine.gatherCopy
  repeat' first
    | (with_reducible first
        | assumption | apply evo_ofForm | apply evo_runDesc | apply evo_acceptRun | apply Evo.foldl | apply Evo.foldl_fst
        | apply Evo.elim | apply Evo.getD)
    | simp only [evo_mk] | split | intro _

theorem evo_gatherRowData {z : State} {s : State} {a2} {a3} {a4} {a5} (hs : Evo z s) :
    Evo z (Machine.gatherRowData s a2 a3 a4 a5) := by
  unfold Machine.gatherRowData
  repeat' first
    | (with_reducible first
        | assumption | apply evo_whenUp | apply evo_engines | apply evo_endRun | apply evo_runWindows | apply evo_putRun
        | apply Evo.foldl | apply Evo.foldl_fst | apply Evo.elim | apply Evo.getD)
    | dsimp only | split | intro _

theorem evo_update {z : State} {s : State} {a2} {a3} {a4} (hs : Evo z s) :
    Evo z (Machine.update s a2 a3 a4) := by
  unfold Machine.update
  repeat' first
    | (with_reducible first
        | assumption | apply evo_ofForm | apply evo_runDesc | apply evo_acceptRun | apply Evo.foldl | apply Evo.foldl_fst
        | apply Evo.elim | apply Evo.getD)
    | simp only [evo_mk] | split | intro _

theorem evo_addRow {z : State} {s : State} {a2} {a3} {a4} {a5} {t : State} (hs : Evo z s)
    (ht : Machine.addRow s a2 a3 a4 a5 = some t) :
    Evo z t := by
  unfold Machine.addRow at ht
  repeat' first
    | (with_reducible first
        | assumption | apply evo_modGth | apply evo_emit | apply evo_zeroMem | apply evo_putTable | apply Evo.foldl
        | apply Evo.foldl_fst | apply Evo.elim | apply Evo.getD | exact Evo.refl _)
    | simp only [evo_mk] | split | intro _ | (refine evo_addAt' (ht := by with_reducible assumption) ?_) | split at ht
    | dsimp only at ht | (obtain rfl := Option.some.inj ht) | cases ht

theorem evo_applyWindow {z : State} {s : State} {a2} {a3} (hs : Evo z s) :
    Evo z (Machine.applyWindow s a2 a3) := by
  unfold Machine.applyWindow
  repeat' first
    | (with_reducible first
        | assumption | apply evo_bump | apply evo_modGth | apply evo_tickFree | apply Evo.foldl | apply Evo.foldl_fst
        | apply Evo.elim | apply Evo.getD | exact Evo.refl _)
    | simp only [evo_mk] | split | intro _ | (refine evo_addRow (ht := by with_reducible assumption) ?_)

theorem evo_finishUpdate {z : State} {s : State} {a2} (hs : Evo z s) :
    Evo z (Machine.finishUpdate s a2) := by
  unfold Machine.finishUpdate
  repeat' first
    | (with_reducible first
        | assumption | apply evo_engines | apply evo_endRun | apply Evo.foldl | apply Evo.foldl_fst | apply Evo.elim
        | apply Evo.getD)
    | simp only [evo_mk] | split

theorem evo_windowDone {z : State} {s : State} {a2} {a3} (hs : Evo z s) :
    Evo z (Machine.windowDone s a2 a3) := by
  unfold Machine.windowDone
  repeat' first
    | (with_reducible first
        | assumption | apply evo_engines | apply evo_endRun | apply evo_applyWindow | apply evo_modGth | apply evo_addUnit
        | apply evo_finishUpdate | apply Evo.foldl | apply Evo.foldl_fst | apply Evo.elim | apply Evo.getD)
    | dsimp only | split

theorem evo_sweepRuns {z : State} {s : State} (hs : Evo z s) :
    Evo z (Machine.sweepRuns s) := by
  unfold Machine.sweepRuns
  repeat' first
    | (with_reducible first
        | assumption | apply evo_engines | apply evo_modGth | apply Evo.foldl | apply Evo.foldl_fst | apply Evo.elim
        | apply Evo.getD)
    | dsimp only | split

end Sys2Proof.Laws
end

