-- ==== Sys2Proof/Laws/EvoMig.lean ====
section
/-! SUPPORT. The operations of the hot set and sync keep registers and memory in their canonical form, leave the queue alone, and
take nothing back that was sent (`Evo`). -/

namespace Sys2Proof.Laws

open Sys2Proof Sys2Proof.Machine

theorem evo_modMove {z : State} {s : State} {a2} {a3} {a4} (hs : Evo z s) :
    Evo z (Machine.modMove s a2 a3 a4) := by
  unfold Machine.modMove
  repeat' with_reducible first
    | assumption | apply evo_modGth

theorem evo_redirectTake {z : State} {s : State} {a2} {a3} {a4} {a5} {a6} (hs : Evo z s) :
    Evo z (Machine.redirectTake s a2 a3 a4 a5 a6) := by
  unfold Machine.redirectTake
  repeat' with_reducible first
    | assumption | apply evo_localFor

theorem evo_modRefresh {z : State} {s : State} {a2} {a3} (hs : Evo z s) :
    Evo z (Machine.modRefresh s a2 a3) := by
  unfold Machine.modRefresh
  repeat' with_reducible first
    | assumption | apply evo_modGth

theorem evo_endRefresh {z : State} {s : State} {a2} {a3} (hs : Evo z s) :
    Evo z (Machine.endRefresh s a2 a3) := by
  unfold Machine.endRefresh
  repeat' with_reducible first
    | assumption | apply evo_completeWith | apply evo_modGth

theorem evo_advanceRefresh {z : State} {a1} {s : State} {a3} (hs : Evo z s) :
    Evo z (Machine.advanceRefresh a1 s a3) := by
  induction a1 generalizing s a3 with
  | zero =>
    unfold Machine.advanceRefresh
    repeat' with_reducible first
      | assumption
  | succ n ih =>
    unfold Machine.advanceRefresh
    repeat' first
      | (with_reducible first
          | assumption | apply ih | apply evo_endRefresh | apply evo_modRefresh | apply evo_modGth | apply evo_redirectTake
          | apply Evo.foldl | apply Evo.foldl_fst | apply Evo.elim | apply Evo.getD)
      | dsimp only | split

theorem evo_advanceTable {z : State} {s : State} {a2} (hs : Evo z s) :
    Evo z (Machine.advanceTable s a2) := by
  unfold Machine.advanceTable
  repeat' first
    | (with_reducible first
        | assumption | apply evo_advanceRefresh | apply Evo.foldl | apply Evo.foldl_fst | apply Evo.elim | apply Evo.getD)
    | simp only [evo_mk] | split | intro _

theorem evo_tableRefresh {z : State} {s : State} {a2} {a3} {a4} (hs : Evo z s) :
    Evo z (Machine.tableRefresh s a2 a3 a4) := by
  unfold Machine.tableRefresh
  repeat' first
    | (with_reducible first
        | assumption | apply evo_ofForm | apply evo_runDesc | apply evo_advanceRefresh | apply evo_modGth | apply Evo.foldl
        | apply Evo.foldl_fst | apply Evo.elim | apply Evo.getD)
    | dsimp only | split | intro _

theorem evo_moveOver {z : State} {s : State} {a2} {a3} {a4} (hs : Evo z s) :
    Evo z (Machine.moveOver s a2 a3 a4) := by
  unfold Machine.moveOver
  repeat' first
    | (with_reducible first
        | assumption | apply evo_modGth | apply evo_modRefresh | apply evo_advanceTable | apply evo_bump | apply Evo.foldl
        | apply Evo.foldl_fst | apply Evo.elim | apply Evo.getD)
    | dsimp only | split

theorem evo_freeSide {z : State} {s : State} {a2} {a3} (hs : Evo z s) :
    Evo z (Machine.freeSide s a2 a3) := by
  unfold Machine.freeSide
  repeat' with_reducible first
    | assumption | apply evo_modTable

theorem evo_applySide {z : State} {s : State} {a2} {a3} {a4} (hs : Evo z s) :
    Evo z (Machine.applySide s a2 a3 a4) := by
  unfold Machine.applySide
  repeat' first
    | (with_reducible first
        | assumption | apply Evo.foldl | apply Evo.foldl_fst | apply Evo.elim | apply Evo.getD | exact Evo.refl _)
    | simp only [evo_mk] | split | intro _ | (refine evo_addRow (ht := by with_reducible assumption) ?_)

theorem evo_releaseAdds {z : State} {s : State} {a2} {a3} (hs : Evo z s) :
    Evo z (Machine.releaseAdds s a2 a3) := by
  unfold Machine.releaseAdds
  repeat' first
    | (with_reducible first
        | assumption | apply evo_modGth | apply evo_finishUpdate | apply Evo.foldl | apply Evo.foldl_fst | apply Evo.elim
        | apply Evo.getD | exact Evo.refl _)
    | simp only [evo_mk] | split | intro _ | (refine evo_addRow (ht := by with_reducible assumption) ?_)

theorem evo_beginMove {z : State} {s : State} {a2} {a3} (hs : Evo z s) :
    Evo z (Machine.beginMove s a2 a3) := by
  unfold Machine.beginMove
  repeat' with_reducible first
    | assumption | apply evo_modMove | apply evo_zeroMem | apply evo_putTable

theorem evo_endMove {z : State} {s : State} {a2} {a3} (hs : Evo z s) :
    Evo z (Machine.endMove s a2 a3) := by
  unfold Machine.endMove
  repeat' with_reducible first
    | assumption | apply evo_freeSide | apply evo_modTable | apply evo_moveOver | apply evo_releaseAdds
    | apply evo_applySide

theorem evo_undoMove {z : State} {s : State} {a2} {a3} {a4} (hs : Evo z s) :
    Evo z (Machine.undoMove s a2 a3 a4) := by
  unfold Machine.undoMove
  repeat' first
    | (with_reducible first
        | assumption | apply evo_redirectTake | apply evo_modMove | apply evo_modTable | apply Evo.foldl
        | apply Evo.foldl_fst | apply Evo.elim | apply Evo.getD)
    | simp only [evo_mk] | split

theorem evo_migrateEnded {z : State} {s : State} {a2} {a3} {a4} (hs : Evo z s) :
    Evo z (Machine.migrateEnded s a2 a3 a4) := by
  unfold Machine.migrateEnded
  repeat' first
    | (with_reducible first
        | assumption | apply evo_beginMove | apply evo_moveOver | apply evo_endMove | apply evo_undoMove
        | apply evo_releaseAdds | apply evo_applySide | apply evo_freeSide | apply Evo.foldl | apply Evo.foldl_fst
        | apply Evo.elim | apply Evo.getD)
    | dsimp only | split

theorem evo_writeTail {z : State} {s : State} {a2} {a3} {a4} (hs : Evo z s) :
    Evo z (Machine.writeTail s a2 a3 a4) := by
  unfold Machine.writeTail
  repeat' first
    | (with_reducible first
        | assumption | apply evo_emit | apply Evo.foldl | apply Evo.foldl_fst | apply Evo.elim | apply Evo.getD)
    | simp only [evo_mk] | split

theorem evo_migrationAddsDrained {z : State} {s : State} {a2} {a3} (hs : Evo z s) :
    Evo z (Machine.migrationAddsDrained s a2 a3) := by
  unfold Machine.migrationAddsDrained
  repeat' first
    | (with_reducible first
        | assumption | apply evo_whenUp | apply evo_modMove | apply evo_undoMove | apply evo_writeTail | apply evo_askTail
        | apply Evo.foldl | apply Evo.foldl_fst | apply Evo.elim | apply Evo.getD)
    | dsimp only | split | intro _

theorem evo_fillHot {z : State} {s : State} {a2} {a3} {a4} {a5} {t : State} (hs : Evo z s)
    (ht : Machine.fillHot s a2 a3 a4 a5 = some t) :
    Evo z t := by
  unfold Machine.fillHot at ht
  repeat' first
    | (with_reducible first
        | assumption | apply evo_writeMem | apply Evo.foldl | apply Evo.foldl_fst | apply Evo.elim | apply Evo.getD
        | exact Evo.refl _)
    | simp only [evo_mk] | split | intro _ | split at ht | dsimp only at ht | (obtain rfl := Option.some.inj ht) | cases ht

theorem evo_copied {z s u : State} {c : Bool} {t m row bytes} (hs : Evo z s)
    (h : (if c = true then some s else fillHot s t m row bytes) = some u) : Evo z u := by
  split at h
  · cases h
    exact hs
  · exact evo_fillHot hs h

theorem evo_migrationCopyDone {z : State} {s : State} {a2} {a3} {a4} {a5} (hs : Evo z s) :
    Evo z (Machine.migrationCopyDone s a2 a3 a4 a5) := by
  unfold Machine.migrationCopyDone
  repeat' first
    | (with_reducible first
        | assumption | apply evo_whenUp | apply evo_undoMove | apply evo_modMove | apply evo_modTable
        | apply evo_redirectTake | apply Evo.foldl | apply Evo.foldl_fst | apply Evo.elim | apply Evo.getD)
    | (refine evo_copied ?_ (by with_reducible assumption)) | dsimp only | split | intro _

theorem evo_tableLoad {z : State} {s : State} {a2} {a3} {a4} (hs : Evo z s) :
    Evo z (Machine.tableLoad s a2 a3 a4) := by
  unfold Machine.tableLoad
  repeat' first
    | (with_reducible first
        | assumption | apply evo_ofForm | apply evo_runDesc | apply evo_writeTail | apply evo_completeOk
        | apply evo_modTable | apply Evo.foldl | apply Evo.foldl_fst | apply Evo.elim | apply Evo.getD)
    | dsimp only | split | intro _

theorem evo_syncRow {z : State} {s : State} {a2} {a3} {a4} {a5} {a6} {t : State} (hs : Evo z s)
    (ht : Machine.syncRow s a2 a3 a4 a5 a6 = some t) :
    Evo z t := by
  unfold Machine.syncRow at ht
  repeat' first
    | (with_reducible first
        | assumption | apply evo_emit | apply evo_modTable | apply evo_writeTail | apply Evo.foldl | apply Evo.foldl_fst
        | apply Evo.elim | apply Evo.getD | exact Evo.refl _)
    | simp only [evo_mk] | split | intro _ | split at ht | dsimp only at ht | (obtain rfl := Option.some.inj ht) | cases ht

theorem evo_syncRun {z : State} {a1} {a2} {a3} {s : State} {a5} (hs : Evo z s) :
    Evo z (Machine.syncRun a1 a2 a3 s a5).1 := by
  induction a3 generalizing a1 a2 s a5 with
  | nil =>
    unfold Machine.syncRun
    repeat' with_reducible first
      | assumption
  | cons x l ih =>
    unfold Machine.syncRun
    repeat' first
      | (with_reducible first
          | assumption | apply ih | apply Evo.foldl | apply Evo.foldl_fst | apply Evo.elim | apply Evo.getD
          | exact Evo.refl _)
      | simp only [evo_mk] | split | intro _ | (refine evo_syncRow (ht := by with_reducible assumption) ?_)

theorem evo_tableSync {z : State} {s : State} {a2} {a3} {a4} (hs : Evo z s) :
    Evo z (Machine.tableSync s a2 a3 a4) := by
  unfold Machine.tableSync
  repeat' first
    | (with_reducible first
        | assumption | apply evo_ofForm | apply evo_runDesc | apply evo_syncRun | apply evo_completeWith | apply Evo.foldl
        | apply Evo.foldl_fst | apply Evo.elim | apply Evo.getD)
    | dsimp only | split | intro _

end Sys2Proof.Laws
end

