-- ==== Sys2Proof/Laws/EvoNvs.lean ====
section
/-! SUPPORT. The operations of the nonvolatile store keep registers and memory in their canonical form, leave the queue alone, and
take nothing back that was sent (`Evo`). -/

namespace Sys2Proof.Laws

open Sys2Proof Sys2Proof.Machine

theorem evo_storeRecord {z : State} {s : State} {a2} (hs : Evo z s) :
    Evo z (Machine.storeRecord s a2) := by
  unfold Machine.storeRecord
  repeat' first
    | (with_reducible first
        | assumption | apply evo_bump | apply Evo.foldl | apply Evo.foldl_fst | apply Evo.elim | apply Evo.getD)
    | simp only [evo_mk]

theorem evo_writeNext {z : State} {s : State} (hs : Evo z s) :
    Evo z (Machine.writeNext s) := by
  unfold Machine.writeNext
  repeat' first
    | (with_reducible first
        | assumption | apply evo_storeRecord | apply Evo.foldl | apply Evo.foldl_fst | apply Evo.elim | apply Evo.getD)
    | simp only [evo_mk] | split

theorem evo_writeMany {z : State} {a1} {s : State} (hs : Evo z s) :
    Evo z (Machine.writeMany a1 s) := by
  induction a1 generalizing s with
  | zero =>
    unfold Machine.writeMany
    repeat' with_reducible first
      | assumption
  | succ n ih =>
    unfold Machine.writeMany
    repeat' with_reducible first
      | assumption | apply ih | apply evo_writeNext

theorem evo_flushRecords {z : State} {s : State} (hs : Evo z s) :
    Evo z (Machine.flushRecords s) := by
  unfold Machine.flushRecords
  repeat' with_reducible first
    | assumption | apply evo_writeMany

theorem evo_errorRecordWrite {z : State} {s : State} (hs : Evo z s) :
    Evo z (Machine.errorRecordWrite s) := by
  unfold Machine.errorRecordWrite
  repeat' with_reducible first
    | assumption | apply evo_writeNext

theorem evo_checkRecords {z : State} {s : State} (hs : Evo z s) :
    Evo z (Machine.checkRecords s) := by
  unfold Machine.checkRecords
  repeat' first
    | (with_reducible first
        | assumption | apply Evo.foldl | apply Evo.foldl_fst | apply Evo.elim | apply Evo.getD)
    | simp only [evo_mk]

end Sys2Proof.Laws
end

