-- ==== Sys2Proof/Laws/EvoTak.lean ====
section
/-! SUPPORT. The operations of the take commands keep registers and memory in their canonical form, leave the queue alone, and
take nothing back that was sent (`Evo`). -/

namespace Sys2Proof.Laws

open Sys2Proof Sys2Proof.Machine

theorem evo_takeSubmit {z : State} {s : State} {a2} {a3} (hs : Evo z s) :
    Evo z (Machine.takeSubmit s a2 a3) := by
  unfold Machine.takeSubmit
  repeat' first
    | (with_reducible first
        | assumption | apply evo_ofForm | apply evo_runDesc | apply evo_emit | apply Evo.foldl | apply Evo.foldl_fst
        | apply Evo.elim | apply Evo.getD)
    | simp only [evo_mk] | split | intro _

theorem evo_forwardSlate {z : State} {s : State} {a2} {a3} {a4} {a5} (hs : Evo z s) :
    Evo z (Machine.forwardSlate s a2 a3 a4 a5) := by
  unfold Machine.forwardSlate
  repeat' first
    | (with_reducible first
        | assumption | apply evo_send | apply Evo.foldl | apply Evo.foldl_fst | apply Evo.elim | apply Evo.getD)
    | simp only [evo_mk]

theorem evo_giveSlate {z : State} {s : State} {a2} {a3} (hs : Evo z s) :
    Evo z (Machine.giveSlate s a2 a3) := by
  unfold Machine.giveSlate
  repeat' first
    | (with_reducible first
        | assumption | apply evo_startTake | apply evo_forwardSlate | apply Evo.foldl | apply Evo.foldl_fst
        | apply Evo.elim | apply Evo.getD)
    | simp only [evo_mk] | split

theorem evo_takeSlateRead {z : State} {s : State} {a2} {a3} (hs : Evo z s) :
    Evo z (Machine.takeSlateRead s a2 a3) := by
  unfold Machine.takeSlateRead
  repeat' first
    | (with_reducible first
        | assumption | apply evo_whenUp | apply evo_reject | apply evo_localFor | apply evo_startTake
        | apply evo_forwardSlate | apply Evo.foldl | apply Evo.foldl_fst | apply Evo.elim | apply Evo.getD)
    | simp only [evo_mk] | split | intro _

theorem evo_reportEnd {z : State} {s : State} {a2} {a3} {a4} {a5} {a6} {a7} {a8} {a9} (hs : Evo z s) :
    Evo z (Machine.reportEnd s a2 a3 a4 a5 a6 a7 a8 a9) := by
  unfold Machine.reportEnd
  repeat' with_reducible first
    | assumption | apply evo_send

theorem evo_releaseHere {z : State} {s : State} {a2} {a3} {a4} (hs : Evo z s) :
    Evo z (Machine.releaseHere s a2 a3 a4) := by
  unfold Machine.releaseHere
  repeat' first
    | (with_reducible first
        | assumption | apply evo_startTake | apply evo_reportEnd | apply Evo.foldl | apply Evo.foldl_fst | apply Evo.elim
        | apply Evo.getD)
    | simp only [evo_mk] | split

theorem evo_takeSlateForward {z : State} {s : State} {a2} {a3} {a4} {a5} {a6} (hs : Evo z s) :
    Evo z (Machine.takeSlateForward s a2 a3 a4 a5 a6) := by
  unfold Machine.takeSlateForward
  repeat' first
    | (with_reducible first
        | assumption | apply evo_whenUp | apply evo_reportEnd | apply evo_releaseHere | apply evo_startTake
        | apply Evo.foldl | apply Evo.foldl_fst | apply Evo.elim | apply Evo.getD)
    | simp only [evo_mk] | split | intro _

theorem evo_takePrepare {z : State} {s : State} {a2} (hs : Evo z s) :
    Evo z (Machine.takePrepare s a2) := by
  unfold Machine.takePrepare
  repeat' first
    | (with_reducible first
        | assumption | apply evo_whenUp | apply evo_seeStamp | apply evo_handlePrepare | apply Evo.foldl
        | apply Evo.foldl_fst | apply Evo.elim | apply Evo.getD)
    | dsimp only | split | intro _

theorem evo_applyMirrored {z : State} {s : State} {a2} {a3} (hs : Evo z s) :
    Evo z (Machine.applyMirrored s a2 a3) := by
  unfold Machine.applyMirrored
  repeat' with_reducible first
    | assumption | apply evo_finishPart | apply evo_endTake | apply evo_bump

theorem evo_intentsSafe {z : State} {s : State} {a2} (hs : Evo z s) :
    Evo z (Machine.intentsSafe s a2) := by
  unfold Machine.intentsSafe
  repeat' first
    | (with_reducible first
        | assumption | apply evo_applyMirrored | apply evo_sendVote | apply evo_setPart | apply Evo.foldl
        | apply Evo.foldl_fst | apply Evo.elim | apply Evo.getD)
    | simp only [evo_mk] | split

theorem evo_intentMirrorAck {z : State} {s : State} {a2} (hs : Evo z s) :
    Evo z (Machine.intentMirrorAck s a2) := by
  unfold Machine.intentMirrorAck
  repeat' first
    | (with_reducible first
        | assumption | apply evo_whenUp | apply evo_intentsSafe | apply Evo.foldl | apply Evo.foldl_fst | apply Evo.elim
        | apply Evo.getD)
    | simp only [evo_mk] | split | intro _

theorem evo_takeVote {z : State} {s : State} {a2} (hs : Evo z s) :
    Evo z (Machine.takeVote s a2) := by
  unfold Machine.takeVote
  repeat' first
    | (with_reducible first
        | assumption | apply evo_whenUp | apply evo_seeStamp | apply evo_voteYes | apply evo_voteNo | apply Evo.foldl
        | apply Evo.foldl_fst | apply Evo.elim | apply Evo.getD)
    | dsimp only | split | intro _

theorem evo_takeVoteTimeout {z : State} {s : State} {a2} {a3} (hs : Evo z s) :
    Evo z (Machine.takeVoteTimeout s a2 a3) := by
  unfold Machine.takeVoteTimeout
  repeat' first
    | (with_reducible first
        | assumption | apply evo_whenUp | apply evo_decide' | apply Evo.foldl | apply Evo.foldl_fst | apply Evo.elim
        | apply Evo.getD)
    | simp only [evo_mk] | split | intro _

theorem evo_decisionMirrorAck {z : State} {s : State} {a2} (hs : Evo z s) :
    Evo z (Machine.decisionMirrorAck s a2) := by
  unfold Machine.decisionMirrorAck
  repeat' first
    | (with_reducible first
        | assumption | apply evo_whenUp | apply evo_carryOut | apply Evo.foldl | apply Evo.foldl_fst | apply Evo.elim
        | apply Evo.getD)
    | simp only [evo_mk] | split | intro _

theorem evo_sendAck {z : State} {s : State} {a2} (hs : Evo z s) :
    Evo z (Machine.sendAck s a2) := by
  unfold Machine.sendAck
  repeat' with_reducible first
    | assumption | apply evo_send

theorem evo_takeDecision {z : State} {s : State} {a2} {a3} {a4} (hs : Evo z s) :
    Evo z (Machine.takeDecision s a2 a3 a4) := by
  unfold Machine.takeDecision
  repeat' first
    | (with_reducible first
        | assumption | apply evo_seeStamp | apply evo_sendAck | apply evo_finishPart | apply Evo.foldl
        | apply Evo.foldl_fst | apply Evo.elim | apply Evo.getD)
    | dsimp only | split

theorem evo_takeCommit {z : State} {s : State} {a2} {a3} (hs : Evo z s) :
    Evo z (Machine.takeCommit s a2 a3) := by
  unfold Machine.takeCommit
  repeat' first
    | (with_reducible first
        | assumption | apply evo_whenUp | apply evo_takeDecision | apply Evo.foldl | apply Evo.foldl_fst | apply Evo.elim
        | apply Evo.getD)
    | simp only [evo_mk] | split | intro _

theorem evo_takeAbort {z : State} {s : State} {a2} {a3} (hs : Evo z s) :
    Evo z (Machine.takeAbort s a2 a3) := by
  unfold Machine.takeAbort
  repeat' first
    | (with_reducible first
        | assumption | apply evo_whenUp | apply evo_takeDecision | apply Evo.foldl | apply Evo.foldl_fst | apply Evo.elim
        | apply Evo.getD)
    | simp only [evo_mk] | split | intro _

theorem evo_forwardedEnd {z : State} {s : State} {a2} {a3} {a4} {a5} {a6} {a7} {a8} (hs : Evo z s) :
    Evo z (Machine.forwardedEnd s a2 a3 a4 a5 a6 a7 a8) := by
  unfold Machine.forwardedEnd
  repeat' first
    | (with_reducible first
        | assumption | apply Evo.foldl | apply Evo.foldl_fst | apply Evo.elim | apply Evo.getD)
    | simp only [evo_mk] | split

theorem evo_takeAck {z : State} {s : State} {a2} (hs : Evo z s) :
    Evo z (Machine.takeAck s a2) := by
  unfold Machine.takeAck
  repeat' first
    | (with_reducible first
        | assumption | apply evo_whenUp | apply evo_forwardedEnd | apply evo_seeStamp | apply evo_endTake
        | apply evo_setCoord | apply Evo.foldl | apply Evo.foldl_fst | apply Evo.elim | apply Evo.getD)
    | dsimp only | split | intro _

theorem evo_takeIndoubtTimeout {z : State} {s : State} {a2} (hs : Evo z s) :
    Evo z (Machine.takeIndoubtTimeout s a2) := by
  unfold Machine.takeIndoubtTimeout
  repeat' first
    | (with_reducible first
        | assumption | apply evo_whenUp | apply evo_send | apply evo_setPart | apply evo_bump | apply Evo.foldl
        | apply Evo.foldl_fst | apply Evo.elim | apply Evo.getD)
    | dsimp only | split | intro _

theorem evo_answerDoubt {z : State} {s : State} {a2} {a3} {a4} {a5} (hs : Evo z s) :
    Evo z (Machine.answerDoubt s a2 a3 a4 a5) := by
  unfold Machine.answerDoubt
  repeat' with_reducible first
    | assumption | apply evo_send

theorem evo_takeInquiry {z : State} {s : State} {a2} {a3} {a4} (hs : Evo z s) :
    Evo z (Machine.takeInquiry s a2 a3 a4) := by
  unfold Machine.takeInquiry
  repeat' first
    | (with_reducible first
        | assumption | apply evo_whenUp | apply evo_seeStamp | apply evo_answerDoubt | apply Evo.foldl
        | apply Evo.foldl_fst | apply Evo.elim | apply Evo.getD)
    | dsimp only | split | intro _

theorem evo_beginRetry {z : State} {s : State} {a2} {a3} (hs : Evo z s) :
    Evo z (Machine.beginRetry s a2 a3) := by
  unfold Machine.beginRetry
  repeat' first
    | (with_reducible first
        | assumption | apply evo_beginTake | apply evo_bump | apply Evo.foldl | apply Evo.foldl_fst | apply Evo.elim
        | apply Evo.getD)
    | simp only [evo_mk]

theorem evo_takeEndedNotice {z : State} {s : State} {a2} (hs : Evo z s) :
    Evo z (Machine.takeEndedNotice s a2) := by
  unfold Machine.takeEndedNotice
  repeat' first
    | (with_reducible first
        | assumption | apply evo_whenUp | apply evo_beginRetry | apply Evo.foldl | apply Evo.foldl_fst | apply Evo.elim
        | apply Evo.getD)
    | simp only [evo_mk] | split | intro _

theorem evo_takeRetry {z : State} {s : State} {a2} (hs : Evo z s) :
    Evo z (Machine.takeRetry s a2) := by
  unfold Machine.takeRetry
  repeat' first
    | (with_reducible first
        | assumption | apply evo_whenUp | apply evo_beginRetry | apply Evo.foldl | apply Evo.foldl_fst | apply Evo.elim
        | apply Evo.getD)
    | simp only [evo_mk] | split | intro _

theorem evo_coordLost {z : State} {a1} {s : State} (hs : Evo z s) :
    Evo z (Machine.coordLost a1 s) := by
  unfold Machine.coordLost
  repeat' first
    | (with_reducible first
        | assumption | apply evo_finishPart | apply evo_openEvent | apply Evo.foldl | apply Evo.foldl_fst | apply Evo.elim
        | apply Evo.getD)
    | simp only [evo_mk] | split | intro _

theorem evo_releaseMirrors {z : State} {s : State} (hs : Evo z s) :
    Evo z (Machine.releaseMirrors s) := by
  unfold Machine.releaseMirrors
  repeat' first
    | (with_reducible first
        | assumption | apply evo_intentsSafe | apply evo_bump | apply evo_applyMirrored | apply evo_carryOut
        | apply Evo.foldl | apply Evo.foldl_fst | apply Evo.elim | apply Evo.getD)
    | simp only [evo_mk] | split | intro _

theorem evo_settleWaits {z : State} {a1} {s : State} (hs : Evo z s) :
    Evo z (Machine.settleWaits a1 s) := by
  induction a1 generalizing s with
  | zero =>
    unfold Machine.settleWaits
    repeat' with_reducible first
      | assumption
  | succ n ih =>
    unfold Machine.settleWaits
    repeat' first
      | (with_reducible first
          | assumption | apply ih | apply evo_wakeWaiters | apply Evo.foldl | apply Evo.foldl_fst | apply Evo.elim
          | apply Evo.getD)
      | simp only [evo_mk] | split

end Sys2Proof.Laws
end

