-- ==== Sys2Proof/Laws/EvoTrv.lean ====
section
/-! SUPPORT. The operations of the Traverse keep registers and memory in their canonical form, leave the queue alone, and
take nothing back that was sent (`Evo`). -/

namespace Sys2Proof.Laws

open Sys2Proof Sys2Proof.Machine

theorem evo_setTrav {z : State} {s : State} {a2} {a3} (hs : Evo z s) :
    Evo z (Machine.setTrav s a2 a3) := by
  unfold Machine.setTrav
  repeat' first
    | (with_reducible first
        | assumption | apply Evo.foldl | apply Evo.foldl_fst | apply Evo.elim | apply Evo.getD)
    | simp only [evo_mk]

theorem evo_modTrav {z : State} {s : State} {a2} {a3} (hs : Evo z s) :
    Evo z (Machine.modTrav s a2 a3) := by
  unfold Machine.modTrav
  repeat' first
    | (with_reducible first
        | assumption | apply Evo.foldl | apply Evo.foldl_fst | apply Evo.elim | apply Evo.getD)
    | simp only [evo_mk]

theorem evo_pin {z : State} {s : State} {a2} (hs : Evo z s) :
    Evo z (Machine.pin s a2) := by
  unfold Machine.pin
  repeat' first
    | (with_reducible first
        | assumption | apply evo_modReq | apply Evo.foldl | apply Evo.foldl_fst | apply Evo.elim | apply Evo.getD)
    | simp only [evo_mk]

theorem evo_unpin {z : State} {s : State} {a2} (hs : Evo z s) :
    Evo z (Machine.unpin s a2) := by
  unfold Machine.unpin
  repeat' first
    | (with_reducible first
        | assumption | apply evo_modReq | apply Evo.foldl | apply Evo.foldl_fst | apply Evo.elim | apply Evo.getD)
    | simp only [evo_mk]

theorem evo_recordTransit {z : State} {s : State} {a2} {a3} (hs : Evo z s) :
    Evo z (Machine.recordTransit s a2 a3) := by
  unfold Machine.recordTransit
  repeat' with_reducible first
    | assumption | apply evo_mirrorRec | apply evo_localTake

theorem evo_sendTrv {z : State} {s : State} {a2} {a3} {a4} {a5} {a6} {a7} (hs : Evo z s) :
    Evo z (Machine.sendTrv s a2 a3 a4 a5 a6 a7) := by
  unfold Machine.sendTrv
  repeat' with_reducible first
    | assumption | apply evo_send

theorem evo_trvMsg {z : State} {s : State} {a2} {a3} {a4} {a5 : State → State} (hs : Evo z s)
    (ha5 : ∀ x0, Evo z x0 → Evo z (a5 x0)) :
    Evo z (Machine.trvMsg s a2 a3 a4 a5) := by
  unfold Machine.trvMsg
  repeat' first
    | (with_reducible first
        | assumption | apply ha5 | apply evo_whenUp | apply evo_openEvent | apply Evo.foldl | apply Evo.foldl_fst
        | apply Evo.elim | apply Evo.getD)
    | simp only [evo_mk] | split | intro _

theorem evo_nextSeq {z : State} {s : State} (hs : Evo z s) :
    Evo z (Machine.nextSeq s).1 := by
  unfold Machine.nextSeq
  repeat' first
    | (with_reducible first
        | assumption | apply Evo.foldl | apply Evo.foldl_fst | apply Evo.elim | apply Evo.getD)
    | simp only [evo_mk]

theorem evo_answerPark {z : State} {s : State} {a2} {a3} {a4} {a5} (hs : Evo z s) :
    Evo z (Machine.answerPark s a2 a3 a4 a5) := by
  unfold Machine.answerPark
  repeat' first
    | (with_reducible first
        | assumption | apply evo_completeWith | apply evo_completeSt | apply evo_respond | apply Evo.foldl
        | apply Evo.foldl_fst | apply Evo.elim | apply Evo.getD)
    | simp only [evo_mk] | split

theorem evo_openTo {z : State} {s : State} {a2} {a3} {a4} (hs : Evo z s) :
    Evo z (Machine.openTo s a2 a3 a4) := by
  unfold Machine.openTo
  repeat' first
    | (with_reducible first
        | assumption | apply evo_nextSeq | apply evo_setTrav | apply evo_recordTransit | apply evo_pin | apply evo_send
        | apply Evo.foldl | apply Evo.foldl_fst | apply Evo.elim | apply Evo.getD)
    | dsimp only | split

theorem evo_stayHere {z : State} {s : State} {a2} {a3} {a4} (hs : Evo z s) :
    Evo z (Machine.stayHere s a2 a3 a4) := by
  unfold Machine.stayHere
  repeat' with_reducible first
    | assumption | apply evo_openEvent | apply evo_setTrav | apply evo_unpin

theorem evo_tryDest {z : State} {s : State} {a2} {a3} {a4} (hs : Evo z s) :
    Evo z (Machine.tryDest s a2 a3 a4) := by
  unfold Machine.tryDest
  repeat' first
    | (with_reducible first
        | assumption | apply evo_openTo | apply evo_stayHere | apply evo_answerPark | apply evo_modReq | apply evo_unpin
        | apply Evo.foldl | apply Evo.foldl_fst | apply Evo.elim | apply Evo.getD)
    | simp only [evo_mk] | split

theorem evo_beginTraverse {z : State} {s : State} {a2} {a3} {a4} (hs : Evo z s) :
    Evo z (Machine.beginTraverse s a2 a3 a4) := by
  unfold Machine.beginTraverse
  repeat' first
    | (with_reducible first
        | assumption | apply evo_modReq | apply evo_tryDest | apply Evo.foldl | apply Evo.foldl_fst | apply Evo.elim
        | apply Evo.getD)
    | dsimp only | split

theorem evo_openTraverse {z : State} {s : State} {a2} (hs : Evo z s) :
    Evo z (Machine.openTraverse s a2) := by
  unfold Machine.openTraverse
  repeat' first
    | (with_reducible first
        | assumption | apply evo_answerPark | apply evo_beginTraverse | apply Evo.foldl | apply Evo.foldl_fst
        | apply Evo.elim | apply Evo.getD)
    | simp only [evo_mk] | split

theorem evo_traverseOpen {z : State} {s : State} {a2} (hs : Evo z s) :
    Evo z (Machine.traverseOpen s a2) := by
  unfold Machine.traverseOpen
  repeat' first
    | (with_reducible first
        | assumption | apply evo_whenUp | apply evo_openTraverse | apply Evo.foldl | apply Evo.foldl_fst | apply Evo.elim
        | apply Evo.getD)
    | simp only [evo_mk] | split | intro _

theorem evo_pumpWaiting {z : State} {a1} {s : State} (hs : Evo z s) :
    Evo z (Machine.pumpWaiting a1 s) := by
  induction a1 generalizing s with
  | zero =>
    unfold Machine.pumpWaiting
    repeat' with_reducible first
      | assumption
  | succ n ih =>
    unfold Machine.pumpWaiting
    repeat' first
      | (with_reducible first
          | assumption | apply ih | apply evo_openTraverse | apply Evo.foldl | apply Evo.foldl_fst | apply Evo.elim
          | apply Evo.getD)
      | simp only [evo_mk] | split

theorem evo_traverseDestRetry {z : State} {s : State} {a2} (hs : Evo z s) :
    Evo z (Machine.traverseDestRetry s a2) := by
  unfold Machine.traverseDestRetry
  repeat' first
    | (with_reducible first
        | assumption | apply evo_whenUp | apply evo_tryDest | apply Evo.foldl | apply Evo.foldl_fst | apply Evo.elim
        | apply Evo.getD)
    | simp only [evo_mk] | split | intro _

theorem evo_openTimeout {z : State} {s : State} {a2} (hs : Evo z s) :
    Evo z (Machine.openTimeout s a2) := by
  unfold Machine.openTimeout
  repeat' first
    | (with_reducible first
        | assumption | apply evo_whenUp | apply evo_openTo | apply Evo.foldl | apply Evo.foldl_fst | apply Evo.elim
        | apply Evo.getD)
    | simp only [evo_mk] | split | intro _

theorem evo_reserve {z : State} {s : State} {a2} {a3} (hs : Evo z s) :
    Evo z (Machine.reserve s a2 a3).1 := by
  unfold Machine.reserve
  repeat' first
    | (with_reducible first
        | assumption | apply evo_runLocal | apply Evo.foldl | apply Evo.foldl_fst | apply Evo.elim | apply Evo.getD)
    | dsimp only | split

theorem evo_sendLegReq {z : State} {s : State} {a2} {a3} {a4} (hs : Evo z s) :
    Evo z (Machine.sendLegReq s a2 a3 a4) := by
  unfold Machine.sendLegReq
  repeat' with_reducible first
    | assumption | apply evo_send

theorem evo_issueLegs {z : State} {a1} {s : State} {a3} (hs : Evo z s) :
    Evo z (Machine.issueLegs a1 s a3) := by
  induction a1 generalizing s a3 with
  | zero =>
    unfold Machine.issueLegs
    repeat' with_reducible first
      | assumption
  | succ n ih =>
    unfold Machine.issueLegs
    repeat' first
      | (with_reducible first
          | assumption | apply ih | apply evo_reserve | apply evo_evictClass | apply evo_setTrav | apply evo_nextSeq
          | apply evo_sendLegReq | apply Evo.foldl | apply Evo.foldl_fst | apply Evo.elim | apply Evo.getD)
      | dsimp only | split

theorem evo_buildClosing {z : State} {s : State} {a2} {a3} (hs : Evo z s) :
    Evo z (Machine.buildClosing s a2 a3) := by
  unfold Machine.buildClosing
  repeat' first
    | (with_reducible first
        | assumption | apply evo_giveSlate | apply evo_setTrav | apply Evo.foldl | apply Evo.foldl_fst | apply Evo.elim
        | apply Evo.getD)
    | dsimp only | split

theorem evo_noteDone {z : State} {s : State} {a2} {a3} (hs : Evo z s) :
    Evo z (Machine.noteDone s a2 a3) := by
  unfold Machine.noteDone
  repeat' first
    | (with_reducible first
        | assumption | apply evo_buildClosing | apply evo_setTrav | apply Evo.foldl | apply Evo.foldl_fst | apply Evo.elim
        | apply Evo.getD)
    | dsimp only | split

theorem evo_checkDone {z : State} {s : State} {a2} (hs : Evo z s) :
    Evo z (Machine.checkDone s a2) := by
  unfold Machine.checkDone
  repeat' first
    | (with_reducible first
        | assumption | apply evo_setTrav | apply evo_noteDone | apply evo_sendTrv | apply Evo.foldl | apply Evo.foldl_fst
        | apply Evo.elim | apply Evo.getD)
    | dsimp only | split

theorem evo_runLegs {z : State} {s : State} {a2} (hs : Evo z s) :
    Evo z (Machine.runLegs s a2) := by
  unfold Machine.runLegs
  repeat' first
    | (with_reducible first
        | assumption | apply evo_checkDone | apply evo_issueLegs | apply Evo.foldl | apply Evo.foldl_fst | apply Evo.elim
        | apply Evo.getD)
    | simp only [evo_mk] | split

theorem evo_legReserveRetry {z : State} {s : State} {a2} (hs : Evo z s) :
    Evo z (Machine.legReserveRetry s a2) := by
  unfold Machine.legReserveRetry
  repeat' first
    | (with_reducible first
        | assumption | apply evo_whenUp | apply evo_runLegs | apply Evo.foldl | apply Evo.foldl_fst | apply Evo.elim
        | apply Evo.getD)
    | simp only [evo_mk] | split | intro _

theorem evo_legReserveStall {z : State} {s : State} {a2} (hs : Evo z s) :
    Evo z (Machine.legReserveStall s a2) := by
  unfold Machine.legReserveStall
  repeat' first
    | (with_reducible first
        | assumption | apply evo_whenUp | apply evo_sendTrv | apply Evo.foldl | apply Evo.foldl_fst | apply Evo.elim
        | apply Evo.getD)
    | simp only [evo_mk] | split | intro _

theorem evo_legTimeout {z : State} {s : State} {a2} {a3} (hs : Evo z s) :
    Evo z (Machine.legTimeout s a2 a3) := by
  unfold Machine.legTimeout
  repeat' first
    | (with_reducible first
        | assumption | apply evo_whenUp | apply evo_sendLegReq | apply evo_setTrav | apply Evo.foldl | apply Evo.foldl_fst
        | apply Evo.elim | apply Evo.getD)
    | dsimp only | split | intro _

theorem evo_makeRoot {z : State} {s : State} {a2} {a3} (hs : Evo z s) :
    Evo z (Machine.makeRoot s a2 a3) := by
  unfold Machine.makeRoot
  repeat' first
    | (with_reducible first
        | assumption | apply evo_localTake | apply evo_mirrorRec | apply Evo.foldl | apply Evo.foldl_fst | apply Evo.elim
        | apply Evo.getD)
    | simp only [evo_mk] | split

theorem evo_joinTransit {z : State} {s : State} {a2} {a3} {a4} (hs : Evo z s) :
    Evo z (Machine.joinTransit s a2 a3 a4) := by
  unfold Machine.joinTransit
  repeat' first
    | (with_reducible first
        | assumption | apply evo_makeRoot | apply evo_modReq | apply evo_runLegs | apply evo_pin | apply evo_setTrav
        | apply Evo.foldl | apply Evo.foldl_fst | apply Evo.elim | apply Evo.getD)
    | simp only [evo_mk] | split

theorem evo_openMsg {z : State} {s : State} {a2} {a3} (hs : Evo z s) :
    Evo z (Machine.openMsg s a2 a3) := by
  unfold Machine.openMsg
  repeat' first
    | (with_reducible first
        | assumption | apply evo_trvMsg | apply evo_sendTrv | apply evo_recordTransit | apply evo_send
        | apply evo_joinTransit | apply evo_buildClosing | apply Evo.foldl | apply Evo.foldl_fst | apply Evo.elim
        | apply Evo.getD)
    | dsimp only | split | intro _

theorem evo_sendCounts {z : State} {s : State} {a2} {a3} {a4} (hs : Evo z s) :
    Evo z (Machine.sendCounts s a2 a3 a4) := by
  unfold Machine.sendCounts
  repeat' first
    | (with_reducible first
        | assumption | apply evo_send | apply Evo.foldl | apply Evo.foldl_fst | apply Evo.elim | apply Evo.getD)
    | dsimp only | split | intro _

theorem evo_sendAbandon {z : State} {s : State} {a2} {a3} {a4} (hs : Evo z s) :
    Evo z (Machine.sendAbandon s a2 a3 a4) := by
  unfold Machine.sendAbandon
  repeat' first
    | (with_reducible first
        | assumption | apply evo_sendTrv | apply Evo.foldl | apply Evo.foldl_fst | apply Evo.elim | apply Evo.getD)
    | simp only [evo_mk] | split | intro _

theorem evo_afterAbandon {z : State} {s : State} {a2} {a3} {a4} (hs : Evo z s) :
    Evo z (Machine.afterAbandon s a2 a3 a4) := by
  unfold Machine.afterAbandon
  repeat' first
    | (with_reducible first
        | assumption | apply evo_answerPark | apply evo_modReq | apply evo_tryDest | apply Evo.foldl | apply Evo.foldl_fst
        | apply Evo.elim | apply Evo.getD)
    | simp only [evo_mk] | split

theorem evo_abandonTrav {z : State} {s : State} {a2} {a3} (hs : Evo z s) :
    Evo z (Machine.abandonTrav s a2 a3) := by
  unfold Machine.abandonTrav
  repeat' first
    | (with_reducible first
        | assumption | apply evo_bump | apply evo_sendAbandon | apply evo_afterAbandon | apply evo_unpin
        | apply evo_setTrav | apply Evo.foldl | apply Evo.foldl_fst | apply Evo.elim | apply Evo.getD)
    | dsimp only | split

theorem evo_accept {z : State} {s : State} {a2} (hs : Evo z s) :
    Evo z (Machine.accept s a2) := by
  unfold Machine.accept
  repeat' first
    | (with_reducible first
        | assumption | apply evo_trvMsg | apply evo_abandonTrav | apply evo_setTrav | apply evo_sendCounts
        | apply Evo.foldl | apply Evo.foldl_fst | apply Evo.elim | apply Evo.getD)
    | dsimp only | split | intro _

theorem evo_sendLegData {z : State} {s : State} {a2} {a3} {a4} (hs : Evo z s) :
    Evo z (Machine.sendLegData s a2 a3 a4) := by
  unfold Machine.sendLegData
  repeat' first
    | (with_reducible first
        | assumption | apply evo_send | apply Evo.foldl | apply Evo.foldl_fst | apply Evo.elim | apply Evo.getD)
    | dsimp only | split | intro _

theorem evo_legReq {z : State} {s : State} {a2} {a3} {a4} (hs : Evo z s) :
    Evo z (Machine.legReq s a2 a3 a4) := by
  unfold Machine.legReq
  repeat' first
    | (with_reducible first
        | assumption | apply evo_trvMsg | apply evo_send | apply evo_pin | apply evo_sendCounts | apply evo_sendLegData
        | apply Evo.foldl | apply Evo.foldl_fst | apply Evo.elim | apply Evo.getD)
    | dsimp only | split | intro _

theorem evo_decodeLeg {z : State} {s : State} {a2} {a3} {a4} {t : State} (hs : Evo z s)
    (ht : Machine.decodeLeg s a2 a3 a4 = some t) : Evo z t := by
  obtain ⟨bs, -, rfl⟩ := Option.map_eq_some_iff.1 ht
  exact Evo.foldl (fun _ _ h => evo_writeMem h) _ hs

theorem evo_legReply {z : State} {s : State} {a2} {a3} {a4} (hs : Evo z s) :
    Evo z (Machine.legReply s a2 a3 a4) := by
  unfold Machine.legReply
  repeat' first
    | (with_reducible first
        | assumption | apply evo_trvMsg | apply evo_runLegs | apply evo_setTrav | apply evo_sendLegReq | apply evo_runLocal
        | apply evo_bump | apply Evo.foldl | apply Evo.foldl_fst | apply Evo.elim | apply Evo.getD | exact Evo.refl _)
    | dsimp only | split | intro _ | (refine evo_decodeLeg (ht := by with_reducible assumption) ?_)

theorem evo_countEntry {z : State} {s : State} {a2} {a3} {a4} {a5} (hs : Evo z s) :
    Evo z (Machine.countEntry s a2 a3 a4 a5) := by
  unfold Machine.countEntry
  repeat' first
    | (with_reducible first
        | assumption | apply evo_whenUp | apply evo_bump | apply evo_checkDone | apply evo_setTrav | apply Evo.foldl
        | apply Evo.foldl_fst | apply Evo.elim | apply Evo.getD)
    | simp only [evo_mk] | split | intro _

theorem evo_doneMsg {z : State} {s : State} {a2} (hs : Evo z s) :
    Evo z (Machine.doneMsg s a2) := by
  unfold Machine.doneMsg
  repeat' first
    | (with_reducible first
        | assumption | apply evo_trvMsg | apply evo_noteDone | apply Evo.foldl | apply Evo.foldl_fst | apply Evo.elim
        | apply Evo.getD)
    | simp only [evo_mk] | split | intro _

theorem evo_freeReserved {z : State} {s : State} {a2} (hs : Evo z s) :
    Evo z (Machine.freeReserved s a2) := by
  unfold Machine.freeReserved
  repeat' first
    | (with_reducible first
        | assumption | apply evo_feedStarved | apply evo_localTake | apply Evo.foldl | apply Evo.foldl_fst | apply Evo.elim
        | apply Evo.getD)
    | simp only [evo_mk] | split | intro _

theorem evo_releasePages {z : State} {s : State} {a2} (hs : Evo z s) :
    Evo z (Machine.releasePages s a2) := by
  unfold Machine.releasePages
  repeat' first
    | (with_reducible first
        | assumption | apply evo_localTake | apply evo_freePages | apply Evo.foldl | apply Evo.foldl_fst | apply Evo.elim
        | apply Evo.getD)
    | simp only [evo_mk] | split | intro _

theorem evo_takeOwned {z : State} {s : State} {a2} {a3} (hs : Evo z s) :
    Evo z (Machine.takeOwned s a2 a3) := by
  unfold Machine.takeOwned
  repeat' first
    | (with_reducible first
        | assumption | apply evo_localTake | apply evo_freeReserved | apply evo_unpin | apply evo_modReq
        | apply evo_notifyLeader | apply evo_mirrorRec | apply Evo.foldl | apply Evo.foldl_fst | apply Evo.elim
        | apply Evo.getD)
    | simp only [evo_mk] | split

theorem evo_closeAtDest {z : State} {s : State} {a2} {a3} (hs : Evo z s) :
    Evo z (Machine.closeAtDest s a2 a3) := by
  unfold Machine.closeAtDest
  repeat' first
    | (with_reducible first
        | assumption | apply evo_takeOwned | apply evo_sendTrv | apply evo_bump | apply Evo.foldl | apply Evo.foldl_fst
        | apply Evo.elim | apply Evo.getD)
    | simp only [evo_mk] | split | intro _

theorem evo_closingEnded {z : State} {s : State} {a2} {a3} {a4} (hs : Evo z s) :
    Evo z (Machine.closingEnded s a2 a3 a4) := by
  unfold Machine.closingEnded
  repeat' first
    | (with_reducible first
        | assumption | apply evo_closeAtDest | apply evo_buildClosing | apply evo_setTrav | apply evo_askHome
        | apply Evo.foldl | apply Evo.foldl_fst | apply Evo.elim | apply Evo.getD)
    | dsimp only | split

theorem evo_passCancels {z : State} {s : State} {a2} {a3} {a4} (hs : Evo z s) :
    Evo z (Machine.passCancels s a2 a3 a4) := by
  unfold Machine.passCancels
  repeat' first
    | (with_reducible first
        | assumption | apply evo_send | apply Evo.foldl | apply Evo.foldl_fst | apply Evo.elim | apply Evo.getD)
    | simp only [evo_mk] | split | intro _

theorem evo_closeAtSource {z : State} {s : State} {a2} {a3} (hs : Evo z s) :
    Evo z (Machine.closeAtSource s a2 a3) := by
  unfold Machine.closeAtSource
  repeat' first
    | (with_reducible first
        | assumption | apply evo_sendTrv | apply evo_unpin | apply evo_releasePages | apply evo_mirrorRec
        | apply evo_answerPark | apply evo_passCancels | apply Evo.foldl | apply Evo.foldl_fst | apply Evo.elim
        | apply Evo.getD)
    | simp only [evo_mk] | split | intro _

theorem evo_trvSettle {z : State} {s : State} (hs : Evo z s) :
    Evo z (Machine.trvSettle s) := by
  unfold Machine.trvSettle
  repeat' first
    | (with_reducible first
        | assumption | apply evo_closeAtSource | apply Evo.foldl | apply Evo.foldl_fst | apply Evo.elim | apply Evo.getD)
    | simp only [evo_mk] | split | intro _

theorem evo_owned {z : State} {s : State} {a2} (hs : Evo z s) :
    Evo z (Machine.owned s a2) := by
  unfold Machine.owned
  repeat' first
    | (with_reducible first
        | assumption | apply evo_trvMsg | apply evo_takeOwned | apply Evo.foldl | apply Evo.foldl_fst | apply Evo.elim
        | apply Evo.getD)
    | simp only [evo_mk] | split | intro _

theorem evo_endTrav {z : State} {s : State} {a2} (hs : Evo z s) :
    Evo z (Machine.endTrav s a2) := by
  unfold Machine.endTrav
  repeat' first
    | (with_reducible first
        | assumption | apply evo_bump | apply evo_sendAbandon | apply evo_answerPark | apply Evo.foldl
        | apply Evo.foldl_fst | apply Evo.elim | apply Evo.getD)
    | simp only [evo_mk] | split

theorem evo_release {z : State} {s : State} {a2} (hs : Evo z s) :
    Evo z (Machine.release s a2) := by
  unfold Machine.release
  repeat' first
    | (with_reducible first
        | assumption | apply evo_trvMsg | apply evo_localTake | apply evo_unpin | apply evo_releasePages
        | apply evo_endTrav | apply Evo.foldl | apply Evo.foldl_fst | apply Evo.elim | apply Evo.getD)
    | simp only [evo_mk] | split | intro _

theorem evo_dropTransit {z : State} {s : State} {a2} {a3} (hs : Evo z s) :
    Evo z (Machine.dropTransit s a2 a3) := by
  unfold Machine.dropTransit
  repeat' first
    | (with_reducible first
        | assumption | apply evo_freeReserved | apply evo_unpin | apply evo_releasePages | apply Evo.foldl
        | apply Evo.foldl_fst | apply Evo.elim | apply Evo.getD)
    | simp only [evo_mk] | split

theorem evo_abandon {z : State} {s : State} {a2} (hs : Evo z s) :
    Evo z (Machine.abandon s a2) := by
  unfold Machine.abandon
  repeat' first
    | (with_reducible first
        | assumption | apply evo_trvMsg | apply evo_abandonTrav | apply evo_dropTransit | apply Evo.foldl
        | apply Evo.foldl_fst | apply Evo.elim | apply Evo.getD)
    | simp only [evo_mk] | split | intro _

theorem evo_parkNow {z : State} {s : State} {a2} {a3} (hs : Evo z s) :
    Evo z (Machine.parkNow s a2 a3) := by
  unfold Machine.parkNow
  repeat' first
    | (with_reducible first
        | assumption | apply evo_deliverEnd | apply evo_openTraverse | apply evo_modReq | apply Evo.foldl
        | apply Evo.foldl_fst | apply Evo.elim | apply Evo.getD)
    | simp only [evo_mk] | split

theorem evo_autoPark {z : State} {s : State} {a2} (hs : Evo z s) :
    Evo z (Machine.autoPark s a2) := by
  unfold Machine.autoPark
  repeat' first
    | (with_reducible first
        | assumption | apply evo_whenUp | apply evo_parkNow | apply Evo.foldl | apply Evo.foldl_fst | apply Evo.elim
        | apply Evo.getD)
    | simp only [evo_mk] | split | intro _

theorem evo_beginRepair {z : State} {s : State} {a2} {a3} (hs : Evo z s) :
    Evo z (Machine.beginRepair s a2 a3) := by
  unfold Machine.beginRepair
  repeat' first
    | (with_reducible first
        | assumption | apply evo_runLegs | apply evo_setTrav | apply Evo.foldl | apply Evo.foldl_fst | apply Evo.elim
        | apply Evo.getD)
    | dsimp only | split

theorem evo_reshootRequest {z : State} {s : State} {a2} {a3} {a4} {a5} (hs : Evo z s) :
    Evo z (Machine.reshootRequest s a2 a3 a4 a5) := by
  unfold Machine.reshootRequest
  repeat' first
    | (with_reducible first
        | assumption | apply evo_whenUp | apply evo_checkReshoot | apply evo_beginRepair | apply evo_send | apply Evo.foldl
        | apply Evo.foldl_fst | apply Evo.elim | apply Evo.getD)
    | dsimp only | split | intro _

theorem evo_endRepairs {z : State} {s : State} (hs : Evo z s) :
    Evo z (Machine.endRepairs s) := by
  unfold Machine.endRepairs
  repeat' first
    | (with_reducible first
        | assumption | apply evo_freeReserved | apply Evo.foldl | apply Evo.foldl_fst | apply Evo.elim | apply Evo.getD)
    | simp only [evo_mk] | split | intro _

end Sys2Proof.Laws
end

