-- ==== Sys2Proof/Laws/EvoReq.lean ====
section
/-! SUPPORT. The operations of the request commands keep registers and memory in their canonical form, leave the queue alone, and
take nothing back that was sent (`Evo`). -/

namespace Sys2Proof.Laws

open Sys2Proof Sys2Proof.Machine

theorem evo_actPost {z : State} {s : State} {a2} {a3} {a4} {a5} {a6} {a7} (hs : Evo z s) :
    Evo z (Machine.actPost s a2 a3 a4 a5 a6 a7) := by
  unfold Machine.actPost
  repeat' first
    | (with_reducible first
        | assumption | apply evo_countTokens | apply evo_giveSlate | apply evo_send | apply Evo.foldl | apply Evo.foldl_fst
        | apply Evo.elim | apply Evo.getD)
    | simp only [evo_mk] | split

theorem evo_reqPost {z : State} {s : State} {a2} {a3} {a4} {a5} {a6} (hs : Evo z s) :
    Evo z (Machine.reqPost s a2 a3 a4 a5 a6) := by
  unfold Machine.reqPost
  repeat' first
    | (with_reducible first
        | assumption | apply evo_ofForm | apply evo_runDesc | apply evo_actPost | apply Evo.foldl | apply Evo.foldl_fst
        | apply Evo.elim | apply Evo.getD)
    | simp only [evo_mk] | split | intro _

theorem evo_reqPark {z : State} {s : State} {a2} {a3} {a4} (hs : Evo z s) :
    Evo z (Machine.reqPark s a2 a3 a4) := by
  unfold Machine.reqPark
  repeat' first
    | (with_reducible first
        | assumption | apply evo_ofForm | apply evo_runDesc | apply evo_openTraverse | apply evo_sendFor
        | apply evo_completeSt | apply Evo.foldl | apply Evo.foldl_fst | apply Evo.elim | apply Evo.getD)
    | dsimp only | split | intro _

theorem evo_markCancel {z : State} {s : State} {a2} {a3} {a4} (hs : Evo z s) :
    Evo z (Machine.markCancel s a2 a3 a4) := by
  unfold Machine.markCancel
  repeat' with_reducible first
    | assumption | apply evo_modReq

theorem evo_cancelWait {z : State} {s : State} {a2} (hs : Evo z s) :
    Evo z (Machine.cancelWait s a2) := by
  unfold Machine.cancelWait
  repeat' first
    | (with_reducible first
        | assumption | apply Evo.foldl | apply Evo.foldl_fst | apply Evo.elim | apply Evo.getD)
    | simp only [evo_mk] | split

theorem evo_reqCancel {z : State} {s : State} {a2} {a3} {a4} (hs : Evo z s) :
    Evo z (Machine.reqCancel s a2 a3 a4) := by
  unfold Machine.reqCancel
  repeat' first
    | (with_reducible first
        | assumption | apply evo_ofForm | apply evo_runDesc | apply evo_cancelReshoot | apply evo_cancelWait
        | apply evo_markCancel | apply evo_send | apply Evo.foldl | apply Evo.foldl_fst | apply Evo.elim | apply Evo.getD)
    | dsimp only | split | intro _

theorem evo_cancelReachesOwner {z : State} {s : State} {a2} {a3} {a4} (hs : Evo z s) :
    Evo z (Machine.cancelReachesOwner s a2 a3 a4) := by
  unfold Machine.cancelReachesOwner
  repeat' first
    | (with_reducible first
        | assumption | apply evo_whenUp | apply evo_cancelReshoot | apply evo_cancelWait | apply evo_markCancel
        | apply Evo.foldl | apply Evo.foldl_fst | apply Evo.elim | apply Evo.getD)
    | simp only [evo_mk] | split | intro _

theorem evo_askRelease {z : State} {s : State} {a2} {a3} {a4} (hs : Evo z s) :
    Evo z (Machine.askRelease s a2 a3 a4) := by
  unfold Machine.askRelease
  repeat' first
    | (with_reducible first
        | assumption | apply evo_startTake | apply evo_giveSlate | apply Evo.foldl | apply Evo.foldl_fst | apply Evo.elim
        | apply Evo.getD)
    | simp only [evo_mk] | split

theorem evo_tellOwners {z : State} {s : State} {a2} {a3} (hs : Evo z s) :
    Evo z (Machine.tellOwners s a2 a3) := by
  unfold Machine.tellOwners
  repeat' first
    | (with_reducible first
        | assumption | apply evo_releasePages | apply evo_unpin | apply evo_endTrav | apply evo_sendTrv | apply Evo.foldl
        | apply Evo.foldl_fst | apply Evo.elim | apply Evo.getD)
    | simp only [evo_mk] | split | intro _

theorem evo_dropMade {z : State} {s : State} {a2} {a3} (hs : Evo z s) :
    Evo z (Machine.dropMade s a2 a3) := by
  unfold Machine.dropMade
  repeat' first
    | (with_reducible first
        | assumption | apply evo_modCtx | apply Evo.foldl | apply Evo.foldl_fst | apply Evo.elim | apply Evo.getD)
    | simp only [evo_mk] | split

theorem evo_releaseEnded {z : State} {s : State} {a2} {a3} {a4} {a5} {a6} (hs : Evo z s) :
    Evo z (Machine.releaseEnded s a2 a3 a4 a5 a6) := by
  unfold Machine.releaseEnded
  repeat' first
    | (with_reducible first
        | assumption | apply evo_completeSt | apply evo_dropMade | apply evo_tellOwners | apply evo_askRelease
        | apply Evo.foldl | apply Evo.foldl_fst | apply Evo.elim | apply Evo.getD)
    | dsimp only | split

theorem evo_releaseForEnded {z : State} {s : State} {a2} {a3} {a4} {a5} {a6} {a7} (hs : Evo z s) :
    Evo z (Machine.releaseForEnded s a2 a3 a4 a5 a6 a7) := by
  unfold Machine.releaseForEnded
  repeat' first
    | (with_reducible first
        | assumption | apply evo_releaseHere | apply evo_reportEnd | apply evo_tellOwners | apply Evo.foldl
        | apply Evo.foldl_fst | apply Evo.elim | apply Evo.getD)
    | simp only [evo_mk] | split

theorem evo_createEnded {z : State} {s : State} {a2} {a3} {a4} (hs : Evo z s) :
    Evo z (Machine.createEnded s a2 a3 a4) := by
  unfold Machine.createEnded
  repeat' first
    | (with_reducible first
        | assumption | apply evo_askRelease | apply evo_modReq | apply evo_mirrorRec | apply evo_send | apply evo_complete
        | apply Evo.foldl | apply Evo.foldl_fst | apply Evo.elim | apply Evo.getD)
    | simp only [evo_mk] | split | intro _

theorem evo_reqReleaseFree {z : State} {s : State} {a2} {a3} {a4} (hs : Evo z s) :
    Evo z (Machine.reqReleaseFree s a2 a3 a4) := by
  unfold Machine.reqReleaseFree
  repeat' first
    | (with_reducible first
        | assumption | apply evo_ofForm | apply evo_runDesc | apply evo_askRelease | apply Evo.foldl | apply Evo.foldl_fst
        | apply Evo.elim | apply Evo.getD)
    | simp only [evo_mk] | split | intro _

theorem evo_beginRecompute {z : State} {s : State} {a2} {a3} {a4} {a5} {a6} (hs : Evo z s) :
    Evo z (Machine.beginRecompute s a2 a3 a4 a5 a6) := by
  unfold Machine.beginRecompute
  repeat' first
    | (with_reducible first
        | assumption | apply Evo.foldl | apply Evo.foldl_fst | apply Evo.elim | apply Evo.getD)
    | simp only [evo_mk]

theorem evo_reqReleaseReshoot {z : State} {s : State} {a2} {a3} {a4} (hs : Evo z s) :
    Evo z (Machine.reqReleaseReshoot s a2 a3 a4) := by
  unfold Machine.reqReleaseReshoot
  repeat' first
    | (with_reducible first
        | assumption | apply evo_ofForm | apply evo_runDesc | apply evo_checkReshoot | apply evo_beginRecompute
        | apply evo_send | apply Evo.foldl | apply Evo.foldl_fst | apply Evo.elim | apply Evo.getD)
    | simp only [evo_mk] | split | intro _

end Sys2Proof.Laws
end

