-- ==== Sys2Proof/Laws/EvoDtm.lean ====
section
/-! SUPPORT. The operations of the composition map keep registers and memory in their canonical form, leave the queue alone, and
take nothing back that was sent (`Evo`). -/

namespace Sys2Proof.Laws

open Sys2Proof Sys2Proof.Machine

theorem evo_fetchFrom {z : State} {s : State} {a2} {a3} (hs : Evo z s) :
    Evo z (Machine.fetchFrom s a2 a3) := by
  unfold Machine.fetchFrom
  repeat' first
    | (with_reducible first
        | assumption | apply evo_send | apply Evo.foldl | apply Evo.foldl_fst | apply Evo.elim | apply Evo.getD)
    | simp only [evo_mk] | split

theorem evo_mapLogRecord {z : State} {s : State} {a2} {a3} (hs : Evo z s) :
    Evo z (Machine.mapLogRecord s a2 a3) := by
  unfold Machine.mapLogRecord
  repeat' first
    | (with_reducible first
        | assumption | apply evo_whenUp | apply evo_spreadRecord | apply evo_advanceEpoch | apply evo_fetchFrom
        | apply Evo.foldl | apply Evo.foldl_fst | apply Evo.elim | apply Evo.getD)
    | dsimp only | split | intro _

theorem evo_surveyRound {z : State} {s : State} (hs : Evo z s) :
    Evo z (Machine.surveyRound s) := by
  unfold Machine.surveyRound
  repeat' first
    | (with_reducible first
        | assumption | apply evo_whenUp | apply evo_send | apply Evo.foldl | apply Evo.foldl_fst | apply Evo.elim
        | apply Evo.getD)
    | simp only [evo_mk] | split | intro _

theorem evo_pushRecords {z : State} {a1} {s : State} {a3} {a4} (hs : Evo z s) :
    Evo z (Machine.pushRecords a1 s a3 a4) := by
  induction a1 generalizing s a3 a4 with
  | zero =>
    unfold Machine.pushRecords
    repeat' with_reducible first
      | assumption
  | succ n ih =>
    unfold Machine.pushRecords
    repeat' first
      | (with_reducible first
          | assumption | apply ih | apply evo_send | apply Evo.foldl | apply Evo.foldl_fst | apply Evo.elim
          | apply Evo.getD)
      | dsimp only | split

theorem evo_surveyEpoch {z : State} {s : State} {a2} {a3} (hs : Evo z s) :
    Evo z (Machine.surveyEpoch s a2 a3) := by
  unfold Machine.surveyEpoch
  repeat' first
    | (with_reducible first
        | assumption | apply evo_whenUp | apply evo_fetchFrom | apply evo_pushRecords | apply Evo.foldl
        | apply Evo.foldl_fst | apply Evo.elim | apply Evo.getD)
    | dsimp only | split | intro _

theorem evo_joinFail {z : State} {s : State} (hs : Evo z s) :
    Evo z (Machine.joinFail s) := by
  unfold Machine.joinFail
  repeat' first
    | (with_reducible first
        | assumption | apply evo_openEvent | apply evo_wr | apply Evo.foldl | apply Evo.foldl_fst | apply Evo.elim
        | apply Evo.getD)
    | simp only [evo_mk] | split

theorem evo_dtmJoin {z : State} {s : State} {a2} (hs : Evo z s) :
    Evo z (Machine.dtmJoin s a2) := by
  unfold Machine.dtmJoin
  repeat' first
    | (with_reducible first
        | assumption | apply evo_ofForm | apply evo_bar0 | apply evo_wr | apply evo_send | apply evo_joinFail
        | apply Evo.foldl | apply Evo.foldl_fst | apply Evo.elim | apply Evo.getD)
    | simp only [evo_mk] | split | intro _

theorem evo_joinCopyDone {z : State} {s : State} {a2} {a3} {a4} {a5} (hs : Evo z s) :
    Evo z (Machine.joinCopyDone s a2 a3 a4 a5) := by
  unfold Machine.joinCopyDone
  repeat' first
    | (with_reducible first
        | assumption | apply evo_whenUp | apply evo_joinFail | apply evo_writeEvent | apply evo_wr | apply Evo.foldl
        | apply Evo.foldl_fst | apply Evo.elim | apply Evo.getD)
    | simp only [evo_mk] | split | intro _

theorem evo_joinTimeout {z : State} {s : State} (hs : Evo z s) :
    Evo z (Machine.joinTimeout s) := by
  unfold Machine.joinTimeout
  repeat' first
    | (with_reducible first
        | assumption | apply evo_whenUp | apply evo_joinFail | apply Evo.foldl | apply Evo.foldl_fst | apply Evo.elim
        | apply Evo.getD)
    | simp only [evo_mk] | split | intro _

theorem evo_sendAnswer {z : State} {s : State} {a2} {a3} {a4} {a5} {a6} {a7} (hs : Evo z s) :
    Evo z (Machine.sendAnswer s a2 a3 a4 a5 a6 a7) := by
  unfold Machine.sendAnswer
  repeat' with_reducible first
    | assumption | apply evo_send

theorem evo_homeMsg {z : State} {s : State} {a2} {a3} {a4} {a5} {a6 : State → State} (hs : Evo z s)
    (ha6 : ∀ x0, Evo z x0 → Evo z (a6 x0)) :
    Evo z (Machine.homeMsg s a2 a3 a4 a5 a6) := by
  unfold Machine.homeMsg
  repeat' first
    | (with_reducible first
        | assumption | apply ha6 | apply evo_whenUp | apply evo_sendAnswer | apply evo_bump | apply evo_fetchFrom
        | apply Evo.foldl | apply Evo.foldl_fst | apply Evo.elim | apply Evo.getD)
    | simp only [evo_mk] | split | intro _

theorem evo_sendRenew {z : State} {s : State} {a2} {a3} (hs : Evo z s) :
    Evo z (Machine.sendRenew s a2 a3) := by
  unfold Machine.sendRenew
  repeat' first
    | (with_reducible first
        | assumption | apply evo_sendDtm | apply Evo.foldl | apply Evo.foldl_fst | apply Evo.elim | apply Evo.getD)
    | simp only [evo_mk]

theorem evo_renewTimer {z : State} {s : State} (hs : Evo z s) :
    Evo z (Machine.renewTimer s) := by
  unfold Machine.renewTimer
  repeat' first
    | (with_reducible first
        | assumption | apply evo_whenUp | apply evo_sendRenew | apply Evo.foldl | apply Evo.foldl_fst | apply Evo.elim
        | apply Evo.getD)
    | simp only [evo_mk] | split | intro _

theorem evo_setHolder {z : State} {s : State} {a2} {a3} (hs : Evo z s) :
    Evo z (Machine.setHolder s a2 a3) := by
  unfold Machine.setHolder
  repeat' first
    | (with_reducible first
        | assumption | apply evo_mirrorRec | apply Evo.foldl | apply Evo.foldl_fst | apply Evo.elim | apply Evo.getD)
    | simp only [evo_mk] | split

theorem evo_renew {z : State} {s : State} {a2} {a3} (hs : Evo z s) :
    Evo z (Machine.renew s a2 a3) := by
  unfold Machine.renew
  repeat' first
    | (with_reducible first
        | assumption | apply evo_homeMsg | apply evo_sendAnswer | apply evo_setHolder | apply Evo.foldl
        | apply Evo.foldl_fst | apply Evo.elim | apply Evo.getD)
    | dsimp only | split | intro _

theorem evo_leaseLapse {z : State} {s : State} {a2} (hs : Evo z s) :
    Evo z (Machine.leaseLapse s a2) := by
  unfold Machine.leaseLapse
  repeat' first
    | (with_reducible first
        | assumption | apply evo_whenUp | apply evo_bump | apply Evo.foldl | apply Evo.foldl_fst | apply Evo.elim
        | apply Evo.getD)
    | simp only [evo_mk] | split | intro _

theorem evo_loseRecord {z : State} {s : State} {a2} {a3} (hs : Evo z s) :
    Evo z (Machine.loseRecord s a2 a3) := by
  unfold Machine.loseRecord
  repeat' with_reducible first
    | assumption | apply evo_startTake

theorem evo_losePair {z : State} {s : State} {a2} (hs : Evo z s) :
    Evo z (Machine.losePair s a2) := by
  unfold Machine.losePair
  repeat' first
    | (with_reducible first
        | assumption | apply evo_openEvent | apply evo_send | apply evo_loseRecord | apply Evo.foldl | apply Evo.foldl_fst
        | apply Evo.elim | apply Evo.getD)
    | dsimp only | split | intro _

theorem evo_holderExpiry {z : State} {s : State} {a2} (hs : Evo z s) :
    Evo z (Machine.holderExpiry s a2) := by
  unfold Machine.holderExpiry
  repeat' first
    | (with_reducible first
        | assumption | apply evo_whenUp | apply evo_losePair | apply Evo.foldl | apply Evo.foldl_fst | apply Evo.elim
        | apply Evo.getD)
    | simp only [evo_mk] | split | intro _

theorem evo_answerQuery {z : State} {s : State} {a2} (hs : Evo z s) :
    Evo z (Machine.answerQuery s a2) := by
  unfold Machine.answerQuery
  repeat' first
    | (with_reducible first
        | assumption | apply evo_bump | apply evo_sendAnswer | apply Evo.foldl | apply Evo.foldl_fst | apply Evo.elim
        | apply Evo.getD)
    | dsimp only | split

theorem evo_query {z : State} {s : State} {a2} {a3} (hs : Evo z s) :
    Evo z (Machine.query s a2 a3) := by
  unfold Machine.query
  repeat' first
    | (with_reducible first
        | assumption | apply evo_homeMsg | apply evo_answerQuery | apply Evo.foldl | apply Evo.foldl_fst | apply Evo.elim
        | apply Evo.getD)
    | simp only [evo_mk] | split | intro _

theorem evo_answerHeld {z : State} {s : State} (hs : Evo z s) :
    Evo z (Machine.answerHeld s) := by
  unfold Machine.answerHeld
  repeat' first
    | (with_reducible first
        | assumption | apply evo_answerQuery | apply Evo.foldl | apply Evo.foldl_fst | apply Evo.elim | apply Evo.getD)
    | simp only [evo_mk]

theorem evo_queryTimeout {z : State} {s : State} {a2} (hs : Evo z s) :
    Evo z (Machine.queryTimeout s a2) := by
  unfold Machine.queryTimeout
  repeat' first
    | (with_reducible first
        | assumption | apply evo_whenUp | apply evo_askHome | apply Evo.foldl | apply Evo.foldl_fst | apply Evo.elim
        | apply Evo.getD)
    | simp only [evo_mk] | split | intro _

theorem evo_stopServing {z : State} {s : State} {a2} (hs : Evo z s) :
    Evo z (Machine.stopServing s a2) := by
  unfold Machine.stopServing
  repeat' first
    | (with_reducible first
        | assumption | apply evo_localTake | apply Evo.foldl | apply Evo.foldl_fst | apply Evo.elim | apply Evo.getD)
    | simp only [evo_mk] | split

theorem evo_answerForQuery {z : State} {s : State} {a2} {a3} (hs : Evo z s) :
    Evo z (Machine.answerForQuery s a2 a3) := by
  unfold Machine.answerForQuery
  repeat' first
    | (with_reducible first
        | assumption | apply evo_localTake | apply evo_modReq | apply evo_stopServing | apply evo_notifyOwner
        | apply evo_askHome | apply evo_send | apply Evo.foldl | apply Evo.foldl_fst | apply Evo.elim | apply Evo.getD)
    | simp only [evo_mk] | split

theorem evo_answerForRenew {z : State} {s : State} {a2} {a3} (hs : Evo z s) :
    Evo z (Machine.answerForRenew s a2 a3) := by
  unfold Machine.answerForRenew
  repeat' first
    | (with_reducible first
        | assumption | apply evo_stopServing | apply Evo.foldl | apply Evo.foldl_fst | apply Evo.elim | apply Evo.getD)
    | simp only [evo_mk] | split

theorem evo_confirmTakes {z : State} {s : State} {a2} {a3} {a4} (hs : Evo z s) :
    Evo z (Machine.confirmTakes s a2 a3 a4) := by
  unfold Machine.confirmTakes
  repeat' first
    | (with_reducible first
        | assumption | apply evo_startTake | apply Evo.foldl | apply Evo.foldl_fst | apply Evo.elim | apply Evo.getD)
    | simp only [evo_mk] | split | intro _

theorem evo_claim {z : State} {s : State} {a2} {a3} (hs : Evo z s) :
    Evo z (Machine.claim s a2 a3) := by
  unfold Machine.claim
  repeat' first
    | (with_reducible first
        | assumption | apply evo_homeMsg | apply evo_sendAnswer | apply evo_setHolder | apply evo_confirmTakes
        | apply Evo.foldl | apply Evo.foldl_fst | apply Evo.elim | apply Evo.getD)
    | dsimp only | split | intro _

theorem evo_bucketCopy {z : State} {s : State} {a2} (hs : Evo z s) :
    Evo z (Machine.bucketCopy s a2) := by
  unfold Machine.bucketCopy
  repeat' first
    | (with_reducible first
        | assumption | apply evo_whenUp | apply evo_startTake | apply Evo.foldl | apply Evo.foldl_fst | apply Evo.elim
        | apply Evo.getD)
    | dsimp only | split | intro _

theorem evo_renewBuckets {z : State} {a1} {s : State} (hs : Evo z s) :
    Evo z (Machine.renewBuckets a1 s) := by
  unfold Machine.renewBuckets
  repeat' first
    | (with_reducible first
        | assumption | apply Evo.foldl | apply Evo.foldl_fst | apply Evo.elim | apply Evo.getD)
    | simp only [evo_mk] | split | intro _

theorem evo_mapSettle {z : State} {a1} {s : State} (hs : Evo z s) :
    Evo z (Machine.mapSettle a1 s) := by
  unfold Machine.mapSettle
  repeat' first
    | (with_reducible first
        | assumption | apply evo_renewBuckets | apply evo_coordLost | apply evo_askHome | apply Evo.foldl
        | apply Evo.foldl_fst | apply Evo.elim | apply Evo.getD)
    | dsimp only | split | intro _

end Sys2Proof.Laws
end

