-- ==== Sys2Proof/Laws/EvoTwin.lean ====
section
/-! SUPPORT. The operations of the continuity pair keep registers and memory in their canonical form, leave the queue alone, and
take nothing back that was sent (`Evo`). -/

namespace Sys2Proof.Laws

open Sys2Proof Sys2Proof.Machine

theorem evo_enterCon {z : State} {s : State} {a2} {a3} (hs : Evo z s) :
    Evo z (Machine.enterCon s a2 a3) := by
  unfold Machine.enterCon
  repeat' first
    | (with_reducible first
        | assumption | apply evo_openEvent | apply evo_wr | apply Evo.foldl | apply Evo.foldl_fst | apply Evo.elim
        | apply Evo.getD)
    | simp only [evo_mk] | split | intro _

theorem evo_conStatus {z : State} {s : State} {a2} (hs : Evo z s) :
    Evo z (Machine.conStatus s a2) := by
  unfold Machine.conStatus
  repeat' with_reducible first
    | assumption | apply evo_wr

theorem evo_beatSend {z : State} {s : State} (hs : Evo z s) :
    Evo z (Machine.beatSend s) := by
  unfold Machine.beatSend
  repeat' first
    | (with_reducible first
        | assumption | apply evo_whenUp | apply evo_emit | apply evo_send | apply Evo.foldl | apply Evo.foldl_fst
        | apply Evo.elim | apply Evo.getD)
    | simp only [evo_mk] | split | intro _

theorem evo_probe {z : State} {s : State} (hs : Evo z s) :
    Evo z (Machine.probe s) := by
  unfold Machine.probe
  repeat' first
    | (with_reducible first
        | assumption | apply evo_emit | apply evo_send | apply Evo.foldl | apply Evo.foldl_fst | apply Evo.elim
        | apply Evo.getD)
    | simp only [evo_mk] | split | intro _

theorem evo_mirrorFails {z : State} {s : State} (hs : Evo z s) :
    Evo z (Machine.mirrorFails s) := by
  unfold Machine.mirrorFails
  repeat' first
    | (with_reducible first
        | assumption | apply evo_probe | apply Evo.foldl | apply Evo.foldl_fst | apply Evo.elim | apply Evo.getD)
    | simp only [evo_mk] | split

theorem evo_mirrorAckTimeout {z : State} {s : State} (hs : Evo z s) :
    Evo z (Machine.mirrorAckTimeout s) := by
  unfold Machine.mirrorAckTimeout
  repeat' first
    | (with_reducible first
        | assumption | apply evo_whenUp | apply evo_mirrorFails | apply Evo.foldl | apply Evo.foldl_fst | apply Evo.elim
        | apply Evo.getD)
    | simp only [evo_mk] | split | intro _

theorem evo_beatMiss {z : State} {s : State} (hs : Evo z s) :
    Evo z (Machine.beatMiss s) := by
  unfold Machine.beatMiss
  repeat' first
    | (with_reducible first
        | assumption | apply evo_whenUp | apply evo_bump | apply evo_probe | apply Evo.foldl | apply Evo.foldl_fst
        | apply Evo.elim | apply Evo.getD)
    | simp only [evo_mk] | split | intro _

theorem evo_twinLossRenew {z : State} {s : State} (hs : Evo z s) :
    Evo z (Machine.twinLossRenew s) := by
  unfold Machine.twinLossRenew
  repeat' first
    | (with_reducible first
        | assumption | apply evo_sendRenew | apply Evo.foldl | apply Evo.foldl_fst | apply Evo.elim | apply Evo.getD)
    | simp only [evo_mk] | split | intro _

theorem evo_detach {z : State} {s : State} (hs : Evo z s) :
    Evo z (Machine.detach s) := by
  unfold Machine.detach
  repeat' with_reducible first
    | assumption | apply evo_flushReports | apply evo_releaseMirrors | apply evo_twinLossRenew | apply evo_enterCon

theorem evo_adoptPages {z : State} {s : State} {a2} (hs : Evo z s) :
    Evo z (Machine.adoptPages s a2) := by
  unfold Machine.adoptPages
  repeat' first
    | (with_reducible first
        | assumption | apply evo_setPte | apply evo_setFrame | apply Evo.foldl | apply Evo.foldl_fst | apply Evo.elim
        | apply Evo.getD)
    | dsimp only | split | intro _

theorem evo_adoptRequests {z : State} {s : State} {a2} {a3} (hs : Evo z s) :
    Evo z (Machine.adoptRequests s a2 a3) := by
  unfold Machine.adoptRequests
  repeat' first
    | (with_reducible first
        | assumption | apply Evo.foldl | apply Evo.foldl_fst | apply Evo.elim | apply Evo.getD)
    | simp only [evo_mk] | split | intro _

theorem evo_dropMirror {z : State} {s : State} {a2} (hs : Evo z s) :
    Evo z (Machine.dropMirror s a2) := by
  unfold Machine.dropMirror
  repeat' first
    | (with_reducible first
        | assumption | apply Evo.foldl | apply Evo.foldl_fst | apply Evo.elim | apply Evo.getD)
    | simp only [evo_mk]

theorem evo_adoptHomes {z : State} {s : State} (hs : Evo z s) :
    Evo z (Machine.adoptHomes s) := by
  unfold Machine.adoptHomes
  repeat' first
    | (with_reducible first
        | assumption | apply Evo.foldl | apply Evo.foldl_fst | apply Evo.elim | apply Evo.getD)
    | simp only [evo_mk] | split | intro _

theorem evo_adoptTransit {z : State} {s : State} {a2} {a3} (hs : Evo z s) :
    Evo z (Machine.adoptTransit s a2 a3) := by
  unfold Machine.adoptTransit
  repeat' first
    | (with_reducible first
        | assumption | apply evo_bump | apply evo_runLegs | apply evo_pin | apply evo_setTrav | apply evo_openTo
        | apply Evo.foldl | apply Evo.foldl_fst | apply Evo.elim | apply Evo.getD)
    | dsimp only | split

theorem evo_adoptIntent {z : State} {s : State} {a2} {a3} (hs : Evo z s) :
    Evo z (Machine.adoptIntent s a2 a3) := by
  unfold Machine.adoptIntent
  repeat' first
    | (with_reducible first
        | assumption | apply evo_setPart | apply evo_bump | apply evo_send | apply Evo.foldl | apply Evo.foldl_fst
        | apply Evo.elim | apply Evo.getD)
    | simp only [evo_mk] | split

theorem evo_resendDecision {z : State} {s : State} {a2} {a3} (hs : Evo z s) :
    Evo z (Machine.resendDecision s a2 a3) := by
  unfold Machine.resendDecision
  repeat' first
    | (with_reducible first
        | assumption | apply evo_sendAll | apply evo_finishPart | apply Evo.foldl | apply Evo.foldl_fst | apply Evo.elim
        | apply Evo.getD)
    | dsimp only | split

theorem evo_sendClaims {z : State} {s : State} {a2} {a3} (hs : Evo z s) :
    Evo z (Machine.sendClaims s a2 a3) := by
  unfold Machine.sendClaims
  repeat' first
    | (with_reducible first
        | assumption | apply evo_sendDtm | apply Evo.foldl | apply Evo.foldl_fst | apply Evo.elim | apply Evo.getD)
    | simp only [evo_mk] | split | intro _

theorem evo_takeover {z : State} {s : State} {a2} (hs : Evo z s) :
    Evo z (Machine.takeover s a2) := by
  unfold Machine.takeover
  repeat' first
    | (with_reducible first
        | assumption | apply evo_bump | apply evo_enterCon | apply evo_twinLossRenew | apply evo_adoptHomes
        | apply evo_adoptRequests | apply evo_adoptPages | apply evo_adoptTransit | apply evo_adoptIntent
        | apply evo_resendDecision | apply evo_sendClaims | apply evo_flushReports | apply evo_releaseMirrors
        | apply evo_dropMirror | apply Evo.foldl | apply Evo.foldl_fst | apply Evo.elim | apply Evo.getD)
    | simp only [evo_mk] | split | intro _

theorem evo_probeTimeout {z : State} {s : State} (hs : Evo z s) :
    Evo z (Machine.probeTimeout s) := by
  unfold Machine.probeTimeout
  repeat' first
    | (with_reducible first
        | assumption | apply evo_whenUp | apply evo_takeover | apply Evo.foldl | apply Evo.foldl_fst | apply Evo.elim
        | apply Evo.getD)
    | simp only [evo_mk] | split | intro _

theorem evo_probeReply {z : State} {s : State} {a2} (hs : Evo z s) :
    Evo z (Machine.probeReply s a2) := by
  unfold Machine.probeReply
  repeat' first
    | (with_reducible first
        | assumption | apply evo_whenUp | apply evo_openEvent | apply evo_wr | apply evo_detach | apply evo_twinLossRenew
        | apply evo_enterCon | apply Evo.foldl | apply Evo.foldl_fst | apply Evo.elim | apply Evo.getD)
    | simp only [evo_mk] | split | intro _

theorem evo_sendNow {z : State} {s : State} {a2} (hs : Evo z s) :
    Evo z (Machine.sendNow s a2) := by
  unfold Machine.sendNow
  repeat' first
    | (with_reducible first
        | assumption | apply evo_sendMirror | apply Evo.foldl | apply Evo.foldl_fst | apply Evo.elim | apply Evo.getD)
    | simp only [evo_mk] | split | intro _

theorem evo_startBulk {z : State} {s : State} (hs : Evo z s) :
    Evo z (Machine.startBulk s) := by
  unfold Machine.startBulk
  repeat' first
    | (with_reducible first
        | assumption | apply evo_sendNow | apply evo_wr | apply Evo.foldl | apply Evo.foldl_fst | apply Evo.elim
        | apply Evo.getD)
    | simp only [evo_mk]

theorem evo_startSupply {z : State} {s : State} (hs : Evo z s) :
    Evo z (Machine.startSupply s) := by
  unfold Machine.startSupply
  repeat' first
    | (with_reducible first
        | assumption | apply evo_enterCon | apply evo_wr | apply Evo.foldl | apply Evo.foldl_fst | apply Evo.elim
        | apply Evo.getD)
    | simp only [evo_mk] | split

theorem evo_reintegrate {z : State} {s : State} {a2} (hs : Evo z s) :
    Evo z (Machine.reintegrate s a2) := by
  unfold Machine.reintegrate
  repeat' first
    | (with_reducible first
        | assumption | apply evo_bar0 | apply evo_whenUp | apply evo_conStatus | apply evo_startSupply
        | apply evo_startBulk | apply Evo.foldl | apply Evo.foldl_fst | apply Evo.elim | apply Evo.getD)
    | dsimp only | split | intro _

theorem evo_replayPass {z : State} {s : State} (hs : Evo z s) :
    Evo z (Machine.replayPass s) := by
  unfold Machine.replayPass
  repeat' first
    | (with_reducible first
        | assumption | apply evo_sendMirror | apply Evo.foldl | apply Evo.foldl_fst | apply Evo.elim | apply Evo.getD)
    | simp only [evo_mk] | split | intro _

theorem evo_reintBulkDone {z : State} {s : State} (hs : Evo z s) :
    Evo z (Machine.reintBulkDone s) := by
  unfold Machine.reintBulkDone
  repeat' first
    | (with_reducible first
        | assumption | apply evo_whenUp | apply evo_replayPass | apply evo_wr | apply Evo.foldl | apply Evo.foldl_fst
        | apply Evo.elim | apply Evo.getD)
    | simp only [evo_mk] | split | intro _

theorem evo_rejoinMark {z : State} {s : State} {a2} (hs : Evo z s) :
    Evo z (Machine.rejoinMark s a2) := by
  unfold Machine.rejoinMark
  repeat' first
    | (with_reducible first
        | assumption | apply evo_startTake | apply Evo.foldl | apply Evo.foldl_fst | apply Evo.elim | apply Evo.getD)
    | simp only [evo_mk]

theorem evo_reintReplayPassDone {z : State} {s : State} (hs : Evo z s) :
    Evo z (Machine.reintReplayPassDone s) := by
  unfold Machine.reintReplayPassDone
  repeat' first
    | (with_reducible first
        | assumption | apply evo_whenUp | apply evo_rejoinMark | apply evo_wr | apply evo_replayPass | apply Evo.foldl
        | apply Evo.foldl_fst | apply Evo.elim | apply Evo.getD)
    | simp only [evo_mk] | split | intro _

theorem evo_rejoinEnded {z : State} {s : State} {a2} (hs : Evo z s) :
    Evo z (Machine.rejoinEnded s a2) := by
  unfold Machine.rejoinEnded
  repeat' first
    | (with_reducible first
        | assumption | apply evo_replayPass | apply evo_startTake | apply Evo.foldl | apply Evo.foldl_fst | apply Evo.elim
        | apply Evo.getD)
    | simp only [evo_mk] | split

theorem evo_yieldBack {z : State} {s : State} {a2} (hs : Evo z s) :
    Evo z (Machine.yieldBack s a2) := by
  unfold Machine.yieldBack
  repeat' first
    | (with_reducible first
        | assumption | apply Evo.foldl | apply Evo.foldl_fst | apply Evo.elim | apply Evo.getD)
    | simp only [evo_mk]

theorem evo_becomePaired {z : State} {s : State} (hs : Evo z s) :
    Evo z (Machine.becomePaired s) := by
  unfold Machine.becomePaired
  repeat' first
    | (with_reducible first
        | assumption | apply evo_wr | apply evo_enterCon | apply evo_flushReports | apply evo_mirrorOne
        | apply evo_openEvent | apply Evo.foldl | apply Evo.foldl_fst | apply Evo.elim | apply Evo.getD)
    | simp only [evo_mk] | split | intro _

theorem evo_cutoverEnded {z : State} {s : State} {a2} (hs : Evo z s) :
    Evo z (Machine.cutoverEnded s a2) := by
  unfold Machine.cutoverEnded
  repeat' first
    | (with_reducible first
        | assumption | apply evo_becomePaired | apply evo_yieldBack | apply evo_mirrorOne | apply evo_startTake
        | apply Evo.foldl | apply Evo.foldl_fst | apply Evo.elim | apply Evo.getD)
    | simp only [evo_mk] | split | intro _

theorem evo_rejoined {z : State} {a1} {s : State} (hs : Evo z s) :
    Evo z (Machine.rejoined a1 s) := by
  unfold Machine.rejoined
  repeat' first
    | (with_reducible first
        | assumption | apply evo_adoptRequests | apply evo_adoptPages | apply evo_adoptTransit | apply evo_dropMirror
        | apply evo_becomePaired | apply Evo.foldl | apply Evo.foldl_fst | apply Evo.elim | apply Evo.getD)
    | simp only [evo_mk] | split | intro _

theorem evo_deltaFull {z : State} {s : State} (hs : Evo z s) :
    Evo z (Machine.deltaFull s) := by
  unfold Machine.deltaFull
  repeat' first
    | (with_reducible first
        | assumption | apply evo_startBulk | apply evo_openEvent | apply Evo.foldl | apply Evo.foldl_fst | apply Evo.elim
        | apply Evo.getD)
    | simp only [evo_mk] | split

theorem evo_reintRestart {z : State} {s : State} (hs : Evo z s) :
    Evo z (Machine.reintRestart s) := by
  unfold Machine.reintRestart
  repeat' with_reducible first
    | assumption | apply evo_openEvent | apply evo_bump

theorem evo_conStart {z : State} {s : State} (hs : Evo z s) :
    Evo z (Machine.conStart s) := by
  unfold Machine.conStart
  repeat' first
    | (with_reducible first
        | assumption | apply evo_wr | apply evo_enterCon | apply evo_twinLossRenew | apply Evo.foldl | apply Evo.foldl_fst
        | apply Evo.elim | apply Evo.getD)
    | simp only [evo_mk] | split

theorem evo_conStop {z : State} {s : State} (hs : Evo z s) :
    Evo z (Machine.conStop s) := by
  unfold Machine.conStop
  repeat' first
    | (with_reducible first
        | assumption | apply evo_releaseMirrors | apply evo_wr | apply evo_enterCon | apply Evo.foldl | apply Evo.foldl_fst
        | apply Evo.elim | apply Evo.getD)
    | simp only [evo_mk] | split

theorem evo_conEnable {z : State} {s : State} {a2} (hs : Evo z s) :
    Evo z (Machine.conEnable s a2) := by
  unfold Machine.conEnable
  repeat' first
    | (with_reducible first
        | assumption | apply evo_bar0 | apply evo_wr | apply evo_conStart | apply evo_flushReports | apply evo_conStop
        | apply Evo.foldl | apply Evo.foldl_fst | apply Evo.elim | apply Evo.getD)
    | dsimp only | split | intro _

theorem evo_conMapSettle {z : State} {a1} {s : State} (hs : Evo z s) :
    Evo z (Machine.conMapSettle a1 s) := by
  unfold Machine.conMapSettle
  repeat' first
    | (with_reducible first
        | assumption | apply evo_flushReports | apply evo_conStop | apply evo_conStart | apply evo_rejoined
        | apply Evo.foldl | apply Evo.foldl_fst | apply Evo.elim | apply Evo.getD)
    | simp only [evo_mk] | split

theorem evo_beginYield {z : State} {s : State} (hs : Evo z s) :
    Evo z (Machine.beginYield s) := by
  unfold Machine.beginYield
  repeat' first
    | (with_reducible first
        | assumption | apply Evo.foldl | apply Evo.foldl_fst | apply Evo.elim | apply Evo.getD)
    | simp only [evo_mk]

theorem evo_yield {z : State} {s : State} (hs : Evo z s) :
    Evo z (Machine.yield s) := by
  unfold Machine.yield
  repeat' first
    | (with_reducible first
        | assumption | apply evo_bar0 | apply evo_conStatus | apply evo_beginYield | apply Evo.foldl | apply Evo.foldl_fst
        | apply Evo.elim | apply Evo.getD)
    | simp only [evo_mk] | split | intro _

theorem evo_yieldSettle {z : State} {s : State} (hs : Evo z s) :
    Evo z (Machine.yieldSettle s) := by
  unfold Machine.yieldSettle
  repeat' first
    | (with_reducible first
        | assumption | apply evo_conStatus | apply Evo.foldl | apply Evo.foldl_fst | apply Evo.elim | apply Evo.getD)
    | simp only [evo_mk] | split

theorem evo_seeTwin {z : State} {s : State} {a2} {a3} {a4} (hs : Evo z s) :
    Evo z (Machine.seeTwin s a2 a3 a4) := by
  unfold Machine.seeTwin
  repeat' first
    | (with_reducible first
        | assumption | apply evo_takeover | apply evo_detach | apply evo_startSupply | apply evo_reintRestart
        | apply evo_dropMirror | apply evo_becomePaired | apply evo_probe | apply Evo.foldl | apply Evo.foldl_fst
        | apply Evo.elim | apply Evo.getD)
    | dsimp only | split

theorem evo_beat {z : State} {s : State} {a2} {a3} (hs : Evo z s) :
    Evo z (Machine.beat s a2 a3) := by
  unfold Machine.beat
  repeat' first
    | (with_reducible first
        | assumption | apply evo_whenUp | apply evo_wr | apply evo_flushReports | apply evo_seeTwin | apply Evo.foldl
        | apply Evo.foldl_fst | apply Evo.elim | apply Evo.getD)
    | simp only [evo_mk] | split | intro _

theorem evo_freeMirror {z : State} {s : State} {a2} (hs : Evo z s) :
    Evo z (Machine.freeMirror s a2) := by
  unfold Machine.freeMirror
  repeat' first
    | (with_reducible first
        | assumption | apply evo_localTake | apply Evo.foldl | apply Evo.foldl_fst | apply Evo.elim | apply Evo.getD)
    | simp only [evo_mk] | split

theorem evo_modMir {z : State} {s : State} {a2} (hs : Evo z s) :
    Evo z (Machine.modMir s a2) := by
  unfold Machine.modMir
  repeat' first
    | (with_reducible first
        | assumption | apply Evo.foldl | apply Evo.foldl_fst | apply Evo.elim | apply Evo.getD)
    | simp only [evo_mk]

theorem evo_mirrorFrame {z s t : State} {c f} (hs : Evo z s) (ht : mirrorFrame s c = some (t, f)) : Evo z t := by
  unfold Machine.mirrorFrame at ht
  repeat' first
    | (with_reducible first
        | assumption | apply evo_setFrame | apply evo_localTake | apply evo_evictClass)
    | split at ht | dsimp only at ht | (obtain ⟨rfl, rfl⟩ := Prod.mk.inj (Option.some.inj ht)) | cases ht

theorem evo_mirrorEntry {z : State} {s : State} {a2} {a3} {a4} {t : State} (hs : Evo z s)
    (ht : Machine.mirrorEntry s a2 a3 a4 = some t) :
    Evo z t := by
  unfold Machine.mirrorEntry at ht
  repeat' first
    | (with_reducible first
        | assumption | apply evo_modMir | apply evo_freeMirror | apply Evo.foldl | apply Evo.foldl_fst | apply Evo.elim
        | apply Evo.getD | exact Evo.refl _)
    | (refine evo_mirrorFrame ?_ (by with_reducible assumption)) | simp only [evo_mk] | split | intro _ | split at ht
    | dsimp only at ht | (obtain rfl := Option.some.inj ht) | cases ht

theorem evo_mirrorScratch {z : State} {s : State} (hs : Evo z s) :
    Evo z (Machine.mirrorScratch s) := by
  unfold Machine.mirrorScratch
  repeat' first
    | (with_reducible first
        | assumption | apply evo_wr | apply Evo.foldl | apply Evo.foldl_fst | apply Evo.elim | apply Evo.getD)
    | simp only [evo_mk]

theorem evo_mirrorCommit {z : State} {s : State} {a2} {a3} {a4} {a5} {a6} (hs : Evo z s) :
    Evo z (Machine.mirrorCommit s a2 a3 a4 a5 a6) := by
  unfold Machine.mirrorCommit
  split
  · exact hs
  · apply evo_modMir
    exact ⟨hs.regs, fun k =>
      (evo_countTokens (evo_spliceCopies (evo_mirrorScratch (Evo.refl s)))).hbm (hs.hbm k), hs.pending, hs.out, hs.fuses⟩

theorem evo_applyMirror {z : State} {s : State} {a2} {t : State} (hs : Evo z s) (ht : Machine.applyMirror s a2 = some t) :
    Evo z t := by
  unfold Machine.applyMirror at ht
  repeat' first
    | (with_reducible first
        | assumption | apply evo_writeMem | apply evo_modMir | apply evo_mirrorCommit | apply evo_freeMirror
        | apply evo_dropMirror | apply Evo.foldl | apply Evo.foldl_fst | apply Evo.elim | apply Evo.getD
        | exact Evo.refl _)
    | simp only [evo_mk] | split | intro _ | (refine evo_mirrorEntry (ht := by with_reducible assumption) ?_) | split at ht
    | dsimp only at ht | (obtain rfl := Option.some.inj ht)

theorem evo_auditFail {z : State} {s : State} (hs : Evo z s) :
    Evo z (Machine.auditFail s) := by
  unfold Machine.auditFail
  repeat' with_reducible first
    | assumption | apply evo_openEvent | apply evo_bump

theorem evo_applyEarly {z : State} {a1} {s : State} {a3} (hs : Evo z s) :
    Evo z (Machine.applyEarly a1 s a3).1 := by
  induction a1 generalizing s a3 with
  | zero =>
    unfold Machine.applyEarly
    repeat' with_reducible first
      | assumption
  | succ n ih =>
    unfold Machine.applyEarly
    repeat' first
      | (with_reducible first
          | assumption | apply ih | apply evo_auditFail | apply Evo.foldl | apply Evo.foldl_fst | apply Evo.elim
          | apply Evo.getD | exact Evo.refl _)
      | simp only [evo_mk] | split | intro _ | (refine evo_applyMirror (ht := by with_reducible assumption) ?_)

theorem evo_mirrorRecord {z : State} {s : State} {a2} {a3} (hs : Evo z s) :
    Evo z (Machine.mirrorRecord s a2 a3) := by
  unfold Machine.mirrorRecord
  repeat' first
    | (with_reducible first
        | assumption | apply evo_whenUp | apply evo_respond | apply evo_detach | apply evo_applyEarly | apply Evo.foldl
        | apply Evo.foldl_fst | apply Evo.elim | apply Evo.getD)
    | simp only [evo_mk] | split | intro _

theorem evo_auditTick {z : State} {s : State} (hs : Evo z s) :
    Evo z (Machine.auditTick s) := by
  unfold Machine.auditTick
  repeat' first
    | (with_reducible first
        | assumption | apply evo_whenUp | apply evo_mirrorRec | apply Evo.foldl | apply Evo.foldl_fst | apply Evo.elim
        | apply Evo.getD)
    | simp only [evo_mk] | split | intro _

theorem evo_compareProbe {z : State} {s : State} {a2} (hs : Evo z s) :
    Evo z (Machine.compareProbe s a2) := by
  unfold Machine.compareProbe
  repeat' first
    | (with_reducible first
        | assumption | apply evo_whenUp | apply evo_conStatus | apply evo_openEvent | apply evo_bump | apply evo_beginYield
        | apply Evo.foldl | apply Evo.foldl_fst | apply Evo.elim | apply Evo.getD)
    | dsimp only | split | intro _

theorem evo_dropClaimed {z : State} {s : State} {a2} (hs : Evo z s) :
    Evo z (Machine.dropClaimed s a2) := by
  unfold Machine.dropClaimed
  repeat' first
    | (with_reducible first
        | assumption | apply evo_freePages | apply Evo.foldl | apply Evo.foldl_fst | apply Evo.elim | apply Evo.getD)
    | simp only [evo_mk]

theorem evo_answerForClaim {z : State} {s : State} {a2} {a3} (hs : Evo z s) :
    Evo z (Machine.answerForClaim s a2 a3) := by
  unfold Machine.answerForClaim
  repeat' first
    | (with_reducible first
        | assumption | apply evo_sendClaims | apply evo_send | apply evo_dropClaimed | apply Evo.foldl
        | apply Evo.foldl_fst | apply Evo.elim | apply Evo.getD)
    | simp only [evo_mk] | split

theorem evo_answer {z : State} {s : State} {a2} {a3} (hs : Evo z s) :
    Evo z (Machine.answer s a2 a3) := by
  unfold Machine.answer
  repeat' first
    | (with_reducible first
        | assumption | apply evo_whenUp | apply evo_answerForQuery | apply evo_answerForClaim | apply evo_freePages
        | apply evo_answerForRenew | apply evo_flushReports | apply Evo.foldl | apply Evo.foldl_fst | apply Evo.elim
        | apply Evo.getD)
    | simp only [evo_mk] | split | intro _

theorem evo_claimResend {z : State} {s : State} {a2} {a3} (hs : Evo z s) :
    Evo z (Machine.claimResend s a2 a3) := by
  unfold Machine.claimResend
  repeat' first
    | (with_reducible first
        | assumption | apply evo_whenUp | apply evo_sendClaims | apply Evo.foldl | apply Evo.foldl_fst | apply Evo.elim
        | apply Evo.getD)
    | simp only [evo_mk] | split | intro _

end Sys2Proof.Laws
end

