-- ==== Sys2Proof/Laws/EvoClk.lean ====
section
/-! SUPPORT. The operations of the clocks and resets keep registers and memory in their canonical form, leave the queue alone, and
take nothing back that was sent (`Evo`). -/

namespace Sys2Proof.Laws

open Sys2Proof Sys2Proof.Machine

theorem evo_keptRegs {z : State} {s : State} {a2} {s2 : State} (_hs : Evo z s) (hs2 : Evo z s2) :
    Evo z (Machine.keptRegs s a2 s2) := by
  unfold Machine.keptRegs
  repeat' first
    | (with_reducible first
        | assumption | apply evo_wri | apply evo_wr | apply Evo.foldl | apply Evo.foldl_fst | apply Evo.elim
        | apply Evo.getD)
    | simp only [evo_mk] | split | intro _

theorem evo_resetRecords {z : State} {s : State} {a2} {s2 : State} (_hs : Evo z s) (hs2 : Evo z s2) :
    Evo z (Machine.resetRecords s a2 s2) := by
  unfold Machine.resetRecords
  repeat' first
    | (with_reducible first
        | assumption | apply evo_recordRetire | apply Evo.foldl | apply Evo.foldl_fst | apply Evo.elim | apply Evo.getD)
    | simp only [evo_mk] | split | intro _

theorem evo_resetMachine {z : State} {s : State} {a2} {a3} {a4} (hs : Evo z s) :
    Evo z (Machine.resetMachine s a2 a3 a4) := by
  have h := evo_flushRecords hs
  unfold Machine.resetMachine
  dsimp only
  refine evo_checkReplace (evo_resetRecords h (evo_wr (evo_wr (evo_keptRegs h ⟨fun _ => rfl, ?_, h.pending, ?_, h.fuses⟩))))
  · intro k
    show Memory.wf (if _ then _ else _) = true
    split
    · rfl
    · exact wf_filter _ _ (h.hbm k)
  · refine h.out.trans ?_
    simp only [List.append_assoc]
    exact List.prefix_append _ _

theorem evo_clkShow {z : State} {s : State} (hs : Evo z s) :
    Evo z (Machine.clkShow s) := by
  unfold Machine.clkShow
  repeat' with_reducible first
    | assumption | apply evo_wr

theorem evo_trimChange {z : State} {s : State} {s2 : State} (_hs : Evo z s) (hs2 : Evo z s2) :
    Evo z (Machine.trimChange s s2) := by
  unfold Machine.trimChange
  repeat' first
    | (with_reducible first
        | assumption | apply evo_clkShow | apply evo_bump | apply Evo.foldl | apply Evo.foldl_fst | apply Evo.elim
        | apply Evo.getD)
    | simp only [evo_mk] | split

theorem evo_modClk {z : State} {s : State} {a2} (hs : Evo z s) :
    Evo z (Machine.modClk s a2) := by
  unfold Machine.modClk
  repeat' first
    | (with_reducible first
        | assumption | apply Evo.foldl | apply Evo.foldl_fst | apply Evo.elim | apply Evo.getD)
    | simp only [evo_mk]

theorem evo_controllerResetBy {z : State} {s : State} {a2} {a3} (hs : Evo z s) :
    Evo z (Machine.controllerResetBy s a2 a3) := by
  unfold Machine.controllerResetBy
  repeat' first
    | (with_reducible first
        | assumption | apply evo_resetMachine | apply evo_trimChange | apply evo_modClk | apply Evo.foldl
        | apply Evo.foldl_fst | apply Evo.elim | apply Evo.getD)
    | dsimp only | split

theorem evo_controllerReset {z : State} {s : State} {a2} (hs : Evo z s) :
    Evo z (Machine.controllerReset s a2) := by
  unfold Machine.controllerReset
  repeat' first
    | (with_reducible first
        | assumption | apply evo_bar0 | apply evo_controllerResetBy | apply Evo.foldl | apply Evo.foldl_fst
        | apply Evo.elim | apply Evo.getD)
    | simp only [evo_mk] | split | intro _

theorem evo_crstFall {z : State} {s : State} (hs : Evo z s) :
    Evo z (Machine.crstFall s) := by
  unfold Machine.crstFall
  repeat' with_reducible first
    | assumption | apply evo_modClk | apply evo_controllerResetBy

theorem evo_crstRelease {z : State} {s : State} (hs : Evo z s) :
    Evo z (Machine.crstRelease s) := by
  unfold Machine.crstRelease
  repeat' with_reducible first
    | assumption | apply evo_modClk

theorem evo_raiseFault {z : State} {s : State} {a2} {a3} {a4} (hs : Evo z s) :
    Evo z (Machine.raiseFault s a2 a3 a4) := by
  unfold Machine.raiseFault
  repeat' with_reducible first
    | assumption | apply evo_modClk | apply evo_postEvent

theorem evo_controllerFault {z : State} {s : State} {a2} (hs : Evo z s) :
    Evo z (Machine.controllerFault s a2) := by
  unfold Machine.controllerFault
  repeat' first
    | (with_reducible first
        | assumption | apply evo_raiseFault | apply evo_controllerResetBy | apply Evo.foldl | apply Evo.foldl_fst
        | apply Evo.elim | apply Evo.getD)
    | dsimp only | split

theorem evo_porst {z : State} {s : State} (hs : Evo z s) :
    Evo z (Machine.porst s) := by
  unfold Machine.porst
  repeat' with_reducible first
    | assumption | apply evo_modClk | apply evo_resetMachine

theorem evo_porstRelease {z : State} {s : State} {a2} {a3} {a4} (hs : Evo z s) :
    Evo z (Machine.porstRelease s a2 a3 a4) := by
  unfold Machine.porstRelease
  repeat' first
    | (with_reducible first
        | assumption | apply evo_modClk | apply evo_recordRetire | apply evo_wr | apply Evo.foldl | apply Evo.foldl_fst
        | apply Evo.elim | apply Evo.getD)
    | simp only [evo_mk] | split | intro _

theorem evo_railFault {z : State} {s : State} {a2} (hs : Evo z s) :
    Evo z (Machine.railFault s a2) := by
  unfold Machine.railFault
  repeat' with_reducible first
    | assumption | apply evo_modClk | apply evo_resetMachine

theorem evo_railRecovery {z : State} {s : State} (hs : Evo z s) :
    Evo z (Machine.railRecovery s) := by
  unfold Machine.railRecovery
  repeat' with_reducible first
    | assumption | apply evo_modClk

theorem evo_droopTrip {z : State} {s : State} {a2} (hs : Evo z s) :
    Evo z (Machine.droopTrip s a2) := by
  unfold Machine.droopTrip
  repeat' first
    | (with_reducible first
        | assumption | apply evo_modClk | apply evo_bump | apply evo_clkShow | apply evo_wr | apply Evo.foldl
        | apply Evo.foldl_fst | apply Evo.elim | apply Evo.getD)
    | dsimp only | split

theorem evo_droopClear {z : State} {s : State} (hs : Evo z s) :
    Evo z (Machine.droopClear s) := by
  unfold Machine.droopClear
  repeat' with_reducible first
    | assumption | apply evo_modClk

theorem evo_droopRecovery {z : State} {s : State} (hs : Evo z s) :
    Evo z (Machine.droopRecovery s) := by
  unfold Machine.droopRecovery
  repeat' first
    | (with_reducible first
        | assumption | apply evo_clkShow | apply evo_wr | apply Evo.foldl | apply Evo.foldl_fst | apply Evo.elim
        | apply Evo.getD)
    | simp only [evo_mk] | split

theorem evo_powerWindow {z : State} {s : State} {a2} (hs : Evo z s) :
    Evo z (Machine.powerWindow s a2) := by
  unfold Machine.powerWindow
  repeat' first
    | (with_reducible first
        | assumption | apply evo_trimChange | apply evo_modClk | apply Evo.foldl | apply Evo.foldl_fst | apply Evo.elim
        | apply Evo.getD)
    | dsimp only | split

theorem evo_idleGate {z : State} {s : State} {a2} (hs : Evo z s) :
    Evo z (Machine.idleGate s a2) := by
  unfold Machine.idleGate
  repeat' first
    | (with_reducible first
        | assumption | apply evo_whenUp | apply evo_clkShow | apply evo_modClk | apply Evo.foldl | apply Evo.foldl_fst
        | apply Evo.elim | apply Evo.getD)
    | simp only [evo_mk] | split | intro _

theorem evo_ungate {z : State} {s : State} (hs : Evo z s) :
    Evo z (Machine.ungate s) := by
  unfold Machine.ungate
  repeat' first
    | (with_reducible first
        | assumption | apply evo_clkShow | apply evo_modClk | apply Evo.foldl | apply Evo.foldl_fst | apply Evo.elim
        | apply Evo.getD)
    | simp only [evo_mk] | split

theorem evo_stopPorts {z : State} {s : State} (hs : Evo z s) :
    Evo z (Machine.stopPorts s) := by
  unfold Machine.stopPorts
  repeat' first
    | (with_reducible first
        | assumption | apply evo_setPortState | apply evo_clearPort | apply Evo.foldl | apply Evo.foldl_fst
        | apply Evo.elim | apply Evo.getD)
    | simp only [evo_mk] | split | intro _

theorem evo_flushMerge {z : State} {s : State} (hs : Evo z s) :
    Evo z (Machine.flushMerge s) := by
  unfold Machine.flushMerge
  repeat' with_reducible first
    | assumption | apply evo_mergeAll | apply evo_modFlt

theorem evo_hold {z : State} {s : State} (hs : Evo z s) :
    Evo z (Machine.hold s) := by
  unfold Machine.hold
  repeat' first
    | (with_reducible first
        | assumption | apply evo_bar0 | apply evo_emit | apply evo_clkShow | apply evo_modClk | apply evo_flushMerge
        | apply evo_stopPorts | apply Evo.foldl | apply Evo.foldl_fst | apply Evo.elim | apply Evo.getD)
    | simp only [evo_mk] | split | intro _

theorem evo_resume {z : State} {s : State} (hs : Evo z s) :
    Evo z (Machine.resume s) := by
  unfold Machine.resume
  repeat' first
    | (with_reducible first
        | assumption | apply evo_bar0 | apply evo_enterTrain | apply evo_clkShow | apply evo_modClk | apply Evo.foldl
        | apply Evo.foldl_fst | apply Evo.elim | apply Evo.getD)
    | simp only [evo_mk] | split | intro _

theorem evo_hbmCmdEnd {z : State} {s : State} {a2} (hs : Evo z s) :
    Evo z (Machine.hbmCmdEnd s a2) := by
  unfold Machine.hbmCmdEnd
  repeat' with_reducible first
    | assumption | apply evo_wr | apply evo_modClk

theorem evo_hbmCmdFail {z : State} {s : State} {a2} {a3} (hs : Evo z s) :
    Evo z (Machine.hbmCmdFail s a2 a3) := by
  unfold Machine.hbmCmdFail
  repeat' with_reducible first
    | assumption | apply evo_wr | apply evo_hbmCmdEnd

theorem evo_hbmCmdBegin {z : State} {s : State} {a2} {a3} {a4} {a5 : State → State} (hs : Evo z s)
    (ha5 : ∀ x0, Evo z x0 → Evo z (a5 x0)) :
    Evo z (Machine.hbmCmdBegin s a2 a3 a4 a5) := by
  unfold Machine.hbmCmdBegin
  repeat' first
    | (with_reducible first
        | assumption | apply ha5 | apply evo_wr | apply evo_hbmCmdFail | apply evo_modClk | apply Evo.foldl
        | apply Evo.foldl_fst | apply Evo.elim | apply Evo.getD)
    | dsimp only | split

theorem evo_trustGranule {z : State} {s : State} {a2} (hs : Evo z s) :
    Evo z (Machine.trustGranule s a2) := by
  unfold Machine.trustGranule
  repeat' with_reducible first
    | assumption | apply evo_modClk | apply evo_wr

theorem evo_checkEnd {z : State} {s : State} {a2} (hs : Evo z s) :
    Evo z (Machine.checkEnd s a2) := by
  unfold Machine.checkEnd
  repeat' first
    | (with_reducible first
        | assumption | apply evo_hbmCmdFail | apply evo_hbmCmdEnd | apply Evo.foldl | apply Evo.foldl_fst | apply Evo.elim
        | apply Evo.getD)
    | simp only [evo_mk] | split

theorem evo_checkNext {z : State} {a1} {s : State} {a3} (hs : Evo z s) :
    Evo z (Machine.checkNext a1 s a3) := by
  induction a1 generalizing s a3 with
  | zero =>
    unfold Machine.checkNext
    repeat' with_reducible first
      | assumption | apply evo_checkEnd
  | succ n ih =>
    unfold Machine.checkNext
    repeat' first
      | (with_reducible first
          | assumption | apply ih | apply evo_checkEnd | apply evo_emit | apply evo_modClk | apply Evo.foldl
          | apply Evo.foldl_fst | apply Evo.elim | apply Evo.getD)
      | dsimp only | split

theorem evo_hbmCheck {z : State} {s : State} {a2} {a3} (hs : Evo z s) :
    Evo z (Machine.hbmCheck s a2 a3) := by
  unfold Machine.hbmCheck
  repeat' first
    | (with_reducible first
        | assumption | apply evo_bar0 | apply evo_hbmCmdBegin | apply evo_hbmCmdFail | apply evo_checkNext
        | apply Evo.foldl | apply Evo.foldl_fst | apply Evo.elim | apply Evo.getD)
    | simp only [evo_mk] | split | intro _

theorem evo_hbmCheckReply {z : State} {s : State} {a2} (hs : Evo z s) :
    Evo z (Machine.hbmCheckReply s a2) := by
  unfold Machine.hbmCheckReply
  repeat' first
    | (with_reducible first
        | assumption | apply evo_hbmCmdFail | apply evo_checkNext | apply evo_trustGranule | apply Evo.foldl
        | apply Evo.foldl_fst | apply Evo.elim | apply Evo.getD)
    | dsimp only | split

theorem evo_hbmCheckCrcRequest {z : State} {s : State} {a2} (hs : Evo z s) :
    Evo z (Machine.hbmCheckCrcRequest s a2) := by
  unfold Machine.hbmCheckCrcRequest
  repeat' first
    | (with_reducible first
        | assumption | apply evo_whenUp | apply evo_emit | apply Evo.foldl | apply Evo.foldl_fst | apply Evo.elim
        | apply Evo.getD)
    | dsimp only | split | intro _

theorem evo_hbmClear {z : State} {s : State} {a2} {a3} (hs : Evo z s) :
    Evo z (Machine.hbmClear s a2 a3) := by
  unfold Machine.hbmClear
  repeat' first
    | (with_reducible first
        | assumption | apply evo_bar0 | apply evo_hbmCmdBegin | apply Evo.foldl | apply Evo.foldl_fst | apply Evo.elim
        | apply Evo.getD)
    | simp only [id] | simp only [evo_mk] | split | intro _

theorem evo_hbmClearDone {z : State} {s : State} (hs : Evo z s) :
    Evo z (Machine.hbmClearDone s) := by
  unfold Machine.hbmClearDone
  repeat' first
    | (with_reducible first
        | assumption | apply evo_hbmCmdEnd | apply evo_trustGranule | apply evo_zeroMem | apply Evo.foldl
        | apply Evo.foldl_fst | apply Evo.elim | apply Evo.getD)
    | dsimp only | split | intro _

end Sys2Proof.Laws
end

