-- ==== Sys2Proof/Laws/EvoMem.lean ====
section
/-! SUPPORT. The operations of the memory keep registers and memory in their canonical form, leave the queue alone, and
take nothing back that was sent (`Evo`). -/

namespace Sys2Proof.Laws

open Sys2Proof Sys2Proof.Machine

theorem evo_modPc {z : State} {s : State} {a2} {a3} (hs : Evo z s) :
    Evo z (Machine.modPc s a2 a3) := by
  unfold Machine.modPc
  repeat' first
    | (with_reducible first
        | assumption | apply Evo.foldl | apply Evo.foldl_fst | apply Evo.elim | apply Evo.getD)
    | simp only [evo_mk]

theorem evo_becomeSuspect {z : State} {s : State} {a2} (hs : Evo z s) :
    Evo z (Machine.becomeSuspect s a2) := by
  unfold Machine.becomeSuspect
  repeat' first
    | (with_reducible first
        | assumption | apply evo_openEvent | apply evo_addRetire | apply evo_modPc | apply Evo.foldl | apply Evo.foldl_fst
        | apply Evo.elim | apply Evo.getD)
    | simp only [evo_mk] | split

theorem evo_repairRow {z : State} {s : State} {a2} {a3} {a4} (hs : Evo z s) :
    Evo z (Machine.repairRow s a2 a3 a4) := by
  unfold Machine.repairRow
  repeat' first
    | (with_reducible first
        | assumption | apply evo_becomeSuspect | apply evo_recordRetire | apply evo_bump | apply evo_modPc
        | apply evo_addRetire | apply Evo.foldl | apply Evo.foldl_fst | apply Evo.elim | apply Evo.getD)
    | simp only [evo_mk] | split

theorem evo_failSramRow {z : State} {s : State} {a2} {a3} (hs : Evo z s) :
    Evo z (Machine.failSramRow s a2 a3) := by
  unfold Machine.failSramRow
  repeat' first
    | (with_reducible first
        | assumption | apply evo_addRetire | apply evo_recordRetire | apply Evo.foldl | apply Evo.foldl_fst
        | apply Evo.elim | apply Evo.getD)
    | simp only [evo_mk] | split

theorem evo_countRow {z : State} {s : State} {a2} (hs : Evo z s) :
    Evo z (Machine.countRow s a2).1 := by
  unfold Machine.countRow
  repeat' first
    | (with_reducible first
        | assumption | apply Evo.foldl | apply Evo.foldl_fst | apply Evo.elim | apply Evo.getD)
    | simp only [evo_mk]

theorem evo_newPass {z : State} {s : State} {a2} (hs : Evo z s) :
    Evo z (Machine.newPass s a2) := by
  unfold Machine.newPass
  repeat' first
    | (with_reducible first
        | assumption | apply Evo.foldl | apply Evo.foldl_fst | apply Evo.elim | apply Evo.getD)
    | simp only [evo_mk] | split

theorem evo_listLine {z : State} {s : State} {a2} {a3} (hs : Evo z s) :
    Evo z (Machine.listLine s a2 a3) := by
  unfold Machine.listLine
  repeat' first
    | (with_reducible first
        | assumption | apply evo_raiseFault | apply Evo.foldl | apply Evo.foldl_fst | apply Evo.elim | apply Evo.getD)
    | simp only [evo_mk] | split

theorem evo_uncorrectable {z : State} {s : State} {a2} {a3} (hs : Evo z s) :
    Evo z (Machine.uncorrectable s a2 a3) := by
  unfold Machine.uncorrectable
  repeat' first
    | (with_reducible first
        | assumption | apply evo_bump | apply evo_raiseFault | apply evo_record | apply Evo.foldl | apply Evo.foldl_fst
        | apply Evo.elim | apply Evo.getD)
    | dsimp only | split

theorem evo_correctHbm {z : State} {s : State} {a2} {a3} (hs : Evo z s) :
    Evo z (Machine.correctHbm s a2 a3) := by
  unfold Machine.correctHbm
  repeat' first
    | (with_reducible first
        | assumption | apply evo_modPc | apply evo_bump | apply evo_writeMem | apply evo_countRow | apply evo_repairRow
        | apply Evo.foldl | apply Evo.foldl_fst | apply Evo.elim | apply Evo.getD)
    | dsimp only | split

theorem evo_scrubHbm {z : State} {s : State} {a2} (hs : Evo z s) :
    Evo z (Machine.scrubHbm s a2) := by
  unfold Machine.scrubHbm
  repeat' first
    | (with_reducible first
        | assumption | apply evo_correctHbm | apply evo_uncorrectable | apply evo_listLine | apply evo_repairRow
        | apply Evo.foldl | apply Evo.foldl_fst | apply Evo.elim | apply Evo.getD)
    | dsimp only | split

theorem evo_scrubSram {z : State} {s : State} {a2} (hs : Evo z s) :
    Evo z (Machine.scrubSram s a2) := by
  unfold Machine.scrubSram
  repeat' first
    | (with_reducible first
        | assumption | apply evo_countRow | apply evo_bump | apply evo_failSramRow | apply evo_uncorrectable
        | apply Evo.foldl | apply Evo.foldl_fst | apply Evo.elim | apply Evo.getD)
    | dsimp only | split

theorem evo_patrolScrub {z : State} {s : State} {a2} (hs : Evo z s) :
    Evo z (Machine.patrolScrub s a2) := by
  unfold Machine.patrolScrub
  repeat' first
    | (with_reducible first
        | assumption | apply evo_whenUp | apply evo_scrubSram | apply evo_newPass | apply evo_scrubHbm | apply Evo.foldl
        | apply Evo.foldl_fst | apply Evo.elim | apply Evo.getD)
    | simp only [evo_mk] | split | intro _

theorem evo_pcInterfaceFail {z : State} {s : State} {a2} {a3} (hs : Evo z s) :
    Evo z (Machine.pcInterfaceFail s a2 a3) := by
  unfold Machine.pcInterfaceFail
  repeat' first
    | (with_reducible first
        | assumption | apply evo_whenUp | apply evo_becomeSuspect | apply evo_raiseFault | apply evo_addRetire
        | apply Evo.foldl | apply Evo.foldl_fst | apply Evo.elim | apply Evo.getD)
    | simp only [evo_mk] | split | intro _

theorem evo_pcSuspectCmd {z : State} {s : State} {a2} (hs : Evo z s) :
    Evo z (Machine.pcSuspectCmd s a2) := by
  unfold Machine.pcSuspectCmd
  repeat' first
    | (with_reducible first
        | assumption | apply evo_bar0 | apply evo_becomeSuspect | apply Evo.foldl | apply Evo.foldl_fst | apply Evo.elim
        | apply Evo.getD)
    | simp only [evo_mk] | split | intro _

theorem evo_stackRetireCmd {z : State} {s : State} {a2} (hs : Evo z s) :
    Evo z (Machine.stackRetireCmd s a2) := by
  unfold Machine.stackRetireCmd
  repeat' first
    | (with_reducible first
        | assumption | apply evo_bar0 | apply evo_addRetire | apply Evo.foldl | apply Evo.foldl_fst | apply Evo.elim
        | apply Evo.getD)
    | simp only [evo_mk] | split | intro _

theorem evo_atomicAddLine {z : State} {s : State} {a2} {a3} (hs : Evo z s) :
    Evo z (Machine.atomicAddLine s a2 a3) := by
  unfold Machine.atomicAddLine
  repeat' first
    | (with_reducible first
        | assumption | apply evo_whenUp | apply evo_emit | apply evo_addLine | apply Evo.foldl | apply Evo.foldl_fst
        | apply Evo.elim | apply Evo.getD)
    | simp only [evo_mk] | split | intro _

theorem evo_hdmHostRead {z : State} {s : State} {a2} (hs : Evo z s) :
    Evo z (Machine.hdmHostRead s a2) := by
  unfold Machine.hdmHostRead
  repeat' first
    | (with_reducible first
        | assumption | apply evo_emit | apply evo_errorEvent | apply Evo.foldl | apply Evo.foldl_fst | apply Evo.elim
        | apply Evo.getD)
    | simp only [evo_mk] | split

theorem evo_hdmHostWrite {z : State} {s : State} {a2} {a3} (hs : Evo z s) :
    Evo z (Machine.hdmHostWrite s a2 a3) := by
  unfold Machine.hdmHostWrite
  repeat' first
    | (with_reducible first
        | assumption | apply evo_storeMem | apply Evo.foldl | apply Evo.foldl_fst | apply Evo.elim | apply Evo.getD)
    | simp only [evo_mk] | split

end Sys2Proof.Laws
end

