-- ==== Sys2Proof/Laws/EvoRas.lean ====
section
/-! SUPPORT. The operations of the error records keep registers and memory in their canonical form, leave the queue alone, and
take nothing back that was sent (`Evo`). -/

namespace Sys2Proof.Laws

open Sys2Proof Sys2Proof.Machine

theorem evo_releaseDamaged {z : State} {s : State} (hs : Evo z s) :
    Evo z (Machine.releaseDamaged s) := by
  unfold Machine.releaseDamaged
  repeat' first
    | (with_reducible first
        | assumption | apply Evo.foldl | apply Evo.foldl_fst | apply Evo.elim | apply Evo.getD)
    | simp only [evo_mk] | split

theorem evo_refetchRangeData {z : State} {s : State} {a2} {a3} {a4} {a5} (hs : Evo z s) :
    Evo z (Machine.refetchRangeData s a2 a3 a4 a5) := by
  unfold Machine.refetchRangeData
  repeat' first
    | (with_reducible first
        | assumption | apply evo_whenUp | apply evo_refetchFailed | apply evo_releaseDamaged | apply evo_writeMem
        | apply Evo.foldl | apply Evo.foldl_fst | apply Evo.elim | apply Evo.getD)
    | simp only [evo_mk] | split | intro _

theorem evo_refetchFail {z : State} {s : State} {a2} {a3} (hs : Evo z s) :
    Evo z (Machine.refetchFail s a2 a3) := by
  unfold Machine.refetchFail
  repeat' first
    | (with_reducible first
        | assumption | apply evo_whenUp | apply evo_refetchFailed | apply Evo.foldl | apply Evo.foldl_fst | apply Evo.elim
        | apply Evo.getD)
    | simp only [evo_mk] | split | intro _

theorem evo_modMgt {z : State} {s : State} {a2} (hs : Evo z s) :
    Evo z (Machine.modMgt s a2) := by
  unfold Machine.modMgt
  repeat' first
    | (with_reducible first
        | assumption | apply Evo.foldl | apply Evo.foldl_fst | apply Evo.elim | apply Evo.getD)
    | simp only [evo_mk]

theorem evo_stackTempPoll {z : State} {s : State} {a2} (hs : Evo z s) :
    Evo z (Machine.stackTempPoll s a2) := by
  unfold Machine.stackTempPoll
  repeat' with_reducible first
    | assumption | apply evo_modMgt

theorem evo_readSensors {z : State} {s : State} {a2} {a3} (hs : Evo z s) :
    Evo z (Machine.readSensors s a2 a3) := by
  unfold Machine.readSensors
  repeat' with_reducible first
    | assumption | apply evo_modMgt

theorem evo_thermalAlert {z : State} {s : State} {a2} {a3} (hs : Evo z s) :
    Evo z (Machine.thermalAlert s a2 a3) := by
  unfold Machine.thermalAlert
  repeat' first
    | (with_reducible first
        | assumption | apply evo_readSensors | apply evo_emit | apply evo_bump | apply evo_modMgt | apply evo_trimChange
        | apply evo_modClk | apply Evo.foldl | apply Evo.foldl_fst | apply Evo.elim | apply Evo.getD)
    | dsimp only | split

theorem evo_thermalAlertClear {z : State} {s : State} {a2} {a3} (hs : Evo z s) :
    Evo z (Machine.thermalAlertClear s a2 a3) := by
  unfold Machine.thermalAlertClear
  repeat' first
    | (with_reducible first
        | assumption | apply evo_readSensors | apply evo_emit | apply evo_modMgt | apply evo_trimChange | apply evo_modClk
        | apply Evo.foldl | apply Evo.foldl_fst | apply Evo.elim | apply Evo.getD)
    | dsimp only | split

theorem evo_thermalTrip {z : State} {s : State} (hs : Evo z s) :
    Evo z (Machine.thermalTrip s) := by
  unfold Machine.thermalTrip
  repeat' first
    | (with_reducible first
        | assumption | apply evo_emits | apply evo_modMgt | apply Evo.foldl | apply Evo.foldl_fst | apply Evo.elim
        | apply Evo.getD)
    | simp only [evo_mk] | split

end Sys2Proof.Laws
end

