-- ==== Sys2Proof/Laws/EvoSec.lean ====
section
/-! SUPPORT. The operations of the boot and protection keep registers and memory in their canonical form, leave the queue alone, and
take nothing back that was sent (`Evo`). -/

namespace Sys2Proof.Laws

open Sys2Proof Sys2Proof.Machine

theorem evo_bootGo {z : State} {s : State} (hs : Evo z s) :
    Evo z (Machine.bootGo s) := by
  unfold Machine.bootGo
  repeat' first
    | (with_reducible first
        | assumption | apply evo_wr | apply evo_emit | apply Evo.foldl | apply Evo.foldl_fst | apply Evo.elim
        | apply Evo.getD)
    | simp only [evo_mk] | split

theorem evo_bootFail {z : State} {s : State} {a2} (hs : Evo z s) :
    Evo z (Machine.bootFail s a2) := by
  unfold Machine.bootFail
  repeat' first
    | (with_reducible first
        | assumption | apply evo_wr | apply evo_record | apply Evo.foldl | apply Evo.foldl_fst | apply Evo.elim
        | apply Evo.getD)
    | simp only [evo_mk]

/-- Boot blows fuses upward only (R485). -/
theorem blowFuses_rises (s : State) : fusesRise s.sec.fuses (blowFuses s) := by
  refine ⟨rfl, rfl, fun h => ?_, fun i h => ?_, Nat.le_max_left _ _, Nat.le_max_left _ _, Nat.le_max_left _ _⟩
  · simp only [blowFuses, h, Bool.true_or]
  · simp only [blowFuses, Nat.testBit_or, h, Bool.true_or]

theorem evo_finishBoot {z : State} {s : State} (hs : Evo z s) :
    Evo z (Machine.finishBoot s) := by
  unfold Machine.finishBoot
  repeat' with_reducible first
    | apply evo_wr | apply evo_placeHdm
  exact ⟨hs.regs, hs.hbm, hs.pending, hs.out, fusesRise_trans hs.fuses (blowFuses_rises s)⟩

theorem evo_imagePassed {z : State} {s : State} {a2} (hs : Evo z s) :
    Evo z (Machine.imagePassed s a2) := by
  unfold Machine.imagePassed
  repeat' first
    | (with_reducible first
        | assumption | apply evo_emit | apply evo_wr | apply evo_checkRecords | apply evo_finishBoot | apply evo_bootFail
        | apply Evo.foldl | apply Evo.foldl_fst | apply Evo.elim | apply Evo.getD)
    | simp only [evo_mk] | split

theorem evo_imageFetchDone {z : State} {s : State} {a2} (hs : Evo z s) :
    Evo z (Machine.imageFetchDone s a2) := by
  unfold Machine.imageFetchDone
  repeat' first
    | (with_reducible first
        | assumption | apply evo_bootFail | apply evo_imagePassed | apply Evo.foldl | apply Evo.foldl_fst | apply Evo.elim
        | apply Evo.getD)
    | dsimp only | split

theorem evo_prelockBar0Access {z : State} {s : State} {a2} {a3} (hs : Evo z s) :
    Evo z (Machine.prelockBar0Access s a2 a3) := by
  unfold Machine.prelockBar0Access
  repeat' first
    | (with_reducible first
        | assumption | apply evo_prelock | apply Evo.foldl | apply Evo.foldl_fst | apply Evo.elim | apply Evo.getD)
    | simp only [evo_mk] | split

theorem evo_protWindowWrite {z : State} {s : State} {a2} {a3} (hs : Evo z s) :
    Evo z (Machine.protWindowWrite s a2 a3) := by
  unfold Machine.protWindowWrite
  repeat' first
    | (with_reducible first
        | assumption | apply evo_prelock | apply evo_lockedWrite | apply evo_emit | apply Evo.foldl | apply Evo.foldl_fst
        | apply Evo.elim | apply Evo.getD)
    | simp only [evo_mk] | split

theorem evo_spdmAnswer {z : State} {s : State} {a2} {a3} {a4} {a5} (hs : Evo z s) :
    Evo z (Machine.spdmAnswer s a2 a3 a4 a5) := by
  unfold Machine.spdmAnswer
  repeat' first
    | (with_reducible first
        | assumption | apply evo_whenUp | apply evo_emit | apply Evo.foldl | apply Evo.foldl_fst | apply Evo.elim
        | apply Evo.getD)
    | simp only [evo_mk] | split | intro _

theorem evo_spdmGetVersion {z : State} {s : State} (hs : Evo z s) :
    Evo z (Machine.spdmGetVersion s) := by
  unfold Machine.spdmGetVersion
  repeat' with_reducible first
    | assumption | apply evo_spdmAnswer

theorem evo_spdmGetCapabilities {z : State} {s : State} (hs : Evo z s) :
    Evo z (Machine.spdmGetCapabilities s) := by
  unfold Machine.spdmGetCapabilities
  repeat' with_reducible first
    | assumption | apply evo_spdmAnswer

theorem evo_spdmNegotiateAlgorithms {z : State} {s : State} {a2} {a3} (hs : Evo z s) :
    Evo z (Machine.spdmNegotiateAlgorithms s a2 a3) := by
  unfold Machine.spdmNegotiateAlgorithms
  repeat' with_reducible first
    | assumption | apply evo_spdmAnswer

theorem evo_spdmGetDigests {z : State} {s : State} (hs : Evo z s) :
    Evo z (Machine.spdmGetDigests s) := by
  unfold Machine.spdmGetDigests
  repeat' with_reducible first
    | assumption | apply evo_spdmAnswer

theorem evo_spdmGetCertificate {z : State} {s : State} {a2} {a3} {a4} (hs : Evo z s) :
    Evo z (Machine.spdmGetCertificate s a2 a3 a4) := by
  unfold Machine.spdmGetCertificate
  repeat' with_reducible first
    | assumption | apply evo_spdmAnswer

theorem evo_spdmChallenge {z : State} {s : State} {a2} {a3} (hs : Evo z s) :
    Evo z (Machine.spdmChallenge s a2 a3) := by
  unfold Machine.spdmChallenge
  repeat' with_reducible first
    | assumption | apply evo_spdmAnswer

theorem evo_spdmGetMeasurements {z : State} {s : State} {a2} {a3} (hs : Evo z s) :
    Evo z (Machine.spdmGetMeasurements s a2 a3) := by
  unfold Machine.spdmGetMeasurements
  repeat' with_reducible first
    | assumption | apply evo_spdmAnswer

end Sys2Proof.Laws
end

