-- ==== Sys2Proof/Laws/EvoRegs.lean ====
section
/-! SUPPORT. The operations of the register accesses keep registers and memory in their canonical form, leave the queue alone, and
take nothing back that was sent (`Evo`). -/

namespace Sys2Proof.Laws

open Sys2Proof Sys2Proof.Machine

theorem evo_writeFields {z : State} {s : State} {a2} {a3} {a4} {a5} (hs : Evo z s) :
    Evo z (Machine.writeFields s a2 a3 a4 a5) := by
  unfold Machine.writeFields
  repeat' first
    | (with_reducible first
        | assumption | apply evo_setReg | apply Evo.foldl | apply Evo.foldl_fst | apply Evo.elim | apply Evo.getD)
    | dsimp only | split

theorem oevo_some {z t : State} (h : Evo z t) : OEvo z (some t) := by
  intro u hu
  cases hu
  exact h

theorem oevo_none {z : State} : OEvo z none := by
  intro u hu
  cases hu

theorem oevo_ite {z : State} {c : Prop} [Decidable c] {a b : Option State} (ha : OEvo z a) (hb : OEvo z b) :
    OEvo z (if c then a else b) := by
  split
  · exact ha
  · exact hb

theorem evo_commandWrite {z : State} {s : State} {a2} {a3} {a4} {t : State} (hs : Evo z s)
    (ht : Machine.commandWrite s a2 a3 a4 = some t) :
    Evo z t := by
  revert ht
  revert t
  show OEvo z (Machine.commandWrite s a2 a3 a4)
  unfold Machine.commandWrite
  dsimp only
  repeat' first
    | (with_reducible first
        | assumption | apply oevo_ite | apply oevo_some | exact oevo_none | apply evo_bootGo | apply evo_hold
        | apply evo_resume | apply evo_controllerReset | apply evo_hbmCheck | apply evo_hbmClear | apply evo_hbmCmdBegin
        | apply evo_hbmCmdEnd | apply evo_ctxEnable | apply evo_ctxDisable | apply evo_ctxCmdBegin | apply evo_ctxCmdEnd
        | apply evo_evqCfgWrite | apply evo_mxeCoreTest | apply evo_mxeCoreRetire | apply evo_coreCmdBegin
        | apply evo_coreCmdEnd | apply evo_poolEnable | apply evo_poolDisable | apply evo_attProfWrite
        | apply evo_pcSuspectCmd | apply evo_stackRetireCmd | apply evo_ftlEnable | apply evo_ftlDisable
        | apply evo_dtmJoin | apply evo_conEnable | apply evo_yield | apply evo_conStatus | apply evo_attBindEnable
        | apply evo_attBindDisable | apply evo_portEnable | apply evo_portDisable | apply evo_shaperWrite
        | apply evo_writeBank | apply evo_gateSwapRequest | apply evo_gateEnable | apply Evo.foldl | apply Evo.foldl_fst
        | apply Evo.elim | apply Evo.getD)
    | simp only [evo_mk] | split | (with_reducible intro _)

theorem evo_writeReg {z : State} {s : State} {a2} {a3} (hs : Evo z s) :
    Evo z (Machine.writeReg s a2 a3) := by
  unfold Machine.writeReg
  repeat' first
    | (with_reducible first
        | assumption | apply evo_lockedWrite | apply evo_trimChange | apply evo_writeFields | apply Evo.foldl
        | apply Evo.foldl_fst | apply Evo.elim | apply Evo.getD | exact Evo.refl _)
    | dsimp only | split | intro _ | (refine evo_commandWrite (ht := by with_reducible assumption) ?_)

theorem evo_registerWrite {z : State} {s : State} {a2} {a3} (hs : Evo z s) :
    Evo z (Machine.registerWrite s a2 a3) := by
  unfold Machine.registerWrite
  repeat' first
    | (with_reducible first
        | assumption | apply evo_prelock | apply evo_emit | apply evo_writeReg | apply Evo.foldl | apply Evo.foldl_fst
        | apply Evo.elim | apply Evo.getD)
    | simp only [evo_mk] | split

theorem evo_clearRead {z : State} {s : State} {a2} (hs : Evo z s) :
    Evo z (Machine.clearRead s a2) := by
  unfold Machine.clearRead
  repeat' first
    | (with_reducible first
        | assumption | apply evo_setReg | apply Evo.foldl | apply Evo.foldl_fst | apply Evo.elim | apply Evo.getD)
    | dsimp only | split

theorem evo_rcFieldRead {z : State} {s : State} {a2} (hs : Evo z s) :
    Evo z (Machine.rcFieldRead s a2) := by
  unfold Machine.rcFieldRead
  repeat' first
    | (with_reducible first
        | assumption | apply evo_prelock | apply evo_emit | apply evo_clearRead | apply Evo.foldl | apply Evo.foldl_fst
        | apply Evo.elim | apply Evo.getD)
    | simp only [evo_mk] | split

theorem evo_bar0Unsupported {z : State} {s : State} {a2} {a3} (hs : Evo z s) :
    Evo z (Machine.bar0Unsupported s a2 a3) := by
  unfold Machine.bar0Unsupported
  repeat' first
    | (with_reducible first
        | assumption | apply evo_prelock | apply evo_emit | apply Evo.foldl | apply Evo.foldl_fst | apply Evo.elim
        | apply Evo.getD)
    | simp only [evo_mk] | split

end Sys2Proof.Laws
end

