-- ==== Sys2Proof/Laws/EvoResp.lean ====
section
/-! SUPPORT. The operations of the remote answers keep registers and memory in their canonical form, leave the queue alone, and
take nothing back that was sent (`Evo`). -/

namespace Sys2Proof.Laws

open Sys2Proof Sys2Proof.Machine

theorem evo_dropOp {z : State} {s : State} {a2} (hs : Evo z s) :
    Evo z (Machine.dropOp s a2) := by
  unfold Machine.dropOp
  repeat' first
    | (with_reducible first
        | assumption | apply Evo.foldl | apply Evo.foldl_fst | apply Evo.elim | apply Evo.getD)
    | simp only [evo_mk]

theorem evo_resend {z : State} {s : State} {a2} {a3} {a4} {t : State} (hs : Evo z s)
    (ht : Machine.resend s a2 a3 a4 = some t) : Evo z t := by
  obtain ⟨n, -, rfl⟩ := Option.map_eq_some_iff.1 ht
  exact evo_startOp hs

theorem evo_feedTag {z : State} {s : State} (hs : Evo z s) :
    Evo z (Machine.feedTag s) := by
  unfold Machine.feedTag
  repeat' first
    | (with_reducible first
        | assumption | apply Evo.foldl | apply Evo.foldl_fst | apply Evo.elim | apply Evo.getD | exact Evo.refl _)
    | simp only [evo_mk] | split | intro _ | (refine evo_resend (ht := by with_reducible assumption) ?_)

theorem evo_feedMirrored {z : State} {s : State} (hs : Evo z s) :
    Evo z (Machine.feedMirrored s) := by
  unfold Machine.feedMirrored
  repeat' first
    | (with_reducible first
        | assumption | apply evo_modReq | apply Evo.foldl | apply Evo.foldl_fst | apply Evo.elim | apply Evo.getD)
    | simp only [evo_mk] | split | intro _

theorem evo_mirrorAcked {z : State} {s : State} {a2} (hs : Evo z s) :
    Evo z (Machine.mirrorAcked s a2) := by
  unfold Machine.mirrorAcked
  repeat' first
    | (with_reducible first
        | assumption | apply evo_flushReports | apply evo_feedMirrored | apply Evo.foldl | apply Evo.foldl_fst
        | apply Evo.elim | apply Evo.getD)
    | simp only [evo_mk]

theorem evo_mirrorAnswered {z : State} {s : State} {a2} {a3} {a4} (hs : Evo z s) :
    Evo z (Machine.mirrorAnswered s a2 a3 a4) := by
  unfold Machine.mirrorAnswered
  repeat' first
    | (with_reducible first
        | assumption | apply evo_mirrorAcked | apply evo_auditFail | apply evo_losePage | apply evo_poolEmpty
        | apply evo_sendMirror | apply evo_mirrorFails | apply Evo.foldl | apply Evo.foldl_fst | apply Evo.elim
        | apply Evo.getD)
    | dsimp only | split

theorem evo_afterOp {z : State} {s : State} {a2} {a3} {a4} {a5} (hs : Evo z s) :
    Evo z (Machine.afterOp s a2 a3 a4 a5) := by
  unfold Machine.afterOp
  repeat' first
    | (with_reducible first
        | assumption | apply evo_putAnswered | apply evo_completeWith | apply evo_completeSt | apply evo_mirrorAnswered
        | apply evo_refetchFailed | apply Evo.foldl | apply Evo.foldl_fst | apply Evo.elim | apply Evo.getD)
    | dsimp only | split

theorem evo_endOp {z : State} {s : State} {a2} {a3} {a4} {a5} (hs : Evo z s) :
    Evo z (Machine.endOp s a2 a3 a4 a5) := by
  unfold Machine.endOp
  repeat' with_reducible first
    | assumption | apply evo_feedTag | apply evo_afterOp | apply evo_dropOp

theorem evo_staleAnswered {z : State} {s : State} {a2} {a3} {a4} (hs : Evo z s) :
    Evo z (Machine.staleAnswered s a2 a3 a4) := by
  unfold Machine.staleAnswered
  repeat' first
    | (with_reducible first
        | assumption | apply evo_send | apply evo_endOp | apply Evo.foldl | apply Evo.foldl_fst | apply Evo.elim
        | apply Evo.getD | exact Evo.refl _)
    | dsimp only | split | intro _ | (refine evo_resend (ht := by with_reducible assumption) ?_)

theorem evo_remoteResponse {z : State} {s : State} {a2} {a3} {a4} {a5} (hs : Evo z s) :
    Evo z (Machine.remoteResponse s a2 a3 a4 a5) := by
  unfold Machine.remoteResponse
  repeat' first
    | (with_reducible first
        | assumption | apply evo_whenUp | apply evo_bump | apply evo_staleAnswered | apply evo_endOp | apply Evo.foldl
        | apply Evo.foldl_fst | apply Evo.elim | apply Evo.getD)
    | simp only [evo_mk] | split | intro _

theorem evo_respTimeout {z : State} {s : State} {a2} (hs : Evo z s) :
    Evo z (Machine.respTimeout s a2) := by
  unfold Machine.respTimeout
  repeat' first
    | (with_reducible first
        | assumption | apply evo_whenUp | apply evo_endOp | apply evo_bump | apply Evo.foldl | apply Evo.foldl_fst
        | apply Evo.elim | apply Evo.getD)
    | simp only [evo_mk] | split | intro _

theorem evo_busyRetry {z : State} {s : State} {a2} (hs : Evo z s) :
    Evo z (Machine.busyRetry s a2) := by
  unfold Machine.busyRetry
  repeat' first
    | (with_reducible first
        | assumption | apply evo_whenUp | apply evo_endOp | apply Evo.foldl | apply Evo.foldl_fst | apply Evo.elim
        | apply Evo.getD | exact Evo.refl _)
    | simp only [evo_mk] | split | intro _ | (refine evo_resend (ht := by with_reducible assumption) ?_)

theorem evo_flowMove {z : State} {s : State} {a2} (hs : Evo z s) :
    Evo z (Machine.flowMove s a2) := by
  unfold Machine.flowMove
  repeat' first
    | (with_reducible first
        | assumption | apply evo_whenUp | apply evo_endOp | apply evo_startOp | apply Evo.foldl | apply Evo.foldl_fst
        | apply Evo.elim | apply Evo.getD)
    | simp only [evo_mk] | split | intro _

end Sys2Proof.Laws
end

