-- ==== Sys2Proof/Laws/EvoTeardown.lean ====
section
/-! SUPPORT. The operations of the teardown keep registers and memory in their canonical form, leave the queue alone, and
take nothing back that was sent (`Evo`). -/

namespace Sys2Proof.Laws

open Sys2Proof Sys2Proof.Machine

theorem evo_modDown {z : State} {s : State} {a2} {a3} (hs : Evo z s) :
    Evo z (Machine.modDown s a2 a3) := by
  unfold Machine.modDown
  repeat' with_reducible first
    | assumption | apply evo_modCtx

theorem evo_countAborted {z : State} {s : State} {a2} {a3} (hs : Evo z s) :
    Evo z (Machine.countAborted s a2 a3) := by
  unfold Machine.countAborted
  repeat' with_reducible first
    | assumption | apply evo_modDown

theorem evo_abortWaiting {z : State} {s : State} {a2} (hs : Evo z s) :
    Evo z (Machine.abortWaiting s a2) := by
  unfold Machine.abortWaiting
  repeat' first
    | (with_reducible first
        | assumption | apply evo_modCtx | apply evo_completeSt | apply evo_countAborted | apply evo_setFlight
        | apply Evo.foldl | apply Evo.foldl_fst | apply Evo.elim | apply Evo.getD)
    | dsimp only | split | intro _

theorem evo_abortWaits {z : State} {s : State} {a2} (hs : Evo z s) :
    Evo z (Machine.abortWaits s a2) := by
  unfold Machine.abortWaits
  repeat' first
    | (with_reducible first
        | assumption | apply evo_serveAll | apply evo_completeSt | apply evo_countAborted | apply evo_dropWaiter
        | apply Evo.foldl | apply Evo.foldl_fst | apply Evo.elim | apply Evo.getD)
    | simp only [evo_mk] | split | intro _

theorem evo_abortFlights {z : State} {s : State} {a2} (hs : Evo z s) :
    Evo z (Machine.abortFlights s a2) := by
  unfold Machine.abortFlights
  repeat' first
    | (with_reducible first
        | assumption | apply evo_countAborted | apply evo_complete | apply evo_completeSt | apply Evo.foldl
        | apply Evo.foldl_fst | apply Evo.elim | apply Evo.getD)
    | simp only [evo_mk] | split | intro _

theorem evo_sweepWork {z : State} {s : State} (hs : Evo z s) :
    Evo z (Machine.sweepWork s) := by
  unfold Machine.sweepWork
  repeat' first
    | (with_reducible first
        | assumption | apply evo_freePages | apply Evo.foldl | apply Evo.foldl_fst | apply Evo.elim | apply Evo.getD)
    | simp only [evo_mk] | split | intro _

theorem evo_abortTakes {z : State} {s : State} {a2} (hs : Evo z s) :
    Evo z (Machine.abortTakes s a2) := by
  unfold Machine.abortTakes
  repeat' first
    | (with_reducible first
        | assumption | apply evo_decide' | apply evo_endTake | apply evo_bump | apply evo_finishPart | apply evo_setCoord
        | apply Evo.foldl | apply Evo.foldl_fst | apply Evo.elim | apply Evo.getD)
    | dsimp only | split | intro _

theorem evo_releaseRequests {z : State} {s : State} {a2} (hs : Evo z s) :
    Evo z (Machine.releaseRequests s a2) := by
  unfold Machine.releaseRequests
  repeat' first
    | (with_reducible first
        | assumption | apply evo_askRelease | apply evo_endTrav | apply Evo.foldl | apply Evo.foldl_fst | apply Evo.elim
        | apply Evo.getD)
    | simp only [evo_mk] | split | intro _

theorem evo_clearSems {z : State} {s : State} {a2} (hs : Evo z s) :
    Evo z (Machine.clearSems s a2) := by
  unfold Machine.clearSems
  repeat' first
    | (with_reducible first
        | assumption | apply evo_completeSt | apply evo_dropWaiter | apply Evo.foldl | apply Evo.foldl_fst | apply Evo.elim
        | apply Evo.getD)
    | simp only [evo_mk] | split | intro _

theorem evo_freeHandles {z : State} {s : State} {a2} (hs : Evo z s) :
    Evo z (Machine.freeHandles s a2) := by
  unfold Machine.freeHandles
  repeat' first
    | (with_reducible first
        | assumption | apply evo_freeTables | apply evo_dropEmptyImages | apply Evo.foldl | apply Evo.foldl_fst
        | apply Evo.elim | apply Evo.getD)
    | simp only [evo_mk]

theorem evo_downSettle {z : State} {s : State} {a2} {a3} (hs : Evo z s) :
    Evo z (Machine.downSettle s a2 a3) := by
  unfold Machine.downSettle
  repeat' first
    | (with_reducible first
        | assumption | apply evo_modDown | apply evo_clearSems | apply evo_releaseRequests | apply evo_abortWaits
        | apply evo_dropMoves | apply evo_abortTakes | apply evo_abortFlights | apply evo_sweepWork
        | apply evo_abortWaiting | apply evo_freeHandles | apply Evo.foldl | apply Evo.foldl_fst | apply Evo.elim
        | apply Evo.getD)
    | dsimp only | split

theorem evo_teardownSettle {z : State} {s : State} (hs : Evo z s) :
    Evo z (Machine.teardownSettle s) := by
  unfold Machine.teardownSettle
  repeat' first
    | (with_reducible first
        | assumption | apply evo_downSettle | apply Evo.foldl | apply Evo.foldl_fst | apply Evo.elim | apply Evo.getD)
    | simp only [evo_mk] | split | intro _

theorem evo_endDown {z : State} {s : State} {a2} (hs : Evo z s) :
    Evo z (Machine.endDown s a2) := by
  unfold Machine.endDown
  repeat' first
    | (with_reducible first
        | assumption | apply evo_ctxCmdEnd | apply Evo.foldl | apply Evo.foldl_fst | apply Evo.elim | apply Evo.getD)
    | simp only [evo_mk] | split

theorem evo_contextTeardown {z : State} {s : State} {a2} {a3} (hs : Evo z s) :
    Evo z (Machine.contextTeardown s a2 a3) := by
  unfold Machine.contextTeardown
  repeat' first
    | (with_reducible first
        | assumption | apply evo_whenUp | apply evo_faultCtx | apply Evo.foldl | apply Evo.foldl_fst | apply Evo.elim
        | apply Evo.getD)
    | simp only [evo_mk] | split | intro _

theorem evo_contextTeardownDone {z : State} {s : State} {a2} (hs : Evo z s) :
    Evo z (Machine.contextTeardownDone s a2) := by
  unfold Machine.contextTeardownDone
  repeat' first
    | (with_reducible first
        | assumption | apply evo_whenUp | apply evo_endDown | apply evo_postEvent | apply Evo.foldl | apply Evo.foldl_fst
        | apply Evo.elim | apply Evo.getD)
    | simp only [evo_mk] | split | intro _

theorem evo_ctxDisableDone {z : State} {s : State} {a2} (hs : Evo z s) :
    Evo z (Machine.ctxDisableDone s a2) := by
  unfold Machine.ctxDisableDone
  repeat' first
    | (with_reducible first
        | assumption | apply evo_whenUp | apply evo_endDown | apply Evo.foldl | apply Evo.foldl_fst | apply Evo.elim
        | apply Evo.getD)
    | simp only [evo_mk] | split | intro _

end Sys2Proof.Laws
end

