-- ==== Sys2Proof/Laws/EvoSettle.lean ====
section
/-! SUPPORT. The operations of the settling keep registers and memory in their canonical form, leave the queue alone, and
take nothing back that was sent (`Evo`). -/

namespace Sys2Proof.Laws

open Sys2Proof Sys2Proof.Machine

theorem evo_hostTakeEnded {z : State} {s : State} {a2} {a3} (hs : Evo z s) :
    Evo z (Machine.hostTakeEnded s a2 a3) := by
  unfold Machine.hostTakeEnded
  repeat' with_reducible first
    | assumption | apply evo_completeWith

theorem evo_takeEnded {z : State} {s : State} {a2} (hs : Evo z s) :
    Evo z (Machine.takeEnded s a2) := by
  unfold Machine.takeEnded
  repeat' first
    | (with_reducible first
        | assumption | apply evo_hostTakeEnded | apply evo_reportEnd | apply evo_createEnded | apply evo_releaseEnded
        | apply evo_releaseForEnded | apply evo_closingEnded | apply evo_routeTake | apply evo_migrateEnded
        | apply evo_rejoinEnded | apply evo_cutoverEnded | apply Evo.foldl | apply Evo.foldl_fst | apply Evo.elim
        | apply Evo.getD)
    | simp only [evo_mk] | split

theorem evo_takesSettle {z : State} {s : State} (hs : Evo z s) :
    Evo z (Machine.takesSettle s) := by
  unfold Machine.takesSettle
  repeat' first
    | (with_reducible first
        | assumption | apply evo_takeEnded | apply Evo.foldl | apply Evo.foldl_fst | apply Evo.elim | apply Evo.getD)
    | simp only [evo_mk]

theorem evo_portsSettle {z : State} {a1} {s : State} (hs : Evo z s) :
    Evo z (Machine.portsSettle a1 s) := by
  unfold Machine.portsSettle
  repeat' first
    | (with_reducible first
        | assumption | apply evo_mirrorFails | apply Evo.foldl | apply Evo.foldl_fst | apply Evo.elim | apply Evo.getD)
    | simp only [evo_mk] | split

theorem evo_settleRound {z : State} {a1} {a2} {s : State} (hs : Evo z s) :
    Evo z (Machine.settleRound a1 a2 s) := by
  unfold Machine.settleRound
  repeat' with_reducible first
    | assumption | apply evo_teardownSettle | apply evo_takesSettle | apply evo_conMapSettle | apply evo_mapSettle
    | apply evo_portsSettle | apply evo_settleWaits | apply evo_endRepairs | apply evo_pumpWaiting | apply evo_trvSettle
    | apply evo_sweepRuns | apply evo_answerHeld | apply evo_ungate | apply evo_releaseDamaged | apply evo_feedStarved
    | apply evo_yieldSettle | apply evo_deltaFull

theorem evo_settleRounds {z : State} {a1} {a2} {a3} {s : State} (hs : Evo z s) :
    Evo z (Machine.settleRounds a1 a2 a3 s) := by
  induction a1 generalizing a2 a3 s with
  | zero =>
    unfold Machine.settleRounds
    repeat' with_reducible first
      | assumption
  | succ n ih =>
    unfold Machine.settleRounds
    repeat' first
      | (with_reducible first
          | assumption | apply ih | apply evo_settleRound | apply Evo.foldl | apply Evo.foldl_fst | apply Evo.elim
          | apply Evo.getD)
      | dsimp only | split

theorem evo_settle {z : State} {s : State} {s2 : State} (_hs : Evo z s) (hs2 : Evo z s2) :
    Evo z (Machine.settle s s2) := by
  unfold Machine.settle
  repeat' with_reducible first
    | assumption | apply evo_settleRounds

end Sys2Proof.Laws
end

