-- ==== Sys2Proof/Laws/EvoMeanings.lean ====
section
/-! SUPPORT. The operations of the end of a unit keep registers and memory in their canonical form, leave the queue alone, and
take nothing back that was sent (`Evo`). -/

namespace Sys2Proof.Laws

open Sys2Proof Sys2Proof.Machine

theorem evo_unitEnds {z : State} {s : State} {a2} (hs : Evo z s) :
    Evo z (Machine.unitEnds s a2) := by
  unfold Machine.unitEnds
  repeat' first
    | (with_reducible first
        | assumption | apply evo_unitEnd | apply evo_startCollective | apply evo_windowDone | apply Evo.foldl
        | apply Evo.foldl_fst | apply Evo.elim | apply Evo.getD)
    | dsimp only | split

end Sys2Proof.Laws
end

