-- ==== Sys2Proof/Laws/EvoExec.lean ====
section
/-! SUPPORT. Every command keeps registers and memory in their canonical form, leaves the queue alone, and takes nothing back
that was sent (`Evo`). -/

namespace Sys2Proof.Laws

open Sys2Proof Sys2Proof.Machine

theorem next_inj {s t : State} (h : (Host.Outcome.next s : Host.Outcome State Fault Refusal) = .next t) : s = t := by
  cases h
  rfl

/-- What every command keeps. -/
theorem evo_exec (c : Instr) (s t : State) (h : exec c s = .next t) : Evo s t := by
  cases c with
  | ucieLinkTraining offer modUp rateGt repairs => exact next_inj h ▸ evo_ucieLinkTraining (Evo.refl _)
  | ucieModuleFail m => exact next_inj h ▸ evo_settle (Evo.refl _) (evo_ucieModuleFail (Evo.refl _))
  | ctxEnable ctx => exact next_inj h ▸ evo_ctxEnable (Evo.refl _)
  | ctxEnableReadDone entry line => exact next_inj h ▸ evo_settle (Evo.refl _) (evo_ctxEnableReadDone (Evo.refl _))
  | ctxDisable ctx => exact next_inj h ▸ evo_settle (Evo.refl _) (evo_ctxDisable (Evo.refl _))
  | ctxDisableDone ctx => exact next_inj h ▸ evo_settle (Evo.refl _) (evo_ctxDisableDone (Evo.refl _))
  | evqCfgWrite w => exact next_inj h ▸ evo_evqCfgWrite (Evo.refl _)
  | hdmCfgWrite w => exact next_inj h ▸ evo_hdmCfgWrite (Evo.refl _)
  | doorbellSnoop ctx => exact next_inj h ▸ evo_doorbellSnoop (Evo.refl _)
  | doorbellPoll => exact next_inj h ▸ evo_doorbellPoll (Evo.refl _)
  | doorbellLineData ctx line => exact next_inj h ▸ evo_settle (Evo.refl _) (evo_doorbellLineData (Evo.refl _))
  | cqHeadSnoop ctx line => exact next_inj h ▸ evo_settle (Evo.refl _) (evo_cqHeadSnoop (Evo.refl _))
  | hostAccessTimeout a => exact next_inj h ▸ evo_settle (Evo.refl _) (evo_hostAccessTimeout (Evo.refl _))
  | hostDataError a => exact next_inj h ▸ evo_settle (Evo.refl _) (evo_hostDataError (Evo.refl _))
  | nop k d => exact next_inj h ▸ evo_nop (Evo.refl _)
  | reservedOpcode k d => exact next_inj h ▸ evo_reservedOpcode (Evo.refl _)
  | reqPost k d param input home => exact next_inj h ▸ evo_settle (Evo.refl _) (evo_reqPost (Evo.refl _))
  | reqPark k d home => exact next_inj h ▸ evo_settle (Evo.refl _) (evo_reqPark (Evo.refl _))
  | reqCancel k d home => exact next_inj h ▸ evo_settle (Evo.refl _) (evo_reqCancel (Evo.refl _))
  | reqReleaseFree k d home => exact next_inj h ▸ evo_settle (Evo.refl _) (evo_reqReleaseFree (Evo.refl _))
  | reqReleaseReshoot k d home => exact next_inj h ▸ evo_settle (Evo.refl _) (evo_reqReleaseReshoot (Evo.refl _))
  | kernelLoad k d image => exact next_inj h ▸ evo_kernelLoad (Evo.refl _)
  | kernelUnload k d => exact next_inj h ▸ evo_kernelUnload (Evo.refl _)
  | kernelRun k d => exact next_inj h ▸ evo_kernelRun (Evo.refl _)
  | move k d => exact next_inj h ▸ evo_move (Evo.refl _)
  | packCode k d => exact next_inj h ▸ evo_packCode (Evo.refl _)
  | packCodeSafe k d => exact next_inj h ▸ evo_packCodeSafe (Evo.refl _)
  | packUnpack k d => exact next_inj h ▸ evo_packUnpack (Evo.refl _)
  | packFree k d => exact next_inj h ▸ evo_packFree (Evo.refl _)
  | tableRegister k d => exact next_inj h ▸ evo_tableRegister (Evo.refl _)
  | tableFree k d => exact next_inj h ▸ evo_settle (Evo.refl _) (evo_tableFree (Evo.refl _))
  | tableRefresh k d list => exact next_inj h ▸ evo_settle (Evo.refl _) (evo_tableRefresh (Evo.refl _))
  | tableLoad k d rows => exact next_inj h ▸ evo_tableLoad (Evo.refl _)
  | tableSync k d flash => exact next_inj h ▸ evo_tableSync (Evo.refl _)
  | gatherPool k d g => exact next_inj h ▸ evo_gatherPool (Evo.refl _)
  | gatherCopy k d g => exact next_inj h ▸ evo_gatherCopy (Evo.refl _)
  | update k d g => exact next_inj h ▸ evo_update (Evo.refl _)
  | takeSubmit k d => exact next_inj h ▸ evo_takeSubmit (Evo.refl _)
  | takeSlateRead k slate => exact next_inj h ▸ evo_settle (Evo.refl _) (evo_takeSlateRead (Evo.refl _))
  | semSignalAdd k d => exact next_inj h ▸ evo_semSignalAdd (Evo.refl _)
  | semSignalSet k d => exact next_inj h ▸ evo_semSignalSet (Evo.refl _)
  | semWait k d => exact next_inj h ▸ evo_semWait (Evo.refl _)
  | semWaitTimeout k => exact next_inj h ▸ evo_semWaitTimeout (Evo.refl _)
  | stepAdmission est => exact next_inj h ▸ evo_settle (Evo.refl _) (evo_stepAdmission (Evo.refl _))
  | promptAdmission => exact next_inj h ▸ evo_settle (Evo.refl _) (evo_promptAdmission (Evo.refl _))
  | roster src words => exact next_inj h ▸ evo_settle (Evo.refl _) (evo_roster (Evo.refl _))
  | unitEnd r => exact next_inj h ▸ evo_settle (Evo.refl _) (evo_unitEnds (Evo.refl _))
  | contextTeardown ctx cause => exact next_inj h ▸ evo_settle (Evo.refl _) (evo_contextTeardown (Evo.refl _))
  | contextTeardownDone ctx => exact next_inj h ▸ evo_settle (Evo.refl _) (evo_contextTeardownDone (Evo.refl _))
  | takeSlateForward src srcKey retries host slate => exact next_inj h ▸ evo_settle (Evo.refl _) (evo_takeSlateForward (Evo.refl _))
  | takePrepare m => exact next_inj h ▸ evo_settle (Evo.refl _) (evo_takePrepare (Evo.refl _))
  | intentMirrorAck id => exact next_inj h ▸ evo_settle (Evo.refl _) (evo_intentMirrorAck (Evo.refl _))
  | takeVote m => exact next_inj h ▸ evo_settle (Evo.refl _) (evo_takeVote (Evo.refl _))
  | takeVoteTimeout takeId part => exact next_inj h ▸ evo_settle (Evo.refl _) (evo_takeVoteTimeout (Evo.refl _))
  | decisionMirrorAck takeId => exact next_inj h ▸ evo_settle (Evo.refl _) (evo_decisionMirrorAck (Evo.refl _))
  | takeCommit id stamp => exact next_inj h ▸ evo_settle (Evo.refl _) (evo_takeCommit (Evo.refl _))
  | takeAbort id stamp => exact next_inj h ▸ evo_settle (Evo.refl _) (evo_takeAbort (Evo.refl _))
  | takeAck m => exact next_inj h ▸ evo_settle (Evo.refl _) (evo_takeAck (Evo.refl _))
  | takeIndoubtTimeout id => exact next_inj h ▸ evo_settle (Evo.refl _) (evo_takeIndoubtTimeout (Evo.refl _))
  | takeInquiry src id stamp => exact next_inj h ▸ evo_settle (Evo.refl _) (evo_takeInquiry (Evo.refl _))
  | takeEndedNotice ended => exact next_inj h ▸ evo_settle (Evo.refl _) (evo_takeEndedNotice (Evo.refl _))
  | takeRetry takeId => exact next_inj h ▸ evo_settle (Evo.refl _) (evo_takeRetry (Evo.refl _))
  | mxeUnitDone flight kernel unit core sums numeric => exact next_inj h ▸ evo_mxeUnitDone (Evo.refl _)
  | mxeRetryDone flight kernel unit core sums numeric => exact next_inj h ▸ evo_mxeRetryDone (Evo.refl _)
  | mxeCoreTest core => exact next_inj h ▸ evo_mxeCoreTest (Evo.refl _)
  | mxeCoreRetire core => exact next_inj h ▸ evo_mxeCoreRetire (Evo.refl _)
  | coreSelftestDone core pass => exact next_inj h ▸ evo_coreSelftestDone (Evo.refl _)
  | expanderBlock run tensor block => exact next_inj h ▸ evo_expanderBlock (Evo.refl _)
  | expanderReread run tensor block => exact next_inj h ▸ evo_expanderReread (Evo.refl _)
  | appendRows a => exact next_inj h ▸ evo_settle (Evo.refl _) (evo_appendRows (Evo.refl _))
  | kvaAgeTick => exact next_inj h ▸ evo_kvaAgeTick (Evo.refl _)
  | eviction cls => exact next_inj h ▸ evo_settle (Evo.refl _) (evo_eviction (Evo.refl _))
  | demoteWriteDone frame flashAddr ok => exact next_inj h ▸ evo_settle (Evo.refl _) (evo_demoteWriteDone (Evo.refl _))
  | pagePromote page ok bytes => exact next_inj h ▸ evo_settle (Evo.refl _) (evo_pagePromote (Evo.refl _))
  | dropNotice src req highest count lost => exact next_inj h ▸ evo_settle (Evo.refl _) (evo_dropNotice (Evo.refl _))
  | reshootRequest req inCount origin flight => exact next_inj h ▸ evo_settle (Evo.refl _) (evo_reshootRequest (Evo.refl _))
  | reshootComplete req answer => exact next_inj h ▸ evo_settle (Evo.refl _) (evo_reshootComplete (Evo.refl _))
  | poolEnable w => exact next_inj h ▸ evo_poolEnable (Evo.refl _)
  | poolDisable w => exact next_inj h ▸ evo_poolDisable (Evo.refl _)
  | attentionPass p => exact next_inj h ▸ evo_attentionPass (Evo.refl _)
  | partialRecord tag words num => exact next_inj h ▸ evo_partialRecord (Evo.refl _)
  | partialRequest hdr entries => exact next_inj h ▸ evo_partialRequest (Evo.refl _)
  | partialReplyTimeout req tag => exact next_inj h ▸ evo_partialReplyTimeout (Evo.refl _)
  | attBindEnable j w => exact next_inj h ▸ evo_attBindEnable (Evo.refl _)
  | attBindDisable j w => exact next_inj h ▸ evo_attBindDisable (Evo.refl _)
  | attProfWrite a w => exact next_inj h ▸ evo_attProfWrite (Evo.refl _)
  | samplerPass req node logits heads => exact next_inj h ▸ evo_samplerPass (Evo.refl _)
  | roundASummary slot words => exact next_inj h ▸ evo_roundASummary (Evo.refl _)
  | thresholdReturn req node theta => exact next_inj h ▸ evo_thresholdReturn (Evo.refl _)
  | roundBDraw m => exact next_inj h ▸ evo_roundBDraw (Evo.refl _)
  | verifyResult m => exact next_inj h ▸ evo_settle (Evo.refl _) (evo_verifyResult (Evo.refl _))
  | mirroredReport src step reqs => exact next_inj h ▸ evo_settle (Evo.refl _) (evo_mirroredReport (Evo.refl _))
  | tokenDelivery m => exact next_inj h ▸ evo_settle (Evo.refl _) (evo_tokenDelivery (Evo.refl _))
  | logitSlice req position slot nslots first codes => exact next_inj h ▸ evo_logitSlice (Evo.refl _)
  | hostChoice req entry => exact next_inj h ▸ evo_hostChoice (Evo.refl _)
  | gatherRowData k row ok bytes => exact next_inj h ▸ evo_gatherRowData (Evo.refl _)
  | migrationAddsDrained table row => exact next_inj h ▸ evo_settle (Evo.refl _) (evo_migrationAddsDrained (Evo.refl _))
  | migrationCopyDone table row st bytes => exact next_inj h ▸ evo_settle (Evo.refl _) (evo_migrationCopyDone (Evo.refl _))
  | patrolScrub w => exact next_inj h ▸ evo_patrolScrub (Evo.refl _)
  | pcInterfaceFail pc retrained => exact next_inj h ▸ evo_pcInterfaceFail (Evo.refl _)
  | pcSuspectCmd target => exact next_inj h ▸ evo_pcSuspectCmd (Evo.refl _)
  | stackRetireCmd target => exact next_inj h ▸ evo_stackRetireCmd (Evo.refl _)
  | atomicAddLine offset addends => exact next_inj h ▸ evo_settle (Evo.refl _) (evo_atomicAddLine (Evo.refl _))
  | hdmHostRead offset => exact next_inj h ▸ evo_hdmHostRead (Evo.refl _)
  | hdmHostWrite offset bytes => exact next_inj h ▸ evo_settle (Evo.refl _) (evo_hdmHostWrite (Evo.refl _))
  | ftlEnable w => exact next_inj h ▸ evo_ftlEnable (Evo.refl _)
  | ftlBringupDone chans badBlocks => exact next_inj h ▸ evo_ftlBringupDone (Evo.refl _)
  | ftlDisable w => exact next_inj h ▸ evo_ftlDisable (Evo.refl _)
  | sectorRead c sector => exact next_inj h ▸ evo_sectorRead (Evo.refl _)
  | sectorReadData sector o => exact next_inj h ▸ evo_settle (Evo.refl _) (evo_sectorReadData (Evo.refl _))
  | sectorWrite c sector data => exact next_inj h ▸ evo_sectorWrite (Evo.refl _)
  | mergeTimeout unit => exact next_inj h ▸ evo_mergeTimeout (Evo.refl _)
  | pageProgramDone unit ok => exact next_inj h ▸ evo_pageProgramDone (Evo.refl _)
  | blockEraseDone block ok => exact next_inj h ▸ evo_blockEraseDone (Evo.refl _)
  | garbageCollection => exact next_inj h ▸ evo_garbageCollection (Evo.refl _)
  | staticLevelling => exact next_inj h ▸ evo_staticLevelling (Evo.refl _)
  | zqCalibration => exact next_inj h ▸ evo_zqCalibration (Evo.refl _)
  | flashChannelFail chan => exact next_inj h ▸ evo_flashChannelFail (Evo.refl _)
  | portEnable n w => exact next_inj h ▸ evo_portEnable (Evo.refl _)
  | portDisable n w => exact next_inj h ▸ evo_settle (Evo.refl _) (evo_portDisable (Evo.refl _))
  | portRetrain n => exact next_inj h ▸ evo_settle (Evo.refl _) (evo_portRetrain (Evo.refl _))
  | pmdTrainingDone n lanes => exact next_inj h ▸ evo_pmdTrainingDone (Evo.refl _)
  | trainRetry n => exact next_inj h ▸ evo_trainRetry (Evo.refl _)
  | keyxFrame n f => exact next_inj h ▸ evo_settle (Evo.refl _) (evo_keyxFrame (Evo.refl _))
  | creditFrame n f => exact next_inj h ▸ evo_settle (Evo.refl _) (evo_creditFrame (Evo.refl _))
  | linkTestFrame n echo ok => exact next_inj h ▸ evo_settle (Evo.refl _) (evo_linkTestFrame (Evo.refl _))
  | laneFault n good => exact next_inj h ▸ evo_settle (Evo.refl _) (evo_laneFault (Evo.refl _))
  | portRxTimeout n => exact next_inj h ▸ evo_settle (Evo.refl _) (evo_portRxTimeout (Evo.refl _))
  | creditTimeout n vc => exact next_inj h ▸ evo_creditTimeout (Evo.refl _)
  | dataFrame n f => exact next_inj h ▸ evo_settle (Evo.refl _) (evo_dataFrame (Evo.refl _))
  | put r bytes => exact next_inj h ▸ evo_settle (Evo.refl _) (evo_put (Evo.refl _))
  | get r host => exact next_inj h ▸ evo_get (Evo.refl _)
  | addF32 r addends => exact next_inj h ▸ evo_settle (Evo.refl _) (evo_addF32 (Evo.refl _))
  | addU64 r v => exact next_inj h ▸ evo_settle (Evo.refl _) (evo_addU64 (Evo.refl _))
  | cas64 r cmp swp => exact next_inj h ▸ evo_settle (Evo.refl _) (evo_cas64 (Evo.refl _))
  | putSignal r bytes => exact next_inj h ▸ evo_settle (Evo.refl _) (evo_putSignal (Evo.refl _))
  | remoteResponse tag status arg bytes => exact next_inj h ▸ evo_settle (Evo.refl _) (evo_remoteResponse (Evo.refl _))
  | respTimeout tag => exact next_inj h ▸ evo_settle (Evo.refl _) (evo_respTimeout (Evo.refl _))
  | busyRetry tag => exact next_inj h ▸ evo_busyRetry (Evo.refl _)
  | flowMove f => exact next_inj h ▸ evo_flowMove (Evo.refl _)
  | collTimeout coll => exact next_inj h ▸ evo_collTimeout (Evo.refl _)
  | reelSlot => exact next_inj h ▸ evo_reelSlot (Evo.refl _)
  | shaperWrite k w => exact next_inj h ▸ evo_shaperWrite (Evo.refl _)
  | gateEntryEnd n => exact next_inj h ▸ evo_gateEntryEnd (Evo.refl _)
  | gateSwapRequest n w => exact next_inj h ▸ evo_gateSwapRequest (Evo.refl _)
  | gateEnable n w => exact next_inj h ▸ evo_gateEnable (Evo.refl _)
  | moveChannelGrant mover host => exact next_inj h ▸ evo_moveChannelGrant (Evo.refl _)
  | moveComplete mover chan => exact next_inj h ▸ evo_settle (Evo.refl _) (evo_moveComplete (Evo.refl _))
  | moverReadFault mover st done => exact next_inj h ▸ evo_moverReadFault (Evo.refl _)
  | moverStopDrained mover => exact next_inj h ▸ evo_moverStopDrained (Evo.refl _)
  | moverWriteFault mover chan st done => exact next_inj h ▸ evo_settle (Evo.refl _) (evo_moverWriteFault (Evo.refl _))
  | moverReset mover done => exact next_inj h ▸ evo_moverReset (Evo.refl _)
  | mapLogRecord src words => exact next_inj h ▸ evo_settle (Evo.refl _) (evo_mapLogRecord (Evo.refl _))
  | surveyRound => exact next_inj h ▸ evo_surveyRound (Evo.refl _)
  | surveyEpoch src epoch => exact next_inj h ▸ evo_settle (Evo.refl _) (evo_surveyEpoch (Evo.refl _))
  | dtmJoin w => exact next_inj h ▸ evo_dtmJoin (Evo.refl _)
  | joinCopyDone epoch entries log ok => exact next_inj h ▸ evo_settle (Evo.refl _) (evo_joinCopyDone (Evo.refl _))
  | joinTimeout => exact next_inj h ▸ evo_joinTimeout (Evo.refl _)
  | renewTimer => exact next_inj h ▸ evo_renewTimer (Evo.refl _)
  | renew epoch words => exact next_inj h ▸ evo_settle (Evo.refl _) (evo_renew (Evo.refl _))
  | leaseLapse home => exact next_inj h ▸ evo_settle (Evo.refl _) (evo_leaseLapse (Evo.refl _))
  | holderExpiry node => exact next_inj h ▸ evo_settle (Evo.refl _) (evo_holderExpiry (Evo.refl _))
  | query epoch words => exact next_inj h ▸ evo_settle (Evo.refl _) (evo_query (Evo.refl _))
  | answer src words => exact next_inj h ▸ evo_settle (Evo.refl _) (evo_answer (Evo.refl _))
  | queryTimeout req => exact next_inj h ▸ evo_queryTimeout (Evo.refl _)
  | claim epoch words => exact next_inj h ▸ evo_settle (Evo.refl _) (evo_claim (Evo.refl _))
  | bucketCopy bucket => exact next_inj h ▸ evo_settle (Evo.refl _) (evo_bucketCopy (Evo.refl _))
  | traverseOpen t => exact next_inj h ▸ evo_settle (Evo.refl _) (evo_traverseOpen (Evo.refl _))
  | openMsg hdr rec => exact next_inj h ▸ evo_settle (Evo.refl _) (evo_openMsg (Evo.refl _))
  | accept hdr => exact next_inj h ▸ evo_settle (Evo.refl _) (evo_accept (Evo.refl _))
  | openTimeout req => exact next_inj h ▸ evo_settle (Evo.refl _) (evo_openTimeout (Evo.refl _))
  | legReserveRetry req => exact next_inj h ▸ evo_settle (Evo.refl _) (evo_legReserveRetry (Evo.refl _))
  | legReserveStall req => exact next_inj h ▸ evo_settle (Evo.refl _) (evo_legReserveStall (Evo.refl _))
  | legReq hdr entries flash => exact next_inj h ▸ evo_settle (Evo.refl _) (evo_legReq (Evo.refl _))
  | legReply hdr entries coded => exact next_inj h ▸ evo_settle (Evo.refl _) (evo_legReply (Evo.refl _))
  | legTimeout req seq => exact next_inj h ▸ evo_settle (Evo.refl _) (evo_legTimeout (Evo.refl _))
  | countEntry req srcSlot entries last => exact next_inj h ▸ evo_settle (Evo.refl _) (evo_countEntry (Evo.refl _))
  | doneMsg hdr => exact next_inj h ▸ evo_settle (Evo.refl _) (evo_doneMsg (Evo.refl _))
  | owned hdr => exact next_inj h ▸ evo_settle (Evo.refl _) (evo_owned (Evo.refl _))
  | release hdr => exact next_inj h ▸ evo_settle (Evo.refl _) (evo_release (Evo.refl _))
  | abandon hdr => exact next_inj h ▸ evo_settle (Evo.refl _) (evo_abandon (Evo.refl _))
  | traverseDestRetry req => exact next_inj h ▸ evo_settle (Evo.refl _) (evo_traverseDestRetry (Evo.refl _))
  | autoPark req => exact next_inj h ▸ evo_settle (Evo.refl _) (evo_autoPark (Evo.refl _))
  | beatSend => exact next_inj h ▸ evo_settle (Evo.refl _) (evo_beatSend (Evo.refl _))
  | beat sideband w => exact next_inj h ▸ evo_settle (Evo.refl _) (evo_beat (Evo.refl _))
  | beatMiss => exact next_inj h ▸ evo_settle (Evo.refl _) (evo_beatMiss (Evo.refl _))
  | probeReply r => exact next_inj h ▸ evo_settle (Evo.refl _) (evo_probeReply (Evo.refl _))
  | probeTimeout => exact next_inj h ▸ evo_settle (Evo.refl _) (evo_probeTimeout (Evo.refl _))
  | mirrorRecord hdr body => exact next_inj h ▸ evo_settle (Evo.refl _) (evo_mirrorRecord (Evo.refl _))
  | mirrorAckTimeout => exact next_inj h ▸ evo_settle (Evo.refl _) (evo_mirrorAckTimeout (Evo.refl _))
  | conEnable w => exact next_inj h ▸ evo_settle (Evo.refl _) (evo_conEnable (Evo.refl _))
  | yield => exact next_inj h ▸ evo_settle (Evo.refl _) (evo_yield (Evo.refl _))
  | reintegrate crcMatch => exact next_inj h ▸ evo_settle (Evo.refl _) (evo_reintegrate (Evo.refl _))
  | reintBulkDone => exact next_inj h ▸ evo_settle (Evo.refl _) (evo_reintBulkDone (Evo.refl _))
  | reintReplayPassDone => exact next_inj h ▸ evo_settle (Evo.refl _) (evo_reintReplayPassDone (Evo.refl _))
  | auditTick => exact next_inj h ▸ evo_settle (Evo.refl _) (evo_auditTick (Evo.refl _))
  | compareProbe crc => exact next_inj h ▸ evo_settle (Evo.refl _) (evo_compareProbe (Evo.refl _))
  | droopTrip site => exact next_inj h ▸ evo_droopTrip (Evo.refl _)
  | droopClear => exact next_inj h ▸ evo_droopClear (Evo.refl _)
  | droopRecovery => exact next_inj h ▸ evo_droopRecovery (Evo.refl _)
  | powerWindow watts => exact next_inj h ▸ evo_powerWindow (Evo.refl _)
  | idleGate u => exact next_inj h ▸ evo_idleGate (Evo.refl _)
  | hold => exact next_inj h ▸ evo_hold (Evo.refl _)
  | resume => exact next_inj h ▸ evo_resume (Evo.refl _)
  | controllerReset w => exact next_inj h ▸ evo_controllerReset (Evo.refl _)
  | crstFall => exact next_inj h ▸ evo_crstFall (Evo.refl _)
  | controllerFault cause => exact next_inj h ▸ evo_controllerFault (Evo.refl _)
  | porst => exact next_inj h ▸ evo_porst (Evo.refl _)
  | porstRelease busSel addr coresPass => exact next_inj h ▸ evo_porstRelease (Evo.refl _)
  | railFault rail => exact next_inj h ▸ evo_railFault (Evo.refl _)
  | railRecovery => exact next_inj h ▸ evo_railRecovery (Evo.refl _)
  | hbmCheck first countM1 => exact next_inj h ▸ evo_hbmCheck (Evo.refl _)
  | hbmCheckReply r => exact next_inj h ▸ evo_hbmCheckReply (Evo.refl _)
  | hbmCheckCrcRequest granule => exact next_inj h ▸ evo_hbmCheckCrcRequest (Evo.refl _)
  | hbmClear first countM1 => exact next_inj h ▸ evo_hbmClear (Evo.refl _)
  | hbmClearDone => exact next_inj h ▸ evo_settle (Evo.refl _) (evo_hbmClearDone (Evo.refl _))
  | stackTempPoll temps => exact next_inj h ▸ evo_stackTempPoll (Evo.refl _)
  | thermalAlert dieT stackT => exact next_inj h ▸ evo_thermalAlert (Evo.refl _)
  | thermalAlertClear dieT stackT => exact next_inj h ▸ evo_thermalAlertClear (Evo.refl _)
  | thermalTrip => exact next_inj h ▸ evo_thermalTrip (Evo.refl _)
  | bootGo => exact next_inj h ▸ evo_bootGo (Evo.refl _)
  | imageFetchDone img => exact next_inj h ▸ evo_imageFetchDone (Evo.refl _)
  | prelockBar0Access a write => exact next_inj h ▸ evo_prelockBar0Access (Evo.refl _)
  | protWindowWrite a w => exact next_inj h ▸ evo_protWindowWrite (Evo.refl _)
  | spdmGetVersion => exact next_inj h ▸ evo_spdmGetVersion (Evo.refl _)
  | spdmGetCapabilities => exact next_inj h ▸ evo_spdmGetCapabilities (Evo.refl _)
  | spdmNegotiateAlgorithms offersP521 offersSha512 => exact next_inj h ▸ evo_spdmNegotiateAlgorithms (Evo.refl _)
  | spdmGetDigests => exact next_inj h ▸ evo_spdmGetDigests (Evo.refl _)
  | spdmGetCertificate slot offset length => exact next_inj h ▸ evo_spdmGetCertificate (Evo.refl _)
  | spdmChallenge slot nonce => exact next_inj h ▸ evo_spdmChallenge (Evo.refl _)
  | spdmGetMeasurements index nonce => exact next_inj h ▸ evo_spdmGetMeasurements (Evo.refl _)
  | errorRecordWrite => exact next_inj h ▸ evo_errorRecordWrite (Evo.refl _)
  | refetchRangeData tensor offset bytes blocksOk => exact next_inj h ▸ evo_settle (Evo.refl _) (evo_refetchRangeData (Evo.refl _))
  | refetchFail tensor offset => exact next_inj h ▸ evo_refetchFail (Evo.refl _)
  | registerWrite a w => exact next_inj h ▸ evo_settle (Evo.refl _) (evo_registerWrite (Evo.refl _))
  | rcFieldRead a => exact next_inj h ▸ evo_rcFieldRead (Evo.refl _)
  | bar0Unsupported a write => exact next_inj h ▸ evo_bar0Unsupported (Evo.refl _)
  | crstRelease => exact next_inj h ▸ evo_crstRelease (Evo.refl _)
  | creditFrameInterval n => exact next_inj h ▸ evo_creditFrameInterval (Evo.refl _)
  | frameOnWireFinishes n => exact next_inj h ▸ evo_frameOnWireFinishes (Evo.refl _)
  | cancelReachesOwner req node src => exact next_inj h ▸ evo_settle (Evo.refl _) (evo_cancelReachesOwner (Evo.refl _))
  | claimResend home seq => exact next_inj h ▸ evo_claimResend (Evo.refl _)

end Sys2Proof.Laws
end

