-- ==== Sys2Proof/Laws/EvoIdle.lean ====
section
/-! SUPPORT. The operations of the idle cycle keep registers and memory in their canonical form, leave the queue alone, and
take nothing back that was sent (`Evo`). -/

namespace Sys2Proof.Laws

open Sys2Proof Sys2Proof.Machine

theorem evo_account {z : State} {s : State} (hs : Evo z s) :
    Evo z (Machine.account s) := by
  unfold Machine.account
  repeat' first
    | (with_reducible first
        | assumption | apply Evo.foldl | apply Evo.foldl_fst | apply Evo.elim | apply Evo.getD)
    | simp only [evo_mk] | split

theorem evo_idleCycle {z : State} {s : State} (hs : Evo z s) :
    Evo z (Machine.idleCycle s) := by
  unfold Machine.idleCycle
  repeat' with_reducible first
    | assumption | apply evo_wr | apply evo_account

end Sys2Proof.Laws
end

