-- ==== Sys2Proof/Laws/Settle.lean ====
section
/-! SUPPORT. What follows a command in a quiet state: nothing. -/

namespace Sys2Proof.Laws

open Sys2Proof Sys2Proof.Machine

/-- Every field a quiet state answers for. -/
theorem quiet_iff (s : State) : s.quiet = true ↔
    s.tak.ended = [] ∧ (∀ p ∈ s.tak.part, p.2.waits = false) ∧ (∀ e ∈ s.hpt.ctxs, e.2.down = none) ∧ s.trv.waiting = [] ∧
    (∀ e ∈ s.trv.trav, e.2.repair = none ∧ e.2.src ≠ .running ∧ e.2.src ≠ .opening) ∧ s.dtm.held = [] ∧
    (∀ e ∈ s.gth.runs, thas s.hpt.flight e.1 = true) ∧ (∀ e ∈ s.gth.refresh, thas s.hpt.flight e.1 = true) ∧
    conState s ≠ 4 ∧ s.con.yielding ≠ 1 ∧ s.con.yielding ≠ 4 ∧ s.kva.starved = [] ∧
    (∀ r ∈ tvals s.sch.reqs, r.damaged = false) ∧ s.clk.gated = [] := by
  simp [State.quiet, and_assoc, List.all_eq_true]

theorem foldl_id {α : Type} (f : State → α → State) (s : State) (l : List α) (h : ∀ x ∈ l, f s x = s) :
    l.foldl f s = s := by
  induction l with
  | nil => rfl
  | cons x l ih =>
    rw [List.foldl_cons, h x (by simp)]
    exact ih (fun y hy => h y (List.mem_cons_of_mem x hy))

theorem takesSettle_quiet (s : State) (h : s.tak.ended = []) : takesSettle s = s := by
  unfold takesSettle
  rw [h, List.foldl_nil, ← h]

theorem teardownSettle_quiet (s : State) (h : ∀ e ∈ s.hpt.ctxs, e.2.down = none) : teardownSettle s = s := by
  unfold teardownSettle
  refine foldl_id _ s _ (fun e he => ?_)
  rw [h e he]

theorem settleWaits_quiet (n : Nat) (s : State) (h : ∀ p ∈ s.tak.part, p.2.waits = false) : settleWaits n s = s := by
  cases n with
  | zero => rfl
  | succ n =>
    unfold settleWaits
    split
    next r p hf =>
      have hw := h _ (List.mem_of_find?_eq_some hf)
      split
      next o ho => simp [PartTake.waits, ho] at hw
      · rfl
    · rfl

theorem filter_nil {α : Type} (f : α → Bool) (l : List α) (h : ∀ x ∈ l, f x = false) : l.filter f = [] := by
  rw [List.filter_eq_nil_iff]
  intro x hx
  rw [h x hx]
  exact Bool.false_ne_true

theorem trvSettle_quiet (s : State) (h : ∀ e ∈ s.trv.trav, e.2.repair = none ∧ e.2.src ≠ .running ∧ e.2.src ≠ .opening) :
    trvSettle s = s := by
  unfold trvSettle
  rw [filter_nil]
  · rfl
  · intro e he
    obtain ⟨-, h1, h2⟩ := h e he
    have h3 : (e.2.src == SrcState.running || e.2.src == SrcState.opening) = false := by
      cases hs : e.2.src <;> first | rfl | exact absurd hs h1 | exact absurd hs h2
    rw [h3]
    rfl

theorem endRepairs_quiet (s : State) (h : ∀ e ∈ s.trv.trav, e.2.repair = none ∧ e.2.src ≠ .running ∧ e.2.src ≠ .opening) :
    endRepairs s = s := by
  unfold endRepairs
  rw [filter_nil]
  · rfl
  · intro e he
    rw [(h e he).1]
    rfl

theorem pumpWaiting_quiet (n : Nat) (s : State) (h : s.trv.waiting = []) : pumpWaiting n s = s := by
  cases n with
  | zero => rfl
  | succ n =>
    unfold pumpWaiting
    rw [h]
    rfl

theorem answerHeld_quiet (s : State) (h : s.dtm.held = []) : answerHeld s = s := by
  unfold answerHeld
  simp only [List.partition_eq_filter_filter, h, List.filter_nil, List.foldl_nil]
  rw [← h]

theorem sweepRuns_quiet (s : State) (h : ∀ e ∈ s.gth.runs, thas s.hpt.flight e.1 = true)
    (k : ∀ e ∈ s.gth.refresh, thas s.hpt.flight e.1 = true) : sweepRuns s = s := by
  unfold sweepRuns
  rw [if_neg]
  simp only [Bool.or_eq_true, List.any_eq_true, not_or, not_exists, not_and]
  exact ⟨fun e he => by simp [h e he], fun e he => by simp [k e he]⟩

theorem deltaFull_quiet (s : State) (h : conState s ≠ 4) : deltaFull s = s := by
  unfold deltaFull
  exact if_neg (fun k => h k.1)

theorem yieldSettle_quiet (s : State) (h : s.con.yielding ≠ 1) (k : s.con.yielding ≠ 4) : yieldSettle s = s := by
  unfold yieldSettle
  rw [if_neg (fun x => h x.1), if_neg (fun x => k x.1)]

theorem feedStarved_quiet (s : State) (h : s.kva.starved = []) : feedStarved s = s := by
  unfold feedStarved
  simp only [List.partition_eq_filter_filter, h, List.filter_nil, List.foldl_nil]
  rw [← h]

theorem releaseDamaged_quiet (s : State) (h : ∀ r ∈ tvals s.sch.reqs, r.damaged = false) : releaseDamaged s = s := by
  unfold releaseDamaged
  rw [if_neg]
  simp only [List.any_eq_true, not_exists, not_and]
  intro r hr
  rw [h r hr]
  exact Bool.false_ne_true

theorem ungate_quiet (s : State) (h : s.clk.gated = []) : ungate s = s := by
  unfold ungate
  rw [h]
  rfl

theorem portsSettle_quiet (s : State) : portsSettle (contPorts s) s = s := by
  unfold portsSettle
  split
  next h => simp at h
  · rfl

/-- One round of what follows leaves a quiet state as it is. -/
theorem settleRound_quiet (s : State) (h : s.quiet = true) : settleRound s.dtm.map (contPorts s) s = s := by
  obtain ⟨h1, h2, h3, h4, h5, h6, h7, h8, h9, h10, h11, h12, h13, h14⟩ := (quiet_iff s).1 h
  unfold settleRound
  dsimp only
  rw [takesSettle_quiet s h1, teardownSettle_quiet s h3]
  rw [show mapSettle s.dtm.map s = s from if_pos rfl, show conMapSettle s.dtm.map s = s from if_pos rfl]
  rw [portsSettle_quiet, settleWaits_quiet _ s h2, trvSettle_quiet s h5, pumpWaiting_quiet _ s h4, endRepairs_quiet s h5,
    answerHeld_quiet s h6, sweepRuns_quiet s h7 h8, deltaFull_quiet s h9, yieldSettle_quiet s h10 h11, feedStarved_quiet s h12,
    releaseDamaged_quiet s h13, ungate_quiet s h14]

/-- Nothing follows a command whose own effect leaves a quiet state, the map and the continuity ports as they were. -/
theorem settle_quiet (old s : State) (h : s.quiet = true) (hm : old.dtm.map = s.dtm.map) (hp : contPorts old = contPorts s) :
    settle old s = s := by
  have h0 := settleRound_quiet s h
  obtain ⟨h1, -, h3, -⟩ := (quiet_iff s).1 h
  unfold settle
  rw [hm, hp]
  show (if unsettled s.dtm.map (settleRound s.dtm.map (contPorts s) s) = true then _ else settleRound s.dtm.map (contPorts s) s) = s
  rw [h0, if_neg]
  unfold unsettled
  simp only [h1, List.isEmpty_nil, Bool.not_true, bne_self_eq_false, Bool.or_false, Bool.false_or, List.any_eq_true, not_exists,
    not_and]
  intro e he
  rw [h3 e he]
  exact Bool.false_ne_true

end Sys2Proof.Laws
end

