-- ==== Sys2Proof/Laws/State.lean ====
section
/-! SUPPORT. What each named update of the state leaves: one equation for each field, true by definition. -/

namespace Sys2Proof.Laws

open Sys2Proof Sys2Proof.Machine

/-! ### setReg -/

@[simp] theorem setReg_hbm (s : State) (off : Nat) (w : Word) : (s.setReg off w).hbm = s.hbm := rfl
@[simp] theorem setReg_hpt (s : State) (off : Nat) (w : Word) : (s.setReg off w).hpt = s.hpt := rfl
@[simp] theorem setReg_sch (s : State) (off : Nat) (w : Word) : (s.setReg off w).sch = s.sch := rfl
@[simp] theorem setReg_mem (s : State) (off : Nat) (w : Word) : (s.setReg off w).mem = s.mem := rfl
@[simp] theorem setReg_clk (s : State) (off : Nat) (w : Word) : (s.setReg off w).clk = s.clk := rfl
@[simp] theorem setReg_sec (s : State) (off : Nat) (w : Word) : (s.setReg off w).sec = s.sec := rfl
@[simp] theorem setReg_ras (s : State) (off : Nat) (w : Word) : (s.setReg off w).ras = s.ras := rfl
@[simp] theorem setReg_mgt (s : State) (off : Nat) (w : Word) : (s.setReg off w).mgt = s.mgt := rfl
@[simp] theorem setReg_tak (s : State) (off : Nat) (w : Word) : (s.setReg off w).tak = s.tak := rfl
@[simp] theorem setReg_dtm (s : State) (off : Nat) (w : Word) : (s.setReg off w).dtm = s.dtm := rfl
@[simp] theorem setReg_kva (s : State) (off : Nat) (w : Word) : (s.setReg off w).kva = s.kva := rfl
@[simp] theorem setReg_mxe (s : State) (off : Nat) (w : Word) : (s.setReg off w).mxe = s.mxe := rfl
@[simp] theorem setReg_att (s : State) (off : Nat) (w : Word) : (s.setReg off w).att = s.att := rfl
@[simp] theorem setReg_smp (s : State) (off : Nat) (w : Word) : (s.setReg off w).smp = s.smp := rfl
@[simp] theorem setReg_con (s : State) (off : Nat) (w : Word) : (s.setReg off w).con = s.con := rfl
@[simp] theorem setReg_glk (s : State) (off : Nat) (w : Word) : (s.setReg off w).glk = s.glk := rfl
@[simp] theorem setReg_shp (s : State) (off : Nat) (w : Word) : (s.setReg off w).shp = s.shp := rfl
@[simp] theorem setReg_trv (s : State) (off : Nat) (w : Word) : (s.setReg off w).trv = s.trv := rfl
@[simp] theorem setReg_flt (s : State) (off : Nat) (w : Word) : (s.setReg off w).flt = s.flt := rfl
@[simp] theorem setReg_gth (s : State) (off : Nat) (w : Word) : (s.setReg off w).gth = s.gth := rfl
@[simp] theorem setReg_bmv (s : State) (off : Nat) (w : Word) : (s.setReg off w).bmv = s.bmv := rfl
@[simp] theorem setReg_out (s : State) (off : Nat) (w : Word) : (s.setReg off w).out = s.out := rfl
@[simp] theorem setReg_pending (s : State) (off : Nat) (w : Word) : (s.setReg off w).pending = s.pending := rfl
@[simp] theorem setReg_free (s : State) (off : Nat) (w : Word) : (s.setReg off w).free = s.free := rfl

/-! ### wri -/

@[simp] theorem wri_hbm (s : State) (f : Field) (i v : Nat) : (wri s f i v).hbm = s.hbm := rfl
@[simp] theorem wri_hpt (s : State) (f : Field) (i v : Nat) : (wri s f i v).hpt = s.hpt := rfl
@[simp] theorem wri_sch (s : State) (f : Field) (i v : Nat) : (wri s f i v).sch = s.sch := rfl
@[simp] theorem wri_mem (s : State) (f : Field) (i v : Nat) : (wri s f i v).mem = s.mem := rfl
@[simp] theorem wri_clk (s : State) (f : Field) (i v : Nat) : (wri s f i v).clk = s.clk := rfl
@[simp] theorem wri_sec (s : State) (f : Field) (i v : Nat) : (wri s f i v).sec = s.sec := rfl
@[simp] theorem wri_ras (s : State) (f : Field) (i v : Nat) : (wri s f i v).ras = s.ras := rfl
@[simp] theorem wri_mgt (s : State) (f : Field) (i v : Nat) : (wri s f i v).mgt = s.mgt := rfl
@[simp] theorem wri_tak (s : State) (f : Field) (i v : Nat) : (wri s f i v).tak = s.tak := rfl
@[simp] theorem wri_dtm (s : State) (f : Field) (i v : Nat) : (wri s f i v).dtm = s.dtm := rfl
@[simp] theorem wri_kva (s : State) (f : Field) (i v : Nat) : (wri s f i v).kva = s.kva := rfl
@[simp] theorem wri_mxe (s : State) (f : Field) (i v : Nat) : (wri s f i v).mxe = s.mxe := rfl
@[simp] theorem wri_att (s : State) (f : Field) (i v : Nat) : (wri s f i v).att = s.att := rfl
@[simp] theorem wri_smp (s : State) (f : Field) (i v : Nat) : (wri s f i v).smp = s.smp := rfl
@[simp] theorem wri_con (s : State) (f : Field) (i v : Nat) : (wri s f i v).con = s.con := rfl
@[simp] theorem wri_glk (s : State) (f : Field) (i v : Nat) : (wri s f i v).glk = s.glk := rfl
@[simp] theorem wri_shp (s : State) (f : Field) (i v : Nat) : (wri s f i v).shp = s.shp := rfl
@[simp] theorem wri_trv (s : State) (f : Field) (i v : Nat) : (wri s f i v).trv = s.trv := rfl
@[simp] theorem wri_flt (s : State) (f : Field) (i v : Nat) : (wri s f i v).flt = s.flt := rfl
@[simp] theorem wri_gth (s : State) (f : Field) (i v : Nat) : (wri s f i v).gth = s.gth := rfl
@[simp] theorem wri_bmv (s : State) (f : Field) (i v : Nat) : (wri s f i v).bmv = s.bmv := rfl
@[simp] theorem wri_out (s : State) (f : Field) (i v : Nat) : (wri s f i v).out = s.out := rfl
@[simp] theorem wri_pending (s : State) (f : Field) (i v : Nat) : (wri s f i v).pending = s.pending := rfl
@[simp] theorem wri_free (s : State) (f : Field) (i v : Nat) : (wri s f i v).free = s.free := rfl

/-! ### wr -/

@[simp] theorem wr_hbm (s : State) (f : Field) (v : Nat) : (wr s f v).hbm = s.hbm := rfl
@[simp] theorem wr_hpt (s : State) (f : Field) (v : Nat) : (wr s f v).hpt = s.hpt := rfl
@[simp] theorem wr_sch (s : State) (f : Field) (v : Nat) : (wr s f v).sch = s.sch := rfl
@[simp] theorem wr_mem (s : State) (f : Field) (v : Nat) : (wr s f v).mem = s.mem := rfl
@[simp] theorem wr_clk (s : State) (f : Field) (v : Nat) : (wr s f v).clk = s.clk := rfl
@[simp] theorem wr_sec (s : State) (f : Field) (v : Nat) : (wr s f v).sec = s.sec := rfl
@[simp] theorem wr_ras (s : State) (f : Field) (v : Nat) : (wr s f v).ras = s.ras := rfl
@[simp] theorem wr_mgt (s : State) (f : Field) (v : Nat) : (wr s f v).mgt = s.mgt := rfl
@[simp] theorem wr_tak (s : State) (f : Field) (v : Nat) : (wr s f v).tak = s.tak := rfl
@[simp] theorem wr_dtm (s : State) (f : Field) (v : Nat) : (wr s f v).dtm = s.dtm := rfl
@[simp] theorem wr_kva (s : State) (f : Field) (v : Nat) : (wr s f v).kva = s.kva := rfl
@[simp] theorem wr_mxe (s : State) (f : Field) (v : Nat) : (wr s f v).mxe = s.mxe := rfl
@[simp] theorem wr_att (s : State) (f : Field) (v : Nat) : (wr s f v).att = s.att := rfl
@[simp] theorem wr_smp (s : State) (f : Field) (v : Nat) : (wr s f v).smp = s.smp := rfl
@[simp] theorem wr_con (s : State) (f : Field) (v : Nat) : (wr s f v).con = s.con := rfl
@[simp] theorem wr_glk (s : State) (f : Field) (v : Nat) : (wr s f v).glk = s.glk := rfl
@[simp] theorem wr_shp (s : State) (f : Field) (v : Nat) : (wr s f v).shp = s.shp := rfl
@[simp] theorem wr_trv (s : State) (f : Field) (v : Nat) : (wr s f v).trv = s.trv := rfl
@[simp] theorem wr_flt (s : State) (f : Field) (v : Nat) : (wr s f v).flt = s.flt := rfl
@[simp] theorem wr_gth (s : State) (f : Field) (v : Nat) : (wr s f v).gth = s.gth := rfl
@[simp] theorem wr_bmv (s : State) (f : Field) (v : Nat) : (wr s f v).bmv = s.bmv := rfl
@[simp] theorem wr_out (s : State) (f : Field) (v : Nat) : (wr s f v).out = s.out := rfl
@[simp] theorem wr_pending (s : State) (f : Field) (v : Nat) : (wr s f v).pending = s.pending := rfl
@[simp] theorem wr_free (s : State) (f : Field) (v : Nat) : (wr s f v).free = s.free := rfl

/-! ### addSat -/

@[simp] theorem addSat_hbm (s : State) (f : Field) (i n : Nat) : (addSat s f i n).hbm = s.hbm := rfl
@[simp] theorem addSat_hpt (s : State) (f : Field) (i n : Nat) : (addSat s f i n).hpt = s.hpt := rfl
@[simp] theorem addSat_sch (s : State) (f : Field) (i n : Nat) : (addSat s f i n).sch = s.sch := rfl
@[simp] theorem addSat_mem (s : State) (f : Field) (i n : Nat) : (addSat s f i n).mem = s.mem := rfl
@[simp] theorem addSat_clk (s : State) (f : Field) (i n : Nat) : (addSat s f i n).clk = s.clk := rfl
@[simp] theorem addSat_sec (s : State) (f : Field) (i n : Nat) : (addSat s f i n).sec = s.sec := rfl
@[simp] theorem addSat_ras (s : State) (f : Field) (i n : Nat) : (addSat s f i n).ras = s.ras := rfl
@[simp] theorem addSat_mgt (s : State) (f : Field) (i n : Nat) : (addSat s f i n).mgt = s.mgt := rfl
@[simp] theorem addSat_tak (s : State) (f : Field) (i n : Nat) : (addSat s f i n).tak = s.tak := rfl
@[simp] theorem addSat_dtm (s : State) (f : Field) (i n : Nat) : (addSat s f i n).dtm = s.dtm := rfl
@[simp] theorem addSat_kva (s : State) (f : Field) (i n : Nat) : (addSat s f i n).kva = s.kva := rfl
@[simp] theorem addSat_mxe (s : State) (f : Field) (i n : Nat) : (addSat s f i n).mxe = s.mxe := rfl
@[simp] theorem addSat_att (s : State) (f : Field) (i n : Nat) : (addSat s f i n).att = s.att := rfl
@[simp] theorem addSat_smp (s : State) (f : Field) (i n : Nat) : (addSat s f i n).smp = s.smp := rfl
@[simp] theorem addSat_con (s : State) (f : Field) (i n : Nat) : (addSat s f i n).con = s.con := rfl
@[simp] theorem addSat_glk (s : State) (f : Field) (i n : Nat) : (addSat s f i n).glk = s.glk := rfl
@[simp] theorem addSat_shp (s : State) (f : Field) (i n : Nat) : (addSat s f i n).shp = s.shp := rfl
@[simp] theorem addSat_trv (s : State) (f : Field) (i n : Nat) : (addSat s f i n).trv = s.trv := rfl
@[simp] theorem addSat_flt (s : State) (f : Field) (i n : Nat) : (addSat s f i n).flt = s.flt := rfl
@[simp] theorem addSat_gth (s : State) (f : Field) (i n : Nat) : (addSat s f i n).gth = s.gth := rfl
@[simp] theorem addSat_bmv (s : State) (f : Field) (i n : Nat) : (addSat s f i n).bmv = s.bmv := rfl
@[simp] theorem addSat_out (s : State) (f : Field) (i n : Nat) : (addSat s f i n).out = s.out := rfl
@[simp] theorem addSat_pending (s : State) (f : Field) (i n : Nat) : (addSat s f i n).pending = s.pending := rfl
@[simp] theorem addSat_free (s : State) (f : Field) (i n : Nat) : (addSat s f i n).free = s.free := rfl

/-! ### bump -/

@[simp] theorem bump_hbm (s : State) (f : Field) : (bump s f).hbm = s.hbm := rfl
@[simp] theorem bump_hpt (s : State) (f : Field) : (bump s f).hpt = s.hpt := rfl
@[simp] theorem bump_sch (s : State) (f : Field) : (bump s f).sch = s.sch := rfl
@[simp] theorem bump_mem (s : State) (f : Field) : (bump s f).mem = s.mem := rfl
@[simp] theorem bump_clk (s : State) (f : Field) : (bump s f).clk = s.clk := rfl
@[simp] theorem bump_sec (s : State) (f : Field) : (bump s f).sec = s.sec := rfl
@[simp] theorem bump_ras (s : State) (f : Field) : (bump s f).ras = s.ras := rfl
@[simp] theorem bump_mgt (s : State) (f : Field) : (bump s f).mgt = s.mgt := rfl
@[simp] theorem bump_tak (s : State) (f : Field) : (bump s f).tak = s.tak := rfl
@[simp] theorem bump_dtm (s : State) (f : Field) : (bump s f).dtm = s.dtm := rfl
@[simp] theorem bump_kva (s : State) (f : Field) : (bump s f).kva = s.kva := rfl
@[simp] theorem bump_mxe (s : State) (f : Field) : (bump s f).mxe = s.mxe := rfl
@[simp] theorem bump_att (s : State) (f : Field) : (bump s f).att = s.att := rfl
@[simp] theorem bump_smp (s : State) (f : Field) : (bump s f).smp = s.smp := rfl
@[simp] theorem bump_con (s : State) (f : Field) : (bump s f).con = s.con := rfl
@[simp] theorem bump_glk (s : State) (f : Field) : (bump s f).glk = s.glk := rfl
@[simp] theorem bump_shp (s : State) (f : Field) : (bump s f).shp = s.shp := rfl
@[simp] theorem bump_trv (s : State) (f : Field) : (bump s f).trv = s.trv := rfl
@[simp] theorem bump_flt (s : State) (f : Field) : (bump s f).flt = s.flt := rfl
@[simp] theorem bump_gth (s : State) (f : Field) : (bump s f).gth = s.gth := rfl
@[simp] theorem bump_bmv (s : State) (f : Field) : (bump s f).bmv = s.bmv := rfl
@[simp] theorem bump_out (s : State) (f : Field) : (bump s f).out = s.out := rfl
@[simp] theorem bump_pending (s : State) (f : Field) : (bump s f).pending = s.pending := rfl
@[simp] theorem bump_free (s : State) (f : Field) : (bump s f).free = s.free := rfl

/-! ### bumpBy -/

@[simp] theorem bumpBy_hbm (s : State) (f : Field) (n : Nat) : (bumpBy s f n).hbm = s.hbm := rfl
@[simp] theorem bumpBy_hpt (s : State) (f : Field) (n : Nat) : (bumpBy s f n).hpt = s.hpt := rfl
@[simp] theorem bumpBy_sch (s : State) (f : Field) (n : Nat) : (bumpBy s f n).sch = s.sch := rfl
@[simp] theorem bumpBy_mem (s : State) (f : Field) (n : Nat) : (bumpBy s f n).mem = s.mem := rfl
@[simp] theorem bumpBy_clk (s : State) (f : Field) (n : Nat) : (bumpBy s f n).clk = s.clk := rfl
@[simp] theorem bumpBy_sec (s : State) (f : Field) (n : Nat) : (bumpBy s f n).sec = s.sec := rfl
@[simp] theorem bumpBy_ras (s : State) (f : Field) (n : Nat) : (bumpBy s f n).ras = s.ras := rfl
@[simp] theorem bumpBy_mgt (s : State) (f : Field) (n : Nat) : (bumpBy s f n).mgt = s.mgt := rfl
@[simp] theorem bumpBy_tak (s : State) (f : Field) (n : Nat) : (bumpBy s f n).tak = s.tak := rfl
@[simp] theorem bumpBy_dtm (s : State) (f : Field) (n : Nat) : (bumpBy s f n).dtm = s.dtm := rfl
@[simp] theorem bumpBy_kva (s : State) (f : Field) (n : Nat) : (bumpBy s f n).kva = s.kva := rfl
@[simp] theorem bumpBy_mxe (s : State) (f : Field) (n : Nat) : (bumpBy s f n).mxe = s.mxe := rfl
@[simp] theorem bumpBy_att (s : State) (f : Field) (n : Nat) : (bumpBy s f n).att = s.att := rfl
@[simp] theorem bumpBy_smp (s : State) (f : Field) (n : Nat) : (bumpBy s f n).smp = s.smp := rfl
@[simp] theorem bumpBy_con (s : State) (f : Field) (n : Nat) : (bumpBy s f n).con = s.con := rfl
@[simp] theorem bumpBy_glk (s : State) (f : Field) (n : Nat) : (bumpBy s f n).glk = s.glk := rfl
@[simp] theorem bumpBy_shp (s : State) (f : Field) (n : Nat) : (bumpBy s f n).shp = s.shp := rfl
@[simp] theorem bumpBy_trv (s : State) (f : Field) (n : Nat) : (bumpBy s f n).trv = s.trv := rfl
@[simp] theorem bumpBy_flt (s : State) (f : Field) (n : Nat) : (bumpBy s f n).flt = s.flt := rfl
@[simp] theorem bumpBy_gth (s : State) (f : Field) (n : Nat) : (bumpBy s f n).gth = s.gth := rfl
@[simp] theorem bumpBy_bmv (s : State) (f : Field) (n : Nat) : (bumpBy s f n).bmv = s.bmv := rfl
@[simp] theorem bumpBy_out (s : State) (f : Field) (n : Nat) : (bumpBy s f n).out = s.out := rfl
@[simp] theorem bumpBy_pending (s : State) (f : Field) (n : Nat) : (bumpBy s f n).pending = s.pending := rfl
@[simp] theorem bumpBy_free (s : State) (f : Field) (n : Nat) : (bumpBy s f n).free = s.free := rfl

/-! ### emit -/

@[simp] theorem emit_regs (s : State) (o : Output) : (emit s o).regs = s.regs := rfl
@[simp] theorem emit_hbm (s : State) (o : Output) : (emit s o).hbm = s.hbm := rfl
@[simp] theorem emit_hpt (s : State) (o : Output) : (emit s o).hpt = s.hpt := rfl
@[simp] theorem emit_sch (s : State) (o : Output) : (emit s o).sch = s.sch := rfl
@[simp] theorem emit_mem (s : State) (o : Output) : (emit s o).mem = s.mem := rfl
@[simp] theorem emit_clk (s : State) (o : Output) : (emit s o).clk = s.clk := rfl
@[simp] theorem emit_sec (s : State) (o : Output) : (emit s o).sec = s.sec := rfl
@[simp] theorem emit_ras (s : State) (o : Output) : (emit s o).ras = s.ras := rfl
@[simp] theorem emit_mgt (s : State) (o : Output) : (emit s o).mgt = s.mgt := rfl
@[simp] theorem emit_tak (s : State) (o : Output) : (emit s o).tak = s.tak := rfl
@[simp] theorem emit_dtm (s : State) (o : Output) : (emit s o).dtm = s.dtm := rfl
@[simp] theorem emit_kva (s : State) (o : Output) : (emit s o).kva = s.kva := rfl
@[simp] theorem emit_mxe (s : State) (o : Output) : (emit s o).mxe = s.mxe := rfl
@[simp] theorem emit_att (s : State) (o : Output) : (emit s o).att = s.att := rfl
@[simp] theorem emit_smp (s : State) (o : Output) : (emit s o).smp = s.smp := rfl
@[simp] theorem emit_con (s : State) (o : Output) : (emit s o).con = s.con := rfl
@[simp] theorem emit_glk (s : State) (o : Output) : (emit s o).glk = s.glk := rfl
@[simp] theorem emit_shp (s : State) (o : Output) : (emit s o).shp = s.shp := rfl
@[simp] theorem emit_trv (s : State) (o : Output) : (emit s o).trv = s.trv := rfl
@[simp] theorem emit_flt (s : State) (o : Output) : (emit s o).flt = s.flt := rfl
@[simp] theorem emit_gth (s : State) (o : Output) : (emit s o).gth = s.gth := rfl
@[simp] theorem emit_bmv (s : State) (o : Output) : (emit s o).bmv = s.bmv := rfl
@[simp] theorem emit_pending (s : State) (o : Output) : (emit s o).pending = s.pending := rfl
@[simp] theorem emit_free (s : State) (o : Output) : (emit s o).free = s.free := rfl
@[simp] theorem emit_out (s : State) (o : Output) : (emit s o).out = s.out ++ [o] := rfl
@[simp] theorem rdi_emit (s : State) (o : Output) (g : Field) (j : Nat) : rdi (emit s o) g j = rdi s g j := rfl
@[simp] theorem rd_emit (s : State) (o : Output) (g : Field) : rd (emit s o) g = rd s g := rfl

/-! ### emits -/

@[simp] theorem emits_regs (s : State) (os : List Output) : (emits s os).regs = s.regs := rfl
@[simp] theorem emits_hbm (s : State) (os : List Output) : (emits s os).hbm = s.hbm := rfl
@[simp] theorem emits_hpt (s : State) (os : List Output) : (emits s os).hpt = s.hpt := rfl
@[simp] theorem emits_sch (s : State) (os : List Output) : (emits s os).sch = s.sch := rfl
@[simp] theorem emits_mem (s : State) (os : List Output) : (emits s os).mem = s.mem := rfl
@[simp] theorem emits_clk (s : State) (os : List Output) : (emits s os).clk = s.clk := rfl
@[simp] theorem emits_sec (s : State) (os : List Output) : (emits s os).sec = s.sec := rfl
@[simp] theorem emits_ras (s : State) (os : List Output) : (emits s os).ras = s.ras := rfl
@[simp] theorem emits_mgt (s : State) (os : List Output) : (emits s os).mgt = s.mgt := rfl
@[simp] theorem emits_tak (s : State) (os : List Output) : (emits s os).tak = s.tak := rfl
@[simp] theorem emits_dtm (s : State) (os : List Output) : (emits s os).dtm = s.dtm := rfl
@[simp] theorem emits_kva (s : State) (os : List Output) : (emits s os).kva = s.kva := rfl
@[simp] theorem emits_mxe (s : State) (os : List Output) : (emits s os).mxe = s.mxe := rfl
@[simp] theorem emits_att (s : State) (os : List Output) : (emits s os).att = s.att := rfl
@[simp] theorem emits_smp (s : State) (os : List Output) : (emits s os).smp = s.smp := rfl
@[simp] theorem emits_con (s : State) (os : List Output) : (emits s os).con = s.con := rfl
@[simp] theorem emits_glk (s : State) (os : List Output) : (emits s os).glk = s.glk := rfl
@[simp] theorem emits_shp (s : State) (os : List Output) : (emits s os).shp = s.shp := rfl
@[simp] theorem emits_trv (s : State) (os : List Output) : (emits s os).trv = s.trv := rfl
@[simp] theorem emits_flt (s : State) (os : List Output) : (emits s os).flt = s.flt := rfl
@[simp] theorem emits_gth (s : State) (os : List Output) : (emits s os).gth = s.gth := rfl
@[simp] theorem emits_bmv (s : State) (os : List Output) : (emits s os).bmv = s.bmv := rfl
@[simp] theorem emits_pending (s : State) (os : List Output) : (emits s os).pending = s.pending := rfl
@[simp] theorem emits_free (s : State) (os : List Output) : (emits s os).free = s.free := rfl
@[simp] theorem emits_out (s : State) (os : List Output) : (emits s os).out = s.out ++ os := rfl
@[simp] theorem rdi_emits (s : State) (os : List Output) (g : Field) (j : Nat) : rdi (emits s os) g j = rdi s g j := rfl
@[simp] theorem rd_emits (s : State) (os : List Output) (g : Field) : rd (emits s os) g = rd s g := rfl

/-! ### tickFree -/

@[simp] theorem tickFree_regs (s : State) : (tickFree s).regs = s.regs := rfl
@[simp] theorem tickFree_hbm (s : State) : (tickFree s).hbm = s.hbm := rfl
@[simp] theorem tickFree_hpt (s : State) : (tickFree s).hpt = s.hpt := rfl
@[simp] theorem tickFree_sch (s : State) : (tickFree s).sch = s.sch := rfl
@[simp] theorem tickFree_mem (s : State) : (tickFree s).mem = s.mem := rfl
@[simp] theorem tickFree_clk (s : State) : (tickFree s).clk = s.clk := rfl
@[simp] theorem tickFree_sec (s : State) : (tickFree s).sec = s.sec := rfl
@[simp] theorem tickFree_ras (s : State) : (tickFree s).ras = s.ras := rfl
@[simp] theorem tickFree_mgt (s : State) : (tickFree s).mgt = s.mgt := rfl
@[simp] theorem tickFree_tak (s : State) : (tickFree s).tak = s.tak := rfl
@[simp] theorem tickFree_dtm (s : State) : (tickFree s).dtm = s.dtm := rfl
@[simp] theorem tickFree_kva (s : State) : (tickFree s).kva = s.kva := rfl
@[simp] theorem tickFree_mxe (s : State) : (tickFree s).mxe = s.mxe := rfl
@[simp] theorem tickFree_att (s : State) : (tickFree s).att = s.att := rfl
@[simp] theorem tickFree_smp (s : State) : (tickFree s).smp = s.smp := rfl
@[simp] theorem tickFree_con (s : State) : (tickFree s).con = s.con := rfl
@[simp] theorem tickFree_glk (s : State) : (tickFree s).glk = s.glk := rfl
@[simp] theorem tickFree_shp (s : State) : (tickFree s).shp = s.shp := rfl
@[simp] theorem tickFree_trv (s : State) : (tickFree s).trv = s.trv := rfl
@[simp] theorem tickFree_flt (s : State) : (tickFree s).flt = s.flt := rfl
@[simp] theorem tickFree_gth (s : State) : (tickFree s).gth = s.gth := rfl
@[simp] theorem tickFree_bmv (s : State) : (tickFree s).bmv = s.bmv := rfl
@[simp] theorem tickFree_out (s : State) : (tickFree s).out = s.out := rfl
@[simp] theorem tickFree_pending (s : State) : (tickFree s).pending = s.pending := rfl
@[simp] theorem rdi_tickFree (s : State) (g : Field) (j : Nat) : rdi (tickFree s) g j = rdi s g j := rfl
@[simp] theorem rd_tickFree (s : State) (g : Field) : rd (tickFree s) g = rd s g := rfl

/-! ### storeMem -/

@[simp] theorem storeMem_regs (s : State) (a : Nat) (bs : List Byte) : (storeMem s a bs).regs = s.regs := rfl
@[simp] theorem storeMem_hpt (s : State) (a : Nat) (bs : List Byte) : (storeMem s a bs).hpt = s.hpt := rfl
@[simp] theorem storeMem_sch (s : State) (a : Nat) (bs : List Byte) : (storeMem s a bs).sch = s.sch := rfl
@[simp] theorem storeMem_clk (s : State) (a : Nat) (bs : List Byte) : (storeMem s a bs).clk = s.clk := rfl
@[simp] theorem storeMem_sec (s : State) (a : Nat) (bs : List Byte) : (storeMem s a bs).sec = s.sec := rfl
@[simp] theorem storeMem_ras (s : State) (a : Nat) (bs : List Byte) : (storeMem s a bs).ras = s.ras := rfl
@[simp] theorem storeMem_mgt (s : State) (a : Nat) (bs : List Byte) : (storeMem s a bs).mgt = s.mgt := rfl
@[simp] theorem storeMem_tak (s : State) (a : Nat) (bs : List Byte) : (storeMem s a bs).tak = s.tak := rfl
@[simp] theorem storeMem_dtm (s : State) (a : Nat) (bs : List Byte) : (storeMem s a bs).dtm = s.dtm := rfl
@[simp] theorem storeMem_kva (s : State) (a : Nat) (bs : List Byte) : (storeMem s a bs).kva = s.kva := rfl
@[simp] theorem storeMem_mxe (s : State) (a : Nat) (bs : List Byte) : (storeMem s a bs).mxe = s.mxe := rfl
@[simp] theorem storeMem_att (s : State) (a : Nat) (bs : List Byte) : (storeMem s a bs).att = s.att := rfl
@[simp] theorem storeMem_smp (s : State) (a : Nat) (bs : List Byte) : (storeMem s a bs).smp = s.smp := rfl
@[simp] theorem storeMem_con (s : State) (a : Nat) (bs : List Byte) : (storeMem s a bs).con = s.con := rfl
@[simp] theorem storeMem_glk (s : State) (a : Nat) (bs : List Byte) : (storeMem s a bs).glk = s.glk := rfl
@[simp] theorem storeMem_shp (s : State) (a : Nat) (bs : List Byte) : (storeMem s a bs).shp = s.shp := rfl
@[simp] theorem storeMem_trv (s : State) (a : Nat) (bs : List Byte) : (storeMem s a bs).trv = s.trv := rfl
@[simp] theorem storeMem_flt (s : State) (a : Nat) (bs : List Byte) : (storeMem s a bs).flt = s.flt := rfl
@[simp] theorem storeMem_gth (s : State) (a : Nat) (bs : List Byte) : (storeMem s a bs).gth = s.gth := rfl
@[simp] theorem storeMem_bmv (s : State) (a : Nat) (bs : List Byte) : (storeMem s a bs).bmv = s.bmv := rfl
@[simp] theorem storeMem_out (s : State) (a : Nat) (bs : List Byte) : (storeMem s a bs).out = s.out := rfl
@[simp] theorem storeMem_pending (s : State) (a : Nat) (bs : List Byte) : (storeMem s a bs).pending = s.pending := rfl
@[simp] theorem storeMem_free (s : State) (a : Nat) (bs : List Byte) : (storeMem s a bs).free = s.free := rfl
@[simp] theorem storeMem_hbm (s : State) (a : Nat) (bs : List Byte) : (storeMem s a bs).hbm = setBytes s.hbm a bs := rfl
@[simp] theorem rdi_storeMem (s : State) (a : Nat) (bs : List Byte) (g : Field) (j : Nat) : rdi (storeMem s a bs) g j = rdi s g j := rfl
@[simp] theorem rd_storeMem (s : State) (a : Nat) (bs : List Byte) (g : Field) : rd (storeMem s a bs) g = rd s g := rfl

/-! ### setCtx -/

@[simp] theorem setCtx_regs (s : State) (c : Nat) (x : Ctx) : (setCtx s c x).regs = s.regs := rfl
@[simp] theorem setCtx_hbm (s : State) (c : Nat) (x : Ctx) : (setCtx s c x).hbm = s.hbm := rfl
@[simp] theorem setCtx_sch (s : State) (c : Nat) (x : Ctx) : (setCtx s c x).sch = s.sch := rfl
@[simp] theorem setCtx_mem (s : State) (c : Nat) (x : Ctx) : (setCtx s c x).mem = s.mem := rfl
@[simp] theorem setCtx_clk (s : State) (c : Nat) (x : Ctx) : (setCtx s c x).clk = s.clk := rfl
@[simp] theorem setCtx_sec (s : State) (c : Nat) (x : Ctx) : (setCtx s c x).sec = s.sec := rfl
@[simp] theorem setCtx_ras (s : State) (c : Nat) (x : Ctx) : (setCtx s c x).ras = s.ras := rfl
@[simp] theorem setCtx_mgt (s : State) (c : Nat) (x : Ctx) : (setCtx s c x).mgt = s.mgt := rfl
@[simp] theorem setCtx_tak (s : State) (c : Nat) (x : Ctx) : (setCtx s c x).tak = s.tak := rfl
@[simp] theorem setCtx_dtm (s : State) (c : Nat) (x : Ctx) : (setCtx s c x).dtm = s.dtm := rfl
@[simp] theorem setCtx_kva (s : State) (c : Nat) (x : Ctx) : (setCtx s c x).kva = s.kva := rfl
@[simp] theorem setCtx_mxe (s : State) (c : Nat) (x : Ctx) : (setCtx s c x).mxe = s.mxe := rfl
@[simp] theorem setCtx_att (s : State) (c : Nat) (x : Ctx) : (setCtx s c x).att = s.att := rfl
@[simp] theorem setCtx_smp (s : State) (c : Nat) (x : Ctx) : (setCtx s c x).smp = s.smp := rfl
@[simp] theorem setCtx_con (s : State) (c : Nat) (x : Ctx) : (setCtx s c x).con = s.con := rfl
@[simp] theorem setCtx_glk (s : State) (c : Nat) (x : Ctx) : (setCtx s c x).glk = s.glk := rfl
@[simp] theorem setCtx_shp (s : State) (c : Nat) (x : Ctx) : (setCtx s c x).shp = s.shp := rfl
@[simp] theorem setCtx_trv (s : State) (c : Nat) (x : Ctx) : (setCtx s c x).trv = s.trv := rfl
@[simp] theorem setCtx_flt (s : State) (c : Nat) (x : Ctx) : (setCtx s c x).flt = s.flt := rfl
@[simp] theorem setCtx_gth (s : State) (c : Nat) (x : Ctx) : (setCtx s c x).gth = s.gth := rfl
@[simp] theorem setCtx_bmv (s : State) (c : Nat) (x : Ctx) : (setCtx s c x).bmv = s.bmv := rfl
@[simp] theorem setCtx_out (s : State) (c : Nat) (x : Ctx) : (setCtx s c x).out = s.out := rfl
@[simp] theorem setCtx_pending (s : State) (c : Nat) (x : Ctx) : (setCtx s c x).pending = s.pending := rfl
@[simp] theorem setCtx_free (s : State) (c : Nat) (x : Ctx) : (setCtx s c x).free = s.free := rfl
@[simp] theorem rdi_setCtx (s : State) (c : Nat) (x : Ctx) (g : Field) (j : Nat) : rdi (setCtx s c x) g j = rdi s g j := rfl
@[simp] theorem rd_setCtx (s : State) (c : Nat) (x : Ctx) (g : Field) : rd (setCtx s c x) g = rd s g := rfl

/-! ### modCtx -/

@[simp] theorem modCtx_regs (s : State) (c : Nat) (f : Ctx → Ctx) : (modCtx s c f).regs = s.regs := rfl
@[simp] theorem modCtx_hbm (s : State) (c : Nat) (f : Ctx → Ctx) : (modCtx s c f).hbm = s.hbm := rfl
@[simp] theorem modCtx_sch (s : State) (c : Nat) (f : Ctx → Ctx) : (modCtx s c f).sch = s.sch := rfl
@[simp] theorem modCtx_mem (s : State) (c : Nat) (f : Ctx → Ctx) : (modCtx s c f).mem = s.mem := rfl
@[simp] theorem modCtx_clk (s : State) (c : Nat) (f : Ctx → Ctx) : (modCtx s c f).clk = s.clk := rfl
@[simp] theorem modCtx_sec (s : State) (c : Nat) (f : Ctx → Ctx) : (modCtx s c f).sec = s.sec := rfl
@[simp] theorem modCtx_ras (s : State) (c : Nat) (f : Ctx → Ctx) : (modCtx s c f).ras = s.ras := rfl
@[simp] theorem modCtx_mgt (s : State) (c : Nat) (f : Ctx → Ctx) : (modCtx s c f).mgt = s.mgt := rfl
@[simp] theorem modCtx_tak (s : State) (c : Nat) (f : Ctx → Ctx) : (modCtx s c f).tak = s.tak := rfl
@[simp] theorem modCtx_dtm (s : State) (c : Nat) (f : Ctx → Ctx) : (modCtx s c f).dtm = s.dtm := rfl
@[simp] theorem modCtx_kva (s : State) (c : Nat) (f : Ctx → Ctx) : (modCtx s c f).kva = s.kva := rfl
@[simp] theorem modCtx_mxe (s : State) (c : Nat) (f : Ctx → Ctx) : (modCtx s c f).mxe = s.mxe := rfl
@[simp] theorem modCtx_att (s : State) (c : Nat) (f : Ctx → Ctx) : (modCtx s c f).att = s.att := rfl
@[simp] theorem modCtx_smp (s : State) (c : Nat) (f : Ctx → Ctx) : (modCtx s c f).smp = s.smp := rfl
@[simp] theorem modCtx_con (s : State) (c : Nat) (f : Ctx → Ctx) : (modCtx s c f).con = s.con := rfl
@[simp] theorem modCtx_glk (s : State) (c : Nat) (f : Ctx → Ctx) : (modCtx s c f).glk = s.glk := rfl
@[simp] theorem modCtx_shp (s : State) (c : Nat) (f : Ctx → Ctx) : (modCtx s c f).shp = s.shp := rfl
@[simp] theorem modCtx_trv (s : State) (c : Nat) (f : Ctx → Ctx) : (modCtx s c f).trv = s.trv := rfl
@[simp] theorem modCtx_flt (s : State) (c : Nat) (f : Ctx → Ctx) : (modCtx s c f).flt = s.flt := rfl
@[simp] theorem modCtx_gth (s : State) (c : Nat) (f : Ctx → Ctx) : (modCtx s c f).gth = s.gth := rfl
@[simp] theorem modCtx_bmv (s : State) (c : Nat) (f : Ctx → Ctx) : (modCtx s c f).bmv = s.bmv := rfl
@[simp] theorem modCtx_out (s : State) (c : Nat) (f : Ctx → Ctx) : (modCtx s c f).out = s.out := rfl
@[simp] theorem modCtx_pending (s : State) (c : Nat) (f : Ctx → Ctx) : (modCtx s c f).pending = s.pending := rfl
@[simp] theorem modCtx_free (s : State) (c : Nat) (f : Ctx → Ctx) : (modCtx s c f).free = s.free := rfl
@[simp] theorem rdi_modCtx (s : State) (c : Nat) (f : Ctx → Ctx) (g : Field) (j : Nat) : rdi (modCtx s c f) g j = rdi s g j := rfl
@[simp] theorem rd_modCtx (s : State) (c : Nat) (f : Ctx → Ctx) (g : Field) : rd (modCtx s c f) g = rd s g := rfl

/-! ### setFlight -/

@[simp] theorem setFlight_regs (s : State) (id : Nat) (f : Flight) : (setFlight s id f).regs = s.regs := rfl
@[simp] theorem setFlight_hbm (s : State) (id : Nat) (f : Flight) : (setFlight s id f).hbm = s.hbm := rfl
@[simp] theorem setFlight_sch (s : State) (id : Nat) (f : Flight) : (setFlight s id f).sch = s.sch := rfl
@[simp] theorem setFlight_mem (s : State) (id : Nat) (f : Flight) : (setFlight s id f).mem = s.mem := rfl
@[simp] theorem setFlight_clk (s : State) (id : Nat) (f : Flight) : (setFlight s id f).clk = s.clk := rfl
@[simp] theorem setFlight_sec (s : State) (id : Nat) (f : Flight) : (setFlight s id f).sec = s.sec := rfl
@[simp] theorem setFlight_ras (s : State) (id : Nat) (f : Flight) : (setFlight s id f).ras = s.ras := rfl
@[simp] theorem setFlight_mgt (s : State) (id : Nat) (f : Flight) : (setFlight s id f).mgt = s.mgt := rfl
@[simp] theorem setFlight_tak (s : State) (id : Nat) (f : Flight) : (setFlight s id f).tak = s.tak := rfl
@[simp] theorem setFlight_dtm (s : State) (id : Nat) (f : Flight) : (setFlight s id f).dtm = s.dtm := rfl
@[simp] theorem setFlight_kva (s : State) (id : Nat) (f : Flight) : (setFlight s id f).kva = s.kva := rfl
@[simp] theorem setFlight_mxe (s : State) (id : Nat) (f : Flight) : (setFlight s id f).mxe = s.mxe := rfl
@[simp] theorem setFlight_att (s : State) (id : Nat) (f : Flight) : (setFlight s id f).att = s.att := rfl
@[simp] theorem setFlight_smp (s : State) (id : Nat) (f : Flight) : (setFlight s id f).smp = s.smp := rfl
@[simp] theorem setFlight_con (s : State) (id : Nat) (f : Flight) : (setFlight s id f).con = s.con := rfl
@[simp] theorem setFlight_glk (s : State) (id : Nat) (f : Flight) : (setFlight s id f).glk = s.glk := rfl
@[simp] theorem setFlight_shp (s : State) (id : Nat) (f : Flight) : (setFlight s id f).shp = s.shp := rfl
@[simp] theorem setFlight_trv (s : State) (id : Nat) (f : Flight) : (setFlight s id f).trv = s.trv := rfl
@[simp] theorem setFlight_flt (s : State) (id : Nat) (f : Flight) : (setFlight s id f).flt = s.flt := rfl
@[simp] theorem setFlight_gth (s : State) (id : Nat) (f : Flight) : (setFlight s id f).gth = s.gth := rfl
@[simp] theorem setFlight_bmv (s : State) (id : Nat) (f : Flight) : (setFlight s id f).bmv = s.bmv := rfl
@[simp] theorem setFlight_out (s : State) (id : Nat) (f : Flight) : (setFlight s id f).out = s.out := rfl
@[simp] theorem setFlight_pending (s : State) (id : Nat) (f : Flight) : (setFlight s id f).pending = s.pending := rfl
@[simp] theorem setFlight_free (s : State) (id : Nat) (f : Flight) : (setFlight s id f).free = s.free := rfl
@[simp] theorem rdi_setFlight (s : State) (id : Nat) (f : Flight) (g : Field) (j : Nat) : rdi (setFlight s id f) g j = rdi s g j := rfl
@[simp] theorem rd_setFlight (s : State) (id : Nat) (f : Flight) (g : Field) : rd (setFlight s id f) g = rd s g := rfl

/-! ### delFlight -/

@[simp] theorem delFlight_regs (s : State) (id : Nat) : (delFlight s id).regs = s.regs := rfl
@[simp] theorem delFlight_hbm (s : State) (id : Nat) : (delFlight s id).hbm = s.hbm := rfl
@[simp] theorem delFlight_sch (s : State) (id : Nat) : (delFlight s id).sch = s.sch := rfl
@[simp] theorem delFlight_mem (s : State) (id : Nat) : (delFlight s id).mem = s.mem := rfl
@[simp] theorem delFlight_clk (s : State) (id : Nat) : (delFlight s id).clk = s.clk := rfl
@[simp] theorem delFlight_sec (s : State) (id : Nat) : (delFlight s id).sec = s.sec := rfl
@[simp] theorem delFlight_ras (s : State) (id : Nat) : (delFlight s id).ras = s.ras := rfl
@[simp] theorem delFlight_mgt (s : State) (id : Nat) : (delFlight s id).mgt = s.mgt := rfl
@[simp] theorem delFlight_tak (s : State) (id : Nat) : (delFlight s id).tak = s.tak := rfl
@[simp] theorem delFlight_dtm (s : State) (id : Nat) : (delFlight s id).dtm = s.dtm := rfl
@[simp] theorem delFlight_kva (s : State) (id : Nat) : (delFlight s id).kva = s.kva := rfl
@[simp] theorem delFlight_mxe (s : State) (id : Nat) : (delFlight s id).mxe = s.mxe := rfl
@[simp] theorem delFlight_att (s : State) (id : Nat) : (delFlight s id).att = s.att := rfl
@[simp] theorem delFlight_smp (s : State) (id : Nat) : (delFlight s id).smp = s.smp := rfl
@[simp] theorem delFlight_con (s : State) (id : Nat) : (delFlight s id).con = s.con := rfl
@[simp] theorem delFlight_glk (s : State) (id : Nat) : (delFlight s id).glk = s.glk := rfl
@[simp] theorem delFlight_shp (s : State) (id : Nat) : (delFlight s id).shp = s.shp := rfl
@[simp] theorem delFlight_trv (s : State) (id : Nat) : (delFlight s id).trv = s.trv := rfl
@[simp] theorem delFlight_flt (s : State) (id : Nat) : (delFlight s id).flt = s.flt := rfl
@[simp] theorem delFlight_gth (s : State) (id : Nat) : (delFlight s id).gth = s.gth := rfl
@[simp] theorem delFlight_bmv (s : State) (id : Nat) : (delFlight s id).bmv = s.bmv := rfl
@[simp] theorem delFlight_out (s : State) (id : Nat) : (delFlight s id).out = s.out := rfl
@[simp] theorem delFlight_pending (s : State) (id : Nat) : (delFlight s id).pending = s.pending := rfl
@[simp] theorem delFlight_free (s : State) (id : Nat) : (delFlight s id).free = s.free := rfl
@[simp] theorem rdi_delFlight (s : State) (id : Nat) (g : Field) (j : Nat) : rdi (delFlight s id) g j = rdi s g j := rfl
@[simp] theorem rd_delFlight (s : State) (id : Nat) (g : Field) : rd (delFlight s id) g = rd s g := rfl

/-! ### modReq -/

@[simp] theorem modReq_regs (s : State) (r : Nat) (f : Req → Req) : (modReq s r f).regs = s.regs := rfl
@[simp] theorem modReq_hbm (s : State) (r : Nat) (f : Req → Req) : (modReq s r f).hbm = s.hbm := rfl
@[simp] theorem modReq_hpt (s : State) (r : Nat) (f : Req → Req) : (modReq s r f).hpt = s.hpt := rfl
@[simp] theorem modReq_mem (s : State) (r : Nat) (f : Req → Req) : (modReq s r f).mem = s.mem := rfl
@[simp] theorem modReq_clk (s : State) (r : Nat) (f : Req → Req) : (modReq s r f).clk = s.clk := rfl
@[simp] theorem modReq_sec (s : State) (r : Nat) (f : Req → Req) : (modReq s r f).sec = s.sec := rfl
@[simp] theorem modReq_ras (s : State) (r : Nat) (f : Req → Req) : (modReq s r f).ras = s.ras := rfl
@[simp] theorem modReq_mgt (s : State) (r : Nat) (f : Req → Req) : (modReq s r f).mgt = s.mgt := rfl
@[simp] theorem modReq_tak (s : State) (r : Nat) (f : Req → Req) : (modReq s r f).tak = s.tak := rfl
@[simp] theorem modReq_dtm (s : State) (r : Nat) (f : Req → Req) : (modReq s r f).dtm = s.dtm := rfl
@[simp] theorem modReq_kva (s : State) (r : Nat) (f : Req → Req) : (modReq s r f).kva = s.kva := rfl
@[simp] theorem modReq_mxe (s : State) (r : Nat) (f : Req → Req) : (modReq s r f).mxe = s.mxe := rfl
@[simp] theorem modReq_att (s : State) (r : Nat) (f : Req → Req) : (modReq s r f).att = s.att := rfl
@[simp] theorem modReq_smp (s : State) (r : Nat) (f : Req → Req) : (modReq s r f).smp = s.smp := rfl
@[simp] theorem modReq_con (s : State) (r : Nat) (f : Req → Req) : (modReq s r f).con = s.con := rfl
@[simp] theorem modReq_glk (s : State) (r : Nat) (f : Req → Req) : (modReq s r f).glk = s.glk := rfl
@[simp] theorem modReq_shp (s : State) (r : Nat) (f : Req → Req) : (modReq s r f).shp = s.shp := rfl
@[simp] theorem modReq_trv (s : State) (r : Nat) (f : Req → Req) : (modReq s r f).trv = s.trv := rfl
@[simp] theorem modReq_flt (s : State) (r : Nat) (f : Req → Req) : (modReq s r f).flt = s.flt := rfl
@[simp] theorem modReq_gth (s : State) (r : Nat) (f : Req → Req) : (modReq s r f).gth = s.gth := rfl
@[simp] theorem modReq_bmv (s : State) (r : Nat) (f : Req → Req) : (modReq s r f).bmv = s.bmv := rfl
@[simp] theorem modReq_out (s : State) (r : Nat) (f : Req → Req) : (modReq s r f).out = s.out := rfl
@[simp] theorem modReq_pending (s : State) (r : Nat) (f : Req → Req) : (modReq s r f).pending = s.pending := rfl
@[simp] theorem modReq_free (s : State) (r : Nat) (f : Req → Req) : (modReq s r f).free = s.free := rfl
@[simp] theorem rdi_modReq (s : State) (r : Nat) (f : Req → Req) (g : Field) (j : Nat) : rdi (modReq s r f) g j = rdi s g j := rfl
@[simp] theorem rd_modReq (s : State) (r : Nat) (f : Req → Req) (g : Field) : rd (modReq s r f) g = rd s g := rfl

/-! ### setSem -/

@[simp] theorem setSem_regs (s : State) (h v : Nat) : (setSem s h v).regs = s.regs := rfl
@[simp] theorem setSem_hbm (s : State) (h v : Nat) : (setSem s h v).hbm = s.hbm := rfl
@[simp] theorem setSem_hpt (s : State) (h v : Nat) : (setSem s h v).hpt = s.hpt := rfl
@[simp] theorem setSem_mem (s : State) (h v : Nat) : (setSem s h v).mem = s.mem := rfl
@[simp] theorem setSem_clk (s : State) (h v : Nat) : (setSem s h v).clk = s.clk := rfl
@[simp] theorem setSem_sec (s : State) (h v : Nat) : (setSem s h v).sec = s.sec := rfl
@[simp] theorem setSem_ras (s : State) (h v : Nat) : (setSem s h v).ras = s.ras := rfl
@[simp] theorem setSem_mgt (s : State) (h v : Nat) : (setSem s h v).mgt = s.mgt := rfl
@[simp] theorem setSem_tak (s : State) (h v : Nat) : (setSem s h v).tak = s.tak := rfl
@[simp] theorem setSem_dtm (s : State) (h v : Nat) : (setSem s h v).dtm = s.dtm := rfl
@[simp] theorem setSem_kva (s : State) (h v : Nat) : (setSem s h v).kva = s.kva := rfl
@[simp] theorem setSem_mxe (s : State) (h v : Nat) : (setSem s h v).mxe = s.mxe := rfl
@[simp] theorem setSem_att (s : State) (h v : Nat) : (setSem s h v).att = s.att := rfl
@[simp] theorem setSem_smp (s : State) (h v : Nat) : (setSem s h v).smp = s.smp := rfl
@[simp] theorem setSem_con (s : State) (h v : Nat) : (setSem s h v).con = s.con := rfl
@[simp] theorem setSem_glk (s : State) (h v : Nat) : (setSem s h v).glk = s.glk := rfl
@[simp] theorem setSem_shp (s : State) (h v : Nat) : (setSem s h v).shp = s.shp := rfl
@[simp] theorem setSem_trv (s : State) (h v : Nat) : (setSem s h v).trv = s.trv := rfl
@[simp] theorem setSem_flt (s : State) (h v : Nat) : (setSem s h v).flt = s.flt := rfl
@[simp] theorem setSem_gth (s : State) (h v : Nat) : (setSem s h v).gth = s.gth := rfl
@[simp] theorem setSem_bmv (s : State) (h v : Nat) : (setSem s h v).bmv = s.bmv := rfl
@[simp] theorem setSem_out (s : State) (h v : Nat) : (setSem s h v).out = s.out := rfl
@[simp] theorem setSem_pending (s : State) (h v : Nat) : (setSem s h v).pending = s.pending := rfl
@[simp] theorem setSem_free (s : State) (h v : Nat) : (setSem s h v).free = s.free := rfl
@[simp] theorem rdi_setSem (s : State) (h v : Nat) (g : Field) (j : Nat) : rdi (setSem s h v) g j = rdi s g j := rfl
@[simp] theorem rd_setSem (s : State) (h v : Nat) (g : Field) : rd (setSem s h v) g = rd s g := rfl

/-! ### dropWaiter -/

@[simp] theorem dropWaiter_regs (s : State) (w : Waiter) : (dropWaiter s w).regs = s.regs := rfl
@[simp] theorem dropWaiter_hbm (s : State) (w : Waiter) : (dropWaiter s w).hbm = s.hbm := rfl
@[simp] theorem dropWaiter_hpt (s : State) (w : Waiter) : (dropWaiter s w).hpt = s.hpt := rfl
@[simp] theorem dropWaiter_mem (s : State) (w : Waiter) : (dropWaiter s w).mem = s.mem := rfl
@[simp] theorem dropWaiter_clk (s : State) (w : Waiter) : (dropWaiter s w).clk = s.clk := rfl
@[simp] theorem dropWaiter_sec (s : State) (w : Waiter) : (dropWaiter s w).sec = s.sec := rfl
@[simp] theorem dropWaiter_ras (s : State) (w : Waiter) : (dropWaiter s w).ras = s.ras := rfl
@[simp] theorem dropWaiter_mgt (s : State) (w : Waiter) : (dropWaiter s w).mgt = s.mgt := rfl
@[simp] theorem dropWaiter_tak (s : State) (w : Waiter) : (dropWaiter s w).tak = s.tak := rfl
@[simp] theorem dropWaiter_dtm (s : State) (w : Waiter) : (dropWaiter s w).dtm = s.dtm := rfl
@[simp] theorem dropWaiter_kva (s : State) (w : Waiter) : (dropWaiter s w).kva = s.kva := rfl
@[simp] theorem dropWaiter_mxe (s : State) (w : Waiter) : (dropWaiter s w).mxe = s.mxe := rfl
@[simp] theorem dropWaiter_att (s : State) (w : Waiter) : (dropWaiter s w).att = s.att := rfl
@[simp] theorem dropWaiter_smp (s : State) (w : Waiter) : (dropWaiter s w).smp = s.smp := rfl
@[simp] theorem dropWaiter_con (s : State) (w : Waiter) : (dropWaiter s w).con = s.con := rfl
@[simp] theorem dropWaiter_glk (s : State) (w : Waiter) : (dropWaiter s w).glk = s.glk := rfl
@[simp] theorem dropWaiter_shp (s : State) (w : Waiter) : (dropWaiter s w).shp = s.shp := rfl
@[simp] theorem dropWaiter_trv (s : State) (w : Waiter) : (dropWaiter s w).trv = s.trv := rfl
@[simp] theorem dropWaiter_flt (s : State) (w : Waiter) : (dropWaiter s w).flt = s.flt := rfl
@[simp] theorem dropWaiter_gth (s : State) (w : Waiter) : (dropWaiter s w).gth = s.gth := rfl
@[simp] theorem dropWaiter_bmv (s : State) (w : Waiter) : (dropWaiter s w).bmv = s.bmv := rfl
@[simp] theorem dropWaiter_out (s : State) (w : Waiter) : (dropWaiter s w).out = s.out := rfl
@[simp] theorem dropWaiter_pending (s : State) (w : Waiter) : (dropWaiter s w).pending = s.pending := rfl
@[simp] theorem dropWaiter_free (s : State) (w : Waiter) : (dropWaiter s w).free = s.free := rfl
@[simp] theorem rdi_dropWaiter (s : State) (w : Waiter) (g : Field) (j : Nat) : rdi (dropWaiter s w) g j = rdi s g j := rfl
@[simp] theorem rd_dropWaiter (s : State) (w : Waiter) (g : Field) : rd (dropWaiter s w) g = rd s g := rfl

/-! ### setPort -/

@[simp] theorem setPort_regs (s : State) (n : Nat) (p : GPort) : (setPort s n p).regs = s.regs := rfl
@[simp] theorem setPort_hbm (s : State) (n : Nat) (p : GPort) : (setPort s n p).hbm = s.hbm := rfl
@[simp] theorem setPort_hpt (s : State) (n : Nat) (p : GPort) : (setPort s n p).hpt = s.hpt := rfl
@[simp] theorem setPort_sch (s : State) (n : Nat) (p : GPort) : (setPort s n p).sch = s.sch := rfl
@[simp] theorem setPort_mem (s : State) (n : Nat) (p : GPort) : (setPort s n p).mem = s.mem := rfl
@[simp] theorem setPort_clk (s : State) (n : Nat) (p : GPort) : (setPort s n p).clk = s.clk := rfl
@[simp] theorem setPort_sec (s : State) (n : Nat) (p : GPort) : (setPort s n p).sec = s.sec := rfl
@[simp] theorem setPort_ras (s : State) (n : Nat) (p : GPort) : (setPort s n p).ras = s.ras := rfl
@[simp] theorem setPort_mgt (s : State) (n : Nat) (p : GPort) : (setPort s n p).mgt = s.mgt := rfl
@[simp] theorem setPort_tak (s : State) (n : Nat) (p : GPort) : (setPort s n p).tak = s.tak := rfl
@[simp] theorem setPort_dtm (s : State) (n : Nat) (p : GPort) : (setPort s n p).dtm = s.dtm := rfl
@[simp] theorem setPort_kva (s : State) (n : Nat) (p : GPort) : (setPort s n p).kva = s.kva := rfl
@[simp] theorem setPort_mxe (s : State) (n : Nat) (p : GPort) : (setPort s n p).mxe = s.mxe := rfl
@[simp] theorem setPort_att (s : State) (n : Nat) (p : GPort) : (setPort s n p).att = s.att := rfl
@[simp] theorem setPort_smp (s : State) (n : Nat) (p : GPort) : (setPort s n p).smp = s.smp := rfl
@[simp] theorem setPort_con (s : State) (n : Nat) (p : GPort) : (setPort s n p).con = s.con := rfl
@[simp] theorem setPort_shp (s : State) (n : Nat) (p : GPort) : (setPort s n p).shp = s.shp := rfl
@[simp] theorem setPort_trv (s : State) (n : Nat) (p : GPort) : (setPort s n p).trv = s.trv := rfl
@[simp] theorem setPort_flt (s : State) (n : Nat) (p : GPort) : (setPort s n p).flt = s.flt := rfl
@[simp] theorem setPort_gth (s : State) (n : Nat) (p : GPort) : (setPort s n p).gth = s.gth := rfl
@[simp] theorem setPort_bmv (s : State) (n : Nat) (p : GPort) : (setPort s n p).bmv = s.bmv := rfl
@[simp] theorem setPort_out (s : State) (n : Nat) (p : GPort) : (setPort s n p).out = s.out := rfl
@[simp] theorem setPort_pending (s : State) (n : Nat) (p : GPort) : (setPort s n p).pending = s.pending := rfl
@[simp] theorem setPort_free (s : State) (n : Nat) (p : GPort) : (setPort s n p).free = s.free := rfl
@[simp] theorem rdi_setPort (s : State) (n : Nat) (p : GPort) (g : Field) (j : Nat) : rdi (setPort s n p) g j = rdi s g j := rfl
@[simp] theorem rd_setPort (s : State) (n : Nat) (p : GPort) (g : Field) : rd (setPort s n p) g = rd s g := rfl

/-! ### setPte -/

@[simp] theorem setPte_regs (s : State) (k : Nat) (e : Pte) : (setPte s k e).regs = s.regs := rfl
@[simp] theorem setPte_hbm (s : State) (k : Nat) (e : Pte) : (setPte s k e).hbm = s.hbm := rfl
@[simp] theorem setPte_hpt (s : State) (k : Nat) (e : Pte) : (setPte s k e).hpt = s.hpt := rfl
@[simp] theorem setPte_sch (s : State) (k : Nat) (e : Pte) : (setPte s k e).sch = s.sch := rfl
@[simp] theorem setPte_mem (s : State) (k : Nat) (e : Pte) : (setPte s k e).mem = s.mem := rfl
@[simp] theorem setPte_clk (s : State) (k : Nat) (e : Pte) : (setPte s k e).clk = s.clk := rfl
@[simp] theorem setPte_sec (s : State) (k : Nat) (e : Pte) : (setPte s k e).sec = s.sec := rfl
@[simp] theorem setPte_ras (s : State) (k : Nat) (e : Pte) : (setPte s k e).ras = s.ras := rfl
@[simp] theorem setPte_mgt (s : State) (k : Nat) (e : Pte) : (setPte s k e).mgt = s.mgt := rfl
@[simp] theorem setPte_tak (s : State) (k : Nat) (e : Pte) : (setPte s k e).tak = s.tak := rfl
@[simp] theorem setPte_dtm (s : State) (k : Nat) (e : Pte) : (setPte s k e).dtm = s.dtm := rfl
@[simp] theorem setPte_mxe (s : State) (k : Nat) (e : Pte) : (setPte s k e).mxe = s.mxe := rfl
@[simp] theorem setPte_att (s : State) (k : Nat) (e : Pte) : (setPte s k e).att = s.att := rfl
@[simp] theorem setPte_smp (s : State) (k : Nat) (e : Pte) : (setPte s k e).smp = s.smp := rfl
@[simp] theorem setPte_con (s : State) (k : Nat) (e : Pte) : (setPte s k e).con = s.con := rfl
@[simp] theorem setPte_glk (s : State) (k : Nat) (e : Pte) : (setPte s k e).glk = s.glk := rfl
@[simp] theorem setPte_shp (s : State) (k : Nat) (e : Pte) : (setPte s k e).shp = s.shp := rfl
@[simp] theorem setPte_trv (s : State) (k : Nat) (e : Pte) : (setPte s k e).trv = s.trv := rfl
@[simp] theorem setPte_flt (s : State) (k : Nat) (e : Pte) : (setPte s k e).flt = s.flt := rfl
@[simp] theorem setPte_gth (s : State) (k : Nat) (e : Pte) : (setPte s k e).gth = s.gth := rfl
@[simp] theorem setPte_bmv (s : State) (k : Nat) (e : Pte) : (setPte s k e).bmv = s.bmv := rfl
@[simp] theorem setPte_out (s : State) (k : Nat) (e : Pte) : (setPte s k e).out = s.out := rfl
@[simp] theorem setPte_pending (s : State) (k : Nat) (e : Pte) : (setPte s k e).pending = s.pending := rfl
@[simp] theorem setPte_free (s : State) (k : Nat) (e : Pte) : (setPte s k e).free = s.free := rfl
@[simp] theorem rdi_setPte (s : State) (k : Nat) (e : Pte) (g : Field) (j : Nat) : rdi (setPte s k e) g j = rdi s g j := rfl
@[simp] theorem rd_setPte (s : State) (k : Nat) (e : Pte) (g : Field) : rd (setPte s k e) g = rd s g := rfl

/-! ### setFrame -/

@[simp] theorem setFrame_regs (s : State) (f : Nat) (r : Frame) : (setFrame s f r).regs = s.regs := rfl
@[simp] theorem setFrame_hbm (s : State) (f : Nat) (r : Frame) : (setFrame s f r).hbm = s.hbm := rfl
@[simp] theorem setFrame_hpt (s : State) (f : Nat) (r : Frame) : (setFrame s f r).hpt = s.hpt := rfl
@[simp] theorem setFrame_sch (s : State) (f : Nat) (r : Frame) : (setFrame s f r).sch = s.sch := rfl
@[simp] theorem setFrame_mem (s : State) (f : Nat) (r : Frame) : (setFrame s f r).mem = s.mem := rfl
@[simp] theorem setFrame_clk (s : State) (f : Nat) (r : Frame) : (setFrame s f r).clk = s.clk := rfl
@[simp] theorem setFrame_sec (s : State) (f : Nat) (r : Frame) : (setFrame s f r).sec = s.sec := rfl
@[simp] theorem setFrame_ras (s : State) (f : Nat) (r : Frame) : (setFrame s f r).ras = s.ras := rfl
@[simp] theorem setFrame_mgt (s : State) (f : Nat) (r : Frame) : (setFrame s f r).mgt = s.mgt := rfl
@[simp] theorem setFrame_tak (s : State) (f : Nat) (r : Frame) : (setFrame s f r).tak = s.tak := rfl
@[simp] theorem setFrame_dtm (s : State) (f : Nat) (r : Frame) : (setFrame s f r).dtm = s.dtm := rfl
@[simp] theorem setFrame_mxe (s : State) (f : Nat) (r : Frame) : (setFrame s f r).mxe = s.mxe := rfl
@[simp] theorem setFrame_att (s : State) (f : Nat) (r : Frame) : (setFrame s f r).att = s.att := rfl
@[simp] theorem setFrame_smp (s : State) (f : Nat) (r : Frame) : (setFrame s f r).smp = s.smp := rfl
@[simp] theorem setFrame_con (s : State) (f : Nat) (r : Frame) : (setFrame s f r).con = s.con := rfl
@[simp] theorem setFrame_glk (s : State) (f : Nat) (r : Frame) : (setFrame s f r).glk = s.glk := rfl
@[simp] theorem setFrame_shp (s : State) (f : Nat) (r : Frame) : (setFrame s f r).shp = s.shp := rfl
@[simp] theorem setFrame_trv (s : State) (f : Nat) (r : Frame) : (setFrame s f r).trv = s.trv := rfl
@[simp] theorem setFrame_flt (s : State) (f : Nat) (r : Frame) : (setFrame s f r).flt = s.flt := rfl
@[simp] theorem setFrame_gth (s : State) (f : Nat) (r : Frame) : (setFrame s f r).gth = s.gth := rfl
@[simp] theorem setFrame_bmv (s : State) (f : Nat) (r : Frame) : (setFrame s f r).bmv = s.bmv := rfl
@[simp] theorem setFrame_out (s : State) (f : Nat) (r : Frame) : (setFrame s f r).out = s.out := rfl
@[simp] theorem setFrame_pending (s : State) (f : Nat) (r : Frame) : (setFrame s f r).pending = s.pending := rfl
@[simp] theorem setFrame_free (s : State) (f : Nat) (r : Frame) : (setFrame s f r).free = s.free := rfl
@[simp] theorem rdi_setFrame (s : State) (f : Nat) (r : Frame) (g : Field) (j : Nat) : rdi (setFrame s f r) g j = rdi s g j := rfl
@[simp] theorem rd_setFrame (s : State) (f : Nat) (r : Frame) (g : Field) : rd (setFrame s f r) g = rd s g := rfl

/-! ### dropPart -/

@[simp] theorem dropPart_regs (s : State) (r : TakeRef) : (dropPart s r).regs = s.regs := rfl
@[simp] theorem dropPart_hbm (s : State) (r : TakeRef) : (dropPart s r).hbm = s.hbm := rfl
@[simp] theorem dropPart_hpt (s : State) (r : TakeRef) : (dropPart s r).hpt = s.hpt := rfl
@[simp] theorem dropPart_sch (s : State) (r : TakeRef) : (dropPart s r).sch = s.sch := rfl
@[simp] theorem dropPart_mem (s : State) (r : TakeRef) : (dropPart s r).mem = s.mem := rfl
@[simp] theorem dropPart_clk (s : State) (r : TakeRef) : (dropPart s r).clk = s.clk := rfl
@[simp] theorem dropPart_sec (s : State) (r : TakeRef) : (dropPart s r).sec = s.sec := rfl
@[simp] theorem dropPart_ras (s : State) (r : TakeRef) : (dropPart s r).ras = s.ras := rfl
@[simp] theorem dropPart_mgt (s : State) (r : TakeRef) : (dropPart s r).mgt = s.mgt := rfl
@[simp] theorem dropPart_dtm (s : State) (r : TakeRef) : (dropPart s r).dtm = s.dtm := rfl
@[simp] theorem dropPart_kva (s : State) (r : TakeRef) : (dropPart s r).kva = s.kva := rfl
@[simp] theorem dropPart_mxe (s : State) (r : TakeRef) : (dropPart s r).mxe = s.mxe := rfl
@[simp] theorem dropPart_att (s : State) (r : TakeRef) : (dropPart s r).att = s.att := rfl
@[simp] theorem dropPart_smp (s : State) (r : TakeRef) : (dropPart s r).smp = s.smp := rfl
@[simp] theorem dropPart_con (s : State) (r : TakeRef) : (dropPart s r).con = s.con := rfl
@[simp] theorem dropPart_glk (s : State) (r : TakeRef) : (dropPart s r).glk = s.glk := rfl
@[simp] theorem dropPart_shp (s : State) (r : TakeRef) : (dropPart s r).shp = s.shp := rfl
@[simp] theorem dropPart_trv (s : State) (r : TakeRef) : (dropPart s r).trv = s.trv := rfl
@[simp] theorem dropPart_flt (s : State) (r : TakeRef) : (dropPart s r).flt = s.flt := rfl
@[simp] theorem dropPart_gth (s : State) (r : TakeRef) : (dropPart s r).gth = s.gth := rfl
@[simp] theorem dropPart_bmv (s : State) (r : TakeRef) : (dropPart s r).bmv = s.bmv := rfl
@[simp] theorem dropPart_out (s : State) (r : TakeRef) : (dropPart s r).out = s.out := rfl
@[simp] theorem dropPart_pending (s : State) (r : TakeRef) : (dropPart s r).pending = s.pending := rfl
@[simp] theorem dropPart_free (s : State) (r : TakeRef) : (dropPart s r).free = s.free := rfl
@[simp] theorem rdi_dropPart (s : State) (r : TakeRef) (g : Field) (j : Nat) : rdi (dropPart s r) g j = rdi s g j := rfl
@[simp] theorem rd_dropPart (s : State) (r : TakeRef) (g : Field) : rd (dropPart s r) g = rd s g := rfl

/-! ### setCoord -/

@[simp] theorem setCoord_regs (s : State) (id : Nat) (c : CoordTake) : (setCoord s id c).regs = s.regs := rfl
@[simp] theorem setCoord_hbm (s : State) (id : Nat) (c : CoordTake) : (setCoord s id c).hbm = s.hbm := rfl
@[simp] theorem setCoord_hpt (s : State) (id : Nat) (c : CoordTake) : (setCoord s id c).hpt = s.hpt := rfl
@[simp] theorem setCoord_sch (s : State) (id : Nat) (c : CoordTake) : (setCoord s id c).sch = s.sch := rfl
@[simp] theorem setCoord_mem (s : State) (id : Nat) (c : CoordTake) : (setCoord s id c).mem = s.mem := rfl
@[simp] theorem setCoord_clk (s : State) (id : Nat) (c : CoordTake) : (setCoord s id c).clk = s.clk := rfl
@[simp] theorem setCoord_sec (s : State) (id : Nat) (c : CoordTake) : (setCoord s id c).sec = s.sec := rfl
@[simp] theorem setCoord_ras (s : State) (id : Nat) (c : CoordTake) : (setCoord s id c).ras = s.ras := rfl
@[simp] theorem setCoord_mgt (s : State) (id : Nat) (c : CoordTake) : (setCoord s id c).mgt = s.mgt := rfl
@[simp] theorem setCoord_dtm (s : State) (id : Nat) (c : CoordTake) : (setCoord s id c).dtm = s.dtm := rfl
@[simp] theorem setCoord_kva (s : State) (id : Nat) (c : CoordTake) : (setCoord s id c).kva = s.kva := rfl
@[simp] theorem setCoord_mxe (s : State) (id : Nat) (c : CoordTake) : (setCoord s id c).mxe = s.mxe := rfl
@[simp] theorem setCoord_att (s : State) (id : Nat) (c : CoordTake) : (setCoord s id c).att = s.att := rfl
@[simp] theorem setCoord_smp (s : State) (id : Nat) (c : CoordTake) : (setCoord s id c).smp = s.smp := rfl
@[simp] theorem setCoord_con (s : State) (id : Nat) (c : CoordTake) : (setCoord s id c).con = s.con := rfl
@[simp] theorem setCoord_glk (s : State) (id : Nat) (c : CoordTake) : (setCoord s id c).glk = s.glk := rfl
@[simp] theorem setCoord_shp (s : State) (id : Nat) (c : CoordTake) : (setCoord s id c).shp = s.shp := rfl
@[simp] theorem setCoord_trv (s : State) (id : Nat) (c : CoordTake) : (setCoord s id c).trv = s.trv := rfl
@[simp] theorem setCoord_flt (s : State) (id : Nat) (c : CoordTake) : (setCoord s id c).flt = s.flt := rfl
@[simp] theorem setCoord_gth (s : State) (id : Nat) (c : CoordTake) : (setCoord s id c).gth = s.gth := rfl
@[simp] theorem setCoord_bmv (s : State) (id : Nat) (c : CoordTake) : (setCoord s id c).bmv = s.bmv := rfl
@[simp] theorem setCoord_out (s : State) (id : Nat) (c : CoordTake) : (setCoord s id c).out = s.out := rfl
@[simp] theorem setCoord_pending (s : State) (id : Nat) (c : CoordTake) : (setCoord s id c).pending = s.pending := rfl
@[simp] theorem setCoord_free (s : State) (id : Nat) (c : CoordTake) : (setCoord s id c).free = s.free := rfl
@[simp] theorem rdi_setCoord (s : State) (id : Nat) (c : CoordTake) (g : Field) (j : Nat) : rdi (setCoord s id c) g j = rdi s g j := rfl
@[simp] theorem rd_setCoord (s : State) (id : Nat) (c : CoordTake) (g : Field) : rd (setCoord s id c) g = rd s g := rfl

/-! ### setTrav -/

@[simp] theorem setTrav_regs (s : State) (r : Nat) (t : Trav) : (setTrav s r t).regs = s.regs := rfl
@[simp] theorem setTrav_hbm (s : State) (r : Nat) (t : Trav) : (setTrav s r t).hbm = s.hbm := rfl
@[simp] theorem setTrav_hpt (s : State) (r : Nat) (t : Trav) : (setTrav s r t).hpt = s.hpt := rfl
@[simp] theorem setTrav_sch (s : State) (r : Nat) (t : Trav) : (setTrav s r t).sch = s.sch := rfl
@[simp] theorem setTrav_mem (s : State) (r : Nat) (t : Trav) : (setTrav s r t).mem = s.mem := rfl
@[simp] theorem setTrav_clk (s : State) (r : Nat) (t : Trav) : (setTrav s r t).clk = s.clk := rfl
@[simp] theorem setTrav_sec (s : State) (r : Nat) (t : Trav) : (setTrav s r t).sec = s.sec := rfl
@[simp] theorem setTrav_ras (s : State) (r : Nat) (t : Trav) : (setTrav s r t).ras = s.ras := rfl
@[simp] theorem setTrav_mgt (s : State) (r : Nat) (t : Trav) : (setTrav s r t).mgt = s.mgt := rfl
@[simp] theorem setTrav_tak (s : State) (r : Nat) (t : Trav) : (setTrav s r t).tak = s.tak := rfl
@[simp] theorem setTrav_dtm (s : State) (r : Nat) (t : Trav) : (setTrav s r t).dtm = s.dtm := rfl
@[simp] theorem setTrav_kva (s : State) (r : Nat) (t : Trav) : (setTrav s r t).kva = s.kva := rfl
@[simp] theorem setTrav_mxe (s : State) (r : Nat) (t : Trav) : (setTrav s r t).mxe = s.mxe := rfl
@[simp] theorem setTrav_att (s : State) (r : Nat) (t : Trav) : (setTrav s r t).att = s.att := rfl
@[simp] theorem setTrav_smp (s : State) (r : Nat) (t : Trav) : (setTrav s r t).smp = s.smp := rfl
@[simp] theorem setTrav_con (s : State) (r : Nat) (t : Trav) : (setTrav s r t).con = s.con := rfl
@[simp] theorem setTrav_glk (s : State) (r : Nat) (t : Trav) : (setTrav s r t).glk = s.glk := rfl
@[simp] theorem setTrav_shp (s : State) (r : Nat) (t : Trav) : (setTrav s r t).shp = s.shp := rfl
@[simp] theorem setTrav_flt (s : State) (r : Nat) (t : Trav) : (setTrav s r t).flt = s.flt := rfl
@[simp] theorem setTrav_gth (s : State) (r : Nat) (t : Trav) : (setTrav s r t).gth = s.gth := rfl
@[simp] theorem setTrav_bmv (s : State) (r : Nat) (t : Trav) : (setTrav s r t).bmv = s.bmv := rfl
@[simp] theorem setTrav_out (s : State) (r : Nat) (t : Trav) : (setTrav s r t).out = s.out := rfl
@[simp] theorem setTrav_pending (s : State) (r : Nat) (t : Trav) : (setTrav s r t).pending = s.pending := rfl
@[simp] theorem setTrav_free (s : State) (r : Nat) (t : Trav) : (setTrav s r t).free = s.free := rfl
@[simp] theorem rdi_setTrav (s : State) (r : Nat) (t : Trav) (g : Field) (j : Nat) : rdi (setTrav s r t) g j = rdi s g j := rfl
@[simp] theorem rd_setTrav (s : State) (r : Nat) (t : Trav) (g : Field) : rd (setTrav s r t) g = rd s g := rfl

/-! ### modTrav -/

@[simp] theorem modTrav_regs (s : State) (r : Nat) (f : Trav → Trav) : (modTrav s r f).regs = s.regs := rfl
@[simp] theorem modTrav_hbm (s : State) (r : Nat) (f : Trav → Trav) : (modTrav s r f).hbm = s.hbm := rfl
@[simp] theorem modTrav_hpt (s : State) (r : Nat) (f : Trav → Trav) : (modTrav s r f).hpt = s.hpt := rfl
@[simp] theorem modTrav_sch (s : State) (r : Nat) (f : Trav → Trav) : (modTrav s r f).sch = s.sch := rfl
@[simp] theorem modTrav_mem (s : State) (r : Nat) (f : Trav → Trav) : (modTrav s r f).mem = s.mem := rfl
@[simp] theorem modTrav_clk (s : State) (r : Nat) (f : Trav → Trav) : (modTrav s r f).clk = s.clk := rfl
@[simp] theorem modTrav_sec (s : State) (r : Nat) (f : Trav → Trav) : (modTrav s r f).sec = s.sec := rfl
@[simp] theorem modTrav_ras (s : State) (r : Nat) (f : Trav → Trav) : (modTrav s r f).ras = s.ras := rfl
@[simp] theorem modTrav_mgt (s : State) (r : Nat) (f : Trav → Trav) : (modTrav s r f).mgt = s.mgt := rfl
@[simp] theorem modTrav_tak (s : State) (r : Nat) (f : Trav → Trav) : (modTrav s r f).tak = s.tak := rfl
@[simp] theorem modTrav_dtm (s : State) (r : Nat) (f : Trav → Trav) : (modTrav s r f).dtm = s.dtm := rfl
@[simp] theorem modTrav_kva (s : State) (r : Nat) (f : Trav → Trav) : (modTrav s r f).kva = s.kva := rfl
@[simp] theorem modTrav_mxe (s : State) (r : Nat) (f : Trav → Trav) : (modTrav s r f).mxe = s.mxe := rfl
@[simp] theorem modTrav_att (s : State) (r : Nat) (f : Trav → Trav) : (modTrav s r f).att = s.att := rfl
@[simp] theorem modTrav_smp (s : State) (r : Nat) (f : Trav → Trav) : (modTrav s r f).smp = s.smp := rfl
@[simp] theorem modTrav_con (s : State) (r : Nat) (f : Trav → Trav) : (modTrav s r f).con = s.con := rfl
@[simp] theorem modTrav_glk (s : State) (r : Nat) (f : Trav → Trav) : (modTrav s r f).glk = s.glk := rfl
@[simp] theorem modTrav_shp (s : State) (r : Nat) (f : Trav → Trav) : (modTrav s r f).shp = s.shp := rfl
@[simp] theorem modTrav_flt (s : State) (r : Nat) (f : Trav → Trav) : (modTrav s r f).flt = s.flt := rfl
@[simp] theorem modTrav_gth (s : State) (r : Nat) (f : Trav → Trav) : (modTrav s r f).gth = s.gth := rfl
@[simp] theorem modTrav_bmv (s : State) (r : Nat) (f : Trav → Trav) : (modTrav s r f).bmv = s.bmv := rfl
@[simp] theorem modTrav_out (s : State) (r : Nat) (f : Trav → Trav) : (modTrav s r f).out = s.out := rfl
@[simp] theorem modTrav_pending (s : State) (r : Nat) (f : Trav → Trav) : (modTrav s r f).pending = s.pending := rfl
@[simp] theorem modTrav_free (s : State) (r : Nat) (f : Trav → Trav) : (modTrav s r f).free = s.free := rfl
@[simp] theorem rdi_modTrav (s : State) (r : Nat) (f : Trav → Trav) (g : Field) (j : Nat) : rdi (modTrav s r f) g j = rdi s g j := rfl
@[simp] theorem rd_modTrav (s : State) (r : Nat) (f : Trav → Trav) (g : Field) : rd (modTrav s r f) g = rd s g := rfl

/-! ### modCore -/

@[simp] theorem modCore_regs (s : State) (c : Nat) (f : MxCore → MxCore) : (modCore s c f).regs = s.regs := rfl
@[simp] theorem modCore_hbm (s : State) (c : Nat) (f : MxCore → MxCore) : (modCore s c f).hbm = s.hbm := rfl
@[simp] theorem modCore_hpt (s : State) (c : Nat) (f : MxCore → MxCore) : (modCore s c f).hpt = s.hpt := rfl
@[simp] theorem modCore_sch (s : State) (c : Nat) (f : MxCore → MxCore) : (modCore s c f).sch = s.sch := rfl
@[simp] theorem modCore_mem (s : State) (c : Nat) (f : MxCore → MxCore) : (modCore s c f).mem = s.mem := rfl
@[simp] theorem modCore_clk (s : State) (c : Nat) (f : MxCore → MxCore) : (modCore s c f).clk = s.clk := rfl
@[simp] theorem modCore_sec (s : State) (c : Nat) (f : MxCore → MxCore) : (modCore s c f).sec = s.sec := rfl
@[simp] theorem modCore_ras (s : State) (c : Nat) (f : MxCore → MxCore) : (modCore s c f).ras = s.ras := rfl
@[simp] theorem modCore_mgt (s : State) (c : Nat) (f : MxCore → MxCore) : (modCore s c f).mgt = s.mgt := rfl
@[simp] theorem modCore_tak (s : State) (c : Nat) (f : MxCore → MxCore) : (modCore s c f).tak = s.tak := rfl
@[simp] theorem modCore_dtm (s : State) (c : Nat) (f : MxCore → MxCore) : (modCore s c f).dtm = s.dtm := rfl
@[simp] theorem modCore_kva (s : State) (c : Nat) (f : MxCore → MxCore) : (modCore s c f).kva = s.kva := rfl
@[simp] theorem modCore_att (s : State) (c : Nat) (f : MxCore → MxCore) : (modCore s c f).att = s.att := rfl
@[simp] theorem modCore_smp (s : State) (c : Nat) (f : MxCore → MxCore) : (modCore s c f).smp = s.smp := rfl
@[simp] theorem modCore_con (s : State) (c : Nat) (f : MxCore → MxCore) : (modCore s c f).con = s.con := rfl
@[simp] theorem modCore_glk (s : State) (c : Nat) (f : MxCore → MxCore) : (modCore s c f).glk = s.glk := rfl
@[simp] theorem modCore_shp (s : State) (c : Nat) (f : MxCore → MxCore) : (modCore s c f).shp = s.shp := rfl
@[simp] theorem modCore_trv (s : State) (c : Nat) (f : MxCore → MxCore) : (modCore s c f).trv = s.trv := rfl
@[simp] theorem modCore_flt (s : State) (c : Nat) (f : MxCore → MxCore) : (modCore s c f).flt = s.flt := rfl
@[simp] theorem modCore_gth (s : State) (c : Nat) (f : MxCore → MxCore) : (modCore s c f).gth = s.gth := rfl
@[simp] theorem modCore_bmv (s : State) (c : Nat) (f : MxCore → MxCore) : (modCore s c f).bmv = s.bmv := rfl
@[simp] theorem modCore_out (s : State) (c : Nat) (f : MxCore → MxCore) : (modCore s c f).out = s.out := rfl
@[simp] theorem modCore_pending (s : State) (c : Nat) (f : MxCore → MxCore) : (modCore s c f).pending = s.pending := rfl
@[simp] theorem modCore_free (s : State) (c : Nat) (f : MxCore → MxCore) : (modCore s c f).free = s.free := rfl
@[simp] theorem rdi_modCore (s : State) (c : Nat) (f : MxCore → MxCore) (g : Field) (j : Nat) : rdi (modCore s c f) g j = rdi s g j := rfl
@[simp] theorem rd_modCore (s : State) (c : Nat) (f : MxCore → MxCore) (g : Field) : rd (modCore s c f) g = rd s g := rfl

/-! ### modRun -/

@[simp] theorem modRun_regs (s : State) (id : Nat) (f : Run → Run) : (modRun s id f).regs = s.regs := rfl
@[simp] theorem modRun_hbm (s : State) (id : Nat) (f : Run → Run) : (modRun s id f).hbm = s.hbm := rfl
@[simp] theorem modRun_hpt (s : State) (id : Nat) (f : Run → Run) : (modRun s id f).hpt = s.hpt := rfl
@[simp] theorem modRun_sch (s : State) (id : Nat) (f : Run → Run) : (modRun s id f).sch = s.sch := rfl
@[simp] theorem modRun_mem (s : State) (id : Nat) (f : Run → Run) : (modRun s id f).mem = s.mem := rfl
@[simp] theorem modRun_clk (s : State) (id : Nat) (f : Run → Run) : (modRun s id f).clk = s.clk := rfl
@[simp] theorem modRun_sec (s : State) (id : Nat) (f : Run → Run) : (modRun s id f).sec = s.sec := rfl
@[simp] theorem modRun_ras (s : State) (id : Nat) (f : Run → Run) : (modRun s id f).ras = s.ras := rfl
@[simp] theorem modRun_mgt (s : State) (id : Nat) (f : Run → Run) : (modRun s id f).mgt = s.mgt := rfl
@[simp] theorem modRun_tak (s : State) (id : Nat) (f : Run → Run) : (modRun s id f).tak = s.tak := rfl
@[simp] theorem modRun_dtm (s : State) (id : Nat) (f : Run → Run) : (modRun s id f).dtm = s.dtm := rfl
@[simp] theorem modRun_kva (s : State) (id : Nat) (f : Run → Run) : (modRun s id f).kva = s.kva := rfl
@[simp] theorem modRun_att (s : State) (id : Nat) (f : Run → Run) : (modRun s id f).att = s.att := rfl
@[simp] theorem modRun_smp (s : State) (id : Nat) (f : Run → Run) : (modRun s id f).smp = s.smp := rfl
@[simp] theorem modRun_con (s : State) (id : Nat) (f : Run → Run) : (modRun s id f).con = s.con := rfl
@[simp] theorem modRun_glk (s : State) (id : Nat) (f : Run → Run) : (modRun s id f).glk = s.glk := rfl
@[simp] theorem modRun_shp (s : State) (id : Nat) (f : Run → Run) : (modRun s id f).shp = s.shp := rfl
@[simp] theorem modRun_trv (s : State) (id : Nat) (f : Run → Run) : (modRun s id f).trv = s.trv := rfl
@[simp] theorem modRun_flt (s : State) (id : Nat) (f : Run → Run) : (modRun s id f).flt = s.flt := rfl
@[simp] theorem modRun_gth (s : State) (id : Nat) (f : Run → Run) : (modRun s id f).gth = s.gth := rfl
@[simp] theorem modRun_bmv (s : State) (id : Nat) (f : Run → Run) : (modRun s id f).bmv = s.bmv := rfl
@[simp] theorem modRun_out (s : State) (id : Nat) (f : Run → Run) : (modRun s id f).out = s.out := rfl
@[simp] theorem modRun_pending (s : State) (id : Nat) (f : Run → Run) : (modRun s id f).pending = s.pending := rfl
@[simp] theorem modRun_free (s : State) (id : Nat) (f : Run → Run) : (modRun s id f).free = s.free := rfl
@[simp] theorem rdi_modRun (s : State) (id : Nat) (f : Run → Run) (g : Field) (j : Nat) : rdi (modRun s id f) g j = rdi s g j := rfl
@[simp] theorem rd_modRun (s : State) (id : Nat) (f : Run → Run) (g : Field) : rd (modRun s id f) g = rd s g := rfl

/-! ### modFlt -/

@[simp] theorem modFlt_regs (s : State) (f : FltState → FltState) : (modFlt s f).regs = s.regs := rfl
@[simp] theorem modFlt_hbm (s : State) (f : FltState → FltState) : (modFlt s f).hbm = s.hbm := rfl
@[simp] theorem modFlt_hpt (s : State) (f : FltState → FltState) : (modFlt s f).hpt = s.hpt := rfl
@[simp] theorem modFlt_sch (s : State) (f : FltState → FltState) : (modFlt s f).sch = s.sch := rfl
@[simp] theorem modFlt_mem (s : State) (f : FltState → FltState) : (modFlt s f).mem = s.mem := rfl
@[simp] theorem modFlt_clk (s : State) (f : FltState → FltState) : (modFlt s f).clk = s.clk := rfl
@[simp] theorem modFlt_sec (s : State) (f : FltState → FltState) : (modFlt s f).sec = s.sec := rfl
@[simp] theorem modFlt_ras (s : State) (f : FltState → FltState) : (modFlt s f).ras = s.ras := rfl
@[simp] theorem modFlt_mgt (s : State) (f : FltState → FltState) : (modFlt s f).mgt = s.mgt := rfl
@[simp] theorem modFlt_tak (s : State) (f : FltState → FltState) : (modFlt s f).tak = s.tak := rfl
@[simp] theorem modFlt_dtm (s : State) (f : FltState → FltState) : (modFlt s f).dtm = s.dtm := rfl
@[simp] theorem modFlt_kva (s : State) (f : FltState → FltState) : (modFlt s f).kva = s.kva := rfl
@[simp] theorem modFlt_mxe (s : State) (f : FltState → FltState) : (modFlt s f).mxe = s.mxe := rfl
@[simp] theorem modFlt_att (s : State) (f : FltState → FltState) : (modFlt s f).att = s.att := rfl
@[simp] theorem modFlt_smp (s : State) (f : FltState → FltState) : (modFlt s f).smp = s.smp := rfl
@[simp] theorem modFlt_con (s : State) (f : FltState → FltState) : (modFlt s f).con = s.con := rfl
@[simp] theorem modFlt_glk (s : State) (f : FltState → FltState) : (modFlt s f).glk = s.glk := rfl
@[simp] theorem modFlt_shp (s : State) (f : FltState → FltState) : (modFlt s f).shp = s.shp := rfl
@[simp] theorem modFlt_trv (s : State) (f : FltState → FltState) : (modFlt s f).trv = s.trv := rfl
@[simp] theorem modFlt_gth (s : State) (f : FltState → FltState) : (modFlt s f).gth = s.gth := rfl
@[simp] theorem modFlt_bmv (s : State) (f : FltState → FltState) : (modFlt s f).bmv = s.bmv := rfl
@[simp] theorem modFlt_out (s : State) (f : FltState → FltState) : (modFlt s f).out = s.out := rfl
@[simp] theorem modFlt_pending (s : State) (f : FltState → FltState) : (modFlt s f).pending = s.pending := rfl
@[simp] theorem modFlt_free (s : State) (f : FltState → FltState) : (modFlt s f).free = s.free := rfl
@[simp] theorem modFlt_flt (s : State) (f : FltState → FltState) : (modFlt s f).flt = f s.flt := rfl
@[simp] theorem rdi_modFlt (s : State) (f : FltState → FltState) (g : Field) (j : Nat) : rdi (modFlt s f) g j = rdi s g j := rfl
@[simp] theorem rd_modFlt (s : State) (f : FltState → FltState) (g : Field) : rd (modFlt s f) g = rd s g := rfl

/-! ### modGth -/

@[simp] theorem modGth_regs (s : State) (f : GthState → GthState) : (modGth s f).regs = s.regs := rfl
@[simp] theorem modGth_hbm (s : State) (f : GthState → GthState) : (modGth s f).hbm = s.hbm := rfl
@[simp] theorem modGth_hpt (s : State) (f : GthState → GthState) : (modGth s f).hpt = s.hpt := rfl
@[simp] theorem modGth_sch (s : State) (f : GthState → GthState) : (modGth s f).sch = s.sch := rfl
@[simp] theorem modGth_mem (s : State) (f : GthState → GthState) : (modGth s f).mem = s.mem := rfl
@[simp] theorem modGth_clk (s : State) (f : GthState → GthState) : (modGth s f).clk = s.clk := rfl
@[simp] theorem modGth_sec (s : State) (f : GthState → GthState) : (modGth s f).sec = s.sec := rfl
@[simp] theorem modGth_ras (s : State) (f : GthState → GthState) : (modGth s f).ras = s.ras := rfl
@[simp] theorem modGth_mgt (s : State) (f : GthState → GthState) : (modGth s f).mgt = s.mgt := rfl
@[simp] theorem modGth_tak (s : State) (f : GthState → GthState) : (modGth s f).tak = s.tak := rfl
@[simp] theorem modGth_dtm (s : State) (f : GthState → GthState) : (modGth s f).dtm = s.dtm := rfl
@[simp] theorem modGth_kva (s : State) (f : GthState → GthState) : (modGth s f).kva = s.kva := rfl
@[simp] theorem modGth_mxe (s : State) (f : GthState → GthState) : (modGth s f).mxe = s.mxe := rfl
@[simp] theorem modGth_att (s : State) (f : GthState → GthState) : (modGth s f).att = s.att := rfl
@[simp] theorem modGth_smp (s : State) (f : GthState → GthState) : (modGth s f).smp = s.smp := rfl
@[simp] theorem modGth_con (s : State) (f : GthState → GthState) : (modGth s f).con = s.con := rfl
@[simp] theorem modGth_glk (s : State) (f : GthState → GthState) : (modGth s f).glk = s.glk := rfl
@[simp] theorem modGth_shp (s : State) (f : GthState → GthState) : (modGth s f).shp = s.shp := rfl
@[simp] theorem modGth_trv (s : State) (f : GthState → GthState) : (modGth s f).trv = s.trv := rfl
@[simp] theorem modGth_flt (s : State) (f : GthState → GthState) : (modGth s f).flt = s.flt := rfl
@[simp] theorem modGth_bmv (s : State) (f : GthState → GthState) : (modGth s f).bmv = s.bmv := rfl
@[simp] theorem modGth_out (s : State) (f : GthState → GthState) : (modGth s f).out = s.out := rfl
@[simp] theorem modGth_pending (s : State) (f : GthState → GthState) : (modGth s f).pending = s.pending := rfl
@[simp] theorem modGth_free (s : State) (f : GthState → GthState) : (modGth s f).free = s.free := rfl
@[simp] theorem modGth_gth (s : State) (f : GthState → GthState) : (modGth s f).gth = f s.gth := rfl
@[simp] theorem rdi_modGth (s : State) (f : GthState → GthState) (g : Field) (j : Nat) : rdi (modGth s f) g j = rdi s g j := rfl
@[simp] theorem rd_modGth (s : State) (f : GthState → GthState) (g : Field) : rd (modGth s f) g = rd s g := rfl

/-! ### modBmv -/

@[simp] theorem modBmv_regs (s : State) (f : BmvState → BmvState) : (modBmv s f).regs = s.regs := rfl
@[simp] theorem modBmv_hbm (s : State) (f : BmvState → BmvState) : (modBmv s f).hbm = s.hbm := rfl
@[simp] theorem modBmv_hpt (s : State) (f : BmvState → BmvState) : (modBmv s f).hpt = s.hpt := rfl
@[simp] theorem modBmv_sch (s : State) (f : BmvState → BmvState) : (modBmv s f).sch = s.sch := rfl
@[simp] theorem modBmv_mem (s : State) (f : BmvState → BmvState) : (modBmv s f).mem = s.mem := rfl
@[simp] theorem modBmv_clk (s : State) (f : BmvState → BmvState) : (modBmv s f).clk = s.clk := rfl
@[simp] theorem modBmv_sec (s : State) (f : BmvState → BmvState) : (modBmv s f).sec = s.sec := rfl
@[simp] theorem modBmv_ras (s : State) (f : BmvState → BmvState) : (modBmv s f).ras = s.ras := rfl
@[simp] theorem modBmv_mgt (s : State) (f : BmvState → BmvState) : (modBmv s f).mgt = s.mgt := rfl
@[simp] theorem modBmv_tak (s : State) (f : BmvState → BmvState) : (modBmv s f).tak = s.tak := rfl
@[simp] theorem modBmv_dtm (s : State) (f : BmvState → BmvState) : (modBmv s f).dtm = s.dtm := rfl
@[simp] theorem modBmv_kva (s : State) (f : BmvState → BmvState) : (modBmv s f).kva = s.kva := rfl
@[simp] theorem modBmv_mxe (s : State) (f : BmvState → BmvState) : (modBmv s f).mxe = s.mxe := rfl
@[simp] theorem modBmv_att (s : State) (f : BmvState → BmvState) : (modBmv s f).att = s.att := rfl
@[simp] theorem modBmv_smp (s : State) (f : BmvState → BmvState) : (modBmv s f).smp = s.smp := rfl
@[simp] theorem modBmv_con (s : State) (f : BmvState → BmvState) : (modBmv s f).con = s.con := rfl
@[simp] theorem modBmv_glk (s : State) (f : BmvState → BmvState) : (modBmv s f).glk = s.glk := rfl
@[simp] theorem modBmv_shp (s : State) (f : BmvState → BmvState) : (modBmv s f).shp = s.shp := rfl
@[simp] theorem modBmv_trv (s : State) (f : BmvState → BmvState) : (modBmv s f).trv = s.trv := rfl
@[simp] theorem modBmv_flt (s : State) (f : BmvState → BmvState) : (modBmv s f).flt = s.flt := rfl
@[simp] theorem modBmv_gth (s : State) (f : BmvState → BmvState) : (modBmv s f).gth = s.gth := rfl
@[simp] theorem modBmv_out (s : State) (f : BmvState → BmvState) : (modBmv s f).out = s.out := rfl
@[simp] theorem modBmv_pending (s : State) (f : BmvState → BmvState) : (modBmv s f).pending = s.pending := rfl
@[simp] theorem modBmv_free (s : State) (f : BmvState → BmvState) : (modBmv s f).free = s.free := rfl
@[simp] theorem modBmv_bmv (s : State) (f : BmvState → BmvState) : (modBmv s f).bmv = f s.bmv := rfl
@[simp] theorem rdi_modBmv (s : State) (f : BmvState → BmvState) (g : Field) (j : Nat) : rdi (modBmv s f) g j = rdi s g j := rfl
@[simp] theorem rd_modBmv (s : State) (f : BmvState → BmvState) (g : Field) : rd (modBmv s f) g = rd s g := rfl

/-! ### modClk -/

@[simp] theorem modClk_regs (s : State) (f : ClkState → ClkState) : (modClk s f).regs = s.regs := rfl
@[simp] theorem modClk_hbm (s : State) (f : ClkState → ClkState) : (modClk s f).hbm = s.hbm := rfl
@[simp] theorem modClk_hpt (s : State) (f : ClkState → ClkState) : (modClk s f).hpt = s.hpt := rfl
@[simp] theorem modClk_sch (s : State) (f : ClkState → ClkState) : (modClk s f).sch = s.sch := rfl
@[simp] theorem modClk_mem (s : State) (f : ClkState → ClkState) : (modClk s f).mem = s.mem := rfl
@[simp] theorem modClk_sec (s : State) (f : ClkState → ClkState) : (modClk s f).sec = s.sec := rfl
@[simp] theorem modClk_ras (s : State) (f : ClkState → ClkState) : (modClk s f).ras = s.ras := rfl
@[simp] theorem modClk_mgt (s : State) (f : ClkState → ClkState) : (modClk s f).mgt = s.mgt := rfl
@[simp] theorem modClk_tak (s : State) (f : ClkState → ClkState) : (modClk s f).tak = s.tak := rfl
@[simp] theorem modClk_dtm (s : State) (f : ClkState → ClkState) : (modClk s f).dtm = s.dtm := rfl
@[simp] theorem modClk_kva (s : State) (f : ClkState → ClkState) : (modClk s f).kva = s.kva := rfl
@[simp] theorem modClk_mxe (s : State) (f : ClkState → ClkState) : (modClk s f).mxe = s.mxe := rfl
@[simp] theorem modClk_att (s : State) (f : ClkState → ClkState) : (modClk s f).att = s.att := rfl
@[simp] theorem modClk_smp (s : State) (f : ClkState → ClkState) : (modClk s f).smp = s.smp := rfl
@[simp] theorem modClk_con (s : State) (f : ClkState → ClkState) : (modClk s f).con = s.con := rfl
@[simp] theorem modClk_glk (s : State) (f : ClkState → ClkState) : (modClk s f).glk = s.glk := rfl
@[simp] theorem modClk_shp (s : State) (f : ClkState → ClkState) : (modClk s f).shp = s.shp := rfl
@[simp] theorem modClk_trv (s : State) (f : ClkState → ClkState) : (modClk s f).trv = s.trv := rfl
@[simp] theorem modClk_flt (s : State) (f : ClkState → ClkState) : (modClk s f).flt = s.flt := rfl
@[simp] theorem modClk_gth (s : State) (f : ClkState → ClkState) : (modClk s f).gth = s.gth := rfl
@[simp] theorem modClk_bmv (s : State) (f : ClkState → ClkState) : (modClk s f).bmv = s.bmv := rfl
@[simp] theorem modClk_out (s : State) (f : ClkState → ClkState) : (modClk s f).out = s.out := rfl
@[simp] theorem modClk_pending (s : State) (f : ClkState → ClkState) : (modClk s f).pending = s.pending := rfl
@[simp] theorem modClk_free (s : State) (f : ClkState → ClkState) : (modClk s f).free = s.free := rfl
@[simp] theorem modClk_clk (s : State) (f : ClkState → ClkState) : (modClk s f).clk = f s.clk := rfl
@[simp] theorem rdi_modClk (s : State) (f : ClkState → ClkState) (g : Field) (j : Nat) : rdi (modClk s f) g j = rdi s g j := rfl
@[simp] theorem rd_modClk (s : State) (f : ClkState → ClkState) (g : Field) : rd (modClk s f) g = rd s g := rfl

/-! ### modMgt -/

@[simp] theorem modMgt_regs (s : State) (f : MgtState → MgtState) : (modMgt s f).regs = s.regs := rfl
@[simp] theorem modMgt_hbm (s : State) (f : MgtState → MgtState) : (modMgt s f).hbm = s.hbm := rfl
@[simp] theorem modMgt_hpt (s : State) (f : MgtState → MgtState) : (modMgt s f).hpt = s.hpt := rfl
@[simp] theorem modMgt_sch (s : State) (f : MgtState → MgtState) : (modMgt s f).sch = s.sch := rfl
@[simp] theorem modMgt_mem (s : State) (f : MgtState → MgtState) : (modMgt s f).mem = s.mem := rfl
@[simp] theorem modMgt_clk (s : State) (f : MgtState → MgtState) : (modMgt s f).clk = s.clk := rfl
@[simp] theorem modMgt_sec (s : State) (f : MgtState → MgtState) : (modMgt s f).sec = s.sec := rfl
@[simp] theorem modMgt_ras (s : State) (f : MgtState → MgtState) : (modMgt s f).ras = s.ras := rfl
@[simp] theorem modMgt_tak (s : State) (f : MgtState → MgtState) : (modMgt s f).tak = s.tak := rfl
@[simp] theorem modMgt_dtm (s : State) (f : MgtState → MgtState) : (modMgt s f).dtm = s.dtm := rfl
@[simp] theorem modMgt_kva (s : State) (f : MgtState → MgtState) : (modMgt s f).kva = s.kva := rfl
@[simp] theorem modMgt_mxe (s : State) (f : MgtState → MgtState) : (modMgt s f).mxe = s.mxe := rfl
@[simp] theorem modMgt_att (s : State) (f : MgtState → MgtState) : (modMgt s f).att = s.att := rfl
@[simp] theorem modMgt_smp (s : State) (f : MgtState → MgtState) : (modMgt s f).smp = s.smp := rfl
@[simp] theorem modMgt_con (s : State) (f : MgtState → MgtState) : (modMgt s f).con = s.con := rfl
@[simp] theorem modMgt_glk (s : State) (f : MgtState → MgtState) : (modMgt s f).glk = s.glk := rfl
@[simp] theorem modMgt_shp (s : State) (f : MgtState → MgtState) : (modMgt s f).shp = s.shp := rfl
@[simp] theorem modMgt_trv (s : State) (f : MgtState → MgtState) : (modMgt s f).trv = s.trv := rfl
@[simp] theorem modMgt_flt (s : State) (f : MgtState → MgtState) : (modMgt s f).flt = s.flt := rfl
@[simp] theorem modMgt_gth (s : State) (f : MgtState → MgtState) : (modMgt s f).gth = s.gth := rfl
@[simp] theorem modMgt_bmv (s : State) (f : MgtState → MgtState) : (modMgt s f).bmv = s.bmv := rfl
@[simp] theorem modMgt_out (s : State) (f : MgtState → MgtState) : (modMgt s f).out = s.out := rfl
@[simp] theorem modMgt_pending (s : State) (f : MgtState → MgtState) : (modMgt s f).pending = s.pending := rfl
@[simp] theorem modMgt_free (s : State) (f : MgtState → MgtState) : (modMgt s f).free = s.free := rfl
@[simp] theorem modMgt_mgt (s : State) (f : MgtState → MgtState) : (modMgt s f).mgt = f s.mgt := rfl
@[simp] theorem rdi_modMgt (s : State) (f : MgtState → MgtState) (g : Field) (j : Nat) : rdi (modMgt s f) g j = rdi s g j := rfl
@[simp] theorem rd_modMgt (s : State) (f : MgtState → MgtState) (g : Field) : rd (modMgt s f) g = rd s g := rfl

/-! ### modMir -/

@[simp] theorem modMir_regs (s : State) (f : Mirror → Mirror) : (modMir s f).regs = s.regs := rfl
@[simp] theorem modMir_hbm (s : State) (f : Mirror → Mirror) : (modMir s f).hbm = s.hbm := rfl
@[simp] theorem modMir_hpt (s : State) (f : Mirror → Mirror) : (modMir s f).hpt = s.hpt := rfl
@[simp] theorem modMir_sch (s : State) (f : Mirror → Mirror) : (modMir s f).sch = s.sch := rfl
@[simp] theorem modMir_mem (s : State) (f : Mirror → Mirror) : (modMir s f).mem = s.mem := rfl
@[simp] theorem modMir_clk (s : State) (f : Mirror → Mirror) : (modMir s f).clk = s.clk := rfl
@[simp] theorem modMir_sec (s : State) (f : Mirror → Mirror) : (modMir s f).sec = s.sec := rfl
@[simp] theorem modMir_ras (s : State) (f : Mirror → Mirror) : (modMir s f).ras = s.ras := rfl
@[simp] theorem modMir_mgt (s : State) (f : Mirror → Mirror) : (modMir s f).mgt = s.mgt := rfl
@[simp] theorem modMir_tak (s : State) (f : Mirror → Mirror) : (modMir s f).tak = s.tak := rfl
@[simp] theorem modMir_dtm (s : State) (f : Mirror → Mirror) : (modMir s f).dtm = s.dtm := rfl
@[simp] theorem modMir_kva (s : State) (f : Mirror → Mirror) : (modMir s f).kva = s.kva := rfl
@[simp] theorem modMir_mxe (s : State) (f : Mirror → Mirror) : (modMir s f).mxe = s.mxe := rfl
@[simp] theorem modMir_att (s : State) (f : Mirror → Mirror) : (modMir s f).att = s.att := rfl
@[simp] theorem modMir_smp (s : State) (f : Mirror → Mirror) : (modMir s f).smp = s.smp := rfl
@[simp] theorem modMir_glk (s : State) (f : Mirror → Mirror) : (modMir s f).glk = s.glk := rfl
@[simp] theorem modMir_shp (s : State) (f : Mirror → Mirror) : (modMir s f).shp = s.shp := rfl
@[simp] theorem modMir_trv (s : State) (f : Mirror → Mirror) : (modMir s f).trv = s.trv := rfl
@[simp] theorem modMir_flt (s : State) (f : Mirror → Mirror) : (modMir s f).flt = s.flt := rfl
@[simp] theorem modMir_gth (s : State) (f : Mirror → Mirror) : (modMir s f).gth = s.gth := rfl
@[simp] theorem modMir_bmv (s : State) (f : Mirror → Mirror) : (modMir s f).bmv = s.bmv := rfl
@[simp] theorem modMir_out (s : State) (f : Mirror → Mirror) : (modMir s f).out = s.out := rfl
@[simp] theorem modMir_pending (s : State) (f : Mirror → Mirror) : (modMir s f).pending = s.pending := rfl
@[simp] theorem modMir_free (s : State) (f : Mirror → Mirror) : (modMir s f).free = s.free := rfl
@[simp] theorem rdi_modMir (s : State) (f : Mirror → Mirror) (g : Field) (j : Nat) : rdi (modMir s f) g j = rdi s g j := rfl
@[simp] theorem rd_modMir (s : State) (f : Mirror → Mirror) (g : Field) : rd (modMir s f) g = rd s g := rfl

end Sys2Proof.Laws
end

