-- ==== Sys2Proof/Tests/Fixture.lean ====
section
/-! SUPPORT. Small states and operands that the tests run their commands on. -/

namespace Sys2Proof.Tests

open Sys2Proof Sys2Proof.Machine

/-- A controller's map entry (R390): node, twin, role, state, group, sibling, slot and GSIZE_M1. -/
def mapEntry (n tw role st g sib slot gs : Nat) : List Word :=
  [mkWord [(0, 20, n), (20, 20, tw), (40, 3, role), (43, 2, st)], mkWord [(0, 16, g), (16, 16, sib), (32, 10, slot), (42, 10, gs)],
   mkWord [(0, 16, 1)], 0]

/-- A composition map: pair 1 and 2 (BOTH), pair 3 and 4 (CACHE), pair 5 and 6 (GENERATE); node 1 is the default home. -/
def fxMap : Tbl (List Word) :=
  [(1, mapEntry 1 2 4 1 1 2 0 0), (2, mapEntry 2 1 4 1 2 1 0 0), (3, mapEntry 3 4 3 1 3 4 0 0), (4, mapEntry 4 3 3 1 4 3 0 0),
   (5, mapEntry 5 6 2 1 5 6 0 0), (6, mapEntry 6 5 2 1 6 5 0 0), (0xFFFFF, [mkWord [(0, 20, 3), (20, 20, 1)], 0, 0, 0])]

/-- Context 1 as tenant 0, with one ring and one completion queue (R61). -/
def fxEntry : CtxEntry := ⟨0, 0x1000, 0x2000, 0x3000, [⟨0x10000, 0, 6⟩], [⟨0x20000, 6, 3, true⟩]⟩

/-- Context 1 with one descriptor announced and not yet fetched. -/
def fxCtx : Ctx := ⟨fxEntry, [⟨0, 1, []⟩], [⟨0, 0, false, []⟩], true, false, none⟩

/-- A controller that is up: node 1 in the map above at epoch 5, context 1 enabled for a tenant that may use all of host
memory and of HBM, model 1 bound. -/
def fx : State :=
  { State.reset with
    regs := [(0x10010, mkWord [(61, 3, 3)]), (0x10018, 1), (0x90100, mkWord [(63, 1, 1), (0, 16, 1)]), (0x0A0100, 64),
      (0x1F0008, 1), (0x220000, mkWord [(0, 20, 0x80000)]), (0x220008, 5)]
    hpt := { State.reset.hpt with ctxs := [(1, fxCtx)] }
    sec := { State.reset.sec with window := [(0x1008, at' 63 1 1), (0x10000, 1), (0x10018, mkWord [(16, 15, 2)]),
      (0x20000, 0x0C), (0x20010, 0x10000000000), (0x20020, 0x0D), (0x20030, 0x10000000000)] }
    clk := { State.reset.clk with clean := List.range 1024 }
    dtm := { State.reset.dtm with map := fxMap, leases := [(1, ⟨true, none⟩)] } }

/-- Context 1's entry as the host wrote it (R61). -/
def fxEntryWords : List Word :=
  [mkWord [(16, 4, 1), (20, 4, 1)], 0x1000, 0x2000, 0x3000, 0x10006, 0, 0, 0, 0, 0, 0, 0, 0x20006, 0, 0, 0, 0, 0, 0, 0, 0x8003]

/-- The fixture with context 1 in a state given. -/
def withCtx (x : Ctx) : State := { fx with hpt := { fx.hpt with ctxs := [(1, x)] } }

/-- The ring of context 1. -/
def rk : RingKey := ⟨1, 0⟩

/-- The key of the ring's first descriptor. -/
def dk : DescKey := ⟨1, 0, 0⟩

/-- A descriptor of version 1 by opcode, REQUEST_ID and payload words. -/
def mkDesc (op req : Nat) (w2 w3 w4 w5 w6 w7 : Word) : Desc :=
  ⟨mkWord [(0, 8, op), (8, 4, 1)], at' 0 48 req, w2, w3, w4, w5, w6, w7⟩

/-- The state after descriptor `d` has been fetched. -/
def dt (s : State) (d : Desc) : State :=
  match takeDesc s rk d with
  | .dispatched s1 _ => s1
  | _ => s

/-- The fixture with a descriptor of an opcode and REQUEST_ID in flight. -/
def withFlight (req op : Nat) : State :=
  { fx with hpt := { fx.hpt with flight := [(flightId dk, ⟨dk, op, false, false, 9, req, none⟩)] } }

/-- The state in which descriptor `d` has been dispatched. -/
def du (s : State) (k : RingKey) (d : Desc) : State :=
  match takeDesc s k d with
  | .dispatched s1 key => setFlight s1 (flightId key) ⟨key, dOpcode d, dNocomp d, dIntr d, dTag d, dReq d, none⟩
  | _ => s

/-- Whether descriptor `d` is dispatched now, under `key`. -/
def takes (s : State) (k : RingKey) (d : Desc) (key : DescKey) : Bool :=
  isUp s && (match takeDesc s k d with
    | .dispatched _ key' => key' == key
    | _ => false)

/-- A descriptor that `takes` accepts is dispatched. -/
theorem disp_du (s : State) (k : RingKey) (d : Desc) (key : DescKey) (h : takes s k d key = true) :
    dispatched s k d key (du s k d) := by
  unfold takes at h
  rw [Bool.and_eq_true] at h
  refine ⟨h.1, ?_⟩
  cases ht : takeDesc s k d with
  | dispatched s1 key' =>
    rw [ht] at h
    have e : key' = key := by simpa using h.2
    subst e
    exact ⟨s1, rfl, by unfold du; rw [ht]⟩
  | nothing => rw [ht] at h; simp at h
  | waits s1 => rw [ht] at h; simp at h

end Sys2Proof.Tests
end

