-- ==== Sys2Proof/WellFormed.lean ====
section
/-! DEFINITION. Which commands are well formed: every operand within the range that its field, its message or its unit can hold. The
meanings do not rely on it. -/

namespace Sys2Proof

/-! ### Numbers and lists -/

/-- A 16-bit number. -/
def okU16 (n : Nat) : Bool := decide (n < 2 ^ 16)

/-- A 32-bit number. -/
def okU32 (n : Nat) : Bool := decide (n < 2 ^ 32)

/-- A number of a context (R61). -/
def okCtx (c : Nat) : Bool := decide (c < 4096)

/-- A node ID (R12). -/
def okNode (n : Nat) : Bool := decide (n < 2 ^ 20)

/-- A REQUEST_ID (R71). -/
def okReq (r : Nat) : Bool := decide (r < 2 ^ 48)

/-- A list of a given length. -/
def okLen {α : Type} (n : Nat) (l : List α) : Bool := l.length == n

/-- A TAG of the cache pool, where there is one. -/
def okTag (t : Option Nat) : Bool := t.elim true okU32

/-- A table's keys rise strictly. -/
def okRising {α : Type} (t : Tbl α) : Bool := (t.zip t.tail).all (fun p => decide (p.1.1 < p.2.1))

/-! ### Operands -/

/-- A ring of a context (R61). -/
def okRing (k : RingKey) : Bool := okCtx k.ctx && decide (k.ring < 8)

/-- A descriptor's key (R64). -/
def okKey (k : DescKey) : Bool := okCtx k.ctx && decide (k.ring < 8) && okU32 k.count

/-- A BAR0 access of 1 to 8 bytes within the 16 MiB window (R542). -/
def okAccess (a : RegAccess) : Bool := decide (1 ≤ a.size) && decide (a.size ≤ 8) && decide (a.off + a.size ≤ 2 ^ 24)

/-- What a host access was made for. -/
def okHostAccess : HostAccess → Bool
  | .enable => true
  | .context c => okCtx c
  | .shared f => f.elim true (fun n => decide (n < 2 ^ 48))
  | .mover m => decide (m < 8)

/-- A home's answer (R402). -/
def okHome : HomeView → Bool
  | .unknown => true
  | .record _ g e c _ => okU16 g && okU32 e && decide (c ≤ 4194304)

/-- Gather lists: as many weights, or rows, as indexes, or none; 32-bit offsets and indexes. -/
def okLists (g : GatherLists) : Bool :=
  g.offsets.all okU32 && g.indexes.all okU32 && (g.weights.isEmpty || g.weights.length == g.indexes.length) &&
    (g.rows.isEmpty || g.rows.length == g.indexes.length)

/-- Estimates name requests. -/
def okEst (e : StepEstimate) : Bool := e.main.all (fun p => okReq p.1) && e.standin.all (fun p => okReq p.1)

/-- A unit of the part (R3). -/
def okCore : CoreUnit → Bool
  | .matrixCore c => decide (c < 100)
  | .expanderLane l => okU16 l
  | .attentionPipe p => okU16 p
  | .sampler => true
  | .gatherEngine e => okU16 e

/-- A scrubbed word (R308): a pseudo-channel below 512 for HBM, at a 4-byte boundary. -/
def okScrub (w : ScrubWord) : Bool := (w.sram || decide (w.unit < 512)) && decide (w.offset % 4 = 0) && decide (w.row < 2 ^ 36)

/-- An image: header fields in their widths, and a payload that is a table (R483). -/
def okImage (i : BootImage) : Bool :=
  decide (i.hdrVer < 16) && decide (i.kind < 16) && decide (i.keyClass < 256) && okU32 i.len && okU32 i.svn &&
    i.keyHash.elim true (fun k => decide (k < 5)) && okRising i.payload

/-- A take across controllers (R124): a 24-bit ID. -/
def okRef (r : TakeRef) : Bool := okNode r.node && decide (r.id < 2 ^ 24)

/-- A PREPARE: a participant index, and a slate with its header (R124). -/
def okPrepare (m : PrepareMsg) : Bool :=
  okRef m.ref && decide (m.stamp < 2 ^ 64) && decide (m.part < 16) && decide (16 ≤ m.slate.length)

/-- A vote. -/
def okVote (m : VoteMsg) : Bool :=
  decide (m.takeId < 2 ^ 24) && decide (m.part < 16) && decide (m.stamp < 2 ^ 64) && decide (m.action < 64) && m.against.elim true okRef

/-- Rows to append: as many values as keys, at most 16,384 of them. -/
def okAppend (a : AppendBatch) : Bool :=
  okReq a.req && decide (a.layer < 256) && decide (a.head < 256) && decide (a.pos < 2 ^ 23) && a.keys.length == a.values.length

/-- A page (R208). -/
def okPage (p : PageKey) : Bool := okReq p.req && decide (p.layer < 256) && decide (p.head < 256) && decide (p.page < 2 ^ 23)

/-- An attention pass: tree nodes below 64. -/
def okPass (p : PassKey) : Bool :=
  okReq p.req && decide (p.layer < 256) && decide (p.head < 256) && p.rows.all (fun r => r.node.elim true (fun n => decide (n < 64)))

/-- A draw: a token below 2^20. -/
def okDraw (m : DrawMsg) : Bool := okReq m.req && decide (m.node < 64) && decide (m.slot < 1024) && decide (m.token < 2 ^ 20)

/-- A step's result: tokens below 2^20. -/
def okVerify (m : VerifyMsg) : Bool :=
  okReq m.req && m.tokens.all (fun t => decide (t < 2 ^ 20)) && m.tree.all (fun t => decide (t < 2 ^ 20))

/-- A delivery. -/
def okDelivery (m : DeliveryMsg) : Bool :=
  okReq m.req && decide (m.pos < 2 ^ 23) && m.tokens.all (fun t => decide (t < 2 ^ 20)) && m.cancels.all okKey

/-- A client of the flash tier: a tenant below 1,024. -/
def okClient : FlashClient → Bool
  | .kva => true
  | .gather t => decide (t < 1024)
  | .mover t => decide (t < 1024)

/-- A CREDIT frame: 12-bit sequence numbers and twelve counts (R340). -/
def okCredit (f : CreditMsg) : Bool := decide (f.seq < 4096) && decide (f.ack < 4096) && okLen 12 f.counts

/-- A DATA frame: twelve channels and 12-bit sequence numbers (R340). -/
def okData (f : DataMsg) : Bool := decide (f.vc < 12) && decide (f.seq < 4096) && decide (f.ack < 4096)

/-- A remote operation: a class of the six, an offset of 52 bits (R340, R352). -/
def okRemote (r : RemoteReq) : Bool :=
  okNode r.src && decide (r.port < 60) && decide (r.tc < 6) && okU32 r.tag && okU32 r.epoch && decide (r.offset < 2 ^ 52)

/-- A flow. -/
def okFlow (f : FlowKey) : Bool := okNode f.dest && decide (f.tc < 6) && decide (f.stripe < 64)

/-- A trigger of a Traverse. -/
def okTrigger : TraverseTrigger → Bool
  | .prefillDone r => okReq r
  | .park r d o f => okReq r && okU16 d && okNode o && decide (f < 2 ^ 48)
  | .handover r d => okReq r && okU16 d
  | .auto r => okReq r

/-- A mirror record's body (R441). -/
def okBody : MirrorBody → Bool
  | .rows p _ _ _ _ => okPage p
  | .entry p _ _ => okPage p
  | .root r ws => okReq r && decide (8 ≤ ws.length)
  | .commit r _ _ c _ _ => okReq r && decide (c ≤ 4194304)
  | .counts r _ => okReq r
  | .intent i _ _ ws => okRef i && decide (16 ≤ ws.length)
  | .decision t _ _ ns => decide (t < 2 ^ 24) && ns.all okNode
  | .home r w => okReq r && w.elim true (okLen 8)
  | .transit r ws => okReq r && (ws.isEmpty || okLen 48 ws)
  | .audit p _ => okPage p
  | .release r => okReq r
  | .holder n _ _ => okNode n
  | .reserved k => decide (k < 256)

/-- An acknowledgement or a report of a take. -/
def okAck : AckMsg → Bool
  | .ack t n st => decide (t < 2 ^ 24) && decide (n < 2 ^ 20) && decide (st < 2 ^ 64)
  | .ended k t _ a p _ n => okU32 k && decide (t < 2 ^ 24) && decide (a < 64) && decide (p < 16) && decide (n < 32)

/-! ### Commands -/

/-- Whether a command is well formed. -/
def Instr.wf : Instr → Bool
  | .ucieLinkTraining _ modUp rateGt repairs => decide (modUp < 16) && okU16 rateGt && okU16 repairs
  | .ucieModuleFail m => decide (m < 4)
  | .ctxEnable ctx => okCtx ctx
  | .ctxEnableReadDone entry line => okLen 32 entry && okLen 8 line
  | .ctxDisable ctx => okCtx ctx
  | .ctxDisableDone ctx => okCtx ctx
  | .evqCfgWrite _ => true
  | .hdmCfgWrite _ => true
  | .doorbellSnoop ctx => okCtx ctx
  | .doorbellPoll => true
  | .doorbellLineData ctx line => okCtx ctx && okLen 8 line
  | .cqHeadSnoop ctx line => okCtx ctx && okLen 8 line
  | .hostAccessTimeout a => okHostAccess a
  | .hostDataError a => okHostAccess a
  | .nop k _ => okRing k
  | .reservedOpcode k _ => okRing k
  | .reqPost k _ param _ home => okRing k && (param.isEmpty || okLen 32 param) && okHome home
  | .reqPark k _ home => okRing k && okHome home
  | .reqCancel k _ home => okRing k && okHome home
  | .reqReleaseFree k _ home => okRing k && okHome home
  | .reqReleaseReshoot k _ home => okRing k && okHome home
  | .kernelLoad k _ _ => okRing k
  | .kernelUnload k _ => okRing k
  | .kernelRun k _ => okRing k
  | .move k _ => okRing k
  | .packCode k _ => okRing k
  | .packCodeSafe k _ => okRing k
  | .packUnpack k _ => okRing k
  | .packFree k _ => okRing k
  | .tableRegister k _ => okRing k
  | .tableFree k _ => okRing k
  | .tableRefresh k _ _ => okRing k
  | .tableLoad k _ _ => okRing k
  | .tableSync k _ _ => okRing k
  | .gatherPool k _ g => okRing k && okLists g
  | .gatherCopy k _ g => okRing k && okLists g
  | .update k _ g => okRing k && okLists g
  | .takeSubmit k _ => okRing k
  | .takeSlateRead k slate => okKey k && decide (16 ≤ slate.length)
  | .semSignalAdd k _ => okRing k
  | .semSignalSet k _ => okRing k
  | .semWait k _ => okRing k
  | .semWaitTimeout k => okKey k
  | .stepAdmission est => okEst est
  | .promptAdmission => true
  | .roster src words => okNode src && decide (2 ≤ words.length)
  | .unitEnd _ => true
  | .contextTeardown ctx _ => okCtx ctx
  | .contextTeardownDone ctx => okCtx ctx
  | .takeSlateForward src srcKey retries _ slate => okNode src && okU32 srcKey && decide (retries < 16) && decide (16 ≤ slate.length)
  | .takePrepare m => okPrepare m
  | .intentMirrorAck id => okRef id
  | .takeVote m => okVote m
  | .takeVoteTimeout takeId part => decide (takeId < 2 ^ 24) && decide (part < 16)
  | .decisionMirrorAck takeId => decide (takeId < 2 ^ 24)
  | .takeCommit id stamp => okRef id && decide (stamp < 2 ^ 64)
  | .takeAbort id stamp => okRef id && decide (stamp < 2 ^ 64)
  | .takeAck m => okAck m
  | .takeIndoubtTimeout id => okRef id
  | .takeInquiry src id stamp => okNode src && okRef id && decide (stamp < 2 ^ 64)
  | .takeEndedNotice ended => okRef ended
  | .takeRetry takeId => decide (takeId < 2 ^ 24)
  | .mxeUnitDone flight kernel unit core _ _ => decide (flight < 2 ^ 48) && decide (kernel < 4096) && okU32 unit && decide (core < 100)
  | .mxeRetryDone flight kernel unit core _ _ => decide (flight < 2 ^ 48) && decide (kernel < 4096) && okU32 unit && decide (core < 100)
  | .mxeCoreTest core => decide (core < 100)
  | .mxeCoreRetire core => decide (core < 100)
  | .coreSelftestDone core _ => decide (core < 100)
  | .expanderBlock run tensor block => decide (run < 2 ^ 48) && okU32 tensor && okU32 block
  | .expanderReread run tensor block => decide (run < 2 ^ 48) && okU32 tensor && okU32 block
  | .appendRows a => okAppend a
  | .kvaAgeTick => true
  | .eviction cls => decide (cls < 4)
  | .demoteWriteDone frame flashAddr _ => decide (frame < 2 ^ 32) && decide (flashAddr < 2 ^ 36)
  | .pagePromote page _ _ => okPage page
  | .dropNotice src req highest count _ => okNode src && okReq req && decide (highest < 2 ^ 23) && okU32 count
  | .reshootRequest req inCount origin flight => okReq req && decide (inCount < 2 ^ 23) && okNode origin && decide (flight < 2 ^ 48)
  | .reshootComplete req _ => okReq req
  | .poolEnable _ => true
  | .poolDisable _ => true
  | .attentionPass p => okPass p
  | .partialRecord tag _ _ => okTag tag
  | .partialRequest _ _ => true
  | .partialReplyTimeout req tag => okReq req && okU32 tag
  | .attBindEnable j _ => decide (j < 16)
  | .attBindDisable j _ => decide (j < 16)
  | .attProfWrite a _ => okAccess a
  | .samplerPass req node _ _ => okReq req && decide (node < 64)
  | .roundASummary slot _ => decide (slot < 1024)
  | .thresholdReturn req node _ => okReq req && decide (node < 64)
  | .roundBDraw m => okDraw m
  | .verifyResult m => okVerify m
  | .mirroredReport src step _ => okNode src && decide (step < 2 ^ 64)
  | .tokenDelivery m => okDelivery m
  | .logitSlice req position slot nslots first _ => okReq req && decide (position < 2 ^ 23) && decide (slot < 1024) && decide (nslots ≤ 1024) && okU32 first
  | .hostChoice req _ => okReq req
  | .gatherRowData k row _ _ => okKey k && okU32 row
  | .migrationAddsDrained table row => okU16 table && okU32 row
  | .migrationCopyDone table row _ _ => okU16 table && okU32 row
  | .patrolScrub w => okScrub w
  | .pcInterfaceFail pc _ => decide (pc < 512)
  | .pcSuspectCmd target => okU32 target
  | .stackRetireCmd target => okU32 target
  | .atomicAddLine offset addends => decide (offset < 2 ^ 52) && okLen 16 addends
  | .hdmHostRead offset => decide (offset % 64 = 0)
  | .hdmHostWrite offset bytes => decide (offset % 64 = 0) && okLen 64 bytes
  | .ftlEnable _ => true
  | .ftlBringupDone chans _ => okLen 16 chans
  | .ftlDisable _ => true
  | .sectorRead c sector => okClient c && decide (sector < 2 ^ 36)
  | .sectorReadData sector _ => decide (sector < 2 ^ 36)
  | .sectorWrite c sector data => okClient c && decide (sector < 2 ^ 36) && (data.all (okLen 2048))
  | .mergeTimeout unit => okU32 unit
  | .pageProgramDone unit _ => okU32 unit
  | .blockEraseDone block _ => okU32 block
  | .garbageCollection => true
  | .staticLevelling => true
  | .zqCalibration => true
  | .flashChannelFail chan => decide (chan < 16)
  | .portEnable n _ => decide (n < 60)
  | .portDisable n _ => decide (n < 60)
  | .portRetrain n => decide (n < 60)
  | .pmdTrainingDone n _ => decide (n < 60)
  | .trainRetry n => decide (n < 60)
  | .keyxFrame n _ => decide (n < 60)
  | .creditFrame n f => decide (n < 60) && okCredit f
  | .linkTestFrame n _ _ => decide (n < 60)
  | .laneFault n _ => decide (n < 60)
  | .portRxTimeout n => decide (n < 60)
  | .creditTimeout n vc => decide (n < 60) && decide (vc < 12)
  | .dataFrame n f => decide (n < 60) && okData f
  | .put r bytes => okRemote r && decide (bytes.length ≤ 4096)
  | .get r _ => okRemote r
  | .addF32 r addends => okRemote r && okLen 16 addends
  | .addU64 r _ => okRemote r
  | .cas64 r _ _ => okRemote r
  | .putSignal r bytes => okRemote r && decide (bytes.length ≤ 4096)
  | .remoteResponse tag _ _ bytes => okU32 tag && decide (bytes.length ≤ 4096)
  | .respTimeout tag => okU32 tag
  | .busyRetry tag => okU32 tag
  | .flowMove f => okFlow f
  | .collTimeout coll => decide (coll < 2 ^ 52)
  | .reelSlot => true
  | .shaperWrite k _ => decide (k < 2)
  | .gateEntryEnd n => decide (n < 60)
  | .gateSwapRequest n _ => decide (n < 60)
  | .gateEnable n _ => decide (n < 60)
  | .moveChannelGrant mover _ => decide (mover < 8)
  | .moveComplete mover chan => decide (mover < 8) && decide (chan < 32)
  | .moverReadFault mover _ done => decide (mover < 8) && okLen 32 done
  | .moverStopDrained mover => decide (mover < 8)
  | .moverWriteFault mover chan _ done => decide (mover < 8) && decide (chan < 32) && decide (done < 2 ^ 48)
  | .moverReset mover done => decide (mover < 8) && okLen 32 done
  | .mapLogRecord src _ => okNode src
  | .surveyRound => true
  | .surveyEpoch src epoch => okNode src && okU32 epoch
  | .dtmJoin _ => true
  | .joinCopyDone epoch entries _ _ => okU32 epoch && (entries.all (fun e => okNode e.1 && okLen 4 e.2))
  | .joinTimeout => true
  | .renewTimer => true
  | .renew epoch words => okU32 epoch && okLen 4 words
  | .leaseLapse home => okNode home
  | .holderExpiry node => okNode node
  | .query epoch words => okU32 epoch && okLen 4 words
  | .answer src words => okNode src && okLen 4 words
  | .queryTimeout req => okReq req
  | .claim epoch words => okU32 epoch && okLen 4 words
  | .bucketCopy bucket => decide (bucket < 4096)
  | .traverseOpen t => okTrigger t
  | .openMsg hdr rec => okLen 4 hdr && okLen 48 rec
  | .accept hdr => okLen 4 hdr
  | .openTimeout req => okReq req
  | .legReserveRetry req => okReq req
  | .legReserveStall req => okReq req
  | .legReq hdr _ _ => okLen 4 hdr
  | .legReply hdr _ _ => okLen 4 hdr
  | .legTimeout req seq => okReq req && okU32 seq
  | .countEntry req srcSlot _ _ => okReq req && decide (srcSlot < 1024)
  | .doneMsg hdr => okLen 4 hdr
  | .owned hdr => okLen 4 hdr
  | .release hdr => okLen 4 hdr
  | .abandon hdr => okLen 4 hdr
  | .traverseDestRetry req => okReq req
  | .autoPark req => okReq req
  | .beatSend => true
  | .beat _ _ => true
  | .beatMiss => true
  | .probeReply _ => true
  | .probeTimeout => true
  | .mirrorRecord hdr body => okLen 3 hdr && okBody body
  | .mirrorAckTimeout => true
  | .conEnable _ => true
  | .yield => true
  | .reintegrate _ => true
  | .reintBulkDone => true
  | .reintReplayPassDone => true
  | .auditTick => true
  | .compareProbe _ => true
  | .droopTrip site => okU16 site
  | .droopClear => true
  | .droopRecovery => true
  | .powerWindow watts => okU16 watts
  | .idleGate u => okCore u
  | .hold => true
  | .resume => true
  | .controllerReset _ => true
  | .crstFall => true
  | .controllerFault _ => true
  | .porst => true
  | .porstRelease _ _ _ => true
  | .railFault _ => true
  | .railRecovery => true
  | .hbmCheck first countM1 => okU32 first && okU16 countM1
  | .hbmCheckReply _ => true
  | .hbmCheckCrcRequest granule => okU16 granule
  | .hbmClear first countM1 => okU32 first && okU16 countM1
  | .hbmClearDone => true
  | .stackTempPoll _ => true
  | .thermalAlert _ _ => true
  | .thermalAlertClear _ _ => true
  | .thermalTrip => true
  | .bootGo => true
  | .imageFetchDone img => okImage img
  | .prelockBar0Access a _ => okAccess a
  | .protWindowWrite a _ => okAccess a
  | .spdmGetVersion => true
  | .spdmGetCapabilities => true
  | .spdmNegotiateAlgorithms _ _ => true
  | .spdmGetDigests => true
  | .spdmGetCertificate slot offset length => decide (slot < 8) && okU16 offset && okU16 length
  | .spdmChallenge slot nonce => decide (slot < 8) && okLen 32 nonce
  | .spdmGetMeasurements index nonce => decide (index < 256) && okLen 32 nonce
  | .errorRecordWrite => true
  | .refetchRangeData tensor offset bytes _ => okU32 tensor && decide (offset < 2 ^ 52) && okLen 4096 bytes
  | .refetchFail tensor offset => okU32 tensor && decide (offset < 2 ^ 52)
  | .registerWrite a _ => okAccess a
  | .rcFieldRead a => okAccess a
  | .bar0Unsupported a _ => okAccess a
  | .crstRelease => true
  | .creditFrameInterval n => decide (n < 60)
  | .frameOnWireFinishes n => decide (n < 60)
  | .cancelReachesOwner req node src => okReq req && okNode node && okKey src
  | .claimResend home seq => okNode home && okU32 seq

end Sys2Proof
end

