-- ==== Sys2Proof/Tests/Slice0.lean ====
section
/-! SUPPORT. Tests. First, what `Instr.wf` refuses and accepts. Then, for each statement with hypotheses, concrete states and operands
that meet them, clause by clause. Last, values worked out by hand from the spec. -/

namespace Sys2Proof.Tests

set_option maxRecDepth 100000
set_option exponentiation.threshold 100000
set_option Elab.async false
set_option linter.unusedVariables false

open Sys2Proof Sys2Proof.Machine

/-! ### Well-formedness -/

theorem test_wf_refuses_host :
    ([
      .ucieLinkTraining [] 16 0 0, .ucieLinkTraining [] 0 65536 0, .ucieLinkTraining [] 0 0 65536, .ucieModuleFail 4,
      .ctxEnable 4096, .ctxEnableReadDone [] (List.replicate 8 0), .ctxEnableReadDone (List.replicate 32 0) [],
      .ctxDisable 4096, .ctxDisableDone 4096, .doorbellSnoop 4096, .doorbellLineData 4096 (List.replicate 8 0),
      .doorbellLineData 0 [], .cqHeadSnoop 4096 (List.replicate 8 0), .cqHeadSnoop 0 [],
      .hostAccessTimeout (.context 4096), .hostAccessTimeout (.shared (some (2 ^ 48))), .hostAccessTimeout (.mover 8),
      .hostDataError (.context 4096), .hostDataError (.shared (some (2 ^ 48))), .hostDataError (.mover 8)] : List Instr).all (fun i => !i.wf) = true := by
  decide +kernel

theorem test_wf_refuses_descriptors_1 :
    ([
      .nop ⟨4096, 0⟩ ⟨0, 0, 0, 0, 0, 0, 0, 0⟩, .nop ⟨1, 8⟩ ⟨0, 0, 0, 0, 0, 0, 0, 0⟩,
      .reservedOpcode ⟨4096, 0⟩ ⟨0, 0, 0, 0, 0, 0, 0, 0⟩, .reservedOpcode ⟨1, 8⟩ ⟨0, 0, 0, 0, 0, 0, 0, 0⟩,
      .reqPost ⟨4096, 0⟩ ⟨0, 0, 0, 0, 0, 0, 0, 0⟩ [] [] .unknown, .reqPost ⟨1, 8⟩ ⟨0, 0, 0, 0, 0, 0, 0, 0⟩ [] [] .unknown,
      .reqPost ⟨1, 0⟩ ⟨0, 0, 0, 0, 0, 0, 0, 0⟩ [0] [] .unknown,
      .reqPost ⟨1, 0⟩ ⟨0, 0, 0, 0, 0, 0, 0, 0⟩ [] [] (.record false 65536 0 0 false),
      .reqPost ⟨1, 0⟩ ⟨0, 0, 0, 0, 0, 0, 0, 0⟩ [] [] (.record false 0 (2 ^ 32) 0 false),
      .reqPost ⟨1, 0⟩ ⟨0, 0, 0, 0, 0, 0, 0, 0⟩ [] [] (.record false 0 0 4194305 false),
      .reqPark ⟨4096, 0⟩ ⟨0, 0, 0, 0, 0, 0, 0, 0⟩ .unknown, .reqPark ⟨1, 8⟩ ⟨0, 0, 0, 0, 0, 0, 0, 0⟩ .unknown,
      .reqPark ⟨1, 0⟩ ⟨0, 0, 0, 0, 0, 0, 0, 0⟩ (.record false 65536 0 0 false),
      .reqPark ⟨1, 0⟩ ⟨0, 0, 0, 0, 0, 0, 0, 0⟩ (.record false 0 (2 ^ 32) 0 false),
      .reqPark ⟨1, 0⟩ ⟨0, 0, 0, 0, 0, 0, 0, 0⟩ (.record false 0 0 4194305 false),
      .reqCancel ⟨4096, 0⟩ ⟨0, 0, 0, 0, 0, 0, 0, 0⟩ .unknown, .reqCancel ⟨1, 8⟩ ⟨0, 0, 0, 0, 0, 0, 0, 0⟩ .unknown,
      .reqCancel ⟨1, 0⟩ ⟨0, 0, 0, 0, 0, 0, 0, 0⟩ (.record false 65536 0 0 false),
      .reqCancel ⟨1, 0⟩ ⟨0, 0, 0, 0, 0, 0, 0, 0⟩ (.record false 0 (2 ^ 32) 0 false),
      .reqCancel ⟨1, 0⟩ ⟨0, 0, 0, 0, 0, 0, 0, 0⟩ (.record false 0 0 4194305 false),
      .reqReleaseFree ⟨4096, 0⟩ ⟨0, 0, 0, 0, 0, 0, 0, 0⟩ .unknown,
      .reqReleaseFree ⟨1, 8⟩ ⟨0, 0, 0, 0, 0, 0, 0, 0⟩ .unknown,
      .reqReleaseFree ⟨1, 0⟩ ⟨0, 0, 0, 0, 0, 0, 0, 0⟩ (.record false 65536 0 0 false),
      .reqReleaseFree ⟨1, 0⟩ ⟨0, 0, 0, 0, 0, 0, 0, 0⟩ (.record false 0 (2 ^ 32) 0 false),
      .reqReleaseFree ⟨1, 0⟩ ⟨0, 0, 0, 0, 0, 0, 0, 0⟩ (.record false 0 0 4194305 false),
      .reqReleaseReshoot ⟨4096, 0⟩ ⟨0, 0, 0, 0, 0, 0, 0, 0⟩ .unknown,
      .reqReleaseReshoot ⟨1, 8⟩ ⟨0, 0, 0, 0, 0, 0, 0, 0⟩ .unknown,
      .reqReleaseReshoot ⟨1, 0⟩ ⟨0, 0, 0, 0, 0, 0, 0, 0⟩ (.record false 65536 0 0 false),
      .reqReleaseReshoot ⟨1, 0⟩ ⟨0, 0, 0, 0, 0, 0, 0, 0⟩ (.record false 0 (2 ^ 32) 0 false),
      .reqReleaseReshoot ⟨1, 0⟩ ⟨0, 0, 0, 0, 0, 0, 0, 0⟩ (.record false 0 0 4194305 false),
      .kernelLoad ⟨4096, 0⟩ ⟨0, 0, 0, 0, 0, 0, 0, 0⟩ [], .kernelLoad ⟨1, 8⟩ ⟨0, 0, 0, 0, 0, 0, 0, 0⟩ [],
      .kernelUnload ⟨4096, 0⟩ ⟨0, 0, 0, 0, 0, 0, 0, 0⟩, .kernelUnload ⟨1, 8⟩ ⟨0, 0, 0, 0, 0, 0, 0, 0⟩,
      .kernelRun ⟨4096, 0⟩ ⟨0, 0, 0, 0, 0, 0, 0, 0⟩, .kernelRun ⟨1, 8⟩ ⟨0, 0, 0, 0, 0, 0, 0, 0⟩,
      .move ⟨4096, 0⟩ ⟨0, 0, 0, 0, 0, 0, 0, 0⟩, .move ⟨1, 8⟩ ⟨0, 0, 0, 0, 0, 0, 0, 0⟩,
      .packCode ⟨4096, 0⟩ ⟨0, 0, 0, 0, 0, 0, 0, 0⟩, .packCode ⟨1, 8⟩ ⟨0, 0, 0, 0, 0, 0, 0, 0⟩,
      .packCodeSafe ⟨4096, 0⟩ ⟨0, 0, 0, 0, 0, 0, 0, 0⟩, .packCodeSafe ⟨1, 8⟩ ⟨0, 0, 0, 0, 0, 0, 0, 0⟩,
      .packUnpack ⟨4096, 0⟩ ⟨0, 0, 0, 0, 0, 0, 0, 0⟩, .packUnpack ⟨1, 8⟩ ⟨0, 0, 0, 0, 0, 0, 0, 0⟩,
      .packFree ⟨4096, 0⟩ ⟨0, 0, 0, 0, 0, 0, 0, 0⟩, .packFree ⟨1, 8⟩ ⟨0, 0, 0, 0, 0, 0, 0, 0⟩,
      .tableRegister ⟨4096, 0⟩ ⟨0, 0, 0, 0, 0, 0, 0, 0⟩, .tableRegister ⟨1, 8⟩ ⟨0, 0, 0, 0, 0, 0, 0, 0⟩,
      .tableFree ⟨4096, 0⟩ ⟨0, 0, 0, 0, 0, 0, 0, 0⟩, .tableFree ⟨1, 8⟩ ⟨0, 0, 0, 0, 0, 0, 0, 0⟩,
      .tableRefresh ⟨4096, 0⟩ ⟨0, 0, 0, 0, 0, 0, 0, 0⟩ [], .tableRefresh ⟨1, 8⟩ ⟨0, 0, 0, 0, 0, 0, 0, 0⟩ [],
      .tableLoad ⟨4096, 0⟩ ⟨0, 0, 0, 0, 0, 0, 0, 0⟩ [], .tableLoad ⟨1, 8⟩ ⟨0, 0, 0, 0, 0, 0, 0, 0⟩ [],
      .tableSync ⟨4096, 0⟩ ⟨0, 0, 0, 0, 0, 0, 0, 0⟩ [], .tableSync ⟨1, 8⟩ ⟨0, 0, 0, 0, 0, 0, 0, 0⟩ [],
      .gatherPool ⟨4096, 0⟩ ⟨0, 0, 0, 0, 0, 0, 0, 0⟩ ⟨[], [], [], []⟩,
      .gatherPool ⟨1, 8⟩ ⟨0, 0, 0, 0, 0, 0, 0, 0⟩ ⟨[], [], [], []⟩,
      .gatherPool ⟨1, 0⟩ ⟨0, 0, 0, 0, 0, 0, 0, 0⟩ ⟨[2 ^ 32], [], [], []⟩,
      .gatherPool ⟨1, 0⟩ ⟨0, 0, 0, 0, 0, 0, 0, 0⟩ ⟨[], [2 ^ 32], [], []⟩] : List Instr).all (fun i => !i.wf) = true := by
  decide +kernel

theorem test_wf_refuses_descriptors_2 :
    ([
      .gatherPool ⟨1, 0⟩ ⟨0, 0, 0, 0, 0, 0, 0, 0⟩ ⟨[], [], [0], []⟩,
      .gatherPool ⟨1, 0⟩ ⟨0, 0, 0, 0, 0, 0, 0, 0⟩ ⟨[], [], [], [[]]⟩,
      .gatherCopy ⟨4096, 0⟩ ⟨0, 0, 0, 0, 0, 0, 0, 0⟩ ⟨[], [], [], []⟩,
      .gatherCopy ⟨1, 8⟩ ⟨0, 0, 0, 0, 0, 0, 0, 0⟩ ⟨[], [], [], []⟩,
      .gatherCopy ⟨1, 0⟩ ⟨0, 0, 0, 0, 0, 0, 0, 0⟩ ⟨[2 ^ 32], [], [], []⟩,
      .gatherCopy ⟨1, 0⟩ ⟨0, 0, 0, 0, 0, 0, 0, 0⟩ ⟨[], [2 ^ 32], [], []⟩,
      .gatherCopy ⟨1, 0⟩ ⟨0, 0, 0, 0, 0, 0, 0, 0⟩ ⟨[], [], [0], []⟩,
      .gatherCopy ⟨1, 0⟩ ⟨0, 0, 0, 0, 0, 0, 0, 0⟩ ⟨[], [], [], [[]]⟩,
      .update ⟨4096, 0⟩ ⟨0, 0, 0, 0, 0, 0, 0, 0⟩ ⟨[], [], [], []⟩,
      .update ⟨1, 8⟩ ⟨0, 0, 0, 0, 0, 0, 0, 0⟩ ⟨[], [], [], []⟩,
      .update ⟨1, 0⟩ ⟨0, 0, 0, 0, 0, 0, 0, 0⟩ ⟨[2 ^ 32], [], [], []⟩,
      .update ⟨1, 0⟩ ⟨0, 0, 0, 0, 0, 0, 0, 0⟩ ⟨[], [2 ^ 32], [], []⟩,
      .update ⟨1, 0⟩ ⟨0, 0, 0, 0, 0, 0, 0, 0⟩ ⟨[], [], [0], []⟩,
      .update ⟨1, 0⟩ ⟨0, 0, 0, 0, 0, 0, 0, 0⟩ ⟨[], [], [], [[]]⟩, .takeSubmit ⟨4096, 0⟩ ⟨0, 0, 0, 0, 0, 0, 0, 0⟩,
      .takeSubmit ⟨1, 8⟩ ⟨0, 0, 0, 0, 0, 0, 0, 0⟩, .takeSlateRead ⟨4096, 0, 0⟩ (List.replicate 16 0),
      .takeSlateRead ⟨1, 8, 0⟩ (List.replicate 16 0), .takeSlateRead ⟨1, 0, 2 ^ 32⟩ (List.replicate 16 0),
      .takeSlateRead ⟨1, 0, 0⟩ [], .semSignalAdd ⟨4096, 0⟩ ⟨0, 0, 0, 0, 0, 0, 0, 0⟩,
      .semSignalAdd ⟨1, 8⟩ ⟨0, 0, 0, 0, 0, 0, 0, 0⟩, .semSignalSet ⟨4096, 0⟩ ⟨0, 0, 0, 0, 0, 0, 0, 0⟩,
      .semSignalSet ⟨1, 8⟩ ⟨0, 0, 0, 0, 0, 0, 0, 0⟩, .semWait ⟨4096, 0⟩ ⟨0, 0, 0, 0, 0, 0, 0, 0⟩,
      .semWait ⟨1, 8⟩ ⟨0, 0, 0, 0, 0, 0, 0, 0⟩, .semWaitTimeout ⟨4096, 0, 0⟩, .semWaitTimeout ⟨1, 8, 0⟩,
      .semWaitTimeout ⟨1, 0, 2 ^ 32⟩, .stepAdmission ⟨0, [(2 ^ 48, 0)], []⟩, .stepAdmission ⟨0, [], [(2 ^ 48, 0)]⟩,
      .roster (2 ^ 20) (List.replicate 2 0), .roster 0 [], .contextTeardown 4096 0, .contextTeardownDone 4096] : List Instr).all (fun i => !i.wf) = true := by
  decide +kernel

theorem test_wf_refuses_engines :
    ([
      .takeSlateForward (2 ^ 20) 0 0 false (List.replicate 16 0),
      .takeSlateForward 0 (2 ^ 32) 0 false (List.replicate 16 0), .takeSlateForward 0 0 16 false (List.replicate 16 0),
      .takeSlateForward 0 0 0 false [], .takePrepare ⟨⟨1, 2 ^ 24⟩, 0, 0, none, List.replicate 16 0⟩,
      .takePrepare ⟨⟨1, 0⟩, 2 ^ 64, 0, none, List.replicate 16 0⟩, .takePrepare ⟨⟨1, 0⟩, 0, 16, none, List.replicate 16 0⟩,
      .takePrepare ⟨⟨1, 0⟩, 0, 0, none, []⟩, .intentMirrorAck ⟨2 ^ 20, 0⟩, .intentMirrorAck ⟨1, 2 ^ 24⟩,
      .takeVote ⟨2 ^ 24, 0, 0, 0, 0, none⟩, .takeVote ⟨0, 16, 0, 0, 0, none⟩, .takeVote ⟨0, 0, 2 ^ 64, 0, 0, none⟩,
      .takeVote ⟨0, 0, 0, 0, 64, none⟩, .takeVote ⟨0, 0, 0, 0, 0, some ⟨2 ^ 20, 0⟩⟩, .takeVoteTimeout (2 ^ 24) 0,
      .takeVoteTimeout 0 16, .decisionMirrorAck (2 ^ 24), .takeCommit ⟨2 ^ 20, 0⟩ 0, .takeCommit ⟨1, 2 ^ 24⟩ 0,
      .takeCommit ⟨1, 0⟩ (2 ^ 64), .takeAbort ⟨2 ^ 20, 0⟩ 0, .takeAbort ⟨1, 2 ^ 24⟩ 0, .takeAbort ⟨1, 0⟩ (2 ^ 64),
      .takeAck (.ack (2 ^ 24) 1 0), .takeAck (.ack 0 (2 ^ 20) 0), .takeAck (.ack 0 1 (2 ^ 64)),
      .takeAck (.ended (2 ^ 32) 0 0 0 0 0 0), .takeAck (.ended 0 (2 ^ 24) 0 0 0 0 0), .takeAck (.ended 0 0 0 64 0 0 0),
      .takeAck (.ended 0 0 0 0 16 0 0), .takeAck (.ended 0 0 0 0 0 0 32), .takeIndoubtTimeout ⟨2 ^ 20, 0⟩,
      .takeIndoubtTimeout ⟨1, 2 ^ 24⟩, .takeInquiry (2 ^ 20) ⟨1, 0⟩ 0, .takeInquiry 0 ⟨2 ^ 20, 0⟩ 0,
      .takeInquiry 0 ⟨1, 2 ^ 24⟩ 0, .takeInquiry 0 ⟨1, 0⟩ (2 ^ 64), .takeEndedNotice ⟨2 ^ 20, 0⟩,
      .takeEndedNotice ⟨1, 2 ^ 24⟩, .takeRetry (2 ^ 24), .mxeUnitDone (2 ^ 48) 0 0 0 [] false,
      .mxeUnitDone 0 4096 0 0 [] false, .mxeUnitDone 0 0 (2 ^ 32) 0 [] false, .mxeUnitDone 0 0 0 100 [] false,
      .mxeRetryDone (2 ^ 48) 0 0 0 [] false, .mxeRetryDone 0 4096 0 0 [] false, .mxeRetryDone 0 0 (2 ^ 32) 0 [] false,
      .mxeRetryDone 0 0 0 100 [] false, .mxeCoreTest 100, .mxeCoreRetire 100, .coreSelftestDone 100 false,
      .expanderBlock (2 ^ 48) 0 0, .expanderBlock 0 (2 ^ 32) 0, .expanderBlock 0 0 (2 ^ 32), .expanderReread (2 ^ 48) 0 0,
      .expanderReread 0 (2 ^ 32) 0, .expanderReread 0 0 (2 ^ 32)] : List Instr).all (fun i => !i.wf) = true := by
  decide +kernel

theorem test_wf_refuses_pages :
    ([
      .appendRows ⟨2 ^ 48, false, 0, 0, 0, [], []⟩, .appendRows ⟨1, false, 256, 0, 0, [], []⟩,
      .appendRows ⟨1, false, 0, 256, 0, [], []⟩, .appendRows ⟨1, false, 0, 0, 2 ^ 23, [], []⟩,
      .appendRows ⟨1, false, 0, 0, 0, [[]], []⟩, .eviction 4, .demoteWriteDone (2 ^ 32) 0 false,
      .demoteWriteDone 0 (2 ^ 36) false, .pagePromote ⟨2 ^ 48, 0, 0, 0⟩ false [], .pagePromote ⟨1, 256, 0, 0⟩ false [],
      .pagePromote ⟨1, 0, 256, 0⟩ false [], .pagePromote ⟨1, 0, 0, 2 ^ 23⟩ false [], .dropNotice (2 ^ 20) 0 0 0 false,
      .dropNotice 0 (2 ^ 48) 0 0 false, .dropNotice 0 0 (2 ^ 23) 0 false, .dropNotice 0 0 0 (2 ^ 32) false,
      .reshootRequest (2 ^ 48) 0 0 0, .reshootRequest 0 (2 ^ 23) 0 0, .reshootRequest 0 0 (2 ^ 20) 0,
      .reshootRequest 0 0 0 (2 ^ 48), .reshootComplete (2 ^ 48) none, .attentionPass ⟨2 ^ 48, 0, 0, [], [], []⟩,
      .attentionPass ⟨1, 256, 0, [], [], []⟩, .attentionPass ⟨1, 0, 256, [], [], []⟩,
      .attentionPass ⟨1, 0, 0, [⟨0, 0, 0, some 64, []⟩], [], []⟩, .partialRecord (some (2 ^ 32)) [] [],
      .partialReplyTimeout (2 ^ 48) 0, .partialReplyTimeout 0 (2 ^ 32), .attBindEnable 16 0, .attBindDisable 16 0,
      .attProfWrite ⟨0, 0⟩ 0, .attProfWrite ⟨0, 9⟩ 0, .attProfWrite ⟨2 ^ 24, 1⟩ 0] : List Instr).all (fun i => !i.wf) = true := by
  decide +kernel

theorem test_wf_refuses_sampling :
    ([
      .samplerPass (2 ^ 48) 0 [] [], .samplerPass 0 64 [] [], .roundASummary 1024 [], .thresholdReturn (2 ^ 48) 0 0,
      .thresholdReturn 0 64 0, .roundBDraw ⟨2 ^ 48, 0, 0, false, 0, 0, []⟩, .roundBDraw ⟨1, 64, 0, false, 0, 0, []⟩,
      .roundBDraw ⟨1, 0, 1024, false, 0, 0, []⟩, .roundBDraw ⟨1, 0, 0, false, 2 ^ 20, 0, []⟩,
      .verifyResult ⟨2 ^ 48, [], [], [], false, false, none, 0⟩,
      .verifyResult ⟨1, [], [2 ^ 20], [], false, false, none, 0⟩,
      .verifyResult ⟨1, [], [], [2 ^ 20], false, false, none, 0⟩, .mirroredReport (2 ^ 20) 0 [],
      .mirroredReport 0 (2 ^ 64) [], .tokenDelivery ⟨2 ^ 48, false, 0, [], false, false, 0, []⟩,
      .tokenDelivery ⟨1, false, 2 ^ 23, [], false, false, 0, []⟩,
      .tokenDelivery ⟨1, false, 0, [2 ^ 20], false, false, 0, []⟩,
      .tokenDelivery ⟨1, false, 0, [], false, false, 0, [⟨4096, 0, 0⟩]⟩, .logitSlice (2 ^ 48) 0 0 0 0 [],
      .logitSlice 0 (2 ^ 23) 0 0 0 [], .logitSlice 0 0 1024 0 0 [], .logitSlice 0 0 0 1025 0 [],
      .logitSlice 0 0 0 0 (2 ^ 32) [], .hostChoice (2 ^ 48) 0, .gatherRowData ⟨4096, 0, 0⟩ 0 false [],
      .gatherRowData ⟨1, 8, 0⟩ 0 false [], .gatherRowData ⟨1, 0, 2 ^ 32⟩ 0 false [],
      .gatherRowData ⟨1, 0, 0⟩ (2 ^ 32) false [], .migrationAddsDrained 65536 0, .migrationAddsDrained 0 (2 ^ 32),
      .migrationCopyDone 65536 0 0 [], .migrationCopyDone 0 (2 ^ 32) 0 []] : List Instr).all (fun i => !i.wf) = true := by
  decide +kernel

theorem test_wf_refuses_storage :
    ([
      .patrolScrub ⟨false, 512, 0, 0, 0, 0, false, false⟩, .patrolScrub ⟨false, 0, 0, 1, 0, 0, false, false⟩,
      .patrolScrub ⟨false, 0, 2 ^ 36, 0, 0, 0, false, false⟩, .pcInterfaceFail 512 false, .pcSuspectCmd (2 ^ 32),
      .stackRetireCmd (2 ^ 32), .atomicAddLine (2 ^ 52) (List.replicate 16 0), .atomicAddLine 0 [], .hdmHostRead 1,
      .hdmHostWrite 1 (List.replicate 64 0), .hdmHostWrite 0 [], .ftlBringupDone [] [], .sectorRead (.gather 1024) 0,
      .sectorRead (.mover 1024) 0, .sectorRead .kva (2 ^ 36), .sectorReadData (2 ^ 36) .fail,
      .sectorWrite (.gather 1024) 0 [], .sectorWrite (.mover 1024) 0 [], .sectorWrite .kva (2 ^ 36) [],
      .sectorWrite .kva 0 ([[]]), .mergeTimeout (2 ^ 32), .pageProgramDone (2 ^ 32) false, .blockEraseDone (2 ^ 32) false,
      .flashChannelFail 16] : List Instr).all (fun i => !i.wf) = true := by
  decide +kernel

theorem test_wf_refuses_ports_1 :
    ([
      .portEnable 60 0, .portDisable 60 0, .portRetrain 60, .pmdTrainingDone 60 0, .trainRetry 60, .keyxFrame 60 ⟨1, true⟩,
      .creditFrame 60 ⟨.good, 0, 0, false, List.replicate 12 0⟩,
      .creditFrame 0 ⟨.good, 4096, 0, false, List.replicate 12 0⟩,
      .creditFrame 0 ⟨.good, 0, 4096, false, List.replicate 12 0⟩, .creditFrame 0 ⟨.good, 0, 0, false, []⟩,
      .linkTestFrame 60 false false, .laneFault 60 0, .portRxTimeout 60, .creditTimeout 60 0, .creditTimeout 0 12,
      .dataFrame 60 ⟨.good, 0, 0, 0, false, 0, 0⟩, .dataFrame 0 ⟨.good, 12, 0, 0, false, 0, 0⟩,
      .dataFrame 0 ⟨.good, 0, 4096, 0, false, 0, 0⟩, .dataFrame 0 ⟨.good, 0, 0, 4096, false, 0, 0⟩,
      .put ⟨2 ^ 20, 0, 0, 0, 0, 0, 0⟩ [], .put ⟨1, 60, 0, 0, 0, 0, 0⟩ [], .put ⟨1, 0, 6, 0, 0, 0, 0⟩ [],
      .put ⟨1, 0, 0, 2 ^ 32, 0, 0, 0⟩ [], .put ⟨1, 0, 0, 0, 2 ^ 32, 0, 0⟩ [], .put ⟨1, 0, 0, 0, 0, 2 ^ 52, 0⟩ [],
      .put ⟨1, 0, 0, 0, 0, 0, 0⟩ (List.replicate 4097 0), .get ⟨2 ^ 20, 0, 0, 0, 0, 0, 0⟩ [],
      .get ⟨1, 60, 0, 0, 0, 0, 0⟩ [], .get ⟨1, 0, 6, 0, 0, 0, 0⟩ [], .get ⟨1, 0, 0, 2 ^ 32, 0, 0, 0⟩ [],
      .get ⟨1, 0, 0, 0, 2 ^ 32, 0, 0⟩ [], .get ⟨1, 0, 0, 0, 0, 2 ^ 52, 0⟩ [],
      .addF32 ⟨2 ^ 20, 0, 0, 0, 0, 0, 0⟩ (List.replicate 16 0), .addF32 ⟨1, 60, 0, 0, 0, 0, 0⟩ (List.replicate 16 0),
      .addF32 ⟨1, 0, 6, 0, 0, 0, 0⟩ (List.replicate 16 0), .addF32 ⟨1, 0, 0, 2 ^ 32, 0, 0, 0⟩ (List.replicate 16 0),
      .addF32 ⟨1, 0, 0, 0, 2 ^ 32, 0, 0⟩ (List.replicate 16 0), .addF32 ⟨1, 0, 0, 0, 0, 2 ^ 52, 0⟩ (List.replicate 16 0),
      .addF32 ⟨1, 0, 0, 0, 0, 0, 0⟩ [], .addU64 ⟨2 ^ 20, 0, 0, 0, 0, 0, 0⟩ 0, .addU64 ⟨1, 60, 0, 0, 0, 0, 0⟩ 0,
      .addU64 ⟨1, 0, 6, 0, 0, 0, 0⟩ 0, .addU64 ⟨1, 0, 0, 2 ^ 32, 0, 0, 0⟩ 0, .addU64 ⟨1, 0, 0, 0, 2 ^ 32, 0, 0⟩ 0,
      .addU64 ⟨1, 0, 0, 0, 0, 2 ^ 52, 0⟩ 0, .cas64 ⟨2 ^ 20, 0, 0, 0, 0, 0, 0⟩ 0 0, .cas64 ⟨1, 60, 0, 0, 0, 0, 0⟩ 0 0,
      .cas64 ⟨1, 0, 6, 0, 0, 0, 0⟩ 0 0, .cas64 ⟨1, 0, 0, 2 ^ 32, 0, 0, 0⟩ 0 0, .cas64 ⟨1, 0, 0, 0, 2 ^ 32, 0, 0⟩ 0 0,
      .cas64 ⟨1, 0, 0, 0, 0, 2 ^ 52, 0⟩ 0 0, .putSignal ⟨2 ^ 20, 0, 0, 0, 0, 0, 0⟩ [],
      .putSignal ⟨1, 60, 0, 0, 0, 0, 0⟩ [], .putSignal ⟨1, 0, 6, 0, 0, 0, 0⟩ [], .putSignal ⟨1, 0, 0, 2 ^ 32, 0, 0, 0⟩ [],
      .putSignal ⟨1, 0, 0, 0, 2 ^ 32, 0, 0⟩ [], .putSignal ⟨1, 0, 0, 0, 0, 2 ^ 52, 0⟩ [],
      .putSignal ⟨1, 0, 0, 0, 0, 0, 0⟩ (List.replicate 4097 0), .remoteResponse (2 ^ 32) 0 0 [],
      .remoteResponse 0 0 0 (List.replicate 4097 0)] : List Instr).all (fun i => !i.wf) = true := by
  decide +kernel

theorem test_wf_refuses_ports_2 :
    ([
      .respTimeout (2 ^ 32), .busyRetry (2 ^ 32), .flowMove ⟨2 ^ 20, 0, 0⟩, .flowMove ⟨1, 6, 0⟩, .flowMove ⟨1, 0, 64⟩,
      .collTimeout (2 ^ 52), .shaperWrite 2 0, .gateEntryEnd 60, .gateSwapRequest 60 0, .gateEnable 60 0,
      .moveChannelGrant 8 [], .moveComplete 8 0, .moveComplete 0 32, .moverReadFault 8 0 (List.replicate 32 0),
      .moverReadFault 0 0 [], .moverStopDrained 8, .moverWriteFault 8 0 0 0, .moverWriteFault 0 32 0 0,
      .moverWriteFault 0 0 0 (2 ^ 48), .moverReset 8 (List.replicate 32 0), .moverReset 0 []] : List Instr).all (fun i => !i.wf) = true := by
  decide +kernel

theorem test_wf_refuses_map :
    ([
      .mapLogRecord (2 ^ 20) [], .surveyEpoch (2 ^ 20) 0, .surveyEpoch 0 (2 ^ 32), .joinCopyDone (2 ^ 32) [] [] false,
      .joinCopyDone 0 ([(2 ^ 20, [0, 0, 0, 0])]) [] false, .joinCopyDone 0 ([(1, [])]) [] false,
      .renew (2 ^ 32) (List.replicate 4 0), .renew 0 [], .leaseLapse (2 ^ 20), .holderExpiry (2 ^ 20),
      .query (2 ^ 32) (List.replicate 4 0), .query 0 [], .answer (2 ^ 20) (List.replicate 4 0), .answer 0 [],
      .queryTimeout (2 ^ 48), .claim (2 ^ 32) (List.replicate 4 0), .claim 0 [], .bucketCopy 4096] : List Instr).all (fun i => !i.wf) = true := by
  decide +kernel

theorem test_wf_refuses_traverses :
    ([
      .traverseOpen (.prefillDone (2 ^ 48)), .traverseOpen (.park (2 ^ 48) 0 0 0), .traverseOpen (.park 1 65536 0 0),
      .traverseOpen (.park 1 0 (2 ^ 20) 0), .traverseOpen (.park 1 0 0 (2 ^ 48)), .traverseOpen (.handover (2 ^ 48) 0),
      .traverseOpen (.handover 1 65536), .traverseOpen (.auto (2 ^ 48)), .openMsg [] (List.replicate 48 0),
      .openMsg (List.replicate 4 0) [], .accept [], .openTimeout (2 ^ 48), .legReserveRetry (2 ^ 48),
      .legReserveStall (2 ^ 48), .legReq [] [] [], .legReply [] [] [], .legTimeout (2 ^ 48) 0, .legTimeout 0 (2 ^ 32),
      .countEntry (2 ^ 48) 0 [] false, .countEntry 0 1024 [] false, .doneMsg [], .owned [], .release [], .abandon [],
      .traverseDestRetry (2 ^ 48), .autoPark (2 ^ 48)] : List Instr).all (fun i => !i.wf) = true := by
  decide +kernel

theorem test_wf_refuses_twin :
    ([
      .mirrorRecord [] (.release 1), .mirrorRecord (List.replicate 3 0) (.rows ⟨2 ^ 48, 0, 0, 0⟩ 0 [] 0 []),
      .mirrorRecord (List.replicate 3 0) (.entry ⟨1, 256, 0, 0⟩ 0 0), .mirrorRecord (List.replicate 3 0) (.root 1 []),
      .mirrorRecord (List.replicate 3 0) (.commit 1 0 [] 4194305 [] []),
      .mirrorRecord (List.replicate 3 0) (.counts (2 ^ 48) []), .mirrorRecord (List.replicate 3 0) (.intent ⟨1, 0⟩ 0 0 []),
      .mirrorRecord (List.replicate 3 0) (.decision (2 ^ 24) 0 0 []),
      .mirrorRecord (List.replicate 3 0) (.decision 0 0 0 [2 ^ 20]),
      .mirrorRecord (List.replicate 3 0) (.home 1 (some [])), .mirrorRecord (List.replicate 3 0) (.transit 1 [0]),
      .mirrorRecord (List.replicate 3 0) (.audit ⟨1, 0, 256, 0⟩ 0), .mirrorRecord (List.replicate 3 0) (.release (2 ^ 48)),
      .mirrorRecord (List.replicate 3 0) (.holder (2 ^ 20) false false), .mirrorRecord (List.replicate 3 0) (.reserved 256)] : List Instr).all (fun i => !i.wf) = true := by
  decide +kernel

theorem test_wf_refuses_management :
    ([
      .droopTrip 65536, .powerWindow 65536, .idleGate (.matrixCore 100), .idleGate (.expanderLane 65536),
      .idleGate (.attentionPipe 65536), .idleGate (.gatherEngine 65536), .hbmCheck (2 ^ 32) 0, .hbmCheck 0 65536,
      .hbmCheckCrcRequest 65536, .hbmClear (2 ^ 32) 0, .hbmClear 0 65536,
      .imageFetchDone ⟨true, 0, 16, 0, 0, 0, 0, true, none, true, true, []⟩,
      .imageFetchDone ⟨true, 0, 0, 16, 0, 0, 0, true, none, true, true, []⟩,
      .imageFetchDone ⟨true, 0, 0, 0, 256, 0, 0, true, none, true, true, []⟩,
      .imageFetchDone ⟨true, 0, 0, 0, 0, 2 ^ 32, 0, true, none, true, true, []⟩,
      .imageFetchDone ⟨true, 0, 0, 0, 0, 0, 2 ^ 32, true, none, true, true, []⟩,
      .imageFetchDone ⟨true, 0, 0, 0, 0, 0, 0, true, some 5, true, true, []⟩,
      .imageFetchDone ⟨true, 0, 0, 0, 0, 0, 0, true, none, true, true, [(8, 0), (0, 0)]⟩, .prelockBar0Access ⟨0, 0⟩ false,
      .prelockBar0Access ⟨0, 9⟩ false, .prelockBar0Access ⟨2 ^ 24, 1⟩ false, .protWindowWrite ⟨0, 0⟩ 0,
      .protWindowWrite ⟨0, 9⟩ 0, .protWindowWrite ⟨2 ^ 24, 1⟩ 0, .spdmGetCertificate 8 0 0, .spdmGetCertificate 0 65536 0,
      .spdmGetCertificate 0 0 65536, .spdmChallenge 8 (List.replicate 32 0), .spdmChallenge 0 [],
      .spdmGetMeasurements 256 (List.replicate 32 0), .spdmGetMeasurements 0 [],
      .refetchRangeData (2 ^ 32) 0 (List.replicate 4096 0) false,
      .refetchRangeData 0 (2 ^ 52) (List.replicate 4096 0) false, .refetchRangeData 0 0 [] false, .refetchFail (2 ^ 32) 0,
      .refetchFail 0 (2 ^ 52), .registerWrite ⟨0, 0⟩ 0, .registerWrite ⟨0, 9⟩ 0, .registerWrite ⟨2 ^ 24, 1⟩ 0,
      .rcFieldRead ⟨0, 0⟩, .rcFieldRead ⟨0, 9⟩, .rcFieldRead ⟨2 ^ 24, 1⟩, .bar0Unsupported ⟨0, 0⟩ false,
      .bar0Unsupported ⟨0, 9⟩ false, .bar0Unsupported ⟨2 ^ 24, 1⟩ false, .creditFrameInterval 60, .frameOnWireFinishes 60,
      .cancelReachesOwner (2 ^ 48) 0 ⟨1, 0, 0⟩, .cancelReachesOwner 0 (2 ^ 20) ⟨1, 0, 0⟩,
      .cancelReachesOwner 0 0 ⟨4096, 0, 0⟩, .cancelReachesOwner 0 0 ⟨1, 8, 0⟩, .cancelReachesOwner 0 0 ⟨1, 0, 2 ^ 32⟩,
      .claimResend (2 ^ 20) 0, .claimResend 0 (2 ^ 32)] : List Instr).all (fun i => !i.wf) = true := by
  decide +kernel

theorem test_wf_accepts_host :
    ([
      .ucieLinkTraining [] 0 0 0, .ucieModuleFail 0, .ctxEnable 0,
      .ctxEnableReadDone (List.replicate 32 0) (List.replicate 8 0), .ctxDisable 0, .ctxDisableDone 0, .evqCfgWrite 0,
      .hdmCfgWrite 0, .doorbellSnoop 0, .doorbellPoll, .doorbellLineData 0 (List.replicate 8 0),
      .cqHeadSnoop 0 (List.replicate 8 0), .hostAccessTimeout .enable, .hostDataError .enable] : List Instr).all Instr.wf = true := by
  decide +kernel

theorem test_wf_accepts_descriptors :
    ([
      .nop ⟨1, 0⟩ ⟨0, 0, 0, 0, 0, 0, 0, 0⟩, .reservedOpcode ⟨1, 0⟩ ⟨0, 0, 0, 0, 0, 0, 0, 0⟩,
      .reqPost ⟨1, 0⟩ ⟨0, 0, 0, 0, 0, 0, 0, 0⟩ [] [] .unknown, .reqPark ⟨1, 0⟩ ⟨0, 0, 0, 0, 0, 0, 0, 0⟩ .unknown,
      .reqCancel ⟨1, 0⟩ ⟨0, 0, 0, 0, 0, 0, 0, 0⟩ .unknown, .reqReleaseFree ⟨1, 0⟩ ⟨0, 0, 0, 0, 0, 0, 0, 0⟩ .unknown,
      .reqReleaseReshoot ⟨1, 0⟩ ⟨0, 0, 0, 0, 0, 0, 0, 0⟩ .unknown, .kernelLoad ⟨1, 0⟩ ⟨0, 0, 0, 0, 0, 0, 0, 0⟩ [],
      .kernelUnload ⟨1, 0⟩ ⟨0, 0, 0, 0, 0, 0, 0, 0⟩, .kernelRun ⟨1, 0⟩ ⟨0, 0, 0, 0, 0, 0, 0, 0⟩,
      .move ⟨1, 0⟩ ⟨0, 0, 0, 0, 0, 0, 0, 0⟩, .packCode ⟨1, 0⟩ ⟨0, 0, 0, 0, 0, 0, 0, 0⟩,
      .packCodeSafe ⟨1, 0⟩ ⟨0, 0, 0, 0, 0, 0, 0, 0⟩, .packUnpack ⟨1, 0⟩ ⟨0, 0, 0, 0, 0, 0, 0, 0⟩,
      .packFree ⟨1, 0⟩ ⟨0, 0, 0, 0, 0, 0, 0, 0⟩, .tableRegister ⟨1, 0⟩ ⟨0, 0, 0, 0, 0, 0, 0, 0⟩,
      .tableFree ⟨1, 0⟩ ⟨0, 0, 0, 0, 0, 0, 0, 0⟩, .tableRefresh ⟨1, 0⟩ ⟨0, 0, 0, 0, 0, 0, 0, 0⟩ [],
      .tableLoad ⟨1, 0⟩ ⟨0, 0, 0, 0, 0, 0, 0, 0⟩ [], .tableSync ⟨1, 0⟩ ⟨0, 0, 0, 0, 0, 0, 0, 0⟩ [],
      .gatherPool ⟨1, 0⟩ ⟨0, 0, 0, 0, 0, 0, 0, 0⟩ ⟨[], [], [], []⟩,
      .gatherCopy ⟨1, 0⟩ ⟨0, 0, 0, 0, 0, 0, 0, 0⟩ ⟨[], [], [], []⟩,
      .update ⟨1, 0⟩ ⟨0, 0, 0, 0, 0, 0, 0, 0⟩ ⟨[], [], [], []⟩, .takeSubmit ⟨1, 0⟩ ⟨0, 0, 0, 0, 0, 0, 0, 0⟩,
      .takeSlateRead ⟨1, 0, 0⟩ (List.replicate 16 0), .semSignalAdd ⟨1, 0⟩ ⟨0, 0, 0, 0, 0, 0, 0, 0⟩,
      .semSignalSet ⟨1, 0⟩ ⟨0, 0, 0, 0, 0, 0, 0, 0⟩, .semWait ⟨1, 0⟩ ⟨0, 0, 0, 0, 0, 0, 0, 0⟩, .semWaitTimeout ⟨1, 0, 0⟩,
      .stepAdmission ⟨0, [], []⟩, .promptAdmission, .roster 0 (List.replicate 2 0), .unitEnd ⟨0, 0⟩, .contextTeardown 0 0,
      .contextTeardownDone 0] : List Instr).all Instr.wf = true := by
  decide +kernel

theorem test_wf_accepts_engines :
    ([
      .takeSlateForward 0 0 0 false (List.replicate 16 0), .takePrepare ⟨⟨1, 0⟩, 0, 0, none, List.replicate 16 0⟩,
      .intentMirrorAck ⟨1, 0⟩, .takeVote ⟨0, 0, 0, 0, 0, none⟩, .takeVoteTimeout 0 0, .decisionMirrorAck 0,
      .takeCommit ⟨1, 0⟩ 0, .takeAbort ⟨1, 0⟩ 0, .takeAck (.ack 0 1 0), .takeIndoubtTimeout ⟨1, 0⟩,
      .takeInquiry 0 ⟨1, 0⟩ 0, .takeEndedNotice ⟨1, 0⟩, .takeRetry 0, .mxeUnitDone 0 0 0 0 [] false,
      .mxeRetryDone 0 0 0 0 [] false, .mxeCoreTest 0, .mxeCoreRetire 0, .coreSelftestDone 0 false, .expanderBlock 0 0 0,
      .expanderReread 0 0 0] : List Instr).all Instr.wf = true := by
  decide +kernel

theorem test_wf_accepts_pages :
    ([
      .appendRows ⟨1, false, 0, 0, 0, [], []⟩, .kvaAgeTick, .eviction 0, .demoteWriteDone 0 0 false,
      .pagePromote ⟨1, 0, 0, 0⟩ false [], .dropNotice 0 0 0 0 false, .reshootRequest 0 0 0 0, .reshootComplete 0 none,
      .poolEnable 0, .poolDisable 0, .attentionPass ⟨1, 0, 0, [], [], []⟩, .partialRecord none [] [],
      .partialRequest [] [], .partialReplyTimeout 0 0, .attBindEnable 0 0, .attBindDisable 0 0, .attProfWrite ⟨0, 8⟩ 0] : List Instr).all Instr.wf = true := by
  decide +kernel

theorem test_wf_accepts_sampling :
    ([
      .samplerPass 0 0 [] [], .roundASummary 0 [], .thresholdReturn 0 0 0, .roundBDraw ⟨1, 0, 0, false, 0, 0, []⟩,
      .verifyResult ⟨1, [], [], [], false, false, none, 0⟩, .mirroredReport 0 0 [],
      .tokenDelivery ⟨1, false, 0, [], false, false, 0, []⟩, .logitSlice 0 0 0 0 0 [], .hostChoice 0 0,
      .gatherRowData ⟨1, 0, 0⟩ 0 false [], .migrationAddsDrained 0 0, .migrationCopyDone 0 0 0 []] : List Instr).all Instr.wf = true := by
  decide +kernel

theorem test_wf_accepts_storage :
    ([
      .patrolScrub ⟨false, 0, 0, 0, 0, 0, false, false⟩, .pcInterfaceFail 0 false, .pcSuspectCmd 0, .stackRetireCmd 0,
      .atomicAddLine 0 (List.replicate 16 0), .hdmHostRead 0, .hdmHostWrite 0 (List.replicate 64 0), .ftlEnable 0,
      .ftlBringupDone (List.replicate 16 ⟨true, 0, 0, 0, 0⟩) [], .ftlDisable 0, .sectorRead .kva 0,
      .sectorReadData 0 .fail, .sectorWrite .kva 0 [], .mergeTimeout 0, .pageProgramDone 0 false, .blockEraseDone 0 false,
      .garbageCollection, .staticLevelling, .zqCalibration, .flashChannelFail 0] : List Instr).all Instr.wf = true := by
  decide +kernel

theorem test_wf_accepts_ports :
    ([
      .portEnable 0 0, .portDisable 0 0, .portRetrain 0, .pmdTrainingDone 0 0, .trainRetry 0, .keyxFrame 0 ⟨1, true⟩,
      .creditFrame 0 ⟨.good, 0, 0, false, List.replicate 12 0⟩, .linkTestFrame 0 false false, .laneFault 0 0,
      .portRxTimeout 0, .creditTimeout 0 0, .dataFrame 0 ⟨.good, 0, 0, 0, false, 0, 0⟩, .put ⟨1, 0, 0, 0, 0, 0, 0⟩ [],
      .get ⟨1, 0, 0, 0, 0, 0, 0⟩ [], .addF32 ⟨1, 0, 0, 0, 0, 0, 0⟩ (List.replicate 16 0), .addU64 ⟨1, 0, 0, 0, 0, 0, 0⟩ 0,
      .cas64 ⟨1, 0, 0, 0, 0, 0, 0⟩ 0 0, .putSignal ⟨1, 0, 0, 0, 0, 0, 0⟩ [], .remoteResponse 0 0 0 [], .respTimeout 0,
      .busyRetry 0, .flowMove ⟨1, 0, 0⟩, .collTimeout 0, .reelSlot, .shaperWrite 0 0, .gateEntryEnd 0,
      .gateSwapRequest 0 0, .gateEnable 0 0, .moveChannelGrant 0 [], .moveComplete 0 0,
      .moverReadFault 0 0 (List.replicate 32 0), .moverStopDrained 0, .moverWriteFault 0 0 0 0,
      .moverReset 0 (List.replicate 32 0)] : List Instr).all Instr.wf = true := by
  decide +kernel

theorem test_wf_accepts_map :
    ([
      .mapLogRecord 0 [], .surveyRound, .surveyEpoch 0 0, .dtmJoin 0, .joinCopyDone 0 [] [] false, .joinTimeout,
      .renewTimer, .renew 0 (List.replicate 4 0), .leaseLapse 0, .holderExpiry 0, .query 0 (List.replicate 4 0),
      .answer 0 (List.replicate 4 0), .queryTimeout 0, .claim 0 (List.replicate 4 0), .bucketCopy 0] : List Instr).all Instr.wf = true := by
  decide +kernel

theorem test_wf_accepts_traverses :
    ([
      .traverseOpen (.auto 1), .openMsg (List.replicate 4 0) (List.replicate 48 0), .accept (List.replicate 4 0),
      .openTimeout 0, .legReserveRetry 0, .legReserveStall 0, .legReq (List.replicate 4 0) [] [],
      .legReply (List.replicate 4 0) [] [], .legTimeout 0 0, .countEntry 0 0 [] false, .doneMsg (List.replicate 4 0),
      .owned (List.replicate 4 0), .release (List.replicate 4 0), .abandon (List.replicate 4 0), .traverseDestRetry 0,
      .autoPark 0] : List Instr).all Instr.wf = true := by
  decide +kernel

theorem test_wf_accepts_twin :
    ([
      .beatSend, .beat false 0, .beatMiss, .probeReply .echo, .probeTimeout,
      .mirrorRecord (List.replicate 3 0) (.release 1), .mirrorAckTimeout, .conEnable 0, .yield, .reintegrate false,
      .reintBulkDone, .reintReplayPassDone, .auditTick, .compareProbe 0] : List Instr).all Instr.wf = true := by
  decide +kernel

theorem test_wf_accepts_management :
    ([
      .droopTrip 0, .droopClear, .droopRecovery, .powerWindow 0, .idleGate .sampler, .hold, .resume, .controllerReset 0,
      .crstFall, .controllerFault 0, .porst, .porstRelease false 0 0, .railFault .vddMgmt, .railRecovery, .hbmCheck 0 0,
      .hbmCheckReply none, .hbmCheckCrcRequest 0, .hbmClear 0 0, .hbmClearDone, .stackTempPoll [], .thermalAlert [] [],
      .thermalAlertClear [] [], .thermalTrip, .bootGo,
      .imageFetchDone ⟨true, 0, 0, 0, 0, 0, 0, true, none, true, true, []⟩, .prelockBar0Access ⟨0, 8⟩ false,
      .protWindowWrite ⟨0, 8⟩ 0, .spdmGetVersion, .spdmGetCapabilities, .spdmNegotiateAlgorithms false false,
      .spdmGetDigests, .spdmGetCertificate 0 0 0, .spdmChallenge 0 (List.replicate 32 0),
      .spdmGetMeasurements 0 (List.replicate 32 0), .errorRecordWrite, .refetchRangeData 0 0 (List.replicate 4096 0) false,
      .refetchFail 0 0, .registerWrite ⟨0, 8⟩ 0, .rcFieldRead ⟨0, 8⟩, .bar0Unsupported ⟨0, 8⟩ false, .crstRelease,
      .creditFrameInterval 0, .frameOnWireFinishes 0, .cancelReachesOwner 0 0 ⟨1, 0, 0⟩, .claimResend 0 0] : List Instr).all Instr.wf = true := by
  decide +kernel

/-! ### States and operands that meet the hypotheses of the statements -/

/-- Request 7 of context 1, whose turn has ended. -/
def fxReq : Req := ⟨dk, 1, 0, false, false, 0, .ended, 1, none, 0, false, 0, 0, false, 0, 0x50000, 4, 0, defaultParam 7 0, 1, 1, 1, 0, 0, false, 0, 0, false, false, false, false, false, false, [], 0, 1, none, 0, false, false, 1, true⟩
/-- A tensor of 64 by 64 BF16 values in HBM, by its base. -/
def fxTensor (base : Nat) : Tensor := ⟨0, 0, false, false, 64, 64, base, 8192, 1, 0⟩
/-- A kernel that multiplies two of them. -/
def fxKernel : List Word := [mkWord [(0, 4, 1), (12, 4, 7)], mkWord [(0, 32, 64), (32, 32, 64)], mkWord [(0, 32, 64), (32, 16, 1)]]
/-- The fixture with model 1, a kernel, three tensors, one table and request 7. -/
def fxm : State := { fx with
    mxe := { fx.mxe with models := [(1, 1)], kernels := [(1, ⟨fxKernel, 1, 0, 1⟩)], tensors := [(1, fxTensor 0x10000), (2, fxTensor 0x20000), (3, { fxTensor 0x30000 with fmt := 7 }), (4, { fxTensor 0x40000 with layout := 2 })] }
    gth := { fx.gth with tables := [(1, ⟨1, 0, 0, true, 64, 100, 0, 0x100000, 0, 4, [], [], []⟩)] } }
/-- It with request 7 parked. -/
def fxr : State := { fxm with sch := { fxm.sch with reqs := [(7, fxReq)] } }
def dPost : Desc := mkDesc 1 7 0x40000 (mkWord [(0, 23, 1)]) 0x50000 (mkWord [(0, 16, 1), (16, 16, 0xFFFF), (32, 5, 4)]) 0 0
def dPark : Desc := mkDesc 2 7 0xFFFF 0 0 0 0 0
def dCancel : Desc := mkDesc 3 7 0 0 0 0 0 0
def dFree : Desc := mkDesc 4 7 0 0 0 0 0 0
def dReshoot : Desc := mkDesc 4 7 1 0x40000 1 0 0 0
/-- An image with one kernel and no tensor (R150). -/
def fxImage : List Word :=
  let body := (List.range 32).map (wordAt fxKernel)
  [mkWord [(0, 4, 1), (16, 11, 1)], at' 0 32 (crc32c (wordsBytes body)), 0, 0, 0, 0, 0, 0] ++ body
def dLoad : Desc := mkDesc 0x10 0 0x40000 (mkWord [(0, 32, 320), (32, 12, 9)]) 0 0 0 0
def dUnload : Desc := mkDesc 0x10 0 0 (mkWord [(0, 32, 1), (32, 12, 1), (44, 2, 1)]) 0 0 0 0
def dRun : Desc := mkDesc 0x11 0 (mkWord [(0, 12, 1), (32, 32, 1)]) (mkWord [(0, 32, 2), (32, 32, 3)]) 0 0 64 0
def dPack (op fmt : Nat) : Desc := mkDesc 0x21 0 (mkWord [(0, 32, 4), (32, 32, 9)]) (mkWord [(0, 52, 0x80000), (52, 1, 1), (53, 2, op), (55, 4, fmt)]) 0x10000 0 0 0
def dPackFree : Desc := mkDesc 0x21 0 (mkWord [(32, 32, 1)]) (mkWord [(53, 2, 3)]) 0 0 0 0
/-- The fixture whose tensor 4 is coded. -/
def fxc : State := { fxm with mxe := { fxm.mxe with tensors := [(4, { fxTensor 0x10000 with coded := true, layout := 2 })] } }
def dMove : Desc := mkDesc 0x20 0 (mkWord [(0, 52, 0x10000), (52, 3, 3)]) (mkWord [(0, 52, 0x20000), (52, 3, 3)]) (mkWord [(0, 24, 8), (24, 24, 1)]) 0 (mkWord [(0, 24, 8), (24, 24, 1)]) 0
def dRegister : Desc := mkDesc 0x30 0 (mkWord [(16, 16, 2), (34, 2, 0), (48, 13, 64)]) (mkWord [(0, 32, 8)]) 0x100000 0x200000 0 0
def dTable (op n : Nat) : Desc := mkDesc 0x30 0 (mkWord [(0, 3, op), (16, 16, 1)]) (at' 0 32 n) 0 0 0 (if op = 1 then 0 else 0x40000)
def dGather (mode : Nat) : Desc := mkDesc 0x31 0 (mkWord [(0, 16, 1), (16, 2, mode), (32, 29, 1)]) 0x40000 (if mode = 1 then 0 else 0x41000) 0 0x42000 (if mode = 1 then 0 else 1)
def dUpdate : Desc := mkDesc 0x32 0 (mkWord [(0, 16, 1), (32, 29, 1)]) 0x40000 0x41000 0 0x42000 1
/-- Lists of one bag with row 0 (R283). -/
def fxLists : GatherLists := ⟨[0, 1], [0], [], []⟩
def dSem (op h w n : Nat) : Desc := mkDesc op 0 (mkWord [(0, 16, h), (16, 2, w), (32, 32, n)]) 0 0 0 0 0
/-- The fixture with semaphore 16 at a count. -/
def fxsem (n : Nat) : State := { fx with sch := { fx.sch with sems := [(16, n)] } }
/-- A slate of epoch 5 with one CHECK of region 0 at participant `part` (R124–R127). -/
def fxSlate (nodes : List Nat) (coord part : Nat) (ver : Option Nat) : List Word :=
  [mkWord [(0, 4, 1), (8, 8, 1), (16, 4, nodes.length - 1), (20, 4, coord)], 5, 0, 0, 0, 0, 0, 0] ++
    (List.range 8).map (fun i => mkWord [(0, 20, nodes.getD (2 * i) 0), (32, 20, nodes.getD (2 * i + 1) 0)]) ++
    [mkWord [(0, 8, 8), (8, 4, part), (12, 4, 7)], 0, (match ver with | some v => mkWord [(0, 32, v), (32, 1, 1)] | none => 0), 0]
/-- A slate with an OWNER action for request 7 at participant 1. -/
def fxOwnerSlate : List Word := (fxSlate [1, 3] 0 1 none).take 16 ++ [mkWord [(0, 8, 3), (8, 4, 1), (12, 4, 3)], 7, mkWord [(0, 32, 1), (32, 16, 1)], mkWord [(0, 32, 2), (32, 16, 1)]]
def dSubmit : Desc := mkDesc 0x40 0 0x40000 (at' 0 17 160) 0 0 0 0
/-- The fixture with a TAKE_SUBMIT whose slate is being read, and every action type allowed to the host. -/
def fxt : State := { wr fx F.TAK_HOST_MASK_ALLOW 0xFF with tak := { fx.tak with submits := [(flightId dk, dSubmit)] } }
/-- A PREPARE of node 3's take 1 for participant 0. -/
def fxPrep (ver : Option Nat) : PrepareMsg := ⟨⟨3, 1⟩, 10, 0, none, fxSlate [1, 3] 1 0 ver⟩
/-- What a YES of `prepare` leaves. -/
def yesOf (s : State) : Prepared → State
  | .yes u _ _ => u
  | _ => s
/-- A participant's take in a state. -/
def fxPart (st : PartState) : PartTake := ⟨20, 0, 5, .block, [1, 3], [], [], st, 0, []⟩
/-- The fixture with takes of other coordinators. -/
def fxParts (l : List (TakeRef × PartTake)) (locks : List Lock) : State := { fx with tak := { fx.tak with part := l, locks := locks } }
/-- A coordinator's take in a state, with its votes and acknowledgements. -/
def fxCoord (st : CoordState) (nodes votes acks : List Nat) : CoordTake := ⟨20, ⟨nodes, 0, 5, []⟩, .plain, .block, st, votes, St.OK, 0, 0, St.OK, acks, 1, 0, false⟩
/-- The fixture with take 1 coordinated here. -/
def fxCo (c : CoordTake) : State := { fx with tak := { fx.tak with coord := [(1, c)] } }
/-- The fixture with a unit of a step running. -/
def fxrun : State := { fxm with sch := { fxm.sch with running := some ⟨0, 1, some 3, 0, .step 1, 1⟩ } }
/-- It with a unit of core 0 to be computed again. -/
def fxretry : State := { fxrun with mxe := { fxrun.mxe with retries := [⟨0, 1, 0, 0⟩] } }
/-- A pair of checksums that do not agree. -/
def badPair : ChecksumPair := ⟨0, 0x7F800000, 0⟩
/-- A container's prologue of format `f` whose table gives symbol 0 one bit (R187). -/
def fxPrologue (f n : Nat) : List Byte :=
  let rest : List Byte := 1 :: List.replicate 239 0
  wordBytes (mkWord [(0, 4, 1), (4, 4, f), (8, 4, 1), (32, 32, n)]) ++ wordBytes (at' 0 32 (crc32c rest)) ++ rest
/-- A block of 4096 FP8 zeros, stored as they are (R190). -/
def fxBlock : List Byte := sealBlock (blockHead 0 1 65 (List.replicate 64 0) ++ List.replicate 4096 0)
/-- A coded tensor of one block at 0x10000. -/
def fxCoded : Tensor := ⟨1, 2, true, true, 64, 64, 0x10000, 4736, 1, 0⟩
/-- The fixture with that tensor over a container whose block has these first bytes. -/
def fxcont (b : List Byte) : State :=
  storeMem { fxrun with mxe := { fxrun.mxe with tensors := [(1, fxCoded)], reread := [(0, 1, 0)] } } 0x10000 (fxPrologue 1 1 ++ natBytes 64 5 ++ b)
/-- The block reads as its zeros. -/
theorem fxcont_reads : readBlock (fxcont (fxBlock.take 64)) fxCoded 0 = .ok (List.replicate 4096 0) := by decide +kernel
/-- The fixture with core 99 in a state. -/
def fxcore (st : CoreSt) : State := { fx with mxe := { fx.mxe with cores := fx.mxe.cores.set 99 (MxCore.fresh st 0x7F) } }
/-- Page 0 of layer 0 and head 0 of request 7. -/
def pg : Nat := pageKey 7 0 0
/-- The fixture with request 7's root and its page 0 in a state, in a pool whose class 1 has `n` frames with `used` in use. -/
def fxk (lease st n used : Nat) : State :=
  let s := wri (wr (wr fxr F.KVA_POOL_CTL_EN 1) F.KVA_WATER_LOW 100) F.KVA_CLASS_COUNT 1 n
  { s with kva := { s.kva with
      roots := [(7, ⟨0, 1, 1, 1, 1, lease, 1⟩)], ptes := [(pg, ⟨2 ^ 30, 1, st, 1, false, 0, 0, 0⟩)], mapped := [pg],
      frames := (List.range used).map (fun i => (2 ^ 30 + i, ⟨0, none, false⟩)) } }
/-- The fixture while frame 2^30 is written to flash. -/
def fxdem (age stamp : Nat) : State :=
  let s := wr (fxk 1 1 4 1) F.KVA_AGE_AGE age
  { s with kva := { s.kva with demoting := [(2 ^ 30, pg)], frames := [(2 ^ 30, ⟨stamp, some pg, false⟩)] } }
/-- The fixture with page 0 of request 7 dropped, and a recompute of it begun or not. -/
def fxshoot (begun : Bool) : State := { fxr with kva := { fxr.kva with notices := [(7, [(1, ⟨0, 1, false⟩)])], reshoots := if begun then [(7, ⟨1, 1, 5⟩)] else [], asks := [(5, 7)] } }
/-- The fixture with class 1 of one frame at 16 MiB. -/
def fxpool (base : Nat) : State := wri (wri fx F.KVA_CLASS_COUNT 1 1) F.KVA_CLASS_BASE_MIB 1 base
/-- The map in which group 1 has a second member, node 7. -/
def fxMap2 : Tbl (List Word) := [(1, mapEntry 1 2 4 1 1 2 0 1), (2, mapEntry 2 1 4 1 2 1 0 1)] ++ (fxMap.drop 2).take 4 ++ [(7, mapEntry 7 8 4 1 1 2 1 1)] ++ fxMap.drop 6
/-- A state under that map. -/
def two (s : State) : State := { s with dtm := { s.dtm with map := fxMap2 } }
/-- The header of a partial record of request 7 with no term (R247). -/
def fxRec : List Word := [7, at' 32 32 l32Zero, 0, 0]
/-- The fixture with a cache pool asked for one row. -/
def fxask (s : State) : State := { s with att := { s.att with asks := [(4, ⟨7, 0, 0, 3, 1⟩)] } }
/-- Request 7 with a greedy parameter block and another SAMPLE_MODE. -/
def fxGreedy (mode : Nat) : Req := { fxReq with param := List.replicate 32 0, sampleMode := mode }
/-- The fixture with request 7 in the roster of step 1. -/
def fxs (r : Req) : State := { fxr with sch := { fxr.sch with reqs := [(7, r)], roster := some ⟨5, 1, [(7, false, 0)], [1]⟩ } }
/-- The state after a draw has been noted. -/
def drawn (s : State) (m : DrawMsg) : State :=
  let row := (tget s.smp.rows (smpRow m.req m.node)).getD ⟨[], none, []⟩
  { s with smp := { s.smp with
      rows := tset s.smp.rows (smpRow m.req m.node) { row with draws := tset row.draws m.slot (if m.kept = true then some (m.token, m.g) else none) }
      heads := tset s.smp.heads (smpRow m.req m.node) (tset (tgetD s.smp.heads (smpRow m.req m.node) []) m.slot ⟨m.heads⟩) } }
/-- A step's result for request 7. -/
def fxVerify : VerifyMsg := ⟨7, [0], [3], [3], false, false, none, 0⟩
/-- The fixture whose sampling home keeps that result. -/
def fxres : State := { fxs fxReq with smp := { fxr.smp with results := [(7, ⟨[0], [3], [3], false, false, none, 0, 1, 1, []⟩)] } }
/-- The fixture with the REQ_POST of request 7 in flight, its parameter block given. -/
def fxpost (p : List Word) : State :=
  let s := withFlight 7 1
  { s with hpt := { s.hpt with posts := [(7, ⟨flightId dk, 0x50000, 4, 1, p⟩)] } }
/-- Its flight. -/
def fxFlight : Flight := ⟨dk, 1, false, false, 9, 7, none⟩
/-- The fixture that waits for the host's choice for request 7. -/
def fxchoice (s : State) : State := { s with smp := { s.smp with choices := [(7, 0)] } }
/-- A GATHER that awaits rows. -/
def fxRun (want : Tbl (List (List F32))) : GthRun := ⟨dGather 0, fxLists, 1, true, 0, 0, 0, [], [], 0, [], want, none, []⟩
def fxgr (want : Tbl (List (List F32))) : State := { fxm with gth := { fxm.gth with runs := [(flightId dk, fxRun want)] } }
/-- A migration of row 3 of table 1. -/
def fxMig (p : MigPhase) (demote : Bool) : Migration := ⟨9, 0, demote, 0, 0, p⟩
def fxmig (p : MigPhase) (demote flash : Bool) : State :=
  { fxm with gth := { fxm.gth with tables := [(1, ⟨1, 0, 0, flash, 64, 100, 4, 0x100000, 0, 4, [], [], []⟩)], moves := [(gRow 1 3, fxMig p demote)] } }
/-- An HBM or SRAM word as the patrol scrub finds it. -/
def fxWord (sram : Bool) (data : BitVec 32) : ScrubWord := ⟨sram, if sram then 5 else 1, 0, 256, data, 0, true, false⟩
/-- The fixture with an HDM window of 1 GiB. -/
def fxhdm (s : State) : State :=
  let t := wr (wr s F.HPT_HDM_CFG_EN 1) F.HPT_HDM_CFG_SIZE_GIB 1
  { t with hpt := { t.hpt with trained := true } }
/-- The fixture with the flash tier ready: channel 0, blocks of 4 units. -/
def fxf : State :=
  let s := wr (wr (wri fx F.FLT_CHAN_STATE 0 1) F.FLT_CTL_EN 1) F.FLT_CAP_UNITS 4
  { s with flt := { s.flt with blockUnits := 4, map := [(0, ⟨0, 0, 1⟩)], blocks := [(0, ⟨1, 0, 4, 0, false, false, false, false, false⟩)] } }
/-- A unit that is being programmed. -/
def fxProg (old : Option (Nat × Nat)) : FltProg := ⟨0, 0, 1, [(0, [1])], 1, old⟩
def fxerase (leaving : Bool) : State := { fxf with flt := { fxf.flt with blocks := [(0, ⟨1, 0, 4, 0, false, false, leaving, false, true⟩)] } }
/-- The fixture with port `n` in a state, its book-keeping given. -/
def fxport (n st : Nat) (p : GPort) : State :=
  let s := wri fx F.GLK_PORT_STAT_STATE n st
  { s with glk := { s.glk with ports := [(n, p)] } }
/-- A port's width and good lanes set. -/
def lanes8 (n : Nat) (s : State) : State := wri (wri (wri s F.GLK_PORT_STAT_WIDTH n 8) F.GLK_PORT_STAT_LANE_OK n 0xFF) F.GLK_PORT_CTL_MAX_WIDTH n 3
def fxCredit (check : FrameCheck) (seq : Nat) : CreditMsg := ⟨check, seq, 0, false, List.replicate 12 0⟩
def fxData (check : FrameCheck) (seq : Nat) : DataMsg := ⟨check, 0, seq, 0, false, 0, 64⟩
def fxFrame : GFrame := ⟨0, 3, 1, 64, 0, false⟩
/-- The fixture in which every node may read, write and add to HBM (R488). -/
def fxg : State := { fx with sec := { fx.sec with window := (0x18, at' 16 13 1) :: fx.sec.window ++ [(0xA0000, mkWord [(20, 20, 0xFFFFF), (40, 4, 15)]), (0xA0010, 0x10000000000)] } }
/-- An operation of node 3 at epoch 5. -/
def fxOp (arg : Word) : RemoteReq := ⟨3, 0, 0, 1, 5, 0x10000, arg⟩
/-- A message to node 3 on class 1 that awaits its response. -/
def fxRop : RemoteOp := ⟨3, 1, 64, 0, .message, .park, [7], none⟩
/-- The fixture with that operation under tag 1. -/
def fxops (s : State) : State := { s with glk := { s.glk with ops := [(1, fxRop)] } }
/-- A route to node 3 over port 0, which serves. -/
def fxroute : State := storeMem (fxport 0 5 GPort.fresh) 24 (wordBytes (mkWord [(63, 1, 1), (0, 1, 1)]))
/-- A shaped flow with this many tokens. -/
def fxFlow (t : Nat) : ShpFlow := ⟨t, 0, false, false, 0⟩
/-- The fixture whose port 0 runs entry 0 of a gate list of `n` entries. -/
def fxgate (n mode : Nat) : State :=
  let s := wri (wri (wri fx F.SHP_GATE_CTL_EN 0 1) F.SHP_GATE_CTL_LEN_A 0 n) F.SHP_GATE_CTL_MODE_A 0 mode
  { s with shp := { s.shp with gates := [(0, ⟨0, 0, false⟩)] } }
/-- The fixture with a MOVE that waits, or runs in channel 0 of mover 0. -/
def fxwait (s : State) (d : Desc) : State := { s with bmv := { s.bmv with waiting := [⟨flightId dk, d⟩] } }
def fxmv (s : State) (d : Desc) : State := { s with bmv := { s.bmv with chans := [(0, ⟨flightId dk, d, [], []⟩)] } }
/-- A MOVE of 64 bytes to node 3. -/
def dRemote : Desc := { dMove with w7 := mkWord [(0, 20, 3), (20, 1, 1)] }
/-- Node 3 reached over port 0 on class 3. -/
def fxrt : State := fxwait fxroute dRemote
/-- The state in which the remote MOVE has its channel. -/
def fxch : State := { fxrt with bmv := { fxrt.bmv with waiting := fxrt.bmv.waiting.erase ⟨flightId dk, dRemote⟩, chans := tset fxrt.bmv.chans (32 * 0 + 0) ⟨flightId dk, dRemote, [], []⟩ } }
/-- One port serves the route, whatever the hash is. -/
theorem fxch_port (m : Output) : flowPort (emit fxch m) 3 3 0 = some 0 := by
  have h : routePorts (emit fxch m) 3 3 = [0] := (by decide +kernel : routePorts fxch 3 3 = [0])
  simp [flowPort, h, Nat.mod_one]
/-- All PUTs of the remote MOVE go out. -/
theorem fxch_puts : (sendPuts fxch 0 0 dRemote []).2.2 = none := by
  have hp : pieces (dstSide dRemote) 4096 (sideCount (dstSide dRemote) - mvSkip dRemote) (mvSkip dRemote) (sideCount (dstSide dRemote))
      = [(0, 0x20000, 8)] := by decide +kernel
  have hn : mvNode dRemote = 3 := by decide +kernel
  simp only [sendPuts, hp, hn, List.foldl, issueOp, fxch_port]
  split <;> rename_i h <;> split at h <;> simp_all
/-- The fixture while it copies the map from node 3. -/
def fxjoin : State := { wr fx F.DTM_CTL_BUSY 1 with dtm := { fx.dtm with copying := some 3 } }
/-- The fixture with a holder's record at this home. -/
def fxhold (n : Nat) (h : Holder) : State := { fx with dtm := { fx.dtm with holders := [(n, h)] } }
/-- A home whose holder table is full (R407). -/
def fxfull : State := { fx with dtm := { fx.dtm with holders := (List.range 16384).map (fun i => (i + 100000, ⟨true, false, false⟩)) } }
/-- RENEW from node 3. -/
def fxRenew : List Word := dtmWords 1 false 9 0 0 3 0 0 St.OK
/-- QUERY from node 3 about request 7. -/
def fxQuery : List Word := dtmWords 2 false 9 7 0 3 0 0 St.OK
/-- The fixture that has asked the home about request 7. -/
def fxasked : State := { fxk 1 1 4 1 with dtm := { fx.dtm with queries := [7] } }
/-- The root of request 7, leased at epoch 1. -/
def fxRoot : Root := ⟨0, 1, 1, 1, 1, 1, 1⟩
/-- A transit record of request 7 from a group to a group with a plan (R416). -/
def fxTr (src dst plan : Nat) : List Word := transitWords 7 fxReq fxRoot src dst plan 0xFFFF []
/-- A Traverse message's header from a node (R417). -/
def fxHdr (kind np : Nat) (st : Status) (ep node : Nat) : List Word := [mkWord [(0, 4, kind), (4, 7, np), (16, 16, st.toNat), (32, 32, 9)], 7, mkWord [(0, 32, ep), (32, 20, node)], 0]
/-- A Traverse in a state at its source. -/
def fxTrav (src : SrcState) (plan : Nat) : Trav := { freshTrav (fxTr 2 1 plan) with src := src }
/-- The fixture with request 7's root, no page and a Traverse. -/
def fxtrv (t : Option Trav) : State :=
  { fxr with
    kva := { fxr.kva with roots := [(7, fxRoot)] }
    trv := { fxr.trv with trav := t.elim [] (fun t => [(7, t)]) } }
/-- A source that leads 256 other Traverses. -/
def fxbusy : State := { fxtrv none with trv := { fxr.trv with trav := (List.range 256).map (fun i => (i + 100, fxTrav .running 0)) } }
/-- A GENERATE controller with two destinations for model 1. -/
def fxdest : State := wri (wri (wri (wr fxr F.GLK_NODE_NODE_ID 5) F.TRV_DEST_EN 0 1) F.TRV_DEST_GEN_COUNT 0 2) F.TRV_DEST_GEN_BASE 0 5
/-- A Traverse at a member of its destination, with legs out. -/
def fxMember (legs : List Leg) : Trav := { fxTrav .none 0 with member := true, dst := true, legs := legs }
/-- One page asked of node 2. -/
def fxLeg : Leg := ⟨9, 2, false, 0, [0], [2 ^ 30]⟩
/-- Request 7 in decode, waiting for a frame. -/
def fxStarved : Req := { fxReq with phase := .decode, starved := true }
/-- The fixture whose member of the pair is in a state (R436). -/
def fxcon (st : Nat) : State := wr (wr fx F.CON_STAT_STATE st) F.CON_STAT_SIDEBAND_OK 1
/-- A beat with its CRC (R437): the ECHO it carries, a STATE and YIELD. -/
def fxBeat (echo st yield_ : Nat) : Word :=
  let w := mkWord [(16, 16, echo), (32, 3, st), (35, 1, yield_)]
  setFld w 48 16 (beatCrc w)
/-- A member that has missed beats, probes, or waits for an acknowledgement. -/
def fxlag (st misses : Nat) (probing : Bool) : State := { fxcon st with con := { fx.con with misses := misses, probing := probing, unacked := [⟨0, .release 7⟩] } }
/-- A member that supplies its twin, in a phase (R454). -/
def fxsupply (phase : Nat) : State := wr (fxcon 4) F.CON_STAT_PHASE phase
/-- A paired member that compares kernel 1 on tensors 1, 2 and 3. -/
def fxcmp (k expect : Nat) : State := wr (wr (wr (wr (wr (wr (wr (wr fxm F.CON_STAT_STATE 1) F.CON_CMP_CFG_EN 1) F.CON_CMP_CFG_KHANDLE k) F.CON_CMP_TENS0_A 1) F.CON_CMP_TENS0_B 2) F.CON_CMP_TENS1_C 3) F.CON_CMP_TENS1_EXPECT expect) F.CON_CMP_CFG_YIELD_ON_FAIL 0
/-- The state in which an HBM_CHECK of granules `f` to `f + n` has begun. -/
def hbmBegun (s : State) (f n : Nat) : State :=
  let s1 := wr (wr (wr s F.CLK_HBM_CMD_STAT_BUSY 1) F.CLK_HBM_CMD_STAT_DONE 0) F.CLK_HBM_CMD_STAT_STATUS 0
  { s1 with clk := { s1.clk with hbm := some ⟨false, f, f + n, none⟩ } }
/-- The fixture with memory kept over the last reset, and these continuity ports up. -/
def fxkept (up : Nat) : State := { wr fx F.CON_STAT_PORTS_UP up with clk := { fx.clk with contentsLost := false } }
/-- It while a CHECK or a CLEAR of granule 0 runs. -/
def fxhbm (clear : Bool) : State := { wr (fxkept 1) F.CLK_HBM_CMD_STAT_BUSY 1 with clk := { fx.clk with hbm := some ⟨clear, 0, 0, none⟩ } }
/-- A CRC and the next number differ. -/
theorem succ_ne (x : BitVec 32) : x + 1 ≠ x := by
  intro h
  have e := congrArg BitVec.toNat h
  rw [BitVec.toNat_add] at e
  have l := x.isLt
  have o : (1 : BitVec 32).toNat = 1 := rfl
  omega
/-- The fixture whose tensor 1 has a damaged line. -/
def fxdam : State := { fxm with mem := { fxm.mem with ue := [0x10000 / 64] } }
def fxErr : RasRec := ⟨St.MEM_UNCORR, 1, 4, 0, false, 0, 0, 0, 0, 0, 0⟩
/-- A controller in boot, that waits for an image (R482). -/
def fxboot (stage image : Nat) : State := { wr State.reset F.SEC_BOOT_STAT_STAGE stage with sec := { State.reset.sec with image := image } }
/-- An image in good order. -/
def fxImg (n : Nat) : BootImage := ⟨true, 0x31424E54, 1, n + 1, if n = 2 then 2 else 0, if n = 2 then 786432 else 4096, 0, true, some 0, true, true, []⟩
/-- A register without a command. -/
def rgPlain : RegAccess := ⟨F.SCH_PROMPT_CFG_SLICE_US.base, 8⟩
/-- The state of a step's outcome. -/
def nextOf : Host.Outcome State Fault Refusal → State
  | .next s => s
  | _ => fx
/-- A step that answers a next state answers that one. -/
theorem step_nextOf (s : State) (h : (match step s with | .next _ => true | _ => false) = true) : step s = .next (nextOf (step s)) := by
  cases e : step s with
  | next t => rfl
  | fault _ => rw [e] at h; cases h
  | refused _ => rw [e] at h; cases h
def dStandin (m : Nat) : Desc := mkDesc 1 7 0x40000 (mkWord [(0, 23, 1), (32, 16, 100), (48, 2, 1)]) 0x50000 (mkWord [(0, 16, 1), (16, 16, m), (32, 5, 4)]) 0 0

theorem test_host_port_set_up_met_1 :
    (∃ (s : State) (offer : List UcieOption) (modUp rateGt repairs : Nat), s.clk.crstLow = false ∧
      s.clk.porstLow = false ∧ s.clk.railsBad = false ∧ s.hpt.portDown = false ∧ modUp % 16 ≠ 0) ∧
    (∃ (s : State) (m : Nat), m < 4 ∧ (rd s F.HPT_LINK_STAT_MOD_UP).testBit m = true ∧ rd s F.HPT_LINK_STAT_MOD_UP ≠ 2 ^ m) ∧
    (∃ (s : State) (m : Nat), m < 4 ∧ rd s F.HPT_LINK_STAT_MOD_UP = 2 ^ m) ∧
    (∃ (s : State) (ctx : Nat), rd s F.SEC_PROT_LOCK_LOCK = 1 ∧ rd s F.HPT_CTX_STAT_BUSY = 0 ∧ thas s.hpt.ctxs ctx = false) ∧
    (∃ (s : State) (ctx : Nat), rd s F.SEC_PROT_LOCK_LOCK = 1 ∧ rd s F.HPT_CTX_STAT_BUSY = 0 ∧ thas s.hpt.ctxs ctx = true) ∧
    (∃ (s : State) (ctx : Nat), rd s F.SEC_PROT_LOCK_LOCK = 1 ∧ rd s F.HPT_CTX_STAT_BUSY = 1) ∧
    (∃ (s : State) (ctx : Nat) (entry line : List Word), s.hpt.cmd = some ⟨true, ctx⟩ ∧ entryBad entry = false ∧
      entryProt s ctx (entryRead entry) = false ∧ lineFault (newCtx (entryRead entry)) line = none) ∧
    (∃ (s : State) (ctx : Nat) (x : Ctx), rd s F.SEC_PROT_LOCK_LOCK = 1 ∧ rd s F.HPT_CTX_STAT_BUSY = 0 ∧
      tget s.hpt.ctxs ctx = some x ∧ x.down = none) ∧
    (∃ (s : State) (ctx : Nat), rd s F.SEC_PROT_LOCK_LOCK = 1 ∧ rd s F.HPT_CTX_STAT_BUSY = 0 ∧ tget s.hpt.ctxs ctx = none) ∧
    (∃ (s : State) (ctx : Nat) (x : Ctx) (d : Teardown), isUp s = true ∧ tget s.hpt.ctxs ctx = some x ∧ x.down = some d ∧
      d.fault = false ∧ d.started = true ∧ (∀ e ∈ s.hpt.flight, e.2.key.ctx ≠ ctx) ∧ (∀ e ∈ s.hpt.made, e.2 ≠ ctx) ∧
      (∀ q ∈ x.cqs, q.delayed = []) ∧ s.hpt.cmd = some ⟨false, ctx⟩) ∧
    (∃ (s : State) (w : Word), rd s F.SEC_PROT_LOCK_LOCK = 1 ∧ rd s F.HPT_EVQ_CFG_EN = 0 ∧ bit w 63 = true ∧
      6 ≤ bits w 4 0 ∧ bits w 4 0 ≤ 16) ∧
    (∃ (s : State) (w : Word), rd s F.SEC_PROT_LOCK_LOCK = 1 ∧ rd s F.HPT_EVQ_CFG_EN = 1 ∧ bit w 63 = true) :=
  ⟨⟨State.reset, [.advancedX64, .ucie3d], 15, 32, 0, by decide +kernel⟩,
    ⟨wr fx F.HPT_LINK_STAT_MOD_UP 3, 1, by decide +kernel⟩,
    ⟨wr fx F.HPT_LINK_STAT_MOD_UP 2, 1, by decide +kernel⟩,
    ⟨fx, 2, by decide +kernel⟩,
    ⟨fx, 1, by decide +kernel⟩,
    ⟨wr fx F.HPT_CTX_STAT_BUSY 1, 2, by decide +kernel⟩,
    ⟨{ fx with hpt := { fx.hpt with cmd := some ⟨true, 1⟩ } }, 1, fxEntryWords, [0, 0, 0, 0, 0, 0, 0, 0], by decide +kernel⟩,
    ⟨fx, 1, fxCtx, by decide +kernel⟩,
    ⟨fx, 2, by decide +kernel⟩,
    ⟨{ fx with hpt := { fx.hpt with cmd := some ⟨false, 1⟩, ctxs := [(1, { fxCtx with down := some ⟨St.OK, false, true, 0, 0⟩ })] } }, 1, { fxCtx with down := some ⟨St.OK, false, true, 0, 0⟩ }, ⟨St.OK, false, true, 0, 0⟩, by decide +kernel⟩,
    ⟨fx, mkWord [(63, 1, 1), (32, 11, 5), (0, 5, 16)], by decide +kernel⟩,
    ⟨wr fx F.HPT_EVQ_CFG_EN 1, mkWord [(63, 1, 1)], by decide +kernel⟩⟩

theorem test_host_port_set_up_met_2 :
    (∃ (s : State) (w : Word), rd s F.SEC_PROT_LOCK_LOCK = 1 ∧ bit w 63 = false) ∧
    (∃ (s : State) (w : Word), rd s F.SEC_PROT_LOCK_LOCK = 0) ∧
    (∃ (s : State) (w : Word), rd s F.SEC_PROT_LOCK_LOCK = 1) :=
  ⟨⟨fx, 8, by decide +kernel⟩,
    ⟨State.reset, mkWord [(63, 1, 1), (40, 10, 512)], by decide +kernel⟩,
    ⟨fx, 0, by decide +kernel⟩⟩

theorem test_doorbells_and_queue_heads_met :
    (∃ (s : State) (ctx : Nat) (x : Ctx), isUp s = true ∧ tget s.hpt.ctxs ctx = some x ∧ x.armed = true ∧ x.down = none) ∧
    (∃ (s : State), isUp s = true ∧ rd s F.HPT_DB_POLL_PERIOD_US ≠ 0) ∧
    (∃ (s : State) (ctx : Nat) (x : Ctx) (line : List Word), isUp s = true ∧ tget s.hpt.ctxs ctx = some x ∧
      x.pending = true ∧ x.down = none ∧ lineFault x line = none) ∧
    (∃ (s : State) (ctx : Nat) (x : Ctx) (line : List Word) (st : Status), isUp s = true ∧ tget s.hpt.ctxs ctx = some x ∧
      x.pending = true ∧ x.down = none ∧ lineFault x line = some st) ∧
    (∃ (s : State) (ctx : Nat) (x : Ctx) (line : List Word) (st : Status), isUp s = true ∧ tget s.hpt.ctxs ctx = some x ∧
      x.pending = true ∧ x.down = none ∧ lineFault x line = some st) ∧
    (∃ (s : State) (ctx : Nat) (x : Ctx) (line : List Word), isUp s = true ∧ tget s.hpt.ctxs ctx = some x ∧
      (∃ q ∈ x.cqs, q.watch = true)) ∧
    (∃ (n : Nat) (s : State) (c q : Nat) (x : Ctx) (cfg : CqCfg) (cq : CqState) (r : HeldRecord) (rest : List HeldRecord), tget s.hpt.ctxs c = some x ∧
      x.entry.cqs[q]? = some cfg ∧ x.cqs[q]? = some cq ∧ cq.delayed = r :: rest ∧ s.hpt.portDown = false) :=
  ⟨⟨fx, 1, fxCtx, by decide +kernel⟩,
    ⟨wr fx F.HPT_DB_POLL_PERIOD_US 100, by decide +kernel⟩,
    ⟨withCtx { fxCtx with pending := true }, 1, { fxCtx with pending := true }, [64], by decide +kernel⟩,
    ⟨withCtx { fxCtx with pending := true }, 1, { fxCtx with pending := true }, [65], St.HPT_RING_OVERRUN, by decide +kernel⟩,
    ⟨withCtx { fxCtx with pending := true }, 1, { fxCtx with pending := true }, [mkWord [(32, 1, 1)]], St.HPT_BAD_DOORBELL, by decide +kernel⟩,
    ⟨withCtx { fxCtx with cqs := [⟨64, 0, true, []⟩] }, 1, { fxCtx with cqs := [⟨64, 0, true, []⟩] }, [1], by decide +kernel⟩,
    ⟨1, withCtx { fxCtx with cqs := [⟨64, 1, true, [⟨0, 0, 0, 0, false, 0⟩]⟩] }, 1, 0, { fxCtx with cqs := [⟨64, 1, true, [⟨0, 0, 0, 0, false, 0⟩]⟩] }, ⟨0x20000, 6, 3, true⟩, ⟨64, 1, true, [⟨0, 0, 0, 0, false, 0⟩]⟩, ⟨0, 0, 0, 0, false, 0⟩, [], by decide +kernel⟩⟩

theorem test_failed_host_accesses_met :
    (∃ (s : State) (c : Nat), isUp s = true) ∧
    (∃ (s : State) (ctx : Nat), isUp s = true ∧ s.hpt.cmd = some ⟨true, ctx⟩) ∧
    (∃ (s : State) (id : Nat) (f : Flight), isUp s = true ∧ tget s.hpt.flight id = some f) ∧
    (∃ (s : State), isUp s = true) ∧
    (∃ (s : State) (c : Nat) (x : Ctx), tget fx.hpt.ctxs 1 = some fxCtx ∧ fxCtx.down = none) :=
  ⟨⟨fx, 1, by decide +kernel⟩,
    ⟨{ fx with hpt := { fx.hpt with cmd := some ⟨true, 2⟩ } }, 2, by decide +kernel⟩,
    ⟨withFlight 0 0x20, flightId dk, ⟨dk, 0x20, false, false, 9, 0, none⟩, by decide +kernel⟩,
    ⟨fx, by decide +kernel⟩,
    ⟨fx, 1, fxCtx, by decide +kernel⟩⟩

theorem test_descriptors_taken_and_completed_met :
    (∃ (s s1 : State) (k : RingKey) (d : Desc) (key : DescKey), isUp s = true ∧ dOpcode d = 0 ∧
      takeDesc s k d = .dispatched s1 key ∧
      firstFail (headChecks d (resvWords d [0x10, 0x18, 0x20, 0x28, 0x30, 0x38])) = none) ∧
    (∃ (s s1 : State) (k : RingKey) (d : Desc) (key : DescKey), isUp s = true ∧ knownOpcode (dOpcode d) = false ∧
      dVersion d = 1 ∧ takeDesc s k d = .dispatched s1 key) ∧
    (∃ (s : State) (k : RingKey) (d : Desc) (x : Ctx) (r : RingState), tget s.hpt.ctxs k.ctx = some x ∧
      x.rings[k.ring]? = some r ∧ x.down = none ∧ r.waiting = [] ∧ r.fetched ≠ r.tail ∧ ringBlocked s k = false ∧
      (dFence d = true → ringOpen s x k = false)) ∧
    (∃ (s : State) (c q : Nat) (x : Ctx) (cfg : CqCfg) (cq : CqState) (r : HeldRecord), tget s.hpt.ctxs c = some x ∧
      x.entry.cqs[q]? = some cfg ∧ x.cqs[q]? = some cq ∧ s.hpt.portDown = false ∧ cqFull cfg cq = false ∧ cq.delayed = []) ∧
    (∃ (s : State) (c q : Nat) (x : Ctx) (cfg : CqCfg) (cq : CqState) (r : HeldRecord), tget s.hpt.ctxs c = some x ∧
      x.entry.cqs[q]? = some cfg ∧ x.cqs[q]? = some cq ∧ s.hpt.portDown = false ∧ cqFull cfg cq = true) :=
  ⟨⟨fx, dt fx (mkDesc 0 0 0 0 0 0 0 0), rk, mkDesc 0 0 0 0 0 0 0 0, dk, by decide +kernel⟩,
    ⟨fx, dt fx (mkDesc 0xF0 0 0 0 0 0 0 0), rk, mkDesc 0xF0 0 0 0 0 0 0 0, dk, by decide +kernel⟩,
    ⟨fx, rk, mkDesc 0 0 0 0 0 0 0 0, fxCtx, ⟨0, 1, []⟩, by decide +kernel⟩,
    ⟨fx, 1, 0, fxCtx, ⟨0x20000, 6, 3, true⟩, ⟨0, 0, false, []⟩, ⟨0, 0, 0, 0, false, 0⟩, by decide +kernel⟩,
    ⟨withCtx { fxCtx with cqs := [⟨64, 0, true, []⟩] }, 1, 0, { fxCtx with cqs := [⟨64, 0, true, []⟩] }, ⟨0x20000, 6, 3, true⟩, ⟨64, 0, true, []⟩, ⟨0, 0, 0, 0, false, 0⟩, by decide +kernel⟩⟩

theorem test_request_commands_met :
    (∃ (s u : State) (k : RingKey) (d : Desc) (key : DescKey) (param : List Word) (input : List (BitVec 32)), dispatched s k d key u ∧
      dOpcode d = 1 ∧ passes d (postBytes d) (postChecks d param input .unknown u key) ∧
      pPromptCounts (paramOf d param) = false) ∧
    (∃ (s u : State) (k : RingKey) (d : Desc) (key : DescKey) (param : List Word) (input : List (BitVec 32)) (parked re : Bool) (g e c n : Nat), dispatched s k d key u ∧
      dOpcode d = 1 ∧ passes d (postBytes d) (postChecks d param input (.record parked g e c re) u key) ∧
      pPromptCounts (paramOf d param) = false ∧ leaderOf u.dtm.map g = some n) ∧
    (∃ (s u : State) (k : RingKey) (d : Desc) (key : DescKey) (parked re : Bool) (g e c : Nat), dispatched s k d key u ∧
      dOpcode d = 2 ∧
      passes d (resv d 0x10 63 16 ++ resvWords d [0x18, 0x20, 0x28, 0x30, 0x38]) (parkChecks d (.record parked g e c re) u key) ∧
      leads u g = true) ∧
    (∃ (s u : State) (k : RingKey) (d : Desc) (key : DescKey) (parked re : Bool) (g e c n : Nat), dispatched s k d key u ∧
      dOpcode d = 2 ∧
      passes d (resv d 0x10 63 16 ++ resvWords d [0x18, 0x20, 0x28, 0x30, 0x38]) (parkChecks d (.record parked g e c re) u key) ∧
      leads u g = false ∧ leaderOf u.dtm.map g = some n) ∧
    (∃ (s u : State) (k : RingKey) (d : Desc) (key : DescKey) (g e c : Nat) (re : Bool), dispatched s k d key u ∧
      dOpcode d = 3 ∧ role u ≠ 0 ∧ passes d (resvWords d [0x10, 0x18, 0x20, 0x28, 0x30, 0x38]) [] ∧
      thas u.sch.reqs (dReq d) = false) ∧
    (∃ (s u : State) (k : RingKey) (d : Desc) (key : DescKey) (g e c : Nat) (re : Bool), dispatched s k d key u ∧
      dOpcode d = 3 ∧ role u ≠ 0 ∧ passes d (resvWords d [0x10, 0x18, 0x20, 0x28, 0x30, 0x38]) [] ∧
      thas u.sch.reqs (dReq d) = true ∧ leadsFor u (dReq d) = true) ∧
    (∃ (s : State) (req node : Nat) (key : DescKey), isUp s = true ∧ thas s.sch.reqs req = true ∧ leadsFor s req = true) ∧
    (∃ (s u : State) (k : RingKey) (d : Desc) (key : DescKey) (g e c : Nat), dispatched s k d key u ∧ dOpcode d = 4 ∧
      lOp d = 0 ∧ role u ≠ 0 ∧ passes d (releaseBytes d) []) ∧
    (∃ (s u : State) (k : RingKey) (d : Desc) (key : DescKey) (g e c : Nat) (re parked : Bool), dispatched s k d key u ∧
      dOpcode d = 4 ∧ lOp d = 1 ∧
      passes d (releaseBytes d) [chk (lIn d % 64 != 0) St.HPT_BAD_ADDR 0x18, chk (!hostOk u key false (lIn d) (4 * lCount d)) St.HPT_PROT 0x18, chk (!servesPrefill (role u)) St.SCH_ROLE_MISMATCH 0] ∧
      leads u g = true) ∧
    (∃ (s u : State) (k : RingKey) (d : Desc) (key : DescKey) (g e c n : Nat) (re parked : Bool), dispatched s k d key u ∧
      dOpcode d = 4 ∧ lOp d = 1 ∧
      passes d (releaseBytes d) [chk (lIn d % 64 != 0) St.HPT_BAD_ADDR 0x18, chk (!hostOk u key false (lIn d) (4 * lCount d)) St.HPT_PROT 0x18, chk (!servesPrefill (role u)) St.SCH_ROLE_MISMATCH 0] ∧
      leads u g = false ∧ leaderOf u.dtm.map g = some n) :=
  ⟨⟨fxm, du fxm rk dPost, rk, dPost, dk, [], [5], disp_du _ _ _ _ (by decide +kernel), by unfold passes; decide +kernel⟩,
    ⟨fxm, du fxm rk dPost, rk, dPost, dk, [], [5], true, false, 1, 0, 1, 1, disp_du _ _ _ _ (by decide +kernel), by unfold passes; decide +kernel⟩,
    ⟨fxr, du fxr rk dPark, rk, dPark, dk, true, false, 1, 0, 1, disp_du _ _ _ _ (by decide +kernel), by unfold passes; decide +kernel⟩,
    ⟨fxm, du fxm rk dPark, rk, dPark, dk, true, false, 5, 0, 1, 5, disp_du _ _ _ _ (by decide +kernel), by unfold passes; decide +kernel⟩,
    ⟨fxm, du fxm rk dCancel, rk, dCancel, dk, 5, 0, 1, false, disp_du _ _ _ _ (by decide +kernel), by unfold passes; decide +kernel⟩,
    ⟨fxr, du fxr rk dCancel, rk, dCancel, dk, 1, 0, 1, false, disp_du _ _ _ _ (by decide +kernel), by unfold passes; decide +kernel⟩,
    ⟨fxr, 7, 1, dk, by decide +kernel⟩,
    ⟨fxm, du fxm rk dFree, rk, dFree, dk, 1, 0, 1, disp_du _ _ _ _ (by decide +kernel), by unfold passes; decide +kernel⟩,
    ⟨fxm, du fxm rk dReshoot, rk, dReshoot, dk, 1, 0, 1, false, true, disp_du _ _ _ _ (by decide +kernel), by unfold passes; decide +kernel⟩,
    ⟨fxm, du fxm rk dReshoot, rk, dReshoot, dk, 5, 0, 1, 5, false, true, disp_du _ _ _ _ (by decide +kernel), by unfold passes; decide +kernel⟩⟩

theorem test_kernel_commands_met :
    (∃ (s u : State) (k : RingKey) (d : Desc) (key : DescKey) (image : List Word), dispatched s k d key u ∧
      dOpcode d = 0x10 ∧ dfld d 0x18 45 44 = 0 ∧
      passes d (loadBytes d) ([chk ((Desc.word d 2).toNat % 64 != 0) St.HPT_BAD_ADDR 0x10, chk (!hostOk u key false (Desc.word d 2).toNat (dfld d 0x18 31 0)) St.HPT_PROT 0x10] ++ imageChecks u key d image)) ∧
    (∃ (s u : State) (k : RingKey) (d : Desc) (key : DescKey), dispatched s k d key u ∧ dOpcode d = 0x10 ∧
      dfld d 0x18 45 44 = 1 ∧
      passes d (loadBytes d) [chk (!(List.range (dfld d 0x18 31 0)).all (fun i => ownsKernel u key.ctx (dfld d 0x18 43 32 + i))) St.MXE_NO_KERNEL 0x1C]) ∧
    (∃ (s u : State) (k : RingKey) (d : Desc) (key : DescKey), dispatched s k d key u ∧ dOpcode d = 0x11 ∧
      passes d (resv d 0x10 31 12 ++ resv d 0x30 63 32 ++ resvWords d [0x38]) (runChecks u key d)) ∧
    (∃ (s u : State) (k : RingKey) (d : Desc) (key : DescKey), dispatched s k d key u ∧ dOpcode d = 0x21 ∧ pOp d = 0 ∧
      passes d (packBytes d) (packChecks u key d)) ∧
    (∃ (s u : State) (k : RingKey) (d : Desc) (key : DescKey), dispatched s k d key u ∧ dOpcode d = 0x21 ∧ pOp d = 1 ∧
      passes d (packBytes d) (packChecks u key d)) ∧
    (∃ (s u : State) (k : RingKey) (d : Desc) (key : DescKey), dispatched s k d key u ∧ dOpcode d = 0x21 ∧ pOp d = 2 ∧
      passes d (packBytes d) (packChecks u key d)) ∧
    (∃ (s u : State) (k : RingKey) (d : Desc) (key : DescKey) (t : Tensor), dispatched s k d key u ∧ dOpcode d = 0x21 ∧
      pOp d = 3 ∧ tget u.mxe.tensors (pDst d) = some t ∧ t.image = 0 ∧ t.ctx = key.ctx ∧ passes d (packBytes d) []) ∧
    (∃ (s u : State) (k : RingKey) (d : Desc) (key : DescKey), dispatched s k d key u ∧ dOpcode d = 0x20 ∧
      passes d (moveBytes d) (moveChecks d u key)) :=
  ⟨⟨fxm, du fxm rk dLoad, rk, dLoad, dk, fxImage, disp_du _ _ _ _ (by decide +kernel), by unfold passes; decide +kernel⟩,
    ⟨fxm, du fxm rk dUnload, rk, dUnload, dk, disp_du _ _ _ _ (by decide +kernel), by unfold passes; decide +kernel⟩,
    ⟨fxm, du fxm rk dRun, rk, dRun, dk, disp_du _ _ _ _ (by decide +kernel), by unfold passes; decide +kernel⟩,
    ⟨fxm, du fxm rk (dPack 0 0), rk, dPack 0 0, dk, disp_du _ _ _ _ (by decide +kernel), by unfold passes; decide +kernel⟩,
    ⟨fxm, du fxm rk (dPack 1 0), rk, dPack 1 0, dk, disp_du _ _ _ _ (by decide +kernel), by unfold passes; decide +kernel⟩,
    ⟨fxc, du fxc rk (dPack 2 0), rk, dPack 2 0, dk, disp_du _ _ _ _ (by decide +kernel), by unfold passes; decide +kernel⟩,
    ⟨fxm, du fxm rk dPackFree, rk, dPackFree, dk, fxTensor 0x10000, disp_du _ _ _ _ (by decide +kernel), by unfold passes; decide +kernel⟩,
    ⟨fxm, du fxm rk dMove, rk, dMove, dk, disp_du _ _ _ _ (by decide +kernel), by unfold passes; decide +kernel⟩⟩

theorem test_table_commands_met :
    (∃ (s u : State) (k : RingKey) (d : Desc) (key : DescKey), dispatched s k d key u ∧ dOpcode d = 0x30 ∧ gOp d = 0 ∧
      passes d (registerBytes d) (registerChecks d u key)) ∧
    (∃ (s u : State) (k : RingKey) (d : Desc) (key : DescKey), dispatched s k d key u ∧ dOpcode d = 0x30 ∧ gOp d = 1 ∧
      passes d (tableOpBytes d) (ownerChecks d u key ++ [chk (tableInUse u (gTable d)) St.GTH_TABLE_BUSY 0x12])) ∧
    (∃ (s u : State) (k : RingKey) (d : Desc) (key : DescKey) (list : List Word), dispatched s k d key u ∧
      dOpcode d = 0x30 ∧ gOp d = 2 ∧
      passes d (tableOpBytes d) (listChecks d u key false (8 * gRows d) ++ ownerChecks d u key)) ∧
    (∃ (s u : State) (k : RingKey) (d : Desc) (key : DescKey) (rows : List (List Byte)), dispatched s k d key u ∧
      dOpcode d = 0x30 ∧ gOp d = 3 ∧ passes d (tableOpBytes d) (loadChecks d u key)) ∧
    (∃ (s u v : State) (k : RingKey) (d : Desc) (key : DescKey) (flash : List (Option (List Byte))) (n : Nat), dispatched s k d key u ∧
      dOpcode d = 0x30 ∧ gOp d = 4 ∧
      passes d (tableOpBytes d) (listChecks d u key true (gRows d * (64 + tRb (tableAt u (gTable d)))) ++ ownerChecks d u key) ∧
      syncRun (gTable d) (gList d) ((syncRows u (gTable d) (gRows d)).zipIdx.map (fun p => (p.1, (flash[p.2]?).getD none))) u 0 = (v, n, none)) ∧
    (∃ (s u : State) (k : RingKey) (d : Desc) (key : DescKey) (g : GatherLists), dispatched s k d key u ∧
      dOpcode d = 0x31 ∧ dfld d 0x10 17 16 = 0 ∧ passes d (gatherBytes d) (gatherChecks d u key) ∧
      listFault d g (tableAt u (gaTable d)).rows = none) ∧
    (∃ (s u : State) (k : RingKey) (d : Desc) (key : DescKey) (g : GatherLists), dispatched s k d key u ∧
      dOpcode d = 0x31 ∧ dfld d 0x10 17 16 = 1 ∧ passes d (gatherBytes d) (gatherChecks d u key) ∧
      listFault d g (tableAt u (gaTable d)).rows = none) ∧
    (∃ (s u : State) (k : RingKey) (d : Desc) (key : DescKey) (g : GatherLists), dispatched s k d key u ∧
      dOpcode d = 0x32 ∧ passes d (updateBytes d) (updateChecks d u key) ∧ listFault d g (tableAt u (gaTable d)).rows = none) ∧
    (∃ (s u : State) (k : RingKey) (d : Desc) (key : DescKey) (g : GatherLists) (st : Status) (p : Nat), dispatched s k d key u ∧
      dOpcode d = 0x31 ∧ dfld d 0x10 17 16 = 0 ∧ passes d (gatherBytes d) (gatherChecks d u key) ∧
      listFault d g (tableAt u (gaTable d)).rows = some (st, p)) :=
  ⟨⟨fxm, du fxm rk dRegister, rk, dRegister, dk, disp_du _ _ _ _ (by decide +kernel), by unfold passes; decide +kernel⟩,
    ⟨fxm, du fxm rk (dTable 1 0), rk, dTable 1 0, dk, disp_du _ _ _ _ (by decide +kernel), by unfold passes; decide +kernel⟩,
    ⟨fxm, du fxm rk (dTable 2 1), rk, dTable 2 1, dk, [0], disp_du _ _ _ _ (by decide +kernel), by unfold passes; decide +kernel⟩,
    ⟨fxm, du fxm rk (dTable 3 1), rk, dTable 3 1, dk, [], disp_du _ _ _ _ (by decide +kernel), by unfold passes; decide +kernel⟩,
    ⟨fxm, du fxm rk (dTable 4 1), du fxm rk (dTable 4 1), rk, dTable 4 1, dk, [], 0, disp_du _ _ _ _ (by decide +kernel), by unfold passes; decide +kernel⟩,
    ⟨fxm, du fxm rk (dGather 0), rk, dGather 0, dk, fxLists, disp_du _ _ _ _ (by decide +kernel), by unfold passes; decide +kernel⟩,
    ⟨fxm, du fxm rk (dGather 1), rk, dGather 1, dk, fxLists, disp_du _ _ _ _ (by decide +kernel), by unfold passes; decide +kernel⟩,
    ⟨fxm, du fxm rk dUpdate, rk, dUpdate, dk, fxLists, disp_du _ _ _ _ (by decide +kernel), by unfold passes; decide +kernel⟩,
    ⟨fxm, du fxm rk (dGather 0), rk, dGather 0, dk, ⟨[1, 1], [0], [], []⟩, St.GTH_BAD_OFFSETS, 0, disp_du _ _ _ _ (by decide +kernel), by unfold passes; decide +kernel⟩⟩

theorem test_semaphore_commands_met :
    (∃ (s u : State) (k : RingKey) (d : Desc) (key : DescKey), dispatched s k d key u ∧ dOpcode d = 0x50 ∧
      dfld d 0x10 17 16 = 0 ∧ semHandle d / 16 = key.ctx ∧ passes d (signalBytes d) [] ∧
      semCount u (semHandle d) + dfld d 0x10 63 32 < 2 ^ 32) ∧
    (∃ (s u : State) (k : RingKey) (d : Desc) (key : DescKey), dispatched s k d key u ∧ dOpcode d = 0x50 ∧
      dfld d 0x10 17 16 = 0 ∧ semHandle d / 16 = key.ctx ∧ passes d (signalBytes d) [] ∧
      2 ^ 32 ≤ semCount u (semHandle d) + dfld d 0x10 63 32) ∧
    (∃ (s u : State) (k : RingKey) (d : Desc) (key : DescKey), dispatched s k d key u ∧ dOpcode d = 0x50 ∧
      dfld d 0x10 17 16 = 1 ∧ semHandle d / 16 = key.ctx ∧ passes d (signalBytes d) []) ∧
    (∃ (s u : State) (k : RingKey) (d : Desc) (key : DescKey), dispatched s k d key u ∧ dOpcode d = 0x51 ∧
      waitProt u d key = false ∧
      passes d (resv d 0x10 31 16 ++ badAt (dfld d 0x10 63 32 == 0) 0x10 32 ++ resv d 0x18 63 32 ++ resvWords d [0x20, 0x28, 0x30, 0x38]) [] ∧
      (∀ w ∈ u.sch.waiters, w.sem ≠ semHandle d) ∧ dfld d 0x10 63 32 ≤ semCount u (semHandle d)) ∧
    (∃ (s u : State) (k : RingKey) (d : Desc) (key : DescKey), dispatched s k d key u ∧ dOpcode d = 0x51 ∧
      waitProt u d key = false ∧
      passes d (resv d 0x10 31 16 ++ badAt (dfld d 0x10 63 32 == 0) 0x10 32 ++ resv d 0x18 63 32 ++ resvWords d [0x20, 0x28, 0x30, 0x38]) [] ∧
      semCount u (semHandle d) < dfld d 0x10 63 32) ∧
    (∃ (s : State) (key : DescKey) (w : Waiter), isUp s = true ∧
      s.sch.waiters.find? (fun w => w.flight == flightId key && w.limited) = some w) ∧
    (∃ (s : State) (c : Nat) (cause : BitVec 16), isUp s = true) ∧
    (∃ (s : State) (c : Nat) (x : Ctx) (t : Teardown), isUp s = true ∧ tget s.hpt.ctxs c = some x ∧ x.down = some t ∧
      t.fault = true ∧ t.started = true ∧ (∀ e ∈ s.hpt.flight, e.2.key.ctx ≠ c) ∧ (∀ e ∈ s.hpt.made, e.2 ≠ c) ∧
      (∀ q ∈ x.cqs, q.delayed = [])) :=
  ⟨⟨fxsem 3, du (fxsem 3) rk (dSem 0x50 16 0 1), rk, dSem 0x50 16 0 1, dk, disp_du _ _ _ _ (by decide +kernel), by unfold passes; decide +kernel⟩,
    ⟨fxsem (2 ^ 32 - 1), du (fxsem (2 ^ 32 - 1)) rk (dSem 0x50 16 0 1), rk, dSem 0x50 16 0 1, dk, disp_du _ _ _ _ (by decide +kernel), by unfold passes; decide +kernel⟩,
    ⟨fxsem 3, du (fxsem 3) rk (dSem 0x50 16 1 9), rk, dSem 0x50 16 1 9, dk, disp_du _ _ _ _ (by decide +kernel), by unfold passes; decide +kernel⟩,
    ⟨fxsem 3, du (fxsem 3) rk (dSem 0x51 16 0 3), rk, dSem 0x51 16 0 3, dk, disp_du _ _ _ _ (by decide +kernel), by unfold passes; decide +kernel⟩,
    ⟨fxsem 2, du (fxsem 2) rk (dSem 0x51 16 0 3), rk, dSem 0x51 16 0 3, dk, disp_du _ _ _ _ (by decide +kernel), by unfold passes; decide +kernel⟩,
    ⟨{ fx with sch := { fx.sch with waiters := [⟨16, flightId dk, 1, 0, 3, true⟩] } }, dk, ⟨16, flightId dk, 1, 0, 3, true⟩, by decide +kernel⟩,
    ⟨fx, 1, 0, by decide +kernel⟩,
    ⟨withCtx { fxCtx with down := some ⟨St.OK, true, true, 0, 0⟩ }, 1, { fxCtx with down := some ⟨St.OK, true, true, 0, 0⟩ }, ⟨St.OK, true, true, 0, 0⟩, by decide +kernel⟩⟩

theorem test_step_commands_met :
    (∃ (s : State) (est : StepEstimate), isUp s = true ∧ mayAdmit s = true ∧ servesDecode (role s) = true) ∧
    (∃ (s : State), isUp s = true ∧ mayAdmit s = true ∧ servesPrefill (role s) = true) ∧
    (∃ (s : State) (src : Nat) (words : List Word), isUp s = true ∧ epochRule s (bits (wordAt words 0) 31 0) = none ∧
      rosterBad words = false ∧ stepStarted s (wordAt words 1).toNat = false) ∧
    (∃ (s : State) (src : Nat) (words : List Word) (st : Status), isUp s = true ∧
      epochRule s (bits (wordAt words 0) 31 0) = some st) ∧
    (∃ (s : State) (src : Nat) (words : List Word), isUp s = true ∧ epochRule s (bits (wordAt words 0) 31 0) = none ∧
      rosterBad words = true) ∧
    (∃ (s : State) (src : Nat) (words : List Word), isUp s = true ∧ epochRule s (bits (wordAt words 0) 31 0) = none ∧
      rosterBad words = false ∧ stepStarted s (wordAt words 1).toNat = true) ∧
    (∃ (s : State) (u : MxeUnit) (p id : Nat), isUp s = true ∧ s.sch.running = some u ∧ u.left ≠ 0 ∧ s.mxe.bad = none ∧
      u.kind = .work id ∧ u.prio = some p) ∧
    (∃ (s : State) (u : MxeUnit) (p m : Nat), isUp s = true ∧ s.sch.running = some u ∧ u.left ≠ 0 ∧ s.mxe.bad = none ∧
      u.kind = .step m ∧ u.prio = some p) :=
  ⟨⟨fx, ⟨0, [], []⟩, by decide +kernel⟩,
    ⟨fx, by decide +kernel⟩,
    ⟨{ fx with sch := { fx.sch with started := 0 } }, 2, [at' 0 32 5, 0], by decide +kernel⟩,
    ⟨fx, 2, [at' 0 32 3, 0], St.DTM_STALE_MAP, by decide +kernel⟩,
    ⟨fx, 2, [mkWord [(0, 32, 5), (32, 8, 129)], 0], by decide +kernel⟩,
    ⟨{ fx with sch := { fx.sch with started := 1 } }, 2, [at' 0 32 5, 0], by decide +kernel⟩,
    ⟨{ fx with sch := { fx.sch with running := some ⟨2, 1, some 3, 0, .work 5, 1⟩ } }, ⟨2, 1, some 3, 0, .work 5, 1⟩, 3, 5, by decide +kernel⟩,
    ⟨{ fx with sch := { fx.sch with running := some ⟨0, 1, some 3, 0, .step 1, 1⟩ } }, ⟨0, 1, some 3, 0, .step 1, 1⟩, 3, 1, by decide +kernel⟩⟩

theorem test_take_start_met :
    (∃ (s u : State) (k : RingKey) (d : Desc) (key : DescKey), dispatched s k d key u ∧ dOpcode d = 0x40 ∧
      passes d (submitBytes d) (submitChecks d u key)) ∧
    (∃ (s : State) (key : DescKey) (d : Desc) (slate : List Word), isUp s = true ∧
      tget s.tak.submits (flightId key) = some d ∧
      firstFail (hostSlateChecks { s with tak := { s.tak with submits := tdel s.tak.submits (flightId key) } } d slate) = none ∧
      (slateOf slate).nodes.getD (slateOf slate).coord 0 = self s ∧ (slateOf slate).nodes ≠ [self s] ∧ takesOpen s < 4096) ∧
    (∃ (s : State) (key : DescKey) (d : Desc) (slate : List Word), isUp s = true ∧
      tget s.tak.submits (flightId key) = some d ∧
      firstFail (hostSlateChecks { s with tak := { s.tak with submits := tdel s.tak.submits (flightId key) } } d slate) = none ∧
      (slateOf slate).nodes = [self s] ∧ (slateOf slate).coord = 0) ∧
    (∃ (s : State) (key : DescKey) (d : Desc) (slate : List Word), isUp s = true ∧
      tget s.tak.submits (flightId key) = some d ∧
      firstFail (hostSlateChecks { s with tak := { s.tak with submits := tdel s.tak.submits (flightId key) } } d slate) = none ∧
      (slateOf slate).nodes.getD (slateOf slate).coord 0 ≠ self s) ∧
    (∃ (s : State) (src srcKey retries : Nat) (slate : List Word), isUp s = true ∧
      badOwner s.dtm.map (slateOf slate) = none ∧ takesOpen s < 4096) ∧
    (∃ (s : State) (src srcKey retries a : Nat) (host : Bool) (slate : List Word), isUp s = true ∧
      badOwner s.dtm.map (slateOf slate) = some a) ∧
    (∃ (s : State) (stamp : Nat) (sl : Slate) (who : TakeFor) (src : Source) (tries retries : Nat), self s ∉ sl.nodes) :=
  ⟨⟨fx, du fx rk dSubmit, rk, dSubmit, dk, disp_du _ _ _ _ (by decide +kernel), by unfold passes; decide +kernel⟩,
    ⟨fxt, dk, dSubmit, fxSlate [1, 3] 0 1 none, by decide +kernel⟩,
    ⟨fxt, dk, dSubmit, fxSlate [1] 0 0 none, by decide +kernel⟩,
    ⟨fxt, dk, dSubmit, fxSlate [1, 3] 1 0 none, by decide +kernel⟩,
    ⟨fx, 3, 9, 0, fxSlate [1, 3] 0 1 none, by decide +kernel⟩,
    ⟨fx, 3, 9, 0, 0, true, fxOwnerSlate, by decide +kernel⟩,
    ⟨fx, 1, slateOf (fxSlate [3, 4] 0 0 none), .plain, .block, 1, 0, by decide +kernel⟩⟩

theorem test_take_votes_met_1 :
    (∃ (s u : State) (m : PrepareMsg) (frames : Tbl Nat) (n : Nat), isUp s = true ∧ m.host = none ∧
      partOf (seeStamp s m.stamp) m.ref = none ∧ epochRule (seeStamp s m.stamp) (blockSlate m.slate).epoch = none ∧
      takesOpen (seeStamp s m.stamp) < 4096 ∧ exposed (seeStamp s m.stamp) = false ∧
      prepare (seeStamp s m.stamp) .block m.ref m.stamp (blockSlate m.slate).nodes (partActions (blockSlate m.slate) m.part) = .yes u frames n) ∧
    (∃ (s : State) (m : PrepareMsg) (i : Nat) (st : Status), isUp s = true ∧ m.host = none ∧
      partOf (seeStamp s m.stamp) m.ref = none ∧ epochRule (seeStamp s m.stamp) (blockSlate m.slate).epoch = none ∧
      takesOpen (seeStamp s m.stamp) < 4096 ∧
      prepare (seeStamp s m.stamp) .block m.ref m.stamp (blockSlate m.slate).nodes (partActions (blockSlate m.slate) m.part) = .no i st none) ∧
    (∃ (s : State) (m : PrepareMsg) (h : TakeRef), isUp s = true ∧ m.host = none ∧
      partOf (seeStamp s m.stamp) m.ref = none ∧ epochRule (seeStamp s m.stamp) (blockSlate m.slate).epoch = none ∧
      takesOpen (seeStamp s m.stamp) < 4096 ∧
      prepare (seeStamp s m.stamp) .block m.ref m.stamp (blockSlate m.slate).nodes (partActions (blockSlate m.slate) m.part) = .waits h) ∧
    (∃ (s : State) (m : PrepareMsg), isUp s = true ∧ m.host = none ∧ partOf (seeStamp s m.stamp) m.ref = none ∧
      epochRule (seeStamp s m.stamp) (blockSlate m.slate).epoch = some St.DTM_STALE_MAP) ∧
    (∃ (s : State) (r : TakeRef) (p : PartTake), isUp s = true ∧ partOf s r = some p ∧ r.node ≠ self s ∧
      p.state = .mirroring) ∧
    (∃ (s : State) (id : Nat) (p : PartTake) (c : CoordTake), isUp s = true ∧ partOf s ⟨self s, id⟩ = some p ∧
      tget s.tak.coord id = some c ∧ c.state = .mirroring) ∧
    (∃ (s : State) (m : VoteMsg) (c : CoordTake), isUp s = true ∧ tget s.tak.coord m.takeId = some c ∧ c.state = .voting ∧
      m.part < c.slate.nodes.length ∧ m.status = St.OK ∧ c.votes.contains m.part = false ∧
      c.votes.length + 1 ≠ c.slate.nodes.length) ∧
    (∃ (s : State) (m : VoteMsg) (c : CoordTake), isUp s = true ∧ tget s.tak.coord m.takeId = some c ∧ c.state = .voting ∧
      m.part < c.slate.nodes.length ∧ m.status = St.OK ∧ c.votes.contains m.part = false ∧
      c.votes.length + 1 = c.slate.nodes.length) ∧
    (∃ (s : State) (m : VoteMsg) (c : CoordTake), isUp s = true ∧ tget s.tak.coord m.takeId = some c ∧ c.state = .voting ∧
      m.part < c.slate.nodes.length ∧ m.status ≠ St.OK) ∧
    (∃ (s : State) (m : VoteMsg) (c : CoordTake), isUp s = true ∧ tget s.tak.coord m.takeId = some c ∧ c.state ≠ .voting) ∧
    (∃ (s : State) (id part : Nat) (c : CoordTake), isUp s = true ∧ tget s.tak.coord id = some c ∧ c.state = .voting ∧
      part < c.slate.nodes.length ∧ c.votes.contains part = false) ∧
    (∃ (s : State) (id : Nat) (c : CoordTake), exposed s = false) :=
  ⟨⟨wr fx F.CON_STAT_EXPOSED 0, yesOf fx (prepare (seeStamp (wr fx F.CON_STAT_EXPOSED 0) 10) .block ⟨3, 1⟩ 10 [1, 3] (partActions (blockSlate (fxSlate [1, 3] 1 0 none)) 0)), fxPrep none, [], 1, by decide +kernel⟩,
    ⟨fx, fxPrep (some 1), 0, St.TAK_CHECK_FAIL, by decide +kernel⟩,
    ⟨fxParts [(⟨4, 9⟩, fxPart .prepared)] [⟨⟨7, 0, 0⟩, true, ⟨4, 9⟩⟩], fxPrep none, ⟨4, 9⟩, by decide +kernel⟩,
    ⟨fx, { fxPrep none with slate := ((fxSlate [1, 3] 1 0 none).take 1 ++ [3] ++ (fxSlate [1, 3] 1 0 none).drop 2) }, by decide +kernel⟩,
    ⟨fxParts [(⟨3, 1⟩, fxPart .mirroring)] [], ⟨3, 1⟩, fxPart .mirroring, by decide +kernel⟩,
    ⟨{ fxCo (fxCoord .mirroring [1, 3] [] []) with tak := { (fxCo (fxCoord .mirroring [1, 3] [] [])).tak with part := [(⟨1, 1⟩, fxPart .mirroring)] } }, 1, fxPart .mirroring, fxCoord .mirroring [1, 3] [] [], by decide +kernel⟩,
    ⟨fxCo (fxCoord .voting [1, 3, 4] [0] []), ⟨1, 1, 20, St.OK, 0, none⟩, fxCoord .voting [1, 3, 4] [0] [], by decide +kernel⟩,
    ⟨fxCo (fxCoord .voting [1, 3] [0] []), ⟨1, 1, 20, St.OK, 0, none⟩, fxCoord .voting [1, 3] [0] [], by decide +kernel⟩,
    ⟨fxCo (fxCoord .voting [1, 3] [0] []), ⟨1, 1, 20, St.TAK_CONFLICT, 0, none⟩, fxCoord .voting [1, 3] [0] [], by decide +kernel⟩,
    ⟨fxCo (fxCoord .announced [1, 3] [0] []), ⟨1, 1, 20, St.OK, 0, none⟩, fxCoord .announced [1, 3] [0] [], by decide +kernel⟩,
    ⟨fxCo (fxCoord .voting [1, 3] [0] []), 1, 1, fxCoord .voting [1, 3] [0] [], by decide +kernel⟩,
    ⟨wr fx F.CON_STAT_EXPOSED 0, 1, fxCoord .voting [1, 3] [0] [], by decide +kernel⟩⟩

theorem test_take_votes_met_2 :
    ∃ (s : State) (id : Nat) (c : CoordTake), exposed s = true :=
  ⟨wr fx F.CON_STAT_EXPOSED 1, 1, fxCoord .voting [1, 3] [0] [], by decide +kernel⟩

theorem test_take_outcome_met_1 :
    (∃ (s : State) (id n : Nat) (c : CoordTake), isUp s = true ∧ tget s.tak.coord id = some c ∧ c.state = .decided ∧
      n ∈ c.slate.nodes ∧ n ≠ self s) ∧
    (∃ (s : State) (r : TakeRef) (stamp : Nat) (p : PartTake), isUp s = true ∧ partOf (seeStamp s stamp) r = some p ∧
      isPrepared p = true) ∧
    (∃ (s : State) (r : TakeRef) (stamp : Nat) (p : PartTake), isUp s = true ∧ partOf (seeStamp s stamp) r = some p) ∧
    (∃ (s : State) (r : TakeRef) (stamp : Nat), isUp s = true ∧ partOf (seeStamp s stamp) r = none) ∧
    (∃ (s : State) (id node stamp n : Nat) (c : CoordTake), isUp s = true ∧ tget s.tak.coord id = some c ∧
      c.state = .announced ∧ c.acks.contains node = false ∧ n ∈ c.slate.nodes ∧ n ≠ self (seeStamp s stamp) ∧ n ≠ node ∧
      n ∉ c.acks) ∧
    (∃ (s : State) (id node stamp : Nat) (c : CoordTake), isUp s = true ∧ tget s.tak.coord id = some c ∧
      c.state = .announced ∧ c.acks.contains node = false ∧
      (∀ n ∈ c.slate.nodes, n = self (seeStamp s stamp) ∨ n = node ∨ n ∈ c.acks)) ∧
    (∃ (s : State) (key takeId action part tries : Nat) (st ps : Status) (who : TakeFor), isUp s = true ∧
      tget s.tak.forwarded key = some who) ∧
    (∃ (s : State) (r : TakeRef) (p : PartTake), isUp s = true ∧ partOf s r = some p ∧ p.state = .prepared ∧
      r.node ≠ self s) ∧
    (∃ (s : State) (r : TakeRef) (p : PartTake) (b : Bool), isUp s = true ∧ partOf s r = some p ∧ p.state = .doubt b) ∧
    (∃ (s : State) (src id stamp : Nat), isUp s = true ∧ tget s.tak.coord id = none) ∧
    (∃ (s : State) (src id stamp : Nat), isUp s = true ∧ tget s.tak.coord id = some (fxCoord .announced [1, 3] [] [])) ∧
    (∃ (s : State) (src id stamp : Nat), isUp s = true ∧ tget s.tak.coord id = some (fxCoord .voting [1, 3] [] [])) :=
  ⟨⟨fxCo (fxCoord .decided [1, 3] [0] []), 1, 3, fxCoord .decided [1, 3] [0] [], by decide +kernel⟩,
    ⟨fxParts [(⟨3, 1⟩, fxPart .prepared)] [], ⟨3, 1⟩, 20, fxPart .prepared, by decide +kernel⟩,
    ⟨fxParts [(⟨3, 1⟩, fxPart .prepared)] [], ⟨3, 1⟩, 20, fxPart .prepared, by decide +kernel⟩,
    ⟨fx, ⟨3, 1⟩, 20, by decide +kernel⟩,
    ⟨fxCo (fxCoord .announced [1, 3, 4] [] []), 1, 3, 20, 4, fxCoord .announced [1, 3, 4] [] [], by decide +kernel⟩,
    ⟨fxCo (fxCoord .announced [1, 3, 4] [] [4]), 1, 3, 20, fxCoord .announced [1, 3, 4] [] [4], by decide +kernel⟩,
    ⟨{ fx with tak := { fx.tak with forwarded := [(2, .plain)] } }, 2, 1, 0, 0, 1, St.OK, St.OK, .plain, by decide +kernel⟩,
    ⟨fxParts [(⟨3, 1⟩, fxPart .prepared)] [], ⟨3, 1⟩, fxPart .prepared, by decide +kernel⟩,
    ⟨fxParts [(⟨3, 1⟩, fxPart (.doubt false))] [], ⟨3, 1⟩, fxPart (.doubt false), false, by decide +kernel⟩,
    ⟨fx, 3, 1, 20, by decide +kernel⟩,
    ⟨fxCo (fxCoord .announced [1, 3] [] []), 3, 1, 20, by decide +kernel⟩,
    ⟨fxCo (fxCoord .voting [1, 3] [] []), 3, 1, 20, by decide +kernel⟩⟩

theorem test_take_outcome_met_2 :
    (∃ (s : State) (id : Nat) (c : CoordTake) (r : TakeRef), isUp s = true ∧ tget s.tak.coord id = some c ∧
      c.state = .retrying r) ∧
    (∃ (s : State) (r : TakeRef) (id : Nat) (c : CoordTake), isUp s = true ∧
      s.tak.coord.filter (fun e => e.2.state == .retrying r) = [(id, c)]) :=
  ⟨⟨fxCo (fxCoord (.retrying ⟨3, 1⟩) [1, 3] [] []), 1, fxCoord (.retrying ⟨3, 1⟩) [1, 3] [] [], ⟨3, 1⟩, by decide +kernel⟩,
    ⟨fxCo (fxCoord (.retrying ⟨3, 1⟩) [1, 3] [] []), ⟨3, 1⟩, 1, fxCoord (.retrying ⟨3, 1⟩) [1, 3] [] [], by decide +kernel⟩⟩

theorem test_matrix_units_met :
    (∃ (s : State) (flight kernel unit core : Nat) (sums : List ChecksumPair) (numeric : Bool), isUp s = true ∧
      unitKnown s flight = true ∧ (coreAt s core).st = .active ∧ core < 100 ∧ sumsPass s kernel sums = true) ∧
    (∃ (s : State) (flight kernel unit core : Nat) (sums : List ChecksumPair) (numeric : Bool), isUp s = true ∧
      unitKnown s flight = true ∧ (coreAt s core).st = .active ∧ core < 100 ∧ sumsPass s kernel sums = false) ∧
    (∃ (s : State) (flight kernel unit core : Nat) (sums : List ChecksumPair) (numeric : Bool) (r : Retry), isUp s = true ∧
      s.mxe.retries.find? (fun r => r.flight == flight && r.kernel == kernel && r.unit == unit) = some r ∧
      mayRetry s r.core core = true ∧ sumsPass s kernel sums = true) ∧
    (∃ (s : State) (flight kernel unit core : Nat) (sums : List ChecksumPair) (numeric : Bool) (r : Retry), isUp s = true ∧
      s.mxe.retries.find? (fun r => r.flight == flight && r.kernel == kernel && r.unit == unit) = some r ∧
      mayRetry s r.core core = true ∧ sumsPass s kernel sums = false) ∧
    (∃ (s : State) (c : Nat) (heir : Option Nat), (coreAt s c).strike = false) ∧
    (∃ (s : State) (c : Nat) (heir : Option Nat), (coreAt s c).strike = true) ∧
    (∃ (s : State) (flight tensor block : Nat) (x : Tensor) (codes : List Nat), isUp s = true ∧
      tget s.mxe.tensors tensor = some x ∧ x.coded = true ∧ block < blocksOf x.rows x.cols ∧ unitKnown s flight = true ∧
      prologueOk (readMem s x.base 256) x.fmt (blocksOf x.rows x.cols) = true ∧ readBlock s x block = .ok codes) ∧
    (∃ (s : State) (flight tensor block : Nat) (x : Tensor), isUp s = true ∧ tget s.mxe.tensors tensor = some x ∧
      x.coded = true ∧ block < blocksOf x.rows x.cols ∧ unitKnown s flight = true ∧
      prologueOk (readMem s x.base 256) x.fmt (blocksOf x.rows x.cols) = true ∧
      readBlock s x block = .error St.EXP_BLOCK_CRC) ∧
    (∃ (s : State) (flight tensor block : Nat) (x : Tensor) (st : Status), isUp s = true ∧
      tget s.mxe.tensors tensor = some x ∧ x.coded = true ∧ block < blocksOf x.rows x.cols ∧ unitKnown s flight = true ∧
      st ≠ St.EXP_BLOCK_CRC ∧ prologueOk (readMem s x.base 256) x.fmt (blocksOf x.rows x.cols) = true ∧
      readBlock s x block = .error st) ∧
    (∃ (s : State) (flight tensor block : Nat) (x : Tensor), isUp s = true ∧ tget s.mxe.tensors tensor = some x ∧
      (flight, tensor, block) ∈ s.mxe.reread ∧ readBlock s x block = .ok (List.replicate 4096 0)) ∧
    (∃ (s : State) (flight tensor block : Nat) (x : Tensor), isUp s = true ∧ tget s.mxe.tensors tensor = some x ∧
      (flight, tensor, block) ∈ s.mxe.reread ∧ readBlock s x block = .error St.EXP_BAD_BLOCK) :=
  ⟨⟨fxrun, 0, 1, 0, 0, [⟨0, 0, 0⟩], false, by decide +kernel⟩,
    ⟨fxrun, 0, 1, 0, 0, [badPair], false, by decide +kernel⟩,
    ⟨fxretry, 0, 1, 0, 97, [⟨0, 0, 0⟩], false, ⟨0, 1, 0, 0⟩, by decide +kernel⟩,
    ⟨fxretry, 0, 1, 0, 97, [badPair], false, ⟨0, 1, 0, 0⟩, by decide +kernel⟩,
    ⟨fx, 0, none, by decide +kernel⟩,
    ⟨{ fx with mxe := { fx.mxe with cores := fx.mxe.cores.set 0 { MxCore.fresh .active 0 with strike := true } } }, 0, none, by decide +kernel⟩,
    ⟨fxcont (fxBlock.take 64), 0, 1, 0, fxCoded, List.replicate 4096 0, by exact ⟨by decide +kernel, by decide +kernel, by decide +kernel, by decide +kernel, by decide +kernel, by decide +kernel, fxcont_reads⟩⟩,
    ⟨fxcont (0 :: 1 :: fxBlock.take 64), 0, 1, 0, fxCoded, by decide +kernel⟩,
    ⟨fxcont (sealBlock (wordBytes (mkWord [(0, 2, 2), (8, 8, 1)]) ++ List.replicate 56 0)), 0, 1, 0, fxCoded, St.EXP_BAD_BLOCK, by decide +kernel⟩,
    ⟨fxcont (fxBlock.take 64), 0, 1, 0, fxCoded, by exact ⟨by decide +kernel, by decide +kernel, by decide +kernel, fxcont_reads⟩⟩,
    ⟨fxcont (sealBlock (wordBytes (mkWord [(0, 2, 2), (8, 8, 1)]) ++ List.replicate 56 0)), 0, 1, 0, fxCoded, by decide +kernel⟩⟩

theorem test_core_commands_met :
    (∃ (s : State) (c : Nat), rd s F.SEC_PROT_LOCK_LOCK = 1 ∧ rd s F.MXE_CORE_CMD_STAT_BUSY = 0 ∧ c < 100 ∧
      (coreAt s c).st = .retired) ∧
    (∃ (s : State) (c : Nat), rd s F.SEC_PROT_LOCK_LOCK = 1 ∧ rd s F.MXE_CORE_CMD_STAT_BUSY = 0 ∧ 100 ≤ c) ∧
    (∃ (s : State) (c : Nat), rd s F.SEC_PROT_LOCK_LOCK = 1 ∧ rd s F.MXE_CORE_CMD_STAT_BUSY = 0 ∧ c < 100 ∧
      (coreAt s c).st ≠ .retired) ∧
    (∃ (s : State) (c : Nat), rd s F.SEC_PROT_LOCK_LOCK = 1 ∧ rd s F.MXE_CORE_CMD_STAT_BUSY = 0 ∧ c < 100 ∧
      (coreAt s c).st = .active ∧ (1 < activeCores s ∨ coresIn s .spare ≠ 0)) ∧
    (∃ (s : State) (c : Nat), rd s F.SEC_PROT_LOCK_LOCK = 1 ∧ rd s F.MXE_CORE_CMD_STAT_BUSY = 0 ∧ c < 100 ∧
      (coreAt s c).st = .spare) ∧
    (∃ (s : State) (c : Nat), rd s F.SEC_PROT_LOCK_LOCK = 1 ∧ rd s F.MXE_CORE_CMD_STAT_BUSY = 0 ∧ c < 100 ∧
      (coreAt s c).st = .active ∧ activeCores s ≤ 1 ∧ coresIn s .spare = 0) ∧
    (∃ (s : State) (c : Nat), isUp s = true ∧ (coreAt s c).st = .test ∧ s.mxe.cmd = some (true, c)) :=
  ⟨⟨fxcore .retired, 99, by decide +kernel⟩,
    ⟨fx, 100, by decide +kernel⟩,
    ⟨fx, 99, by decide +kernel⟩,
    ⟨fx, 0, by decide +kernel⟩,
    ⟨fx, 99, by decide +kernel⟩,
    ⟨{ fx with mxe := { fx.mxe with cores := [MxCore.fresh .active 0] } }, 0, by decide +kernel⟩,
    ⟨{ fxcore .test with mxe := { (fxcore .test).mxe with cmd := some (true, 99) } }, 99, by decide +kernel⟩⟩

theorem test_page_commands_met_1 :
    (∃ (s : State) (a : AppendBatch) (root : Root) (r : Req), isUp s = true ∧ tget s.kva.roots a.req = some root ∧
      reqOf s a.req = some r ∧ a.req ∉ s.kva.skip ∧ root.lease ≠ 0 ∧ leaseLive s a.req = true ∧
      s.kva.mapped.any (fun k => pageReq k == a.req && pageStandin k == a.standin) = true) ∧
    (∃ (s : State) (a : AppendBatch) (root : Root) (r : Req), isUp s = true ∧ tget s.kva.roots a.req = some root ∧
      reqOf s a.req = some r ∧ a.req ∉ s.kva.skip ∧ reshootHere s a.req = false ∧
      (root.lease = 0 ∨ leaseLive s a.req = false)) ∧
    (∃ (s : State), isUp s = true ∧ role s = 3) ∧
    (∃ (s : State), isUp s = true ∧ role s ≠ 3) ∧
    (∃ (s : State) (c : Nat), isUp s = true ∧ c < 4 ∧ role s ≠ 3 ∧ rd s F.KVA_POOL_CTL_EN ≠ 0 ∧ belowLow s c = true) ∧
    (∃ (s : State) (c : Nat), isUp s = true ∧ c < 4 ∧ role s = 3 ∧ rd s F.KVA_POOL_CTL_EN ≠ 0 ∧ belowLow s c = true) ∧
    (∃ (s : State) (c : Nat), isUp s = true ∧ c < 4 ∧ belowLow s c = false) ∧
    (∃ (s : State) (f flashAddr k : Nat) (x : Frame), isUp s = true ∧ tget s.kva.demoting f = some k ∧
      tget s.kva.frames f = some x ∧ x.stamp < kvaAge s) ∧
    (∃ (s : State) (f flashAddr k : Nat) (x : Frame), isUp s = true ∧ tget s.kva.demoting f = some k ∧
      tget s.kva.frames f = some x ∧ kvaAge s ≤ x.stamp) ∧
    (∃ (s u : State) (page : PageKey) (bytes : List Byte) (r : Local), isUp s = true ∧
      pageKey page.req (page.layer * 256 + page.head) page.page = pg ∧ pteOf s pg = ⟨2 ^ 30, 1, 2, 1, false, 0, 0, 0⟩ ∧
      aboveLow s 1 = true ∧
      runLocal s .block .plain [⟨0, ⟨kFrame, 0, 0⟩, .alloc 1⟩, ⟨0, pageObj pg, .ptMap 1 0 (some 0) 2 (pteFlags 1 1 false)⟩, ⟨0, pageObj pg, .putEntry (mkWord [(36, 8, 0), (44, 8, 0)])⟩] = (u, r) ∧
      r.committed = true) ∧
    (∃ (s : State) (page : PageKey) (bytes : List Byte), isUp s = true ∧ (pteOf s (keyOfPage page)).state = 2 ∧
      aboveLow s (pteOf s (keyOfPage page)).cls = false) ∧
    (∃ (s : State) (src req highest count : Nat) (lost : Bool), isUp s = true ∧ leadsFor s req = true) :=
  ⟨⟨fxk 1 1 4 1, ⟨7, false, 0, 0, 0, [], []⟩, ⟨0, 1, 1, 1, 1, 1, 1⟩, fxReq, by decide +kernel⟩,
    ⟨fxk 0 1 4 1, ⟨7, false, 0, 0, 0, [], []⟩, ⟨0, 1, 1, 1, 1, 0, 1⟩, fxReq, by decide +kernel⟩,
    ⟨wr fx F.GLK_NODE_NODE_ID 3, by decide +kernel⟩,
    ⟨fx, by decide +kernel⟩,
    ⟨fxk 1 1 1 1, 1, by decide +kernel⟩,
    ⟨wr (fxk 1 1 1 1) F.GLK_NODE_NODE_ID 3, 1, by decide +kernel⟩,
    ⟨fx, 0, by decide +kernel⟩,
    ⟨fxdem 5 4, 2 ^ 30, 0, pg, ⟨4, some pg, false⟩, by decide +kernel⟩,
    ⟨fxdem 5 5, 2 ^ 30, 0, pg, ⟨5, some pg, false⟩, by decide +kernel⟩,
    ⟨fxk 1 2 4 1, (runLocal (fxk 1 2 4 1) .block .plain [⟨0, ⟨kFrame, 0, 0⟩, .alloc 1⟩, ⟨0, pageObj pg, .ptMap 1 0 (some 0) 2 (pteFlags 1 1 false)⟩, ⟨0, pageObj pg, .putEntry (mkWord [(36, 8, 0), (44, 8, 0)])⟩]).1, ⟨7, 0, 0, 0⟩, [], .done St.OK 0 St.OK, by decide +kernel⟩,
    ⟨wr (fxk 1 2 4 1) F.KVA_POOL_CTL_EN 0, ⟨7, 0, 0, 0⟩, [], by decide +kernel⟩,
    ⟨fxr, 1, 7, 0, 1, false, by decide +kernel⟩⟩

theorem test_page_commands_met_2 :
    (∃ (s : State) (src req highest count : Nat) (lost : Bool) (r : Req), reqOf s req = some r ∧ noticesOf s req = [] ∧
      count ≠ 0) ∧
    (∃ (s : State) (req inCount origin flight : Nat), isUp s = true ∧ leadsFor s req = true ∧
      thas s.kva.reshoots req = false) ∧
    (∃ (s : State) (req inCount origin flight : Nat), isUp s = true ∧ leadsFor s req = false) ∧
    (∃ (s : State) (req inCount origin flight : Nat), reshootEnd s req = 0) ∧
    (∃ (s : State) (req inCount origin flight : Nat), reshootEnd s req ≠ 0 ∧ thas s.kva.reshoots req = true) ∧
    (∃ (s : State) (req inCount origin flight : Nat), reshootEnd s req ≠ 0 ∧ thas s.kva.reshoots req = false ∧
      inCount ≠ reshootEnd s req) ∧
    (∃ (s : State) (req inCount origin flight : Nat), reshootEnd s req ≠ 0 ∧ thas s.kva.reshoots req = false ∧
      inCount = reshootEnd s req) ∧
    (∃ (s : State) (req : Nat) (r : Reshoot), isUp s = true ∧ tget s.kva.reshoots req = some r ∧
      (∀ e ∈ missing s req, r.upto ≤ pageStart e.1)) ∧
    (∃ (s : State) (req : Nat) (a : ReshootEnd), isUp s = true ∧ thas s.kva.asks a.flight = true ∧
      reshootHere (answerReshoot s (self s) a.flight a.status a.repaired) req = false) ∧
    (∃ (s : State) (w : Word), rd s F.SEC_PROT_LOCK_LOCK = 1 ∧ bit w 63 = true ∧ rd s F.KVA_POOL_CTL_EN = 0 ∧
      poolOk (wr s F.KVA_POOL_CTL_SCALE_BASE_MIB (bits w 19 0)) = true) ∧
    (∃ (s : State) (w : Word), rd s F.SEC_PROT_LOCK_LOCK = 1 ∧ bit w 63 = true ∧ rd s F.KVA_POOL_CTL_EN = 0 ∧
      poolOk (wr s F.KVA_POOL_CTL_SCALE_BASE_MIB (bits w 19 0)) = false) ∧
    (∃ (s : State) (w : Word), rd s F.SEC_PROT_LOCK_LOCK = 1 ∧ bit w 63 = true ∧ rd s F.KVA_POOL_CTL_EN = 1) :=
  ⟨⟨fxr, 1, 7, 0, 1, false, fxReq, by decide +kernel⟩,
    ⟨fxr, 7, 1, 1, 5, by decide +kernel⟩,
    ⟨{ fxr with sch := { fxr.sch with reqs := [(7, { fxReq with group := 5 })] } }, 7, 1, 1, 5, by decide +kernel⟩,
    ⟨fxr, 7, 1, 1, 5, by decide +kernel⟩,
    ⟨fxshoot true, 7, 1, 1, 5, by decide +kernel⟩,
    ⟨fxshoot false, 7, 2, 1, 5, by decide +kernel⟩,
    ⟨fxshoot false, 7, 1, 1, 5, by decide +kernel⟩,
    ⟨fxshoot true, 7, ⟨1, 1, 5⟩, by decide +kernel⟩,
    ⟨fxshoot true, 7, ⟨5, St.OK, 1⟩, by decide +kernel⟩,
    ⟨fxpool 16, mkWord [(0, 20, 64), (63, 1, 1)], by decide +kernel⟩,
    ⟨fxpool 64, mkWord [(0, 20, 64), (63, 1, 1)], by decide +kernel⟩,
    ⟨fxk 1 1 4 1, mkWord [(0, 20, 64), (63, 1, 1)], by decide +kernel⟩⟩

theorem test_page_commands_met_3 :
    (∃ (s : State) (w : Word), rd s F.SEC_PROT_LOCK_LOCK = 1 ∧ bit w 63 = false ∧ rd s F.KVA_POOL_CTL_EN = 1 ∧
      s.kva.frames = []) ∧
    (∃ (s : State) (w : Word), rd s F.SEC_PROT_LOCK_LOCK = 1 ∧ bit w 63 = false ∧ rd s F.KVA_POOL_CTL_EN = 1 ∧
      s.kva.frames ≠ []) :=
  ⟨⟨fxk 1 1 4 0, 0, by decide +kernel⟩,
    ⟨fxk 1 1 4 1, 0, by decide +kernel⟩⟩

theorem test_attention_commands_met_1 :
    (∃ (s : State) (p : PassKey) (r : Req), isUp s = true ∧ reqOf s p.req = some r ∧ p.req ∉ s.kva.skip ∧ role s = 3) ∧
    (∃ (s : State) (p : PassKey) (r : Req), isUp s = true ∧ reqOf s p.req = some r ∧ p.req ∉ s.kva.skip ∧ role s ≠ 3 ∧
      runsStandin s p.req = false ∧
      (∀ x ∈ p.rows, absentPage s p.req p.layer p.head (rowRange r (rowMask s r.model p.layer) x).1 (min (rowRange r (rowMask s r.model p.layer) x).2 r.committed) (runsStandin s p.req) = none) ∧
      (∀ x ∈ p.rows, memberAt s p.req (querySlot (groupSize s) (kvHeads s) (kvGroup s) x.qhead) ≠ some (self s))) ∧
    (∃ (s : State) (p : PassKey) (r : Req) (k : Nat) (lost : Bool), isUp s = true ∧ reqOf s p.req = some r ∧
      p.req ∉ s.kva.skip ∧ role s ≠ 3 ∧ runsStandin s p.req = false ∧
      p.rows.findSome? (fun x => absentPage s p.req p.layer p.head (rowRange r (rowMask s r.model p.layer) x).1 (min (rowRange r (rowMask s r.model p.layer) x).2 r.committed) (runsStandin s p.req)) = some (k, lost)) ∧
    (∃ (s : State) (words : List Word) (num : List (BitVec 32)) (r : Req), isUp s = true ∧
      reqOf s (bits (wordAt words 0) 47 0) = some r ∧ partialBad words = false ∧ bits (wordAt words 3) 63 48 = 0) ∧
    (∃ (s : State) (t : Nat) (words : List Word) (num : List (BitVec 32)) (r : Req) (a : PartialAsk), isUp s = true ∧
      reqOf s (bits (wordAt words 0) 47 0) = some r ∧ partialBad words = false ∧ bits (wordAt words 3) 63 48 = 0 ∧
      tget s.att.asks t = some a ∧ a.rows = 1) ∧
    (∃ (s : State) (tag : Option Nat) (words : List Word) (num : List (BitVec 32)) (r : Req), isUp s = true ∧
      reqOf s (bits (wordAt words 0) 47 0) = some r ∧ partialBad words = true) ∧
    (∃ (s : State) (hdr entries : List Word), isUp s = true ∧ partialCheck s hdr = none ∧
      missing s (bits (wordAt hdr 0) 47 0) = []) ∧
    (∃ (s : State) (hdr entries : List Word), isUp s = true ∧ partialCheck s hdr = some St.ATT_BAD_PREQ ∧
      missing s (bits (wordAt hdr 0) 47 0) = []) ∧
    (∃ (s : State) (req tag : Nat) (a : PartialAsk) (r : Req), isUp s = true ∧ tget s.att.asks tag = some a ∧
      a.req = req ∧ reqOf s req = some r) ∧
    (∃ (s : State) (j : Nat) (w : Word), rd s F.SEC_PROT_LOCK_LOCK = 1 ∧ bit w 63 = true ∧ j < 16 ∧
      rdi s F.ATT_BIND_EN j = 0) ∧
    (∃ (s : State) (j : Nat) (w : Word), rd s F.SEC_PROT_LOCK_LOCK = 1 ∧ bit w 63 = false ∧ j < 16 ∧
      rdi s F.ATT_BIND_EN j = 1 ∧ modelInUse s (rdi s F.ATT_BIND_MODEL j) = false) ∧
    (∃ (s : State) (j : Nat) (w : Word), rd s F.SEC_PROT_LOCK_LOCK = 1 ∧ bit w 63 = false ∧ j < 16 ∧
      rdi s F.ATT_BIND_EN j = 1 ∧ modelInUse s (rdi s F.ATT_BIND_MODEL j) = true) :=
  ⟨⟨wr fxr F.GLK_NODE_NODE_ID 3, ⟨7, 0, 0, [], [], []⟩, fxReq, by decide +kernel⟩,
    ⟨two (fxk 1 1 4 1), ⟨7, 0, 0, [⟨1, 0, 0, none, []⟩], [], []⟩, fxReq, by decide +kernel⟩,
    ⟨fxk 1 2 4 1, ⟨7, 0, 0, [⟨1, 0, 0, none, []⟩], [], []⟩, fxReq, pg, false, by decide +kernel⟩,
    ⟨fxr, fxRec, [], fxReq, by decide +kernel⟩,
    ⟨fxask fxr, 4, fxRec, [], fxReq, ⟨7, 0, 0, 3, 1⟩, by decide +kernel⟩,
    ⟨fxr, none, [7, at' 32 32 l32Zero, at' 63 1 1, 0], [], fxReq, by decide +kernel⟩,
    ⟨fxk 1 1 4 1, [mkWord [(0, 48, 7), (48, 16, 1)], mkWord [(16, 9, 1), (32, 32, 5)], at' 23 23 1], [], by decide +kernel⟩,
    ⟨fxk 1 1 4 1, [mkWord [(0, 48, 7), (48, 16, 1)], mkWord [(32, 32, 5)], at' 23 23 1], [], by decide +kernel⟩,
    ⟨fxask fxr, 7, 4, ⟨7, 0, 0, 3, 1⟩, fxReq, by decide +kernel⟩,
    ⟨fx, 1, at' 63 1 1, by decide +kernel⟩,
    ⟨fx, 0, 0, by decide +kernel⟩,
    ⟨fxr, 0, 0, by decide +kernel⟩⟩

theorem test_attention_commands_met_2 :
    (∃ (s : State) (p : Nat) (w : Word), rd s F.SEC_PROT_LOCK_LOCK = 1 ∧ p < 64 ∧ profInUse s p = false ∧ profBad w = false) ∧
    (∃ (s : State) (p : Nat) (w : Word), rd s F.SEC_PROT_LOCK_LOCK = 1 ∧ p < 64 ∧ profInUse s p = false ∧ profBad w = true) ∧
    (∃ (s : State) (p : Nat) (w : Word), rd s F.SEC_PROT_LOCK_LOCK = 1 ∧ p < 64 ∧ profInUse s p = true) :=
  ⟨⟨fx, 1, 0, by decide +kernel⟩,
    ⟨fx, 1, mkWord [(0, 1, 1), (2, 2, 3)], by decide +kernel⟩,
    ⟨fx, 0, 0, by decide +kernel⟩⟩

theorem test_sampler_commands_met_1 :
    (∃ (s : State) (req node home : Nat) (r : Req) (logits : List (BitVec 32)), isUp s = true ∧ reqOf s req = some r ∧
      samplingHome s req = some home ∧ req ∉ s.kva.skip ∧ node < treeSize s req r ∧ r.sampleMode = 0 ∧ pInvTemp r.param = 0) ∧
    (∃ (s : State) (req node home : Nat) (r : Req) (logits : List (BitVec 32)) (heads : List (List (BitVec 32))), isUp s = true ∧
      reqOf s req = some r ∧ samplingHome s req = some home ∧ req ∉ s.kva.skip ∧ node < treeSize s req r ∧ r.sampleMode = 2) ∧
    (∃ (s : State) (slot : Nat) (words : List Word) (r : Req), isUp s = true ∧
      reqOf s (bits (wordAt words 0) 47 0) = some r ∧ samplingHome s (bits (wordAt words 0) 47 0) = some (self s) ∧
      (tset ((tget s.smp.rows (smpRow (bits (wordAt words 0) 47 0) (bits (wordAt words 0) 53 48))).getD ⟨[], none, []⟩).summaries slot words).length < groupSize s) ∧
    (∃ (s : State) (slot : Nat) (words : List Word) (r : Req), isUp s = true ∧
      reqOf s (bits (wordAt words 0) 47 0) = some r ∧ samplingHome s (bits (wordAt words 0) 47 0) = some (self s) ∧
      groupSize s ≤ (tset ((tget s.smp.rows (smpRow (bits (wordAt words 0) 47 0) (bits (wordAt words 0) 53 48))).getD ⟨[], none, []⟩).summaries slot words).length) ∧
    (∃ (s : State) (req node : Nat) (theta : BitVec 16) (r : Req) (codes : List Nat), isUp s = true ∧
      reqOf s req = some r ∧ tget s.smp.codes (smpRow req node) = some codes) ∧
    (∃ (s : State) (m : DrawMsg) (r : Req), isUp s = true ∧ reqOf s m.req = some r ∧
      samplingHome s m.req = some (self s) ∧ 0 < treeSize (drawn s m) m.req r ∧
      ((tget (drawn s m).smp.rows (smpRow m.req 0)).elim [] (fun x => x.draws)).length ≠ groupSize (drawn s m)) ∧
    (∃ (s : State) (m : DrawMsg) (r : Req), isUp s = true ∧ reqOf s m.req = some r ∧
      samplingHome s m.req = some (self s) ∧
      (∀ t, t < treeSize (drawn s m) m.req r → ((tget (drawn s m).smp.rows (smpRow m.req t)).elim [] (fun x => x.draws)).length = groupSize (drawn s m))) ∧
    (∃ (s : State) (m : VerifyMsg), isUp s = true ∧ m.req ∈ s.kva.skip) ∧
    (∃ (s : State) (m : VerifyMsg), isUp s = true ∧ reqOf s m.req = none) ∧
    (∃ (s : State) (src step : Nat) (reqs : List Nat), isUp s = true) ∧
    (∃ (s : State) (src step req n : Nat) (x : SmpResult) (r : Req), tget s.smp.results req = some x ∧
      reqOf s req = some r ∧ x.step = step ∧ src ∉ x.reported ∧ n ∈ slotMembers s req ∧ n ∉ x.reported ∧ n ≠ src) ∧
    (∃ (s : State) (src step req : Nat) (x : SmpResult) (r : Req), tget s.smp.results req = some x ∧
      reqOf s req = some r ∧ x.step = step ∧ src ∉ x.reported ∧ (∀ n ∈ slotMembers s req, n ∈ x.reported ∨ n = src) ∧
      x.final = none) :=
  ⟨⟨fxs (fxGreedy 0), 7, 0, 1, fxGreedy 0, [], by decide +kernel⟩,
    ⟨fxs (fxGreedy 2), 7, 0, 1, fxGreedy 2, [], [], by decide +kernel⟩,
    ⟨two (fxs fxReq), 0, [7, 0], fxReq, by decide +kernel⟩,
    ⟨fxs fxReq, 0, [7, 0], fxReq, by decide +kernel⟩,
    ⟨{ fxs fxReq with smp := { fxr.smp with codes := [(smpRow 7 0, [0])] } }, 7, 0, 0, fxReq, [0], by decide +kernel⟩,
    ⟨two (fxs fxReq), ⟨7, 0, 0, true, 1, 5, []⟩, fxReq, by decide +kernel⟩,
    ⟨fxs fxReq, ⟨7, 0, 0, true, 1, 5, []⟩, fxReq, by decide +kernel⟩,
    ⟨{ fxs fxReq with kva := { fxr.kva with skip := [7] } }, fxVerify, by decide +kernel⟩,
    ⟨fx, fxVerify, by decide +kernel⟩,
    ⟨fx, 2, 1, [7], by decide +kernel⟩,
    ⟨fxres, 2, 1, 7, 1, ⟨[0], [3], [3], false, false, none, 0, 1, 1, []⟩, fxReq, by decide +kernel⟩,
    ⟨fxres, 1, 1, 7, ⟨[0], [3], [3], false, false, none, 0, 1, 1, []⟩, fxReq, by decide +kernel⟩⟩

theorem test_sampler_commands_met_2 :
    (∃ (s : State) (m : DeliveryMsg) (p : Post) (f : Flight), isUp s = true ∧ tget s.hpt.posts m.req = some p ∧
      tget s.hpt.flight p.flight = some f ∧ m.record = true) ∧
    (∃ (s : State) (req position slot nslots first : Nat) (codes : List (BitVec 16)) (p : Post) (f : Flight), isUp s = true ∧
      tget s.hpt.posts req = some p ∧ tget s.hpt.flight p.flight = some f ∧ pLogitF32 p.param = false ∧
      tgetD s.smp.slices req [] = [] ∧ 1 < nslots) ∧
    (∃ (s : State) (req position slot first : Nat) (codes : List (BitVec 16)) (p : Post) (f : Flight), isUp s = true ∧
      tget s.hpt.posts req = some p ∧ tget s.hpt.flight p.flight = some f ∧ pLogitF32 p.param = true ∧
      tgetD s.smp.slices req [] = []) ∧
    (∃ (s : State) (req : Nat) (entry : BitVec 32), isUp s = true ∧ thas s.smp.choices req = true ∧
      entry.toNat / 2 ^ 20 = 0x800 ∧ thas s.sch.reqs req = true) ∧
    (∃ (s : State) (req : Nat) (entry : BitVec 32), isUp s = true ∧ thas s.smp.choices req = true ∧
      entry.toNat / 2 ^ 20 = 0x800 ∧ thas s.sch.reqs req = false) ∧
    (∃ (s : State) (req : Nat) (entry : BitVec 32), isUp s = true ∧ entry.toNat / 2 ^ 20 ≠ 0x800) :=
  ⟨⟨fxpost [], ⟨7, true, 1, [3], false, false, St.OK, []⟩, ⟨flightId dk, 0x50000, 4, 1, []⟩, fxFlight, by decide +kernel⟩,
    ⟨fxpost [], 7, 0, 0, 2, 0, [], ⟨flightId dk, 0x50000, 4, 1, []⟩, fxFlight, by decide +kernel⟩,
    ⟨fxpost [0, at' 49 1 1], 7, 0, 0, 0, [], ⟨flightId dk, 0x50000, 4, 1, [0, at' 49 1 1]⟩, fxFlight, by decide +kernel⟩,
    ⟨fxchoice fxr, 7, 0x80000005, by decide +kernel⟩,
    ⟨fxchoice fx, 7, 0x80000005, by decide +kernel⟩,
    ⟨fx, 7, 0, by decide +kernel⟩⟩

theorem test_gather_progress_met :
    (∃ (s : State) (key : DescKey) (row : Nat) (bytes : List Byte) (r : GthRun) (sums : List (List F32)), isUp s = true ∧
      tget s.gth.runs (flightId key) = some r ∧ tget r.want row = some sums ∧ tdel r.want row ≠ []) ∧
    (∃ (s : State) (key : DescKey) (row : Nat) (bytes : List Byte) (r : GthRun) (sums : List (List F32)), isUp s = true ∧
      tget s.gth.runs (flightId key) = some r ∧ tget r.want row = some sums ∧ tdel r.want row = []) ∧
    (∃ (s : State) (key : DescKey) (row : Nat) (bytes : List Byte) (r : GthRun), isUp s = true ∧
      tget s.gth.runs (flightId key) = some r ∧ thas r.want row = true) ∧
    (∃ (s : State) (table row : Nat) (m : Migration), isUp s = true ∧ tget s.gth.moves (gRow table row) = some m ∧
      m.phase = .draining ∧ m.demote = false) ∧
    (∃ (s : State) (table row : Nat) (m : Migration), isUp s = true ∧ tget s.gth.moves (gRow table row) = some m ∧
      m.phase = .draining ∧ m.demote = true ∧
      readRefusal s (slotAddr (tableAt s table) (bits m.oldLoc 23 0)) (tRb (tableAt s table)) = none) ∧
    (∃ (s u : State) (table row : Nat) (bytes : List Byte) (m : Migration), isUp s = true ∧
      tget s.gth.moves (gRow table row) = some m ∧ m.phase = .copying ∧ m.demote = false ∧
      fillHot s (tableAt s table) m row bytes = some u) ∧
    (∃ (s : State) (table row : Nat) (bytes : List Byte) (m : Migration), isUp s = true ∧
      tget s.gth.moves (gRow table row) = some m ∧ m.phase = .copying ∧ m.demote = true ∧ (tableAt s table).flash = false) ∧
    (∃ (s : State) (table row : Nat) (st : BitVec 16) (bytes : List Byte) (m : Migration), isUp s = true ∧
      tget s.gth.moves (gRow table row) = some m ∧ m.phase = .copying ∧ st ≠ 0) :=
  ⟨⟨fxgr [(0, []), (1, [])], dk, 0, [], fxRun [(0, []), (1, [])], [], by decide +kernel⟩,
    ⟨fxgr [(0, [])], dk, 0, [], fxRun [(0, [])], [], by decide +kernel⟩,
    ⟨fxgr [(0, [])], dk, 0, [], fxRun [(0, [])], by decide +kernel⟩,
    ⟨fxmig .draining false true, 1, 3, fxMig .draining false, by decide +kernel⟩,
    ⟨fxmig .draining true true, 1, 3, fxMig .draining true, by decide +kernel⟩,
    ⟨fxmig .copying false true, (fillHot (fxmig .copying false true) (tableAt (fxmig .copying false true) 1) (fxMig .copying false) 3 [1]).getD fx, 1, 3, [1], fxMig .copying false, by decide +kernel⟩,
    ⟨fxmig .copying true false, 1, 3, [], fxMig .copying true, by decide +kernel⟩,
    ⟨fxmig .copying true true, 1, 3, St.FLT_NOT_READY, [], fxMig .copying true, by decide +kernel⟩⟩

theorem test_memory_commands_met_1 :
    (∃ (s : State) (w : ScrubWord), isUp s = true ∧ w.sram = false ∧ inHbm s w.offset 4 = true ∧ w.offset % 4 = 0 ∧
      w.unit = pcOf s w.offset ∧ w.offset ≠ 0 ∧ secdedDecode w.data w.check = .clean) ∧
    (∃ (s : State) (w : ScrubWord) (d : BitVec 32), isUp s = true ∧ w.sram = false ∧ inHbm s w.offset 4 = true ∧
      w.offset % 4 = 0 ∧ w.unit = pcOf s w.offset ∧ w.offset ≠ 0 ∧ secdedDecode w.data w.check = .corrected d) ∧
    (∃ (s : State) (w : ScrubWord), isUp s = true ∧ w.sram = false ∧ inHbm s w.offset 4 = true ∧ w.offset % 4 = 0 ∧
      w.unit = pcOf s w.offset ∧ w.offset ≠ 0 ∧ secdedDecode w.data w.check = .uncorrectable) ∧
    (∃ (s : State) (w : ScrubWord), isUp s = true ∧ w.sram = true ∧ w.unit < 768 ∧ w.unit ≠ 0 ∧
      secdedDecode w.data w.check = .clean) ∧
    (∃ (s : State) (w : ScrubWord), isUp s = true ∧ w.sram = true ∧ w.unit < 768 ∧ w.unit ≠ 0 ∧
      secdedDecode w.data w.check = .corrected 0) ∧
    (∃ (s : State) (w : ScrubWord), isUp s = true ∧ w.sram = true ∧ w.unit < 768 ∧ w.unit ≠ 0 ∧
      secdedDecode w.data w.check = .uncorrectable) ∧
    (∃ (s : State) (pc : Nat), isUp s = true ∧ pcInService s pc = true) ∧
    (∃ (s : State) (p : Nat), rd s F.SEC_PROT_LOCK_LOCK = 1 ∧ pcInService s p = true ∧
      (∀ i, tget s.mem.pcs p = some i → i.suspect = false)) ∧
    (∃ (s : State) (k : Nat), rd s F.SEC_PROT_LOCK_LOCK = 1 ∧ k < 8) ∧
    (∃ (s : State) (offset : Nat) (addends : List (BitVec 32)), isUp s = true ∧ offset % 64 = 0 ∧
      inHbm s offset 64 = true ∧ readRefusal s offset 64 = none) ∧
    (∃ (s : State) (offset : Nat) (addends : List (BitVec 32)), isUp s = true ∧ offset % 64 = 0 ∧
      inHbm s offset 64 = true ∧ readRefusal s offset 64 = some St.CLK_HBM_SUSPECT) ∧
    (∃ (s : State) (o : Nat), hdmServes s (64 * o) 64 = true ∧
      touchesSuspect s (rd s F.HPT_HDM_CFG_BASE_GIB * 2 ^ 30 + 64 * o) 64 = true) :=
  ⟨⟨fx, fxWord false 0, by decide +kernel⟩,
    ⟨fx, fxWord false 1, 0, by decide +kernel⟩,
    ⟨fx, fxWord false 3, by decide +kernel⟩,
    ⟨fx, fxWord true 0, by decide +kernel⟩,
    ⟨fx, fxWord true 1, by decide +kernel⟩,
    ⟨fx, fxWord true 3, by decide +kernel⟩,
    ⟨fx, 511, by decide +kernel⟩,
    ⟨fx, 511, by exact ⟨by decide +kernel, by decide +kernel, fun i h => nomatch (show (none : Option PcInfo) = some i from h)⟩⟩,
    ⟨fx, 7, by decide +kernel⟩,
    ⟨fx, 0, [], by decide +kernel⟩,
    ⟨{ fx with clk := { fx.clk with clean := [] } }, 0, [], by decide +kernel⟩,
    ⟨fxhdm { fx with clk := { fx.clk with clean := [] } }, 0, by decide +kernel⟩⟩

theorem test_memory_commands_met_2 :
    (∃ (s : State) (o : Nat), hdmServes s (64 * o) 64 = true ∧
      touchesSuspect s (rd s F.HPT_HDM_CFG_BASE_GIB * 2 ^ 30 + 64 * o) 64 = false ∧
      touchesUe s (rd s F.HPT_HDM_CFG_BASE_GIB * 2 ^ 30 + 64 * o) 64 = false) ∧
    (∃ (s : State) (o : Nat) (bytes : List Byte), hdmServes s o bytes.length = true ∧ o % 64 + bytes.length ≤ 64) ∧
    (∃ (s : State) (o : Nat) (bytes : List Byte), rd s F.HPT_HDM_CFG_EN = 0) ∧
    (∃ (s : State) (a : Nat) (bs : List Byte), 0 < bs.length ∧ (63 < a ∨ a + bs.length ≤ 63)) :=
  ⟨⟨fxhdm fx, 2 ^ 24 - 1, by decide +kernel⟩,
    ⟨fxhdm fx, 0, [1], by decide +kernel⟩,
    ⟨fx, 0, [1], by decide +kernel⟩,
    ⟨fx, 64, [1], by decide +kernel⟩⟩

theorem test_flash_service_met_1 :
    (∃ (s : State) (w : Word), rd s F.SEC_PROT_LOCK_LOCK = 1 ∧ bit w 63 = true ∧ rd s F.FLT_CTL_EN = 0 ∧
      rd s F.FLT_CTL_BUSY = 0) ∧
    (∃ (s : State) (chans : List ChanFound) (bad : List Nat), isUp s = true ∧ rd s F.FLT_CTL_BUSY ≠ 0) ∧
    (∃ (s : State) (w : Word), rd s F.SEC_PROT_LOCK_LOCK = 1 ∧ bit w 63 = false ∧ rd s F.FLT_CTL_EN = 1) ∧
    (∃ (s : State) (c : FlashClient) (sector : Nat) (d : List Byte), isUp s = true ∧ fltReady s = true ∧
      clientOk s c sector 1 = true ∧ bufferedSector s sector = some d) ∧
    (∃ (s : State) (c : FlashClient) (sector : Nat) (m : UnitMap), isUp s = true ∧ fltReady s = true ∧
      clientOk s c sector 1 = true ∧ bufferedSector s sector = none ∧ tget s.flt.map (sector / 32) = some m ∧
      m.mask.testBit (sector % 32) = true ∧ chanUp s (m.block / 2 ^ 20) = true) ∧
    (∃ (s : State) (c : FlashClient) (sector : Nat), isUp s = true ∧ fltReady s = false) ∧
    (∃ (s : State) (c : FlashClient) (sector : Nat), isUp s = true ∧ fltReady s = true ∧ clientOk s c sector 1 = false) ∧
    (∃ (s : State) (c : FlashClient) (sector : Nat), isUp s = true ∧ fltReady s = true ∧ clientOk s c sector 1 = true ∧
      bufferedSector s sector = none ∧ tget s.flt.map (sector / 32) = none) ∧
    (∃ (s : State) (sector : Nat) (d : List Byte) (r : FltRead), isUp s = true ∧
      s.flt.reads.find? (fun r => r.sector == sector) = some r) ∧
    (∃ (s : State) (c : FlashClient) (sector : Nat) (data : List (List Byte)), isUp s = true ∧ fltReady s = true ∧
      clientOk s c sector data.length = true ∧ ceilDiv (sector + data.length) 32 ≤ rd s F.FLT_CAP_UNITS) ∧
    (∃ (s : State) (c : FlashClient) (sector : Nat) (data : List (List Byte)), isUp s = true ∧ fltReady s = false) ∧
    (∃ (s : State) (c : FlashClient) (sector : Nat) (data : List (List Byte)), isUp s = true ∧ fltReady s = true ∧
      clientOk s c sector data.length = false) :=
  ⟨⟨fx, at' 63 1 1, by decide +kernel⟩,
    ⟨wr fx F.FLT_CTL_BUSY 1, [], [], by decide +kernel⟩,
    ⟨fxf, 0, by decide +kernel⟩,
    ⟨{ fxf with flt := { fxf.flt with bufs := [(0, ⟨[(0, [1])], false, []⟩)] } }, .kva, 0, [1], by decide +kernel⟩,
    ⟨fxf, .kva, 0, ⟨0, 0, 1⟩, by decide +kernel⟩,
    ⟨fx, .kva, 0, by decide +kernel⟩,
    ⟨fxf, .gather 0, 0, by decide +kernel⟩,
    ⟨fxf, .kva, 64, by decide +kernel⟩,
    ⟨{ fxf with flt := { fxf.flt with reads := [⟨some .kva, 0, 0⟩] } }, 0, [], ⟨some .kva, 0, 0⟩, by decide +kernel⟩,
    ⟨fxf, .kva, 127, [[]], by decide +kernel⟩,
    ⟨fx, .kva, 0, [[]], by decide +kernel⟩,
    ⟨fxf, .mover 0, 0, [[]], by decide +kernel⟩⟩

theorem test_flash_service_met_2 :
    ∃ (s : State) (c : FlashClient) (sector : Nat) (data : List (List Byte)), isUp s = true ∧ fltReady s = true ∧
      clientOk s c sector data.length = true ∧ rd s F.FLT_CAP_UNITS < ceilDiv (sector + data.length) 32 :=
  ⟨fxf, .kva, 128, [[]], by decide +kernel⟩

theorem test_flash_upkeep_met :
    (∃ (s : State) (unit : Nat), isUp s = true ∧ thas s.flt.bufs unit = true ∧ fltReady s = true) ∧
    (∃ (s : State) (unit : Nat) (p : FltProg), isUp s = true ∧ s.flt.progs.find? (fun p => p.unit == unit) = some p) ∧
    (∃ (s : State) (p : FltProg), p.old = none) ∧
    (∃ (s : State) (p : FltProg), tget s.flt.map p.unit = some ⟨0, 0, 1⟩ ∧ p.old = some (3, 3) ∧
      ((0, 0) : Nat × Nat) ≠ (3, 3)) ∧
    (∃ (s : State) (p : FltProg), p.old = some (0, 0) ∧ tget s.flt.map p.unit = some ⟨0, 0, 1⟩) ∧
    (∃ (s : State) (b : Nat), isUp s = true ∧ thas s.flt.blocks b = true ∧ (blockOf s b).erasing = true ∧
      (blockOf s b).leaving = false) ∧
    (∃ (s : State) (b : Nat), isUp s = true ∧ thas s.flt.blocks b = true) ∧
    (∃ (s : State) (b : Nat) (x : FltBlock), isUp s = true ∧ fltReady s = true ∧
      minBy (fun e => validUnits s e.1 * 2 ^ 64 + e.2.age) ((usedBlocks s).filter (fun e => e.2.next == s.flt.blockUnits)) = some (b, x)) ∧
    (∃ (s : State) (b : Nat) (x : FltBlock), isUp s = true ∧ fltReady s = true ∧
      minBy (fun e => e.2.erases) (usedBlocks s) = some (b, x) ∧
      x.erases + rd s F.FLT_CFG_WEAR_DELTA < ((usedBlocks s).map (fun e => e.2.erases)).foldl max 0) ∧
    (∃ (s : State) (b : Nat) (x : FltBlock), isUp s = true ∧ fltReady s = true ∧
      minBy (fun e => e.2.erases) (usedBlocks s) = some (b, x) ∧
      ((usedBlocks s).map (fun e => e.2.erases)).foldl max 0 ≤ x.erases + rd s F.FLT_CFG_WEAR_DELTA) ∧
    (∃ (s : State), isUp s = true ∧ fltReady s = true) ∧
    (∃ (s : State) (c : Nat), isUp s = true ∧ c < 16 ∧ chanUp s c = true) :=
  ⟨⟨{ fxf with flt := { fxf.flt with bufs := [(0, ⟨[(0, [1])], false, []⟩)] } }, 0, by decide +kernel⟩,
    ⟨{ fxf with flt := { fxf.flt with progs := [fxProg none] } }, 0, fxProg none, by decide +kernel⟩,
    ⟨fxf, fxProg none, by decide +kernel⟩,
    ⟨fxf, fxProg (some (3, 3)), by decide +kernel⟩,
    ⟨fxf, fxProg (some (0, 0)), by decide +kernel⟩,
    ⟨fxerase false, 0, by decide +kernel⟩,
    ⟨fxerase true, 0, by decide +kernel⟩,
    ⟨fxf, 0, ⟨1, 0, 4, 0, false, false, false, false, false⟩, by decide +kernel⟩,
    ⟨{ fxf with flt := { fxf.flt with blocks := [(0, ⟨1, 0, 4, 0, false, false, false, false, false⟩), (1, ⟨1000000, 0, 4, 0, false, false, false, false, false⟩)] } }, 0, ⟨1, 0, 4, 0, false, false, false, false, false⟩, by decide +kernel⟩,
    ⟨fxf, 0, ⟨1, 0, 4, 0, false, false, false, false, false⟩, by decide +kernel⟩,
    ⟨fxf, by decide +kernel⟩,
    ⟨fxf, 0, by decide +kernel⟩⟩

theorem test_port_training_met :
    (∃ (s : State) (n : Nat) (w : Word), rd s F.SEC_PROT_LOCK_LOCK = 1 ∧ bit w 63 = true ∧ n < 60 ∧
      rdi s F.GLK_PORT_CTL_EN n = 0 ∧ bits w 1 0 = 0) ∧
    (∃ (s : State) (n : Nat) (st : Status) (retry : Bool), n < 56) ∧
    (∃ (s : State) (n : Nat) (w : Word), rd s F.SEC_PROT_LOCK_LOCK = 1 ∧ bit w 63 = false ∧ n < 56 ∧
      rdi s F.GLK_PORT_CTL_EN n = 1 ∧ bits w 1 0 = 0) ∧
    (∃ (s : State) (n : Nat), rd s F.SEC_PROT_LOCK_LOCK = 1 ∧ n < 60 ∧ portState s n = 4 ∨ portState s n = 5) ∧
    (∃ (s : State) (n : Nat), rd s F.SEC_PROT_LOCK_LOCK = 1 ∧ n < 60 ∧ portState s n ≠ 4 ∧ portState s n ≠ 5) ∧
    (∃ (s : State) (n w : Nat) (lanes : BitVec 8), n < 56 ∧ portState s n = 1 ∧ (portOf s n).retry = false ∧
      widthFor lanes (2 ^ rdi s F.GLK_PORT_CTL_MAX_WIDTH n) = some w) ∧
    (∃ (s : State) (n : Nat) (lanes : BitVec 8), n < 60 ∧ portState s n = 1 ∧ (portOf s n).retry = false ∧
      widthFor lanes (2 ^ rdi s F.GLK_PORT_CTL_MAX_WIDTH n) = none) ∧
    (∃ (s : State) (n : Nat), n < 60 ∧ portState s n = 1) ∧
    (∃ (s : State) (n : Nat) (f : KeyxMsg), n < 56 ∧ portState s n = 2 ∧ f.good = true) ∧
    (∃ (s : State) (n : Nat) (f : KeyxMsg), n < 56 ∧ portState s n = 5 ∧ (portOf s n).rekey = true ∧ f.good = true) ∧
    (∃ (s : State) (n : Nat) (f : KeyxMsg), n < 60 ∧ portState s n = 2 ∧ f.good = false) :=
  ⟨⟨fx, 59, at' 63 1 1, by decide +kernel⟩,
    ⟨fx, 55, St.OK, false, by decide +kernel⟩,
    ⟨wri fx F.GLK_PORT_CTL_EN 0 1, 0, 0, by decide +kernel⟩,
    ⟨fxport 0 5 GPort.fresh, 0, by decide +kernel⟩,
    ⟨fx, 0, by decide +kernel⟩,
    ⟨lanes8 0 (fxport 0 1 GPort.fresh), 0, 4, 0x0F, by decide +kernel⟩,
    ⟨lanes8 0 (fxport 0 1 GPort.fresh), 0, 0, by decide +kernel⟩,
    ⟨fxport 59 1 GPort.fresh, 59, by decide +kernel⟩,
    ⟨fxport 0 2 GPort.fresh, 0, ⟨3, true⟩, by decide +kernel⟩,
    ⟨fxport 0 5 { GPort.fresh with rekey := true }, 0, ⟨3, true⟩, by decide +kernel⟩,
    ⟨fxport 59 2 GPort.fresh, 59, ⟨3, false⟩, by decide +kernel⟩⟩

theorem test_port_traffic_met_1 :
    (∃ (s : State) (n : Nat) (f : CreditMsg), n < 60 ∧ 3 ≤ portState s n ∧ f.check = .good ∧ f.seq = (portOf s n).rxSeq ∧
      portState (acceptSeq s n f.ack f.nak) n = 5) ∧
    (∃ (s : State) (n : Nat) (f : CreditMsg), n < 56 ∧ 3 ≤ portState s n ∧ f.check = .good ∧ f.seq = (portOf s n).rxSeq ∧
      portState (acceptSeq s n f.ack f.nak) n = 3) ∧
    (∃ (s : State) (n : Nat) (f : CreditMsg) (d : DataMsg), n < 60 ∧ 4 ≤ portState s n ∧ f.check ≠ .good ∧ d.check ≠ .good) ∧
    (∃ (s : State) (n : Nat) (f : CreditMsg) (d : DataMsg), n < 60 ∧ 4 ≤ portState s n ∧ f.check = .good ∧
      f.seq ≠ (portOf s n).rxSeq ∧ d.check = .good ∧ d.vc < 12 ∧ d.seq ≠ (portOf s n).rxSeq) ∧
    (∃ (s : State) (n : Nat) (f : DataMsg), n < 60 ∧ 4 ≤ portState s n ∧ f.check = .good ∧ f.vc < 12 ∧
      f.seq = (portOf s n).rxSeq ∧ portState (acceptSeq s n f.ack f.nak) n ≠ 1) ∧
    (∃ (s : State) (n : Nat), n < 60 ∧ portState s n = 4 ∧ (portOf s n).tested + 1 < 65536) ∧
    (∃ (s : State) (n : Nat), n < 60 ∧ portState s n = 4 ∧ (portOf s n).tested + 1 = 65536 ∧ n < 56) ∧
    (∃ (s : State) (n : Nat), n < 60 ∧ portState s n = 4 ∧ (portOf s n).tested + 1 = 65536 ∧ 56 ≤ n) ∧
    (∃ (s : State) (n w : Nat) (good : BitVec 8), n < 60 ∧ 2 ≤ portState s n ∧ (portOf s n).unacked = [] ∧
      widthFor (BitVec.ofNat 8 (rdi s F.GLK_PORT_STAT_LANE_OK n) &&& good) (rdi s F.GLK_PORT_STAT_WIDTH n) = some w ∧
      w ≠ rdi s F.GLK_PORT_STAT_WIDTH n) ∧
    (∃ (s : State) (n : Nat) (good : BitVec 8), n < 60 ∧ 2 ≤ portState s n ∧
      widthFor (BitVec.ofNat 8 (rdi s F.GLK_PORT_STAT_LANE_OK n) &&& good) (rdi s F.GLK_PORT_STAT_WIDTH n) = none) ∧
    (∃ (s : State) (n vc : Nat) (f : GFrame), n < 60 ∧ portState s n = 5 ∧ f ∈ (portOf s n).queue ∧ f.vc = vc ∧
      (portOf s n).credits.getD vc 0 < (portOf s n).used.getD vc 0 + creditNeed f) ∧
    (∃ (s : State) (n : Nat), n < 60 ∧ 3 ≤ portState s n) :=
  ⟨⟨fxport 59 5 GPort.fresh, 59, fxCredit .good 0, by decide +kernel⟩,
    ⟨fxport 0 3 GPort.fresh, 0, fxCredit .good 0, by decide +kernel⟩,
    ⟨fxport 0 5 GPort.fresh, 0, fxCredit .corrupt 0, fxData .tagFail 0, by decide +kernel⟩,
    ⟨fxport 0 5 GPort.fresh, 0, fxCredit .good 1, fxData .good 4095, by decide +kernel⟩,
    ⟨fxport 0 5 GPort.fresh, 0, fxData .good 0, by decide +kernel⟩,
    ⟨fxport 0 4 GPort.fresh, 0, by decide +kernel⟩,
    ⟨fxport 0 4 { GPort.fresh with tested := 65535 }, 0, by decide +kernel⟩,
    ⟨fxport 56 4 { GPort.fresh with tested := 65535 }, 56, by decide +kernel⟩,
    ⟨lanes8 0 (fxport 0 5 GPort.fresh), 0, 4, 0x0F, by decide +kernel⟩,
    ⟨lanes8 0 (fxport 0 5 GPort.fresh), 0, 0, by decide +kernel⟩,
    ⟨fxport 0 5 { GPort.fresh with queue := [fxFrame] }, 0, 0, fxFrame, by decide +kernel⟩,
    ⟨fxport 0 3 GPort.fresh, 0, by decide +kernel⟩⟩

theorem test_port_traffic_met_2 :
    ∃ (s : State) (n : Nat) (f : GFrame), n < 60 ∧ (portOf s n).wire = some f :=
  ⟨fxport 0 5 { GPort.fresh with wire := some fxFrame }, 0, fxFrame, by decide +kernel⟩

theorem test_remote_operations_met_1 :
    (∃ (s : State) (r : RemoteReq) (bytes : List Byte), isUp s = true ∧
      remoteRefusal s r (bytes.length == 0 || decide (4096 < bytes.length) || r.arg != 0) 41 false [(r.offset, bytes.length)] [] = none ∧
      inHostWindow r.offset bytes.length = false ∧
      (partialLines r.offset bytes.length).findSome? (fun l => readRefusal s l 64) = none) ∧
    (∃ (s : State) (r : RemoteReq) (host : List Byte), isUp s = true ∧
      remoteRefusal s r (bits r.arg 12 0 == 0 || decide (4096 < bits r.arg 12 0) || bits r.arg 63 13 != 0) 40 true [(r.offset, bits r.arg 12 0)] [] = none ∧
      inHostWindow r.offset (bits r.arg 12 0) = false ∧ inMap s r.offset (bits r.arg 12 0) = false ∧
      readRefusal s r.offset (bits r.arg 12 0) = none) ∧
    (∃ (s : State) (r : RemoteReq) (xs : List (BitVec 32)), isUp s = true ∧
      remoteRefusal s r (xs.length != 16 || r.arg != 0) 42 false [(r.offset, 64)] [(r.offset, 64, false)] = none ∧
      readRefusal s r.offset 64 = none) ∧
    (∃ (s : State) (r : RemoteReq) (v cmp swp : Word), isUp s = true ∧
      remoteRefusal s r (r.arg != 0) 42 false [(r.offset, 8)] [(r.offset, 8, true)] = none ∧ readRefusal s r.offset 8 = none) ∧
    (∃ (s : State) (r : RemoteReq) (bytes : List Byte), isUp s = true ∧
      remoteRefusal s r (bytes.length == 0 || decide (4096 < bytes.length) || bits r.arg 63 52 != 0) 41 false [(r.offset, bytes.length), (bits r.arg 51 0, 8)] [(bits r.arg 51 0, 8, true)] = none ∧
      inHostWindow r.offset bytes.length = false ∧
      (partialLines r.offset bytes.length).findSome? (fun l => readRefusal s l 64) = none ∧
      readRefusal s (bits r.arg 51 0) 8 = none) ∧
    (∃ (s : State) (r : RemoteReq) (bytes : List Byte) (st : Status), isUp s = true ∧
      remoteRefusal s r (bytes.length == 0 || decide (4096 < bytes.length) || r.arg != 0) 41 false [(r.offset, bytes.length)] [] = some st ∧
      st ≠ St.DTM_STALE_MAP ∧ st ≠ St.GLK_BUSY) ∧
    (∃ (s : State) (tag : Nat) (st : BitVec 16) (arg : Word) (bytes : List Byte), isUp s = true ∧ tget s.glk.ops tag = none) ∧
    (∃ (s : State) (tag : Nat) (st : BitVec 16) (arg : Word) (bytes : List Byte), isUp s = true ∧
      tget s.glk.ops tag = some fxRop ∧ st = St.GLK_BUSY) ∧
    (∃ (s : State) (tag : Nat) (st : BitVec 16) (arg : Word) (bytes : List Byte), isUp s = true ∧
      tget s.glk.ops tag = some fxRop ∧ st = St.DTM_STALE_MAP) ∧
    (∃ (s : State) (tag : Nat) (st : BitVec 16) (arg : Word) (bytes : List Byte), isUp s = true ∧
      tget s.glk.ops tag = some fxRop ∧ st ≠ St.GLK_BUSY ∧ st ≠ St.DTM_STALE_MAP) ∧
    (∃ (s : State) (tag : Nat) (o : RemoteOp), isUp s = true ∧ tget s.glk.ops tag = some o) ∧
    (∃ (s : State) (tag n : Nat) (o : RemoteOp), isUp s = true ∧ tget s.glk.ops tag = some o ∧
      flowPort s o.dest o.tc o.stripe = some n) :=
  ⟨⟨fxg, fxOp 0, List.replicate 64 1, by decide +kernel⟩,
    ⟨fxg, fxOp 64, [], by decide +kernel⟩,
    ⟨fxg, fxOp 0, List.replicate 16 0, by decide +kernel⟩,
    ⟨fxg, fxOp 0, 1, 0, 1, by decide +kernel⟩,
    ⟨fxg, fxOp 0x20000, List.replicate 64 1, by decide +kernel⟩,
    ⟨fxg, fxOp 0, [], St.GLK_BAD_OP, by decide +kernel⟩,
    ⟨fx, 1, 0, 0, [], by decide +kernel⟩,
    ⟨fxops fx, 1, St.GLK_BUSY, 0, [], by decide +kernel⟩,
    ⟨fxops fx, 1, St.DTM_STALE_MAP, 0, [], by decide +kernel⟩,
    ⟨fxops fx, 1, St.OK, 0, [], by decide +kernel⟩,
    ⟨fxops fx, 1, fxRop, by decide +kernel⟩,
    ⟨fxops fxroute, 1, 0, fxRop, by decide +kernel⟩⟩

theorem test_remote_operations_met_2 :
    (∃ (s : State) (tag n : Nat) (o : RemoteOp), isUp s = true ∧ tget s.glk.ops tag = some o ∧
      flowPort s o.dest o.tc o.stripe = none) ∧
    (∃ (s : State) (f : FlowKey) (n : Nat), isUp s = true ∧ flowBusy s f.dest f.tc f.stripe = false ∧
      flowPort s f.dest f.tc f.stripe = some n) ∧
    (∃ (s : State) (c : Nat), isUp s = true ∧ thas s.glk.colls c = true) :=
  ⟨⟨fxops fx, 1, 0, fxRop, by decide +kernel⟩,
    ⟨fxroute, ⟨3, 1, 0⟩, 0, by decide +kernel⟩,
    ⟨{ fx with glk := { fx.glk with colls := [(0x10000, ⟨2, 1⟩)] } }, 0x10000, by decide +kernel⟩⟩

theorem test_shaping_commands_met :
    (∃ (s : State), s.shp.flows = [] ∧ s.shp.shapes = []) ∧
    (∃ (s : State) (key : Nat) (f : ShpFlow), shaped s (key % 8) = false) ∧
    (∃ (s : State) (key : Nat) (f : ShpFlow), shaped s (key % 8) = true ∧ f.tokens < shapeBurst s (key % 8)) ∧
    (∃ (s : State) (key : Nat) (f : ShpFlow), shaped s (key % 8) = true ∧ shapeBurst s (key % 8) ≤ f.tokens) ∧
    (∃ (s : State) (k : Nat) (w : Word), rd s F.SEC_PROT_LOCK_LOCK = 1 ∧ k < 2) ∧
    (∃ (s : State) (n : Nat) (g : Gate), tget s.shp.gates n = some g ∧ g.held = false ∧ n < 56 ∧
      rdi s F.SHP_GATE_CTL_EN n = 1 ∧ thas s.glk.ports n = false ∧ g.entry + 1 < gateLen s n) ∧
    (∃ (s : State) (n : Nat) (g : Gate), tget s.shp.gates n = some g ∧ g.held = false ∧ n < 56 ∧
      rdi s F.SHP_GATE_CTL_EN n = 1 ∧ thas s.glk.ports n = false ∧ gateLen s n ≤ g.entry + 1 ∧ gateRepeat s n = true) ∧
    (∃ (s : State) (n : Nat) (g : Gate), tget s.shp.gates n = some g ∧ g.held = false ∧ n < 56 ∧
      rdi s F.SHP_GATE_CTL_EN n = 1 ∧ thas s.glk.ports n = false ∧ gateLen s n ≤ g.entry + 1 ∧ gateRepeat s n = false) ∧
    (∃ (s : State) (n : Nat) (w : Word), rd s F.SEC_PROT_LOCK_LOCK = 1 ∧ n < 56 ∧ bit w 62 = true ∧ bit w 63 = true ∧
      rdi (writeBank s n w) F.SHP_GATE_CTL_EN n = 1) ∧
    (∃ (s : State) (n : Nat) (w : Word), rd s F.SEC_PROT_LOCK_LOCK = 1 ∧ n < 56 ∧ bit w 62 = false ∧ bit w 63 = true ∧
      rdi (writeBank s n w) F.SHP_GATE_CTL_EN n = 0) ∧
    (∃ (s : State) (n : Nat) (w : Word), rd s F.SEC_PROT_LOCK_LOCK = 1 ∧ n < 56 ∧ bit w 62 = false ∧ bit w 63 = false ∧
      thas s.glk.ports n = false) :=
  ⟨⟨fx, by decide +kernel⟩,
    ⟨fx, 1, fxFlow 0, by decide +kernel⟩,
    ⟨wri (wri fx F.SHP_TC_SHAPE_EN 0 1) F.SHP_TC_SHAPE_BURST 0 1, 2, fxFlow 0, by decide +kernel⟩,
    ⟨wri (wri fx F.SHP_TC_SHAPE_EN 0 1) F.SHP_TC_SHAPE_BURST 0 1, 2, fxFlow 262144, by decide +kernel⟩,
    ⟨fx, 1, 0, by decide +kernel⟩,
    ⟨fxgate 2 0, 0, ⟨0, 0, false⟩, by decide +kernel⟩,
    ⟨fxgate 1 1, 0, ⟨0, 0, false⟩, by decide +kernel⟩,
    ⟨fxgate 1 0, 0, ⟨0, 0, false⟩, by decide +kernel⟩,
    ⟨fxgate 1 0, 0, mkWord [(62, 1, 1), (63, 1, 1)], by decide +kernel⟩,
    ⟨fx, 55, mkWord [(63, 1, 1)], by decide +kernel⟩,
    ⟨fxgate 1 0, 0, 0, by decide +kernel⟩⟩

theorem test_mover_commands_met :
    (∃ (s : State) (m c : Nat) (host : List Byte) (w : MoveWait), isUp s = true ∧ m < 8 ∧ rdi s F.BMV_MOVER_STATE m = 0 ∧
      nextMove s m = some w ∧ firstFree 32 (fun c => !thas s.bmv.chans (32 * m + c)) = some c ∧ mvRemote s w.desc = false) ∧
    (∃ (s : State) (m c : Nat) (host : List Byte) (w : MoveWait) (s2 : State) (ps : List MovePut), isUp s = true ∧ m < 8 ∧
      rdi s F.BMV_MOVER_STATE m = 0 ∧ nextMove s m = some w ∧
      firstFree 32 (fun c => !thas s.bmv.chans (32 * m + c)) = some c ∧ mvRemote s w.desc = true ∧
      srcFault s w.desc (mvSkip w.desc) (sideCount (dstSide w.desc)) = none ∧
      sendPuts { s with bmv := { s.bmv with waiting := s.bmv.waiting.erase w, chans := tset s.bmv.chans (32 * m + c) ⟨w.flight, w.desc, host, []⟩ } } m c w.desc host = (s2, ps, none)) ∧
    (∃ (s : State) (m : Nat) (w : MoveWait), nextMove s m = some w) ∧
    (∃ (s : State) (m c : Nat) (x : MoveChan), isUp s = true ∧ c < 32 ∧ tget s.bmv.chans (32 * m + c) = some x ∧
      rdi s F.BMV_MOVER_STATE m = 0 ∧ mvRemote s x.desc = false ∧
      srcFault s x.desc (mvSkip x.desc) (sideCount (dstSide x.desc)) = none ∧
      (pieces (dstSide x.desc) ((dstSide x.desc).len * (dstSide x.desc).width) (sideCount (dstSide x.desc) - mvSkip x.desc) (mvSkip x.desc) (sideCount (dstSide x.desc))).find? (fun p => (writeRefusal s p.2.1 (p.2.2 * (dstSide x.desc).width)).isSome) = none) ∧
    (∃ (s : State) (m c : Nat) (x : MoveChan), isUp s = true ∧ c < 32 ∧ tget s.bmv.chans (32 * m + c) = some x ∧
      rdi s F.BMV_MOVER_STATE m = 0 ∧ mvRemote s x.desc = true ∧ x.puts = []) ∧
    (∃ (s : State) (m c : Nat) (x : MoveChan) (f : Status), isUp s = true ∧ c < 32 ∧
      tget s.bmv.chans (32 * m + c) = some x ∧ rdi s F.BMV_MOVER_STATE m = 0 ∧ mvRemote s x.desc = false ∧
      srcFault s x.desc (mvSkip x.desc) (sideCount (dstSide x.desc)) = some f) ∧
    (∃ (s : State) (m : Nat) (st : BitVec 16) (done : List Nat), isUp s = true ∧ m < 8 ∧ rdi s F.BMV_MOVER_STATE m = 0 ∧
      busyChans s m ≠ []) ∧
    (∃ (s : State) (m : Nat) (x : MoveStop), isUp s = true ∧ tget s.bmv.stops m = some x) ∧
    (∃ (s : State) (m c done : Nat) (st : BitVec 16) (x : MoveChan), isUp s = true ∧ c < 32 ∧
      tget s.bmv.chans (32 * m + c) = some x ∧ rdi s F.BMV_MOVER_STATE m = 0 ∧ mvRemote s x.desc = false ∧
      mvSkip x.desc ≤ done ∧ done ≤ sideCount (dstSide x.desc) ∧ st ≠ St.HPT_HOST_TIMEOUT ∧ st ≠ St.HPT_HOST_DATA_ERR) ∧
    (∃ (s : State) (m c done : Nat) (st : BitVec 16) (x : MoveChan), isUp s = true ∧ c < 32 ∧
      tget s.bmv.chans (32 * m + c) = some x ∧ rdi s F.BMV_MOVER_STATE m = 0 ∧ mvRemote s x.desc = false ∧
      mvSkip x.desc ≤ done ∧ done ≤ sideCount (dstSide x.desc) ∧ st = St.HPT_HOST_TIMEOUT ∨ st = St.HPT_HOST_DATA_ERR) ∧
    (∃ (s : State) (m : Nat) (done : List Nat) (x : MoveStop), rd s F.SEC_PROT_LOCK_LOCK = 1 ∧ m < 8 ∧
      rdi s F.BMV_MOVER_STATE m = 0 ∧ tget (stopMover s m St.BMV_RESET done).bmv.stops m = some x) ∧
    (∃ (s : State) (m : Nat) (done : List Nat), rd s F.SEC_PROT_LOCK_LOCK = 1 ∧ m < 8 ∧ rdi s F.BMV_MOVER_STATE m ≠ 0) :=
  ⟨⟨fxwait fx dMove, 0, 0, [], ⟨flightId dk, dMove⟩, by decide +kernel⟩,
    ⟨fxrt, 0, 0, [], ⟨flightId dk, dRemote⟩, (sendPuts fxch 0 0 dRemote []).1, (sendPuts fxch 0 0 dRemote []).2.1, by exact ⟨by decide +kernel, by decide +kernel, by decide +kernel, by decide +kernel, by decide +kernel, by decide +kernel, by decide +kernel, Prod.ext rfl (Prod.ext rfl fxch_puts)⟩⟩,
    ⟨fxwait fx dMove, 0, ⟨flightId dk, dMove⟩, by decide +kernel⟩,
    ⟨fxmv fx dMove, 0, 0, ⟨flightId dk, dMove, [], []⟩, by decide +kernel⟩,
    ⟨fxmv fx dRemote, 0, 0, ⟨flightId dk, dRemote, [], []⟩, by decide +kernel⟩,
    ⟨fxmv { fx with clk := { fx.clk with clean := [] } } dMove, 0, 0, ⟨flightId dk, dMove, [], []⟩, St.CLK_HBM_SUSPECT, by decide +kernel⟩,
    ⟨fxmv fx dMove, 0, St.MEM_UNCORR, [], by decide +kernel⟩,
    ⟨{ fx with bmv := { fx.bmv with stops := [(0, ⟨St.MEM_UNCORR, [], false⟩)] } }, 0, ⟨St.MEM_UNCORR, [], false⟩, by decide +kernel⟩,
    ⟨fxmv fx dMove, 0, 0, 8, St.MEM_UNCORR, ⟨flightId dk, dMove, [], []⟩, by decide +kernel⟩,
    ⟨fxmv fx dMove, 0, 0, 0, St.HPT_HOST_TIMEOUT, ⟨flightId dk, dMove, [], []⟩, by decide +kernel⟩,
    ⟨fx, 0, [], ((tget (stopMover fx 0 St.BMV_RESET []).bmv.stops 0).getD ⟨0, [], false⟩), by decide +kernel⟩,
    ⟨wri fx F.BMV_MOVER_STATE 0 1, 0, [], by decide +kernel⟩⟩

theorem test_map_spread_met_1 :
    (∃ (s : State) (src e : Nat) (ws : List Word) (es : List (Nat × List Word)), isUp s = true ∧ recordOf ws = (e, es) ∧
      epoch s ≠ 0 ∧ epochDiff e (epoch s) = 1) ∧
    (∃ (s : State) (src e : Nat) (ws : List Word) (es : List (Nat × List Word)), isUp s = true ∧ recordOf ws = (e, es) ∧
      epoch s ≠ 0 ∧ epochDiff e (epoch s) ≤ 0) ∧
    (∃ (s : State) (src e : Nat) (ws : List Word) (es : List (Nat × List Word)), isUp s = true ∧ recordOf ws = (e, es) ∧
      epoch s ≠ 0 ∧ 2 ≤ epochDiff e (epoch s)) ∧
    (∃ (s : State) (e : Nat) (es : List (Nat × List Word)), e < 2 ^ 32) ∧
    (∃ (s : State) (node c : Nat), epoch s ≠ 0 ∧ epochDiff c (epoch s) ≤ 64) ∧
    (∃ (s : State) (node c : Nat), epoch s = 0 ∨ 64 < epochDiff c (epoch s)) ∧
    (∃ (s : State), isUp s = true ∧ epoch s ≠ 0 ∧ surveyPeer s ≠ self s) ∧
    (∃ (s : State) (src e : Nat), isUp s = true ∧ epochDiff e (epoch s) = 0) ∧
    (∃ (s : State) (src e : Nat), isUp s = true ∧ 0 < epochDiff e (epoch s)) ∧
    (∃ (s : State) (src e : Nat), isUp s = true ∧ epochDiff e (epoch s) < 0 ∧ -64 ≤ epochDiff e (epoch s)) ∧
    (∃ (s : State) (src e : Nat), isUp s = true ∧ epochDiff e (epoch s) < -64) ∧
    (∃ (s : State) (node n c : Nat) (es : List (Nat × List Word)), 0 < epochDiff (epoch s) c ∧
      tget s.dtm.log ((c + 1) % 2 ^ 32 % 64) = some ((c + 1) % 2 ^ 32, es)) :=
  ⟨⟨fx, 3, 6, [6], [], by decide +kernel⟩,
    ⟨fx, 3, 5, [5], [], by decide +kernel⟩,
    ⟨fx, 3, 7, [7], [], by decide +kernel⟩,
    ⟨fx, 6, [], by decide +kernel⟩,
    ⟨fx, 3, 69, by decide +kernel⟩,
    ⟨fx, 3, 70, by decide +kernel⟩,
    ⟨fx, by decide +kernel⟩,
    ⟨fx, 3, 5, by decide +kernel⟩,
    ⟨fx, 3, 6, by decide +kernel⟩,
    ⟨wr fx F.DTM_EPOCH_EPOCH 70, 3, 6, by decide +kernel⟩,
    ⟨wr fx F.DTM_EPOCH_EPOCH 70, 3, 5, by decide +kernel⟩,
    ⟨{ fx with dtm := { fx.dtm with log := [(5, (5, []))] } }, 3, 0, 4, [], by decide +kernel⟩⟩

theorem test_map_spread_met_2 :
    (∃ (s : State) (w : Word), rd s F.SEC_PROT_LOCK_LOCK = 1 ∧ bit w 63 = true ∧ epoch s = 0 ∧ rd s F.DTM_CTL_BUSY = 0 ∧
      joinRegionOk (wr (wr (wr (wr s F.DTM_CTL_SEED (bits w 39 20)) F.DTM_CTL_BASE_MIB (bits w 19 0)) F.DTM_CTL_BUSY 1) F.DTM_CTL_ERR 0) = true) ∧
    (∃ (s : State) (w : Word), rd s F.SEC_PROT_LOCK_LOCK = 1 ∧ bit w 63 = true ∧ epoch s = 0 ∧ rd s F.DTM_CTL_BUSY = 0 ∧
      joinRegionOk (wr (wr (wr (wr s F.DTM_CTL_SEED (bits w 39 20)) F.DTM_CTL_BASE_MIB (bits w 19 0)) F.DTM_CTL_BUSY 1) F.DTM_CTL_ERR 0) = false) ∧
    (∃ (s : State) (w : Word), rd s F.SEC_PROT_LOCK_LOCK = 1 ∧ bit w 63 = true ∧ (epoch s ≠ 0 ∨ rd s F.DTM_CTL_BUSY = 1)) ∧
    (∃ (s : State) (node e : Nat) (entries : List (Nat × List Word)) (log : List (List Word)), isUp s = true ∧
      s.dtm.copying = some node) ∧
    (∃ (s : State) (node e : Nat) (entries : List (Nat × List Word)) (log : List (List Word)), isUp s = true ∧
      s.dtm.copying = some node ∧ rd s F.DTM_CTL_BUSY = 1) :=
  ⟨⟨wr fx F.DTM_EPOCH_EPOCH 0, mkWord [(63, 1, 1), (20, 20, 3)], by decide +kernel⟩,
    ⟨wr fx F.DTM_EPOCH_EPOCH 0, mkWord [(63, 1, 1), (0, 20, 0xFFFFF)], by decide +kernel⟩,
    ⟨fx, mkWord [(63, 1, 1), (20, 20, 3)], by decide +kernel⟩,
    ⟨fxjoin, 3, 5, [], [], by decide +kernel⟩,
    ⟨fxjoin, 3, 5, [], [], by decide +kernel⟩⟩

theorem test_leases_and_holders_met :
    (∃ (s : State), isUp s = true ∧ epoch s ≠ 0) ∧
    (∃ (s : State) (e : Nat) (ws : List Word), isUp s = true ∧ dtmBad ws = false ∧ mKind ws = 1 ∧ epochRule s e = none ∧
      isHome s = true ∧ tget s.dtm.holders (mNode ws) = none ∧ s.dtm.holders.length < 16384) ∧
    (∃ (s : State) (e : Nat) (ws : List Word), isUp s = true ∧ dtmBad ws = false ∧ mKind ws = 1 ∧ epochRule s e = none ∧
      isHome s = true ∧ tget s.dtm.holders (mNode ws) = some ⟨true, false, true⟩) ∧
    (∃ (s : State) (e : Nat) (ws : List Word), isUp s = true ∧ dtmBad ws = false ∧ mKind ws = 1 ∧ epochRule s e = none ∧
      isHome s = true ∧ tget s.dtm.holders (mNode ws) = none ∧ 16384 ≤ s.dtm.holders.length) ∧
    (∃ (s : State) (e : Nat) (ws : List Word), isUp s = true ∧ dtmBad ws = true) ∧
    (∃ (s : State) (e : Nat) (ws : List Word), isUp s = true ∧ dtmBad ws = false ∧ mKind ws = 1 ∧
      epochRule s e = some St.DTM_STALE_MAP) ∧
    (∃ (s : State) (e : Nat) (ws : List Word), isUp s = true ∧ dtmBad ws = false ∧ mKind ws = 1 ∧
      epochRule s e = some St.GLK_BUSY) ∧
    (∃ (s : State) (e : Nat) (ws : List Word), isUp s = true ∧ dtmBad ws = false ∧ mKind ws = 1 ∧ epochRule s e = none ∧
      isHome s = false) ∧
    (∃ (s : State) (home : Nat) (l : Lease), isUp s = true ∧ tget s.dtm.leases home = some l ∧ l.live = true) ∧
    (∃ (s : State) (n : Nat) (h : Holder), isUp s = true ∧ tget s.dtm.holders n = some h ∧ h.live = true ∧
      h.revoked = false ∧ (tgetD s.dtm.holders (eTwin (mapGet s.dtm.map n)) ⟨false, false, false⟩).live = true) ∧
    (∃ (s : State) (n : Nat) (h : Holder), isUp s = true ∧ tget s.dtm.holders n = some h ∧ h.live = true ∧
      h.revoked = false ∧
      (tgetD (tset s.dtm.holders n { h with live := false }) (eTwin (mapGet s.dtm.map n)) ⟨false, false, false⟩).live = false ∧
      (tgetD (tset s.dtm.holders n { h with live := false }) (eTwin (mapGet s.dtm.map n)) ⟨false, false, false⟩).revoked = false) ∧
    (∃ (s : State) (src : Nat) (ws : List Word) (l : Lease), isUp s = true ∧ dtmBad ws = false ∧ mKind ws = 4 ∧
      mReq ws = 0 ∧ tget s.dtm.claims src = none ∧ exposed s = false ∧ tget s.dtm.leases src = some l ∧
      l.asked = some (mSeq ws) ∧ mSt ws = St.OK) :=
  ⟨⟨fx, by decide +kernel⟩,
    ⟨fx, 5, fxRenew, by decide +kernel⟩,
    ⟨fxhold 3 ⟨true, false, true⟩, 5, fxRenew, by decide +kernel⟩,
    ⟨fxfull, 5, fxRenew, by decide +kernel⟩,
    ⟨fx, 5, dtmWords 0 false 9 0 0 3 0 0 St.OK, by decide +kernel⟩,
    ⟨fx, 3, fxRenew, by decide +kernel⟩,
    ⟨fx, 6, fxRenew, by decide +kernel⟩,
    ⟨wr fx F.GLK_NODE_NODE_ID 5, 5, fxRenew, by decide +kernel⟩,
    ⟨fx, 1, ⟨true, none⟩, by decide +kernel⟩,
    ⟨{ fx with dtm := { fx.dtm with holders := [(3, ⟨true, false, false⟩), (4, ⟨true, false, false⟩)] } }, 3, ⟨true, false, false⟩, by decide +kernel⟩,
    ⟨fxhold 3 ⟨true, false, false⟩, 3, ⟨true, false, false⟩, by decide +kernel⟩,
    ⟨{ wr fx F.CON_STAT_EXPOSED 0 with dtm := { fx.dtm with leases := [(1, ⟨true, some 9⟩)] } }, 1, dtmWords 4 false 9 0 0 1 0 0 St.OK, ⟨true, some 9⟩, by decide +kernel⟩⟩

theorem test_queries_and_claims_met_1 :
    (∃ (s : State) (e : Nat) (ws : List Word), isUp s = true ∧ dtmBad ws = false ∧ mKind ws = 2 ∧ epochRule s e = none ∧
      actsAs s (homeOf s.dtm.map (mReq ws)) = true ∧ recordPrepared s (mReq ws) = true) ∧
    (∃ (s : State) (e : Nat) (ws : List Word), isUp s = true ∧ dtmBad ws = false ∧ mKind ws = 2 ∧ epochRule s e = none ∧
      actsAs s (homeOf s.dtm.map (mReq ws)) = true ∧ recordPrepared s (mReq ws) = false ∧
      tget s.dtm.homes (mReq ws) = some ⟨1, 1, 1, 0⟩) ∧
    (∃ (s : State) (e : Nat) (ws : List Word), isUp s = true ∧ dtmBad ws = false ∧ mKind ws = 2 ∧ epochRule s e = none ∧
      actsAs s (homeOf s.dtm.map (mReq ws)) = true ∧ recordPrepared s (mReq ws) = false ∧ tget s.dtm.homes (mReq ws) = none) ∧
    (∃ (s : State) (req : Nat), isUp s = true ∧ req ∈ s.dtm.queries) ∧
    (∃ (s : State) (src : Nat) (ws : List Word), isUp s = true ∧ dtmBad ws = false ∧ mKind ws = 4 ∧ mReq ws ≠ 0 ∧
      mReq ws ∈ s.dtm.queries ∧ mSt ws = St.HPT_REQ_UNKNOWN) ∧
    (∃ (s : State) (src : Nat) (ws : List Word), isUp s = true ∧ dtmBad ws = false ∧ mKind ws = 4 ∧ mReq ws ≠ 0 ∧
      mReq ws ∈ s.dtm.queries ∧ mSt ws = St.OK ∧ mOwner ws ≠ ownGroup s ∧ s.con.both = false ∧ role s ≠ 3) ∧
    (∃ (s : State) (src : Nat) (ws : List Word), isUp s = true ∧ dtmBad ws = false ∧ mKind ws = 4 ∧ mReq ws ≠ 0 ∧
      mReq ws ∈ s.dtm.queries ∧ mSt ws = St.DTM_NOT_HOME) ∧
    (∃ (s : State) (src : Nat) (ws : List Word), isUp s = true ∧ dtmBad ws = false ∧ mKind ws = 4 ∧ mReq ws ≠ 0 ∧
      mReq ws ∈ s.dtm.queries ∧ mSt ws = St.OK ∧ mOwner ws = ownGroup s ∧
      leaseLive (localTake { s with dtm := { s.dtm with queries := s.dtm.queries.filter (· != mReq ws) } } [⟨0, rootObj (mReq ws), .putLease (mReq ws) (mEpoch ws)⟩]) (mReq ws) = true) ∧
    (∃ (s : State) (e : Nat) (ws : List Word), isUp s = true ∧ dtmBad ws = false ∧ mKind ws = 3 ∧ epochRule s e = none ∧
      isHome s = true ∧ eTwin (mapGet s.dtm.map (mNode ws)) ≠ mSubject ws) ∧
    (∃ (s : State) (e : Nat) (ws : List Word), isUp s = true ∧ dtmBad ws = false ∧ mKind ws = 3 ∧ epochRule s e = none ∧
      isHome s = true ∧ eTwin (mapGet s.dtm.map (mNode ws)) = mSubject ws ∧ eState (mapGet s.dtm.map (mNode ws)) ≠ 0 ∧
      (tgetD s.dtm.holders (mSubject ws) ⟨false, false, false⟩).twinLoss = false ∧
      s.dtm.homes.filter (fun e => e.2.owner == eGroup (mapGet s.dtm.map (mSubject ws)) && e.2.owner != 0xFFFF) = []) ∧
    (∃ (s : State) (e : Nat) (ws : List Word), isUp s = true ∧ dtmBad ws = false ∧ mKind ws = 3 ∧ epochRule s e = none ∧
      isHome s = true ∧ eTwin (mapGet s.dtm.map (mNode ws)) = mSubject ws ∧ eState (mapGet s.dtm.map (mNode ws)) ≠ 0 ∧
      (tgetD s.dtm.holders (mSubject ws) ⟨false, false, false⟩).twinLoss = false ∧
      s.dtm.homes.filter (fun e => e.2.owner == eGroup (mapGet s.dtm.map (mSubject ws)) && e.2.owner != 0xFFFF) ≠ []) ∧
    (∃ (s : State) (home seq : Nat), isUp s = true ∧ tget s.dtm.claims home = some seq) :=
  ⟨⟨fxParts [(⟨3, 1⟩, { fxPart .prepared with actions := [(0, ⟨0, ⟨kHome, 0, 7⟩, .owner 1 1 2 1⟩)] })] [], 5, fxQuery, by decide +kernel⟩,
    ⟨{ fx with dtm := { fx.dtm with homes := [(7, ⟨1, 1, 1, 0⟩)] } }, 5, fxQuery, by decide +kernel⟩,
    ⟨fx, 5, fxQuery, by decide +kernel⟩,
    ⟨fxasked, 7, by decide +kernel⟩,
    ⟨fxasked, 1, dtmWords 4 false 9 7 0 1 0 0 St.HPT_REQ_UNKNOWN, by decide +kernel⟩,
    ⟨fxasked, 1, dtmWords 4 false 9 7 3 1 0 0 St.OK, by decide +kernel⟩,
    ⟨fxasked, 1, dtmWords 4 false 9 7 3 1 0 0 St.DTM_NOT_HOME, by decide +kernel⟩,
    ⟨fxasked, 1, dtmWords 4 false 9 7 1 1 0 2 St.OK, by decide +kernel⟩,
    ⟨fx, 5, dtmWords 3 false 9 0 0 4 5 0 St.OK, by decide +kernel⟩,
    ⟨fx, 5, dtmWords 3 false 9 0 0 4 3 0 St.OK, by decide +kernel⟩,
    ⟨{ fx with dtm := { fx.dtm with homes := [(7, ⟨1, 3, 1, 0⟩)] } }, 5, dtmWords 3 false 9 0 0 4 3 0 St.OK, by decide +kernel⟩,
    ⟨{ fx with dtm := { fx.dtm with claims := [(1, 9)] } }, 1, 9, by decide +kernel⟩⟩

theorem test_queries_and_claims_met_2 :
    ∃ (s : State) (b : Nat), isUp s = true ∧ b < 4096 ∧ bMoving (mapGet s.dtm.map (bucketBase + b)) = true ∧
      actsAs s (bucketHome s.dtm.map b) = true :=
  ⟨{ fx with dtm := { fx.dtm with map := fxMap.take 6 ++ [(bucketBase, [mkWord [(40, 1, 1)], 0, 0, 0])] ++ fxMap.drop 6 } }, 0, by decide +kernel⟩

theorem test_traverse_opening_met_1 :
    (∃ (s : State) (tr : TraverseTrigger) (r : Req) (root : Root), isUp s = true ∧ reqOf s (triggerReq tr) = some r ∧
      leadsFor s (triggerReq tr) = true ∧ triggerFits r tr = true ∧ (∀ q d o f, tr ≠ .park q d o f) ∧
      travOf s (triggerReq tr) = none ∧ thas s.kva.reshoots (triggerReq tr) = false ∧
      tget s.kva.roots (triggerReq tr) = some root ∧ travLed s < 256) ∧
    (∃ (s : State) (tr : TraverseTrigger) (r : Req) (root : Root), isUp s = true ∧ reqOf s (triggerReq tr) = some r ∧
      leadsFor s (triggerReq tr) = true ∧ triggerFits r tr = true ∧ (∀ q d o f, tr ≠ .park q d o f) ∧
      travOf s (triggerReq tr) = none ∧ thas s.kva.reshoots (triggerReq tr) = false ∧
      tget s.kva.roots (triggerReq tr) = some root ∧ 256 ≤ travLed s ∧ tr ∉ s.trv.waiting) ∧
    (∃ (s : State) (req dst origin flight : Nat) (r : Req) (root : Root), isUp s = true ∧ reqOf s req = some r ∧
      leadsFor s req = true ∧ thas s.kva.reshoots req = false ∧ travLed s < 256 ∧ tget s.kva.roots req = some root ∧
      parkCheck s req r dst = St.OK) ∧
    (∃ (s : State) (req dst origin flight : Nat) (r : Req) (root : Root), isUp s = true ∧ reqOf s req = some r ∧
      leadsFor s req = true ∧ thas s.kva.reshoots req = false ∧ travLed s < 256 ∧ tget s.kva.roots req = some root ∧
      parkCheck s req r dst ≠ St.OK) ∧
    (∃ (s : State) (req g : Nat) (r : Req) (t : Trav) (tr : TraverseTrigger), t.trigger = some tr ∧
      fixedDest r tr = some g ∧ t.tried = 0) ∧
    (∃ (s : State) (req g : Nat) (r : Req) (t : Trav) (tr : TraverseTrigger), t.trigger = some tr ∧
      fixedDest r tr = some g ∧ t.tried ≠ 0) ∧
    (∃ (s : State) (req g : Nat) (r : Req) (t : Trav) (tr : TraverseTrigger), t.trigger = some tr ∧
      fixedDest r tr = none ∧ destRange s r.model (parks tr) = some (5, 2) ∧ t.tried < 2 ∧ role s ≠ 4) ∧
    (∃ (s : State) (req g : Nat) (r : Req) (t : Trav) (tr : TraverseTrigger), t.trigger = some tr ∧
      fixedDest r tr = none ∧ destRange s r.model (parks tr) = some (5, 2) ∧ 2 ≤ t.tried) ∧
    (∃ (s : State) (hdr rc : List Word), isUp s = true ∧ hdrBad hdr = false ∧ transitBad rc = false ∧
      bits (wordAt hdr 0) 3 0 = 1 ∧ leads s (tDst rc) = true ∧ eGroup (mapGet s.dtm.map (hNode hdr)) ≠ tDst rc ∧
      openCheck s (hReq hdr) rc ≠ St.OK) ∧
    (∃ (s : State) (hdr rc : List Word), isUp s = true ∧ hdrBad hdr = false ∧ transitBad rc = false ∧
      bits (wordAt hdr 0) 3 0 = 1 ∧ leads s (tDst rc) = true ∧ eGroup (mapGet s.dtm.map (hNode hdr)) ≠ tDst rc ∧
      openCheck s (hReq hdr) rc = St.OK ∧ travOf s (hReq hdr) = none ∧ travLed s < 256 ∧ planOf rc ≠ 3) ∧
    (∃ (s : State) (hdr rc : List Word), isUp s = true ∧ hdrBad hdr = false ∧ transitBad rc = false ∧
      bits (wordAt hdr 0) 3 0 = 1 ∧ leads s (tDst rc) = false ∧ tDst rc = ownGroup s ∧
      leaderOf s.dtm.map (ownGroup s) = some (hNode hdr)) ∧
    (∃ (s : State) (hdr : List Word), isUp s = true ∧ hdrBad hdr = true) :=
  ⟨⟨fxtrv none, .auto 7, fxReq, fxRoot, by exact ⟨by decide +kernel, by decide +kernel, by decide +kernel, by decide +kernel, (by intro _ _ _ _ h; cases h), by decide +kernel, by decide +kernel, by decide +kernel, by decide +kernel⟩⟩,
    ⟨fxbusy, .auto 7, fxReq, fxRoot, by exact ⟨by decide +kernel, by decide +kernel, by decide +kernel, by decide +kernel, (by intro _ _ _ _ h; cases h), by decide +kernel, by decide +kernel, by decide +kernel, by decide +kernel⟩⟩,
    ⟨fxtrv none, 7, 0xFFFF, 1, 5, fxReq, fxRoot, by decide +kernel⟩,
    ⟨fxtrv none, 7, 5, 1, 5, fxReq, fxRoot, by decide +kernel⟩,
    ⟨fxr, 7, 5, fxReq, { fxTrav .opening 0 with trigger := some (.handover 7 5) }, .handover 7 5, by decide +kernel⟩,
    ⟨fxr, 7, 5, fxReq, { fxTrav .opening 0 with trigger := some (.handover 7 5), tried := 1 }, .handover 7 5, by decide +kernel⟩,
    ⟨fxdest, 7, 5, fxReq, { fxTrav .opening 0 with trigger := some (.prefillDone 7), tried := 1 }, .prefillDone 7, by decide +kernel⟩,
    ⟨fxdest, 7, 5, fxReq, { fxTrav .opening 0 with trigger := some (.prefillDone 7), tried := 2 }, .prefillDone 7, by decide +kernel⟩,
    ⟨fxm, fxHdr 1 0 St.OK 1 3, fxTr 3 1 0, by decide +kernel⟩,
    ⟨fxm, fxHdr 1 0 St.OK 1 2, fxTr 2 1 0, by decide +kernel⟩,
    ⟨two (wr fxm F.GLK_NODE_NODE_ID 7), fxHdr 1 0 St.OK 1 1, fxTr 2 1 0, by decide +kernel⟩,
    ⟨fx, fxHdr 0 0 St.OK 1 2, by decide +kernel⟩⟩

theorem test_traverse_opening_met_2 :
    (∃ (s : State) (hdr : List Word) (t : Trav), isUp s = true ∧ hdrBad hdr = false ∧ bits (wordAt hdr 0) 3 0 = 2 ∧
      travOf s (hReq hdr) = some t ∧ t.src = .opening ∧ tEpoch t.words = hEp hdr ∧ hSt hdr = St.OK ∧ planOf t.words ≠ 3) ∧
    (∃ (s : State) (hdr : List Word) (t : Trav), isUp s = true ∧ hdrBad hdr = false ∧ bits (wordAt hdr 0) 3 0 = 2 ∧
      travOf s (hReq hdr) = some t ∧ t.src = .opening ∧ tEpoch t.words = hEp hdr ∧ hSt hdr = St.OK ∧ planOf t.words = 3) ∧
    (∃ (s : State) (hdr : List Word) (t : Trav), isUp s = true ∧ hdrBad hdr = false ∧ bits (wordAt hdr 0) 3 0 = 2 ∧
      travOf s (hReq hdr) = some t ∧ t.src = .opening ∧ tEpoch t.words = hEp hdr ∧ hSt hdr ≠ St.OK) ∧
    (∃ (s : State) (req : Nat) (t : Trav) (r : Req), isUp s = true ∧ travOf s req = some t ∧ t.src = .opening) ∧
    (∃ (s : State) (req : Nat) (t : Trav) (r : Req), isUp s = true ∧ travOf s req = some t ∧ t.src = .waiting ∧
      reqOf s req = some r) :=
  ⟨⟨fxtrv (some (fxTrav .opening 0)), fxHdr 2 0 St.OK 1 2, fxTrav .opening 0, by decide +kernel⟩,
    ⟨fxtrv (some (fxTrav .opening 3)), fxHdr 2 0 St.OK 1 2, fxTrav .opening 3, by decide +kernel⟩,
    ⟨fxtrv (some (fxTrav .opening 0)), fxHdr 2 0 St.TRV_BUSY 1 2, fxTrav .opening 0, by decide +kernel⟩,
    ⟨fxtrv (some (fxTrav .opening 0)), 7, fxTrav .opening 0, fxReq, by decide +kernel⟩,
    ⟨fxtrv (some (fxTrav .waiting 0)), 7, fxTrav .waiting 0, fxReq, by decide +kernel⟩⟩

theorem test_traverse_legs_met :
    (∃ (s : State) (req : Nat) (t : Trav), isUp s = true ∧ travOf s req = some t ∧ t.member = true) ∧
    (∃ (s : State) (req n : Nat) (t : Trav), isUp s = true ∧ travOf s req = some t ∧ t.member = true ∧
      wants s req t ≠ [] ∧ leaderOf s.dtm.map (tSrc t.words) = some n) ∧
    (∃ (s : State) (hdr es : List Word) (flash : List (Option (List Byte))), isUp s = true ∧ hdrBad hdr = false ∧
      bits (wordAt hdr 0) 3 0 = 3 ∧ hNp hdr ≤ 64 ∧
      (List.range (es.length / 2)).any (fun i => bits (wordAt es (2 * i + 1)) 63 24 != 0) = false ∧
      ((thas s.kva.roots (hReq hdr) || thas s.con.mir.roots (hReq hdr)) = false ∨ (legPages s (hReq hdr) (hLh hdr) (es.take (2 * hNp hdr)) flash).all (fun p => heldHere s (hLh hdr) (pageIdx p.2.1 % 2 ^ 23)) = false)) ∧
    (∃ (s : State) (hdr es : List Word) (flash : List (Option (List Byte))), isUp s = true ∧ hdrBad hdr = false ∧
      bits (wordAt hdr 0) 3 0 = 3 ∧ hNp hdr ≤ 64 ∧
      (List.range (es.length / 2)).any (fun i => bits (wordAt es (2 * i + 1)) 63 24 != 0) = false ∧
      (thas s.kva.roots (hReq hdr) || thas s.con.mir.roots (hReq hdr)) = true ∧ hReq hdr ∈ s.trv.pins ∧
      (legPages s (hReq hdr) (hLh hdr) (es.take (2 * hNp hdr)) flash).all (fun p => heldHere s (hLh hdr) (pageIdx p.2.1 % 2 ^ 23)) = true ∧
      (legPages s (hReq hdr) (hLh hdr) (es.take (2 * hNp hdr)) flash).any (fun p => p.2.2.1.state == 0) = false) ∧
    (∃ (s : State) (hdr es : List Word) (t : Trav) (l : Leg), isUp s = true ∧ hdrBad hdr = false ∧
      bits (wordAt hdr 0) 3 0 = 4 ∧ es.any (fun w => bits w 63 35 != 0 || !([1, 3, 4].contains (bits w 18 16))) = false ∧
      travOf s (hReq hdr) = some t ∧ t.legs.find? (fun l => l.seq == hSeq hdr) = some l ∧ hSt hdr = St.OK ∧
      (runLocal s .block .plain ((legActs s (hReq hdr) t l es).flatMap (fun a => a.2))).2.committed = true) ∧
    (∃ (s : State) (hdr es : List Word) (coded : List Byte) (t : Trav) (l : Leg), isUp s = true ∧ hdrBad hdr = false ∧
      bits (wordAt hdr 0) 3 0 = 4 ∧ es.any (fun w => bits w 63 35 != 0 || !([1, 3, 4].contains (bits w 18 16))) = false ∧
      travOf s (hReq hdr) = some t ∧ t.legs.find? (fun l => l.seq == hSeq hdr) = some l ∧ hSt hdr ≠ St.OK) ∧
    (∃ (s : State) (hdr es : List Word) (coded : List Byte) (t : Trav) (l : Leg), isUp s = true ∧ hdrBad hdr = false ∧
      bits (wordAt hdr 0) 3 0 = 4 ∧ es.any (fun w => bits w 63 35 != 0 || !([1, 3, 4].contains (bits w 18 16))) = false ∧
      travOf s (hReq hdr) = some t ∧ t.legs.find? (fun l => l.seq == hSeq hdr) = some l ∧ hSt hdr = St.OK ∧ coded ≠ [] ∧
      (decodeLeg s (travClass s t.words) ((l.pages.zipIdx.filter (fun p => bits (wordAt es p.2) 18 16 == 1)).map (fun p => l.frames.getD p.2 0)) coded).isNone = true) ∧
    (∃ (s : State) (req seq : Nat) (t : Trav) (l : Leg), isUp s = true ∧ travOf s req = some t ∧
      t.legs.find? (fun l => l.seq == seq) = some l) ∧
    (∃ (s : State) (req slot : Nat) (t : Trav), isUp s = true ∧ travOf s req = some t ∧ slot ∉ t.counts ∧
      sliceFirst (modelVocab s (tModel t.words)) (groupSize s) (ownSlot s) = 0 ∧
      63 < sliceLen (modelVocab s (tModel t.words)) (groupSize s) (ownSlot s) ∧
      (addCount (tgetD s.smp.counts req []) 63 1).2 = false) :=
  ⟨⟨fxtrv (some (fxMember [])), 7, fxMember [], by decide +kernel⟩,
    ⟨fxtrv (some (fxMember [])), 7, 2, fxMember [], by decide +kernel⟩,
    ⟨fx, fxHdr 3 1 St.OK 1 5, [0, 0], [], by decide +kernel⟩,
    ⟨{ fxk 1 1 4 1 with trv := { fxr.trv with pins := [7] } }, fxHdr 3 1 St.OK 1 5, [0, 0], [], by decide +kernel⟩,
    ⟨fxtrv (some (fxMember [fxLeg])), fxHdr 4 1 St.OK 1 2, [mkWord [(0, 16, 1), (16, 3, 3)]], fxMember [fxLeg], fxLeg, by decide +kernel⟩,
    ⟨fxtrv (some (fxMember [fxLeg])), fxHdr 4 1 St.CLK_HBM_SUSPECT 1 2, [mkWord [(16, 3, 3)]], [], fxMember [fxLeg], fxLeg, by decide +kernel⟩,
    ⟨fxtrv (some (fxMember [fxLeg])), fxHdr 4 1 St.OK 1 2, [mkWord [(16, 3, 1)]], [0], fxMember [fxLeg], fxLeg, by decide +kernel⟩,
    ⟨fxtrv (some (fxMember [fxLeg])), 7, 9, fxMember [fxLeg], fxLeg, by decide +kernel⟩,
    ⟨fxtrv (some (fxMember [])), 7, 0, fxMember [], by decide +kernel⟩⟩

theorem test_traverse_end_met :
    (∃ (s : State) (hdr : List Word) (t : Trav), isUp s = true ∧ hdrBad hdr = false ∧ bits (wordAt hdr 0) 3 0 = 5 ∧
      travOf s (hReq hdr) = some t ∧ tEpoch t.words = hEp hdr ∧ t.dst = true ∧ hNode hdr ∉ t.done ∧ t.closing = false ∧
      (servers s (tDst t.words)).all (fun n => (t.done ++ [hNode hdr]).contains n) = true) ∧
    (∃ (s : State) (hdr : List Word) (t : Trav), isUp s = true ∧ hdrBad hdr = false ∧ bits (wordAt hdr 0) 3 0 = 5 ∧
      travOf s (hReq hdr) = some t ∧ tEpoch t.words = hEp hdr ∧ t.dst = true ∧ hNode hdr ∉ t.done ∧
      (servers s (tDst t.words)).all (fun n => (t.done ++ [hNode hdr]).contains n) = false) ∧
    (∃ (s : State) (req src : Nat) (t : Trav), leaderOf s.dtm.map (tSrc t.words) = some src) ∧
    (∃ (s : State) (hdr : List Word) (t : Trav), isUp s = true ∧ hdrBad hdr = false ∧ bits (wordAt hdr 0) 3 0 = 6 ∧
      travOf s (hReq hdr) = some t ∧ hEp hdr = (tEpoch t.words + 1) % 2 ^ 32) ∧
    (∃ (s : State) (hdr : List Word) (t : Trav), isUp s = true ∧ hdrBad hdr = false ∧ bits (wordAt hdr 0) 3 0 = 6 ∧
      travOf s (hReq hdr) = some t ∧ hEp hdr ≠ (tEpoch t.words + 1) % 2 ^ 32) ∧
    (∃ (s : State) (hdr : List Word) (root : Root), isUp s = true ∧ hdrBad hdr = false ∧ bits (wordAt hdr 0) 3 0 = 7 ∧
      tget s.kva.roots (hReq hdr) = some root ∧ hEp hdr ≠ 0 ∧ role s = 3 ∧ root.lease ≠ 0) ∧
    (∃ (s : State) (hdr : List Word) (root : Root), isUp s = true ∧ hdrBad hdr = false ∧ bits (wordAt hdr 0) 3 0 = 7 ∧
      tget s.kva.roots (hReq hdr) = some root ∧ hEp hdr ≠ 0 ∧ role s ≠ 3) ∧
    (∃ (s : State) (hdr : List Word) (root : Root), isUp s = true ∧ hdrBad hdr = false ∧ bits (wordAt hdr 0) 3 0 = 7 ∧
      tget s.kva.roots (hReq hdr) = some root ∧ hEp hdr = 0) ∧
    (∃ (s : State) (hdr : List Word) (t : Trav), isUp s = true ∧ hdrBad hdr = false ∧ bits (wordAt hdr 0) 3 0 = 8 ∧
      travOf s (hReq hdr) = some t ∧ tEpoch t.words = hEp hdr ∧ (t.src = .running ∨ t.src = .opening) ∧
      votedClosing s (hReq hdr) = false) ∧
    (∃ (s : State) (hdr : List Word) (t : Trav), isUp s = true ∧ hdrBad hdr = false ∧ bits (wordAt hdr 0) 3 0 = 8 ∧
      travOf s (hReq hdr) = some t ∧ tEpoch t.words = hEp hdr ∧ (t.src = .running ∨ t.src = .opening) ∧
      votedClosing s (hReq hdr) = true) ∧
    (∃ (s : State) (hdr : List Word) (t : Trav), isUp s = true ∧ hdrBad hdr = false ∧ bits (wordAt hdr 0) 3 0 = 8 ∧
      travOf s (hReq hdr) = some t ∧ tEpoch t.words = hEp hdr ∧ t.src = .none ∧ t.member = true) ∧
    (∃ (s : State) (req : Nat) (r : Req), isUp s = true ∧ rd s F.TRV_CFG_AUTO_PARK_MS ≠ 0 ∧ reqOf s req = some r ∧
      leadsFor s req = true ∧ r.starved = true ∧ r.phase = .decode ∧ travOf s req = none ∧ tget s.smp.results req = none) :=
  ⟨⟨fxtrv (some (fxMember [])), fxHdr 5 0 St.OK 1 1, fxMember [], by decide +kernel⟩,
    ⟨fxtrv (some (fxMember [])), fxHdr 5 0 St.OK 1 2, fxMember [], by decide +kernel⟩,
    ⟨fxtrv (some (fxMember [])), 7, 2, fxMember [], by decide +kernel⟩,
    ⟨fxtrv (some (fxTrav .running 0)), fxHdr 6 0 St.OK 2 2, fxTrav .running 0, by decide +kernel⟩,
    ⟨fxtrv (some (fxTrav .running 0)), fxHdr 6 0 St.OK 1 2, fxTrav .running 0, by decide +kernel⟩,
    ⟨wr (fxtrv none) F.GLK_NODE_NODE_ID 3, fxHdr 7 0 St.OK 1 2, fxRoot, by decide +kernel⟩,
    ⟨fxtrv none, fxHdr 7 0 St.OK 1 2, fxRoot, by decide +kernel⟩,
    ⟨fxtrv none, fxHdr 7 0 St.OK 0 2, fxRoot, by decide +kernel⟩,
    ⟨fxtrv (some (fxTrav .running 0)), fxHdr 8 0 St.TRV_ABANDONED 1 2, fxTrav .running 0, by decide +kernel⟩,
    ⟨{ fxtrv (some (fxTrav .running 0)) with tak := { fx.tak with part := [(⟨2, 1⟩, { fxPart .prepared with actions := [(0, ⟨0, rootObj 7, .putLease 7 0⟩)] })] } }, fxHdr 8 0 St.TRV_ABANDONED 1 2, fxTrav .running 0, by decide +kernel⟩,
    ⟨fxtrv (some (fxMember [])), fxHdr 8 0 St.TRV_ABANDONED 1 2, fxMember [], by decide +kernel⟩,
    ⟨{ wr fxr F.TRV_CFG_AUTO_PARK_MS 10 with sch := { fxr.sch with reqs := [(7, fxStarved)] } }, 7, fxStarved, by decide +kernel⟩⟩

theorem test_beats_and_probes_met_1 :
    (∃ (s : State) (t : Nat), isUp s = true ∧ liveTwin s = some t ∧ conState s ≠ 0 ∧ s.con.yielding = 0 ∧
      rd s F.CON_STAT_SIDEBAND_OK = 1) ∧
    (∃ (s : State) (w : Word), isUp s = true ∧ conState s ≠ 0 ∧ beatValid w = true ∧ rd s F.CON_STAT_SIDEBAND_OK = 1 ∧
      (s.con.beatSeq + 2 * 2 ^ 16 - 1 - bits w 31 16) % 2 ^ 16 < 3) ∧
    (∃ (s : State) (w : Word), isUp s = true ∧ conState s ≠ 0 ∧ beatValid w = false) ∧
    (∃ (s : State) (before misses : Nat) (w : Word), bit w 35 = false ∧ conState s = 1 ∧ bits w 34 32 = 3) ∧
    (∃ (s : State) (before misses : Nat) (w : Word), bit w 35 = false ∧ conState s = 1 ∧ bits w 34 32 = 1) ∧
    (∃ (s : State) (before misses : Nat) (w : Word), bit w 35 = false ∧ (conState s = 2 ∨ conState s = 3) ∧
      bits w 34 32 = 5 ∧ rd s F.CON_CTL_AUTO_REINT = 1) ∧
    (∃ (s : State) (before misses : Nat) (w : Word), bit w 35 = true ∧ conState s = 1) ∧
    (∃ (s : State) (t : Nat), isUp s = true ∧ conState s ≠ 0 ∧ liveTwin s = some t ∧ s.con.misses + 1 ≠ 3) ∧
    (∃ (s : State) (t : Nat), isUp s = true ∧ conState s ≠ 0 ∧ liveTwin s = some t ∧ s.con.misses = 2 ∧ conState s = 1 ∧
      s.con.yielding = 0) ∧
    (∃ (s : State), isUp s = true ∧ s.con.unacked ≠ [] ∧ conState s = 1 ∧ s.con.yielding = 0) ∧
    (∃ (s : State), isUp s = true ∧ s.con.probing = true ∧ conState s = 1) ∧
    (∃ (s : State), isUp s = true ∧ s.con.probing = true ∧ conState s ≠ 1) :=
  ⟨⟨fxcon 1, 2, by decide +kernel⟩,
    ⟨fxcon 1, fxBeat 0xFFFF 1 0, by decide +kernel⟩,
    ⟨fxcon 1, fxBeat 0xFFFF 1 0 ^^^ 1, by decide +kernel⟩,
    ⟨fxcon 1, 0, 0, fxBeat 0 3 0, by decide +kernel⟩,
    ⟨fxcon 1, 0, 0, fxBeat 0 1 0, by decide +kernel⟩,
    ⟨wr (fxcon 2) F.CON_CTL_AUTO_REINT 1, 0, 0, fxBeat 0 5 0, by decide +kernel⟩,
    ⟨fxcon 1, 0, 0, fxBeat 0 1 1, by decide +kernel⟩,
    ⟨fxlag 1 0 false, 2, by decide +kernel⟩,
    ⟨fxlag 1 2 false, 2, by decide +kernel⟩,
    ⟨fxlag 1 0 false, by decide +kernel⟩,
    ⟨fxlag 1 0 true, by decide +kernel⟩,
    ⟨fxlag 2 0 true, by decide +kernel⟩⟩

theorem test_beats_and_probes_met_2 :
    (∃ (s : State) (w : Word), isUp s = true ∧ s.con.probing = true ∧ conState s = 1) ∧
    (∃ (s : State) (w : Word), isUp s = true ∧ s.con.probing = true ∧ conState s = 2 ∧ bits w 63 61 = 2) :=
  ⟨⟨fxlag 1 0 true, 0, by decide +kernel⟩,
    ⟨fxlag 2 0 true, at' 61 3 2, by decide +kernel⟩⟩

theorem test_mirror_and_pair_met_1 :
    (∃ (s : State) (hdr : List Word) (body : MirrorBody) (t : Nat), isUp s = true ∧ twin s = some t ∧ conState s ≠ 0 ∧
      conState s ≠ 2 ∧ conState s ≠ 6 ∧
      (bits (wordAt hdr 0) 63 56 ≠ 0 ∨ bits (wordAt hdr 1) 63 12 ≠ 0 ∨ 4080 < bits (wordAt hdr 1) 11 0 ∨ bits (wordAt hdr 0) 55 48 ≠ kindOf body ∨ bits (wordAt hdr 0) 55 48 = 0 ∨ 13 ≤ bits (wordAt hdr 0) 55 48)) ∧
    (∃ (s s2 : State) (hdr : List Word) (body : MirrorBody) (t : Nat), isUp s = true ∧ twin s = some t ∧ conState s ≠ 0 ∧
      conState s ≠ 2 ∧ conState s ≠ 6 ∧ bits (wordAt hdr 0) 63 56 = 0 ∧ bits (wordAt hdr 1) 63 12 = 0 ∧
      bits (wordAt hdr 1) 11 0 ≤ 4080 ∧ bits (wordAt hdr 0) 55 48 = kindOf body ∧ 0 < kindOf body ∧ kindOf body < 13 ∧
      bits (wordAt hdr 0) 47 0 = s.con.applied ∧ s.con.early = [] ∧
      applyMirror { s with con := { s.con with early := [⟨s.con.applied, body⟩] } } body = some s2 ∧
      auditBad { s with con := { s.con with early := [⟨s.con.applied, body⟩] } } body = false) ∧
    (∃ (s : State) (p : PageKey) (off soff : Nat) (bs sc : List Byte), (tgetD s.con.mir.ptes (keyOfPage p) pteNone).state = 1) ∧
    (∃ (s : State) (p : PageKey) (off soff : Nat) (bs sc : List Byte), (tgetD s.con.mir.ptes (keyOfPage p) pteNone).state ≠ 1) ∧
    (∃ (s : State) (b : MirrorBody), s.con.waiting = none ∧ conState s = 1) ∧
    (∃ (s : State) (w : Word), rd s F.SEC_PROT_LOCK_LOCK = 1 ∧ bit w 63 = true ∧ rd s F.CON_CTL_EN = 0 ∧
      conRegionsOk s = true) ∧
    (∃ (s : State) (w : Word), rd s F.SEC_PROT_LOCK_LOCK = 1 ∧ bit w 63 = true ∧ rd s F.CON_CTL_EN = 0 ∧
      conRegionsOk s = false) ∧
    (∃ (s : State) (w : Word), rd s F.SEC_PROT_LOCK_LOCK = 1 ∧ bit w 63 = false) ∧
    (∃ (s : State), rd s F.SEC_PROT_LOCK_LOCK = 1 ∧ conBusy s = true) ∧
    (∃ (s : State), rd s F.SEC_PROT_LOCK_LOCK = 1 ∧ conBusy s = false ∧ conState s ≠ 1) ∧
    (∃ (s : State), rd s F.SEC_PROT_LOCK_LOCK = 1 ∧ conBusy s = false ∧ conState s = 1) ∧
    (∃ (s : State), rd s F.SEC_PROT_LOCK_LOCK = 1 ∧ isUp s = true ∧ conBusy s = true) :=
  ⟨⟨fxcon 1, [at' 48 8 12, 0], .release 7, 2, by decide +kernel⟩,
    ⟨fxcon 1, (applyMirror { fxcon 1 with con := { fx.con with early := [⟨0, .release 7⟩] } } (.release 7)).getD fx, [at' 48 8 11, 0], .release 7, 2, by decide +kernel⟩,
    ⟨{ fx with con := { fx.con with mir := { fx.con.mir with ptes := [(pg, ⟨2 ^ 30, 1, 1, 1, false, 0, 0, 0⟩)] } } }, ⟨7, 0, 0, 0⟩, 0, 0, [1], [1], by decide +kernel⟩,
    ⟨fx, ⟨7, 0, 0, 0⟩, 0, 0, [1], [1], by decide +kernel⟩,
    ⟨fxcon 1, .release 7, by decide +kernel⟩,
    ⟨fx, at' 63 1 1, by decide +kernel⟩,
    ⟨wr (wr fx F.CON_MIRROR_BASE_MIB 0xFFFFF) F.CON_MIRROR_SIZE_MIB 1, at' 63 1 1, by decide +kernel⟩,
    ⟨fx, 0, by decide +kernel⟩,
    ⟨fxsupply 2, by decide +kernel⟩,
    ⟨fxcon 2, by decide +kernel⟩,
    ⟨fxcon 1, by decide +kernel⟩,
    ⟨fxsupply 2, by decide +kernel⟩⟩

theorem test_mirror_and_pair_met_2 :
    (∃ (s : State), rd s F.SEC_PROT_LOCK_LOCK = 1 ∧ isUp s = true ∧ conBusy s = false ∧
      (conState s = 2 ∨ conState s = 3 ∨ conState s = 4)) ∧
    (∃ (s : State), isUp s = true ∧ conState s = 4 ∧ conPhase s = 2) ∧
    (∃ (s : State) (t : Nat), isUp s = true ∧ twin s = some t ∧ conState s = 4 ∧ 3 ≤ conPhase s ∧ s.con.cutover = 0 ∧
      sumNat (s.con.delta.map (fun r => 16 + bodyBytes r.body)) < rd s F.CON_CFG_DRAIN_KIB * 1024) ∧
    (∃ (s : State) (t : Nat), isUp s = true ∧ twin s = some t ∧ conState s = 4 ∧ 3 ≤ conPhase s ∧ s.con.cutover = 0 ∧
      rd s F.CON_CFG_DRAIN_KIB * 1024 ≤ sumNat (s.con.delta.map (fun r => 16 + bodyBytes r.body))) ∧
    (∃ (s : State) (f : Nat) (x : Frame), isUp s = true ∧ conState s = 1 ∧ rd s F.CON_CMP_CFG_EN = 1 ∧
      ((s.kva.frames.filter (fun f => f.2.page.isSome && !f.2.mirror)).find? (fun e => decide (s.con.auditAt ≤ e.1))) = some (f, x)) ∧
    (∃ (s : State) (crc : BitVec 32), isUp s = true ∧ conState s = 1 ∧ rd s F.CON_CMP_CFG_EN = 1 ∧
      probeCheck s = some St.MXE_NO_KERNEL) ∧
    (∃ (s : State) (crc : BitVec 32), isUp s = true ∧ conState s = 1 ∧ rd s F.CON_CMP_CFG_EN = 1 ∧ probeCheck s = none ∧
      crc.toNat = rd s F.CON_CMP_TENS1_EXPECT) ∧
    (∃ (s : State) (crc : BitVec 32), isUp s = true ∧ conState s = 1 ∧ rd s F.CON_CMP_CFG_EN = 1 ∧ probeCheck s = none ∧
      crc.toNat ≠ rd s F.CON_CMP_TENS1_EXPECT ∧ rd s F.CON_CMP_CFG_YIELD_ON_FAIL = 0) :=
  ⟨⟨fxcon 3, by decide +kernel⟩,
    ⟨fxsupply 2, by decide +kernel⟩,
    ⟨fxsupply 3, 2, by decide +kernel⟩,
    ⟨wr (fxsupply 3) F.CON_CFG_DRAIN_KIB 0, 2, by decide +kernel⟩,
    ⟨{ wr (fxcon 1) F.CON_CMP_CFG_EN 1 with kva := { fx.kva with frames := [(2 ^ 30, ⟨0, some pg, false⟩)] } }, 2 ^ 30, ⟨0, some pg, false⟩, by decide +kernel⟩,
    ⟨fxcmp 0 5, 5, by decide +kernel⟩,
    ⟨fxcmp 1 5, 5, by decide +kernel⟩,
    ⟨fxcmp 1 5, 6, by decide +kernel⟩⟩

theorem test_clock_states_met_1 :
    (∃ (s : State) (site : Nat), inReset s = false) ∧
    (∃ (s : State), rd s F.CLK_STAT_DROOP = 1 ∧ s.clk.droopSites = []) ∧
    (∃ (s : State) (w : Nat), inReset s = false ∧ rd s F.CLK_PWR_CFG_LIMIT_W < w) ∧
    (∃ (s : State) (w : Nat), inReset s = false ∧ w * 100 < 95 * rd s F.CLK_PWR_CFG_LIMIT_W) ∧
    (∃ (s : State) (w : Nat), inReset s = false ∧ 95 * rd s F.CLK_PWR_CFG_LIMIT_W ≤ w * 100 ∧
      w ≤ rd s F.CLK_PWR_CFG_LIMIT_W) ∧
    (∃ (s : State) (u : CoreUnit), isUp s = true ∧ rd s F.CLK_IDLE_CFG_IDLE_US ≠ 0 ∧ unitExists u = true ∧
      unitNeeded s u = false ∧ u ∉ s.clk.gated) ∧
    (∃ (s : State), rd s F.SEC_PROT_LOCK_LOCK = 1 ∧ s.clk.hold = false ∧ mayHold s = true) ∧
    (∃ (s : State), rd s F.SEC_PROT_LOCK_LOCK = 1 ∧ s.clk.hold = false ∧ mayHold s = false) ∧
    (∃ (s : State), rd s F.SEC_PROT_LOCK_LOCK = 1 ∧ s.clk.hold = false) ∧
    (∃ (s : State), rd s F.SEC_PROT_LOCK_LOCK = 1 ∧ s.clk.hold = true) ∧
    (∃ (s : State) (ts : List Nat), s.mgt.trip = false) ∧
    (∃ (s : State) (d k : List Nat), s.mgt.alert = false ∧ alertDue s d k = true) :=
  ⟨⟨fx, 3, by decide +kernel⟩,
    ⟨wr fx F.CLK_STAT_DROOP 1, by decide +kernel⟩,
    ⟨fx, 801, by decide +kernel⟩,
    ⟨fx, 0, by decide +kernel⟩,
    ⟨wr fx F.CLK_PWR_CFG_LIMIT_W 700, 665, by decide +kernel⟩,
    ⟨wr fx F.CLK_IDLE_CFG_IDLE_US 10, .sampler, by decide +kernel⟩,
    ⟨{ fx with hpt := { fx.hpt with ctxs := [] } }, by decide +kernel⟩,
    ⟨fx, by decide +kernel⟩,
    ⟨fx, by decide +kernel⟩,
    ⟨{ fx with clk := { fx.clk with hold := true } }, by decide +kernel⟩,
    ⟨fx, [90], by decide +kernel⟩,
    ⟨fx, [110], [], by decide +kernel⟩⟩

theorem test_clock_states_met_2 :
    ∃ (s : State) (d k : List Nat), s.mgt.alert = true ∧ alertOver s d k = true :=
  ⟨{ fx with mgt := { fx.mgt with alert := true } }, [0], [89], by decide +kernel⟩

theorem test_resets_met :
    (∃ (s : State) (w : Word), rd s F.SEC_PROT_LOCK_LOCK = 1 ∧ bits w 15 8 = 0xC5 ∧ bits w 1 0 = 1 ∧ inReset s = false) ∧
    (∃ (s : State) (w : Word), rd s F.SEC_PROT_LOCK_LOCK = 1 ∧ (bits w 15 8 ≠ 0xC5 ∨ bits w 1 0 ≠ 1)) ∧
    (∃ (s : State), inReset s = false) ∧
    (∃ (s : State) (c : BitVec 16), inReset s = false ∧ c ∈ faultCauses ∧ s.clk.fault = some c) ∧
    (∃ (s : State) (b : Bool) (a : BitVec 3), s.clk.porstLow = true) :=
  ⟨⟨fx, mkWord [(8, 8, 0xC5), (0, 2, 1)], by decide +kernel⟩,
    ⟨fx, mkWord [(8, 8, 0xC4), (0, 2, 1)], by decide +kernel⟩,
    ⟨fx, by decide +kernel⟩,
    ⟨{ fx with clk := { fx.clk with fault := some St.MEM_PC_FAIL } }, St.MEM_PC_FAIL, by decide +kernel⟩,
    ⟨{ fx with clk := { fx.clk with porstLow := true } }, true, 1, by decide +kernel⟩⟩

theorem test_granule_commands_met :
    (∃ (s : State) (f n : Nat), rd s F.SEC_PROT_LOCK_LOCK = 1 ∧ rd s F.CLK_HBM_CMD_STAT_BUSY = 0 ∧
      f + n + 1 ≤ granuleCount s ∧ s.clk.contentsLost = true) ∧
    (∃ (s : State) (f n : Nat), rd s F.SEC_PROT_LOCK_LOCK = 1 ∧ rd s F.CLK_HBM_CMD_STAT_BUSY = 0 ∧
      f + n + 1 ≤ granuleCount s ∧ s.clk.contentsLost = false ∧ continuityUp (hbmBegun s f n) = false) ∧
    (∃ (s : State) (f n : Nat), rd s F.SEC_PROT_LOCK_LOCK = 1 ∧ rd s F.CLK_HBM_CMD_STAT_BUSY = 0 ∧
      f + n + 1 ≤ granuleCount s ∧ s.clk.contentsLost = false ∧ continuityUp (hbmBegun s f n) = true) ∧
    (∃ (s : State) (f n : Nat), rd s F.SEC_PROT_LOCK_LOCK = 1 ∧ rd s F.CLK_HBM_CMD_STAT_BUSY = 1) ∧
    (∃ (s : State) (f n : Nat), rd s F.SEC_PROT_LOCK_LOCK = 1 ∧ rd s F.CLK_HBM_CMD_STAT_BUSY = 0 ∧
      granuleCount s < f + n + 1) ∧
    (∃ (s : State) (c : HbmCmd) (crc : BitVec 32), s.clk.hbm = some c ∧ c.clear = false ∧ crc = granuleCrc s c.next) ∧
    (∃ (s : State) (c : HbmCmd) (crc : BitVec 32), s.clk.hbm = some c ∧ c.clear = false ∧ crc ≠ granuleCrc s c.next ∧
      c.failed = none) ∧
    (∃ (s : State) (g : Nat), isUp s = true ∧ g < granuleCount s ∧
      readRefusal s (g * 2 ^ 30) (min (2 ^ 30) (memTop s - g * 2 ^ 30)) = none) ∧
    (∃ (s : State) (c : HbmCmd), s.clk.hbm = some c ∧ c.clear = true) ∧
    (∃ (s : State) (h off : Nat) (bytes : List Byte), isUp s = true ∧ rangeAwaited s h off = true ∧ bytes.length = 4096) ∧
    (∃ (s : State) (r : RasRec), nextRecord s.ras.queue = some r) :=
  ⟨⟨fx, 953, 0, by decide +kernel⟩,
    ⟨fxkept 0, 0, 953, by decide +kernel⟩,
    ⟨fxkept 1, 0, 0, by decide +kernel⟩,
    ⟨fxhbm false, 0, 0, by decide +kernel⟩,
    ⟨fx, 954, 0, by decide +kernel⟩,
    ⟨fxhbm false, ⟨false, 0, 0, none⟩, granuleCrc (fxhbm false) 0, by exact ⟨by decide +kernel, rfl, rfl⟩⟩,
    ⟨fxhbm false, ⟨false, 0, 0, none⟩, granuleCrc (fxhbm false) 0 + 1, by exact ⟨by decide +kernel, rfl, succ_ne _, rfl⟩⟩,
    ⟨fx, 953, by decide +kernel⟩,
    ⟨fxhbm true, ⟨true, 0, 0, none⟩, by decide +kernel⟩,
    ⟨fxdam, 1, 0x10000, List.replicate 4096 0, by decide +kernel⟩,
    ⟨{ fx with ras := { fx.ras with queue := [fxErr] } }, fxErr, by decide +kernel⟩⟩

theorem test_boot_and_attest_met :
    (∃ (s : State), inReset s = false ∧ (rd s F.SEC_BOOT_STAT_STAGE = 1 ∨ rd s F.SEC_BOOT_STAT_STAGE = 4) ∧
      3 ≤ s.sec.cores ∧ rd s F.SEC_BOOT_STAT_STAGE = 1) ∧
    (∃ (s : State), inReset s = false ∧ (rd s F.SEC_BOOT_STAT_STAGE = 1 ∨ rd s F.SEC_BOOT_STAT_STAGE = 4) ∧
      3 ≤ s.sec.cores ∧ rd s F.SEC_BOOT_STAT_STAGE = 4) ∧
    (∃ (s : State) (i : BootImage) (c : Status), inReset s = false ∧ s.sec.image < 3 ∧
      (rd s F.SEC_BOOT_STAT_STAGE = 1 ∨ rd s F.SEC_BOOT_STAT_STAGE = 2) ∧ imageFault s i = some c) ∧
    (∃ (s : State) (i : BootImage), inReset s = false ∧
      (rd s F.SEC_BOOT_STAT_STAGE = 1 ∨ rd s F.SEC_BOOT_STAT_STAGE = 2) ∧ imageFault s i = none ∧ s.sec.image = 0) ∧
    (∃ (s : State) (i : BootImage), inReset s = false ∧
      (rd s F.SEC_BOOT_STAT_STAGE = 1 ∨ rd s F.SEC_BOOT_STAT_STAGE = 2) ∧ imageFault s i = none ∧ s.sec.image = 1) ∧
    (∃ (s : State) (i : BootImage), inReset s = false ∧
      (rd s F.SEC_BOOT_STAT_STAGE = 1 ∨ rd s F.SEC_BOOT_STAT_STAGE = 2) ∧ imageFault s i = none ∧ s.sec.image = 2) ∧
    (∃ (s : State) (a : RegAccess), rd s F.SEC_PROT_LOCK_LOCK = 0 ∧ bootReg a = false) ∧
    (∃ (s : State) (a : RegAccess) (w : Word), inWindow a.off = true ∧ aligned a = true ∧ rd s F.SEC_PROT_LOCK_LOCK = 1) ∧
    (∃ (s : State), isUp s = true ∧ 3 ≤ s.sec.spdm) ∧
    (∃ (s : State) (n : List Byte), isUp s = false) ∧
    (∃ (s : State) (n : List Byte), isUp s = true ∧ s.sec.spdm < 3) :=
  ⟨⟨fxboot 1 3, by decide +kernel⟩,
    ⟨fxboot 4 3, by decide +kernel⟩,
    ⟨fxboot 1 0, { fxImg 0 with fetched := false }, St.SEC_HOST_ERR, by decide +kernel⟩,
    ⟨fxboot 1 0, fxImg 0, by decide +kernel⟩,
    ⟨fxboot 2 1, fxImg 1, by decide +kernel⟩,
    ⟨fxboot 2 2, fxImg 2, by decide +kernel⟩,
    ⟨State.reset, ⟨0x10018, 8⟩, by decide +kernel⟩,
    ⟨fx, ⟨0x7FFFF8, 8⟩, 1, by decide +kernel⟩,
    ⟨{ fx with sec := { fx.sec with spdm := 3 } }, by decide +kernel⟩,
    ⟨State.reset, [], by decide +kernel⟩,
    ⟨fx, [], by decide +kernel⟩⟩

theorem test_register_access_met :
    (∃ (s : State) (a : RegAccess) (w : Word) (r : RegDef), served s a = true ∧ refusedForm a = false ∧
      inWindow (a.off / 8 * 8) = false ∧ (a.off / 8 * 8) ∉ bwRegs ∧ commandWrite s a (a.off / 8 * 8) w = none ∧
      regAt (a.off / 8 * 8) = some r) ∧
    (∃ (s t : State) (a : RegAccess) (w : Word), served s a = true ∧ refusedForm a = false ∧
      inWindow (a.off / 8 * 8) = false ∧ (a.off / 8 * 8) ∉ bwRegs ∧ commandWrite s a (a.off / 8 * 8) w = some t) ∧
    (∃ (s : State) (base i : Nat) (v w : Word) (f : FieldDef), f.acc = .rw ∧
      inRange base f.lo (fld v f.lo f.width) = true ∧ stateAllows s base f.lo i = true ∧ f.lo + f.width ≤ 64) ∧
    (∃ (s : State) (a : RegAccess) (base i : Nat) (v w : Word) (f : FieldDef), (fieldIn a f = false ∨ (f.acc = .rw ∧ inRange base f.lo (fld v f.lo f.width) = false) ∨ f.acc = .ro ∨ f.acc = .rc) ∧
      f.acc = .rw ∧ inRange base f.lo (fld v f.lo f.width) = false) ∧
    (∃ (s : State) (a : RegAccess) (base i : Nat) (v w : Word) (f : FieldDef), (fieldIn a f = false ∨ (f.acc = .rw ∧ inRange base f.lo (fld v f.lo f.width) = false) ∨ f.acc = .ro ∨ f.acc = .rc) ∧
      fieldIn a f = false) ∧
    (∃ (s : State) (a : RegAccess) (base i : Nat) (v w : Word) (f : FieldDef), (fieldIn a f = false ∨ (f.acc = .rw ∧ inRange base f.lo (fld v f.lo f.width) = false) ∨ f.acc = .ro ∨ f.acc = .rc) ∧
      f.acc = .ro) ∧
    (∃ (s : State) (a : RegAccess) (base i : Nat) (v w : Word) (f : FieldDef), (fieldIn a f = false ∨ (f.acc = .rw ∧ inRange base f.lo (fld v f.lo f.width) = false) ∨ f.acc = .ro ∨ f.acc = .rc) ∧
      f.acc = .rc) ∧
    (∃ (s : State) (a : RegAccess), served s a = true ∧ refusedForm a = false) ∧
    (∃ (s : State) (a : RegAccess) (b : Bool), served s a = true ∧ refusedForm a = true) ∧
    (∃ (s : State) (a : RegAccess) (w : Word) (b : Bool), served s a = false) :=
  ⟨⟨fx, rgPlain, 0, (regAt (rgPlain.off / 8 * 8)).get (by decide +kernel), by decide +kernel⟩,
    ⟨fx, (commandWrite fx ⟨0x20020, 8⟩ 0x20020 1).get (by decide +kernel), ⟨0x20020, 8⟩, 1, by decide +kernel⟩,
    ⟨fx, F.SCH_PROMPT_CFG_SLICE_US.base, 0, at' F.SCH_PROMPT_CFG_SLICE_US.lo F.SCH_PROMPT_CFG_SLICE_US.width 24, 0, ⟨F.SCH_PROMPT_CFG_SLICE_US.lo, F.SCH_PROMPT_CFG_SLICE_US.width, .rw, 0⟩, by decide +kernel⟩,
    ⟨fx, ⟨F.SCH_PROMPT_CFG_SLICE_US.base, 8⟩, F.SCH_PROMPT_CFG_SLICE_US.base, 0, at' F.SCH_PROMPT_CFG_SLICE_US.lo F.SCH_PROMPT_CFG_SLICE_US.width 25, 0, ⟨F.SCH_PROMPT_CFG_SLICE_US.lo, F.SCH_PROMPT_CFG_SLICE_US.width, .rw, 0⟩, by decide +kernel⟩,
    ⟨fx, ⟨4, 4⟩, 0, 0, 0, 0, ⟨0, 8, .rw, 0⟩, by decide +kernel⟩,
    ⟨fx, ⟨0, 8⟩, 0, 0, 0, 0, ⟨0, 8, .ro, 0⟩, by decide +kernel⟩,
    ⟨fx, ⟨0, 8⟩, 0, 0, 0, 0, ⟨0, 8, .rc, 0⟩, by decide +kernel⟩,
    ⟨fx, rgPlain, by decide +kernel⟩,
    ⟨fx, ⟨rgPlain.off + 1, 8⟩, true, by decide +kernel⟩,
    ⟨State.reset, rgPlain, 0, true, by decide +kernel⟩⟩

theorem test_step_takes_the_front_met :
    (∃ (s : State) (c : Instr) (rest : List Instr), s.pending = c :: rest) ∧
    (∃ (s : State), s.pending = []) :=
  ⟨⟨{ State.reset with pending := [.nop rk (mkDesc 0 0 0 0 0 0 0 0)] }, .nop rk (mkDesc 0 0 0 0 0 0 0 0), [], by decide +kernel⟩,
    ⟨State.reset, by decide +kernel⟩⟩

theorem test_step_keeps_canonical_form_met :
    ∃ (s t : State), s.regsWf = true ∧ s.memoryWf = true ∧ step s = .next t :=
  ⟨{ fx with pending := [.put (fxOp 0) [1]] }, nextOf (step { fx with pending := [.put (fxOp 0) [1]] }), by exact ⟨by decide +kernel, by decide +kernel, step_nextOf _ (by decide +kernel)⟩⟩

theorem test_steps_take_one_command_each_met :
    ∃ (s t : State), step s = .next t :=
  ⟨{ fx with pending := [.kvaAgeTick] }, nextOf (step { fx with pending := [.kvaAgeTick] }), by exact step_nextOf _ (by decide +kernel)⟩

theorem test_fuses_only_rise_met :
    ∃ (s t : State), step s = .next t :=
  ⟨{ fx with pending := [.kvaAgeTick] }, nextOf (step { fx with pending := [.kvaAgeTick] }), by exact step_nextOf _ (by decide +kernel)⟩

theorem test_admission_seats_and_deficits_met :
    ∃ (s : State) (cs : List Cand) (d : Drr), (∀ c ∈ cs, c.cost ≤ 4112) ∧
      (∀ t, tgetD d.deficit t 0 < 4112 + if d.opened = true ∧ d.ring[d.ptr]? = some t then quantum s t else 0) :=
  ⟨fx, [⟨7, 0, 0, 4112⟩], ⟨[0], 0, true, [(0, 4111)]⟩, by exact ⟨by decide +kernel, by
    intro t
    by_cases h : t = 0
    · subst h; decide +kernel
    · have e : tgetD [(0, 4111)] t 0 = 0 := by simp [tgetD, tget, Ne.symm h]
      show tgetD [(0, 4111)] t 0 < _
      omega⟩⟩

theorem test_monitor_settles_met :
    ∃ (s : State) (est : StepEstimate) (n : Nat) (main others : List Nat), main.length ≤ n :=
  ⟨fx, ⟨0, [], []⟩, 2, [7, 8], [9], by decide +kernel⟩

theorem test_host_frames_met :
    (∃ (c : Instr) (s : State), hostOnly c = true) ∧
    (∃ (c : Instr) (s : State), hostSettling c = true) ∧
    (∃ (c : Instr) (s : State), queueSettling c = true) :=
  ⟨⟨.doorbellSnoop 1, fx, by decide +kernel⟩,
    ⟨.ctxDisable 1, fx, by decide +kernel⟩,
    ⟨.cqHeadSnoop 1 [], fx, by decide +kernel⟩⟩

theorem test_descriptor_frames_met :
    (∃ (c : Instr) (s : State), descOnly c = true) ∧
    (∃ (c : Instr) (s : State), gatherOnly c = true) :=
  ⟨⟨.nop rk (mkDesc 0 0 0 0 0 0 0 0), fx, by decide +kernel⟩,
    ⟨.gatherPool rk (dGather 0) fxLists, fx, by decide +kernel⟩⟩

theorem test_engine_frames_met :
    (∃ (c : Instr) (s : State), matrixOnly c = true) ∧
    (∃ (c : Instr) (s : State), poolOnly c = true) ∧
    (∃ (c : Instr) (s : State), flashOnly c = true) :=
  ⟨⟨.mxeCoreTest 99, fx, by decide +kernel⟩,
    ⟨.kvaAgeTick, fx, by decide +kernel⟩,
    ⟨.zqCalibration, fx, by decide +kernel⟩⟩

theorem test_fabric_frames_met :
    (∃ (c : Instr) (s : State), portOnly c = true) ∧
    (∃ (c : Instr) (s : State), portSettling c = true) ∧
    (∃ (c : Instr) (s : State), shapeOnly c = true) ∧
    (∃ (c : Instr) (s : State), frameSettling c = true) :=
  ⟨⟨.creditFrameInterval 0, fx, by decide +kernel⟩,
    ⟨.portRetrain 0, fx, by decide +kernel⟩,
    ⟨.shaperWrite 0 0, fx, by decide +kernel⟩,
    ⟨.dataFrame 0 (fxData .good 0), fx, by decide +kernel⟩⟩

theorem test_map_frames_met :
    (∃ (c : Instr) (s : State), mapOnly c = true) ∧
    (∃ (c : Instr) (s : State), mapSettling c = true) ∧
    (∃ (c : Instr) (s : State), twinSettling c = true) :=
  ⟨⟨.surveyRound, fx, by decide +kernel⟩,
    ⟨.surveyEpoch 3 5, fx, by decide +kernel⟩,
    ⟨.beatMiss, fx, by decide +kernel⟩⟩

theorem test_management_frames_met :
    (∃ (c : Instr) (s : State), clockOnly c = true) ∧
    (∃ (c : Instr) (s : State), granuleOnly c = true) ∧
    (∃ (c : Instr) (s : State), bootOnly c = true) :=
  ⟨⟨.droopClear, fx, by decide +kernel⟩,
    ⟨.hbmClear 0 0, fx, by decide +kernel⟩,
    ⟨.bootGo, fx, by decide +kernel⟩⟩

theorem test_store_frames_met :
    (∃ (s : State) (r : RemoteReq) (bytes : List Byte), (0x10001 < r.offset ∨ r.offset + bytes.length ≤ 0x10001) ∧
      (0xFFFF < r.offset ∨ r.offset + bytes.length ≤ 0xFFFF)) ∧
    (∃ (s : State) (r : RemoteReq) (bytes : List Byte), (0x10001 < r.offset ∨ r.offset + bytes.length ≤ 0x10001) ∧
      (0x10001 < bits r.arg 51 0 ∨ bits r.arg 51 0 + 8 ≤ 0x10001)) ∧
    (∃ (s : State) (r : RemoteReq) (addends : List (BitVec 32)), 0x10040 < r.offset ∨ r.offset + 64 ≤ 0x10040) ∧
    (∃ (s : State) (r : RemoteReq) (v : Word), 0x10008 < r.offset ∨ r.offset + 8 ≤ 0x10008) ∧
    (∃ (s : State) (r : RemoteReq) (cmp swp : Word), 0x10008 < r.offset ∨ r.offset + 8 ≤ 0x10008) :=
  ⟨⟨fxg, fxOp 0, [1], by decide +kernel⟩,
    ⟨fxg, fxOp 0x20000, [1], by decide +kernel⟩,
    ⟨fxg, fxOp 0, [], by decide +kernel⟩,
    ⟨fxg, fxOp 0, 1, by decide +kernel⟩,
    ⟨fxg, fxOp 0, 0, 1, by decide +kernel⟩⟩

theorem test_read_clear_fields_met :
    ∃ (s : State) (a : RegAccess) (r : RegDef), served s a = true ∧ refusedForm a = false ∧ regAt (a.off / 8 * 8) = some r :=
  ⟨fx, rgPlain, (regAt (rgPlain.off / 8 * 8)).get (by decide +kernel), by decide +kernel⟩

theorem test_step_shape_writes_met :
    ∃ (s : State) (a : RegAccess) (w : Word), a.off / 8 * 8 = F.SCH_PROMPT_CFG_SLICE_US.base ∧
      fld (placed a w) F.SCH_PROMPT_CFG_SLICE_US.lo F.SCH_PROMPT_CFG_SLICE_US.width = 25 ∧
      fld (placed a w) F.SCH_PROMPT_CFG_CHUNK_TOK.lo F.SCH_PROMPT_CFG_CHUNK_TOK.width < 64 :=
  ⟨fx, rgPlain, at' F.SCH_PROMPT_CFG_SLICE_US.lo F.SCH_PROMPT_CFG_SLICE_US.width 25, by decide +kernel⟩

theorem test_secded_outcomes_met :
    (∃ (d : BitVec 32) (c : BitVec 7), (c.toNat ^^^ secdedCheck d) = 0) ∧
    (∃ (d : BitVec 32) (c : BitVec 7), popcount (c.toNat ^^^ secdedCheck d) 7 = 1) ∧
    (∃ (d : BitVec 32) (c : BitVec 7), (c.toNat ^^^ secdedCheck d) = secdedCols.getD 31 0) ∧
    (∃ (d : BitVec 32) (c : BitVec 7), (c.toNat ^^^ secdedCheck d) ≠ 0 ∧ popcount (c.toNat ^^^ secdedCheck d) 7 ≠ 1 ∧
      (∀ i, i < 32 → (c.toNat ^^^ secdedCheck d) ≠ secdedCols.getD i 0)) ∧
    (∃ (d : BitVec 32) (c : BitVec 7), c.toNat = secdedCheck d) ∧
    (∃ (s : State) (w : ScrubWord) (d : BitVec 32), isUp s = true ∧ w.sram = false ∧ inHbm s w.offset 4 = true ∧
      w.offset % 4 = 0 ∧ w.unit = pcOf s w.offset ∧ w.offset ≠ 0 ∧ secdedDecode w.data w.check = .corrected d) ∧
    (∃ (s : State) (w : ScrubWord), isUp s = true ∧ w.sram = true ∧ w.unit < 768 ∧ w.unit ≠ 0 ∧
      secdedDecode w.data w.check = .corrected 0) :=
  ⟨⟨0, 0, by decide +kernel⟩,
    ⟨0, 64, by decide +kernel⟩,
    ⟨0x80000000, 0, by decide +kernel⟩,
    ⟨3, 0, by decide +kernel⟩,
    ⟨0xFFFFFFFF, BitVec.ofNat 7 (secdedCheck 0xFFFFFFFF), by decide +kernel⟩,
    ⟨fx, fxWord false 1, 0, by decide +kernel⟩,
    ⟨fx, fxWord true 1, by decide +kernel⟩⟩

theorem test_standin_rejections_met :
    (∃ (s u : State) (k : RingKey) (d : Desc) (key : DescKey) (param : List Word) (input : List (BitVec 32)) (home : HomeView), dispatched s k d key u ∧
      dOpcode d = 1 ∧ passes d (postBytes d) ((postChecks d param input home u key).take 12) ∧ qPolicy d = 1 ∧
      qBudget d ≠ 0 ∧ qStandin d = none) ∧
    (∃ (s u : State) (k : RingKey) (d : Desc) (key : DescKey) (param : List Word) (input : List (BitVec 32)) (home : HomeView) (m : Nat), dispatched s k d key u ∧
      dOpcode d = 1 ∧ passes d (postBytes d) ((postChecks d param input home u key).take 13) ∧ qStandin d = some m ∧
      modelLoaded u m = false) :=
  ⟨⟨fxm, du fxm rk (dStandin 0xFFFF), rk, dStandin 0xFFFF, dk, [], [5], .unknown, disp_du _ _ _ _ (by decide +kernel), by unfold passes; decide +kernel⟩,
    ⟨fxm, du fxm rk (dStandin 2), rk, dStandin 2, dk, [], [5], .unknown, 2, disp_du _ _ _ _ (by decide +kernel), by unfold passes; decide +kernel⟩⟩

theorem test_revoked_holders_met :
    (∃ (s : State) (e : Nat) (ws : List Word) (h : Holder), isUp s = true ∧ dtmBad ws = false ∧ mKind ws = 1 ∧
      epochRule s e = none ∧ isHome s = true ∧ tget s.dtm.holders (mNode ws) = some h ∧ h.revoked = true) ∧
    (∃ (s : State) (src : Nat) (ws : List Word) (l : Lease), isUp s = true ∧ dtmBad ws = false ∧ mKind ws = 4 ∧
      mReq ws = 0 ∧ tget s.dtm.claims src ≠ some (mSeq ws) ∧ tget s.dtm.leases src = some l ∧ l.asked = some (mSeq ws) ∧
      mSt ws = St.DTM_LEASE_REVOKED) ∧
    (∃ (s : State) (src : Nat) (ws : List Word) (l : Lease), isUp s = true ∧ dtmBad ws = false ∧ mKind ws = 4 ∧
      mReq ws = 0 ∧ tget s.dtm.claims src ≠ some (mSeq ws) ∧ tget s.dtm.leases src = some l ∧ l.asked = some (mSeq ws) ∧
      mSt ws = St.DTM_LEASE_REVOKED ∧ exposed (wr fx F.CON_STAT_EXPOSED 1) = true) ∧
    (∃ (old new : DMap) (hs : Tbl Holder) (n : Nat) (h : Holder), tget hs n = some h) :=
  ⟨⟨fxhold 3 ⟨true, false, true⟩, 5, fxRenew, ⟨true, false, true⟩, by decide +kernel⟩,
    ⟨{ wr fx F.CON_STAT_EXPOSED 0 with dtm := { fx.dtm with leases := [(1, ⟨true, some 9⟩)] } }, 1, dtmWords 4 false 9 0 0 1 0 0 St.DTM_LEASE_REVOKED, ⟨true, some 9⟩, by decide +kernel⟩,
    ⟨{ wr fx F.CON_STAT_EXPOSED 1 with dtm := { fx.dtm with leases := [(1, ⟨true, some 9⟩)] } }, 1, dtmWords 4 false 9 0 0 1 0 0 St.DTM_LEASE_REVOKED, ⟨true, some 9⟩, by decide +kernel⟩,
    ⟨fxMap, fxMap, [(3, ⟨true, false, true⟩)], 3, ⟨true, false, true⟩, by decide +kernel⟩⟩

/-! ### Values from the spec's worked examples, and steps worked out by hand -/

/-- R37's example: amax 5.6 has the scale code 0xF9AE, and 1.0 becomes the code 0x6A. -/
theorem test_kv8_scale_of_the_spec : kv8Scale 0x40B33333 = 0xF9AE ∧ kv8Elem 0xF9AE 0x3F800000 = 0x6A := by decide +kernel

/-- R47's first example: the code 0xFE43 reads back as 9,821/8,192 × 2^-2. -/
theorem test_l16_reads_back : l16ToF32 0xFE43 = (0x3E997400, false) := by decide +kernel

/-- R306's example: the check byte of 0x8000_0001 is 0x65. -/
theorem test_secded_check : secdedCheck 0x80000001 = 0x65 := by decide +kernel

/-- R306's example: bit 5 is corrected, and bits 0 and 1 together are not. -/
theorem test_secded_decode : secdedDecode 0x80000021 0x65 = .corrected 0x80000001 ∧ secdedDecode 0x80000002 0x65 = .uncorrectable := by
  decide +kernel

/-- The code lengths of the worked block of the weight-compression chapter. -/
def fxLens : List Nat := [7, 7, 6, 5, 4, 3, 2, 2, 3, 4, 5, 6, 7, 8, 9, 9]

/-- The worked block: canonical codes of 7, 6, 5, 8 and 13. -/
theorem test_canonical_codes : symBits (canon fxLens) 7 = [false, true] ∧ symBits (canon fxLens) 6 = [false, false] ∧
    symBits (canon fxLens) 5 = [true, false, false] ∧ symBits (canon fxLens) 8 = [true, false, true] ∧
    symBits (canon fxLens) 13 = [true, true, true, true, true, true, true, false] := by
  decide +kernel

/-- The worked block: the raw area begins 0xC0, 0x12, and its elements' exponent fields are 7, 6, 5 and 8. -/
theorem test_raw_area : (rawAreaBytes 1 [0x38, 0xB4, 0x2A, 0x41]).take 2 = [0xC0, 0x12] ∧
    [0x38, 0xB4, 0x2A, 0x41].map (expSym 1) = [7, 6, 5, 8] := by
  decide +kernel

/-- The worked block: it is written CODED with SS_LEN 11 (22 bytes), and RAW with 12 (24 bytes). -/
theorem test_coded_or_raw : keepCoded 1 56 11 = true ∧ keepCoded 1 56 12 = false := by decide +kernel

/-- The parameters of R263's example: INV_TEMP 320, REP 320, FREQ 128, PRES 256. -/
def fxPen : List Word := [mkWord [(0, 16, 320)], mkWord [(0, 16, 320), (16, 16, 128), (32, 16, 256)]]

/-- R263's example: 1,108 becomes 374 by the penalties, and 468 by the temperature. -/
theorem test_penalties_of_the_spec : penalise fxPen 2 1108 = 374 ∧ temper fxPen 374 = (468, false) := by decide +kernel

/-- R99's example: MAX_SEQ 8, UNIT 32, and tenants 1, 2 and 3 (A, B and C) of weights 2, 1 and 4. -/
def fxDrr : State :=
  wri (wri (wri (wr (wr fx F.SCH_STEP_CFG_MAX_SEQ 8) F.SCH_DRR_CFG_UNIT 32) F.SCH_TENANT_WEIGHT 1 2) F.SCH_TENANT_WEIGHT 2 1)
    F.SCH_TENANT_WEIGHT 3 4

/-- Its candidates: a1 to a4, b1 and b2, c1 to c12; those named were admitted in step 1. -/
def fxDrrCands (before : List Nat) : List Cand :=
  [(11, 1, 32), (12, 1, 32), (13, 1, 32), (14, 1, 32), (21, 2, 80), (22, 2, 80), (31, 3, 20), (32, 3, 20), (33, 3, 20), (34, 3, 20),
   (35, 3, 20), (36, 3, 20), (37, 3, 20), (38, 3, 20), (39, 3, 20), (40, 3, 20), (41, 3, 20), (42, 3, 20)].map
    (fun c => ⟨c.1, c.2.1, (before.contains c.1).toNat, c.2.2⟩)

/-- Deficits of the three tenants, whose turn it is, and whether it is left open. -/
def fxDrrView (x : Drr × List Nat) : List Nat × List Nat × Option Nat × Bool :=
  (x.2, [tgetD x.1.deficit 1 0, tgetD x.1.deficit 2 0, tgetD x.1.deficit 3 0], x.1.ring[x.1.ptr]?, x.1.opened)

/-- R99's example, step 1. -/
theorem test_admission_step_1 : fxDrrView (admitWork fxDrr (fxDrrCands []) ⟨[1, 2, 3], 0, false, []⟩) =
    ([11, 12, 31, 32, 33, 34, 35, 36], [0, 32, 8], some 3, true) := by
  decide +kernel

/-- R99's example, step 2. -/
theorem test_admission_step_2 : fxDrrView (admitWork fxDrr (fxDrrCands [11, 12, 31, 32, 33, 34, 35, 36])
    ⟨[1, 2, 3], 2, true, [(2, 32), (3, 8)]⟩) = ([13, 14, 37, 38, 39, 40, 41, 42], [0, 64, 16], some 3, true) := by
  decide +kernel

/-- A field of the state that a step answers, or none where it answers none. -/
def afterStep (s : State) (f : Field) : Option (Nat × Nat) :=
  match step s with
  | .next t => some (rd t f, t.pending.length)
  | .fault _ => none
  | .refused _ => none

/-- The command in front runs, and the queue loses it: CTX_ENABLE sets BUSY (R62). -/
theorem test_step_runs_the_front : afterStep { fx with pending := [.ctxEnable 2, .mergeTimeout 0] } F.HPT_CTX_STAT_BUSY = some (1, 1) := by
  decide +kernel

/-- On an empty queue one cycle passes. -/
theorem test_step_idles : afterStep fx F.GLB_MGMT_CYCLES_COUNT = some (1, 0) := by decide +kernel

/-- No row of the table has bits, so no word spells a command. -/
theorem test_no_word_spells_a_command : decodeTableWord 64 0 = none ∧ State.reset.withFetchWord 64 0 = State.reset := ⟨rfl, rfl⟩

end Sys2Proof.Tests
end

section
/-! What an operation can change: `Keeps ps offs s t` says that `t` differs from `s` at most in the parts `ps` of the state and in the
registers at the offsets `offs`. Each operation of the host port has one such lemma; a frame of a command is the sum of them. -/

namespace Sys2Proof.Frames

open Sys2Proof Sys2Proof.Machine Sys2Proof.Laws

/-- The parts of the state but its registers. -/
inductive Part where
  | hbm | hpt | sch | mem | clk | sec | ras | mgt | tak | dtm | kva | mxe | att | smp | con | glk | shp | trv | flt | gth | bmv
  | out | pending | free
  deriving DecidableEq

/-- A part of `t` is that of `s`. -/
def Part.same (s t : State) : Part → Prop
  | .hbm => t.hbm = s.hbm
  | .hpt => t.hpt = s.hpt
  | .sch => t.sch = s.sch
  | .mem => t.mem = s.mem
  | .clk => t.clk = s.clk
  | .sec => t.sec = s.sec
  | .ras => t.ras = s.ras
  | .mgt => t.mgt = s.mgt
  | .tak => t.tak = s.tak
  | .dtm => t.dtm = s.dtm
  | .kva => t.kva = s.kva
  | .mxe => t.mxe = s.mxe
  | .att => t.att = s.att
  | .smp => t.smp = s.smp
  | .con => t.con = s.con
  | .glk => t.glk = s.glk
  | .shp => t.shp = s.shp
  | .trv => t.trv = s.trv
  | .flt => t.flt = s.flt
  | .gth => t.gth = s.gth
  | .bmv => t.bmv = s.bmv
  | .out => t.out = s.out
  | .pending => t.pending = s.pending
  | .free => t.free = s.free

theorem Part.same_refl (s : State) (p : Part) : p.same s s := by cases p <;> rfl

theorem Part.same_trans {s t u : State} {p : Part} (h : p.same s t) (k : p.same t u) : p.same s u := by
  cases p <;> exact Eq.trans k h

/-- `t` differs from `s` at most in the parts `ps` and in the registers at the offsets `offs`. -/
structure Keeps (ps : List Part) (offs : List Nat) (s t : State) : Prop where
  parts : ∀ p, p ∉ ps → p.same s t
  regs : sameRegsBut s t offs

theorem Keeps.refl {ps : List Part} {offs : List Nat} (s : State) : Keeps ps offs s s :=
  ⟨fun p _ => p.same_refl s, sameRegsBut_refl s offs⟩

/-- Two operations in a row change what either changes. -/
theorem Keeps.trans {ps qs : List Part} {offs os : List Nat} {s t u : State} (h : Keeps ps offs s t) (k : Keeps qs os t u) :
    Keeps (ps ++ qs) (offs ++ os) s u :=
  ⟨fun p n => Part.same_trans (h.parts p (fun m => n (List.mem_append_left qs m)))
      (k.parts p (fun m => n (List.mem_append_right ps m))),
    fun o n => (k.regs o (fun m => n (List.mem_append_right offs m))).trans (h.regs o (fun m => n (List.mem_append_left os m)))⟩

theorem Keeps.mono {ps qs : List Part} {offs os : List Nat} {s t : State} (h : Keeps qs os s t) (hp : qs ⊆ ps) (ho : os ⊆ offs) :
    Keeps ps offs s t :=
  ⟨fun p n => h.parts p (fun m => n (hp m)), fun o n => h.regs o (fun m => n (ho m))⟩

/-- A run over a list keeps what each of its steps keeps. -/
theorem Keeps.foldl {α : Type} {ps : List Part} {offs : List Nat} {f : State → α → State} (hf : ∀ s x, Keeps ps offs s (f s x))
    (l : List α) (s : State) : Keeps ps offs s (l.foldl f s) := by
  induction l generalizing s with
  | nil => exact .refl s
  | cons x l ih => exact ((hf s x).trans (ih _)).mono (by simp) (by simp)

/-- The state `s` with the registers and the parts `ps` of `t`. -/
def overlay (ps : List Part) (s t : State) : State where
  regs := t.regs
  hbm := if .hbm ∈ ps then t.hbm else s.hbm
  hpt := if .hpt ∈ ps then t.hpt else s.hpt
  sch := if .sch ∈ ps then t.sch else s.sch
  mem := if .mem ∈ ps then t.mem else s.mem
  clk := if .clk ∈ ps then t.clk else s.clk
  sec := if .sec ∈ ps then t.sec else s.sec
  ras := if .ras ∈ ps then t.ras else s.ras
  mgt := if .mgt ∈ ps then t.mgt else s.mgt
  tak := if .tak ∈ ps then t.tak else s.tak
  dtm := if .dtm ∈ ps then t.dtm else s.dtm
  kva := if .kva ∈ ps then t.kva else s.kva
  mxe := if .mxe ∈ ps then t.mxe else s.mxe
  att := if .att ∈ ps then t.att else s.att
  smp := if .smp ∈ ps then t.smp else s.smp
  con := if .con ∈ ps then t.con else s.con
  glk := if .glk ∈ ps then t.glk else s.glk
  shp := if .shp ∈ ps then t.shp else s.shp
  trv := if .trv ∈ ps then t.trv else s.trv
  flt := if .flt ∈ ps then t.flt else s.flt
  gth := if .gth ∈ ps then t.gth else s.gth
  bmv := if .bmv ∈ ps then t.bmv else s.bmv
  out := if .out ∈ ps then t.out else s.out
  pending := if .pending ∈ ps then t.pending else s.pending
  free := if .free ∈ ps then t.free else s.free

/-- Nothing but the parts named and registers comes from the later state. -/
theorem Keeps.eq_overlay {ps : List Part} {offs : List Nat} {s t : State} (h : Keeps ps offs s t) : t = overlay ps s t := by
  have e := h.parts
  cases t
  simp only [overlay, State.mk.injEq, left_eq_ite_iff]
  exact ⟨trivial, e .hbm, e .hpt, e .sch, e .mem, e .clk, e .sec, e .ras, e .mgt, e .tak, e .dtm, e .kva, e .mxe, e .att, e .smp,
    e .con, e .glk, e .shp, e .trv, e .flt, e .gth, e .bmv, e .out, e .pending, e .free⟩

/-- The registers kept, as a frame statement names the others: by single fields. -/
theorem Keeps.regsKept {ps : List Part} {fs : List Field} {s t : State} (h : Keeps ps (fs.map (fun f => f.off 0)) s t) :
    regsKept s t fs [] := by
  intro o ho _
  refine h.regs o (fun hm => ?_)
  obtain ⟨f, hf, rfl⟩ := List.mem_map.1 hm
  exact ho f hf rfl

/-! ### Single updates -/

theorem keeps_of_parts {ps : List Part} {s t : State} (hr : t.regs = s.regs) (h : ∀ p, p ∉ ps → p.same s t) : Keeps ps [] s t :=
  ⟨h, sameRegsBut_congr (sameRegsBut_refl s []) hr⟩

theorem keeps_hpt (s : State) (x : HptState) : Keeps [.hpt] [] s { s with hpt := x } :=
  keeps_of_parts rfl (fun p hp => by cases p with
    | hpt => simp at hp
    | _ => rfl)

theorem keeps_sch (s : State) (x : SchState) : Keeps [.sch] [] s { s with sch := x } :=
  keeps_of_parts rfl (fun p hp => by cases p with
    | sch => simp at hp
    | _ => rfl)

theorem keeps_ras (s : State) (x : RasState) : Keeps [.ras] [] s { s with ras := x } :=
  keeps_of_parts rfl (fun p hp => by cases p with
    | ras => simp at hp
    | _ => rfl)

theorem keeps_emits (s : State) (os : List Output) : Keeps [.out] [] s (emits s os) :=
  keeps_of_parts rfl (fun p hp => by cases p with
    | out => simp at hp
    | _ => rfl)

theorem keeps_emit (s : State) (o : Output) : Keeps [.out] [] s (emit s o) := keeps_emits s [o]

theorem keeps_wri (s : State) (f : Field) (i v : Nat) : Keeps [] [f.off i] s (wri s f i v) :=
  ⟨fun p _ => by cases p <;> rfl, sameRegsBut_wri f i v (sameRegsBut_refl s _) (List.mem_singleton.2 rfl)⟩

theorem keeps_wr (s : State) (f : Field) (v : Nat) : Keeps [] [f.off 0] s (wr s f v) := keeps_wri s f 0 v

theorem keeps_addSat (s : State) (f : Field) (i n : Nat) : Keeps [] [f.off i] s (addSat s f i n) := keeps_wri s f i _

theorem keeps_bump (s : State) (f : Field) : Keeps [] [f.off 0] s (bump s f) := keeps_wri s f 0 _

theorem keeps_setCtx (s : State) (c : Nat) (x : Ctx) : Keeps [.hpt] [] s (setCtx s c x) := keeps_hpt s _

theorem keeps_setFlight (s : State) (id : Nat) (f : Flight) : Keeps [.hpt] [] s (setFlight s id f) := keeps_hpt s _

theorem keeps_delFlight (s : State) (id : Nat) : Keeps [.hpt] [] s (delFlight s id) := keeps_hpt s _

theorem keeps_modReq (s : State) (r : Nat) (f : Req → Req) : Keeps [.sch] [] s (modReq s r f) := keeps_sch s _

/-! ### Guards -/

theorem keeps_whenUp {ps : List Part} {offs : List Nat} {s : State} {f : State → State} (h : Keeps ps offs s (f s)) :
    Keeps ps offs s (whenUp s f) := by
  unfold whenUp
  split
  · exact h
  · exact .refl s

/-! ### Error records and events -/

theorem keeps_rasRepeat (s : State) : Keeps [.ras] [] s (rasRepeat s) := by
  unfold rasRepeat
  split
  · exact keeps_ras s _
  · split
    · exact keeps_ras s _
    · split
      · exact keeps_ras s _
      · exact .refl s

theorem keeps_place (s : State) (r : RasRec) : Keeps [.ras] [] s (raiseRecord.place s r) := by
  unfold raiseRecord.place
  split
  · exact keeps_ras s _
  · split
    · exact keeps_ras s _
    · split <;> exact keeps_ras s _

theorem keeps_raiseRecord (s : State) (r : RasRec) : Keeps [.ras] [] s (raiseRecord s r) := by
  unfold raiseRecord
  split
  · split
    · exact keeps_rasRepeat s
    · exact keeps_place s r
  · exact keeps_place s r

theorem keeps_record (s : State) (st : Status) (u : UnitRef) (req ctx : Nat) (d0 d1 : Word) (m : Bool) :
    Keeps [.ras] [] s (record s st u req ctx d0 d1 m) := keeps_raiseRecord s _

theorem keeps_writeEvent (s : State) (ty : EvType) (st : Status) (req ctx : Nat) (d0 d1 : Word) :
    Keeps [.hpt, .out] [] s (writeEvent s ty st req ctx d0 d1) := by
  unfold writeEvent
  split
  · exact (keeps_hpt s _).trans (keeps_emits _ _) |>.mono (by decide) (by decide)
  · exact .refl s

theorem keeps_postEvent (s : State) (ty : EvType) (st : Status) (u : UnitRef) (req ctx : Nat) (d0 d1 : Word) (m : Bool) :
    Keeps [.hpt, .ras, .out] [] s (postEvent s ty st u req ctx d0 d1 m) := by
  unfold postEvent
  split
  · exact (keeps_record s st u req ctx d0 d1 m).trans (keeps_writeEvent _ ty st req ctx d0 d1) |>.mono (by decide) (by decide)
  · exact (keeps_writeEvent s ty st req ctx d0 d1).mono (by decide) (by decide)

theorem keeps_openEvent (s : State) (ty : EvType) (st : Status) (u : UnitRef) (req ctx : Nat) :
    Keeps [.hpt, .ras, .out] [] s (openEvent s ty st u req ctx) := keeps_postEvent s ty st u req ctx _ _ _

theorem keeps_faultCtx (s : State) (c : Nat) (st : Status) : Keeps [.hpt, .ras, .out] [] s (faultCtx s c st) := by
  unfold faultCtx
  split
  · exact .refl s
  · split
    · exact .refl s
    · exact (keeps_openEvent s .error st ⟨9, c⟩ 0 c).trans (keeps_hpt _ _) |>.mono (by decide) (by decide)

/-! ### BAR0 before and after the lock -/

theorem keeps_lockedWrite (s : State) : Keeps [.ras] [F.SEC_REJECT_CNT_COUNT.off 0] s (lockedWrite s) :=
  (keeps_bump s _).trans (keeps_record _ _ _ _ _ _ _ _) |>.mono (by decide) (by decide)

theorem keeps_prelock (s : State) (write : Bool) : Keeps [.ras, .out] [F.SEC_REJECT_CNT_COUNT.off 0] s (prelock s write) := by
  unfold prelock
  split
  · exact (keeps_emit s _).trans (keeps_lockedWrite _) |>.mono (by decide) (by decide)
  · exact (keeps_emit s _).mono (by decide) (by decide)

/-! ### Completion records -/

theorem keeps_putRecord (s : State) (c q : Nat) (x : Ctx) (cfg : CqCfg) (cq : CqState) (r : HeldRecord) :
    Keeps [.hpt, .out] [] s (putRecord s c q x cfg cq r) := (keeps_setCtx s c _).trans (keeps_emits _ _) |>.mono (by decide) (by decide)

theorem keeps_writeRecord (s : State) (c q : Nat) (r : HeldRecord) :
    Keeps [.hpt, .sch, .out] [F.HPT_CQ_STALL_CNT_COUNT.off 0] s (writeRecord s c q r) := by
  unfold writeRecord
  split
  · exact .refl s
  · split
    · split
      · exact .refl s
      · split
        · exact (keeps_setCtx s c _).trans (keeps_bump _ _) |>.trans (keeps_modReq _ _ _)
            |>.trans (keeps_emit _ _) |>.mono (by decide) (by decide)
        · exact (keeps_putRecord ..).mono (by decide) (by decide)
    · exact .refl s

theorem keeps_endFlight (s : State) (id : Nat) (f : Flight) (st : Status) (w2 w3 : Word) (late : Bool) :
    Keeps [.hpt, .sch, .out] [F.HPT_CQ_STALL_CNT_COUNT.off 0] s (endFlight s id f st w2 w3 late) := by
  unfold endFlight
  split
  · exact (keeps_delFlight s id).mono (by decide) (by decide)
  · exact (keeps_delFlight s id).trans (keeps_writeRecord _ _ _ _) |>.mono (by decide) (by decide)

theorem keeps_releaseReady (n : Nat) (s : State) (k : DescKey) (req : Nat) :
    Keeps [.hpt, .sch, .out] [F.HPT_CQ_STALL_CNT_COUNT.off 0] s (releaseReady n s k req) := by
  induction n generalizing s with
  | zero => exact .refl s
  | succ n ih =>
    unfold releaseReady
    split
    · split
      · exact (keeps_endFlight ..).trans (ih _) |>.mono (by decide) (by decide)
      · exact .refl s
    · exact .refl s

theorem keeps_complete (s : State) (id : Nat) (st : Status) (w2 w3 : Word) (late : Bool) :
    Keeps [.hpt, .sch, .out] [F.HPT_CQ_STALL_CNT_COUNT.off 0] s (complete s id st w2 w3 late) := by
  unfold complete
  split
  · exact .refl s
  · split
    · exact (keeps_setFlight s id _).mono (by decide) (by decide)
    · split
      · exact keeps_endFlight ..
      · exact (keeps_endFlight ..).trans (keeps_releaseReady ..) |>.mono (by decide) (by decide)

theorem keeps_completeSt (s : State) (id : Nat) (st : Status) :
    Keeps [.hpt, .sch, .out] [F.HPT_CQ_STALL_CNT_COUNT.off 0] s (completeSt s id st) := keeps_complete ..

end Sys2Proof.Frames
end

section
/-! The host port: the frames of its commands, and what each of them does (spec chapter 3). -/

namespace Sys2Proof.HostPort

open Sys2Proof Sys2Proof.Machine Sys2Proof.Laws Sys2Proof.Frames

/-! ### What each command of the host port can change -/

theorem keeps_ucieLinkTraining (s : State) (offer : List UcieOption) (modUp rateGt repairs : Nat) :
    Keeps [.hpt, .out] [F.HPT_LINK_STAT_MOD_UP.off 0, F.SEC_BOOT_STAT_STAGE.off 0] s
      (ucieLinkTraining s offer modUp rateGt repairs) := by
  unfold ucieLinkTraining
  split
  · exact .refl s
  · have h := (keeps_hpt s { s.hpt with trained := true }).trans (keeps_wr _ F.HPT_LINK_STAT_MOD_UP modUp)
      |>.trans (keeps_wr _ F.HPT_LINK_STAT_RATE_GT rateGt) |>.trans (keeps_addSat _ F.HPT_LINK_STAT_REPAIR_CNT 0 repairs)
    dsimp only
    split
    · exact h.trans (keeps_wr _ F.SEC_BOOT_STAT_STAGE 1) |>.trans (keeps_emit _ _) |>.mono (by decide) (by decide)
    · exact h.trans (keeps_emit _ _) |>.mono (by decide) (by decide)

theorem keeps_ucieModuleFail (s : State) (m : Nat) :
    Keeps [.hpt, .ras, .out] [F.HPT_LINK_STAT_MOD_UP.off 0] s (ucieModuleFail s m) := by
  unfold ucieModuleFail
  dsimp only
  split
  · exact .refl s
  · split
    · exact (keeps_wr s _ _).trans (keeps_openEvent _ _ _ _ _ _) |>.mono (by decide) (by decide)
    · exact (keeps_wr s _ _).trans (keeps_hpt _ _)
        |>.trans (Keeps.foldl (fun s c => keeps_faultCtx s c St.HPT_LINK_DOWN) _ _) |>.mono (by decide) (by decide)

theorem keeps_ctxCmdEnd (s : State) (st : Status) : Keeps [.hpt] [F.HPT_CTX_STAT_BUSY.off 0] s (ctxCmdEnd s st) :=
  (keeps_hpt s _).trans (keeps_wr _ F.HPT_CTX_STAT_BUSY 0) |>.trans (keeps_wr _ F.HPT_CTX_STAT_STATUS _) |>.mono (by decide) (by decide)

theorem keeps_ctxCmdBegin {s : State} {c : CtxCmd} {f : State → State}
    (hf : ∀ t, Keeps [.hpt, .out] [F.HPT_CTX_STAT_BUSY.off 0] t (f t)) :
    Keeps [.hpt, .out] [F.HPT_CTX_STAT_BUSY.off 0] s (ctxCmdBegin s c f) := by
  unfold ctxCmdBegin
  split
  · exact (keeps_wr s F.HPT_CTX_STAT_LOST 1).mono (by decide) (by decide)
  · exact (keeps_hpt s _).trans (keeps_wr _ F.HPT_CTX_STAT_BUSY 1) |>.trans (hf _) |>.mono (by decide) (by decide)

theorem keeps_ctxEnable (s : State) (ctx : Nat) :
    Keeps [.hpt, .ras, .out] [F.SEC_REJECT_CNT_COUNT.off 0, F.HPT_CTX_STAT_BUSY.off 0] s (ctxEnable s ctx) := by
  unfold ctxEnable bar0
  split
  · refine (keeps_ctxCmdBegin (fun t => ?_)).mono (by decide) (by decide)
    split
    · exact (keeps_ctxCmdEnd t _).mono (by decide) (by decide)
    · exact (keeps_emit t _).mono (by decide) (by decide)
  · exact (keeps_prelock s true).mono (by decide) (by decide)

theorem keeps_ctxDisable (s : State) (ctx : Nat) :
    Keeps [.hpt, .ras, .out] [F.SEC_REJECT_CNT_COUNT.off 0, F.HPT_CTX_STAT_BUSY.off 0] s (ctxDisable s ctx) := by
  unfold ctxDisable bar0
  split
  · refine (keeps_ctxCmdBegin (fun t => ?_)).mono (by decide) (by decide)
    split
    · exact (keeps_ctxCmdEnd t _).mono (by decide) (by decide)
    · split
      · exact .refl t
      · exact (keeps_setCtx t ctx _).mono (by decide) (by decide)
  · exact (keeps_prelock s true).mono (by decide) (by decide)

theorem keeps_evqCfgWrite (s : State) (w : Word) :
    Keeps [.hpt, .ras, .out] [F.SEC_REJECT_CNT_COUNT.off 0, F.HPT_EVQ_CFG_EN.off 0] s (evqCfgWrite s w) := by
  have size (t : State) := keeps_wr t F.HPT_EVQ_CFG_LOG2SIZE (bits w 4 0)
  have vector (t : State) := keeps_wr t F.HPT_EVQ_CFG_VECTOR (bits w 42 32)
  unfold evqCfgWrite bar0
  dsimp only
  split
  · split
    · split
      · exact .refl s
      · split
        · exact (size s).trans (vector _) |>.trans (keeps_hpt _ _) |>.trans (keeps_wr _ F.HPT_EVQ_CFG_EN 1)
            |>.mono (by decide) (by decide)
        · exact (size s).trans (vector _) |>.mono (by decide) (by decide)
    · exact (keeps_wr s F.HPT_EVQ_CFG_EN 0).trans (size _) |>.trans (vector _) |>.mono (by decide) (by decide)
  · exact (keeps_prelock s true).mono (by decide) (by decide)

theorem keeps_hdmCfgWrite (s : State) (w : Word) :
    Keeps [.ras] [F.SEC_REJECT_CNT_COUNT.off 0, F.HPT_HDM_CFG_BASE_GIB.off 0] s (hdmCfgWrite s w) := by
  unfold hdmCfgWrite
  split
  · exact (keeps_lockedWrite s).mono (by decide) (by decide)
  · exact (keeps_wr s F.HPT_HDM_CFG_SIZE_GIB _).trans (keeps_wr _ F.HPT_HDM_CFG_BASE_GIB _)
      |>.trans (keeps_wr _ F.HPT_HDM_CFG_EN _) |>.mono (by decide) (by decide)

theorem keeps_rereadLine (s : State) (c : Nat) (x : Ctx) : Keeps [.hpt, .out] [] s (rereadLine s c x) :=
  (keeps_setCtx s c _).trans (keeps_emit _ _) |>.mono (by decide) (by decide)

theorem keeps_doorbellSnoop (s : State) (ctx : Nat) : Keeps [.hpt, .out] [] s (doorbellSnoop s ctx) := by
  refine keeps_whenUp ?_
  split
  · exact .refl s
  · split
    · exact (keeps_emit s _).trans (keeps_rereadLine _ _ _) |>.mono (by decide) (by decide)
    · exact .refl s

theorem keeps_doorbellPoll (s : State) : Keeps [.hpt, .out] [] s (doorbellPoll s) := by
  refine keeps_whenUp ?_
  split
  · exact .refl s
  · refine Keeps.foldl (fun t e => ?_) _ _
    split
    · exact keeps_rereadLine t e.1 e.2
    · exact .refl t

theorem keeps_seeLine (s : State) (c : Nat) (line : List Word) : Keeps [.hpt, .ras, .out] [] s (seeLine s c line) := by
  unfold seeLine
  split
  · exact .refl s
  · split
    · exact (keeps_setCtx s c _).trans (keeps_faultCtx _ _ _) |>.mono (by decide) (by decide)
    · exact (keeps_setCtx s c _).trans (keeps_emits _ _) |>.mono (by decide) (by decide)

theorem keeps_doorbellLineData (s : State) (ctx : Nat) (line : List Word) :
    Keeps [.hpt, .ras, .out] [] s (doorbellLineData s ctx line) := by
  refine keeps_whenUp ?_
  split
  · exact .refl s
  · split
    · exact keeps_seeLine s ctx line
    · exact .refl s

theorem keeps_hdmHostRead (s : State) (offset : Nat) : Keeps [.hpt, .ras, .out] [] s (hdmHostRead s offset) := by
  unfold hdmHostRead
  dsimp only
  split
  · exact .refl s
  · split
    · exact (keeps_emit s _).mono (by decide) (by decide)
    · split
      · exact (keeps_emit s _).trans (keeps_postEvent _ _ _ _ _ _ _ _ _) |>.mono (by decide) (by decide)
      · exact (keeps_hpt s _).trans (keeps_emit _ _) |>.mono (by decide) (by decide)

theorem keeps_endDown (s : State) (c : Nat) : Keeps [.hpt] [F.HPT_CTX_STAT_BUSY.off 0] s (endDown s c) := by
  unfold endDown
  dsimp only
  split
  · exact (keeps_hpt s _).trans (keeps_ctxCmdEnd _ _) |>.mono (by decide) (by decide)
  · exact (keeps_hpt s _).mono (by decide) (by decide)

theorem keeps_ctxDisableDone (s : State) (ctx : Nat) : Keeps [.hpt] [F.HPT_CTX_STAT_BUSY.off 0] s (ctxDisableDone s ctx) := by
  refine keeps_whenUp ?_
  split
  · exact .refl s
  · split
    · split
      · exact keeps_endDown s ctx
      · exact .refl s
    · exact .refl s

theorem keeps_contextTeardown (s : State) (ctx : Nat) (cause : BitVec 16) :
    Keeps [.hpt, .ras, .out] [] s (contextTeardown s ctx cause) := keeps_whenUp (keeps_faultCtx s ctx cause)

theorem keeps_contextTeardownDone (s : State) (ctx : Nat) :
    Keeps [.hpt, .ras, .out] [F.HPT_CTX_STAT_BUSY.off 0] s (contextTeardownDone s ctx) := by
  refine keeps_whenUp ?_
  split
  · exact .refl s
  · split
    · split
      · exact (keeps_postEvent s _ _ _ _ _ _ _ _).trans (keeps_endDown _ ctx) |>.mono (by decide) (by decide)
      · exact .refl s
    · exact .refl s

theorem keeps_drainQueue (n : Nat) (s : State) (c q : Nat) : Keeps [.hpt, .out] [] s (drainQueue n s c q) := by
  induction n generalizing s with
  | zero => exact .refl s
  | succ n ih =>
    unfold drainQueue
    split
    · exact .refl s
    · split
      · split
        · exact (keeps_setCtx s c _).mono (by decide) (by decide)
        · split
          · exact .refl s
          · exact (keeps_putRecord ..).trans (ih _) |>.mono (by decide) (by decide)
      · exact .refl s

theorem keeps_cqHeadSnoop (s : State) (ctx : Nat) (line : List Word) :
    Keeps [.hpt, .sch, .out] [] s (cqHeadSnoop s ctx line) := by
  refine keeps_whenUp ?_
  split
  · exact .refl s
  · split
    · exact .refl s
    · refine (keeps_setCtx s ctx _).trans (Keeps.foldl (ps := [.hpt, .out]) (offs := []) (fun t q => ?_) _ _)
        |>.trans (keeps_sch _ _) |>.mono (by decide) (by decide)
      split
      · exact keeps_drainQueue _ t ctx q
      · exact .refl t

theorem keeps_hostAccessFail (s : State) (a : HostAccess) (st : Status) :
    Keeps [.hpt, .sch, .ras, .out] [F.HPT_CTX_STAT_BUSY.off 0, F.HPT_CQ_STALL_CNT_COUNT.off 0] s (hostAccessFail s a st) := by
  unfold hostAccessFail
  cases a with
  | enable =>
    dsimp only
    split
    · exact (keeps_ctxCmdEnd s st).trans (keeps_openEvent _ _ _ _ _ _) |>.mono (by decide) (by decide)
    · exact .refl s
  | context c => exact (keeps_faultCtx s c st).mono (by decide) (by decide)
  | shared fl =>
    dsimp only
    split
    · exact (keeps_openEvent s _ _ _ _ _).trans (keeps_completeSt _ _ _) |>.mono (by decide) (by decide)
    · exact (keeps_openEvent s _ _ _ _ _).mono (by decide) (by decide)
  | mover m => exact .refl s

/-! ### The frames of R56 to R91 -/

theorem hostOnly_frame (c : Instr) (s : State) (hc : hostOnly c = true) :
    ∃ b, exec c s = .next b ∧ Keeps [.hpt, .ras, .out]
      ([F.SEC_BOOT_STAT_STAGE, F.SEC_REJECT_CNT_COUNT, F.HPT_CTX_STAT_BUSY, F.HPT_EVQ_CFG_EN, F.HPT_HDM_CFG_BASE_GIB,
        F.HPT_LINK_STAT_MOD_UP].map (fun f => f.off 0)) s b := by
  cases c with
  | ucieLinkTraining offer m r n => exact ⟨_, rfl, (keeps_ucieLinkTraining s offer m r n).mono (by decide) (by decide)⟩
  | ctxEnable ctx => exact ⟨_, rfl, (keeps_ctxEnable s ctx).mono (by decide) (by decide)⟩
  | evqCfgWrite w => exact ⟨_, rfl, (keeps_evqCfgWrite s w).mono (by decide) (by decide)⟩
  | hdmCfgWrite w => exact ⟨_, rfl, (keeps_hdmCfgWrite s w).mono (by decide) (by decide)⟩
  | doorbellSnoop ctx => exact ⟨_, rfl, (keeps_doorbellSnoop s ctx).mono (by decide) (by decide)⟩
  | doorbellPoll => exact ⟨_, rfl, (keeps_doorbellPoll s).mono (by decide) (by decide)⟩
  | hdmHostRead o => exact ⟨_, rfl, (keeps_hdmHostRead s o).mono (by decide) (by decide)⟩
  | _ => cases hc

theorem hostSettling_frame (c : Instr) (s : State) (hc : hostSettling c = true) :
    ∃ b, exec c s = .next (settle s b) ∧ Keeps [.hpt, .ras, .out]
      ([F.SEC_REJECT_CNT_COUNT, F.HPT_CTX_STAT_BUSY, F.HPT_LINK_STAT_MOD_UP].map (fun f => f.off 0)) s b := by
  cases c with
  | ucieModuleFail m => exact ⟨_, rfl, (keeps_ucieModuleFail s m).mono (by decide) (by decide)⟩
  | ctxDisable ctx => exact ⟨_, rfl, (keeps_ctxDisable s ctx).mono (by decide) (by decide)⟩
  | ctxDisableDone ctx => exact ⟨_, rfl, (keeps_ctxDisableDone s ctx).mono (by decide) (by decide)⟩
  | doorbellLineData ctx line => exact ⟨_, rfl, (keeps_doorbellLineData s ctx line).mono (by decide) (by decide)⟩
  | contextTeardown ctx cause => exact ⟨_, rfl, (keeps_contextTeardown s ctx cause).mono (by decide) (by decide)⟩
  | contextTeardownDone ctx => exact ⟨_, rfl, (keeps_contextTeardownDone s ctx).mono (by decide) (by decide)⟩
  | _ => cases hc

theorem queueSettling_frame (c : Instr) (s : State) (hc : queueSettling c = true) :
    ∃ b, exec c s = .next (settle s b) ∧ Keeps [.hpt, .sch, .ras, .out]
      ([F.HPT_CTX_STAT_BUSY, F.HPT_CQ_STALL_CNT_COUNT].map (fun f => f.off 0)) s b := by
  cases c with
  | cqHeadSnoop ctx line => exact ⟨_, rfl, (keeps_cqHeadSnoop s ctx line).mono (by decide) (by decide)⟩
  | hostAccessTimeout a => exact ⟨_, rfl, keeps_whenUp (keeps_hostAccessFail s a _)⟩
  | hostDataError a => exact ⟨_, rfl, keeps_whenUp (keeps_hostAccessFail s a _)⟩
  | _ => cases hc

/-- Settles O48: each command's own effect keeps all but its parts and registers, operation by operation. -/
theorem hostFrames : Obligations.HostFrames := by
  refine ⟨fun c s hc => ?_, fun c s hc => ?_, fun c s hc => ?_⟩
  · obtain ⟨b, hb, k⟩ := hostOnly_frame c s hc
    exact ⟨b, hb, k.eq_overlay, k.regsKept⟩
  · obtain ⟨b, hb, k⟩ := hostSettling_frame c s hc
    exact ⟨b, hb, k.eq_overlay, k.regsKept⟩
  · obtain ⟨b, hb, k⟩ := queueSettling_frame c s hc
    exact ⟨b, hb, k.eq_overlay, k.regsKept⟩

end Sys2Proof.HostPort
end

section
/-! What the commands of the host port do where they take effect (R56 to R91). -/

namespace Sys2Proof.HostPort

open Sys2Proof Sys2Proof.Machine Sys2Proof.Laws Sys2Proof.Frames

/-! ### Guards -/

theorem whenUp_up {s : State} {f : State → State} (h : isUp s = true) : whenUp s f = f s := by simp [whenUp, h]

theorem ofForm_of {b : Bool} {s t : State} (h : b = true) : ofForm b s t = t := by simp [ofForm, h]

theorem bar0_locked {s : State} {f : State → State} (h : rd s F.SEC_PROT_LOCK_LOCK = 1) : bar0 s f = f s := by simp [bar0, h]

theorem ctxCmdBegin_idle {s : State} {c : CtxCmd} {f : State → State} (h : rd s F.HPT_CTX_STAT_BUSY = 0) :
    ctxCmdBegin s c f = f (wr { s with hpt := { s.hpt with cmd := some c } } F.HPT_CTX_STAT_BUSY 1) := by
  simp [ctxCmdBegin, ctxBusy, h]

theorem ctxCmdBegin_busy {s : State} {c : CtxCmd} {f : State → State} (h : rd s F.HPT_CTX_STAT_BUSY = 1) :
    ctxCmdBegin s c f = wr s F.HPT_CTX_STAT_LOST 1 := by
  simp [ctxCmdBegin, ctxBusy, h]

/-! ### Outcomes -/

theorem next_settle {s t u : State} (h : t = u) :
    (Host.Outcome.next (settle s t) : Host.Outcome State Fault Refusal) = .next (settle s u) := by rw [h]

/-! ### Tables -/

/-- A key that a filter refuses is not listed. -/
theorem tget_tkeep_of_refused {α : Type} (f : Nat → α → Bool) (t : Tbl α) (k : Nat) (h : ∀ v, f k v = false) :
    tget (tkeep f t) k = none := by
  simp only [tget, tkeep, Option.map_eq_none_iff, List.find?_eq_none, List.mem_filter, beq_iff_eq]
  rintro ⟨j, v⟩ ⟨-, hk⟩ rfl
  exact absurd hk (by simp [h v])

/-! ### Link (R56, R58) -/

/-- The link state that training sets (R56). -/
def linkTrained (s : State) (modUp rateGt repairs : Nat) : State :=
  addSat (wr (wr { s with hpt := { s.hpt with trained := true } } F.HPT_LINK_STAT_MOD_UP modUp) F.HPT_LINK_STAT_RATE_GT rateGt)
    F.HPT_LINK_STAT_REPAIR_CNT 0 repairs

theorem rd_linkTrained_modUp (s : State) (modUp rateGt repairs : Nat) :
    rd (linkTrained s modUp rateGt repairs) F.HPT_LINK_STAT_MOD_UP = modUp % 2 ^ 4 := by
  simp (disch := decide) only [linkTrained, rd_eq, wr_regs, addSat_regs, rdT_wrT_apart, rdT_wrT_same]
  rfl

theorem rd_linkTrained_rateGt (s : State) (modUp rateGt repairs : Nat) :
    rd (linkTrained s modUp rateGt repairs) F.HPT_LINK_STAT_RATE_GT = rateGt % 2 ^ 8 := by
  simp (disch := decide) only [linkTrained, rd_eq, wr_regs, addSat_regs, rdT_wrT_apart, rdT_wrT_same]
  rfl

theorem rd_linkTrained_stage (s : State) (modUp rateGt repairs : Nat) :
    rd (linkTrained s modUp rateGt repairs) F.SEC_BOOT_STAT_STAGE = rd s F.SEC_BOOT_STAT_STAGE := by
  simp (disch := decide) only [linkTrained, rd_eq, wr_regs, addSat_regs, rdT_wrT_apart]

/-- The options that training declines (R56). -/
def declined (offer : List UcieOption) : List UcieOption :=
  offer.filter (fun o => o == .standardPackage || o == .ucie3d || o == .retimers || o == .rawProtocol)

theorem filter_unsupported (offer : List UcieOption) : offer.filter (fun o => !ucieSupported o) = declined offer := by
  refine List.filter_congr (fun o _ => ?_)
  cases o <;> rfl

theorem ucieLinkTraining_of_ready {s : State} {offer : List UcieOption} {modUp rateGt repairs : Nat} (hr : inReset s = false)
    (hd : s.hpt.portDown = false) (hm : modUp % 16 ≠ 0) :
    ucieLinkTraining s offer modUp rateGt repairs =
      emit (if rd s F.SEC_BOOT_STAT_STAGE = 0 then wr (linkTrained s modUp rateGt repairs) F.SEC_BOOT_STAT_STAGE 1
        else linkTrained s modUp rateGt repairs) (.ucieTrained (declined offer)) := by
  rw [← rd_linkTrained_stage s modUp rateGt repairs, ← filter_unsupported]
  unfold ucieLinkTraining
  rw [if_neg (by simp [hr, hd, hm])]
  rfl

/-- The port trains: the link state is set, STAGE leaves ROM, and the options not supported are declined (R56). -/
theorem ucieLinkTraining_trains {s : State} {offer : List UcieOption} {modUp rateGt repairs : Nat} (hr : inReset s = false)
    (hd : s.hpt.portDown = false) (hm : modUp % 16 ≠ 0) :
    ∃ t, exec (.ucieLinkTraining offer modUp rateGt repairs) s = .next t ∧
      rd t F.HPT_LINK_STAT_MOD_UP = modUp % 2 ^ 4 ∧ rd t F.HPT_LINK_STAT_RATE_GT = rateGt % 2 ^ 8 ∧
      rd t F.SEC_BOOT_STAT_STAGE = (if rd s F.SEC_BOOT_STAT_STAGE = 0 then 1 else rd s F.SEC_BOOT_STAT_STAGE) ∧
      t = { s with
        regs := t.regs
        hpt := { s.hpt with trained := true }
        out := s.out ++ [.ucieTrained (declined offer)] } ∧
      sameRegsBut s t [F.HPT_LINK_STAT_MOD_UP.base, F.SEC_BOOT_STAT_STAGE.base] := by
  have kept := (keeps_ucieLinkTraining s offer modUp rateGt repairs).regs
  refine ⟨ucieLinkTraining s offer modUp rateGt repairs, rfl, ?_⟩
  rw [ucieLinkTraining_of_ready hr hd hm] at kept ⊢
  by_cases hs : rd s F.SEC_BOOT_STAT_STAGE = 0
  · simp only [hs, if_true, rd_emit] at kept ⊢
    rw [rd_wr_apart _ _ _ _ (by decide), rd_wr_apart _ _ _ _ (by decide), rd_wr_same _ _ _ (by decide)]
    exact ⟨rd_linkTrained_modUp .., rd_linkTrained_rateGt .., rfl, rfl, kept⟩
  · simp only [hs, if_false, rd_emit] at kept ⊢
    exact ⟨rd_linkTrained_modUp .., rd_linkTrained_rateGt .., rd_linkTrained_stage .., rfl, kept⟩

/-- A failing module leaves the link state (R58). -/
theorem ucieModuleFail_of_up {s : State} {m : Nat} (hm : m < 4) (hb : (rd s F.HPT_LINK_STAT_MOD_UP).testBit m = true) :
    ucieModuleFail s m =
      if rd s F.HPT_LINK_STAT_MOD_UP - 2 ^ m ≠ 0 then
        openEvent (wr s F.HPT_LINK_STAT_MOD_UP (rd s F.HPT_LINK_STAT_MOD_UP - 2 ^ m)) .linkChange St.HPT_LINK_DEGRADED ⟨7, m⟩ 0 0
      else (tkeys s.hpt.ctxs).foldl (fun u c => faultCtx u c St.HPT_LINK_DOWN)
        { wr s F.HPT_LINK_STAT_MOD_UP (rd s F.HPT_LINK_STAT_MOD_UP - 2 ^ m) with hpt := { s.hpt with portDown := true } } := by
  unfold ucieModuleFail
  rw [if_neg (by simp [hb, hm])]
  rfl

theorem ucieModuleFail_goes_on {s : State} {m : Nat} (hm : m < 4) (hb : (rd s F.HPT_LINK_STAT_MOD_UP).testBit m = true)
    (hl : rd s F.HPT_LINK_STAT_MOD_UP ≠ 2 ^ m) :
    exec (.ucieModuleFail m) s = .next (settle s (openEvent (wr s F.HPT_LINK_STAT_MOD_UP (rd s F.HPT_LINK_STAT_MOD_UP - 2 ^ m))
      .linkChange St.HPT_LINK_DEGRADED ⟨7, m⟩ 0 0)) := by
  have left : rd s F.HPT_LINK_STAT_MOD_UP - 2 ^ m ≠ 0 := by
    have := Nat.ge_two_pow_of_testBit hb
    omega
  show Host.Outcome.next (settle s (ucieModuleFail s m)) = _
  rw [ucieModuleFail_of_up hm hb, if_pos left]

theorem ucieModuleFail_last {s : State} {m : Nat} (hm : m < 4) (hl : rd s F.HPT_LINK_STAT_MOD_UP = 2 ^ m) :
    exec (.ucieModuleFail m) s = .next (settle s ((tkeys s.hpt.ctxs).foldl (fun u c => faultCtx u c St.HPT_LINK_DOWN)
      { wr s F.HPT_LINK_STAT_MOD_UP 0 with hpt := { s.hpt with portDown := true } })) := by
  have hb : (rd s F.HPT_LINK_STAT_MOD_UP).testBit m = true := hl ▸ Nat.testBit_two_pow_self
  have none_left : rd s F.HPT_LINK_STAT_MOD_UP - 2 ^ m = 0 := by omega
  show Host.Outcome.next (settle s (ucieModuleFail s m)) = _
  rw [ucieModuleFail_of_up hm hb, none_left, if_neg (by simp)]

/-! ### Contexts: enable and disable (R60 to R63) -/

@[simp] theorem tget_setCtx_same (s : State) (c : Nat) (x : Ctx) : tget (setCtx s c x).hpt.ctxs c = some x := tget_tset_same _ c x

theorem tget_setCtx_ne (s : State) {c c' : Nat} (x : Ctx) (h : c' ≠ c) : tget (setCtx s c x).hpt.ctxs c' = tget s.hpt.ctxs c' :=
  tget_tset_ne _ c c' x h

@[simp] theorem ctxCmdEnd_hpt (s : State) (st : Status) : (ctxCmdEnd s st).hpt = { s.hpt with cmd := none } := rfl
@[simp] theorem ctxCmdEnd_sch (s : State) (st : Status) : (ctxCmdEnd s st).sch = s.sch := rfl

@[simp] theorem rd_ctxCmdEnd_busy (s : State) (st : Status) : rd (ctxCmdEnd s st) F.HPT_CTX_STAT_BUSY = 0 := by
  unfold ctxCmdEnd
  rw [rd_wr_apart _ _ _ _ (by decide), rd_wr_same _ _ _ (by decide), Nat.zero_mod]

@[simp] theorem rd_ctxCmdEnd_status (s : State) (st : Status) : rd (ctxCmdEnd s st) F.HPT_CTX_STAT_STATUS = st.toNat := by
  unfold ctxCmdEnd
  rw [rd_wr_same _ _ _ (by decide)]
  exact Nat.mod_eq_of_lt st.isLt

/-- A context whose doorbell line has been seen: its tails are those of the line, and the watch is armed again (R66). -/
def lineSeen (x : Ctx) (line : List Word) : Ctx :=
  { x with
    rings := x.rings.zipIdx.map (fun p => { p.1 with tail := bits (wordAt line p.2) 31 0 })
    armed := true
    pending := false }

/-- The reads of the descriptors that a doorbell line brings (R66). -/
def lineReads (c : Nat) (x : Ctx) (line : List Word) : List Output :=
  x.rings.zipIdx.flatMap (fun p => (List.range ((2 ^ 32 + bits (wordAt line p.2) 31 0 - p.1.tail) % 2 ^ 32)).map (fun j =>
    .hostRead (.context c) ((x.entry.rings.getD p.2 ⟨0, 0, 0⟩).base +
      64 * ((p.1.tail + j) % 2 ^ (x.entry.rings.getD p.2 ⟨0, 0, 0⟩).log2)) 64))

theorem seeLine_in_order {s : State} {c : Nat} {x : Ctx} {line : List Word} (hx : tget s.hpt.ctxs c = some x)
    (hl : lineFault x line = none) : seeLine s c line = emits (setCtx s c (lineSeen x line)) (lineReads c x line) := by
  unfold seeLine
  simp only [hx, hl]
  rfl

theorem seeLine_out_of_order {s : State} {c : Nat} {x : Ctx} {line : List Word} {st : Status} (hx : tget s.hpt.ctxs c = some x)
    (hl : lineFault x line = some st) :
    seeLine s c line = faultCtx (setCtx s c { x with armed := true, pending := false }) c st := by
  unfold seeLine
  simp only [hx, hl]

/-- An entry read for a context that can be enabled: the context stands with its counts, and what the line says is seen (R62). -/
theorem ctxEnableReadDone_enables {s : State} {ctx : Nat} {entry line : List Word} (hcmd : s.hpt.cmd = some ⟨true, ctx⟩)
    (hbad : entryBad entry = false) (hprot : entryProt s ctx (entryRead entry) = false)
    (hline : lineFault (newCtx (entryRead entry)) line = none) :
    ∃ t x, exec (.ctxEnableReadDone entry line) s = .next (settle s t) ∧ rd t F.HPT_CTX_STAT_BUSY = 0 ∧
      rd t F.HPT_CTX_STAT_STATUS = 0 ∧ t.hpt.cmd = none ∧ tget t.hpt.ctxs ctx = some x ∧ x.entry = entryRead entry ∧
      x.rings = (entryRead entry).rings.zipIdx.map (fun p => ⟨0, bits (wordAt line p.2) 31 0, []⟩) ∧
      x.cqs = (entryRead entry).cqs.map (fun _ => ⟨0, 0, false, []⟩) ∧ x.armed = true ∧ x.down = none ∧
      (∀ c, c ≠ ctx → tget t.hpt.ctxs c = tget s.hpt.ctxs c) ∧
      (∀ h, h / 16 = ctx → tget t.sch.sems h = none) := by
  refine ⟨ctxEnableReadDone s entry line, lineSeen (newCtx (entryRead entry)) line, rfl, ?_⟩
  unfold ctxEnableReadDone
  simp only [hcmd, hbad, hprot, Bool.false_eq_true, if_false]
  rw [seeLine_in_order (x := newCtx (entryRead entry)) (by simp) hline]
  refine ⟨by simp, by simp [St.OK], rfl, by simp, rfl, ?_, rfl, rfl, rfl, fun c hc => ?_, fun h hh => ?_⟩
  · simp only [lineSeen, newCtx, List.zipIdx_map, List.map_map]
    rfl
  · simp [tget_setCtx_ne _ _ hc]
  · exact tget_tkeep_of_refused (fun h _ => h / 16 != ctx) s.sch.sems h (fun _ => by simp [hh])

theorem ctxEnable_begins {s : State} {ctx : Nat} (hl : rd s F.SEC_PROT_LOCK_LOCK = 1) (hb : rd s F.HPT_CTX_STAT_BUSY = 0)
    (hx : thas s.hpt.ctxs ctx = false) :
    ctxEnable s ctx = emit (wr { s with hpt := { s.hpt with cmd := some ⟨true, ctx⟩ } } F.HPT_CTX_STAT_BUSY 1)
      (.hostRead .enable (rd s F.HPT_CTX_TABLE_BASE * 2 ^ 20 + 256 * ctx) 256) := by
  have base : rd (wr { s with hpt := { s.hpt with cmd := some ⟨true, ctx⟩ } } F.HPT_CTX_STAT_BUSY 1) F.HPT_CTX_TABLE_BASE =
      rd s F.HPT_CTX_TABLE_BASE := rd_wr_apart _ _ _ _ (by decide)
  unfold ctxEnable
  rw [bar0_locked hl, ctxCmdBegin_idle hb, if_neg (by simp [hx]), base]

theorem ctxEnable_of_enabled {s : State} {ctx : Nat} (hl : rd s F.SEC_PROT_LOCK_LOCK = 1) (hb : rd s F.HPT_CTX_STAT_BUSY = 0)
    (hx : thas s.hpt.ctxs ctx = true) :
    ctxEnable s ctx =
      ctxCmdEnd (wr { s with hpt := { s.hpt with cmd := some ⟨true, ctx⟩ } } F.HPT_CTX_STAT_BUSY 1) St.HPT_CTX_BUSY := by
  unfold ctxEnable
  rw [bar0_locked hl, ctxCmdBegin_idle hb, if_pos (by simp [hx])]

theorem ctxEnable_lost {s : State} {ctx : Nat} (hl : rd s F.SEC_PROT_LOCK_LOCK = 1) (hb : rd s F.HPT_CTX_STAT_BUSY = 1) :
    ctxEnable s ctx = wr s F.HPT_CTX_STAT_LOST 1 := by
  unfold ctxEnable
  rw [bar0_locked hl, ctxCmdBegin_busy hb]

theorem ctxDisable_begins {s : State} {ctx : Nat} {x : Ctx} (hl : rd s F.SEC_PROT_LOCK_LOCK = 1)
    (hb : rd s F.HPT_CTX_STAT_BUSY = 0) (hx : tget s.hpt.ctxs ctx = some x) (hd : x.down = none) :
    ctxDisable s ctx = setCtx (wr { s with hpt := { s.hpt with cmd := some ⟨false, ctx⟩ } } F.HPT_CTX_STAT_BUSY 1) ctx
      { x with down := some ⟨St.OK, false, false, 0, 0⟩ } := by
  unfold ctxDisable
  rw [bar0_locked hl, ctxCmdBegin_idle hb]
  simp [hx, hd]

theorem ctxDisable_of_disabled {s : State} {ctx : Nat} (hl : rd s F.SEC_PROT_LOCK_LOCK = 1)
    (hb : rd s F.HPT_CTX_STAT_BUSY = 0) (hx : tget s.hpt.ctxs ctx = none) :
    ctxDisable s ctx =
      ctxCmdEnd (wr { s with hpt := { s.hpt with cmd := some ⟨false, ctx⟩ } } F.HPT_CTX_STAT_BUSY 1) St.HPT_CTX_DISABLED := by
  unfold ctxDisable
  rw [bar0_locked hl, ctxCmdBegin_idle hb]
  simp [hx]

/-- A teardown is over when nothing of its context is left (R63). -/
theorem downOver_of_none_left {s : State} {c : Nat} {x : Ctx} {d : Teardown} (hd : x.down = some d) (hs : d.started = true)
    (hf : ∀ e ∈ s.hpt.flight, e.2.key.ctx ≠ c) (hm : ∀ e ∈ s.hpt.made, e.2 ≠ c) (hq : ∀ q ∈ x.cqs, q.delayed = []) :
    downOver s c x = true := by
  have flights : noFlights s c = true := by simpa [noFlights] using fun i f h => hf (i, f) h
  have made : c ∉ tvals s.hpt.made := by
    simpa [tvals] using fun i h => hm (i, c) h rfl
  have records : x.cqs.all (fun q => q.delayed.isEmpty) = true := by simpa using hq
  simp [downOver, hd, hs, flights, made, records]

theorem ctxDisableDone_ends {s : State} {ctx : Nat} {x : Ctx} {d : Teardown} (hu : isUp s = true)
    (hx : tget s.hpt.ctxs ctx = some x) (hd : x.down = some d) (hnf : d.fault = false) (hs : d.started = true)
    (hf : ∀ e ∈ s.hpt.flight, e.2.key.ctx ≠ ctx) (hm : ∀ e ∈ s.hpt.made, e.2 ≠ ctx) (hq : ∀ q ∈ x.cqs, q.delayed = [])
    (hc : s.hpt.cmd = some ⟨false, ctx⟩) :
    ctxDisableDone s ctx = ctxCmdEnd { s with hpt := { s.hpt with ctxs := tdel s.hpt.ctxs ctx } } St.OK := by
  unfold ctxDisableDone
  rw [whenUp_up hu]
  simp [hx, hd, hnf, downOver_of_none_left hd hs hf hm hq, endDown, hc]

/-! ### Event queue and HDM window (R60) -/

theorem evqCfgWrite_enables {s : State} {w : Word} (hl : rd s F.SEC_PROT_LOCK_LOCK = 1) (he : rd s F.HPT_EVQ_CFG_EN = 0)
    (hw : bit w 63 = true) (h6 : 6 ≤ bits w 4 0) (h16 : bits w 4 0 ≤ 16) :
    evqCfgWrite s w = wr { wr (wr s F.HPT_EVQ_CFG_LOG2SIZE (bits w 4 0)) F.HPT_EVQ_CFG_VECTOR (bits w 42 32) with
      hpt := { s.hpt with evProd := 0 } } F.HPT_EVQ_CFG_EN 1 := by
  unfold evqCfgWrite
  rw [bar0_locked hl]
  simp [hw, he, h6, h16]

theorem evqCfgWrite_while_enabled {s : State} {w : Word} (hl : rd s F.SEC_PROT_LOCK_LOCK = 1) (he : rd s F.HPT_EVQ_CFG_EN = 1)
    (hw : bit w 63 = true) : evqCfgWrite s w = s := by
  unfold evqCfgWrite
  rw [bar0_locked hl]
  simp [hw, he]

theorem evqCfgWrite_disables {s : State} {w : Word} (hl : rd s F.SEC_PROT_LOCK_LOCK = 1) (hw : bit w 63 = false) :
    evqCfgWrite s w = wr (wr (wr s F.HPT_EVQ_CFG_EN 0) F.HPT_EVQ_CFG_LOG2SIZE (bits w 4 0)) F.HPT_EVQ_CFG_VECTOR (bits w 42 32) := by
  unfold evqCfgWrite
  rw [bar0_locked hl]
  simp [hw]

theorem hdmCfgWrite_places {s : State} {w : Word} (hl : rd s F.SEC_PROT_LOCK_LOCK = 0) :
    hdmCfgWrite s w = wr (wr (wr s F.HPT_HDM_CFG_SIZE_GIB (bits w 49 40)) F.HPT_HDM_CFG_BASE_GIB (bits w 39 30)) F.HPT_HDM_CFG_EN
      (if bit w 63 = true ∧ 1 ≤ bits w 49 40 ∧ bits w 49 40 ≤ 512 ∧
        bits w 39 30 * 2 ^ 30 + bits w 49 40 * 2 ^ 30 ≤ memTop s then 1 else 0) := by
  have good : (bit w 63 && hdmOk s (bits w 49 40) (bits w 39 30)) = true ↔ bit w 63 = true ∧ 1 ≤ bits w 49 40 ∧
      bits w 49 40 ≤ 512 ∧ bits w 39 30 * 2 ^ 30 + bits w 49 40 * 2 ^ 30 ≤ memTop s := by
    simp only [hdmOk, Bool.and_eq_true, decide_eq_true_eq, and_assoc]
  unfold hdmCfgWrite placeHdm
  rw [if_neg (by simp [hl]), if_congr good rfl rfl]

theorem hdmCfgWrite_locked {s : State} {w : Word} (hl : rd s F.SEC_PROT_LOCK_LOCK = 1) : hdmCfgWrite s w = lockedWrite s := by
  unfold hdmCfgWrite
  rw [if_pos hl]

/-- Settles O1: a clause for each command that sets up the host port. -/
theorem hostPortSetUp : Obligations.HostPortSetUp := by
  refine ⟨fun s offer modUp rateGt repairs hc hp hr hd hm => ucieLinkTraining_trains (by simp [inReset, hc, hp, hr]) hd hm,
    fun s m hm hb hl => ucieModuleFail_goes_on hm hb hl, fun s m hm hl => ucieModuleFail_last hm hl,
    ?_, ?_, ?_, fun s ctx entry line hc hb hp hl => ctxEnableReadDone_enables hc hb hp hl, ?_, ?_, ?_, ?_, ?_, ?_, ?_, ?_⟩
  · exact fun s ctx hl hb hx => congrArg Host.Outcome.next (ctxEnable_begins hl hb hx)
  · exact fun s ctx hl hb hx => congrArg Host.Outcome.next (ctxEnable_of_enabled hl hb hx)
  · exact fun s ctx hl hb => congrArg Host.Outcome.next (ctxEnable_lost hl hb)
  · exact fun s ctx x hl hb hx hd => next_settle (ctxDisable_begins hl hb hx hd)
  · exact fun s ctx hl hb hx => next_settle (ctxDisable_of_disabled hl hb hx)
  · exact fun s ctx x d hu hx hd hnf hs hf hm hq hc =>
      next_settle (ctxDisableDone_ends hu hx hd hnf hs hf hm hq hc)
  · exact fun s w hl he hw h6 h16 => congrArg Host.Outcome.next (evqCfgWrite_enables hl he hw h6 h16)
  · exact fun s w hl he hw => congrArg Host.Outcome.next (evqCfgWrite_while_enabled hl he hw)
  · exact fun s w hl hw => congrArg Host.Outcome.next (evqCfgWrite_disables hl hw)
  · exact fun s w hl => congrArg Host.Outcome.next (hdmCfgWrite_places hl)
  · exact fun s w hl => congrArg Host.Outcome.next (hdmCfgWrite_locked hl)

end Sys2Proof.HostPort
end

section
/-! Doorbells and queue heads (R66, R68, R78), failed host accesses (R91), and how descriptors are taken and completed (R64, R72,
R76 to R78). -/

namespace Sys2Proof.HostPort

open Sys2Proof Sys2Proof.Machine Sys2Proof.Laws Sys2Proof.Frames

/-! ### Doorbells and queue heads -/

theorem doorbellSnoop_rereads {s : State} {ctx : Nat} {x : Ctx} (hu : isUp s = true) (hx : tget s.hpt.ctxs ctx = some x)
    (ha : x.armed = true) (hd : x.down = none) :
    doorbellSnoop s ctx = rereadLine (emit s (.snoopAnswer ctx)) ctx x := by
  unfold doorbellSnoop
  rw [whenUp_up hu]
  simp [hx, ha, hd]

theorem doorbellPoll_rereads {s : State} (hu : isUp s = true) (hp : rd s F.HPT_DB_POLL_PERIOD_US ≠ 0) :
    doorbellPoll s = s.hpt.ctxs.foldl (fun u e => if e.2.down = none then rereadLine u e.1 e.2 else u) s := by
  unfold doorbellPoll
  rw [whenUp_up hu, if_neg hp]
  simp only [Option.isNone_iff_eq_none]

theorem doorbellLineData_sees {s : State} {ctx : Nat} {x : Ctx} {line : List Word} (hu : isUp s = true)
    (hx : tget s.hpt.ctxs ctx = some x) (hp : x.pending = true) (hd : x.down = none) :
    doorbellLineData s ctx line = seeLine s ctx line := by
  unfold doorbellLineData
  rw [whenUp_up hu]
  simp [hx, hp, hd]

theorem cqHeadSnoop_drains {s : State} {ctx : Nat} {x : Ctx} {line : List Word} (hu : isUp s = true)
    (hx : tget s.hpt.ctxs ctx = some x) (hw : ∃ q ∈ x.cqs, q.watch = true) :
    exec (.cqHeadSnoop ctx line) s = .next (settle s (
      let qs := x.cqs.zipIdx.map (fun p => if p.1.watch = true then { p.1 with cons := bits (wordAt line p.2) 31 0 } else p.1)
      let u := (List.range qs.length).foldl (fun v q =>
        if (qs.getD q ⟨0, 0, false, []⟩).watch = true then drainQueue ((qs.getD q ⟨0, 0, false, []⟩).delayed.length + 1) v ctx q else v)
        (setCtx s ctx { x with cqs := qs })
      { u with sch := { u.sch with reqs := tmap (fun r y => { y with delayed := recordDelayed u r && y.delayed }) u.sch.reqs } })) := by
  have watched : x.cqs.any (fun q => q.watch) = true := by simpa using hw
  show Host.Outcome.next (settle s (cqHeadSnoop s ctx line)) = _
  unfold cqHeadSnoop
  rw [whenUp_up hu]
  simp only [hx, watched, Bool.not_true, Bool.false_eq_true, if_false]

theorem drainQueue_of_delayed {n : Nat} {s : State} {c q : Nat} {x : Ctx} {cfg : CqCfg} {cq : CqState} {r : HeldRecord}
    {rest : List HeldRecord} (hx : tget s.hpt.ctxs c = some x) (hcfg : x.entry.cqs[q]? = some cfg) (hcq : x.cqs[q]? = some cq)
    (hd : cq.delayed = r :: rest) (hp : s.hpt.portDown = false) :
    drainQueue (n + 1) s c q = (if cqFull cfg cq = true then s
      else drainQueue n (putRecord s c q x cfg { cq with delayed := rest } r) c q) := by
  rw [drainQueue]
  simp only [hx, hcfg, hcq, hd, hp, Bool.or_false]

/-- Settles O2: a clause for each way in which a doorbell or a queue head moves a context. -/
theorem doorbellsAndQueueHeads : Obligations.DoorbellsAndQueueHeads := by
  refine ⟨?_, ?_, ?_, ?_, fun s ctx x line => cqHeadSnoop_drains, fun n s c q x cfg cq r rest => drainQueue_of_delayed⟩
  · intro s ctx x hu hx ha hd
    have reread : rereadLine (emit s (.snoopAnswer ctx)) ctx x = { s with
        hpt := { s.hpt with ctxs := tset s.hpt.ctxs ctx { x with armed := false, pending := true } }
        out := s.out ++ [.snoopAnswer ctx, .hostRead (.context ctx) x.entry.dbAddr 64] } := by
      simp [rereadLine, emit, setCtx]
    exact congrArg Host.Outcome.next ((doorbellSnoop_rereads hu hx ha hd).trans reread)
  · exact fun s hu hp => congrArg Host.Outcome.next (doorbellPoll_rereads hu hp)
  · exact fun s ctx x line hu hx hp hd hl => next_settle ((doorbellLineData_sees hu hx hp hd).trans (seeLine_in_order hx hl))
  · exact fun s ctx x line st hu hx hp hd hl => next_settle ((doorbellLineData_sees hu hx hp hd).trans (seeLine_out_of_order hx hl))

/-! ### Failed host accesses -/

/-- A failed access ends as its kind says, and other work may go on (R91). -/
theorem exec_failedAccess {s t : State} {a : HostAccess} (hu : isUp s = true) (st : Status) (h : hostAccessFail s a st = t) :
    Host.Outcome.next (settle s (whenUp s (fun s => hostAccessFail s a st))) =
      (.next (settle s t) : Host.Outcome State Fault Refusal) := by
  rw [whenUp_up hu, h]

theorem hostAccessFail_enable {s : State} {ctx : Nat} (hc : s.hpt.cmd = some ⟨true, ctx⟩) (st : Status) :
    hostAccessFail s .enable st = openEvent (ctxCmdEnd s st) .error st ⟨9, ctx⟩ 0 ctx := by
  simp only [hostAccessFail, hc]

theorem hostAccessFail_descriptor {s : State} {id : Nat} {f : Flight} (hf : tget s.hpt.flight id = some f) (st : Status) :
    hostAccessFail s (.shared (some id)) st = completeSt (openEvent s .error st ⟨9, f.key.ctx⟩ f.req f.key.ctx) id st := by
  simp only [hostAccessFail, Option.bind_some, hf, Option.map_some]

theorem hostAccessFail_none (s : State) (st : Status) :
    hostAccessFail s (.shared none) st = openEvent s .error st noUnit 0 0 := rfl

/-- A context that faults goes down with its cause (R119 step 1). -/
theorem faultCtx_of_enabled {s : State} {c : Nat} {x : Ctx} (hx : tget s.hpt.ctxs c = some x) (hd : x.down = none) (st : Status) :
    faultCtx s c st = setCtx (openEvent s .error st ⟨9, c⟩ 0 c) c { x with down := some ⟨st, true, false, 0, 0⟩ } := by
  unfold faultCtx
  simp only [hx, hd, Option.isSome_none, Bool.false_eq_true, if_false]
  rfl

/-- Settles O3: what a failed access faults, ends or reports, by what it was for. -/
theorem failedHostAccesses : Obligations.FailedHostAccesses := by
  refine ⟨?_, ?_, ?_, ?_, ?_⟩
  · exact fun s c hu => ⟨exec_failedAccess hu _ rfl, exec_failedAccess hu _ rfl⟩
  · exact fun s ctx hu hc => ⟨exec_failedAccess hu _ (hostAccessFail_enable hc _), exec_failedAccess hu _ (hostAccessFail_enable hc _)⟩
  · exact fun s id f hu hf =>
      ⟨exec_failedAccess hu _ (hostAccessFail_descriptor hf _), exec_failedAccess hu _ (hostAccessFail_descriptor hf _)⟩
  · exact fun s hu => ⟨exec_failedAccess hu _ (hostAccessFail_none s _), exec_failedAccess hu _ (hostAccessFail_none s _)⟩
  · intro s c x hx hd st
    rw [faultCtx_of_enabled hx hd st]
    exact ⟨tget_setCtx_same _ c _, fun c' hc => tget_setCtx_ne _ _ hc⟩

/-! ### Descriptors taken and completed -/

theorem dispatched_of_takeDesc {s s1 : State} {k : RingKey} {d : Desc} {key : DescKey} (hu : isUp s = true)
    (ht : takeDesc s k d = .dispatched s1 key) :
    dispatched s k d key (setFlight s1 (flightId key) ⟨key, dOpcode d, dNocomp d, dIntr d, dTag d, dReq d, none⟩) :=
  ⟨hu, s1, ht, rfl⟩

theorem nop_completes {s s1 : State} {k : RingKey} {d : Desc} {key : DescKey} (hu : isUp s = true) (ho : dOpcode d = 0)
    (ht : takeDesc s k d = .dispatched s1 key) (hc : firstFail (headChecks d (resvWords d payloadOffs)) = none) :
    nop s k d = completeOk (setFlight s1 (flightId key) ⟨key, 0, dNocomp d, dIntr d, dTag d, dReq d, none⟩) (flightId key) := by
  have passed : passes d (resvWords d payloadOffs) [] := by rwa [passes, List.append_nil]
  unfold nop
  rw [ofForm_of (by simp [ho]), runDesc_acts (checks := fun _ _ => []) (dispatched_of_takeDesc hu ht) passed, ho]

/-- A version that is known and an opcode that is not: the opcode's check is the first that fails (R73). -/
theorem firstFail_of_unknown {d : Desc} {payload : List Nat} (hv : dVersion d = 1) (ho : knownOpcode (dOpcode d) = false) :
    firstFail (headChecks d payload) = some (chk true St.HPT_BAD_OPCODE 0) := by
  simp [firstFail, headChecks, chk, hv, ho]

theorem reservedOpcode_rejects {s s1 : State} {k : RingKey} {d : Desc} {key : DescKey} (hu : isUp s = true)
    (ho : knownOpcode (dOpcode d) = false) (hv : dVersion d = 1) (ht : takeDesc s k d = .dispatched s1 key) :
    reservedOpcode s k d = completeWith (setFlight s1 (flightId key)
      ⟨key, dOpcode d, dNocomp d, dIntr d, dTag d, dReq d, none⟩) (flightId key) St.HPT_BAD_OPCODE 0 := by
  have fails : firstFail (headChecks d [] ++ []) = some (chk true St.HPT_BAD_OPCODE 0) := by
    rw [List.append_nil, firstFail_of_unknown hv ho]
  unfold reservedOpcode
  rw [ofForm_of (by simp [ho]), runDesc_rejects (checks := fun _ _ => []) (dispatched_of_takeDesc hu ht) fails]
  rfl

theorem takeDesc_next {s : State} {k : RingKey} {d : Desc} {x : Ctx} {r : RingState} (hx : tget s.hpt.ctxs k.ctx = some x)
    (hr : x.rings[k.ring]? = some r) (hd : x.down = none) (hw : r.waiting = []) (hf : r.fetched ≠ r.tail)
    (hb : ringBlocked s k = false) (hfence : dFence d = true → ringOpen s x k = false) :
    takeDesc s k d = .dispatched (emit (setCtx s k.ctx { x with rings := x.rings.set k.ring { r with
        fetched := (r.fetched + 1) % 2 ^ 32 } })
      (.hostWrite (x.entry.rheadAddr + 8 * k.ring) (natBytes 8 ((r.fetched + 1) % 2 ^ 32)))) ⟨k.ctx, k.ring, r.fetched⟩ := by
  have free : (dFence d && ringOpen s x k) = false := by
    cases h : dFence d with
    | false => rfl
    | true => rw [hfence h]; rfl
  simp [takeDesc, hx, hr, hd, hw, hf, hb, free, rheadWrite]

theorem writeRecord_free {s : State} {c q : Nat} {x : Ctx} {cfg : CqCfg} {cq : CqState} {r : HeldRecord}
    (hx : tget s.hpt.ctxs c = some x) (hcfg : x.entry.cqs[q]? = some cfg) (hcq : x.cqs[q]? = some cq)
    (hp : s.hpt.portDown = false) (hf : cqFull cfg cq = false) (hd : cq.delayed = []) :
    writeRecord s c q r = putRecord s c q x cfg cq r := by
  simp [writeRecord, hx, hcfg, hcq, hp, hf, hd]

theorem writeRecord_full {s : State} {c q : Nat} {x : Ctx} {cfg : CqCfg} {cq : CqState} {r : HeldRecord}
    (hx : tget s.hpt.ctxs c = some x) (hcfg : x.entry.cqs[q]? = some cfg) (hcq : x.cqs[q]? = some cq)
    (hp : s.hpt.portDown = false) (hf : cqFull cfg cq = true) :
    writeRecord s c q r = emit (modReq (bump (setCtx s c { x with cqs := x.cqs.set q { cq with
      watch := true, delayed := cq.delayed ++ [r] } }) F.HPT_CQ_STALL_CNT_COUNT) r.req (fun y => { y with delayed := true }))
      (.hostRead (.context c) x.entry.cqheadAddr 64) := by
  simp [writeRecord, hx, hcfg, hcq, hp, hf]

/-- Settles O4: NOP, reserved opcodes, the ring's advance, and a record written or delayed. -/
theorem descriptorsTakenAndCompleted : Obligations.DescriptorsTakenAndCompleted := by
  refine ⟨?_, ?_, fun s k d x r => takeDesc_next, ?_, fun s c q x cfg cq r => writeRecord_full⟩
  · exact fun s s1 k d key hu ho ht hc => congrArg Host.Outcome.next (nop_completes hu ho ht hc)
  · exact fun s s1 k d key hu ho hv ht => congrArg Host.Outcome.next (reservedOpcode_rejects hu ho hv ht)
  · intro s c q x cfg cq r hx hcfg hcq hp hf hd
    rw [writeRecord_free hx hcfg hcq hp hf hd]
    simp only [putRecord, phaseBit, List.singleton_append, Bool.and_eq_true]

end Sys2Proof.HostPort
end

section
/-! Request descriptors that pass their checks (R74, R117, R225, R226, R417). -/

namespace Sys2Proof.HostPort

open Sys2Proof Sys2Proof.Machine Sys2Proof.Laws

/-! ### What a request descriptor does once its checks pass -/

theorem reqPost_acts {s u : State} {k : RingKey} {d : Desc} {key : DescKey} {param : List Word} {input : List (BitVec 32)}
    {home : HomeView} (h : dispatched s k d key u) (ho : dOpcode d = 1)
    (hc : passes d (postBytes d) (postChecks d param input home u key)) :
    reqPost s k d param input home = actPost u key (flightId key) d param input home := by
  unfold reqPost
  rw [ofForm_of (by simp [ho]), runDesc_acts h hc]

/-- Further checks that do not fail leave a descriptor passing. -/
theorem passes_append {d : Desc} {payload : List Nat} {cs ds : List Check} (h : passes d payload cs)
    (hd : ∀ c ∈ ds, c.bad = false) : passes d payload (cs ++ ds) := by
  unfold passes firstFail at h ⊢
  rw [← List.append_assoc, List.find?_append, h, Option.none_or, List.find?_eq_none]
  intro c hm
  simp [hd c hm]

/-- A REQ_POST that is known here by its descriptor and its request, before its take or its handover is asked for (R74). -/
def posted (u : State) (key : DescKey) (d : Desc) (p : List Word) (committed : Nat) : State :=
  { u with
    hpt := { u.hpt with posts := tset u.hpt.posts (dReq d) ⟨flightId key, qOut d, qLog2 d, qModel d, p⟩ }
    sch := { u.sch with reqs := tset u.sch.reqs (dReq d) (postReq u key d p committed) } }

theorem actPost_unknown {u : State} {key : DescKey} {d : Desc} {param : List Word} {input : List (BitVec 32)}
    (hp : pPromptCounts (paramOf d param) = false) :
    actPost u key (flightId key) d param input .unknown =
      giveSlate { posted u key d (paramOf d param) 0 with
        kva := { u.kva with roots := tset u.kva.roots (dReq d) ⟨qFmt d, (pageClass (modelDim u (qModel d)) (qFmt d == 1)).getD 0,
          qModel d, modelLayers u (qModel d), kvHeads u, 0, 0⟩ } }
        (creatingSlate u (dReq d)) (.create (dReq d)) := by
  unfold actPost
  simp only [hp, Bool.false_eq_true, if_false]
  rfl

theorem actPost_known {u : State} {key : DescKey} {d : Desc} {param : List Word} {input : List (BitVec 32)} {parked re : Bool}
    {g e c n : Nat} (hp : pPromptCounts (paramOf d param) = false) (hn : leaderOf u.dtm.map g = some n) :
    actPost u key (flightId key) d param input (.record parked g e c re) =
      send (posted u key d (paramOf d param) c) n 0 .post [at' 0 48 (dReq d), at' 0 16 (ownGroup u)] := by
  unfold actPost
  simp only [hp, Bool.false_eq_true, if_false, hn]
  rfl

theorem reqPark_acts {s u : State} {k : RingKey} {d : Desc} {key : DescKey} {parked re : Bool} {g e c : Nat}
    (h : dispatched s k d key u) (ho : dOpcode d = 2)
    (hc : passes d (resv d 0x10 63 16 ++ resvWords d [0x18, 0x20, 0x28, 0x30, 0x38]) (parkChecks d (.record parked g e c re) u key)) :
    reqPark s k d (.record parked g e c re) =
      if leads u g then openTraverse u (.park (dReq d) (kDst d) (self u) (flightId key))
      else
        match leaderOf u.dtm.map g with
        | some n => (sendFor u n 0 .park [mkWord [(0, 48, dReq d), (48, 16, kDst d)], BitVec.ofNat 64 (flightId key)]
            (.park (flightId key))).1
        | none => completeSt u (flightId key) St.TRV_BAD_STATE := by
  unfold reqPark
  rw [ofForm_of (by simp [ho]), runDesc_acts h hc]
  rfl

/-- A cancel of a request that runs, by a controller with a role, passes the further checks (R90, R117). -/
theorem reqCancel_acts {s u : State} {k : RingKey} {d : Desc} {key : DescKey} {g e c : Nat} {re : Bool}
    (h : dispatched s k d key u) (ho : dOpcode d = 3) (hr : role u ≠ 0) (hc : passes d (resvWords d payloadOffs) []) :
    reqCancel s k d (.record false g e c re) =
      if thas u.sch.reqs (dReq d) && leadsFor u (dReq d) then
        cancelReshoot (cancelWait (markCancel u (dReq d) (self u) key) (dReq d)) (dReq d)
      else
        send u (homeOf u.dtm.map (dReq d)) 0 .cancel [at' 0 48 (dReq d),
          mkWord [(0, 20, self u), (20, 12, key.ctx), (32, 3, key.ring)], at' 0 32 key.count] := by
  unfold reqCancel
  rw [ofForm_of (by simp [ho]), runDesc_acts h (passes_of hc (by simp [unknownChecks, chk, hr]))]

theorem cancelReachesOwner_marks {s : State} {req node : Nat} {key : DescKey} (hu : isUp s = true)
    (hq : thas s.sch.reqs req = true) (hl : leadsFor s req = true) :
    cancelReachesOwner s req node key = cancelReshoot (cancelWait (markCancel s req node key) req) req := by
  unfold cancelReachesOwner
  rw [whenUp_up hu, hq, hl, Bool.and_self, if_pos rfl]

/-- A release asked with the request's group and epoch: the home takes it up itself, another controller gives the slate (R225). -/
theorem askRelease_known (s : State) (req g e : Nat) (flight : Option Nat) :
    askRelease s req (some (g, e)) flight =
      if homeOf s.dtm.map req = self s then startTake s (releaseSlate s req g e) (.release req g flight) .block 15
      else giveSlate s (releaseSlate s req g e) (.release req 0xFFFF flight) := rfl

/-- A release of a parked request that is not being recomputed passes the further checks (R225). -/
theorem reqReleaseFree_acts {s u : State} {k : RingKey} {d : Desc} {key : DescKey} {g e c : Nat}
    (h : dispatched s k d key u) (ho : dOpcode d = 4) (hop : lOp d = 0) (hr : role u ≠ 0) (hc : passes d (releaseBytes d) []) :
    reqReleaseFree s k d (.record true g e c false) = askRelease u (dReq d) (some (g, e)) (some (flightId key)) := by
  unfold reqReleaseFree
  rw [ofForm_of (by simp [ho, hop]), runDesc_acts h (passes_of hc (by simp [unknownChecks, chk, hr]))]

/-- A RESHOOT whose buffer is good and whose home record is known asks the owner's leader, here or elsewhere (R226). -/
theorem reqReleaseReshoot_acts {s u : State} {k : RingKey} {d : Desc} {key : DescKey} {parked re : Bool} {g e c : Nat}
    (h : dispatched s k d key u) (ho : dOpcode d = 4) (hop : lOp d = 1)
    (hc : passes d (releaseBytes d) [chk (lIn d % 64 != 0) St.HPT_BAD_ADDR 0x18,
      chk (!hostOk u key false (lIn d) (4 * lCount d)) St.HPT_PROT 0x18, chk (!servesPrefill (role u)) St.SCH_ROLE_MISMATCH 0]) :
    reqReleaseReshoot s k d (.record parked g e c re) =
      if leads u g then
        checkReshoot { u with kva := { u.kva with asks := tset u.kva.asks (flightId key) (dReq d) } } (dReq d) (lCount d) (self u)
          (flightId key)
      else
        match leaderOf u.dtm.map g with
        | some n => send (beginRecompute u key d (flightId key) g c) n 0 .reshootAsk
            [at' 0 48 (dReq d), mkWord [(0, 23, lCount d), (32, 20, self u)], BitVec.ofNat 64 (flightId key)]
        | none => beginRecompute u key d (flightId key) g c := by
  have passed : passes d (releaseBytes d) [chk (lIn d % 64 != 0) St.HPT_BAD_ADDR 0x18,
      chk (!hostOk u key false (lIn d) (4 * lCount d)) St.HPT_PROT 0x18, chk (!servesPrefill (role u)) St.SCH_ROLE_MISMATCH 0,
      chk (decide (HomeView.record parked g e c re = .unknown)) St.HPT_REQ_UNKNOWN 8] := by
    refine passes_append hc (ds := [_]) ?_
    simp [chk]
  unfold reqReleaseReshoot
  rw [ofForm_of (by simp [ho, hop]), runDesc_acts h passed]
  rfl

/-- Settles O5: each request descriptor's action, taken from its checks, and then the branch that its clause names. -/
theorem requestCommands : Obligations.RequestCommands := by
  refine ⟨?_, ?_, ?_, ?_, ?_, ?_, ?_, ?_, ?_, ?_⟩
  · exact fun s u k d key param input h ho hc hp => next_settle ((reqPost_acts h ho hc).trans (actPost_unknown hp))
  · exact fun s u k d key param input parked re g e c n h ho hc hp hn =>
      next_settle ((reqPost_acts h ho hc).trans (actPost_known hp hn))
  · exact fun s u k d key parked re g e c h ho hc hl => next_settle ((reqPark_acts h ho hc).trans (if_pos hl))
  · exact fun s u k d key parked re g e c n h ho hc hl hn =>
      next_settle ((reqPark_acts h ho hc).trans (by simp only [hl, hn, Bool.false_eq_true, if_false]))
  · exact fun s u k d key g e c re h ho hr hc hq => next_settle ((reqCancel_acts h ho hr hc).trans (if_neg (by simp [hq])))
  · exact fun s u k d key g e c re h ho hr hc hq hl =>
      next_settle ((reqCancel_acts h ho hr hc).trans (if_pos (by simp [hq, hl])))
  · exact fun s req node key hu hq hl => next_settle (cancelReachesOwner_marks hu hq hl)
  · exact fun s u k d key g e c h ho hop hr hc => next_settle ((reqReleaseFree_acts h ho hop hr hc).trans (askRelease_known u _ g e _))
  · exact fun s u k d key g e c re parked h ho hop hc hl => next_settle ((reqReleaseReshoot_acts h ho hop hc).trans (if_pos hl))
  · exact fun s u k d key g e c n re parked h ho hop hc hl hn =>
      next_settle ((reqReleaseReshoot_acts h ho hop hc).trans (by simp only [hl, hn, Bool.false_eq_true, if_false]))

end Sys2Proof.HostPort
end

section
/-! Admission into steps (R99, R100) and the deadline monitor (R112). -/

namespace Sys2Proof.Scheduling

open Sys2Proof Sys2Proof.Machine Sys2Proof.Laws

/-! ### The turns of the admission loop -/

/-- The next candidate of a tenant is a candidate that is not admitted yet. -/
theorem nextCand_mem {cs : List Cand} {adm : List Nat} {t : Nat} {c : Cand} (h : nextCand cs adm t = some c) :
    c ∈ cs ∧ c.req ∉ adm := by
  have listed := (mem_sortBy _ c _).1 (List.mem_of_mem_head? h)
  obtain ⟨hc, hn⟩ := List.mem_filter.1 listed
  exact ⟨hc, by simpa using (Bool.and_eq_true_iff.1 hn).2⟩

/-- A tenant's deficit as its visit goes on: the quantum is added when the visit opens (R99). -/
def visitDeficit (s : State) (d : Drr) (t : Nat) : Nat := tgetD d.deficit t 0 + if d.opened then 0 else quantum s t

/-- A tenant without a candidate leaves the ring (R99). -/
def leaveRing (d : Drr) (t : Nat) : Drr :=
  ⟨d.ring.eraseIdx d.ptr, if d.ptr < (d.ring.eraseIdx d.ptr).length then d.ptr else 0, false, tdel d.deficit t⟩

/-- A candidate is admitted, and its tenant's visit stays open (R99). -/
def payCost (s : State) (d : Drr) (t : Nat) (c : Cand) : Drr :=
  ⟨d.ring, d.ptr, true, tset d.deficit t (visitDeficit s d t - c.cost)⟩

/-- A tenant whose deficit does not suffice keeps it, and the visit goes on to the next tenant (R99). -/
def passOn (s : State) (d : Drr) (t : Nat) : Drr :=
  ⟨d.ring, (d.ptr + 1) % d.ring.length, false, tset d.deficit t (visitDeficit s d t)⟩

/-- One turn of the loop, by what the tenant whose turn it is can do. -/
theorem admitLoop_succ (s : State) (seats : Nat) (cs : List Cand) (n : Nat) (d : Drr) (adm : List Nat) :
    admitLoop s seats cs (n + 1) d adm =
      if seats ≤ adm.length then (d, adm)
      else
        match d.ring[d.ptr]? with
        | none => (d, adm)
        | some t =>
          match nextCand cs adm t with
          | none => admitLoop s seats cs n (leaveRing d t) adm
          | some c =>
            if c.cost ≤ visitDeficit s d t then admitLoop s seats cs n (payCost s d t c) (adm ++ [c.req])
            else admitLoop s seats cs n (passOn s d t) adm := rfl

/-- What each of the three turns keeps holds when the loop ends. -/
theorem admitLoop_induct {s : State} {seats : Nat} {cs : List Cand} {P : Drr → List Nat → Prop}
    (leave : ∀ d adm t, P d adm → d.ring[d.ptr]? = some t → P (leaveRing d t) adm)
    (seat : ∀ d adm t c, P d adm → d.ring[d.ptr]? = some t → adm.length < seats → nextCand cs adm t = some c →
      P (payCost s d t c) (adm ++ [c.req]))
    (pass : ∀ d adm t c, P d adm → d.ring[d.ptr]? = some t → nextCand cs adm t = some c → visitDeficit s d t < c.cost →
      P (passOn s d t) adm)
    (n : Nat) (d : Drr) (adm : List Nat) (h : P d adm) : P (admitLoop s seats cs n d adm).1 (admitLoop s seats cs n d adm).2 := by
  induction n generalizing d adm with
  | zero => exact h
  | succ n ih =>
    rw [admitLoop_succ]
    split
    · exact h
    next free =>
      split
      · exact h
      next t ht =>
        split
        · exact ih _ _ (leave d adm t h ht)
        next c hc =>
          split
          · exact ih _ _ (seat d adm t c h ht (by omega) hc)
          next short => exact ih _ _ (pass d adm t c h ht hc (by omega))

/-! ### Seats -/

/-- The admitted fill no more than the seats, each once and each a candidate. -/
structure Seated (seats : Nat) (cs : List Cand) (adm : List Nat) : Prop where
  fits : adm.length ≤ seats
  once : adm.Nodup
  cand : ∀ r ∈ adm, ∃ c ∈ cs, c.req = r

theorem Seated.add {seats : Nat} {cs : List Cand} {adm : List Nat} {t : Nat} {c : Cand} (h : Seated seats cs adm)
    (free : adm.length < seats) (hc : nextCand cs adm t = some c) : Seated seats cs (adm ++ [c.req]) := by
  obtain ⟨hm, hn⟩ := nextCand_mem hc
  refine ⟨by simpa using free, List.Nodup.append h.once (List.nodup_singleton _) (by simpa using hn), fun r hr => ?_⟩
  rcases List.mem_append.1 hr with hr | hr
  · exact h.cand r hr
  · exact ⟨c, hm, (List.mem_singleton.1 hr).symm⟩

theorem admitWork_seated (s : State) (cs : List Cand) (d : Drr) :
    Seated (rd s F.SCH_STEP_CFG_MAX_SEQ) cs (admitWork s cs d).2 :=
  admitLoop_induct (P := fun _ adm => Seated _ cs adm) (fun _ _ _ h _ => h) (fun _ _ _ _ h _ free hc => h.add free hc)
    (fun _ _ _ _ h _ _ _ => h) _ _ _ ⟨Nat.zero_le _, List.nodup_nil, by simp⟩

/-! ### Deficits -/

theorem tgetD_tset_same {α : Type} (t : Tbl α) (k : Nat) (v d : α) : tgetD (tset t k v) k d = v := by simp [tgetD]

theorem tgetD_tset_ne {α : Type} (t : Tbl α) {k j : Nat} (v d : α) (h : j ≠ k) : tgetD (tset t k v) j d = tgetD t j d := by
  simp only [tgetD, tget_tset_ne t k j v h]

theorem tgetD_tdel_same {α : Type} (t : Tbl α) (k : Nat) (d : α) : tgetD (tdel t k) k d = d := by simp [tgetD]

theorem tgetD_tdel_ne {α : Type} (t : Tbl α) {k j : Nat} (d : α) (h : j ≠ k) : tgetD (tdel t k) j d = tgetD t j d := by
  simp only [tgetD, tget_tdel_ne t k j h]

/-- Deleted deficits are zero, and the others stand. -/
theorem tgetD_foldl_tdel_le (l : List Nat) (t : Tbl Nat) (k : Nat) : tgetD (l.foldl (fun t x => tdel t x) t) k 0 ≤ tgetD t k 0 := by
  induction l generalizing t with
  | nil => exact Nat.le_refl _
  | cons x l ih =>
    refine Nat.le_trans (ih (tdel t x)) ?_
    by_cases h : k = x
    · rw [h, tgetD_tdel_same]
      exact Nat.zero_le _
    · rw [tgetD_tdel_ne t 0 h]

/-- What a tenant's deficit may hold beyond one cost: the quantum, while its visit is open. -/
def openQuantum (s : State) (d : Drr) (t : Nat) : Nat := if d.opened = true ∧ d.ring[d.ptr]? = some t then quantum s t else 0

/-- No deficit has reached the largest cost and what an open visit adds. -/
def DeficitsBounded (s : State) (d : Drr) : Prop := ∀ t, tgetD d.deficit t 0 < 4112 + openQuantum s d t

theorem openQuantum_closed {s : State} {d : Drr} (h : d.opened = false) (t : Nat) : openQuantum s d t = 0 := by
  simp [openQuantum, h]

theorem openQuantum_other {s : State} {d : Drr} {t t' : Nat} (ht : d.ring[d.ptr]? = some t) (h : t' ≠ t) : openQuantum s d t' = 0 := by
  simp [openQuantum, ht, Ne.symm h]

theorem openQuantum_open {s : State} {d : Drr} {t : Nat} (ho : d.opened = true) (ht : d.ring[d.ptr]? = some t) :
    openQuantum s d t = quantum s t := by
  simp [openQuantum, ho, ht]

/-- With the quantum of the tenant whose turn it is, no deficit reaches one cost and the quantum. -/
theorem DeficitsBounded.visit {s : State} {d : Drr} {t : Nat} (h : DeficitsBounded s d) (ht : d.ring[d.ptr]? = some t) :
    visitDeficit s d t < 4112 + quantum s t := by
  have bound := h t
  unfold visitDeficit
  cases ho : d.opened with
  | false =>
    rw [openQuantum_closed ho] at bound
    simpa using bound
  | true =>
    rw [openQuantum_open ho ht] at bound
    simpa using bound

/-- Outside the turn's tenant every deficit is below one cost. -/
theorem DeficitsBounded.other {s : State} {d : Drr} {t t' : Nat} (h : DeficitsBounded s d) (ht : d.ring[d.ptr]? = some t)
    (hne : t' ≠ t) : tgetD d.deficit t' 0 < 4112 := by
  have bound := h t'
  rwa [openQuantum_other ht hne] at bound

theorem DeficitsBounded.leaveRing {s : State} {d : Drr} {t : Nat} (h : DeficitsBounded s d) (ht : d.ring[d.ptr]? = some t) :
    DeficitsBounded s (leaveRing d t) := by
  intro t'
  rw [openQuantum_closed rfl]
  show tgetD (tdel d.deficit t) t' 0 < 4112
  by_cases hne : t' = t
  · rw [hne, tgetD_tdel_same]
    decide
  · rw [tgetD_tdel_ne _ 0 hne]
    exact h.other ht hne

theorem DeficitsBounded.payCost {s : State} {d : Drr} {t : Nat} (h : DeficitsBounded s d) (ht : d.ring[d.ptr]? = some t) (c : Cand) :
    DeficitsBounded s (payCost s d t c) := by
  intro t'
  by_cases hne : t' = t
  · have left : tgetD (Scheduling.payCost s d t c).deficit t 0 = visitDeficit s d t - c.cost := tgetD_tset_same ..
    have bound := h.visit ht
    rw [hne, left, openQuantum_open (d := Scheduling.payCost s d t c) rfl ht]
    omega
  · have kept : tgetD (Scheduling.payCost s d t c).deficit t' 0 = tgetD d.deficit t' 0 := tgetD_tset_ne _ _ _ hne
    have bound := h.other ht hne
    rw [kept]
    omega

theorem DeficitsBounded.passOn {s : State} {d : Drr} {t : Nat} (h : DeficitsBounded s d) (ht : d.ring[d.ptr]? = some t)
    (short : visitDeficit s d t < 4112) : DeficitsBounded s (passOn s d t) := by
  intro t'
  rw [openQuantum_closed rfl]
  show tgetD (tset d.deficit t _) t' 0 < 4112
  by_cases hne : t' = t
  · rw [hne, tgetD_tset_same]
    exact short
  · rw [tgetD_tset_ne _ _ _ hne]
    exact h.other ht hne

/-- Tenants join behind those in the ring, with deficit 0, so the open visit stays whose it was. -/
theorem DeficitsBounded.joinRing {s : State} {d : Drr} (h : DeficitsBounded s d) (cs : List Cand) :
    DeficitsBounded s (joinRing cs d) := by
  intro t
  have lower : tgetD (Machine.joinRing cs d).deficit t 0 ≤ tgetD d.deficit t 0 := tgetD_foldl_tdel_le _ _ _
  have turn : openQuantum s d t ≤ openQuantum s (Machine.joinRing cs d) t := by
    by_cases hopen : d.opened = true ∧ d.ring[d.ptr]? = some t
    · obtain ⟨ho, ht⟩ := hopen
      have still : (Machine.joinRing cs d).ring[(Machine.joinRing cs d).ptr]? = some t := by
        obtain ⟨hlt, -⟩ := List.getElem?_eq_some_iff.1 ht
        exact (List.getElem?_append_left hlt).trans ht
      rw [openQuantum_open ho ht, openQuantum_open (d := Machine.joinRing cs d) ho still]
    · rw [openQuantum, if_neg hopen]
      exact Nat.zero_le _
  have bound := h t
  omega

theorem admitWork_deficitsBounded {s : State} {cs : List Cand} {d : Drr} (hc : ∀ c ∈ cs, c.cost ≤ 4112) (h : DeficitsBounded s d) :
    DeficitsBounded s (admitWork s cs d).1 :=
  admitLoop_induct (P := fun d _ => DeficitsBounded s d) (fun _ _ _ h ht => h.leaveRing ht) (fun _ _ _ c h ht _ _ => h.payCost ht c)
    (fun _ _ _ c h ht hn short => h.passOn ht (Nat.lt_of_lt_of_le short (hc c (nextCand_mem hn).1))) _ _ _ (h.joinRing cs)

/-- Settles O46: what the three turns of the loop keep of the seats and of the deficits. -/
theorem admissionSeatsAndDeficits : Obligations.AdmissionSeatsAndDeficits := by
  refine ⟨fun s cs d => ?_, fun s cs d hc hd => admitWork_deficitsBounded hc hd⟩
  obtain ⟨fits, once, cand⟩ := admitWork_seated s cs d
  exact ⟨fits, once, cand⟩

/-! ### The deadline monitor -/

/-- The member that moves first is one of the batch, and has a stand-in. -/
theorem tightest_mem {s : State} {main : List Nat} {r : Nat} (h : tightest s main = some r) :
    r ∈ main ∧ (reqOf s r).elim false (fun q => q.standin.isSome) = true := by
  have listed := (mem_sortBy _ r _).1 (List.mem_of_mem_head? h)
  obtain ⟨hm, hs⟩ := List.mem_filter.1 listed
  exact ⟨hm, (Bool.and_eq_true_iff.1 hs).2⟩

/-- One turn of the monitor, where a member can move. -/
theorem monitor_succ_some {s : State} {est : StepEstimate} {n r : Nat} {main others : List Nat} (h : tightest s main = some r) :
    monitor s est (n + 1) main others =
      if budgetOf s r < forecast s est main others then monitor s est n (main.erase r) (others ++ [r]) else (main, others) := by
  rw [monitor, h]

theorem monitor_succ_none {s : State} {est : StepEstimate} {n : Nat} {main others : List Nat} (h : tightest s main = none) :
    monitor s est (n + 1) main others = (main, others) := by
  rw [monitor, h]

/-- What each move to a stand-in keeps holds when the monitor ends. -/
theorem monitor_induct {s : State} {est : StepEstimate} {P : List Nat → List Nat → Prop}
    (move : ∀ main others r, P main others → tightest s main = some r → P (main.erase r) (others ++ [r]))
    (n : Nat) (main others : List Nat) (h : P main others) : P (monitor s est n main others).1 (monitor s est n main others).2 := by
  induction n generalizing main others with
  | zero => exact h
  | succ n ih =>
    cases ht : tightest s main with
    | none =>
      rw [monitor_succ_none ht]
      exact h
    | some r =>
      rw [monitor_succ_some ht]
      split
      · exact ih _ _ (move main others r h ht)
      · exact h

/-- The monitor ends within the tightest budget: each move takes a member away, so the turns suffice. -/
theorem monitor_within_budget {s : State} {est : StepEstimate} {n : Nat} {main others : List Nat} (hn : main.length ≤ n) {r : Nat}
    (hr : tightest s (monitor s est n main others).1 = some r) :
    forecast s est (monitor s est n main others).1 (monitor s est n main others).2 ≤ budgetOf s r := by
  induction n generalizing main others with
  | zero =>
    obtain rfl : main = [] := List.length_eq_zero_iff.1 (Nat.le_zero.1 hn)
    exact absurd (tightest_mem hr).1 List.not_mem_nil
  | succ n ih =>
    cases ht : tightest s main with
    | none =>
      rw [monitor_succ_none ht, ht] at hr
      cases hr
    | some q =>
      rw [monitor_succ_some ht] at hr ⊢
      split at hr
      next late =>
        rw [if_pos late]
        refine ih ?_ hr
        rw [List.length_erase_of_mem (tightest_mem ht).1]
        omega
      next within =>
        rw [if_neg within]
        obtain rfl : q = r := Option.some.inj (ht.symm.trans hr)
        exact Nat.le_of_not_lt within

/-- Members only move from the main models (`main0`) to the stand-ins (`others0`), and only those that have one. -/
structure OnlyMoved (s : State) (main0 others0 main others : List Nat) : Prop where
  from_main : ∀ r ∈ main, r ∈ main0
  same : ∀ r, (r ∈ main ∨ r ∈ others) ↔ (r ∈ main0 ∨ r ∈ others0)
  stays : ∀ r ∈ main0, (reqOf s r).elim false (fun q => q.standin.isSome) = false → r ∈ main

theorem OnlyMoved.move {s : State} {main0 others0 main others : List Nat} {r : Nat} (h : OnlyMoved s main0 others0 main others)
    (hr : tightest s main = some r) : OnlyMoved s main0 others0 (main.erase r) (others ++ [r]) := by
  obtain ⟨hm, hs⟩ := tightest_mem hr
  refine ⟨fun q hq => h.from_main q (List.mem_of_mem_erase hq), fun q => (Iff.trans ?_ (h.same q)), fun q hq hn => ?_⟩
  · by_cases hqr : q = r
    · simp [hqr, hm]
    · simp [hqr, List.mem_erase_of_ne hqr]
  · have hqr : q ≠ r := by
      rintro rfl
      rw [hs] at hn
      cases hn
    exact (List.mem_erase_of_ne hqr).2 (h.stays q hq hn)

theorem monitor_onlyMoved (s : State) (est : StepEstimate) (n : Nat) (main others : List Nat) :
    OnlyMoved s main others (monitor s est n main others).1 (monitor s est n main others).2 :=
  monitor_induct (fun _ _ _ h hr => h.move hr) n main others ⟨fun _ => id, fun _ => Iff.rfl, fun _ hr _ => hr⟩

/-- Settles O47: the loop ends within the tightest budget, and its moves lose nobody. -/
theorem monitorSettles : Obligations.MonitorSettles := by
  intro s est n main others hn
  obtain ⟨from_main, same, stays⟩ := monitor_onlyMoved s est n main others
  exact ⟨fun r hr => monitor_within_budget hn hr, from_main, same, stays⟩

end Sys2Proof.Scheduling
end

section
/-! Commands of the scheduler: writes of the step shape (R105), stand-ins that are missing (R113), semaphores (R108, R109), and the
teardown of a context (R119, R120). -/

namespace Sys2Proof.Scheduling

open Sys2Proof Sys2Proof.Machine Sys2Proof.Laws Sys2Proof.Frames Sys2Proof.HostPort

/-! ### Register writes -/

/-- A register that an operation does not touch reads as before. -/
theorem rd_of_keeps {ps : List Part} {offs : List Nat} {s t : State} {f : Field} (h : Keeps ps offs s t) (hf : f.off 0 ∉ offs) :
    rd t f = rd s f := by
  unfold rd rdi
  rw [h.regs _ hf]

theorem keeps_clkShow (s : State) : Keeps [] [F.CLK_STAT_PSTATE.off 0] s (clkShow s) :=
  (keeps_wr s F.CLK_STAT_PSTATE _).trans (keeps_wr _ F.CLK_STAT_GATED _) |>.trans (keeps_wr _ F.CLK_STAT_CORE_MHZ _)
    |>.mono (by decide) (by decide)

theorem keeps_trimChange (s s1 : State) :
    Keeps [] [F.CLK_TRIM_CNT_COUNT.off 0, F.CLK_STAT_PSTATE.off 0] s1 (trimChange s s1) := by
  unfold trimChange
  split
  · exact (keeps_bump s1 _).trans (keeps_clkShow _) |>.mono (by decide) (by decide)
  · exact (keeps_clkShow s1).mono (by decide) (by decide)

/-- A write of one field leaves the bits of the others alone. -/
theorem fld_fieldAfter_apart (s : State) (a : RegAccess) (base i : Nat) (v w : Word) (f : FieldDef) {lo width : Nat}
    (h : f.lo + f.width ≤ lo ∨ lo + width ≤ f.lo) : fld (fieldAfter s a base i v w f) lo width = fld w lo width := by
  unfold fieldAfter
  split
  · rfl
  · split
    · split
      · exact fld_setFld_ne _ _ _ _ _ _ h
      · rfl
    · exact fld_setFld_ne _ _ _ _ _ _ h
    · rfl

/-- A value outside the range of an RW field is ignored. -/
theorem fieldAfter_out_of_range (s : State) (a : RegAccess) (base i : Nat) (v w : Word) (f : FieldDef) (hf : f.acc = .rw)
    (h : inRange base f.lo (fld v f.lo f.width) = false) : fieldAfter s a base i v w f = w := by
  simp [fieldAfter, hf, h]

/-- A field that none of the writes of its register's fields changes reads as before. -/
theorem rd_writeFields_kept {s : State} {a : RegAccess} {r : RegDef} {f : Field} {off : Nat} {v : Word} (hf : f.off 0 = off)
    (h : fld (r.fields.foldl (fieldAfter s a r.base ((off - r.base) / r.stride) v) (s.reg off)) f.lo f.width =
      fld (s.reg off) f.lo f.width) : rd (writeFields s a r off v) f = rd s f := by
  subst hf
  unfold writeFields
  dsimp only
  split
  · unfold rd rdi
    rw [reg_setReg_same]
    exact h
  · rfl

theorem writeReg_plain {s : State} {a : RegAccess} {w : Word} {off : Nat} {r : RegDef} (ha : a.off / 8 * 8 = off)
    (hw : inWindow off = false) (hb : bwRegs.contains off = false) (hc : commandWrite s a off w = none) (hr : regAt off = some r) :
    writeReg s a w = trimChange s (writeFields s a r off (placed a w)) := by
  subst ha
  unfold writeReg
  simp only [hw, hb, hc, hr, Bool.or_false, Bool.false_eq_true, if_false]

/-! ### Writes of SCH_PROMPT_CFG (R105) -/

/-- SLICE_US, as the register table lists it. -/
def sliceDef : FieldDef := ⟨16, 5, .rw, 24⟩

/-- CHUNK_TOK, as the register table lists it. -/
def chunkDef : FieldDef := ⟨0, 15, .rw, 4096⟩

/-- SCH_PROMPT_CFG, as the register table lists it. -/
def promptCfg : RegDef := ⟨0x40010, 8, 1, [sliceDef, chunkDef]⟩

theorem regAt_promptCfg : regAt 0x40010 = some promptCfg := by decide

theorem commandWrite_promptCfg (s : State) (a : RegAccess) (w : Word) : commandWrite s a 0x40010 w = none := by
  simp [commandWrite, within, arrayAt]

theorem inRange_slice {v : Nat} (h : v < 4 ∨ 24 < v) : inRange 0x40010 sliceDef.lo v = false := by
  show (decide (4 ≤ v) && decide (v ≤ 24)) = false
  rw [Bool.and_eq_false_iff]
  simpa using h

theorem inRange_chunk {v : Nat} (h : v < 64 ∨ 16384 < v) : inRange 0x40010 chunkDef.lo v = false := by
  show (decide (64 ≤ v) && decide (v ≤ 16384)) = false
  rw [Bool.and_eq_false_iff]
  simpa using h

/-- A write that reaches SCH_PROMPT_CFG leaves a field of it alone that the writes of its fields leave alone. -/
theorem rd_registerWrite_promptCfg {s : State} {a : RegAccess} {w : Word} {f : Field} (ha : a.off / 8 * 8 = 0x40010)
    (hf : f.off 0 = 0x40010)
    (kept : ∀ x, fld (fieldAfter s a 0x40010 0 (placed a w) (fieldAfter s a 0x40010 0 (placed a w) x sliceDef) chunkDef) f.lo f.width =
      fld x f.lo f.width) : rd (registerWrite s a w) f = rd s f := by
  unfold registerWrite
  split
  · exact rd_of_keeps (keeps_prelock s true) (by rw [hf]; decide)
  · split
    · exact rd_of_keeps (keeps_emit s _) List.not_mem_nil
    · rw [writeReg_plain ha (by decide) (by decide) (commandWrite_promptCfg s a w) regAt_promptCfg,
        rd_of_keeps (keeps_trimChange s _) (by rw [hf]; decide)]
      exact rd_writeFields_kept hf (kept _)

/-- Settles O56: a value out of range is ignored, and the other field of the register has other bits. -/
theorem stepShapeWrites : Obligations.StepShapeWrites := by
  intro s a w ha
  refine ⟨registerWrite s a w, rfl, fun hs => ?_, fun hc => ?_⟩
  · refine rd_registerWrite_promptCfg ha rfl (fun x => ?_)
    rw [fieldAfter_out_of_range (f := sliceDef) (hf := rfl) (h := inRange_slice hs)]
    exact fld_fieldAfter_apart _ _ _ _ _ _ chunkDef (.inl (by decide))
  · refine rd_registerWrite_promptCfg ha rfl (fun x => ?_)
    rw [fieldAfter_out_of_range (f := chunkDef) (hf := rfl) (h := inRange_chunk hc)]
    exact fld_fieldAfter_apart _ _ _ _ _ _ sliceDef (.inr (by decide))

/-! ### A REQ_POST without a stand-in it needs (R113) -/

/-- When all checks before the one at place `n` pass and that one fails, it is the first that fails. -/
theorem firstFail_of_passes_take {d : Desc} {payload : List Nat} {cs : List Check} {n : Nat} {c : Check}
    (h : passes d payload (cs.take n)) (hn : cs[n]? = some c) (hc : c.bad = true) :
    firstFail (headChecks d payload ++ cs) = some c := by
  obtain ⟨hlt, rfl⟩ := List.getElem?_eq_some_iff.1 hn
  have cut : headChecks d payload ++ cs = (headChecks d payload ++ cs.take n) ++ cs[n] :: cs.drop (n + 1) := by
    rw [List.append_assoc, ← List.drop_eq_getElem_cons hlt, List.take_append_drop]
  unfold passes at h
  unfold firstFail at h ⊢
  rw [cut, List.find?_append, h, Option.none_or, List.find?_cons_of_pos hc]

theorem reqPost_rejects {s u : State} {k : RingKey} {d : Desc} {key : DescKey} {param : List Word} {input : List (BitVec 32)}
    {home : HomeView} (n : Nat) {c : Check} (h : dispatched s k d key u) (ho : dOpcode d = 1)
    (hp : passes d (postBytes d) ((postChecks d param input home u key).take n))
    (hn : (postChecks d param input home u key)[n]? = some c) (hc : c.bad = true) :
    reqPost s k d param input home = completeWith u (flightId key) c.st (rejectDetail c) := by
  unfold reqPost
  rw [ofForm_of (by simp [ho]), runDesc_rejects h (firstFail_of_passes_take hp hn hc)]
  rfl

theorem postChecks_noStandin (d : Desc) (param : List Word) (input : List (BitVec 32)) (home : HomeView) (u : State) (key : DescKey) :
    (postChecks d param input home u key)[12]? =
      some (chk (qPolicy d == 1 && qBudget d != 0 && (qStandin d).isNone) St.SCH_NO_STANDIN 0x2A) := rfl

theorem postChecks_standinNotLoaded (d : Desc) (param : List Word) (input : List (BitVec 32)) (home : HomeView) (u : State)
    (key : DescKey) :
    (postChecks d param input home u key)[13]? =
      some (chk ((qStandin d).any (fun m => !modelLoaded u m)) St.SCH_NO_MODEL 0x2A) := rfl

/-- Settles O58: the stand-in's two checks stand at places 12 and 13 of R73's order. -/
theorem standinRejections : Obligations.StandinRejections := by
  refine ⟨?_, ?_⟩
  · intro s u k d key param input home h ho hp hpol hb hs
    have rejects := reqPost_rejects 12 h ho hp (postChecks_noStandin ..) (by simp [chk, hpol, hb, hs])
    exact next_settle rejects
  · intro s u k d key param input home m h ho hp hs hm
    have rejects := reqPost_rejects 13 h ho hp (postChecks_standinNotLoaded ..) (by simp [chk, hs, hm])
    exact next_settle rejects

/-! ### Semaphores (R108, R109) -/

/-- Lent rank ends: a signal takes it back from the semaphore's owner (R110). -/
def endLoan (u : State) (h : Nat) : State := { u with sch := { u.sch with inherit := tdel u.sch.inherit h } }

/-- A signal that leaves the count `v` reports the count that stands when those that waited are served. -/
theorem signalTo_eq (u : State) (id h v : Nat) :
    signalTo u id h v =
      completeWith (serveAll (setSem (endLoan u h) h v) h) id St.OK
        (BitVec.ofNat 64 (semCount (serveAll (setSem (endLoan u h) h v) h) h % 2 ^ 32)) := rfl

section
variable {s u : State} {k : RingKey} {d : Desc} {key : DescKey}

/-- A context's own semaphore passes the protection check (R108). -/
theorem signal_passes (hown : semHandle d / 16 = key.ctx) (hp : passes d (signalBytes d) []) :
    passes d (signalBytes d) (signalChecks d u key) := passes_of hp (by simp [signalChecks, chk, hown])

theorem semSignalAdd_acts (h : dispatched s k d key u) (ho : dOpcode d = 0x50) (hm : dfld d 0x10 17 16 = 0)
    (hown : semHandle d / 16 = key.ctx) (hp : passes d (signalBytes d) []) :
    semSignalAdd s k d =
      if 2 ^ 32 ≤ semCount u (semHandle d) + dfld d 0x10 63 32 then
        completeSt (endLoan u (semHandle d)) (flightId key) St.SCH_SEM_OVERFLOW
      else signalTo u (flightId key) (semHandle d) (semCount u (semHandle d) + dfld d 0x10 63 32) := by
  unfold semSignalAdd
  rw [ofForm_of (by simp [ho, hm]), runDesc_acts h (signal_passes hown hp)]
  rfl

theorem semSignalSet_acts (h : dispatched s k d key u) (ho : dOpcode d = 0x50) (hm : dfld d 0x10 17 16 = 1)
    (hown : semHandle d / 16 = key.ctx) (hp : passes d (signalBytes d) []) :
    semSignalSet s k d = signalTo u (flightId key) (semHandle d) (dfld d 0x10 63 32) := by
  unfold semSignalSet
  rw [ofForm_of (by simp [ho, hm]), runDesc_acts h (signal_passes hown hp)]

/-- Failing payload bytes of a SEM_WAIT (R109). -/
def waitBytes (d : Desc) : List Nat :=
  resv d 0x10 31 16 ++ badAt (dfld d 0x10 63 32 == 0) 0x10 32 ++ resv d 0x18 63 32 ++ resvWords d [0x20, 0x28, 0x30, 0x38]

theorem semWait_acts (h : dispatched s k d key u) (ho : dOpcode d = 0x51) (hprot : waitProt u d key = false)
    (hp : passes d (waitBytes d) []) :
    semWait s k d =
      if (!u.sch.waiters.any (fun w => w.sem == semHandle d) && decide (dfld d 0x10 63 32 ≤ semCount u (semHandle d))) = true then
        completeOk (setSem u (semHandle d) (semCount u (semHandle d) - dfld d 0x10 63 32)) (flightId key)
      else
        lendTo { u with sch := { u.sch with waiters := u.sch.waiters ++
          [⟨semHandle d, flightId key, key.ctx, key.ring, dfld d 0x10 63 32, dfld d 0x18 31 0 != 0⟩] } } (semHandle d) key.ctx := by
  have passed : passes d (waitBytes d) [chk (waitProt u d key) St.SCH_SEM_PROT 0x10] := passes_of hp (by simp [chk, hprot])
  unfold semWait
  rw [ofForm_of (by simp [ho]), runDesc_acts h passed]

end

theorem semWaitTimeout_ends {s : State} {key : DescKey} {w : Waiter} (hu : isUp s = true)
    (hw : s.sch.waiters.find? (fun w => w.flight == flightId key && w.limited) = some w) :
    semWaitTimeout s key = serveAll (completeSt (dropWaiter s w) w.flight St.SCH_SEM_TIMEOUT) w.sem := by
  unfold semWaitTimeout
  rw [whenUp_up hu]
  simp only [hw]

/-! ### The teardown of a context (R119, R120) -/

theorem contextTeardownDone_ends {s : State} {c : Nat} {x : Ctx} {t : Teardown} (hu : isUp s = true)
    (hx : tget s.hpt.ctxs c = some x) (hd : x.down = some t) (hfault : t.fault = true) (hs : t.started = true)
    (hf : ∀ e ∈ s.hpt.flight, e.2.key.ctx ≠ c) (hm : ∀ e ∈ s.hpt.made, e.2 ≠ c) (hq : ∀ q ∈ x.cqs, q.delayed = []) :
    contextTeardownDone s c = endDown (postEvent s .contextDown t.cause ⟨9, c⟩ 0 c (BitVec.ofNat 64 t.released)
      (BitVec.ofNat 64 t.aborted)) c := by
  unfold contextTeardownDone
  rw [whenUp_up hu]
  simp only [hx, hd]
  rw [if_pos ⟨hfault, downOver_of_none_left hd hs hf hm hq⟩]

/-- Settles O8: the branch of the count that each clause names, and the two commands of the teardown. -/
theorem semaphoreCommands : Obligations.SemaphoreCommands := by
  refine ⟨?_, ?_, ?_, ?_, ?_, ?_, ?_, ?_⟩
  · intro s u k d key h ho hm hown hp hc
    exact congrArg Host.Outcome.next ((semSignalAdd_acts h ho hm hown hp).trans ((if_neg (Nat.not_le.2 hc)).trans (signalTo_eq ..)))
  · intro s u k d key h ho hm hown hp hc
    exact congrArg Host.Outcome.next ((semSignalAdd_acts h ho hm hown hp).trans (if_pos hc))
  · intro s u k d key h ho hm hown hp
    exact congrArg Host.Outcome.next ((semSignalSet_acts h ho hm hown hp).trans (signalTo_eq ..))
  · intro s u k d key h ho hprot hp hw hc
    exact congrArg Host.Outcome.next ((semWait_acts h ho hprot hp).trans (if_pos (by simpa using ⟨hw, hc⟩)))
  · intro s u k d key h ho hprot hp hc
    exact congrArg Host.Outcome.next ((semWait_acts h ho hprot hp).trans (if_neg (by simp [Nat.not_le.2 hc])))
  · exact fun s key w hu hw => congrArg Host.Outcome.next (semWaitTimeout_ends hu hw)
  · exact fun s c cause hu => next_settle (whenUp_up hu)
  · exact fun s c x t hu hx hd hfault hs hf hm hq => next_settle (contextTeardownDone_ends hu hx hd hfault hs hf hm hq)

end Sys2Proof.Scheduling
end

section
/-! Admission of a step and of prompt work as commands, rosters, and the end of a unit (R96, R99, R100, R103). -/

namespace Sys2Proof.Scheduling

open Sys2Proof Sys2Proof.Machine Sys2Proof.Laws Sys2Proof.HostPort

/-! ### Admission (R99, R100) -/

/-- The candidates of a step: the eligible requests that this controller leads, with their cost (R98, R99). -/
def stepCands (s : State) : List Cand :=
  (s.sch.reqs.filter (fun e => eligible s e.2 && leadsFor s e.1)).map (fun e => ⟨e.1, e.2.tenant, e.2.lastAdmit, stepCost e.2⟩)

/-- The candidates of prompt work (R98, R100). -/
def promptCands (s : State) : List Cand :=
  (s.sch.reqs.filter (fun e => promptEligible s e.2 && leadsFor s e.1)).map
    (fun e => ⟨e.1, e.2.tenant, e.2.lastAdmit, ceilDiv (chunkOf s e.2) 32⟩)

/-- A step's admission sends a roster of the requests admitted, in the order in which they were. -/
theorem stepAdmission_sends {s : State} (est : StepEstimate) (hu : isUp s = true) (hm : mayAdmit s = true)
    (hr : servesDecode (role s) = true) :
    let s1 := removeCancelled (feedStarved s)
    ∃ v seqs, stepAdmission s est = sendRoster v seqs ∧ seqs.map (fun q => q.1) = (admitWork s1 (stepCands s1) s1.sch.drr).2 := by
  unfold stepAdmission
  rw [whenUp_up hu, if_neg (by simp [hm, hr])]
  refine ⟨_, _, rfl, ?_⟩
  rw [List.map_map]
  exact List.map_id _

/-- The state after prompt work is admitted: the deficits, and when each request admitted was last (R100). -/
def promptAdmitted (s : State) : State :=
  let a := admitWork s (promptCands s) s.sch.drrPrompt
  a.2.foldl (fun u r => modReq u r (fun q => { q with lastAdmit := s.sch.nextStep + 1 })) { s with sch := { s.sch with drrPrompt := a.1 } }

theorem promptAdmission_sends {s : State} (hu : isUp s = true) (hm : mayAdmit s = true) (hr : servesPrefill (role s) = true) :
    let s1 := removeCancelled (feedStarved s)
    let adm := (admitWork s1 (promptCands s1) s1.sch.drrPrompt).2
    promptAdmission s = if adm = [] then promptAdmitted s1
      else sendRoster (promptAdmitted s1) (adm.map (fun r => (r, false, budgetOf (promptAdmitted s1) r))) := by
  unfold promptAdmission
  rw [whenUp_up hu, if_neg (by simp [hm, hr])]
  exact if_congr List.isEmpty_iff rfl rfl

/-! ### Rosters (R95, R96) -/

theorem rosterWords_eq (s : State) (step : Nat) (seqs : List (Nat × Bool × Nat)) :
    rosterWords s step seqs = [mkWord [(0, 32, epoch s), (32, 8, seqs.length)], BitVec.ofNat 64 step] ++
      seqs.flatMap (fun q => [mkWord [(0, 48, q.1), (48, 1, if q.2.1 = true then 1 else 0)], at' 0 16 q.2.2]) := by
  have standin_bit (b : Bool) : b.toNat = if b = true then 1 else 0 := by cases b <;> rfl
  simp only [rosterWords, standin_bit]

theorem roster_stale {s : State} {src : Nat} {words : List Word} {st : Status} (hu : isUp s = true)
    (he : epochRule s (bits (wordAt words 0) 31 0) = some st) :
    roster s src words = staleRoster s src (bits (wordAt words 0) 31 0) st := by
  unfold roster
  rw [whenUp_up hu]
  simp only [he]

/-- A roster of this map is judged by its fields, then by its step. -/
theorem roster_current {s : State} {src : Nat} {words : List Word} (hu : isUp s = true)
    (he : epochRule s (bits (wordAt words 0) 31 0) = none) :
    roster s src words =
      if rosterBad words = true then openEvent s .error St.SCH_BAD_ROSTER noUnit 0 0
      else if stepStarted s (wordAt words 1).toNat = true then s
      else anchorGates (startStep s (bits (wordAt words 0) 31 0) (wordAt words 1).toNat (rosterSeqs words)) := by
  unfold roster
  rw [whenUp_up hu]
  simp only [he]

/-! ### Units (R103) -/

/-- After the kernel boundary, work that has units left has its next unit ready, and the best ready unit starts. -/
def nextUnit (b : State) (u : MxeUnit) : State :=
  startUnit { b with sch := { b.sch with units := b.sch.units ++ [{ u with left := u.left - 1 }] } }

/-- A unit that reports no failure, and that no core unit gave one, has none. -/
theorem unitStatus_ok {s : State} (hb : s.mxe.bad = none) : unitStatus s ⟨0, 0⟩ = 0 := by simp [unitStatus, hb]

section
variable {s b : State} {u : MxeUnit} {p : Nat}

theorem unitEnd_goes_on (hat : kernelBoundary { s with sch := { s.sch with running := none } } = b) (hu : isUp s = true)
    (hr : s.sch.running = some u) (hl : u.left ≠ 0) (hb : s.mxe.bad = none) (hp : u.prio = some p) :
    unitEnd s ⟨0, 0⟩ = nextUnit b u := by
  have shared : u.prio.isNone = false := by rw [hp]; rfl
  unfold unitEnd
  rw [whenUp_up hu]
  simp only [hr, hat, shared, hl, unitStatus_ok hb, ne_eq, not_true_eq_false, decide_false, Bool.false_and, Bool.false_eq_true,
    or_self, if_false]
  rfl

/-- The end of a unit of a descriptor's work is also the end of a gather window, where the work is gather's (R283). -/
theorem unitEnds_work {id : Nat} (hat : kernelBoundary { s with sch := { s.sch with running := none } } = b) (hu : isUp s = true)
    (hr : s.sch.running = some u) (hl : u.left ≠ 0) (hb : s.mxe.bad = none) (hk : u.kind = .work id) (hp : u.prio = some p) :
    unitEnds s ⟨0, 0⟩ = if thas s.gth.runs id = true then windowDone (nextUnit b u) id 0 else nextUnit b u := by
  unfold unitEnds
  simp only [hu, hr, hk, unitEnd_goes_on hat hu hr hl hb hp, Option.elim_some, unitStatus_ok hb]

/-- After a unit of a step comes its collective (R355). -/
theorem unitEnds_step {m : Nat} (hat : kernelBoundary { s with sch := { s.sch with running := none } } = b) (hu : isUp s = true)
    (hr : s.sch.running = some u) (hl : u.left ≠ 0) (hb : s.mxe.bad = none) (hk : u.kind = .step m) (hp : u.prio = some p) :
    unitEnds s ⟨0, 0⟩ = startCollective (nextUnit b u) (ownGroup (nextUnit b u)) := by
  unfold unitEnds
  simp only [hu, hr, hk, unitEnd_goes_on hat hu hr hl hb hp]

end

/-- Settles O9: admission sends what the rules pick, a roster is judged in its order, and a unit with units left readies the next. -/
theorem stepCommands : Obligations.StepCommands := by
  refine ⟨?_, ?_, ?_, ?_, ?_, ?_, ?_, ?_⟩
  · intro s est hu hm hr
    obtain ⟨v, seqs, sends, picked⟩ := stepAdmission_sends est hu hm hr
    exact ⟨v, seqs, next_settle sends, picked⟩
  · exact fun s hu hm hr => next_settle (promptAdmission_sends hu hm hr)
  · intro s seqs
    rw [← rosterWords_eq]
    rfl
  · intro s src words hu he hgood hnew
    exact next_settle ((roster_current hu he).trans (by simp only [hgood, hnew, Bool.false_eq_true, if_false, rosterSeqs]))
  · exact fun s src words st hu he => next_settle (roster_stale hu he)
  · exact fun s src words hu he => ⟨fun hbad => next_settle ((roster_current hu he).trans (if_pos hbad)),
      fun hgood hold => next_settle ((roster_current hu he).trans (by simp only [hgood, hold, Bool.false_eq_true, if_false, if_true]))⟩
  · intro s u p id hu hr hl hb hk hp
    generalize hat : kernelBoundary _ = b
    exact next_settle (unitEnds_work hat hu hr hl hb hk hp)
  · intro s u p m hu hr hl hb hk hp
    generalize hat : kernelBoundary _ = b
    exact next_settle (unitEnds_step hat hu hr hl hb hk hp)

end Sys2Proof.Scheduling
end

section
/-! How a take starts (R130, R138 steps 1 and 2): its slate is read, checked, and carried to its coordinator. -/

namespace Sys2Proof.Takes

open Sys2Proof Sys2Proof.Machine Sys2Proof.Laws Sys2Proof.HostPort

/-! ### The start at the coordinator (R132, R138) -/

/-- A coordinator with room for one more open take gives the new take a stamp (R132, R148). -/
theorem startTake_stamps {s : State} (sl : Slate) (who : TakeFor) (src : Source) (retries : Nat) (ho : takesOpen s < 4096) :
    startTake s sl who src retries =
      beginTake (wr s F.TAK_CLOCK_STAMP (rd s F.TAK_CLOCK_STAMP + 1)) (rd s F.TAK_CLOCK_STAMP + 1) sl who src 1 retries :=
  if_neg (Nat.not_le.2 ho)

/-- A coordinator that takes no part itself only sends a PREPARE to every participant (R138 step 2). -/
theorem beginTake_elsewhere {s : State} {sl : Slate} (stamp : Nat) (who : TakeFor) (src : Source) (tries retries : Nat)
    (hn : self s ∉ sl.nodes) :
    beginTake s stamp sl who src tries retries =
      sendAll (setCoord (newTakeId s).1 (newTakeId s).2
          ⟨stamp, sl, who, src, .voting, [], St.OK, 0, 0, St.OK, [], tries, retries, false⟩)
        (sl.nodes.zipIdx.map (fun p => (p.1, .prepare, [mkWord [(0, 24, (newTakeId s).2), (24, 4, p.2)], BitVec.ofNat 64 stamp,
          hostWord s who src] ++ slateWords sl (fun a => a.part == p.2)))) := by
  have others : sl.nodes.zipIdx.filter (fun p => p.1 != self s) = sl.nodes.zipIdx :=
    List.filter_eq_self.2 (fun p hp => bne_iff_ne.2 (fun e => hn (e ▸ List.fst_mem_of_mem_zipIdx hp)))
  have absent : sl.nodes.findIdx? (· == self s) = none :=
    List.findIdx?_eq_none_iff.2 (fun n hm => beq_false_of_ne (fun e => hn (e ▸ hm)))
  unfold beginTake
  simp only [others, absent]

/-! ### TAKE_SUBMIT and its slate (R130) -/

theorem takeSubmit_reads {s u : State} {k : RingKey} {d : Desc} {key : DescKey} (h : dispatched s k d key u)
    (ho : dOpcode d = 0x40) (hc : passes d (submitBytes d) (submitChecks d u key)) :
    takeSubmit s k d = emit { u with tak := { u.tak with submits := tset u.tak.submits (flightId key) d } }
      (.hostRead (.context key.ctx) (tAddr d) (tLen d)) := by
  unfold takeSubmit
  rw [ofForm_of (by simp [ho]), runDesc_acts h hc]

/-- The state once the slate of a descriptor has arrived: its submission no longer waits for it. -/
def slateArrived (s : State) (key : DescKey) : State :=
  { s with tak := { s.tak with submits := tdel s.tak.submits (flightId key) } }

/-- A slate that checks goes by its coordinator, and by whether any other controller takes part (R130). -/
theorem takeSlateRead_checked {s : State} {key : DescKey} {d : Desc} {slate : List Word} (hu : isUp s = true)
    (hd : tget s.tak.submits (flightId key) = some d) (hc : firstFail (hostSlateChecks (slateArrived s key) d slate) = none) :
    takeSlateRead s key slate =
      if (slateOf slate).nodes.getD (slateOf slate).coord 0 = self s then
        if (slateOf slate).nodes = [self s] then
          localFor (slateArrived s key) (.hostHere key.ctx (ctxTenant s key.ctx)) (.host (flightId key) key.ctx)
            (slateOf slate).actions
        else startTake (slateArrived s key) (slateOf slate) (.host (flightId key) key.ctx)
          (.hostHere key.ctx (ctxTenant s key.ctx)) (tRetry d)
      else forwardSlate (slateArrived s key) (.host (flightId key) key.ctx) (tRetry d) true slate := by
  unfold slateArrived at hc
  unfold takeSlateRead
  rw [whenUp_up hu]
  simp only [hd, hc]
  rfl

/-! ### A slate that another controller forwards (R130, R145) -/

theorem takeSlateForward_badCoord {s : State} {src srcKey retries a : Nat} {host : Bool} {slate : List Word} (hu : isUp s = true)
    (hb : badOwner s.dtm.map (slateOf slate) = some a) :
    takeSlateForward s src srcKey retries host slate = reportEnd s src srcKey 0 St.TAK_BAD_COORD a 0 St.OK 1 := by
  unfold takeSlateForward
  rw [whenUp_up hu]
  simp only [hb]

theorem takeSlateForward_host {s : State} {src srcKey retries : Nat} {slate : List Word} (hu : isUp s = true)
    (hb : badOwner s.dtm.map (slateOf slate) = none) :
    takeSlateForward s src srcKey retries true slate =
      startTake s (slateOf slate) (.forwarded src srcKey) (.hostAt src) retries := by
  unfold takeSlateForward
  rw [whenUp_up hu]
  simp only [hb, if_true]

/-- Settles O10: the branch that a checked slate takes by its coordinator and participants, and what a start sends. -/
theorem takeStart : Obligations.TakeStart := by
  refine ⟨?_, ?_, ?_, ?_, ?_, ?_, ?_⟩
  · exact fun s u k d key h ho hc => congrArg Host.Outcome.next (takeSubmit_reads h ho hc)
  · intro s key d slate hu hd hc hcoord hmore hopen
    have begins := startTake_stamps (s := slateArrived s key) (slateOf slate) (.host (flightId key) key.ctx)
      (.hostHere key.ctx (ctxTenant s key.ctx)) (tRetry d) hopen
    exact next_settle ((takeSlateRead_checked hu hd hc).trans ((if_pos hcoord).trans ((if_neg hmore).trans begins)))
  · intro s key d slate hu hd hc hnodes hcoord
    have here : (slateOf slate).nodes.getD (slateOf slate).coord 0 = self s := by rw [hnodes, hcoord]; rfl
    exact next_settle ((takeSlateRead_checked hu hd hc).trans ((if_pos here).trans (if_pos hnodes)))
  · exact fun s key d slate hu hd hc hcoord => next_settle ((takeSlateRead_checked hu hd hc).trans (if_neg hcoord))
  · exact fun s src srcKey retries slate hu hb hopen =>
      next_settle ((takeSlateForward_host hu hb).trans (startTake_stamps _ _ _ _ hopen))
  · exact fun s src srcKey retries a host slate hu hb => next_settle (takeSlateForward_badCoord hu hb)
  · exact fun s stamp sl who src tries retries hn => beginTake_elsewhere stamp who src tries retries hn

end Sys2Proof.Takes
end

section
/-! PREPARE at a participant, its vote, and the decision at the coordinator (R138 to R142). -/

namespace Sys2Proof.Takes

open Sys2Proof Sys2Proof.Machine Sys2Proof.Laws Sys2Proof.HostPort

/-! ### State operations of the take unit -/

@[simp] theorem seeStamp_tak (s : State) (stamp : Nat) : (seeStamp s stamp).tak = s.tak := rfl

/-- A vote for another controller's take goes to that controller (R138 step 6). -/
theorem sendVote_elsewhere {s : State} {r : TakeRef} (stamp part : Nat) (cause : Status) (action : Nat) (hr : r.node ≠ self s) :
    sendVote s r stamp part cause action none = send s r.node 0 .vote
      [mkWord [(0, 24, r.id), (24, 4, part), (32, 16, cause.toNat), (48, 6, action)], BitVec.ofNat 64 stamp, 0] := if_neg hr

/-! ### PREPARE (R138 steps 3 to 5) -/

/-- A block's PREPARE that is new here is handled. -/
theorem takePrepare_new {s : State} {m : PrepareMsg} (hu : isUp s = true) (hm : m.host = none)
    (hn : partOf (seeStamp s m.stamp) m.ref = none) :
    takePrepare s m = handlePrepare (seeStamp s m.stamp) .block m.ref m.stamp m.part (blockSlate m.slate) := by
  unfold takePrepare
  rw [whenUp_up hu]
  simp only [hn, hm, Option.isSome_none, Bool.false_eq_true, if_false]
  rfl

section
variable {s : State} {r : TakeRef} {stamp part : Nat} {sl : Slate} (src : Source)

/-- A PREPARE under an old map is voted down and counted (R96, R141). -/
theorem handlePrepare_staleMap (he : epochRule s sl.epoch = some St.DTM_STALE_MAP) :
    handlePrepare s src r stamp part sl = sendVote (bump s F.DTM_STALE_CNT_COUNT) r stamp part St.DTM_STALE_MAP 0 none := by
  unfold handlePrepare
  rw [he, Option.elim_some, if_pos rfl]

/-- A PREPARE whose epoch the rule accepts is prepared (R142). -/
theorem handlePrepare_accepted (he : epochRule s sl.epoch = none) :
    handlePrepare s src r stamp part sl = prepareHere s src r stamp part sl := by
  unfold handlePrepare
  rw [he, Option.elim_none]

/-- Intents that must wait for the twin are mirrored before the vote (R140). -/
theorem prepareHere_mirrors {u : State} {frames : Tbl Nat} {n : Nat} (ho : takesOpen s < 4096) (hx : exposed s = false)
    (hp : prepare s src r stamp sl.nodes (partActions sl part) = .yes u frames n) :
    prepareHere s src r stamp part sl =
      mirrorRec (setPart u r ⟨stamp, part, sl.epoch, src, sl.nodes, partActions sl part, frames, .mirroring, n, []⟩)
        (.intent r stamp part (slateWords sl (fun a => a.part == part))) := by
  unfold prepareHere
  simp only [Nat.not_le.2 ho, hp, hx, Bool.false_eq_true, if_false]

/-- A take that cannot be prepared, with no other take in its way, is voted down with the cause (R141). -/
theorem prepareHere_votesNo {i : Nat} {st : Status} (ho : takesOpen s < 4096)
    (hp : prepare s src r stamp sl.nodes (partActions sl part) = .no i st none) :
    prepareHere s src r stamp part sl = sendVote s r stamp part st i none := by
  unfold prepareHere
  simp only [Nat.not_le.2 ho, hp, if_false]

/-- A take that waits for a prepared one's locks is only noted (R133). -/
theorem prepareHere_waits {h : TakeRef} (ho : takesOpen s < 4096)
    (hp : prepare s src r stamp sl.nodes (partActions sl part) = .waits h) :
    prepareHere s src r stamp part sl =
      setPart s r ⟨stamp, part, sl.epoch, src, sl.nodes, partActions sl part, [], .waiting h, 0, []⟩ := by
  unfold prepareHere
  simp only [Nat.not_le.2 ho, hp, if_false]

end

/-! ### Mirrored intents (R137, R140) -/

/-- Another controller's take whose intents are safe is prepared, and the vote is yes (R140). -/
theorem intentMirrorAck_votesYes {s : State} {r : TakeRef} {p : PartTake} (hu : isUp s = true) (hp : partOf s r = some p)
    (hr : r.node ≠ self s) (hs : p.state = .mirroring) :
    intentMirrorAck s r = sendVote (setPart s r { p with state := .prepared }) r p.stamp p.part St.OK 0 none := by
  unfold intentMirrorAck intentsSafe
  rw [whenUp_up hu]
  simp only [hp, hr, hs, if_false, if_true]

/-- A local take whose intents are safe applies (R137). -/
theorem intentMirrorAck_applies {s : State} {id : Nat} {p : PartTake} {c : CoordTake} (hu : isUp s = true)
    (hp : partOf s ⟨self s, id⟩ = some p) (hc : tget s.tak.coord id = some c) (hs : c.state = .mirroring) :
    intentMirrorAck s ⟨self s, id⟩ = applyMirrored s id c := by
  unfold intentMirrorAck intentsSafe
  rw [whenUp_up hu]
  simp only [hp, hc, hs, if_true]

/-! ### Votes (R138 step 6, R139, R141) -/

section
variable {s : State} {m : VoteMsg} {c : CoordTake}

theorem takeVote_voting (hu : isUp s = true) (hc : tget s.tak.coord m.takeId = some c) (hs : c.state = .voting)
    (hp : m.part < c.slate.nodes.length) :
    takeVote s m = if m.status = St.OK then voteYes (seeStamp s m.stamp) m.takeId c m.part
      else voteNo (seeStamp s m.stamp) m.takeId c m.part m.action m.status m.against := by
  unfold takeVote
  rw [whenUp_up hu]
  simp only [seeStamp_tak, hc, hs, Nat.not_le.2 hp, ne_eq, not_true_eq_false, or_self, if_false]

/-- A vote after the decision is ignored (R139). -/
theorem takeVote_ignored (hu : isUp s = true) (hc : tget s.tak.coord m.takeId = some c) (hs : c.state ≠ .voting) :
    takeVote s m = seeStamp s m.stamp := by
  unfold takeVote
  rw [whenUp_up hu]
  simp only [seeStamp_tak, hc, hs, ne_eq, not_false_eq_true, true_or, if_true]

end

/-- The first yes of a participant counts, and with every participant's the decision is commit. -/
theorem voteYes_first {s : State} {id part : Nat} {c : CoordTake} (hv : c.votes.contains part = false) :
    voteYes s id c part = if c.votes.length + 1 = c.slate.nodes.length then
        decide' s id { c with votes := c.votes ++ [part], status := St.OK }
      else setCoord s id { c with votes := c.votes ++ [part] } := by
  unfold voteYes
  simp only [hv, Bool.false_eq_true, if_false, List.length_append, List.length_singleton]

theorem takeVoteTimeout_aborts {s : State} {id part : Nat} {c : CoordTake} (hu : isUp s = true)
    (hc : tget s.tak.coord id = some c) (hs : c.state = .voting) (hp : part < c.slate.nodes.length)
    (hv : c.votes.contains part = false) :
    takeVoteTimeout s id part =
      decide' s id { c with status := St.TAK_VOTE_TIMEOUT, badAction := 0, badPart := part, partStatus := St.OK } := by
  unfold takeVoteTimeout
  rw [whenUp_up hu]
  simp only [hc, hs, hv, Nat.not_le.2 hp, ne_eq, not_true_eq_false, Bool.false_eq_true, or_self, if_false]

/-! ### The decision (R138 step 7, R140) -/

theorem decide'_mirrors {s : State} (id : Nat) (c : CoordTake) (hx : exposed s = false) :
    decide' s id c = mirrorRec (setCoord s id { c with state := .decided }) (.decision id c.stamp c.status c.slate.nodes) :=
  if_neg (by simp [hx])

theorem decide'_exposed {s : State} (id : Nat) (c : CoordTake) (hx : exposed s = true) :
    decide' s id c = carryOut s id { c with state := .announced } := if_pos hx

/-- Settles O11: what a PREPARE comes to, what a vote adds, and how the decision is kept. -/
theorem takeVotes : Obligations.TakeVotes := by
  refine ⟨?_, ?_, ?_, ?_, ?_, ?_, ?_, ?_, ?_, ?_, ?_, fun s id c => ⟨decide'_mirrors id c, decide'_exposed id c⟩⟩
  · exact fun s u m frames n hu hm hn he ho hx hp => next_settle
      ((takePrepare_new hu hm hn).trans ((handlePrepare_accepted _ he).trans (prepareHere_mirrors _ ho hx hp)))
  · exact fun s m i st hu hm hn he ho hp => next_settle
      ((takePrepare_new hu hm hn).trans ((handlePrepare_accepted _ he).trans (prepareHere_votesNo _ ho hp)))
  · exact fun s m h hu hm hn he ho hp => next_settle
      ((takePrepare_new hu hm hn).trans ((handlePrepare_accepted _ he).trans (prepareHere_waits _ ho hp)))
  · exact fun s m hu hm hn he => next_settle ((takePrepare_new hu hm hn).trans (handlePrepare_staleMap _ he))
  · exact fun s r p hu hp hr hs => next_settle ((intentMirrorAck_votesYes hu hp hr hs).trans (sendVote_elsewhere _ _ _ _ hr))
  · exact fun s id p c hu hp hc hs => next_settle (intentMirrorAck_applies hu hp hc hs)
  · exact fun s m c hu hc hs hp hok hv hmore => next_settle
      ((takeVote_voting hu hc hs hp).trans ((if_pos hok).trans ((voteYes_first hv).trans (if_neg hmore))))
  · exact fun s m c hu hc hs hp hok hv hlast => next_settle
      ((takeVote_voting hu hc hs hp).trans ((if_pos hok).trans ((voteYes_first hv).trans (if_pos hlast))))
  · exact fun s m c hu hc hs hp hno => next_settle ((takeVote_voting hu hc hs hp).trans (if_neg hno))
  · exact fun s m c hu hc hs => next_settle (takeVote_ignored hu hc hs)
  · exact fun s id part c hu hc hs hp hv => next_settle (takeVoteTimeout_aborts hu hc hs hp hv)

end Sys2Proof.Takes
end

section
/-! What follows a decision: it is announced, applied and acknowledged, and a take in doubt asks for it (R134, R138 steps 7 to 10,
R143). -/

namespace Sys2Proof.Takes

open Sys2Proof Sys2Proof.Machine Sys2Proof.Laws Sys2Proof.HostPort

/-! ### The coordinator announces its decision (R138 steps 7 and 8) -/

/-- A decision that some other participant must hear of is applied here, counted and announced, and the take stays open. -/
theorem carryOut_announces {s : State} {id n : Nat} {c : CoordTake} (hn : n ∈ c.slate.nodes) (hs : n ≠ self s) :
    carryOut s id c = announce (bump (finishPart s ⟨self s, id⟩ (decide (c.status = St.OK)))
      (if c.status = St.OK then F.TAK_COMMIT_CNT_COUNT else F.TAK_ABORT_CNT_COUNT)) id c := by
  have awaited : (c.slate.nodes.filter (· != self s)).isEmpty = false :=
    List.isEmpty_eq_false_iff_exists_mem.2 ⟨n, List.mem_filter.2 ⟨hn, bne_iff_ne.2 hs⟩⟩
  unfold carryOut
  simp only [awaited, Bool.false_eq_true, if_false, decide_eq_true_eq]

theorem decisionMirrorAck_carriesOut {s : State} {id : Nat} {c : CoordTake} (hu : isUp s = true)
    (hc : tget s.tak.coord id = some c) (hs : c.state = .decided) : decisionMirrorAck s id = carryOut s id c := by
  unfold decisionMirrorAck
  rw [whenUp_up hu]
  simp only [hc, hs, if_true]

/-! ### A participant hears of it (R138 step 9) -/

/-- A participant that finishes a take applies a commit, and its locks go. -/
theorem finishPart_of {s : State} {r : TakeRef} {p : PartTake} (commit : Bool) (hp : partOf s r = some p) :
    finishPart s r commit =
      notifyEnded (dropPart (if commit = true then commitActs s r p.nodes p.frames p.actions else s) r) r p := by
  unfold finishPart
  simp only [hp]

section
variable {s : State} {r : TakeRef} {stamp : Nat}

theorem takeDecision_over (commit : Bool) (hn : partOf (seeStamp s stamp) r = none) :
    takeDecision s r stamp commit = sendAck (seeStamp s stamp) r := by
  unfold takeDecision
  simp only [hn]

theorem takeCommit_applies {p : PartTake} (hu : isUp s = true) (hp : partOf (seeStamp s stamp) r = some p)
    (hy : isPrepared p = true) :
    takeCommit s r stamp =
      sendAck (notifyEnded (dropPart (commitActs (seeStamp s stamp) r p.nodes p.frames p.actions) r) r p) r := by
  unfold takeCommit takeDecision
  rw [whenUp_up hu]
  simp only [hp, hy, Bool.not_true, Bool.and_false, Bool.false_eq_true, if_false, finishPart_of true hp, if_true]

theorem takeAbort_undoes {p : PartTake} (hu : isUp s = true) (hp : partOf (seeStamp s stamp) r = some p) :
    takeAbort s r stamp = sendAck (notifyEnded (dropPart (seeStamp s stamp) r) r p) r := by
  unfold takeAbort takeDecision
  rw [whenUp_up hu]
  simp only [hp, Bool.false_and, Bool.false_eq_true, if_false, finishPart_of false hp]

end

/-! ### Acknowledgements (R138 step 10) -/

/-- The acknowledgements `acks` are all that a take's other participants owe this controller. -/
def allAcked (s : State) (c : CoordTake) (acks : List Nat) : Bool :=
  (c.slate.nodes.filter (· != self s)).all (fun n => acks.contains n)

theorem allAcked_iff (s : State) (c : CoordTake) (acks : List Nat) :
    allAcked s c acks = true ↔ ∀ n ∈ c.slate.nodes, n = self s ∨ n ∈ acks := by
  simp only [allAcked, List.all_eq_true, List.mem_filter, bne_iff_ne, List.contains_iff_mem, and_imp, or_iff_not_imp_left]

/-- A controller's first acknowledgement is added, and the last one that is owed ends the take. -/
theorem takeAck_first {s : State} {id node stamp : Nat} {c : CoordTake} (hu : isUp s = true)
    (hc : tget s.tak.coord id = some c) (hs : c.state = .announced) (hn : c.acks.contains node = false) :
    takeAck s (.ack id node stamp) = if allAcked (seeStamp s stamp) c (c.acks ++ [node]) = true then
        endTake (seeStamp s stamp) id { c with acks := c.acks ++ [node] }
      else setCoord (seeStamp s stamp) id { c with acks := c.acks ++ [node] } := by
  unfold takeAck
  rw [whenUp_up hu]
  simp only [seeStamp_tak, hc, hs, hn, ne_eq, not_true_eq_false, Bool.false_eq_true, if_false, allAcked]

/-- The end of a take whose slate was forwarded is its asker's (R130, R131). -/
theorem takeAck_ended {s : State} {key takeId action part tries : Nat} {st ps : Status} {who : TakeFor} (hu : isUp s = true)
    (hf : tget s.tak.forwarded key = some who) :
    takeAck s (.ended key takeId st action part ps tries) = { s with tak := { s.tak with
      forwarded := tdel s.tak.forwarded key
      ended := s.tak.ended ++ [⟨who, takeId, st, action, part, ps, tries, askerDown s who⟩] } } := by
  unfold takeAck forwardedEnd
  rw [whenUp_up hu]
  simp only [hf]

/-! ### Doubt (R143) -/

section
variable {s : State} {r : TakeRef} {p : PartTake}

/-- A participant that has heard nothing for its first limit counts the doubt and asks the coordinator. -/
theorem takeIndoubtTimeout_first (hu : isUp s = true) (hp : partOf s r = some p) (hs : p.state = .prepared)
    (hr : r.node ≠ self s) :
    takeIndoubtTimeout s r = send (setPart (bump s F.TAK_INDOUBT_CNT_COUNT) r { p with state := .doubt false }) r.node 0 .inquiry
      [mkWord [(0, 20, r.node), (20, 24, r.id)], BitVec.ofNat 64 p.stamp] := by
  unfold takeIndoubtTimeout
  rw [whenUp_up hu]
  simp only [hp, hs, hr, Bool.false_eq_true, if_false]

/-- After a further limit the question goes to the other of the coordinator and its twin. -/
theorem takeIndoubtTimeout_again {asked : Bool} (hu : isUp s = true) (hp : partOf s r = some p) (hs : p.state = .doubt asked) :
    takeIndoubtTimeout s r = send (setPart s r { p with state := .doubt (!asked) })
      (if asked = true then r.node else eTwin (mapGet s.dtm.map r.node)) 0 .inquiry
      [mkWord [(0, 20, r.node), (20, 24, r.id)], BitVec.ofNat 64 p.stamp] := by
  have other : (if (!asked) = true then eTwin (mapGet s.dtm.map r.node) else r.node) =
      if asked = true then r.node else eTwin (mapGet s.dtm.map r.node) := by cases asked <;> rfl
  unfold takeIndoubtTimeout
  rw [whenUp_up hu]
  simp only [hp, hs, other]

end

section
variable {s : State} {src id stamp : Nat}

/-- A coordinator answers with ABORT about a take of which it has no record. -/
theorem takeInquiry_noRecord (hu : isUp s = true) (hn : tget s.tak.coord id = none) :
    takeInquiry s src ⟨self (seeStamp s stamp), id⟩ stamp =
      answerDoubt (seeStamp s stamp) src ⟨self (seeStamp s stamp), id⟩ stamp false := by
  unfold takeInquiry
  rw [whenUp_up hu]
  simp only [if_true, seeStamp_tak, hn]

theorem takeInquiry_announced {c : CoordTake} (hu : isUp s = true) (hc : tget s.tak.coord id = some c)
    (hs : c.state = .announced) :
    takeInquiry s src ⟨self (seeStamp s stamp), id⟩ stamp =
      answerDoubt (seeStamp s stamp) src ⟨self (seeStamp s stamp), id⟩ stamp (c.status == St.OK) := by
  unfold takeInquiry
  rw [whenUp_up hu]
  simp only [if_true, seeStamp_tak, hc, hs]

/-- A question about a take that is not decided yet has no answer. -/
theorem takeInquiry_voting {c : CoordTake} (hu : isUp s = true) (hc : tget s.tak.coord id = some c) (hs : c.state = .voting) :
    takeInquiry s src ⟨self (seeStamp s stamp), id⟩ stamp = seeStamp s stamp := by
  unfold takeInquiry
  rw [whenUp_up hu]
  simp only [if_true, seeStamp_tak, hc, hs]

end

/-- The answer is the decision: COMMIT or ABORT. -/
theorem answerDoubt_decided (s : State) (src : Nat) (r : TakeRef) (stamp : Nat) (st : Status) :
    answerDoubt s src r stamp (st == St.OK) = send s src 0 (if st = St.OK then .commit else .abort)
      [mkWord [(0, 24, r.id), (24, 20, r.node)], BitVec.ofNat 64 stamp] := by
  unfold answerDoubt
  rw [if_congr beq_iff_eq rfl rfl]

/-! ### Retry (R134) -/

theorem takeRetry_begins {s : State} {id : Nat} {c : CoordTake} {r : TakeRef} (hu : isUp s = true)
    (hc : tget s.tak.coord id = some c) (hs : c.state = .retrying r) : takeRetry s id = beginRetry s id c := by
  unfold takeRetry
  rw [whenUp_up hu]
  simp only [hc, isRetrying, hs, if_true]

/-- The notice of a take's end begins the one take again that waits for it. -/
theorem takeEndedNotice_begins {s : State} {r : TakeRef} {id : Nat} {c : CoordTake} (hu : isUp s = true)
    (hw : s.tak.coord.filter (fun e => e.2.state == .retrying r) = [(id, c)]) :
    takeEndedNotice s r = beginRetry s id c := by
  unfold takeEndedNotice
  rw [whenUp_up hu, hw]
  rfl

/-- Settles O12: each command by the lemma of its case, in the order of the statement. -/
theorem takeOutcome : Obligations.TakeOutcome := by
  refine ⟨?_, fun _ _ _ => rfl, ?_, ?_, ?_, ?_, ?_, ?_, ?_, ?_, ?_, ?_, ?_⟩
  · exact fun s id n c hu hc hs hn hself =>
      next_settle ((decisionMirrorAck_carriesOut hu hc hs).trans (carryOut_announces hn hself))
  · exact fun s r stamp p hu hp hy => next_settle (takeCommit_applies hu hp hy)
  · exact fun s r stamp p hu hp => next_settle (takeAbort_undoes hu hp)
  · exact fun s r stamp hu hn => ⟨next_settle ((whenUp_up hu).trans (takeDecision_over true hn)),
      next_settle ((whenUp_up hu).trans (takeDecision_over false hn))⟩
  · intro s id node stamp n c hu hc hs hnew hn hself hnode hacks
    have owed : ¬ allAcked (seeStamp s stamp) c (c.acks ++ [node]) = true := by
      rw [allAcked_iff]
      exact fun h => (h n hn).elim hself (by simp [hacks, hnode])
    exact next_settle ((takeAck_first hu hc hs hnew).trans (if_neg owed))
  · intro s id node stamp c hu hc hs hnew hall
    have done : allAcked (seeStamp s stamp) c (c.acks ++ [node]) = true := by
      rw [allAcked_iff]
      exact fun n hn => (hall n hn).imp_right (by simp [or_comm])
    exact next_settle ((takeAck_first hu hc hs hnew).trans (if_pos done))
  · exact fun s key takeId action part tries st ps who hu hf => next_settle (takeAck_ended hu hf)
  · exact fun s r p hu hp hs hr => next_settle (takeIndoubtTimeout_first hu hp hs hr)
  · exact fun s r p asked hu hp hs => next_settle (takeIndoubtTimeout_again hu hp hs)
  · exact fun s src id stamp hu => ⟨fun hn => next_settle (takeInquiry_noRecord hu hn),
      fun c hc hs => next_settle ((takeInquiry_announced hu hc hs).trans (answerDoubt_decided ..)),
      fun c hc hs => next_settle (takeInquiry_voting hu hc hs)⟩
  · exact fun s id c r hu hc hs => next_settle (takeRetry_begins hu hc hs)
  · exact fun s r id c hu hw => next_settle (takeEndedNotice_begins hu hw)

end Sys2Proof.Takes
end

section
/-! The frames of the matrix cores, of the key/value pool and of the flash tier (R170 to R329). -/

namespace Sys2Proof.Frames

open Sys2Proof Sys2Proof.Machine Sys2Proof.Laws

/-! ### Arrays of registers -/

/-- The offsets of the registers that a frame statement names: of single fields, and of whole arrays. -/
def frameOffs (ones : List Field) (arrays : List (Field × Nat)) : List Nat :=
  ones.map (fun f => f.off 0) ++ arrays.flatMap (fun f => (List.range f.2).map f.1.off)

/-- The registers kept, as a frame statement names the others. -/
theorem Keeps.regsKept_arrays {ps : List Part} {ones : List Field} {arrays : List (Field × Nat)} {s t : State}
    (h : Keeps ps (frameOffs ones arrays) s t) : Machine.regsKept s t ones arrays := by
  intro o ho ha
  refine h.regs o (fun hm => ?_)
  obtain hm | hm := List.mem_append.1 hm
  · obtain ⟨f, hf, rfl⟩ := List.mem_map.1 hm
    exact ho f hf rfl
  · obtain ⟨f, hf, hm⟩ := List.mem_flatMap.1 hm
    obtain ⟨i, hi, rfl⟩ := List.mem_map.1 hm
    exact ha f hf i (List.mem_range.1 hi) rfl

/-! ### Runs of operations -/

/-- Two operations in a row with the same bounds keep within them. -/
theorem Keeps.andThen {ps : List Part} {offs : List Nat} {s t u : State} (h : Keeps ps offs s t) (k : Keeps ps offs t u) :
    Keeps ps offs s u := (h.trans k).mono (by simp) (by simp)

/-- A run over a list keeps what each of its steps on a member keeps. -/
theorem Keeps.foldl_mem {α : Type} {ps : List Part} {offs : List Nat} {f : State → α → State} (l : List α)
    (hf : ∀ s, ∀ x ∈ l, Keeps ps offs s (f s x)) (s : State) : Keeps ps offs s (l.foldl f s) := by
  induction l generalizing s with
  | nil => exact .refl s
  | cons x l ih =>
    exact (hf s x List.mem_cons_self).andThen (ih (fun s y hy => hf s y (List.mem_cons_of_mem x hy)) _)

/-! ### Single updates -/

theorem keeps_mxe (s : State) (x : MxeState) : Keeps [.mxe] [] s { s with mxe := x } :=
  keeps_of_parts rfl (fun p hp => by cases p with
    | mxe => simp at hp
    | _ => rfl)

theorem keeps_kva (s : State) (x : KvaState) : Keeps [.kva] [] s { s with kva := x } :=
  keeps_of_parts rfl (fun p hp => by cases p with
    | kva => simp at hp
    | _ => rfl)

theorem keeps_att (s : State) (x : AttState) : Keeps [.att] [] s { s with att := x } :=
  keeps_of_parts rfl (fun p hp => by cases p with
    | att => simp at hp
    | _ => rfl)

theorem keeps_flt (s : State) (x : FltState) : Keeps [.flt] [] s { s with flt := x } :=
  keeps_of_parts rfl (fun p hp => by cases p with
    | flt => simp at hp
    | _ => rfl)

theorem keeps_bumpBy (s : State) (f : Field) (n : Nat) : Keeps [] [f.off 0] s (bumpBy s f n) := keeps_wri s f 0 _

theorem keeps_recordRetire (s : State) (st : Status) (u : UnitRef) (row : Nat) : Keeps [.ras] [] s (recordRetire s st u row) :=
  keeps_raiseRecord s _

/-! ### Guards -/

theorem keeps_ofForm {ps : List Part} {offs : List Nat} {b : Bool} {s t : State} (h : Keeps ps offs s t) :
    Keeps ps offs s (ofForm b s t) := by
  unfold ofForm
  split
  · exact h
  · exact .refl s

/-- A write that the lock refuses is counted and recorded; one that it allows has its effect (R481). -/
theorem keeps_bar0 {ps : List Part} {offs : List Nat} {s : State} {f : State → State} (h : Keeps ps offs s (f s)) :
    Keeps (.ras :: .out :: ps) (F.SEC_REJECT_CNT_COUNT.off 0 :: offs) s (bar0 s f) := by
  unfold bar0
  split
  · exact h.mono (by simp) (by simp)
  · exact (keeps_prelock s true).mono (by simp) (by simp)

end Sys2Proof.Frames

namespace Sys2Proof.Engines

open Sys2Proof Sys2Proof.Machine Sys2Proof.Laws Sys2Proof.Frames

/-! ### Matrix cores (R170 to R174) -/

theorem keeps_modCore (s : State) (c : Nat) (f : MxCore → MxCore) : Keeps [.mxe] [] s (modCore s c f) := keeps_mxe s _

theorem keeps_modRun (s : State) (id : Nat) (f : Run → Run) : Keeps [.mxe] [] s (modRun s id f) := keeps_mxe s _

theorem keeps_corePass (s : State) (c : Nat) : Keeps [.mxe] [] s (corePass s c) := keeps_mxe s _

theorem keeps_coreMiss (s : State) (c : Nat) : Keeps [.mxe] [F.MXE_MISMATCH_CNT_COUNT.off 0] s (coreMiss s c) :=
  (keeps_modCore s c _).trans (keeps_bump _ _)

theorem keeps_unitPassed (s : State) (flight : Nat) (numeric : Bool) : Keeps [.mxe] [] s (unitPassed s flight numeric) :=
  keeps_modRun s flight _

theorem keeps_unitFailed (s : State) (flight unit : Nat) (st : Status) : Keeps [.mxe] [] s (unitFailed s flight unit st) := by
  unfold unitFailed
  split
  · exact keeps_mxe s _
  · exact keeps_modRun s flight _

theorem keeps_checkReplace (s : State) : Keeps [.hpt, .ras, .out] [] s (checkReplace s) := by
  unfold checkReplace
  split
  · exact .refl s
  · exact (keeps_ras s _).trans (keeps_openEvent _ _ _ _ _ _) |>.mono (by decide) (by decide)

theorem keeps_addRetire (s : State) (kind unit row : Nat) : Keeps [.hpt, .ras, .out] [] s (addRetire s kind unit row) := by
  unfold addRetire
  split
  · exact .refl s
  · split
    · exact (keeps_ras s _).trans (keeps_checkReplace _) |>.mono (by decide) (by decide)
    · exact (keeps_recordRetire s _ _ _).trans (keeps_checkReplace _) |>.mono (by decide) (by decide)

theorem keeps_coreRetire (s : State) (c : Nat) (heir : Option Nat) :
    Keeps [.hpt, .ras, .mxe, .out] [F.MXE_RETIRE_CNT_COUNT.off 0] s (coreRetire s c heir) := by
  have freed := keeps_modCore s c (fun x => { x with st := .retired, slot := 0x7F, leaving := false })
  have listed (t : State) := (keeps_bump t F.MXE_RETIRE_CNT_COUNT).trans
    (keeps_openEvent _ .error St.MXE_CHECK_FAIL ⟨1, c⟩ 0 0) |>.trans (keeps_addRetire _ 1 c 0)
  unfold coreRetire
  dsimp only
  split
  · split
    · exact freed.trans (keeps_modCore _ _ _) |>.trans (listed _) |>.mono (by decide) (by decide)
    · exact freed.trans (listed _) |>.mono (by decide) (by decide)
  · exact freed.trans (listed _) |>.mono (by decide) (by decide)

theorem keeps_coreStrike (s : State) (c : Nat) (heir : Option Nat) :
    Keeps [.hpt, .ras, .mxe, .out] [F.MXE_RETIRE_CNT_COUNT.off 0] s (coreStrike s c heir) := by
  unfold coreStrike
  split
  · exact keeps_coreRetire s c heir
  · exact (keeps_modCore s c _).mono (by decide) (by decide)

theorem keeps_mxeUnitDone (s : State) (flight kernel unit core : Nat) (sums : List ChecksumPair) (numeric : Bool) :
    Keeps [.mxe] [F.MXE_MISMATCH_CNT_COUNT.off 0] s (mxeUnitDone s flight kernel unit core sums numeric) := by
  refine keeps_whenUp ?_
  split
  · exact .refl s
  · split
    · exact (keeps_corePass s core).trans (keeps_unitPassed _ _ _) |>.mono (by decide) (by decide)
    · exact (keeps_coreMiss s core).trans (keeps_mxe _ _) |>.mono (by decide) (by decide)

theorem keeps_mxeRetryDone (s : State) (flight kernel unit core : Nat) (sums : List ChecksumPair) (numeric : Bool) :
    Keeps [.hpt, .ras, .mxe, .out] [F.MXE_MISMATCH_CNT_COUNT.off 0, F.MXE_RETIRE_CNT_COUNT.off 0] s
      (mxeRetryDone s flight kernel unit core sums numeric) := by
  refine keeps_whenUp ?_
  split
  · exact .refl s
  · split
    · exact .refl s
    · dsimp only
      split
      · exact (keeps_mxe s _).trans (keeps_corePass _ _) |>.trans (keeps_unitPassed _ _ _) |>.trans (keeps_coreStrike _ _ _)
          |>.mono (by decide) (by decide)
      · exact (keeps_mxe s _).trans (keeps_coreMiss _ _) |>.trans (keeps_coreStrike _ _ _) |>.trans (keeps_coreStrike _ _ _)
          |>.trans (keeps_unitFailed _ _ _ _) |>.trans (keeps_openEvent _ _ _ _ _ _) |>.mono (by decide) (by decide)

theorem keeps_coreCmdEnd (s : State) (st : Status) : Keeps [.mxe] [F.MXE_CORE_CMD_STAT_BUSY.off 0] s (coreCmdEnd s st) :=
  (keeps_mxe s _).trans (keeps_wr _ F.MXE_CORE_CMD_STAT_BUSY 0) |>.trans (keeps_wr _ F.MXE_CORE_CMD_STAT_STATUS _)
    |>.mono (by decide) (by decide)

theorem keeps_coreCmdBegin {ps : List Part} {offs : List Nat} {s : State} {test : Bool} {c : Nat} {f : State → State}
    (hf : ∀ t, Keeps ps offs t (f t)) :
    Keeps (.ras :: .out :: .mxe :: ps) (F.SEC_REJECT_CNT_COUNT.off 0 :: F.MXE_CORE_CMD_STAT_BUSY.off 0 :: offs) s
      (coreCmdBegin s test c f) := by
  refine keeps_bar0 ?_
  split
  · exact (keeps_wr s F.MXE_CORE_CMD_STAT_LOST 1).mono (by simp) (List.cons_subset_cons _ (List.nil_subset _))
  · split
    · exact (keeps_coreCmdEnd s _).mono (by simp) (by simp)
    · exact (keeps_mxe s _).trans (keeps_wr _ F.MXE_CORE_CMD_STAT_BUSY 1) |>.trans (hf _) |>.mono (by simp) (by simp)

theorem keeps_mxeCoreTest (s : State) (core : Nat) :
    Keeps [.ras, .mxe, .out] [F.SEC_REJECT_CNT_COUNT.off 0, F.MXE_CORE_CMD_STAT_BUSY.off 0] s (mxeCoreTest s core) := by
  refine (keeps_coreCmdBegin (ps := [.mxe]) (offs := [F.MXE_CORE_CMD_STAT_BUSY.off 0]) (fun t => ?_)).mono (by decide) (by decide)
  split
  · exact (keeps_modCore t core _).mono (by decide) (by decide)
  · exact keeps_coreCmdEnd t _

theorem keeps_mxeCoreRetire (s : State) (core : Nat) :
    Keeps [.hpt, .ras, .mxe, .out]
      [F.SEC_REJECT_CNT_COUNT.off 0, F.MXE_CORE_CMD_STAT_BUSY.off 0, F.MXE_RETIRE_CNT_COUNT.off 0] s (mxeCoreRetire s core) := by
  refine (keeps_coreCmdBegin (ps := [.hpt, .ras, .mxe, .out]) (offs := [F.MXE_RETIRE_CNT_COUNT.off 0,
    F.MXE_CORE_CMD_STAT_BUSY.off 0]) (fun t => ?_)).mono (by decide) (by decide)
  dsimp only
  split
  · split
    · exact (keeps_coreCmdEnd t _).mono (by decide) (by decide)
    · exact (keeps_modCore t core _).mono (by decide) (by decide)
  · split
    · exact (keeps_coreCmdEnd t _).mono (by decide) (by decide)
    · split
      · exact (keeps_modCore t core _).trans (keeps_coreCmdEnd _ _) |>.mono (by decide) (by decide)
      · exact (keeps_modCore t core _).trans (keeps_bump _ _) |>.trans (keeps_addRetire _ _ _ _)
          |>.trans (keeps_coreCmdEnd _ _) |>.mono (by decide) (by decide)

theorem keeps_coreSelftestDone (s : State) (core : Nat) (pass : Bool) :
    Keeps [.ras, .mxe] [F.MXE_CORE_CMD_STAT_BUSY.off 0] s (coreSelftestDone s core pass) := by
  refine keeps_whenUp ?_
  split
  · exact .refl s
  · split
    · exact (keeps_modCore s core _).mono (by decide) (by decide)
    · dsimp only
      split
      · exact (keeps_modCore s core _).trans (keeps_coreCmdEnd _ _) |>.trans (keeps_recordRetire _ _ _ _)
          |>.mono (by decide) (by decide)
      · exact (keeps_modCore s core _).trans (keeps_recordRetire _ _ _ _) |>.mono (by decide) (by decide)

/-! ### Expanders (R193, R198) -/

theorem keeps_blockFailed (s : State) (flight unit lane : Nat) (st : Status) :
    Keeps [.hpt, .ras, .mxe, .out] [] s (blockFailed s flight unit lane st) :=
  (keeps_unitFailed s flight unit st).trans (keeps_openEvent _ _ _ _ _ _) |>.mono (by decide) (by decide)

theorem keeps_expanderBlock (s : State) (flight tensor block : Nat) :
    Keeps [.hpt, .ras, .mxe, .out] [F.EXP_CRC_CNT_COUNT.off 0] s (expanderBlock s flight tensor block) := by
  have failed (st : Status) := (keeps_blockFailed s flight block 0 st).mono (List.Subset.refl _)
    (List.nil_subset [F.EXP_CRC_CNT_COUNT.off 0])
  refine keeps_whenUp ?_
  split
  · exact .refl s
  · split
    · exact .refl s
    · split
      · exact failed _
      · split
        · exact .refl s
        · split
          · exact (keeps_mxe s _).trans (keeps_bump _ _) |>.mono (by decide) (by decide)
          · exact failed _

theorem keeps_expanderReread (s : State) (flight tensor block : Nat) :
    Keeps [.hpt, .ras, .mxe, .out] [] s (expanderReread s flight tensor block) := by
  refine keeps_whenUp ?_
  split
  · exact .refl s
  · split
    · exact .refl s
    · dsimp only
      split
      · exact (keeps_mxe s _).mono (by decide) (by decide)
      · exact (keeps_mxe s _).trans (keeps_blockFailed _ _ _ _ _) |>.mono (by decide) (by decide)

theorem matrixOnly_frame (c : Instr) (s : State) (hc : matrixOnly c = true) :
    ∃ b, exec c s = .next b ∧ Keeps [.hpt, .ras, .mxe, .out]
      (frameOffs [F.SEC_REJECT_CNT_COUNT, F.MXE_CORE_CMD_STAT_BUSY, F.MXE_MISMATCH_CNT_COUNT, F.MXE_RETIRE_CNT_COUNT,
        F.EXP_CRC_CNT_COUNT] []) s b := by
  cases c with
  | mxeUnitDone f k u c p n => exact ⟨_, rfl, (keeps_mxeUnitDone s f k u c p n).mono (by decide) (by decide)⟩
  | mxeRetryDone f k u c p n => exact ⟨_, rfl, (keeps_mxeRetryDone s f k u c p n).mono (by decide) (by decide)⟩
  | mxeCoreTest c => exact ⟨_, rfl, (keeps_mxeCoreTest s c).mono (by decide) (by decide)⟩
  | mxeCoreRetire c => exact ⟨_, rfl, (keeps_mxeCoreRetire s c).mono (by decide) (by decide)⟩
  | coreSelftestDone c p => exact ⟨_, rfl, (keeps_coreSelftestDone s c p).mono (by decide) (by decide)⟩
  | expanderBlock f t b => exact ⟨_, rfl, (keeps_expanderBlock s f t b).mono (by decide) (by decide)⟩
  | expanderReread f t b => exact ⟨_, rfl, (keeps_expanderReread s f t b).mono (by decide) (by decide)⟩
  | _ => cases hc

/-! ### Key/value pool (R206, R217), bindings (R233), partials that do not come (R251) -/

theorem keeps_kvaAgeTick (s : State) : Keeps [] [F.KVA_AGE_AGE.off 0] s (kvaAgeTick s) := by
  refine keeps_whenUp ?_
  split
  · exact keeps_wr s F.KVA_AGE_AGE _
  · exact .refl s

theorem keeps_poolEnable (s : State) (w : Word) :
    Keeps [.ras, .out, .kva] [F.SEC_REJECT_CNT_COUNT.off 0, F.KVA_POOL_CTL_EN.off 0] s (poolEnable s w) := by
  refine keeps_ofForm (keeps_bar0 ?_)
  have base := keeps_wr s F.KVA_POOL_CTL_SCALE_BASE_MIB (bits w 19 0)
  split
  · exact .refl s
  · dsimp only
    split
    · exact base.trans (keeps_kva _ _) |>.trans (keeps_wr _ F.KVA_POOL_CTL_EN 1) |>.trans (keeps_wr _ F.KVA_POOL_CTL_ERR 0)
        |>.mono (by decide) (by decide)
    · exact base.trans (keeps_wr _ F.KVA_POOL_CTL_ERR 1) |>.mono (by decide) (by decide)

theorem keeps_poolDisable (s : State) (w : Word) :
    Keeps [.ras, .out] [F.SEC_REJECT_CNT_COUNT.off 0, F.KVA_POOL_CTL_EN.off 0] s (poolDisable s w) := by
  refine keeps_ofForm (keeps_bar0 ?_)
  split
  · exact keeps_wr s F.KVA_POOL_CTL_SCALE_BASE_MIB _
  · split
    · exact keeps_wr s F.KVA_POOL_CTL_EN 0
    · exact .refl s

/-- The fields of a binding stand in one register. -/
theorem keeps_bindFields (s : State) (j layers model : Nat) :
    Keeps [] [F.ATT_BIND_EN.off j] s (wri (wri s F.ATT_BIND_NLAYERS_M1 j layers) F.ATT_BIND_MODEL j model) :=
  Keeps.andThen (keeps_wri s F.ATT_BIND_NLAYERS_M1 j layers) (keeps_wri _ F.ATT_BIND_MODEL j model)

theorem keeps_attBindEnable (s : State) (j : Nat) (w : Word) :
    Keeps [.ras, .out] [F.SEC_REJECT_CNT_COUNT.off 0, F.ATT_BIND_EN.off j] s (attBindEnable s j w) := by
  have fields := keeps_bindFields s j (bits w 23 16) (bits w 15 0)
  refine keeps_ofForm (keeps_bar0 ?_)
  split
  · exact .refl s
  · dsimp only
    split
    · exact (fields.andThen (keeps_wri _ F.ATT_BIND_EN j 1)).andThen (keeps_wri _ F.ATT_BIND_ERR j 0)
    · exact fields.andThen (keeps_wri _ F.ATT_BIND_ERR j 1)

theorem keeps_attBindDisable (s : State) (j : Nat) (w : Word) :
    Keeps [.ras, .out] [F.SEC_REJECT_CNT_COUNT.off 0, F.ATT_BIND_EN.off j] s (attBindDisable s j w) := by
  refine keeps_ofForm (keeps_bar0 ?_)
  split
  · exact keeps_bindFields s j _ _
  · split
    · exact .refl s
    · exact keeps_wri s F.ATT_BIND_EN j 0

/-- A write to a binding that the table does not hold is not this command's. -/
theorem ofForm_past_bindings {b : Bool} {s t : State} {j : Nat} (h : 16 ≤ j) : ofForm (b && decide (j < 16)) s t = s := by
  simp [ofForm, Nat.not_lt.2 h]

theorem keeps_partialReplyTimeout (s : State) (req tag : Nat) :
    Keeps [.hpt, .ras, .kva, .att, .out] [] s (partialReplyTimeout s req tag) := by
  refine keeps_whenUp ?_
  split
  · split
    · exact .refl s
    · exact (keeps_att s _).trans (keeps_kva _ _) |>.trans (keeps_openEvent _ _ _ _ _ _) |>.mono (by decide) (by decide)
  · exact .refl s

/-- The registers of the pool's commands, as their frame names them. -/
def poolOffs : List Nat := frameOffs [F.SEC_REJECT_CNT_COUNT, F.KVA_POOL_CTL_EN, F.KVA_AGE_AGE] [(F.ATT_BIND_EN, 16)]

theorem bindOffs_subset {j : Nat} (h : j < 16) : [F.SEC_REJECT_CNT_COUNT.off 0, F.ATT_BIND_EN.off j] ⊆ poolOffs := by
  have listed : F.ATT_BIND_EN.off j ∈ (List.range 16).map F.ATT_BIND_EN.off := List.mem_map.2 ⟨j, List.mem_range.2 h, rfl⟩
  simp [poolOffs, frameOffs, listed]

theorem keeps_attBindEnable_pool (s : State) (j : Nat) (w : Word) : Keeps [.ras, .out] poolOffs s (attBindEnable s j w) := by
  by_cases h : j < 16
  · exact (keeps_attBindEnable s j w).mono (List.Subset.refl _) (bindOffs_subset h)
  · unfold attBindEnable
    rw [ofForm_past_bindings (Nat.not_lt.1 h)]
    exact .refl s

theorem keeps_attBindDisable_pool (s : State) (j : Nat) (w : Word) : Keeps [.ras, .out] poolOffs s (attBindDisable s j w) := by
  by_cases h : j < 16
  · exact (keeps_attBindDisable s j w).mono (List.Subset.refl _) (bindOffs_subset h)
  · unfold attBindDisable
    rw [ofForm_past_bindings (Nat.not_lt.1 h)]
    exact .refl s

theorem poolOnly_frame (c : Instr) (s : State) (hc : poolOnly c = true) :
    ∃ b, exec c s = .next b ∧ Keeps [.hpt, .ras, .kva, .att, .out] poolOffs s b := by
  cases c with
  | kvaAgeTick => exact ⟨_, rfl, (keeps_kvaAgeTick s).mono (by decide) (by decide)⟩
  | poolEnable w => exact ⟨_, rfl, (keeps_poolEnable s w).mono (by decide) (by decide)⟩
  | poolDisable w => exact ⟨_, rfl, (keeps_poolDisable s w).mono (by decide) (by decide)⟩
  | attBindEnable j w => exact ⟨_, rfl, (keeps_attBindEnable_pool s j w).mono (by decide) (List.Subset.refl _)⟩
  | attBindDisable j w => exact ⟨_, rfl, (keeps_attBindDisable_pool s j w).mono (by decide) (List.Subset.refl _)⟩
  | partialReplyTimeout r t => exact ⟨_, rfl, (keeps_partialReplyTimeout s r t).mono (by decide) (by decide)⟩
  | _ => cases hc

end Sys2Proof.Engines
end

section
/-! The frames of the flash tier (R316 to R329), and with them those of all three engines. -/

namespace Sys2Proof.Engines

open Sys2Proof Sys2Proof.Machine Sys2Proof.Laws Sys2Proof.Frames

/-! ### Enable, bring-up and disable (R316, R327, R329) -/

theorem keeps_modFlt (s : State) (f : FltState → FltState) : Keeps [.flt] [] s (modFlt s f) := keeps_flt s _

theorem keeps_modBlock (s : State) (b : Nat) (f : FltBlock → FltBlock) : Keeps [.flt] [] s (modBlock s b f) := keeps_flt s _

theorem keeps_ftlEnable (s : State) (w : Word) :
    Keeps [.ras, .out] [F.SEC_REJECT_CNT_COUNT.off 0, F.FLT_CTL_BUSY.off 0] s (ftlEnable s w) := by
  refine keeps_ofForm ((keeps_bar0 (ps := [.out]) (offs := [F.FLT_CTL_BUSY.off 0]) ?_).mono (by decide) (by decide))
  split
  · exact .refl s
  · exact (keeps_wr s F.FLT_CTL_MAP_BASE_MIB _).trans (keeps_wr _ F.FLT_CTL_BUSY 1) |>.trans (keeps_wr _ F.FLT_CTL_ERR 0)
      |>.trans (keeps_emits _ _) |>.mono (by decide) (by decide)

/-- The fields of FLT_CTL stand in one register, and so do those of FLT_CAP. -/
theorem keeps_ftlDisable (s : State) (w : Word) :
    Keeps [.ras, .out, .flt] [F.SEC_REJECT_CNT_COUNT.off 0, F.FLT_CTL_BUSY.off 0, F.FLT_CAP_MAP_MIB.off 0] s (ftlDisable s w) := by
  have cleared (t : State) := (keeps_wr t F.FLT_CTL_EN 0).trans (keeps_wr _ F.FLT_CTL_BUSY 0)
    |>.trans (keeps_wr _ F.FLT_CAP_UNITS 0) |>.trans (keeps_wr _ F.FLT_CAP_MAP_MIB 0) |>.trans (keeps_flt _ FltState.reset)
  refine keeps_ofForm (keeps_bar0 ?_)
  dsimp only
  split
  · exact (cleared s).mono (by decide) (by decide)
  · exact (keeps_wr s F.FLT_CTL_MAP_BASE_MIB _).trans (cleared _) |>.mono (by decide) (by decide)

/-- The fields of a channel stand in one register. -/
theorem keeps_foundChan (s : State) (c : Nat) (f : ChanFound) :
    Keeps [.hpt, .ras, .out] [F.FLT_CHAN_RATE_MT.off c] s (foundChan s c f) := by
  have fields (targets rate state : Nat) : Keeps [] [F.FLT_CHAN_RATE_MT.off c] s
      (wri (wri (wri s F.FLT_CHAN_TARGETS c targets) F.FLT_CHAN_RATE_MT c rate) F.FLT_CHAN_STATE c state) :=
    (Keeps.andThen (keeps_wri s F.FLT_CHAN_TARGETS c targets) (keeps_wri _ F.FLT_CHAN_RATE_MT c rate)).andThen
      (keeps_wri _ F.FLT_CHAN_STATE c state)
  unfold foundChan
  split
  · exact (fields 0 0 2).trans (keeps_openEvent _ _ _ _ _ _) |>.mono (by simp) (by simp)
  · exact (fields _ _ _).mono (by simp) (by simp)

/-- A controller has 16 channels (R316). -/
theorem keeps_foundChans (s : State) (chans : List ChanFound) :
    Keeps [.hpt, .ras, .out] ((List.range 16).map F.FLT_CHAN_RATE_MT.off) s
      ((chans.take 16).zipIdx.foldl (fun s p => foundChan s p.2 p.1) s) := by
  refine Keeps.foldl_mem _ (fun t p hp => (keeps_foundChan t p.2 p.1).mono (List.Subset.refl _) ?_) s
  have listed : p.2 < 16 := by
    have := List.snd_lt_of_mem_zipIdx hp
    simp only [List.length_take] at this
    omega
  simpa using ⟨p.2, listed, rfl⟩

/-- The registers of the flash tier's commands, as their frame names them. -/
def flashOffs : List Nat :=
  frameOffs [F.SEC_REJECT_CNT_COUNT, F.FLT_CTL_BUSY, F.FLT_CAP_MAP_MIB, F.FLT_CLIENT_WR_CNT_COUNT, F.FLT_NAND_WR_CNT_COUNT,
    F.FLT_BAD_BLK_CNT_COUNT] [(F.FLT_CHAN_RATE_MT, 16)]

theorem keeps_ftlBringupDone (s : State) (chans : List ChanFound) (badBlocks : List Nat) :
    Keeps [.hpt, .ras, .flt, .out] flashOffs s (ftlBringupDone s chans badBlocks) := by
  refine keeps_whenUp ?_
  split
  · exact .refl s
  · have found (units mib : Nat) (x : FltState) := (keeps_foundChans s chans).trans (keeps_wr _ F.FLT_CAP_UNITS units)
      |>.trans (keeps_wr _ F.FLT_CAP_MAP_MIB mib) |>.trans (keeps_flt _ x) |>.trans (keeps_wr _ F.FLT_CTL_BUSY 0)
    dsimp only
    split
    · exact (found _ _ _).trans (keeps_wr _ F.FLT_CTL_EN 1) |>.mono (by decide) (by decide)
    · exact (found _ _ _).trans (keeps_wr _ F.FLT_CTL_ERR 1) |>.trans (keeps_flt _ _) |>.mono (by decide) (by decide)

/-! ### Programs, merges and moves (R319, R322 to R325) -/

theorem keeps_startProg {s t : State} {unit mask : Nat} {data : Tbl (List Byte)} {old : Option (Nat × Nat)}
    (h : startProg s unit data mask old = some t) : Keeps [.flt, .out] [] s t := by
  unfold startProg at h
  split at h
  · cases h
  · cases h
    exact (keeps_modBlock s _ _).trans (keeps_modFlt _ _) |>.trans (keeps_emits _ _) |>.mono (by decide) (by decide)

/-- A unit's relocation is asked for, and without a place for it nothing is (R325). -/
theorem keeps_relocate (s : State) (o : Output) (unit mask : Nat) (old : Option (Nat × Nat)) :
    Keeps [.flt, .out] [] s ((startProg (emit s o) unit [] mask old).getD s) := by
  cases h : startProg (emit s o) unit [] mask old with
  | none => exact .refl s
  | some t => exact (keeps_emit s o).trans (keeps_startProg h) |>.mono (by decide) (by decide)

theorem keeps_mergeOn (s : State) (unit : Nat) : Keeps [.flt, .out] [] s (mergeOn s unit) := by
  unfold mergeOn
  split
  · exact .refl s
  · dsimp only
    split
    · exact .refl s
    · split
      · exact (keeps_modFlt s _).trans (keeps_emit _ _)
      · split
        · exact .refl s
        · split
          · exact .refl s
          · next hp => exact (keeps_startProg hp).trans (keeps_modFlt _ _) |>.mono (by decide) (by decide)

theorem keeps_mergeAll (s : State) : Keeps [.flt, .out] [] s (mergeAll s) := Keeps.foldl keeps_mergeOn _ s

theorem keeps_eraseWhenDone (s : State) (b : Nat) : Keeps [.flt, .out] [] s (eraseWhenDone s b) := by
  unfold eraseWhenDone
  dsimp only
  split
  · exact (keeps_modBlock s b _).trans (keeps_emit _ _)
  · exact .refl s

theorem keeps_moveBlock (s : State) (b : Nat) : Keeps [.flt, .out] [] s (moveBlock s b) := by
  unfold moveBlock
  split
  · exact .refl s
  · refine (keeps_modBlock s b _).trans (Keeps.foldl (ps := [.flt, .out]) (offs := []) (fun t e => ?_) _ _)
      |>.trans (keeps_eraseWhenDone _ b) |>.mono (by decide) (by decide)
    exact keeps_relocate t _ _ _ _

theorem keeps_moveRest (s : State) : Keeps [.flt, .out] [] s (moveRest s) := by
  unfold moveRest
  exact Keeps.foldl (fun t e => keeps_relocate t _ _ _ _) _ s

theorem keeps_retireBlock (s : State) (b : Nat) : Keeps [.flt, .out] [F.FLT_BAD_BLK_CNT_COUNT.off 0] s (retireBlock s b) := by
  unfold retireBlock
  split
  · exact .refl s
  · exact (keeps_modBlock s b _).trans (keeps_bump _ _) |>.trans (keeps_emit _ _)

theorem keeps_mapUnit (s : State) (p : FltProg) : Keeps [.flt] [] s (mapUnit s p) := by
  unfold mapUnit
  dsimp only
  split
  · exact keeps_modFlt s _
  · split
    · split
      · exact keeps_modFlt s _
      · exact .refl s
    · exact .refl s

theorem keeps_progAgain (s : State) (p : FltProg) : Keeps [.flt, .out] [] s (progAgain s p) := by
  unfold progAgain
  split
  · next hp => exact keeps_startProg hp
  · exact .refl s
  · exact (keeps_modFlt s _).mono (by decide) (by decide)

theorem keeps_reprogram (s : State) (lost : Nat → Bool) : Keeps [.flt, .out] [] s (reprogram s lost) :=
  (keeps_modFlt s _).trans (Keeps.foldl keeps_progAgain _ _) |>.mono (by decide) (by decide)

/-- What a unit replaced may be erased: in the map, and where it was moved from (R325). -/
theorem keeps_unitStored (s : State) (p : FltProg) : Keeps [.flt, .out] [] s (unitStored s p) := by
  have erased {α : Type} (o : Option α) (b : α → Nat) (t : State) :
      Keeps [.flt, .out] [] t (o.elim t (fun x => eraseWhenDone t (b x))) := by
    cases o with
    | none => exact .refl t
    | some x => exact keeps_eraseWhenDone t (b x)
  exact (keeps_mapUnit s p).trans (keeps_mergeOn _ _) |>.trans (erased _ _ _) |>.trans (erased _ _ _)
    |>.mono (by decide) (by decide)

theorem keeps_pageProgramDone (s : State) (unit : Nat) (ok : Bool) :
    Keeps [.flt, .out] [F.FLT_NAND_WR_CNT_COUNT.off 0, F.FLT_BAD_BLK_CNT_COUNT.off 0] s (pageProgramDone s unit ok) := by
  have counted (x : FltState) := (keeps_flt s x).trans (keeps_bumpBy _ F.FLT_NAND_WR_CNT_COUNT 4)
  refine keeps_whenUp ?_
  split
  · exact .refl s
  · dsimp only
    split
    · exact (counted _).trans (keeps_unitStored _ _) |>.mono (by decide) (by decide)
    · exact (counted _).trans (keeps_retireBlock _ _) |>.trans (keeps_progAgain _ _) |>.mono (by decide) (by decide)

theorem keeps_blockEraseDone (s : State) (block : Nat) (ok : Bool) :
    Keeps [.flt, .out] [F.FLT_BAD_BLK_CNT_COUNT.off 0] s (blockEraseDone s block ok) := by
  have rest (t : State) := (keeps_moveRest t).andThen (keeps_mergeAll _)
  refine keeps_whenUp ?_
  split
  · exact .refl s
  · dsimp only
    split
    · exact (keeps_modBlock s block _).trans (keeps_retireBlock _ _) |>.trans (keeps_reprogram _ _) |>.mono (by decide) (by decide)
    · split
      · split
        · exact (keeps_modBlock s block _).trans (keeps_modBlock _ block _) |>.trans (keeps_retireBlock _ _)
            |>.trans (rest _) |>.mono (by decide) (by decide)
        · exact (keeps_modBlock s block _).trans (keeps_modBlock _ block _) |>.trans (rest _) |>.mono (by decide) (by decide)
      · exact (keeps_modBlock s block _).mono (by decide) (by decide)

/-! ### Sectors (R318, R319, R321) -/

theorem keeps_sectorRead (s : State) (c : FlashClient) (sector : Nat) : Keeps [.flt, .out] [] s (sectorRead s c sector) := by
  have reply (st : Status) (bs : List Byte) := (keeps_emit s (.flashReply c sector st bs)).mono (ps := [.flt, .out]) (offs := [])
    (by decide) (by decide)
  refine keeps_whenUp ?_
  dsimp only
  split
  · exact reply _ _
  · split
    · exact reply _ _
    · split
      · exact reply _ _
      · exact reply _ _
      · split
        · exact reply _ _
        · split
          · exact reply _ _
          · exact (keeps_modFlt s _).trans (keeps_emit _ _)

theorem keeps_putSector (s : State) (sector : Nat) (bs : List Byte) : Keeps [.flt] [] s (putSector s sector bs) := keeps_flt s _

theorem keeps_putSectors (s : State) (sector : Nat) (data : List (List Byte)) :
    Keeps [.flt] [] s (data.zipIdx.foldl (fun s p => putSector s (sector + p.2) p.1) s) :=
  Keeps.foldl (fun t _ => keeps_putSector t _ _) _ s

theorem keeps_countClient (s : State) (n : Nat) : Keeps [.flt] [F.FLT_CLIENT_WR_CNT_COUNT.off 0] s (countClient s n) :=
  (keeps_modFlt s _).trans (keeps_bumpBy _ _ _)

theorem keeps_sectorWrite (s : State) (c : FlashClient) (sector : Nat) (data : List (List Byte)) :
    Keeps [.flt, .out] [F.FLT_CLIENT_WR_CNT_COUNT.off 0] s (sectorWrite s c sector data) := by
  have reply (t : State) (st : Status) := (keeps_emit t (.flashReply c sector st [])).mono (ps := [.flt, .out])
    (offs := [F.FLT_CLIENT_WR_CNT_COUNT.off 0]) (by decide) (by decide)
  refine keeps_whenUp ?_
  dsimp only
  split
  · exact reply s _
  · split
    · exact reply s _
    · split
      · exact reply s _
      · exact (keeps_putSectors s sector data).trans (keeps_countClient _ _) |>.trans (Keeps.foldl keeps_mergeOn _ _)
          |>.trans (reply _ _) |>.mono (by decide) (by decide)

theorem keeps_mergeTimeout (s : State) (unit : Nat) : Keeps [.flt, .out] [] s (mergeTimeout s unit) := by
  refine keeps_whenUp ?_
  split
  · exact (keeps_modFlt s _).trans (keeps_mergeOn _ _) |>.mono (by decide) (by decide)
  · exact .refl s

/-! ### Collection, levelling, calibration (R317, R322, R324) -/

theorem keeps_garbageCollection (s : State) : Keeps [.flt, .out] [] s (garbageCollection s) := by
  refine keeps_whenUp ?_
  split
  · exact .refl s
  · split
    · exact keeps_moveBlock s _
    · exact .refl s

theorem keeps_staticLevelling (s : State) : Keeps [.flt, .out] [] s (staticLevelling s) := by
  refine keeps_whenUp ?_
  split
  · exact .refl s
  · dsimp only
    split
    · split
      · exact keeps_moveBlock s _
      · exact .refl s
    · exact .refl s

theorem keeps_zqCalibration (s : State) : Keeps [.out] [] s (zqCalibration s) := by
  refine keeps_whenUp ?_
  split
  · exact keeps_emits s _
  · exact .refl s

theorem flashOnly_frame (c : Instr) (s : State) (hc : flashOnly c = true) :
    ∃ b, exec c s = .next b ∧ Keeps [.hpt, .ras, .flt, .out] flashOffs s b := by
  cases c with
  | ftlEnable w => exact ⟨_, rfl, (keeps_ftlEnable s w).mono (by decide) (by decide)⟩
  | ftlBringupDone cs bs => exact ⟨_, rfl, keeps_ftlBringupDone s cs bs⟩
  | ftlDisable w => exact ⟨_, rfl, (keeps_ftlDisable s w).mono (by decide) (by decide)⟩
  | sectorRead c n => exact ⟨_, rfl, (keeps_sectorRead s c n).mono (by decide) (by decide)⟩
  | sectorWrite c n d => exact ⟨_, rfl, (keeps_sectorWrite s c n d).mono (by decide) (by decide)⟩
  | mergeTimeout u => exact ⟨_, rfl, (keeps_mergeTimeout s u).mono (by decide) (by decide)⟩
  | pageProgramDone u ok => exact ⟨_, rfl, (keeps_pageProgramDone s u ok).mono (by decide) (by decide)⟩
  | blockEraseDone b ok => exact ⟨_, rfl, (keeps_blockEraseDone s b ok).mono (by decide) (by decide)⟩
  | garbageCollection => exact ⟨_, rfl, (keeps_garbageCollection s).mono (by decide) (by decide)⟩
  | staticLevelling => exact ⟨_, rfl, (keeps_staticLevelling s).mono (by decide) (by decide)⟩
  | zqCalibration => exact ⟨_, rfl, (keeps_zqCalibration s).mono (by decide) (by decide)⟩
  | _ => cases hc

/-- Settles O50: each command's own effect keeps all but its parts and registers, operation by operation. -/
theorem engineFrames : Obligations.EngineFrames := by
  refine ⟨fun c s hc => ?_, fun c s hc => ?_, fun c s hc => ?_⟩
  · obtain ⟨b, hb, k⟩ := matrixOnly_frame c s hc
    exact ⟨b, hb, k.eq_overlay, k.regsKept_arrays⟩
  · obtain ⟨b, hb, k⟩ := poolOnly_frame c s hc
    exact ⟨b, hb, k.eq_overlay, k.regsKept_arrays⟩
  · obtain ⟨b, hb, k⟩ := flashOnly_frame c s hc
    exact ⟨b, hb, k.eq_overlay, k.regsKept_arrays⟩

end Sys2Proof.Engines
end

section
/-! Descriptors of the matrix engine, the packer and the movers that pass their checks (R157, R162, R186, R187, R378). -/

namespace Sys2Proof.Engines

open Sys2Proof Sys2Proof.Machine Sys2Proof.Laws Sys2Proof.HostPort

section

variable {s u : State} {k : RingKey} {d : Desc} {key : DescKey}

theorem kernelLoad_acts {image : List Word} (h : dispatched s k d key u) (ho : dOpcode d = 0x10) (hop : dfld d 0x18 45 44 = 0)
    (hc : passes d (loadBytes d) ([chk ((Desc.word d 2).toNat % 64 != 0) St.HPT_BAD_ADDR 0x10,
      chk (!hostOk u key false (Desc.word d 2).toNat (dfld d 0x18 31 0)) St.HPT_PROT 0x10] ++ imageChecks u key d image)) :
    kernelLoad s k d image = completeOk (loadImage u key d image) (flightId key) := by
  unfold kernelLoad
  rw [ofForm_of (by simp [ho, hop]), runDesc_acts h hc]

theorem kernelUnload_acts (h : dispatched s k d key u) (ho : dOpcode d = 0x10) (hop : dfld d 0x18 45 44 = 1)
    (hc : passes d (loadBytes d)
      [chk (!(List.range (dfld d 0x18 31 0)).all (fun i => ownsKernel u key.ctx (dfld d 0x18 43 32 + i))) St.MXE_NO_KERNEL 0x1C]) :
    kernelUnload s k d = completeOk (dropEmptyImages { u with mxe := { u.mxe with
      kernels := tkeep (fun h _ => !(decide (dfld d 0x18 43 32 ≤ h) && decide (h < dfld d 0x18 43 32 + dfld d 0x18 31 0)))
        u.mxe.kernels } }) (flightId key) := by
  unfold kernelUnload
  rw [ofForm_of (by simp [ho, hop]), runDesc_acts h hc]

/-- The rows that a KERNEL_RUN asks for: all of the kernel's, for M_RUN 0 (R162). -/
def runRows (u : State) (d : Desc) : Nat := if rM d = 0 then kM (kernelWords u (rKernel d)) else rM d

theorem kernelRun_acts (h : dispatched s k d key u) (ho : dOpcode d = 0x11)
    (hc : passes d (resv d 0x10 31 12 ++ resv d 0x30 63 32 ++ resvWords d [0x38]) (runChecks u key d)) :
    kernelRun s k d = addUnit { u with mxe := { u.mxe with
        runs := tset u.mxe.runs (flightId key) ⟨d, rKernel d, runRows u d, 0, false, none, []⟩ } } 2 key.ctx none
      (.work (flightId key)) (kernelUnits u (kernelWords u (rKernel d)) ((tget u.mxe.tensors (rB d)).elim false (fun t => t.coded))
        (runRows u d) - 1) := by
  unfold kernelRun
  rw [ofForm_of (by simp [ho]), runDesc_acts h hc]
  rfl

/-- A PACK that makes a tensor becomes class 2 work of as many units as its OP asks for (R191). -/
theorem startPack_units {op : Nat} (hop : pOp d = op) :
    startPack u key d (flightId key) = addUnit { u with mxe := { u.mxe with
        runs := tset u.mxe.runs (flightId key) ⟨d, 0, 0, rd u F.EXP_FALLBACK_NUM, false, none, []⟩ } } 2 key.ctx none
      (.work (flightId key)) (packUnits op (blocksOf (pTensor u d).rows (pTensor u d).cols) - 1) := by
  rw [← hop]
  rfl

theorem packCode_acts (h : dispatched s k d key u) (ho : dOpcode d = 0x21) (hop : pOp d = 0)
    (hc : passes d (packBytes d) (packChecks u key d)) : packCode s k d = startPack u key d (flightId key) := by
  unfold packCode
  rw [ofForm_of (by simp [ho, hop]), runDesc_acts h hc]

theorem packCodeSafe_acts (h : dispatched s k d key u) (ho : dOpcode d = 0x21) (hop : pOp d = 1)
    (hc : passes d (packBytes d) (packChecks u key d)) : packCodeSafe s k d = startPack u key d (flightId key) := by
  unfold packCodeSafe
  rw [ofForm_of (by simp [ho, hop]), runDesc_acts h hc]

theorem packUnpack_acts (h : dispatched s k d key u) (ho : dOpcode d = 0x21) (hop : pOp d = 2)
    (hc : passes d (packBytes d) (packChecks u key d)) : packUnpack s k d = startPack u key d (flightId key) := by
  unfold packUnpack
  rw [ofForm_of (by simp [ho, hop]), runDesc_acts h hc]

/-- A handle that a PACK of the same context made passes the check of FREE (R186). -/
theorem packFree_acts {t : Tensor} (h : dispatched s k d key u) (ho : dOpcode d = 0x21) (hop : pOp d = 3)
    (ht : tget u.mxe.tensors (pDst d) = some t) (hi : t.image = 0) (hx : t.ctx = key.ctx) (hc : passes d (packBytes d) []) :
    packFree s k d = completeOk { u with mxe := { u.mxe with tensors := tdel u.mxe.tensors (pDst d) } } (flightId key) := by
  unfold packFree
  rw [ofForm_of (by simp [ho, hop]), runDesc_acts h (passes_of hc (by simp [chk, ht, hi, hx]))]

theorem move_acts (h : dispatched s k d key u) (ho : dOpcode d = 0x20) (hc : passes d (moveBytes d) (moveChecks d u key)) :
    move s k d = { u with bmv := { u.bmv with waiting := u.bmv.waiting ++ [⟨flightId key, d⟩] } } := by
  unfold move
  rw [ofForm_of (by simp [ho]), runDesc_acts h hc]
  rfl

end

/-- Settles O6: each descriptor's action, taken from its checks. -/
theorem kernelCommands : Obligations.KernelCommands := by
  refine ⟨?_, ?_, ?_, ?_, ?_, ?_, ?_, ?_⟩
  · exact fun s u k d key image h ho hop hc => congrArg Host.Outcome.next (kernelLoad_acts h ho hop hc)
  · exact fun s u k d key h ho hop hc => congrArg Host.Outcome.next (kernelUnload_acts h ho hop hc)
  · exact fun s u k d key h ho hc => congrArg Host.Outcome.next (kernelRun_acts h ho hc)
  · exact fun s u k d key h ho hop hc => congrArg Host.Outcome.next ((packCode_acts h ho hop hc).trans (startPack_units hop))
  · exact fun s u k d key h ho hop hc => congrArg Host.Outcome.next ((packCodeSafe_acts h ho hop hc).trans (startPack_units hop))
  · exact fun s u k d key h ho hop hc => congrArg Host.Outcome.next ((packUnpack_acts h ho hop hc).trans (startPack_units hop))
  · exact fun s u k d key t h ho hop ht hi hx hc => congrArg Host.Outcome.next (packFree_acts h ho hop ht hi hx hc)
  · exact fun s u k d key h ho hc => congrArg Host.Outcome.next (move_acts h ho hc)

end Sys2Proof.Engines
end

section
/-! Units and commands of the matrix cores, and the expanders (R170, R174, R193, R198). -/

namespace Sys2Proof.Engines

open Sys2Proof Sys2Proof.Machine Sys2Proof.Laws Sys2Proof.HostPort

/-! ### Units (R169 to R171) -/

/-- A unit of work under way, on an ACTIVE core, is compared (R169). -/
theorem mxeUnitDone_known {s : State} {flight kernel unit core : Nat} {sums : List ChecksumPair} {numeric : Bool}
    (hu : isUp s = true) (hk : unitKnown s flight = true) (ha : (coreAt s core).st = .active) (hc : core < 100) :
    mxeUnitDone s flight kernel unit core sums numeric =
      if sumsPass s kernel sums then unitPassed (corePass s core) flight numeric
      else { coreMiss s core with mxe := { (coreMiss s core).mxe with
        retries := (coreMiss s core).mxe.retries ++ [⟨flight, kernel, unit, core⟩] } } := by
  unfold mxeUnitDone
  rw [whenUp_up hu, if_neg (by simp [hk, ha, hc])]

/-- A retry that is queued, on a core that may serve it, is compared (R170). -/
theorem mxeRetryDone_queued {s : State} {flight kernel unit core : Nat} {sums : List ChecksumPair} {numeric : Bool} {r : Retry}
    (hu : isUp s = true)
    (hr : s.mxe.retries.find? (fun r => r.flight == flight && r.kernel == kernel && r.unit == unit) = some r)
    (hm : mayRetry s r.core core = true) :
    mxeRetryDone s flight kernel unit core sums numeric =
      if sumsPass s kernel sums then
        coreStrike (unitPassed (corePass { s with mxe := { s.mxe with retries := s.mxe.retries.erase r } } core) flight numeric)
          r.core (some core)
      else
        openEvent (unitFailed (coreStrike (coreStrike
          (coreMiss { s with mxe := { s.mxe with retries := s.mxe.retries.erase r } } core)
          r.core none) core none) flight unit St.MXE_TILE_FAIL) .error St.MXE_TILE_FAIL ⟨1, core⟩ 0 0 := by
  unfold mxeRetryDone
  rw [whenUp_up hu]
  simp only [hr]
  rw [if_neg (by simp [hm])]

theorem coreStrike_first {s : State} {c : Nat} {heir : Option Nat} (h : (coreAt s c).strike = false) :
    coreStrike s c heir = { s with mxe := { s.mxe with cores := s.mxe.cores.set c { coreAt s c with strike := true } } } :=
  if_neg (by simp [h])

theorem coreStrike_second {s : State} {c : Nat} {heir : Option Nat} (h : (coreAt s c).strike = true) :
    coreStrike s c heir = coreRetire s c heir := if_pos h

/-! ### Expanders (R193, R198) -/

/-- What a lane does with what it read of a block: a CRC failure is read again, another failure fails the units (R198). -/
def laneRead (s : State) (flight tensor block : Nat) : Except Status (List Nat) → State
  | .ok _ => s
  | .error st =>
    if st = St.EXP_BLOCK_CRC then
      bump { s with mxe := { s.mxe with reread := s.mxe.reread ++ [(flight, tensor, block)] } } F.EXP_CRC_CNT_COUNT
    else blockFailed s flight block 0 st

/-- What a lane does with the second read of a block: no failure is read again (R198). -/
def laneReread (s : State) (flight block : Nat) : Except Status (List Nat) → State
  | .ok _ => s
  | .error st => blockFailed s flight block 0 st

/-- A block of a coded tensor with a good prologue is read by a lane (R193). -/
theorem expanderBlock_reads {s : State} {flight tensor block : Nat} {x : Tensor} (hu : isUp s = true)
    (ht : tget s.mxe.tensors tensor = some x) (hx : x.coded = true) (hb : block < blocksOf x.rows x.cols)
    (hk : unitKnown s flight = true) (hp : prologueOk (readMem s x.base 256) x.fmt (blocksOf x.rows x.cols) = true) :
    expanderBlock s flight tensor block = laneRead s flight tensor block (readBlock s x block) := by
  unfold expanderBlock
  rw [whenUp_up hu]
  simp only [ht]
  rw [if_neg (by simp [hx, hk, hb]), if_neg (by simp [hp])]
  cases readBlock s x block <;> rfl

/-- A block that waits for its second read is read again (R198). -/
theorem expanderReread_reads {s : State} {flight tensor block : Nat} {x : Tensor} (hu : isUp s = true)
    (ht : tget s.mxe.tensors tensor = some x) (hm : (flight, tensor, block) ∈ s.mxe.reread) :
    expanderReread s flight tensor block =
      laneReread { s with mxe := { s.mxe with reread := s.mxe.reread.erase (flight, tensor, block) } } flight block
        (readBlock s x block) := by
  unfold expanderReread
  rw [whenUp_up hu]
  simp only [ht]
  rw [if_neg (by simp [hm])]
  cases readBlock s x block <;> rfl

/-- Settles O13: what the comparison of a unit, of its retry, or the read of a block comes to. -/
theorem matrixUnits : Obligations.MatrixUnits := by
  refine ⟨?_, ?_, ?_, ?_, fun s c heir => ⟨coreStrike_first, coreStrike_second⟩, ?_, ?_, ?_, ?_⟩
  · exact fun s flight kernel unit core sums numeric hu hk ha hc hp =>
      congrArg Host.Outcome.next ((mxeUnitDone_known hu hk ha hc).trans (if_pos hp))
  · exact fun s flight kernel unit core sums numeric hu hk ha hc hp =>
      congrArg Host.Outcome.next ((mxeUnitDone_known hu hk ha hc).trans (if_neg (by simp [hp])))
  · exact fun s flight kernel unit core sums numeric r hu hr hm hp =>
      congrArg Host.Outcome.next ((mxeRetryDone_queued hu hr hm).trans (if_pos hp))
  · exact fun s flight kernel unit core sums numeric r hu hr hm hp =>
      congrArg Host.Outcome.next ((mxeRetryDone_queued hu hr hm).trans (if_neg (by simp [hp])))
  · exact fun s flight tensor block x codes hu ht hx hb hk hp hr =>
      congrArg Host.Outcome.next ((expanderBlock_reads hu ht hx hb hk hp).trans (by rw [hr]; rfl))
  · exact fun s flight tensor block x hu ht hx hb hk hp hr =>
      congrArg Host.Outcome.next ((expanderBlock_reads hu ht hx hb hk hp).trans (by rw [hr]; rfl))
  · exact fun s flight tensor block x st hu ht hx hb hk hne hp hr =>
      congrArg Host.Outcome.next ((expanderBlock_reads hu ht hx hb hk hp).trans (by rw [hr]; exact if_neg hne))
  · exact fun s flight tensor block x hu ht hm =>
      ⟨fun codes hr => congrArg Host.Outcome.next ((expanderReread_reads hu ht hm).trans (by rw [hr]; rfl)),
        fun st hr => congrArg Host.Outcome.next ((expanderReread_reads hu ht hm).trans (by rw [hr]; rfl))⟩

/-! ### Core commands (R174, R175) -/

section

variable {s : State} {c : Nat}

/-- The state in which a core command is in progress (R175). -/
def coreCmdRuns (s : State) (test : Bool) (c : Nat) : State :=
  wr { s with mxe := { s.mxe with cmd := some (test, c) } } F.MXE_CORE_CMD_STAT_BUSY 1

@[simp] theorem coreAt_coreCmdRuns (s : State) (test : Bool) (c i : Nat) : coreAt (coreCmdRuns s test c) i = coreAt s i := rfl

theorem coreCmdBegin_starts {test : Bool} {f : State → State} (hl : rd s F.SEC_PROT_LOCK_LOCK = 1)
    (hb : rd s F.MXE_CORE_CMD_STAT_BUSY = 0) (hc : c < 100) : coreCmdBegin s test c f = f (coreCmdRuns s test c) := by
  unfold coreCmdBegin
  rw [bar0_locked hl, if_neg (by simp [hb]), if_neg (Nat.not_le.2 hc)]
  rfl

theorem coreCmdBegin_noCore {test : Bool} {f : State → State} (hl : rd s F.SEC_PROT_LOCK_LOCK = 1)
    (hb : rd s F.MXE_CORE_CMD_STAT_BUSY = 0) (hc : 100 ≤ c) : coreCmdBegin s test c f = coreCmdEnd s St.HPT_BAD_FIELD := by
  unfold coreCmdBegin
  rw [bar0_locked hl, if_neg (by simp [hb]), if_pos hc]

theorem mxeCoreTest_retired (hl : rd s F.SEC_PROT_LOCK_LOCK = 1) (hb : rd s F.MXE_CORE_CMD_STAT_BUSY = 0) (hc : c < 100)
    (hr : (coreAt s c).st = .retired) :
    mxeCoreTest s c = modCore (coreCmdRuns s true c) c (fun x => { x with st := .test }) := by
  unfold mxeCoreTest
  rw [coreCmdBegin_starts hl hb hc, if_pos (by simp [hr])]

theorem mxeCoreTest_inService (hl : rd s F.SEC_PROT_LOCK_LOCK = 1) (hb : rd s F.MXE_CORE_CMD_STAT_BUSY = 0) (hc : c < 100)
    (hr : (coreAt s c).st ≠ .retired) : mxeCoreTest s c = coreCmdEnd (coreCmdRuns s true c) St.MXE_CORE_BUSY := by
  unfold mxeCoreTest
  rw [coreCmdBegin_starts hl hb hc, if_neg (by simp [hr])]

/-- RETIRE of an ACTIVE core, which the last one refuses (R174). -/
theorem mxeCoreRetire_active (hl : rd s F.SEC_PROT_LOCK_LOCK = 1) (hb : rd s F.MXE_CORE_CMD_STAT_BUSY = 0) (hc : c < 100)
    (ha : (coreAt s c).st = .active) :
    mxeCoreRetire s c =
      if activeCores s ≤ 1 ∧ coresIn s .spare = 0 then coreCmdEnd (coreCmdRuns s false c) St.MXE_CORE_BUSY
      else modCore (coreCmdRuns s false c) c (fun y => { y with leaving := true }) := by
  unfold mxeCoreRetire
  rw [coreCmdBegin_starts hl hb hc]
  exact if_pos ha

/-- A SPARE retires at once (R174). -/
theorem mxeCoreRetire_spare (hl : rd s F.SEC_PROT_LOCK_LOCK = 1) (hb : rd s F.MXE_CORE_CMD_STAT_BUSY = 0) (hc : c < 100)
    (hs : (coreAt s c).st = .spare) :
    mxeCoreRetire s c = coreCmdEnd (addRetire (bump (modCore (coreCmdRuns s false c) c
      (fun y => { y with st := .retired, takes := none })) F.MXE_RETIRE_CNT_COUNT) 1 c 0) St.OK := by
  unfold mxeCoreRetire
  rw [coreCmdBegin_starts hl hb hc]
  simp only [coreAt_coreCmdRuns, hs, reduceCtorEq, if_false]

theorem coreSelftestDone_passes (hu : isUp s = true) (ht : (coreAt s c).st = .test) :
    coreSelftestDone s c true = modCore s c (fun x => { x with st := .rejoin }) := by
  unfold coreSelftestDone
  rw [whenUp_up hu, if_neg (by simp [ht]), if_pos rfl]

/-- A self-test that fails ends the command that asked for it (R174). -/
theorem coreSelftestDone_fails (hu : isUp s = true) (ht : (coreAt s c).st = .test) (hc : s.mxe.cmd = some (true, c)) :
    coreSelftestDone s c false = recordRetire (coreCmdEnd (modCore s c (fun x => { x with st := .retired })) St.MXE_SELFTEST_FAIL)
      St.MXE_SELFTEST_FAIL ⟨1, c⟩ 0 := by
  have asked : (modCore s c (fun x => { x with st := .retired })).mxe.cmd = some (true, c) := hc
  unfold coreSelftestDone
  rw [whenUp_up hu, if_neg (by simp [ht]), if_neg (by decide)]
  simp only [asked, if_true]

end

/-- Settles O14: the command begins, and then does what the core's state asks for. -/
theorem coreCommands : Obligations.CoreCommands := by
  refine ⟨?_, ?_, ?_, ?_, ?_, ?_⟩
  · exact fun s c hl hb hc hr => congrArg Host.Outcome.next (mxeCoreTest_retired hl hb hc hr)
  · exact fun s c hl hb => ⟨fun hc => congrArg Host.Outcome.next (coreCmdBegin_noCore hl hb hc),
      fun hc hr => congrArg Host.Outcome.next (mxeCoreTest_inService hl hb hc hr)⟩
  · intro s c hl hb hc ha hleft
    have left : ¬ (activeCores s ≤ 1 ∧ coresIn s .spare = 0) := by omega
    exact congrArg Host.Outcome.next ((mxeCoreRetire_active hl hb hc ha).trans (if_neg left))
  · exact fun s c hl hb hc hs => congrArg Host.Outcome.next (mxeCoreRetire_spare hl hb hc hs)
  · exact fun s c hl hb hc ha h1 h0 => congrArg Host.Outcome.next ((mxeCoreRetire_active hl hb hc ha).trans (if_pos ⟨h1, h0⟩))
  · exact fun s c hu ht => ⟨congrArg Host.Outcome.next (coreSelftestDone_passes hu ht),
      fun hc => congrArg Host.Outcome.next (coreSelftestDone_fails hu ht hc)⟩

end Sys2Proof.Engines
end

section
/-! Commands of the key/value pool: rows appended (R211, R213), the age (R217), eviction, demotion and promotion (R218 to R221),
the pool itself (R206). -/

namespace Sys2Proof.KvPages

open Sys2Proof Sys2Proof.Machine Sys2Proof.Laws Sys2Proof.HostPort

/-! ### Rows appended (R211, R213) -/

section
variable {s : State} {a : AppendBatch} {root : Root} {r : Req}

/-- Rows of a request with a live lease, whose pages this step has mapped, are written, after the bases of their pages. -/
theorem appendRows_writes (hu : isUp s = true) (hroot : tget s.kva.roots a.req = some root) (hr : reqOf s a.req = some r)
    (hskip : a.req ∉ s.kva.skip) (hlease : root.lease ≠ 0) (hlive : leaseLive s a.req = true)
    (hmapped : s.kva.mapped.any (fun k => pageReq k == a.req && pageStandin k == a.standin) = true) :
    appendRows s a = (List.range a.keys.length).foldl
      (fun u i => appendRow u a (modelDim u (if a.standin = true then r.standin.getD r.model else r.model)) i)
      ((((List.range a.keys.length).map (fun i => (a.pos + i) / 256)).dedup).foldl (fun u i => choosePageBases u a i) s) := by
  have wanted : s.kva.skip.contains a.req = false := by simpa using hskip
  have leased : (!reshootHere s a.req && (root.lease == 0 || !leaseLive s a.req)) = false := by simp [hlease, hlive]
  unfold appendRows
  rw [whenUp_up hu]
  simp only [hroot, hr, wanted, leased, hmapped, Bool.false_eq_true, if_false, if_true]

/-- Without a live lease, and with no reshoot here, the rows are refused. -/
theorem appendRows_refuses (hu : isUp s = true) (hroot : tget s.kva.roots a.req = some root) (hr : reqOf s a.req = some r)
    (hskip : a.req ∉ s.kva.skip) (hhere : reshootHere s a.req = false) (hlease : root.lease = 0 ∨ leaseLive s a.req = false) :
    appendRows s a = leaseStale s a.req := by
  have wanted : s.kva.skip.contains a.req = false := by simpa using hskip
  have stale : (!reshootHere s a.req && (root.lease == 0 || !leaseLive s a.req)) = true := by simpa [hhere] using hlease
  unfold appendRows
  rw [whenUp_up hu]
  simp only [hroot, hr, wanted, stale, Bool.false_eq_true, if_false, if_true]

/-- The event of a refused append names the request's context (R213). -/
theorem leaseStale_of {req : Nat} (hr : reqOf s req = some r) :
    leaseStale s req = askHome (bump (openEvent (modReq { s with kva := { s.kva with skip := s.kva.skip ++ [req] } }
      req (fun q => { q with doubt := true })) .error St.KVA_LEASE_STALE noUnit req r.key.ctx) F.KVA_REFUSE_CNT_COUNT) req := by
  unfold leaseStale
  rw [hr]
  rfl

end

/-! ### Age (R217) -/

theorem kvaAgeTick_up {s : State} (hu : isUp s = true) : kvaAgeTick s = if role s = 3 then advanceAge s else s := whenUp_up hu

/-! ### Eviction (R218 to R220) -/

section
variable {s : State} {c : Nat}

theorem eviction_of_class (hu : isUp s = true) (hc : c < 4) : eviction s c = evictClass s c := (whenUp_up hu).trans (if_pos hc)

theorem evictClass_of_enough (hb : belowLow s c = false) : evictClass s c = s := if_pos (.inr hb)

/-- A class below LOW of an enabled pool evicts. -/
theorem evictClass_of_low (he : rd s F.KVA_POOL_CTL_EN ≠ 0) (hb : belowLow s c = true) :
    evictClass s c =
      if role s = 3 then
        ((withPages ((evictable s c).take (evictCount s c))).take
          (evictCount s c - (s.kva.demoting.filter (fun e => e.1 / 2 ^ 30 == c)).length)).foldl (fun u p => startDemotion u p.1 p.2) s
      else
        (chunks 32 (withPages ((evictable s c).take (evictCount s c))).length
          (withPages ((evictable s c).take (evictCount s c)))).foldl dropTake s :=
  if_neg (by simp [he, hb])

end

/-! ### Demotion (R218, R220) -/

section
variable {s : State} {f flashAddr k : Nat} {x : Frame}

/-- The state in which no demotion of the frame is under way. -/
def demotionOver (s : State) (f : Nat) : State := { s with kva := { s.kva with demoting := tdel s.kva.demoting f } }

/-- The local take that moves the entry of page `k` from frame `f` to flash (R220). -/
def demoteActs (e : Pte) (f flashAddr k : Nat) : List Action :=
  [⟨0, pageObj k, .ptMap e.version 0 none (nextVersion e) (pteFlags 2 e.cls e.kv4)⟩,
   ⟨0, pageObj k, .putEntry (mkWord [(0, 36, flashAddr), (36, 8, e.kb), (44, 8, e.vb)])⟩, ⟨0, frameObj f, .free⟩]

/-- A record that reached flash moves its page there, unless a read meanwhile has given the frame the present age. -/
theorem demoteWriteDone_written (hu : isUp s = true) (hk : tget s.kva.demoting f = some k) (hx : tget s.kva.frames f = some x) :
    demoteWriteDone s f flashAddr true =
      if kvaAge s ≤ x.stamp then bump (demotionOver s f) F.TAK_ABORT_CNT_COUNT
      else
        let l := runLocal (demotionOver s f) .block .plain (demoteActs (pteOf (demotionOver s f) k) f flashAddr k)
        if l.2.committed = true then bump (bump l.1 F.KVA_EVICT_CNT_COUNT) F.KVA_DEMOTE_CNT_COUNT else l.1 := by
  unfold demoteWriteDone
  rw [whenUp_up hu]
  simp only [hk, hx, Bool.not_true, Bool.false_eq_true, if_false, Option.elim_some]
  rfl

end

/-! ### Promotion (R221) -/

section
variable {s : State} {page : PageKey} {bytes : List Byte}

/-- The local take that maps page `k` from flash to a frame of its class (R221). -/
def promoteActs (e : Pte) (k : Nat) : List Action :=
  [⟨0, ⟨kFrame, 0, 0⟩, .alloc e.cls⟩, ⟨0, pageObj k, .ptMap e.version 0 (some 0) (nextVersion e) (pteFlags 1 e.cls e.kv4)⟩,
   ⟨0, pageObj k, .putEntry (mkWord [(36, 8, e.kb), (44, 8, e.vb)])⟩]

theorem pagePromote_maps {u : State} {r : Local} (hu : isUp s = true) (he : (pteOf s (keyOfPage page)).state = 2)
    (hroom : aboveLow s (pteOf s (keyOfPage page)).cls = true)
    (ht : runLocal s .block .plain (promoteActs (pteOf s (keyOfPage page)) (keyOfPage page)) = (u, r)) (hc : r.committed = true) :
    pagePromote s page true bytes =
      writeMem (writeMem u (frameAddr u (pteOf u (keyOfPage page)).frame) (bytes.take (frameSize (pteOf s (keyOfPage page)).cls)))
        (scaleAddr u (pteOf u (keyOfPage page)).frame) ((bytes.drop (frameSize (pteOf s (keyOfPage page)).cls)).take 2048) := by
  unfold promoteActs at ht
  unfold pagePromote
  rw [whenUp_up hu]
  simp only [he, hroom, ht, hc, ne_eq, not_true_eq_false, Bool.not_true, Bool.false_eq_true, if_false, if_true]

theorem pagePromote_unreadable (hu : isUp s = true) (he : (pteOf s (keyOfPage page)).state = 2) :
    pagePromote s page false bytes = losePage s (keyOfPage page) := by
  unfold pagePromote
  rw [whenUp_up hu]
  simp only [he, ne_eq, not_true_eq_false, Bool.not_false, if_false, if_true]

theorem pagePromote_noRoom (hu : isUp s = true) (he : (pteOf s (keyOfPage page)).state = 2)
    (hroom : aboveLow s (pteOf s (keyOfPage page)).cls = false) : pagePromote s page true bytes = s := by
  unfold pagePromote
  rw [whenUp_up hu]
  simp only [he, hroom, ne_eq, not_true_eq_false, Bool.not_true, Bool.not_false, Bool.false_eq_true, if_false, if_true]

end

/-! ### The pool (R206) -/

section
variable {s : State} {w : Word}

/-- A write of EN = 1 to a pool that is disabled takes SCALE_BASE, and enables the pool where its regions are in order. -/
theorem poolEnable_disabled (hl : rd s F.SEC_PROT_LOCK_LOCK = 1) (hw : bit w 63 = true) (he : rd s F.KVA_POOL_CTL_EN = 0) :
    poolEnable s w =
      if poolOk (wr s F.KVA_POOL_CTL_SCALE_BASE_MIB (bits w 19 0)) = true then
        wr (wr { wr s F.KVA_POOL_CTL_SCALE_BASE_MIB (bits w 19 0) with kva := { s.kva with frames := [] } } F.KVA_POOL_CTL_EN 1)
          F.KVA_POOL_CTL_ERR 0
      else wr (wr s F.KVA_POOL_CTL_SCALE_BASE_MIB (bits w 19 0)) F.KVA_POOL_CTL_ERR 1 := by
  unfold poolEnable
  rw [ofForm_of hw, bar0_locked hl, if_neg (by simp [he])]
  rfl

theorem poolEnable_enabled (hl : rd s F.SEC_PROT_LOCK_LOCK = 1) (hw : bit w 63 = true) (he : rd s F.KVA_POOL_CTL_EN = 1) :
    poolEnable s w = s := by
  unfold poolEnable
  rw [ofForm_of hw, bar0_locked hl, if_pos he]

/-- A write of EN = 0 to an enabled pool disables it, unless a frame is allocated. -/
theorem poolDisable_enabled (hl : rd s F.SEC_PROT_LOCK_LOCK = 1) (hw : bit w 63 = false) (he : rd s F.KVA_POOL_CTL_EN = 1) :
    poolDisable s w = if s.kva.frames.isEmpty = true then wr s F.KVA_POOL_CTL_EN 0 else s := by
  unfold poolDisable
  rw [ofForm_of (by simp [hw]), bar0_locked hl, if_neg (by simp [he])]

end

end Sys2Proof.KvPages
end

section
/-! Drop notices and reshoots (R223, R226), and with them the commands of the pool's pages. -/

namespace Sys2Proof.KvPages

open Sys2Proof Sys2Proof.Machine Sys2Proof.Laws Sys2Proof.HostPort

section
variable {s : State} {req : Nat}

/-! ### Drop notices (R223) -/

theorem dropNotice_leader {src highest count : Nat} {lost : Bool} (hu : isUp s = true) (hl : leadsFor s req = true) :
    dropNotice s src req highest count lost = takeNotice s src req highest count lost := (whenUp_up hu).trans (if_pos hl)

/-- The state in which the leader has a request's first notice, and holds the request. -/
def firstNotice (s : State) (src req highest count : Nat) (lost : Bool) : State :=
  modReq { s with kva := { s.kva with notices := tset s.kva.notices req [(src, ⟨highest, count, lost⟩)] } } req
    (fun q => { q with dropped := true })

theorem takeNotice_first {src highest count : Nat} {lost : Bool} {r : Req} (hr : reqOf s req = some r)
    (hn : noticesOf s req = []) (hc : count ≠ 0) :
    takeNotice s src req highest count lost =
      if tgetD (firstNotice s src req highest count lost).kva.announced req 0 < reshootEnd (firstNotice s src req highest count lost) req ∧
          thas (firstNotice s src req highest count lost).kva.reshoots req = false
        then reshootEvent (firstNotice s src req highest count lost) req else firstNotice s src req highest count lost := by
  have first : tget ([] : Tbl Notice) src = none := rfl
  have table : ∀ n : Notice, tset [] src n = [(src, n)] := fun _ => rfl
  unfold takeNotice
  simp only [hr, hn, first, table, hc, Option.getD_none, Nat.max_zero, Bool.or_false, List.isEmpty_cons, Bool.not_false,
    Bool.false_eq_true, if_false]
  rfl

/-! ### The request for a reshoot (R226) -/

section
variable {inCount origin flight : Nat}

theorem checkReshoot_none (he : reshootEnd s req = 0) :
    checkReshoot s req inCount origin flight = answerReshoot s origin flight St.KVA_NO_RESHOOT 0 := if_pos he

theorem checkReshoot_busy (he : reshootEnd s req ≠ 0) (hb : thas s.kva.reshoots req = true) :
    checkReshoot s req inCount origin flight = answerReshoot s origin flight St.KVA_RESHOOT_BUSY 0 :=
  (if_neg he).trans (if_pos hb)

/-- With a reshoot due and none running, IN_COUNT must be END. -/
theorem checkReshoot_due (he : reshootEnd s req ≠ 0) (hb : thas s.kva.reshoots req = false) :
    checkReshoot s req inCount origin flight =
      if inCount ≠ reshootEnd s req then answerReshoot s origin flight St.KVA_RESHOOT_RANGE 0
      else { s with kva := { s.kva with reshoots := tset s.kva.reshoots req ⟨inCount, origin, flight⟩ } } :=
  (if_neg he).trans (if_neg (by simp [hb]))

/-- The leader checks a request for a reshoot, asks the other members and begins its own repair. -/
theorem reshootRequest_leader (hu : isUp s = true) (hl : leadsFor s req = true) (hb : thas s.kva.reshoots req = false) :
    reshootRequest s req inCount origin flight =
      if thas (checkReshoot s req inCount origin flight).kva.reshoots req = true then
        beginRepair (((servers s (groupOf s req)).filter (fun n => n != self s)).foldl (fun u n =>
          send u n 0 .reshootAsk [at' 0 48 req, mkWord [(0, 23, inCount), (32, 20, origin)], BitVec.ofNat 64 flight])
          (checkReshoot s req inCount origin flight)) req origin
      else checkReshoot s req inCount origin flight := by
  unfold reshootRequest
  rw [whenUp_up hu, if_pos hl]
  cases hc : thas (checkReshoot s req inCount origin flight).kva.reshoots req <;> simp [hb, hc]

theorem reshootRequest_member (hu : isUp s = true) (hl : leadsFor s req = false) :
    reshootRequest s req inCount origin flight = beginRepair s req origin := by
  unfold reshootRequest
  rw [whenUp_up hu, if_neg (by simp [hl])]

end

/-! ### The end of a reshoot (R226) -/

/-- A reshoot with no entry missing below its END is over at the leader. -/
theorem reshootComplete_leader {r : Reshoot} (hu : isUp s = true) (hr : tget s.kva.reshoots req = some r)
    (hm : ∀ e ∈ missing s req, r.upto ≤ pageStart e.1) : reshootComplete s req none = finishReshoot s req r := by
  have repaired : (missing s req).any (fun e => decide (pageStart e.1 < r.upto)) = false := by
    simpa only [List.any_eq_false, decide_eq_true_eq, Nat.not_lt] using hm
  unfold reshootComplete
  rw [whenUp_up hu]
  simp only [hr, repaired, Bool.false_eq_true, if_false]

/-- The leader's answer to the last REQ_RELEASE for the request returns its pages and its record here. -/
theorem reshootComplete_asker {a : ReshootEnd} (hu : isUp s = true) (ha : thas s.kva.asks a.flight = true)
    (hh : reshootHere (answerReshoot s (self s) a.flight a.status a.repaired) req = false) :
    reshootComplete s req (some a) =
      let u := freePages (answerReshoot s (self s) a.flight a.status a.repaired) req
      { u with sch := { u.sch with reqs := tdel u.sch.reqs req } } := by
  unfold reshootComplete
  rw [whenUp_up hu]
  simp only [ha, hh, Bool.false_eq_true, if_false, if_true]

end

/-- Settles O15: what each command does in the case that its clause names, by the lemma of that case. -/
theorem pageCommands : Obligations.PageCommands := by
  refine ⟨?_, ?_, ?_, ?_, ?_, ?_, ?_, ?_, ?_, ?_, ?_, ?_, ?_, ?_, ?_, ?_, ?_, ?_, ?_, ?_⟩
  · exact fun s a root r hu hroot hr hskip hlease hlive hm => next_settle (appendRows_writes hu hroot hr hskip hlease hlive hm)
  · exact fun s a root r hu hroot hr hskip hhere hlease =>
      next_settle ((appendRows_refuses hu hroot hr hskip hhere hlease).trans (leaseStale_of hr))
  · exact fun s hu => ⟨fun h => congrArg Host.Outcome.next ((kvaAgeTick_up hu).trans (if_pos h)),
      fun h => congrArg Host.Outcome.next ((kvaAgeTick_up hu).trans (if_neg h))⟩
  · exact fun s c hu hc hr he hb =>
      next_settle ((eviction_of_class hu hc).trans ((evictClass_of_low he hb).trans (if_neg hr)))
  · exact fun s c hu hc hr he hb =>
      next_settle ((eviction_of_class hu hc).trans ((evictClass_of_low he hb).trans (if_pos hr)))
  · exact fun s c hu hc hb => next_settle ((eviction_of_class hu hc).trans (evictClass_of_enough hb))
  · exact fun s f flashAddr k x hu hk hx ha =>
      next_settle ((demoteWriteDone_written hu hk hx).trans (if_neg (Nat.not_le.2 ha)))
  · exact fun s f flashAddr k x hu hk hx ha => next_settle ((demoteWriteDone_written hu hk hx).trans (if_pos ha))
  · exact fun s u page bytes r hu he hroom ht hc => next_settle (pagePromote_maps hu he hroom ht hc)
  · exact fun s page bytes hu he =>
      ⟨next_settle (pagePromote_unreadable hu he), fun hroom => next_settle (pagePromote_noRoom hu he hroom)⟩
  · exact fun s src req highest count lost hu hl => next_settle (dropNotice_leader hu hl)
  · exact fun s src req highest count lost r hr hn hc => takeNotice_first hr hn hc
  · exact fun s req inCount origin flight hu hl hb => next_settle (reshootRequest_leader hu hl hb)
  · exact fun s req inCount origin flight hu hl => next_settle (reshootRequest_member hu hl)
  · exact fun s req inCount origin flight => ⟨checkReshoot_none, checkReshoot_busy,
      fun he hb hi => (checkReshoot_due he hb).trans (if_pos hi),
      fun he hb hi => (checkReshoot_due he hb).trans (if_neg (not_not.2 hi))⟩
  · exact fun s req r hu hr hm => next_settle (reshootComplete_leader hu hr hm)
  · exact fun s req a hu ha hh => next_settle (reshootComplete_asker hu ha hh)
  · exact fun s w hl hw he hok => congrArg Host.Outcome.next ((poolEnable_disabled hl hw he).trans (if_pos hok))
  · exact fun s w hl hw =>
      ⟨fun he hok => congrArg Host.Outcome.next ((poolEnable_disabled hl hw he).trans (if_neg (by simp [hok]))),
        fun he => congrArg Host.Outcome.next (poolEnable_enabled hl hw he)⟩
  · exact fun s w hl hw he =>
      ⟨fun hf => congrArg Host.Outcome.next ((poolDisable_enabled hl hw he).trans (if_pos (List.isEmpty_iff.2 hf))),
        fun hf => congrArg Host.Outcome.next ((poolDisable_enabled hl hw he).trans (if_neg (mt List.isEmpty_iff.1 hf)))⟩

end Sys2Proof.KvPages
end

section
/-! A row at the members and at its sampling home: the pass over the logits (R260 to R264, R272), both rounds (R265 to R267) and the
result (R216). -/

namespace Sys2Proof.Sampler

open Sys2Proof Sys2Proof.Machine Sys2Proof.Laws Sys2Proof.HostPort

/-! ### The slice's pass (R260 to R263, R272) -/

section
variable {s : State} {req node home : Nat} {r : Req} {logits : List (BitVec 32)}

/-- First token of this controller's slice for a request's row. -/
def rowFirst (s : State) (req : Nat) (r : Req) : Nat := sliceFirst (modelVocab s (stepModel s req r)) (groupSize s) (ownSlot s)

/-- The slice's logits as L16 codes, each with whether it raises NUMERIC (R260). -/
def rowConv (s : State) (req : Nat) (r : Req) (logits : List (BitVec 32)) : List (Nat × Bool) :=
  (logits.take (sliceLen (modelVocab s (stepModel s req r)) (groupSize s) (ownSlot s))).map logitCode

/-- NUMERIC is raised where a logit of the row raised it (R260). -/
def convNoted (s : State) (req : Nat) (conv : List (Nat × Bool)) : State :=
  if conv.any (fun c => c.2) = true then raiseNumeric s req 0x08E0 else s

/-- The row's codes after the penalties (R263 steps 2 to 4). -/
def rowPenalised (s : State) (req node : Nat) (r : Req) (conv : List (Nat × Bool)) : List Nat :=
  let path := (treePath r.param 64 node).map (fun t => (treeTokens s req).getD t 0)
  (conv.map (fun c => c.1)).zipIdx.map (fun c =>
    penalise r.param (countOf (tgetD s.smp.counts req []) c.2 + (path.filter (fun x => x == rowFirst s req r + c.2)).length) c.1)

/-- The state in which this slice has kept no candidates of the heads for a row. -/
def noHeads (s t : State) (req node : Nat) : State :=
  { t with smp := { t.smp with
    heads := tset t.smp.heads (smpRow req node) (tset (tgetD t.smp.heads (smpRow req node) []) (ownSlot s) ⟨[]⟩) } }

theorem samplerPass_guard (hskip : req ∉ s.kva.skip) (hnode : node < treeSize s req r) :
    (s.kva.skip.contains req || decide (treeSize s req r ≤ node)) = false := by
  simp [hskip, hnode]

/-- A greedy row, without heads, sends its draw at once. -/
theorem samplerPass_greedy (hu : isUp s = true) (hr : reqOf s req = some r) (hh : samplingHome s req = some home)
    (hskip : req ∉ s.kva.skip) (hnode : node < treeSize s req r) (hm : r.sampleMode = 0) (ht : pInvTemp r.param = 0) :
    samplerPass s req node logits [] =
      sendDraw (noHeads s (convNoted s req (rowConv s req r logits)) req node) req node
        (sliceGreedy (rowFirst s req r) (rowPenalised s req node r (rowConv s req r logits))) := by
  unfold samplerPass
  rw [whenUp_up hu]
  simp only [hr, hh, samplerPass_guard hskip hnode, hm, ht, Bool.false_eq_true, OfNat.zero_ne_ofNat, zero_ne_one, if_false, if_true]
  rfl

/-- A RAW row sends its codes to the host. -/
theorem samplerPass_raw {heads : List (List (BitVec 32))} (hu : isUp s = true) (hr : reqOf s req = some r)
    (hh : samplingHome s req = some home) (hskip : req ∉ s.kva.skip) (hnode : node < treeSize s req r) (hm : r.sampleMode = 2) :
    samplerPass s req node logits heads =
      sendLogits (convNoted s req (rowConv s req r logits)) r req (rowFirst s req r)
        ((rowConv s req r logits).map (fun c => c.1)) := by
  unfold samplerPass
  rw [whenUp_up hu]
  simp only [hr, hh, samplerPass_guard hskip hnode, hm, Bool.false_eq_true, if_false, if_true]
  rfl

end

/-! ### Round A (R265, R266) -/

/-- What the home has gathered for a row: nothing before the first summary or draw. -/
def rowAt (s : State) (k : Nat) : SmpRow := (tget s.smp.rows k).getD ⟨[], none, []⟩

section
variable {s : State} {slot req node : Nat} {words : List Word} {r : Req}

/-- The state in which the home holds a row's summaries. -/
def summariesHeld (s : State) (k : Nat) (sums : Tbl (List Word)) : State :=
  { s with smp := { s.smp with rows := tset s.smp.rows k { rowAt s k with summaries := sums } } }

/-- The state in which the home has a row's threshold, and V_cut's uses are counted. -/
def thresholdHeld (s : State) (k : Nat) (sums : Tbl (List Word)) (th : Nat × Nat) : State :=
  bumpBy { s with smp := { s.smp with rows := tset s.smp.rows k { rowAt s k with summaries := sums, theta := some th.1 } } }
    F.SMP_WIDE_CNT_COUNT th.2

/-- The threshold goes to the other members that serve the request, and is taken here. -/
def returnThreshold (s : State) (req node theta : Nat) : State :=
  applyThreshold (((slotMembers s req).filter (fun n => n != self s)).foldl (fun u n =>
    send u n 1 .threshold [mkWord [(0, 48, req), (48, 6, node)], at' 0 16 theta]) s) req node theta

/-- A summary at the home is kept until every slot's is in; then the threshold returns. -/
theorem roundASummary_atHome (hu : isUp s = true) (hreq : bits (wordAt words 0) 47 0 = req) (hnode : bits (wordAt words 0) 53 48 = node)
    (hr : reqOf s req = some r) (hh : samplingHome s req = some (self s)) :
    roundASummary s slot words =
      let sums := tset (rowAt s (smpRow req node)).summaries slot words
      if sums.length < groupSize s then summariesHeld s (smpRow req node) sums
      else returnThreshold (thresholdHeld s (smpRow req node) sums (threshold r.param (tvals sums))) req node
        (threshold r.param (tvals sums)).1 := by
  subst hreq hnode
  unfold roundASummary takeSummary
  rw [whenUp_up hu]
  simp only [hr, hh, bne_self_eq_false, Bool.false_eq_true, if_false]
  rfl

/-- A threshold at a slice that keeps the row's codes draws among them (R267). -/
theorem applyThreshold_draws {theta : Nat} {codes : List Nat} (hr : reqOf s req = some r)
    (hc : tget s.smp.codes (smpRow req node) = some codes) :
    applyThreshold s req node theta =
      sendDraw { s with smp := { s.smp with codes := tdel s.smp.codes (smpRow req node) } } req node
        (sliceDraw r.param (drawPos r node) (rowFirst s req r) theta codes) := by
  unfold applyThreshold
  simp only [hr, hc]
  rfl

end

/-! ### Round B (R267, R269) -/

section
variable {s : State} {m : DrawMsg} {r : Req}

/-- The state in which the home has a slice's draw and its candidates of the heads. -/
def drawHeld (s : State) (m : DrawMsg) : State :=
  { s with smp := { s.smp with
    rows := tset s.smp.rows (smpRow m.req m.node) { rowAt s (smpRow m.req m.node) with
      draws := tset (rowAt s (smpRow m.req m.node)).draws m.slot (if m.kept = true then some (m.token, m.g) else none) }
    heads := tset s.smp.heads (smpRow m.req m.node) (tset (tgetD s.smp.heads (smpRow m.req m.node) []) m.slot ⟨m.heads⟩) } }

/-- Draws of a tree's row that the home has. -/
def drawsOf (s : State) (req t : Nat) : Tbl (Option (Nat × Nat)) := (tget s.smp.rows (smpRow req t)).elim [] (fun x => x.draws)

/-- Every slot's draw of every row is in. -/
def allDrawn (s : State) (req : Nat) (r : Req) : Bool :=
  (List.range (treeSize s req r)).all (fun t => (drawsOf s req t).length == groupSize s)

theorem allDrawn_iff (s : State) (req : Nat) (r : Req) :
    allDrawn s req r = true ↔ ∀ t, t < treeSize s req r → (drawsOf s req t).length = groupSize s := by
  simp only [allDrawn, List.all_eq_true, List.mem_range, beq_iff_eq]

/-- A draw at the home is kept until every draw is in; then the tree is walked. -/
theorem roundBDraw_atHome (hu : isUp s = true) (hr : reqOf s m.req = some r) (hh : samplingHome s m.req = some (self s)) :
    roundBDraw s m = if allDrawn (drawHeld s m) m.req r = true then verifyWalk (drawHeld s m) m.req r else drawHeld s m := by
  unfold roundBDraw takeDraw
  rw [whenUp_up hu]
  simp only [hr, hh, bne_self_eq_false, Bool.false_eq_true, if_false]
  rfl

end

/-! ### The result at a member (R216, R271) -/

section
variable {s : State} {m : VerifyMsg}

theorem applyVerify_unknown (hr : reqOf s m.req = none) : applyVerify s m = s := by
  unfold applyVerify
  rw [hr]

/-- A request that commits nothing here in this step is left as it was. -/
theorem applyVerify_skipped (hk : m.req ∈ s.kva.skip) : applyVerify s m = s := by
  cases hr : reqOf s m.req with
  | none => exact applyVerify_unknown hr
  | some r =>
    unfold applyVerify
    rw [hr]
    exact if_pos (List.contains_iff_mem.2 hk)

end

end Sys2Proof.Sampler
end

section
/-! Results reported (R443), delivered (R75, R269) and chosen by the host (R272), and with them the commands of the sampler. -/

namespace Sys2Proof.Sampler

open Sys2Proof Sys2Proof.Machine Sys2Proof.Laws Sys2Proof.HostPort

/-! ### Reports (R443) -/

section
variable {s : State} {src step req : Nat} {x : SmpResult} {r : Req}

/-- With the report of `src`, every member that serves the request has reported its result. -/
def allReported (s : State) (req src : Nat) (x : SmpResult) : Bool :=
  (slotMembers s req).all (fun n => (x.reported ++ [src]).contains n)

theorem allReported_iff (s : State) (req src : Nat) (x : SmpResult) :
    allReported s req src x = true ↔ ∀ n ∈ slotMembers s req, n ∈ x.reported ∨ n = src := by
  simp only [allReported, List.all_eq_true, List.contains_iff_mem, List.mem_append, List.mem_singleton]

theorem noteReport_waits (hx : tget s.smp.results req = some x) (hr : reqOf s req = some r) (hs : x.step = step)
    (hsrc : src ∉ x.reported) (ha : allReported s req src x = false) :
    noteReport s src step req =
      { s with smp := { s.smp with results := tset s.smp.results req { x with reported := x.reported ++ [src] } } } := by
  have new : x.reported.contains src = false := by simpa using hsrc
  unfold allReported at ha
  unfold noteReport
  simp only [hx, hr, hs, new, ha, ne_eq, not_true_eq_false, Bool.false_eq_true, if_false]

/-- The last report of a result that does not end the request releases its tokens. -/
theorem noteReport_delivers (hx : tget s.smp.results req = some x) (hr : reqOf s req = some r) (hs : x.step = step)
    (hsrc : src ∉ x.reported) (ha : allReported s req src x = true) (hf : x.final = none) :
    noteReport s src step req = deliver { s with smp := { s.smp with results := tdel s.smp.results req } } r.origin
      ⟨req, true, x.pos, x.tokens, x.late, false, x.numeric, []⟩ := by
  have new : x.reported.contains src = false := by simpa using hsrc
  unfold allReported at ha
  unfold noteReport
  simp only [hx, hr, hs, new, ha, hf, ne_eq, not_true_eq_false, Option.isSome_none, Bool.false_eq_true, if_false, if_true]

end

/-! ### Delivery (R75, R76, R269) -/

/-- Tokens for a posted request are written; then comes the final record, or the position's, and the REQ_CANCELs it ends. -/
theorem tokenDelivery_writes {s : State} {m : DeliveryMsg} {p : Post} {f : Flight} (hu : isUp s = true)
    (hp : tget s.hpt.posts m.req = some p) (hf : tget s.hpt.flight p.flight = some f) (hrec : m.record = true) :
    tokenDelivery s m =
      let s1 := writeTokens s p m.pos m.late m.tokens
      endCancels (if m.final = true then complete { s1 with hpt := { s1.hpt with posts := tdel s1.hpt.posts m.req } } p.flight m.status
          (posWord m.pos m.tokens.length) (postDetail p.flight m.pos) m.late
        else postRecord s1 p.flight f m.status m.pos m.tokens.length m.late false) m.cancels := by
  unfold tokenDelivery applyDelivery
  rw [whenUp_up hu]
  simp only [hp, hf, hrec, Bool.not_true, Bool.false_eq_true, if_false]
  exact (apply_ite (fun t => endCancels t m.cancels) ..).symm

/-! ### Logits to the host (R272) -/

section
variable {s : State} {req position slot nslots first : Nat} {codes : List (BitVec 16)} {p : Post} {f : Flight}

/-- Bytes of a logit in LOGIT_FMT. -/
def logitWidth (p : Post) : Nat := if pLogitF32 p.param then 4 else 2

/-- A slice's codes as bytes in LOGIT_FMT. -/
def logitBytes (p : Post) (codes : List (BitVec 16)) : List Byte :=
  codes.flatMap (fun c => if pLogitF32 p.param then natBytes 4 (codeLogit c.toNat).toNat else natBytes 2 c.toNat)

/-- What is sent for the first slice of a position: the output entry cleared, and the slice's logits. -/
def firstSlice (p : Post) (position first : Nat) (codes : List (BitVec 16)) : List Output :=
  [.hostWrite (p.outAddr + 4 * (position % 2 ^ p.outLog2)) [0, 0, 0, 0],
    .hostWrite (pLogitAddr p.param + first * logitWidth p) (logitBytes p codes)]

theorem firstSlice_l16 (hp : pLogitF32 p.param = false) (position first : Nat) (codes : List (BitVec 16)) :
    firstSlice p position first codes =
      [.hostWrite (p.outAddr + 4 * (position % 2 ^ p.outLog2)) [0, 0, 0, 0],
        .hostWrite (pLogitAddr p.param + first * 2) (codes.flatMap (fun c => natBytes 2 c.toNat))] := by
  simp only [firstSlice, logitWidth, logitBytes, hp, Bool.false_eq_true, if_false]

theorem firstSlice_f32 (hp : pLogitF32 p.param = true) (position first : Nat) (codes : List (BitVec 16)) :
    firstSlice p position first codes =
      [.hostWrite (p.outAddr + 4 * (position % 2 ^ p.outLog2)) [0, 0, 0, 0],
        .hostWrite (pLogitAddr p.param + first * 4) (codes.flatMap (fun c => natBytes 4 (codeLogit c.toNat).toNat))] := by
  simp only [firstSlice, logitWidth, logitBytes, hp, if_true]

/-- The first slice of a position is written, and is the last where the position has only one. -/
theorem logitSlice_first (hu : isUp s = true) (hp : tget s.hpt.posts req = some p) (hf : tget s.hpt.flight p.flight = some f)
    (hs : tgetD s.smp.slices req [] = []) :
    logitSlice s req position slot nslots first codes =
      if 1 < nslots then { s with
        smp := { s.smp with slices := tset s.smp.slices req [slot] }
        out := s.out ++ firstSlice p position first codes }
      else postRecord { s with
        smp := { s.smp with slices := tdel s.smp.slices req, choices := tset s.smp.choices req position }
        out := s.out ++ firstSlice p position first codes } p.flight f St.OK position 0 false true := by
  have sent : emit (emit s (.hostWrite (p.outAddr + 4 * (position % 2 ^ p.outLog2)) [0, 0, 0, 0]))
      (.hostWrite (pLogitAddr p.param + first * logitWidth p) (logitBytes p codes)) =
      emits s (firstSlice p position first codes) := by
    simp only [emit, emits, firstSlice, List.append_assoc, List.singleton_append]
  unfold logitWidth logitBytes at sent
  unfold logitSlice
  rw [whenUp_up hu]
  simp only [hp, hf, hs, sent, List.isEmpty_nil, List.contains_nil, List.nil_append, List.length_singleton, Bool.false_eq_true,
    if_false, if_true]
  rfl

end

/-! ### The host's choice (R272) -/

section
variable {s : State} {req : Nat} {entry : BitVec 32}

/-- A choice goes to the request where it is, or to its home. -/
theorem hostChoice_made (hu : isUp s = true) (hc : thas s.smp.choices req = true) (he : entry.toNat / 2 ^ 20 = 0x800) :
    hostChoice s req entry =
      let s1 : State := { s with smp := { s.smp with choices := tdel s.smp.choices req } }
      if thas s.sch.reqs req = true then applyChoice s1 req (entry.toNat % 2 ^ 20)
      else send s1 (homeOf s.dtm.map req) 0 .choice [at' 0 48 req, at' 0 20 (entry.toNat % 2 ^ 20)] := by
  unfold hostChoice
  rw [whenUp_up hu, if_pos (Bool.and_eq_true_iff.2 ⟨hc, beq_iff_eq.2 he⟩)]

theorem hostChoice_notMade (hu : isUp s = true) (he : entry.toNat / 2 ^ 20 ≠ 0x800) : hostChoice s req entry = s := by
  unfold hostChoice
  rw [whenUp_up hu, if_neg (fun h => he (beq_iff_eq.1 (Bool.and_eq_true_iff.1 h).2))]

end

/-- Settles O17: what each command does in the case that its clause names, by the lemma of that case. -/
theorem samplerCommands : Obligations.SamplerCommands := by
  refine ⟨?_, ?_, ?_, ?_, ?_, ?_, ?_, ?_, ?_, ?_, ?_, ?_, ?_, ?_, ?_⟩
  · exact fun s req node home r logits hu hr hh hskip hnode hm ht =>
      congrArg Host.Outcome.next (samplerPass_greedy hu hr hh hskip hnode hm ht)
  · exact fun s req node home r logits heads hu hr hh hskip hnode hm =>
      congrArg Host.Outcome.next (samplerPass_raw hu hr hh hskip hnode hm)
  · exact fun s slot words r hu hr hh hl =>
      congrArg Host.Outcome.next ((roundASummary_atHome hu rfl rfl hr hh).trans (if_pos hl))
  · exact fun s slot words r hu hr hh hl =>
      congrArg Host.Outcome.next ((roundASummary_atHome hu rfl rfl hr hh).trans (if_neg (Nat.not_lt.2 hl)))
  · exact fun s req node theta r codes hu hr hc =>
      congrArg Host.Outcome.next ((whenUp_up hu).trans (applyThreshold_draws hr hc))
  · refine fun s m r hu hr hh => ⟨fun ⟨t, ht, hne⟩ => ?_, fun hall => ?_⟩
    · have waits : ¬ allDrawn (drawHeld s m) m.req r = true := fun hd => hne ((allDrawn_iff ..).1 hd t ht)
      exact congrArg Host.Outcome.next ((roundBDraw_atHome hu hr hh).trans (if_neg waits))
    · exact congrArg Host.Outcome.next ((roundBDraw_atHome hu hr hh).trans (if_pos ((allDrawn_iff ..).2 hall)))
  · exact fun s m hu => ⟨next_settle (whenUp_up hu), applyVerify_skipped, applyVerify_unknown⟩
  · exact fun s src step reqs hu => next_settle (whenUp_up hu)
  · intro s src step req n x r hx hr hs hsrc hn hnot hne
    have waits : allReported s req src x = false :=
      Bool.eq_false_iff.2 fun hall => ((allReported_iff ..).1 hall n hn).elim hnot hne
    exact noteReport_waits hx hr hs hsrc waits
  · exact fun s src step req x r hx hr hs hsrc hall hf => noteReport_delivers hx hr hs hsrc ((allReported_iff ..).2 hall) hf
  · exact fun s m p f hu hp hf hrec => next_settle (tokenDelivery_writes hu hp hf hrec)
  · intro s req position slot nslots first codes p f hu hp hf hfmt hs hn
    rw [← firstSlice_l16 hfmt]
    exact congrArg Host.Outcome.next ((logitSlice_first hu hp hf hs).trans (if_pos hn))
  · intro s req position slot first codes p f hu hp hf hfmt hs
    rw [← firstSlice_f32 hfmt]
    exact congrArg Host.Outcome.next ((logitSlice_first hu hp hf hs).trans (if_neg (Nat.lt_irrefl 1)))
  · exact fun s req entry hu hc he => ⟨fun hq => congrArg Host.Outcome.next ((hostChoice_made hu hc he).trans (if_pos hq)),
      fun hq => congrArg Host.Outcome.next ((hostChoice_made hu hc he).trans (if_neg (by simp [hq])))⟩
  · exact fun s req entry hu he => congrArg Host.Outcome.next (hostChoice_notMade hu he)

end Sys2Proof.Sampler
end

section
/-! The commands of attention: passes (R240, R248), partial records and requests (R247, R249 to R251), bindings (R233) and profiles
(R234). -/

namespace Sys2Proof.Attention

open Sys2Proof Sys2Proof.Machine Sys2Proof.Laws Sys2Proof.HostPort

/-! ### Passes (R240, R248) -/

section
variable {s : State} {p : PassKey} {r : Req}

/-- The model that a pass computes with: the stand-in's where the request runs on it. -/
def passModel (s : State) (p : PassKey) (r : Req) : Nat := if runsStandin s p.req = true then r.standin.getD r.model else r.model

/-- The page, if any, that keeps a row of a pass from this member's part, and whether it cannot be read (R240). -/
def awayForRow (s : State) (p : PassKey) (r : Req) (x : PassRow) : Option (Nat × Bool) :=
  absentPage s p.req p.layer p.head (rowRange r (rowMask s (passModel s p r) p.layer) x).1
    (min (rowRange r (rowMask s (passModel s p r) p.layer) x).2 r.committed) (runsStandin s p.req)

/-- The rows of a pass whose merge home this controller is. -/
def homeRows (s : State) (p : PassKey) : List PassRow :=
  p.rows.filter (fun x => memberAt s p.req (querySlot (groupSize s) (kvHeads s) (kvGroup s) x.qhead) == some (self s))

/-- The state after every row's member partial (R248). -/
def rowsPassed (s : State) (p : PassKey) (r : Req) : State :=
  p.rows.foldl (fun u x => passRow u p r (passModel s p r) (modelDim s (passModel s p r)) (runsStandin s p.req) x)
    (stampRead s p.req p.layer p.head)

/-- Away from the cache pool, the first page that a row lacks ends the pass. -/
theorem attentionPass_away {k : Nat} {lost : Bool} (hu : isUp s = true) (hr : reqOf s p.req = some r) (hskip : p.req ∉ s.kva.skip)
    (hrole : role s ≠ 3) (hk : p.rows.findSome? (awayForRow s p r) = some (k, lost)) :
    attentionPass s p = openEvent (skipStep (if lost = true then losePage s k else s) p.req) .error St.ATT_PAGE_ABSENT noUnit p.req
      r.key.ctx := by
  have wanted : s.kva.skip.contains p.req = false := by simpa using hskip
  unfold awayForRow passModel at hk
  unfold attentionPass
  rw [whenUp_up hu]
  simp only [hr, wanted, hrole, hk, Bool.false_eq_true, if_false]

/-- A pass whose pages are here, or one of the cache pool, passes every row, and asks the cache controllers for the rows that
merge here. -/
theorem attentionPass_passes (hu : isUp s = true) (hr : reqOf s p.req = some r) (hskip : p.req ∉ s.kva.skip)
    (hpages : role s = 3 ∨ p.rows.findSome? (awayForRow s p r) = none) :
    attentionPass s p =
      if homeRows s p = [] then rowsPassed s p r
      else (cacheNodes s r p.layer p.head).foldl
        (fun u n => partialAsk u p r (passModel s p r) (modelDim s (passModel s p r)) (homeRows s p) n) (rowsPassed s p r) := by
  have wanted : s.kva.skip.contains p.req = false := by simpa using hskip
  have here : (if role s = 3 then none else p.rows.findSome? (awayForRow s p r)) = none := by
    obtain h | h := hpages <;> simp [h]
  unfold awayForRow passModel at here
  unfold attentionPass
  rw [whenUp_up hu]
  simp only [hr, wanted, here, Bool.false_eq_true, if_false, List.isEmpty_iff]
  rfl

theorem homeRows_eq_nil
    (h : ∀ x ∈ p.rows, memberAt s p.req (querySlot (groupSize s) (kvHeads s) (kvGroup s) x.qhead) ≠ some (self s)) :
    homeRows s p = [] :=
  List.filter_eq_nil_iff.2 fun x hx => by simpa using h x hx

end

/-! ### Partial records (R247, R249) -/

section
variable {s : State} {tag : Option Nat} {words : List Word} {num : List (BitVec 32)} {r : Req}

/-- The partial of a record whose STATUS is OK (R247). -/
def recordPartial (words : List Word) (num : List (BitVec 32)) : Partial :=
  ⟨bits (wordAt words 1) 63 32, BitVec.ofNat 32 (bits (wordAt words 2) 31 0), num, bits (wordAt words 2) 54 32,
    bits (wordAt words 3) 22 0, bits (wordAt words 3) 45 23, bit (wordAt words 1) 25, false, 0⟩

/-- One row of request `t` to the cache pool is in; the last one ends the request (R249). -/
def askAnswered (s : State) (t : Nat) : State :=
  match tget s.att.asks t with
  | some a =>
    { bump s F.ATT_REMOTE_CNT_COUNT with
      att := { s.att with asks := if a.rows ≤ 1 then tdel s.att.asks t else tset s.att.asks t { a with rows := a.rows - 1 } } }
  | none => bump s F.ATT_REMOTE_CNT_COUNT

theorem askAnswered_last {t : Nat} {a : PartialAsk} (ha : tget s.att.asks t = some a) (hrows : a.rows = 1) :
    askAnswered s t = { bump s F.ATT_REMOTE_CNT_COUNT with att := { s.att with asks := tdel s.att.asks t } } := by
  unfold askAnswered
  simp only [ha, hrows, Nat.le_refl, if_true]

/-- A record with STATUS OK is merged at its home, once the request to the cache pool that it answers has been counted down. -/
theorem partialRecord_merges (hu : isUp s = true) (hr : reqOf s (bits (wordAt words 0) 47 0) = some r)
    (hb : partialBad words = false) (hst : bits (wordAt words 3) 63 48 = 0) :
    partialRecord s tag words num =
      mergeRow (tag.elim s (askAnswered s)) r (bits (wordAt words 0) 47 0) (bits (wordAt words 1) 7 0) (bits (wordAt words 1) 17 8)
        (bits (wordAt words 1) 24 18) (recordPartial words num) := by
  have ok : (0#16 : Status) = St.OK := rfl
  have plain : (St.OK == (0x07E0 : Status)) = false := rfl
  unfold partialRecord
  rw [whenUp_up hu]
  simp only [hr, hb, hst, ok, plain, ne_eq, not_true_eq_false, false_and, Bool.false_eq_true, if_false]
  cases tag <;> rfl

theorem partialRecord_bad (hu : isUp s = true) (hr : reqOf s (bits (wordAt words 0) 47 0) = some r) (hb : partialBad words = true) :
    partialRecord s tag words num =
      skipStep (record s St.ATT_BAD_PREQ noUnit (bits (wordAt words 0) 47 0) r.key.ctx (Config.eventDetail (2 * s.out.length))
        (Config.eventDetail (2 * s.out.length + 1))) (bits (wordAt words 0) 47 0) := by
  unfold partialRecord
  rw [whenUp_up hu]
  simp only [hr, hb, if_true]

end

/-! ### Partial requests (R250) and replies that stay out (R251) -/

section
variable {s : State}

/-- Where no page is missing, a request whose answer is neither DTM_STALE_MAP nor ATT_PAGE_COLD, which are counted, has every entry
answered; one that passes its checks stamps the frames it reads. -/
theorem partialRequest_answers {hdr entries : List Word} {fail : Option Status} (hu : isUp s = true)
    (hc : partialCheck s hdr = fail) (hstale : fail ≠ some St.DTM_STALE_MAP) (hcold : fail ≠ some St.ATT_PAGE_COLD)
    (hm : missing s (bits (wordAt hdr 0) 47 0) = []) :
    partialRequest s hdr entries =
      (List.range (bits (wordAt hdr 1) 24 16)).foldl
        (fun u e => answerEntry u hdr (modelDim s (bits (wordAt hdr 0) 63 48))
          (wordAt entries ((1 + modelDim s (bits (wordAt hdr 0) 63 48) / 2) * e)) fail)
        (if fail.isNone = true then stampRead s (bits (wordAt hdr 0) 47 0) (bits (wordAt hdr 1) 7 0) (bits (wordAt hdr 1) 15 8)
          else s) := by
  unfold partialRequest
  rw [whenUp_up hu]
  simp only [hc, hstale, hcold, hm, List.isEmpty_nil, Bool.true_or, if_false, if_true]

theorem partialReplyTimeout_of_ask {req tag : Nat} {a : PartialAsk} {r : Req} (hu : isUp s = true) (ha : tget s.att.asks tag = some a)
    (hq : a.req = req) (hr : reqOf s req = some r) :
    partialReplyTimeout s req tag =
      openEvent (skipStep { s with att := { s.att with asks := tdel s.att.asks tag } } req) .error St.ATT_REMOTE_TIMEOUT noUnit req
        r.key.ctx := by
  unfold partialReplyTimeout
  rw [whenUp_up hu]
  simp only [ha, hq, hr, ne_eq, not_true_eq_false, if_false, Option.elim_some]

end

/-! ### Bindings (R233) -/

section
variable {s : State} {j : Nat} {w : Word}

/-- A write of EN = 1 to a binding that is disabled takes its fields, and enables it where R233's checks hold. -/
theorem attBindEnable_disabled (hl : rd s F.SEC_PROT_LOCK_LOCK = 1) (hw : bit w 63 = true) (hj : j < 16)
    (he : rdi s F.ATT_BIND_EN j = 0) :
    attBindEnable s j w =
      let s1 := wri (wri s F.ATT_BIND_NLAYERS_M1 j (bits w 23 16)) F.ATT_BIND_MODEL j (bits w 15 0)
      if bindOk s1 j (bits w 23 16 + 1) (bits w 15 0) = true then wri (wri s1 F.ATT_BIND_EN j 1) F.ATT_BIND_ERR j 0
      else wri s1 F.ATT_BIND_ERR j 1 := by
  unfold attBindEnable
  rw [ofForm_of (by simp [hw, hj]), bar0_locked hl, if_neg (by simp [he])]

/-- A write of EN = 0 to an enabled binding disables it, unless a resident request uses its model. -/
theorem attBindDisable_enabled (hl : rd s F.SEC_PROT_LOCK_LOCK = 1) (hw : bit w 63 = false) (hj : j < 16)
    (he : rdi s F.ATT_BIND_EN j = 1) :
    attBindDisable s j w = if modelInUse s (rdi s F.ATT_BIND_MODEL j) = true then s else wri s F.ATT_BIND_EN j 0 := by
  unfold attBindDisable
  rw [ofForm_of (by simp [hw, hj]), bar0_locked hl, if_neg (by simp [he])]

end

/-! ### Profiles (R234) -/

section
variable {s : State} {p : Nat} {w : Word}

/-- The access of 64 bits to word 0 of profile `p`. -/
def profAccess (p : Nat) : RegAccess := ⟨0x91000 + 16 * p, 8⟩

theorem profAccess_aligned (p : Nat) : (profAccess p).off / 8 * 8 = 0x91000 + 16 * p := by
  change (0x91000 + 16 * p) / 8 * 8 = 0x91000 + 16 * p
  omega

theorem profAccess_form (hp : p < 64) : (accessForm (profAccess p) && within (0x91000 + 16 * p) 8 0x91000 0x91400) = true := by
  have aligned : (0x91000 + 16 * p) % 8 = 0 := by omega
  have fits : 0x91000 + 16 * p + 8 ≤ 0x91400 := by omega
  simp [accessForm, within, profAccess, aligned, fits]

/-- A write of word 0 is taken where the word is in order, unless an enabled binding names the profile. -/
theorem attProfWrite_word0 (hl : rd s F.SEC_PROT_LOCK_LOCK = 1) (hp : p < 64) :
    attProfWrite s (profAccess p) w =
      if profInUse s p = true then s else if profBad w = true then s else s.setReg (0x91000 + 16 * p) w := by
  have profile : (0x91000 + 16 * p - 0x91000) / 16 = p := by omega
  have word0 : (0x91000 + 16 * p) % 16 = 0 := by omega
  have whole : halfWritten (s.reg (0x91000 + 16 * p)) (profAccess p) w = w := if_pos rfl
  unfold attProfWrite
  rw [profAccess_aligned]
  dsimp only
  rw [ofForm_of (profAccess_form hp), bar0_locked hl, profile, if_pos word0, whole]

end

/-- Settles O16: what each command does in the case that its clause names, by the lemma of that case. -/
theorem attentionCommands : Obligations.AttentionCommands := by
  refine ⟨?_, ?_, ?_, ?_, ?_, ?_, ?_, ?_, ?_, ?_, ?_, ?_, ?_⟩
  · exact fun s p r hu hr hskip hrole => congrArg Host.Outcome.next (attentionPass_passes hu hr hskip (.inl hrole))
  · intro s p r hu hr hskip hrole model hpages hhome
    have here : p.rows.findSome? (awayForRow s p r) = none := List.findSome?_eq_none_iff.2 hpages
    exact congrArg Host.Outcome.next ((attentionPass_passes hu hr hskip (.inr here)).trans (if_pos (homeRows_eq_nil hhome)))
  · exact fun s p r k lost hu hr hskip hrole hk => congrArg Host.Outcome.next (attentionPass_away hu hr hskip hrole hk)
  · exact fun s words num r hu hr hb hst => congrArg Host.Outcome.next (partialRecord_merges hu hr hb hst)
  · intro s t words num r a hu hr hb hst ha hrows
    rw [← askAnswered_last ha hrows]
    exact congrArg Host.Outcome.next (partialRecord_merges hu hr hb hst)
  · exact fun s tag words num r hu hr hb => congrArg Host.Outcome.next (partialRecord_bad hu hr hb)
  · exact fun s hdr entries hu hc hm => congrArg Host.Outcome.next (partialRequest_answers hu hc nofun nofun hm)
  · exact fun s hdr entries hu hc hm => congrArg Host.Outcome.next (partialRequest_answers hu hc (by decide) (by decide) hm)
  · exact fun s req tag a r hu ha hq hr => congrArg Host.Outcome.next (partialReplyTimeout_of_ask hu ha hq hr)
  · exact fun s j w hl hw hj he => congrArg Host.Outcome.next (attBindEnable_disabled hl hw hj he)
  · exact fun s j w hl hw hj he =>
      ⟨fun hm => congrArg Host.Outcome.next ((attBindDisable_enabled hl hw hj he).trans (if_neg (by simp [hm]))),
        fun hm => congrArg Host.Outcome.next ((attBindDisable_enabled hl hw hj he).trans (if_pos hm))⟩
  · intro s p w hl hp hu
    have free : attProfWrite s (profAccess p) w = if profBad w = true then s else s.setReg (0x91000 + 16 * p) w :=
      (attProfWrite_word0 hl hp).trans (if_neg (by simp [hu]))
    exact ⟨fun hb => congrArg Host.Outcome.next (free.trans (if_neg (by simp [hb]))),
      fun hb => congrArg Host.Outcome.next (free.trans (if_pos hb))⟩
  · exact fun s p w hl hp hu => congrArg Host.Outcome.next ((attProfWrite_word0 hl hp).trans (if_pos hu))

end Sys2Proof.Attention
end

section
/-! Table and gather descriptors that pass their checks, rows that come to a run, and migrations (R278 to R295). -/

namespace Sys2Proof.Gather

open Sys2Proof Sys2Proof.Machine Sys2Proof.Laws Sys2Proof.HostPort

/-! ### TABLE_REG (R278, R279, R291, R294, R295) -/

section

variable {s u : State} {k : RingKey} {d : Desc} {key : DescKey}

theorem tableRegister_acts (h : dispatched s k d key u) (ho : dOpcode d = 0x30) (hop : gOp d = 0)
    (hc : passes d (registerBytes d) (registerChecks d u key)) :
    tableRegister s k d = completeOk (setTables (dropRedirects u (gTable d))
      (tset u.gth.tables (gTable d) (gNew d key.ctx (ctxTenant u key.ctx)))) (flightId key) := by
  unfold tableRegister
  rw [ofForm_of (by simp [ho, hop]), runDesc_acts h hc]

theorem tableFree_acts (h : dispatched s k d key u) (ho : dOpcode d = 0x30) (hop : gOp d = 1)
    (hc : passes d (tableOpBytes d) (ownerChecks d u key ++ [chk (tableInUse u (gTable d)) St.GTH_TABLE_BUSY 0x12])) :
    tableFree s k d = completeOk (freeTable u (gTable d)) (flightId key) := by
  unfold tableFree
  rw [ofForm_of (by simp [ho, hop]), runDesc_acts h hc]

/-- A table that is freed is registered no more (R279). -/
@[simp] theorem tget_tables_freeTable (s : State) (h : Nat) : tget (freeTable s h).gth.tables h = none :=
  tget_tdel_same _ h

theorem tableRefresh_acts {list : List Word} (h : dispatched s k d key u) (ho : dOpcode d = 0x30) (hop : gOp d = 2)
    (hc : passes d (tableOpBytes d) (listChecks d u key false (8 * gRows d) ++ ownerChecks d u key)) :
    tableRefresh s k d list = advanceRefresh ((list.take (gRows d)).length + 1)
      (modGth u (fun g => { g with
        refresh := tset g.refresh (flightId key) ⟨gTable d, list.take (gRows d), 0, [], 0, none⟩ })) (flightId key) := by
  unfold tableRefresh
  rw [ofForm_of (by simp [ho, hop]), runDesc_acts h hc]

/-- The rows of a LOAD written to the tail, in order from FIRST (R294). -/
def loadRows (s : State) (d : Desc) (rows : List (List Byte)) : State :=
  (rows.take (gRows d)).zipIdx.foldl (fun v p => writeTail v (tableAt s (gTable d)) (gFirst d + p.2)
    (p.1.take (tRb (tableAt s (gTable d))))) s

/-- A table without the delta entries of the rows that a LOAD names (R294). -/
def dropLoaded (d : Desc) (t : GthTable) : GthTable :=
  { t with delta := tkeep (fun r _ => !(decide (gFirst d ≤ r) && decide (r < gFirst d + gRows d))) t.delta }

theorem tableLoad_acts {rows : List (List Byte)} (h : dispatched s k d key u) (ho : dOpcode d = 0x30) (hop : gOp d = 3)
    (hc : passes d (tableOpBytes d) (loadChecks d u key)) :
    tableLoad s k d rows = completeOk (modTable (loadRows u d rows) (gTable d) (dropLoaded d)) (flightId key) := by
  unfold tableLoad
  rw [ofForm_of (by simp [ho, hop]), runDesc_acts h hc]
  rfl

/-- The rows that a SYNC writes, each with the flash copy that came for it (R295). -/
def syncCopies (s : State) (d : Desc) (flash : List (Option (List Byte))) : List (Nat × Option (List Byte)) :=
  (syncRows s (gTable d) (gRows d)).zipIdx.map (fun p => (p.1, (flash[p.2]?).getD none))

/-- A SYNC whose rows can all be read ends with their number (R295). -/
theorem tableSync_acts {v : State} {flash : List (Option (List Byte))} {n : Nat} (h : dispatched s k d key u)
    (ho : dOpcode d = 0x30) (hop : gOp d = 4)
    (hc : passes d (tableOpBytes d)
      (listChecks d u key true (gRows d * (64 + tRb (tableAt u (gTable d)))) ++ ownerChecks d u key))
    (hrun : syncRun (gTable d) (gList d) (syncCopies u d flash) u 0 = (v, n, none)) :
    tableSync s k d flash = completeWith v (flightId key) St.OK (at' 0 32 n) := by
  unfold syncCopies at hrun
  unfold tableSync
  rw [ofForm_of (by simp [ho, hop]), runDesc_acts h hc]
  simp only [hrun]

/-! ### GATHER and UPDATE (R284, R287, R289) -/

/-- A run as it is accepted: it waits for an engine, behind those accepted before it (R285). -/
def newRun (s : State) (d : Desc) (g : GatherLists) : GthRun :=
  ⟨d, g, gaTable d, false, s.gth.order, 0, 0, [], [], 0, [], [], none, []⟩

theorem acceptRun_begins {id : Nat} {g : GatherLists} (hl : listFault d g (tableAt s (gaTable d)).rows = none) :
    acceptRun s id d g =
      engines (modGth s (fun x => { x with runs := tset x.runs id (newRun s d g), order := x.order + 1 })) := by
  unfold acceptRun
  simp only [hl]
  rfl

/-- A fault of the lists ends the descriptor, with its position (R287). -/
theorem acceptRun_refuses {id p : Nat} {st : Status} {g : GatherLists}
    (hl : listFault d g (tableAt s (gaTable d)).rows = some (st, p)) :
    acceptRun s id d g = completeWith s id st (at' 0 32 p) := by
  unfold acceptRun
  simp only [hl]

theorem gatherPool_acts {g : GatherLists} (h : dispatched s k d key u) (ho : dOpcode d = 0x31) (hm : dfld d 0x10 17 16 = 0)
    (hc : passes d (gatherBytes d) (gatherChecks d u key)) : gatherPool s k d g = acceptRun u (flightId key) d g := by
  unfold gatherPool
  rw [ofForm_of (by simp [ho, hm]), runDesc_acts h hc]

theorem gatherCopy_acts {g : GatherLists} (h : dispatched s k d key u) (ho : dOpcode d = 0x31) (hm : dfld d 0x10 17 16 = 1)
    (hc : passes d (gatherBytes d) (gatherChecks d u key)) : gatherCopy s k d g = acceptRun u (flightId key) d g := by
  unfold gatherCopy
  rw [ofForm_of (by simp [ho, hm]), runDesc_acts h hc]

theorem update_acts {g : GatherLists} (h : dispatched s k d key u) (ho : dOpcode d = 0x32)
    (hc : passes d (updateBytes d) (updateChecks d u key)) : update s k d g = acceptRun u (flightId key) d g := by
  unfold update
  rw [ofForm_of (by simp [ho]), runDesc_acts h hc]

end

/-- Settles O7: each descriptor's action, taken from its checks; the three gathers share what acceptance does. -/
theorem tableCommands : Obligations.TableCommands := by
  refine ⟨?_, ?_, ?_, ?_, ?_, ?_, ?_, ?_, ?_⟩
  · exact fun s u k d key h ho hop hc => congrArg Host.Outcome.next (tableRegister_acts h ho hop hc)
  · exact fun s u k d key h ho hop hc =>
      ⟨congrArg (fun t => Host.Outcome.next (settle s t)) (tableFree_acts h ho hop hc), tget_tables_freeTable u (gTable d)⟩
  · exact fun s u k d key list h ho hop hc =>
      congrArg (fun t => Host.Outcome.next (settle s t)) (tableRefresh_acts h ho hop hc)
  · exact fun s u k d key rows h ho hop hc => congrArg Host.Outcome.next (tableLoad_acts h ho hop hc)
  · exact fun s u v k d key flash n h ho hop hc hrun => congrArg Host.Outcome.next (tableSync_acts h ho hop hc hrun)
  · exact fun s u k d key g h ho hm hc hl =>
      congrArg Host.Outcome.next ((gatherPool_acts h ho hm hc).trans (acceptRun_begins hl))
  · exact fun s u k d key g h ho hm hc hl =>
      congrArg Host.Outcome.next ((gatherCopy_acts h ho hm hc).trans (acceptRun_begins hl))
  · exact fun s u k d key g h ho hc hl => congrArg Host.Outcome.next ((update_acts h ho hc).trans (acceptRun_begins hl))
  · exact fun s u k d key g st p h ho hm hc hl =>
      congrArg Host.Outcome.next ((gatherPool_acts h ho hm hc).trans (acceptRun_refuses hl))

/-! ### Rows of a run (R284, R287) -/

section

variable {s : State} {key : DescKey} {row : Nat} {bytes : List Byte} {r : GthRun} {sums : List (List F32)}

/-- A run with a row that it wanted: the tail copy that came, with the sums held for it added (R281). -/
def takeRow (s : State) (r : GthRun) (row : Nat) (bytes : List Byte) (sums : List (List F32)) : GthRun :=
  { r with
    want := tdel r.want row
    rows := tset r.rows row (withSums (tableAt s r.table) (bytes.take (tRb (tableAt s r.table))) sums) }

/-- A run whose window's rows are all in goes on to its next window (R284). -/
def endWindow (r : GthRun) : GthRun :=
  { fillCarry r with past := (fillCarry r).past ++ [(fillCarry r).rows], rows := [], window := (fillCarry r).window + 1 }

/-- A row that a run wants is taken, and the window is over when it was the last (R284). -/
theorem gatherRowData_read (hu : isUp s = true) (hr : tget s.gth.runs (flightId key) = some r)
    (hw : tget r.want row = some sums) :
    gatherRowData s key row true bytes =
      if (tdel r.want row).isEmpty then
        engines (runWindows (windows r + 1) (putRun s (flightId key) (endWindow (takeRow s r row bytes sums))) (flightId key))
      else putRun s (flightId key) (takeRow s r row bytes sums) := by
  unfold gatherRowData
  rw [whenUp_up hu]
  simp only [hr, hw]
  rfl

/-- A row that cannot be read ends the run (R287). -/
theorem gatherRowData_unreadable (hu : isUp s = true) (hr : tget s.gth.runs (flightId key) = some r)
    (hw : tget r.want row = some sums) :
    gatherRowData s key row false bytes = engines (endRun s (flightId key) St.GTH_ROW_ERR (some (at' 0 32 row))) := by
  unfold gatherRowData
  rw [whenUp_up hu]
  simp only [hr, hw]
  rfl

end

/-! ### Migrations (R292, R293) -/

section

variable {s u : State} {table row : Nat} {m : Migration} {bytes : List Byte}

/-- A promotion asks for the row's tail copy (R292). -/
theorem migrationAddsDrained_promotes (hu : isUp s = true) (hm : tget s.gth.moves (gRow table row) = some m)
    (hp : m.phase = .draining) (hd : m.demote = false) :
    migrationAddsDrained s table row =
      askTail (modMove s table row (fun m => { m with phase := .copying })) (tableAt s table) m.flight row := by
  unfold migrationAddsDrained
  rw [whenUp_up hu]
  simp only [hm]
  rw [if_neg (not_not.2 hp), if_neg (by simp [hd])]

/-- A demotion writes the row's hot slot to the tail (R292). -/
theorem migrationAddsDrained_demotes (hu : isUp s = true) (hm : tget s.gth.moves (gRow table row) = some m)
    (hp : m.phase = .draining) (hd : m.demote = true)
    (hr : readRefusal s (slotAddr (tableAt s table) (bits m.oldLoc 23 0)) (tRb (tableAt s table)) = none) :
    migrationAddsDrained s table row =
      writeTail (modMove s table row (fun m => { m with phase := .copying })) (tableAt s table) row
        (readMem s (slotAddr (tableAt s table) (bits m.oldLoc 23 0)) (tRb (tableAt s table))) := by
  unfold migrationAddsDrained
  rw [whenUp_up hu]
  simp only [hm]
  rw [if_neg (not_not.2 hp), if_pos hd, if_neg (by simp [hr])]
  rfl

/-- The second take of a migration begins, the row's side-log entry frozen (R292). -/
def beginT2 (s : State) (table row : Nat) (m : Migration) : State :=
  redirectTake (modMove (modTable s table (fun t => { t with frozen := t.frozen ++ [row] })) table row
    (fun m => { m with phase := .t2 })) table row 2 (if m.demote then 0 else 1) (newLoc m)

/-- A copy that is done lets T2 begin, in the state `u` in which the row stands in its new place (R292). -/
theorem migrationCopyDone_moves (hu : isUp s = true) (hm : tget s.gth.moves (gRow table row) = some m)
    (hp : m.phase = .copying)
    (hroom : (m.demote && (tableAt s table).flash &&
      (freeEntry (tableAt s table).delta (tableAt s table).deltaRows).isNone) = false)
    (hf : (if m.demote then some s else fillHot s (tableAt s table) m row bytes) = some u) :
    migrationCopyDone s table row 0 bytes = beginT2 u table row m := by
  unfold migrationCopyDone
  rw [whenUp_up hu]
  simp only [hm, hp]
  rw [if_neg (by simp), if_neg (by simp [hroom])]
  simp only [hf]
  rfl

/-- A copy that failed takes the migration back (R293). -/
theorem migrationCopyDone_fails {st : BitVec 16} (hu : isUp s = true) (hm : tget s.gth.moves (gRow table row) = some m)
    (hp : m.phase = .copying) (hst : st ≠ 0) :
    migrationCopyDone s table row st bytes = undoMove s table row (copyFault st) := by
  unfold migrationCopyDone
  rw [whenUp_up hu]
  simp only [hm, hp]
  rw [if_pos hst]

theorem beginT2_promotion (hd : m.demote = false) :
    beginT2 s table row m = redirectTake (modMove (modTable s table (fun t => { t with frozen := t.frozen ++ [row] })) table row
      (fun m => { m with phase := .t2 })) table row 2 1 (newLoc m) := by simp [beginT2, hd]

theorem beginT2_demotion (hd : m.demote = true) :
    beginT2 s table row m = redirectTake (modMove (modTable s table (fun t => { t with frozen := t.frozen ++ [row] })) table row
      (fun m => { m with phase := .t2 })) table row 2 0 (newLoc m) := by simp [beginT2, hd]

end

/-- Settles O18: what a row does to its run, and what the end of the drain or of the copy does to a migration. -/
theorem gatherProgress : Obligations.GatherProgress := by
  refine ⟨?_, ?_, ?_, ?_, ?_, ?_, ?_, ?_⟩
  · exact fun s key row bytes r sums hu hr hw hleft =>
      congrArg Host.Outcome.next ((gatherRowData_read hu hr hw).trans (if_neg (by simp [hleft])))
  · intro s key row bytes r sums hu hr hw hlast
    rw [← hlast]
    exact congrArg Host.Outcome.next ((gatherRowData_read hu hr hw).trans (if_pos (by simp [hlast])))
  · intro s key row bytes r hu hr hw
    obtain ⟨sums, hw⟩ := Option.isSome_iff_exists.1 hw
    exact congrArg Host.Outcome.next (gatherRowData_unreadable hu hr hw)
  · exact fun s table row m hu hm hp hd =>
      congrArg (fun t => Host.Outcome.next (settle s t)) (migrationAddsDrained_promotes hu hm hp hd)
  · exact fun s table row m hu hm hp hd hr =>
      congrArg (fun t => Host.Outcome.next (settle s t)) (migrationAddsDrained_demotes hu hm hp hd hr)
  · exact fun s u table row bytes m hu hm hp hd hf => congrArg (fun t => Host.Outcome.next (settle s t))
      ((migrationCopyDone_moves hu hm hp (by simp [hd]) (by simpa [hd] using hf)).trans (beginT2_promotion hd))
  · exact fun s table row bytes m hu hm hp hd hflash => congrArg (fun t => Host.Outcome.next (settle s t))
      ((migrationCopyDone_moves hu hm hp (by simp [hflash]) (if_pos hd)).trans (beginT2_demotion hd))
  · exact fun s table row st bytes m hu hm hp hst =>
      congrArg (fun t => Host.Outcome.next (settle s t)) (migrationCopyDone_fails hu hm hp hst)

end Sys2Proof.Gather
end

section
/-! What leaves by a port (R341, R343, R348, R362, R368): the frames of the operations that queue frames, send and respond. -/

namespace Sys2Proof.Frames

open Sys2Proof Sys2Proof.Machine Sys2Proof.Laws

/-! ### Single updates -/

theorem keeps_glk (s : State) (x : GlkState) : Keeps [.glk] [] s { s with glk := x } :=
  keeps_of_parts rfl (fun p hp => by cases p with
    | glk => simp at hp
    | _ => rfl)

theorem keeps_shp (s : State) (x : ShpState) : Keeps [.shp] [] s { s with shp := x } :=
  keeps_of_parts rfl (fun p hp => by cases p with
    | shp => simp at hp
    | _ => rfl)

theorem keeps_setPort (s : State) (n : Nat) (p : GPort) : Keeps [.glk] [] s (setPort s n p) := keeps_glk s _

/-! ### Shaped flows and waiting frames (R361, R362, R368) -/

theorem keeps_placeFlow (s : State) (key : Nat) (f : ShpFlow) : Keeps [.shp] [] s (placeFlow s key f) := by
  unfold placeFlow
  dsimp only
  split
  · exact keeps_shp s _
  · split
    · split <;> exact keeps_shp s _
    · exact keeps_shp s _

theorem keeps_takeEntry (s : State) (key : Nat) : Keeps [.shp] [F.SHP_FULL_CNT_COUNT.off 0] s (takeEntry s key) := by
  have placed (f : ShpFlow) := (keeps_placeFlow s key f).mono (ps := [.shp]) (offs := [F.SHP_FULL_CNT_COUNT.off 0])
    (by decide) (by decide)
  unfold takeEntry
  split
  · split
    · exact placed _
    · exact .refl s
  · split
    · exact (keeps_bump s _).mono (by decide) (by decide)
    · exact placed _

/-- A run over pairs of a state and something else keeps what each of its steps keeps. -/
theorem Keeps.foldl_fst {α β : Type} {ps : List Part} {offs : List Nat} {f : State × β → α → State × β}
    (hf : ∀ x a, Keeps ps offs x.1 (f x a).1) (l : List α) (x : State × β) : Keeps ps offs x.1 (l.foldl f x).1 := by
  induction l generalizing x with
  | nil => exact .refl x.1
  | cons a l ih => exact (hf x a).andThen (ih _)

theorem keeps_countWaits (s : State) (n : Nat) (p : GPort) :
    Keeps [] [F.SHP_GATE_WAIT_CNT_COUNT.off 0] s (countWaits s n p).1 := by
  refine Keeps.foldl_fst (fun x vc => ?_) _ (s, p)
  split
  · split
    · exact keeps_bump x.1 _
    · exact .refl x.1
  · exact .refl x.1

/-! ### Frames (R341, R348) -/

/-- The registers that a port's frames may count in. -/
def frameCounters : List Nat :=
  [F.SHP_FULL_CNT_COUNT.off 0, F.SHP_GATE_WAIT_CNT_COUNT.off 0, F.SHP_OVERRUN_CNT_COUNT.off 0]

theorem keeps_servePort (s : State) (n : Nat) (opening : Bool) :
    Keeps [.glk, .shp, .out] frameCounters s (servePort s n opening) := by
  have waits := keeps_countWaits s n (portOf s n)
  have overrun (t : State) (b : Prop) [Decidable b] :
      Keeps [] [F.SHP_OVERRUN_CNT_COUNT.off 0] t (if b then bump t F.SHP_OVERRUN_CNT_COUNT else t) := by
    split
    · exact keeps_bump t _
    · exact .refl t
  have rekeyed (t : State) (b : Prop) [Decidable b] : Keeps [.out] [] t (if b then emit t (.keyxFrame n) else t) := by
    split
    · exact keeps_emit t _
    · exact .refl t
  unfold servePort
  dsimp only
  split
  · exact .refl s
  · split
    · split
      · exact .refl s
      · exact waits.trans (keeps_setPort _ _ _) |>.mono (by decide) (by decide)
    · have sent (p : GPort) (o : Output) (b c : Prop) [Decidable b] [Decidable c] :=
        waits.trans (overrun _ b) |>.trans (keeps_setPort _ n p) |>.trans (keeps_emit _ o) |>.trans (rekeyed _ c)
      split
      · split
        · exact (sent _ _ _ _).trans (keeps_placeFlow _ _ _) |>.mono (by decide) (by decide)
        · exact (sent _ _ _ _).mono (by decide) (by decide)
      · exact (sent _ _ _ _).mono (by decide) (by decide)

theorem keeps_queueFrame (s : State) (n : Nat) (f : GFrame) :
    Keeps [.glk, .shp, .out] frameCounters s (queueFrame s n f) := by
  unfold queueFrame
  dsimp only
  split
  · exact (keeps_setPort s n _).trans (keeps_takeEntry _ _) |>.trans (keeps_servePort _ n false) |>.mono (by decide) (by decide)
  · exact (keeps_setPort s n _).trans (keeps_servePort _ n false) |>.mono (by decide) (by decide)

/-! ### Operations, messages and responses (R343, R344, R352) -/

theorem keeps_startOp (s : State) (tag : Nat) (o : RemoteOp) (n : Nat) :
    Keeps [.glk, .shp, .out] frameCounters s (startOp s tag o n) := by
  unfold startOp
  exact (keeps_glk s _).trans (Keeps.foldl (fun t f => keeps_queueFrame t n f) _ _) |>.mono (by decide) (by decide)

theorem keeps_issueOp (s : State) (dest tc len stripe : Nat) (what : OpFor) (kind : MsgKind) (words : List Word) :
    Keeps [.glk, .shp, .out] frameCounters s (issueOp s dest tc len stripe what kind words).1 := by
  unfold issueOp
  split
  · exact .refl s
  · dsimp only
    split
    · exact (keeps_glk s _).mono (by decide) (by decide)
    · exact (keeps_glk s _).trans (keeps_startOp _ _ _ _) |>.mono (by decide) (by decide)

theorem keeps_send (s : State) (dest tc : Nat) (kind : MsgKind) (words : List Word) :
    Keeps [.glk, .shp, .out] frameCounters s (send s dest tc kind words) := by
  unfold send sendFor
  dsimp only
  split
  · exact (keeps_emit s _).mono (by decide) (by decide)
  · exact (keeps_emit s _).trans (keeps_issueOp ..) |>.mono (by decide) (by decide)

theorem keeps_respond (s : State) (dest tc tag : Nat) (arg : Word) (bytes : List Byte) :
    Keeps [.glk, .shp, .out] frameCounters s (respond s dest tc tag arg bytes) := by
  unfold respond
  dsimp only
  split
  · exact (keeps_emit s _).mono (by decide) (by decide)
  · split
    · exact (keeps_emit s _).trans (Keeps.foldl (fun t f => keeps_queueFrame t _ f) _ _) |>.mono (by decide) (by decide)
    · exact (keeps_emit s _).mono (by decide) (by decide)

end Sys2Proof.Frames
end

section
/-! What a command stores: `Stores ps offs kept s t` says that `t` keeps what `Keeps` says, and with it the bytes of memory at the
addresses `kept`. -/

namespace Sys2Proof.MemoryTiers

open Sys2Proof Sys2Proof.Machine Sys2Proof.Laws Sys2Proof.Frames

/-! ### Sizes (R17) -/

@[simp] theorem length_natBytes (n v : Nat) : (natBytes n v).length = n := by
  induction n generalizing v with
  | zero => rfl
  | succ n ih => simp [natBytes, ih]

@[simp] theorem length_wordBytes (w : Word) : (wordBytes w).length = 8 := length_natBytes 8 _

/-! ### Writes of memory (R59, R311) -/

@[simp] theorem backInvalidate_hbm (s : State) (a n : Nat) : (backInvalidate s a n).hbm = s.hbm := by
  unfold backInvalidate
  dsimp only
  split <;> rfl

/-- Bytes written read as they were written (R17). -/
theorem byteAt_writeMem_inside (s : State) (a : Nat) (bs : List Byte) {i : Nat} (hi : i < bs.length) :
    byteAt (writeMem s a bs).hbm (a + i) = bs.getD i 0 := byteAt_setBytes_inside bs _ a i hi

/-- A write leaves every byte outside it alone. -/
theorem byteAt_writeMem_outside (s : State) (a : Nat) (bs : List Byte) {b : Nat} (hb : b < a ∨ a + bs.length ≤ b) :
    byteAt (writeMem s a bs).hbm b = byteAt s.hbm b :=
  (byteAt_setBytes_outside bs _ a b hb).trans (by rw [backInvalidate_hbm])

theorem keeps_storeMem (s : State) (a : Nat) (bs : List Byte) : Keeps [.hbm, .mem] [] s (storeMem s a bs) :=
  keeps_of_parts rfl (fun p hp => by cases p with
    | hbm => simp at hp
    | mem => simp at hp
    | _ => rfl)

theorem keeps_backInvalidate (s : State) (a n : Nat) : Keeps [.hpt, .out] [] s (backInvalidate s a n) := by
  unfold backInvalidate
  dsimp only
  split
  · exact .refl s
  · exact (keeps_emits s _).trans (keeps_hpt _ _) |>.mono (by decide) (by decide)

theorem keeps_writeMem (s : State) (a : Nat) (bs : List Byte) : Keeps [.hbm, .hpt, .mem, .out] [] s (writeMem s a bs) :=
  (keeps_backInvalidate s a _).trans (keeps_storeMem _ a bs) |>.mono (by decide) (by decide)

/-! ### The register table itself -/

/-- With the register table left as it is, nothing but the parts named comes from the later state. -/
theorem eq_overlay_of_regs {ps : List Part} {offs : List Nat} {s t : State} (h : Keeps ps offs s t) (hr : t.regs = s.regs) :
    t = { overlay ps s t with regs := s.regs } :=
  h.eq_overlay.trans (by rw [← hr]; rfl)

@[simp] theorem backInvalidate_regs (s : State) (a n : Nat) : (backInvalidate s a n).regs = s.regs := by
  unfold backInvalidate
  dsimp only
  split <;> rfl

@[simp] theorem writeMem_regs (s : State) (a : Nat) (bs : List Byte) : (writeMem s a bs).regs = s.regs :=
  backInvalidate_regs s a _

@[simp] theorem rasRepeat_regs (s : State) : (rasRepeat s).regs = s.regs := by
  unfold rasRepeat
  split
  · rfl
  · split
    · rfl
    · split <;> rfl

@[simp] theorem place_regs (s : State) (r : RasRec) : (raiseRecord.place s r).regs = s.regs := by
  unfold raiseRecord.place
  split
  · rfl
  · split
    · rfl
    · split <;> rfl

@[simp] theorem raiseRecord_regs (s : State) (r : RasRec) : (raiseRecord s r).regs = s.regs := by
  unfold raiseRecord
  split
  · split
    · exact rasRepeat_regs s
    · exact place_regs s r
  · exact place_regs s r

@[simp] theorem writeEvent_regs (s : State) (ty : EvType) (st : Status) (req ctx : Nat) (d0 d1 : Word) :
    (writeEvent s ty st req ctx d0 d1).regs = s.regs := by
  unfold writeEvent
  split <;> rfl

@[simp] theorem postEvent_regs (s : State) (ty : EvType) (st : Status) (u : UnitRef) (req ctx : Nat) (d0 d1 : Word) (m : Bool) :
    (postEvent s ty st u req ctx d0 d1 m).regs = s.regs := by
  unfold postEvent
  split
  · exact (writeEvent_regs _ ty st req ctx d0 d1).trans (raiseRecord_regs s _)
  · exact writeEvent_regs s ty st req ctx d0 d1

@[simp] theorem releaseDamaged_regs (s : State) : (releaseDamaged s).regs = s.regs := by
  unfold releaseDamaged
  split <;> rfl

theorem whenUp_regs {s : State} {f : State → State} (h : (f s).regs = s.regs) : (whenUp s f).regs = s.regs := by
  unfold whenUp
  split
  · exact h
  · rfl

theorem atomicAddLine_regs (s : State) (offset : Nat) (addends : List (BitVec 32)) :
    (atomicAddLine s offset addends).regs = s.regs := by
  refine whenUp_regs ?_
  split
  · rfl
  · split
    · rfl
    · exact writeMem_regs s offset _

theorem hdmHostWrite_regs (s : State) (o : Nat) (bytes : List Byte) : (hdmHostWrite s o bytes).regs = s.regs := by
  unfold hdmHostWrite
  split <;> rfl

theorem refetchRangeData_regs (s : State) (tensor offset : Nat) (bytes : List Byte) (ok : Bool) :
    (refetchRangeData s tensor offset bytes ok).regs = s.regs := by
  refine whenUp_regs ?_
  split
  · rfl
  · split
    · exact postEvent_regs ..
    · exact (releaseDamaged_regs _).trans (writeMem_regs s offset bytes)

/-! ### Stores and what they keep -/

/-- `t` differs from `s` at most in the parts `ps`, in the registers at `offs`, and in bytes at addresses that are not `kept`. -/
structure Stores (ps : List Part) (offs : List Nat) (kept : Nat → Prop) (s t : State) : Prop where
  keeps : Keeps ps offs s t
  bytes : ∀ a, kept a → byteAt t.hbm a = byteAt s.hbm a

theorem Stores.refl {ps : List Part} {offs : List Nat} {kept : Nat → Prop} (s : State) : Stores ps offs kept s s :=
  ⟨.refl s, fun _ _ => rfl⟩

theorem Stores.andThen {ps : List Part} {offs : List Nat} {kept : Nat → Prop} {s t u : State} (h : Stores ps offs kept s t)
    (k : Stores ps offs kept t u) : Stores ps offs kept s u :=
  ⟨h.keeps.andThen k.keeps, fun a ha => (k.bytes a ha).trans (h.bytes a ha)⟩

/-- An operation that leaves HBM alone stores nothing. -/
theorem Stores.of_keeps {ps qs : List Part} {offs os : List Nat} {kept : Nat → Prop} {s t : State} (h : Keeps qs os s t)
    (hq : .hbm ∉ qs) (hp : qs ⊆ ps) (ho : os ⊆ offs) : Stores ps offs kept s t :=
  ⟨h.mono hp ho, fun a _ => congrArg (fun m => byteAt m a) (h.parts .hbm hq)⟩

theorem stores_writeMem {ps : List Part} {offs : List Nat} {kept : Nat → Prop} (s : State) (a : Nat) (bs : List Byte)
    (hp : [.hbm, .hpt, .mem, .out] ⊆ ps) (hk : ∀ b, kept b → b < a ∨ a + bs.length ≤ b) :
    Stores ps offs kept s (writeMem s a bs) :=
  ⟨(keeps_writeMem s a bs).mono hp (List.nil_subset offs), fun b hb => byteAt_writeMem_outside s a bs (hk b hb)⟩

theorem stores_whenUp {ps : List Part} {offs : List Nat} {kept : Nat → Prop} {s : State} {f : State → State}
    (h : Stores ps offs kept s (f s)) : Stores ps offs kept s (whenUp s f) := by
  unfold whenUp
  split
  · exact h
  · exact .refl s

/-- The line of an add is 64 bytes (R313). -/
theorem stores_addLine {ps : List Part} {offs : List Nat} (s : State) (a : Nat) (xs : List F32)
    (hp : [.hbm, .hpt, .mem, .out] ⊆ ps) : Stores ps offs (fun b => b < a ∨ a + 64 ≤ b) s (addLine s a xs) :=
  stores_writeMem s a _ hp (fun _ hb => by simpa using hb)

/-! ### Remote operations (R352) -/

/-- The parts that a remote operation may change here. -/
def remoteParts : List Part := [.hbm, .hpt, .mem, .glk, .shp, .out]

/-- The counters that a remote operation may advance here, as its frame names them. -/
def remoteFields : List Field :=
  [F.DTM_STALE_CNT_COUNT, F.SHP_FULL_CNT_COUNT, F.SHP_GATE_WAIT_CNT_COUNT, F.SHP_OVERRUN_CNT_COUNT]

/-- A remote operation stores nothing at the addresses `kept`. -/
abbrev RemoteStores (kept : Nat → Prop) (s t : State) : Prop :=
  Stores remoteParts (remoteFields.map (fun f => f.off 0)) kept s t

section
variable {kept : Nat → Prop} (s : State) (r : RemoteReq)

theorem stores_respond (dest tc tag : Nat) (arg : Word) (bytes : List Byte) :
    RemoteStores kept s (respond s dest tc tag arg bytes) :=
  .of_keeps (keeps_respond ..) (by decide) (by decide) (by decide)

theorem stores_refuseOp (st : Status) : RemoteStores kept s (refuseOp s r st) := by
  unfold refuseOp
  split
  · exact (Stores.of_keeps (keeps_bump s _) (by decide) (by decide) (by decide)).andThen (stores_respond _ _ _ _ _ _)
  · split
    · exact (Stores.of_keeps (keeps_send ..) (by decide) (by decide) (by decide)).andThen (stores_respond _ _ _ _ _ _)
    · exact stores_respond s _ _ _ _ _

theorem stores_storeAt (a : Nat) (bs : List Byte) (hk : ∀ b, kept b → b < a ∨ a + bs.length ≤ b) :
    RemoteStores kept s (storeAt s a bs) := by
  unfold storeAt
  split
  · exact .of_keeps (keeps_emit s _) (by decide) (by decide) (by decide)
  · exact stores_writeMem s a bs (by decide) hk

theorem stores_put (bytes : List Byte) :
    RemoteStores (fun a => a < r.offset ∨ r.offset + bytes.length ≤ a) s (put s r bytes) := by
  refine stores_whenUp ?_
  dsimp only
  split
  · exact stores_refuseOp s r _
  · split
    · exact stores_refuseOp s r _
    · exact (stores_storeAt s _ _ (fun _ h => h)).andThen (stores_respond _ _ _ _ _ _)

theorem keeps_countSignal (a : Nat) : Keeps [.glk] [] s (countSignal s a) := by
  unfold countSignal
  split
  · exact .refl s
  · split <;> exact keeps_glk s _

/-- A signal adds 1 to the 8 bytes of its word (R355). -/
theorem stores_putSignal (bytes : List Byte) :
    RemoteStores (fun a => (a < r.offset ∨ r.offset + bytes.length ≤ a) ∧ (a < bits r.arg 51 0 ∨ bits r.arg 51 0 + 8 ≤ a)) s
      (putSignal s r bytes) := by
  refine stores_whenUp ?_
  dsimp only
  split
  · exact stores_refuseOp s r _
  · split
    · exact stores_refuseOp s r _
    · exact (((stores_storeAt s _ _ (fun _ h => h.1)).andThen
        (stores_writeMem _ _ _ (by decide) (fun _ h => by simpa using h.2))).andThen
        (.of_keeps (keeps_countSignal _ _) (by decide) (by decide) (by decide))).andThen (stores_respond _ _ _ _ _ _)

theorem stores_addF32 (addends : List (BitVec 32)) :
    RemoteStores (fun a => a < r.offset ∨ r.offset + 64 ≤ a) s (addF32 s r addends) := by
  refine stores_whenUp ?_
  split
  · exact stores_refuseOp s r _
  · split
    · exact stores_refuseOp s r _
    · exact (stores_addLine s _ _ (by decide)).andThen (stores_respond _ _ _ _ _ _)

theorem stores_atomic64 (f : Word → Option Word) :
    RemoteStores (fun a => a < r.offset ∨ r.offset + 8 ≤ a) s (atomic64 s r f) := by
  refine stores_whenUp ?_
  split
  · exact stores_refuseOp s r _
  · split
    · exact stores_refuseOp s r _
    · dsimp only
      split
      · exact (stores_writeMem s _ _ (by decide) (fun _ h => by simpa using h)).andThen (stores_respond _ _ _ _ _ _)
      · exact stores_respond s _ _ _ _ _

end

/-! ### Local stores (R313, R315, R511) -/

theorem stores_atomicAddLine (s : State) (offset : Nat) (addends : List (BitVec 32)) :
    Stores [.hbm, .hpt, .mem, .out] [] (fun a => a < offset ∨ offset + 64 ≤ a) s (atomicAddLine s offset addends) := by
  have refused (st : Status) : Stores [.hbm, .hpt, .mem, .out] [] (fun a => a < offset ∨ offset + 64 ≤ a) s (emit s (.status st)) :=
    .of_keeps (keeps_emit s _) (by decide) (by decide) (by decide)
  refine stores_whenUp ?_
  split
  · exact refused _
  · split
    · exact refused _
    · exact stores_addLine s offset addends (by decide)

theorem stores_hdmHostWrite (s : State) (o : Nat) (bytes : List Byte) :
    Stores [.hbm, .mem] [] (fun a => a < hdmLocal s o ∨ hdmLocal s o + bytes.length ≤ a) s (hdmHostWrite s o bytes) := by
  unfold hdmHostWrite
  split
  · exact ⟨keeps_storeMem s _ _, fun a ha => byteAt_setBytes_outside bytes _ _ a ha⟩
  · exact .refl s

theorem keeps_releaseDamaged (s : State) : Keeps [.sch] [] s (releaseDamaged s) := by
  unfold releaseDamaged
  split
  · exact keeps_sch s _
  · exact .refl s

/-- A range of a re-fetch is 4 KiB (R511). -/
theorem stores_refetchRangeData (s : State) (tensor offset : Nat) (bytes : List Byte) (ok : Bool) :
    Stores [.hbm, .hpt, .sch, .mem, .ras, .out] [] (fun a => a < offset ∨ offset + 4096 ≤ a) s
      (refetchRangeData s tensor offset bytes ok) := by
  refine stores_whenUp ?_
  split
  · exact .refl s
  next hg =>
    have hlen : bytes.length = 4096 := by simp_all
    split
    · exact .of_keeps (keeps_postEvent ..) (by decide) (by decide) (by decide)
    · exact (stores_writeMem s offset bytes (by decide) (fun _ h => hlen ▸ h)).andThen
        (.of_keeps (keeps_releaseDamaged _) (by decide) (by decide) (by decide))

/-- Settles O54: each storing command writes its own bytes only, and its other effects leave memory alone. -/
theorem storeFrames : Obligations.StoreFrames := by
  refine ⟨fun s r bytes => ?_, fun s r bytes => ?_, fun s r xs => ?_, fun s r v => ?_, fun s r cmp swp => ?_,
    fun s offset xs => ?_, fun s o bytes => ?_, fun s tensor offset bytes ok => ?_⟩
  · have h := stores_put s r bytes
    exact ⟨_, rfl, h.bytes, h.keeps.eq_overlay, h.keeps.regsKept⟩
  · have h := stores_putSignal s r bytes
    exact ⟨_, rfl, fun a h1 h2 => h.bytes a ⟨h1, h2⟩, h.keeps.eq_overlay, h.keeps.regsKept⟩
  · have h := stores_addF32 s r xs
    exact ⟨_, rfl, h.bytes, h.keeps.eq_overlay, h.keeps.regsKept⟩
  · have h := stores_atomic64 s r (fun old => some (old + v))
    exact ⟨_, rfl, h.bytes, h.keeps.eq_overlay, h.keeps.regsKept⟩
  · have h := stores_atomic64 s r (fun old => if old = cmp then some swp else none)
    exact ⟨_, rfl, h.bytes, h.keeps.eq_overlay, h.keeps.regsKept⟩
  · have h := stores_atomicAddLine s offset xs
    exact ⟨_, rfl, h.bytes, eq_overlay_of_regs h.keeps (atomicAddLine_regs s offset xs), fun o => h.keeps.regs o List.not_mem_nil⟩
  · have h := stores_hdmHostWrite s o bytes
    exact ⟨_, rfl, h.bytes, eq_overlay_of_regs h.keeps (hdmHostWrite_regs s o bytes),
      fun f => Scheduling.rd_of_keeps h.keeps List.not_mem_nil⟩
  · have h := stores_refetchRangeData s tensor offset bytes ok
    exact ⟨_, rfl, h.bytes, eq_overlay_of_regs h.keeps (refetchRangeData_regs s tensor offset bytes ok),
      fun o => h.keeps.regs o List.not_mem_nil⟩

end Sys2Proof.MemoryTiers
end

section
/-! The (39,32) code (R305, R306): its check bits are linear, every column and every check bit has odd weight, and so two errors leave
a syndrome of even weight, which is no column. -/

namespace Sys2Proof.MemoryTiers

open Sys2Proof Sys2Proof.Machine Sys2Proof.Laws Sys2Proof.HostPort

/-! ### Columns (R305) -/

/-- A column of the code. -/
def secdedCol (i : Nat) : Nat := secdedCols.getD i 0

theorem secdedCols_length : secdedCols.length = 32 := by decide +kernel

theorem secdedCols_nodup : secdedCols.Nodup := by decide +kernel

theorem secdedCol_eq {i : Nat} (hi : i < 32) : secdedCol i = secdedCols[i]'(secdedCols_length ▸ hi) :=
  List.getD_eq_getElem secdedCols 0 (secdedCols_length ▸ hi)

theorem secdedCol_inj {i j : Nat} (hi : i < 32) (hj : j < 32) : secdedCol i = secdedCol j ↔ i = j := by
  rw [secdedCol_eq hi, secdedCol_eq hj]
  exact secdedCols_nodup.getElem_inj_iff

theorem weight_secdedCol {i : Nat} (hi : i < 32) : popcount (secdedCol i) 7 = 3 := by
  have all : ∀ i < 32, popcount (secdedCol i) 7 = 3 := by decide +kernel
  exact all i hi

theorem weight_checkBit {i : Nat} (hi : i < 7) : popcount (2 ^ i) 7 = 1 := by
  have all : ∀ i < 7, popcount (2 ^ i) 7 = 1 := by decide
  exact all i hi

/-! ### Check bits and weights are linear -/

/-- The weight of a sum has the parity of the sum of the weights. -/
theorem weight_xor_parity (a b n : Nat) : popcount (a ^^^ b) n % 2 = (popcount a n + popcount b n) % 2 := by
  induction n with
  | zero => rfl
  | succ n ih =>
    have bit : ((a ^^^ b).testBit n).toNat % 2 = ((a.testBit n).toNat + (b.testBit n).toNat) % 2 := by
      rw [Nat.testBit_xor]
      cases a.testBit n <;> cases b.testBit n <;> rfl
    simp only [popcount]
    omega

/-- The check bits over some of a word's bits, beside `a` from the others. -/
def checkOver (d : BitVec 32) (l : List Nat) (a : Nat) : Nat :=
  l.foldl (fun a i => if d.getLsbD i then a ^^^ secdedCols.getD i 0 else a) a

theorem secdedCheck_eq (d : BitVec 32) : secdedCheck d = checkOver d (List.range 32) 0 := rfl

theorem checkOver_xor (d e : BitVec 32) (l : List Nat) (a b : Nat) :
    checkOver (d ^^^ e) l (a ^^^ b) = checkOver d l a ^^^ checkOver e l b := by
  induction l generalizing a b with
  | nil => rfl
  | cons i l ih =>
    have step (x : BitVec 32) (c : Nat) :
        checkOver x (i :: l) c = checkOver x l (if x.getLsbD i then c ^^^ secdedCols.getD i 0 else c) := rfl
    rw [step, step, step, ← ih, BitVec.getLsbD_xor]
    congr 1
    cases d.getLsbD i <;> cases e.getLsbD i <;> simp [Nat.xor_assoc, Nat.xor_comm, Nat.xor_left_comm]

theorem secdedCheck_xor (d e : BitVec 32) : secdedCheck (d ^^^ e) = secdedCheck d ^^^ secdedCheck e :=
  checkOver_xor d e (List.range 32) 0 0

/-- The check bits of a word with one bit set are that bit's column. -/
theorem secdedCheck_bit {i : Nat} (hi : i < 32) : secdedCheck (BitVec.ofNat 32 (2 ^ i)) = secdedCol i := by
  have all : ∀ i < 32, secdedCheck (BitVec.ofNat 32 (2 ^ i)) = secdedCol i := by decide +kernel
  exact all i hi

/-! ### Syndromes (R306) -/

/-- The syndrome of a word as it was read. -/
def syndrome (d : BitVec 32) (c : BitVec 7) : Nat := c.toNat ^^^ secdedCheck d

section
variable {d : BitVec 32} {c : BitVec 7} {i j : Nat}

theorem syndrome_dataBit (hi : i < 32) : syndrome (d ^^^ BitVec.ofNat 32 (2 ^ i)) c = syndrome d c ^^^ secdedCol i := by
  rw [syndrome, secdedCheck_xor, secdedCheck_bit hi, ← Nat.xor_assoc, syndrome]

theorem syndrome_checkBit (hi : i < 7) : syndrome d (c ^^^ BitVec.ofNat 7 (2 ^ i)) = syndrome d c ^^^ 2 ^ i := by
  have small : 2 ^ i % 2 ^ 7 = 2 ^ i := Nat.mod_eq_of_lt (Nat.pow_lt_pow_right (by decide) hi)
  rw [syndrome, BitVec.toNat_xor, BitVec.toNat_ofNat, small, Nat.xor_right_comm, syndrome]

theorem syndrome_ofStored (h : c.toNat = secdedCheck d) : syndrome d c = 0 := by rw [syndrome, h, Nat.xor_self]

/-! ### What a syndrome means (R306) -/

theorem secdedDecode_clean (h : syndrome d c = 0) : secdedDecode d c = .clean := if_pos h

theorem secdedDecode_checkBit (h : popcount (syndrome d c) 7 = 1) : secdedDecode d c = .corrected d := by
  have nonzero : syndrome d c ≠ 0 := fun h0 => by rw [h0] at h; exact absurd h (by decide)
  exact (if_neg nonzero).trans (if_pos h)

/-- A syndrome of another weight than 0 and 1 is looked up among the columns. -/
theorem secdedDecode_lookup (h0 : syndrome d c ≠ 0) (h1 : popcount (syndrome d c) 7 ≠ 1) :
    secdedDecode d c = (secdedCols.findIdx? (· == syndrome d c)).elim .uncorrectable
      (fun i => .corrected (d ^^^ BitVec.ofNat 32 (2 ^ i))) := by
  refine (if_neg h0).trans ((if_neg h1).trans ?_)
  rw [← syndrome]
  cases secdedCols.findIdx? (· == syndrome d c) <;> rfl

theorem findIdx_secdedCol (hi : i < 32) : secdedCols.findIdx? (· == secdedCol i) = some i := by
  rw [List.findIdx?_eq_some_iff_getElem]
  refine ⟨secdedCols_length ▸ hi, by simp [secdedCol_eq hi], fun j hj => ?_⟩
  have other : secdedCol j ≠ secdedCol i := fun h => by
    have := (secdedCol_inj (by omega) hi).1 h
    omega
  rw [secdedCol_eq (by omega)] at other
  simpa using other

theorem secdedDecode_column (hi : i < 32) (h : syndrome d c = secdedCol i) :
    secdedDecode d c = .corrected (d ^^^ BitVec.ofNat 32 (2 ^ i)) := by
  have weight := weight_secdedCol hi
  rw [secdedDecode_lookup, h, findIdx_secdedCol hi]
  · rfl
  · intro h0
    rw [← h, h0] at weight
    exact absurd weight (by decide)
  · rw [h, weight]
    decide

theorem secdedDecode_other (h0 : syndrome d c ≠ 0) (h1 : popcount (syndrome d c) 7 ≠ 1)
    (hc : ∀ i, i < 32 → syndrome d c ≠ secdedCol i) : secdedDecode d c = .uncorrectable := by
  have absent : secdedCols.findIdx? (· == syndrome d c) = none := by
    refine List.findIdx?_eq_none_iff.2 (fun x hx => ?_)
    obtain ⟨i, hi, rfl⟩ := List.getElem_of_mem hx
    have := hc i (secdedCols_length ▸ hi)
    rw [secdedCol_eq (secdedCols_length ▸ hi)] at this
    simpa using Ne.symm this
  rw [secdedDecode_lookup h0 h1, absent]
  rfl

/-- Two errors of odd weight leave a syndrome of even weight: no check bit and no column. -/
theorem secdedDecode_double {x y : Nat} (hs : syndrome d c = x ^^^ y) (hne : x ≠ y) (hx : popcount x 7 % 2 = 1)
    (hy : popcount y 7 % 2 = 1) : secdedDecode d c = .uncorrectable := by
  have even : popcount (syndrome d c) 7 % 2 = 0 := by
    rw [hs, weight_xor_parity]
    omega
  refine secdedDecode_other ?_ (by omega) (fun i hi h => ?_)
  · rw [hs]
    exact Nat.xor_ne_zero_iff.2 hne
  · rw [h, weight_secdedCol hi] at even
    exact absurd even (by decide)

/-! ### One error and two errors in a stored word (R306) -/

section
variable (hc : c.toNat = secdedCheck d)
include hc

theorem oneDataError_corrected (hi : i < 32) : secdedDecode (d ^^^ BitVec.ofNat 32 (2 ^ i)) c = .corrected d := by
  have back : d ^^^ BitVec.ofNat 32 (2 ^ i) ^^^ BitVec.ofNat 32 (2 ^ i) = d := by
    rw [BitVec.xor_assoc, BitVec.xor_self, BitVec.xor_zero]
  rw [secdedDecode_column hi (by rw [syndrome_dataBit hi, syndrome_ofStored hc, Nat.zero_xor]), back]

theorem oneCheckError_corrected (hi : i < 7) : secdedDecode d (c ^^^ BitVec.ofNat 7 (2 ^ i)) = .corrected d :=
  secdedDecode_checkBit (by rw [syndrome_checkBit hi, syndrome_ofStored hc, Nat.zero_xor, weight_checkBit hi])

theorem twoDataErrors_detected (hij : i < j) (hj : j < 32) :
    secdedDecode (d ^^^ BitVec.ofNat 32 (2 ^ i) ^^^ BitVec.ofNat 32 (2 ^ j)) c = .uncorrectable := by
  have hi : i < 32 := by omega
  refine secdedDecode_double (x := secdedCol i) (y := secdedCol j) ?_ ?_ ?_ ?_
  · rw [syndrome_dataBit hj, syndrome_dataBit hi, syndrome_ofStored hc, Nat.zero_xor]
  · exact fun h => hij.ne ((secdedCol_inj hi hj).1 h)
  · rw [weight_secdedCol hi]
  · rw [weight_secdedCol hj]

theorem dataAndCheckError_detected (hi : i < 32) (hj : j < 7) :
    secdedDecode (d ^^^ BitVec.ofNat 32 (2 ^ i)) (c ^^^ BitVec.ofNat 7 (2 ^ j)) = .uncorrectable := by
  refine secdedDecode_double (x := secdedCol i) (y := 2 ^ j) ?_ (fun h => ?_) ?_ ?_
  · rw [syndrome_checkBit hj, syndrome_dataBit hi, syndrome_ofStored hc, Nat.zero_xor]
  · have weight := weight_secdedCol hi
    rw [h, weight_checkBit hj] at weight
    exact absurd weight (by decide)
  · rw [weight_secdedCol hi]
  · rw [weight_checkBit hj]

theorem twoCheckErrors_detected (hij : i < j) (hj : j < 7) :
    secdedDecode d (c ^^^ BitVec.ofNat 7 (2 ^ i) ^^^ BitVec.ofNat 7 (2 ^ j)) = .uncorrectable := by
  have hi : i < 7 := by omega
  refine secdedDecode_double (x := 2 ^ i) (y := 2 ^ j) ?_ ?_ ?_ ?_
  · rw [syndrome_checkBit hj, syndrome_checkBit hi, syndrome_ofStored hc, Nat.zero_xor]
  · exact fun h => hij.ne (Nat.pow_right_injective (le_refl 2) h)
  · rw [weight_checkBit hi]
  · rw [weight_checkBit hj]

end

end

/-! ### Words that the scrub reads (R307 to R309, R311, R312) -/

section
variable {s : State} {w : ScrubWord}

/-- A word of HBM that is not the first of a pass. -/
theorem patrolScrub_hbm (hu : isUp s = true) (hs : w.sram = false) (hin : inHbm s w.offset 4 = true) (hal : w.offset % 4 = 0)
    (hpc : w.unit = pcOf s w.offset) (ho : w.offset ≠ 0) : patrolScrub s w = scrubHbm s w := by
  have same : newPass s w = s := by simp [newPass, hs, ho]
  unfold patrolScrub
  rw [whenUp_up hu, if_neg (by simp [hs]), if_pos (by simp [hin, hal, ← hpc]), same]

/-- A word of an SRAM unit that is not the first of a pass. -/
theorem patrolScrub_sram (hu : isUp s = true) (hs : w.sram = true) (hm : w.unit < 768) (h0 : w.unit ≠ 0) :
    patrolScrub s w = scrubSram s w := by
  have same : newPass s w = s := by simp [newPass, hs, h0]
  unfold patrolScrub
  rw [whenUp_up hu, if_pos hs, if_pos hm, same]

theorem scrubHbm_clean (h : secdedDecode w.data w.check = .clean) : scrubHbm s w = s := by
  unfold scrubHbm
  rw [h]

theorem scrubHbm_corrected {d : BitVec 32} (h : secdedDecode w.data w.check = .corrected d) :
    scrubHbm s w = correctHbm s w d := by
  unfold scrubHbm
  rw [h]

theorem scrubHbm_uncorrectable (h : secdedDecode w.data w.check = .uncorrectable) :
    scrubHbm s w = listLine (repairRow (uncorrectable s ⟨3, w.unit⟩ (mapLine s (w.offset / 64 * 64))) w.unit w.row w.spare)
      (w.offset / 64) ⟨3, w.unit⟩ := by
  unfold scrubHbm
  rw [h]

theorem scrubSram_clean (h : secdedDecode w.data w.check = .clean) : scrubSram s w = s := by
  unfold scrubSram
  rw [h]

/-- A corrected word of SRAM counts against its row, which fails at ROW_CE (R309). -/
theorem scrubSram_corrected {d : BitVec 32} (h : secdedDecode w.data w.check = .corrected d) :
    scrubSram s w =
      let s1 := bump s F.MEM_CE_CNT_COUNT
      let n := tgetD s1.mem.rowCe (scrubKey (1024 + w.unit) w.row) 0 + 1
      let s2 := { s1 with mem := { s1.mem with rowCe := tset s1.mem.rowCe (scrubKey (1024 + w.unit) w.row) n } }
      if rd s2 F.MEM_RETIRE_CFG_ROW_CE ≤ n then failSramRow s2 w.unit w.row else s2 := by
  unfold scrubSram
  rw [h]
  rfl

theorem scrubSram_uncorrectable (h : secdedDecode w.data w.check = .uncorrectable) :
    scrubSram s w = failSramRow (uncorrectable s ⟨5, w.unit⟩ (controlMacro w.unit)) w.unit w.row := by
  unfold scrubSram
  rw [h]

/-- What the scrub does with a word of SRAM, by its syndrome. -/
theorem patrolScrub_sram_outcomes (hu : isUp s = true) (hs : w.sram = true) (hm : w.unit < 768) (h0 : w.unit ≠ 0) :
    (secdedDecode w.data w.check = .clean → exec (.patrolScrub w) s = .next s) ∧
    (∀ d, secdedDecode w.data w.check = .corrected d → exec (.patrolScrub w) s = .next (
      let s1 := bump s F.MEM_CE_CNT_COUNT
      let n := tgetD s1.mem.rowCe (scrubKey (1024 + w.unit) w.row) 0 + 1
      let s2 := { s1 with mem := { s1.mem with rowCe := tset s1.mem.rowCe (scrubKey (1024 + w.unit) w.row) n } }
      if rd s2 F.MEM_RETIRE_CFG_ROW_CE ≤ n then failSramRow s2 w.unit w.row else s2)) ∧
    (secdedDecode w.data w.check = .uncorrectable →
      exec (.patrolScrub w) s = .next (failSramRow (uncorrectable s ⟨5, w.unit⟩ (controlMacro w.unit)) w.unit w.row)) := by
  have read := patrolScrub_sram hu hs hm h0
  exact ⟨fun h => congrArg Host.Outcome.next (read.trans (scrubSram_clean h)),
    fun d h => congrArg Host.Outcome.next (read.trans (scrubSram_corrected h)),
    fun h => congrArg Host.Outcome.next (read.trans (scrubSram_uncorrectable h))⟩

/-- What the scrub does with a word of HBM that it can correct. -/
theorem patrolScrub_hbm_corrected {d : BitVec 32} (hu : isUp s = true) (hs : w.sram = false) (hin : inHbm s w.offset 4 = true)
    (hal : w.offset % 4 = 0) (hpc : w.unit = pcOf s w.offset) (ho : w.offset ≠ 0)
    (h : secdedDecode w.data w.check = .corrected d) : exec (.patrolScrub w) s = .next (correctHbm s w d) :=
  congrArg Host.Outcome.next ((patrolScrub_hbm hu hs hin hal hpc ho).trans (scrubHbm_corrected h))

end

/-- Settles O57: the syndrome's table, the parity of a double error's syndrome, and the scrub of a corrected word. -/
theorem secdedOutcomes : Obligations.SecdedOutcomes := by
  refine ⟨fun d c => ⟨?_, ?_, ?_, ?_⟩, fun d c hc => ⟨?_, ?_, ?_, ?_, ?_⟩, ?_, ?_⟩
  · exact secdedDecode_clean
  · exact secdedDecode_checkBit
  · exact fun i hi h => secdedDecode_column hi h
  · exact secdedDecode_other
  · exact fun i hi => oneDataError_corrected hc hi
  · exact fun i hi => oneCheckError_corrected hc hi
  · exact fun i j hij hj => twoDataErrors_detected hc hij hj
  · exact fun i j hi hj => dataAndCheckError_detected hc hi hj
  · exact fun i j hij hj => twoCheckErrors_detected hc hij hj
  · exact fun s w d hu hs hin hal hpc ho h => patrolScrub_hbm_corrected hu hs hin hal hpc ho h
  · exact fun s w hu hs hm h0 => patrolScrub_sram_outcomes hu hs hm h0

end Sys2Proof.MemoryTiers
end

section
/-! Pseudo-channels and stacks that retire (R310), the memory-side add (R313) and the HDM window (R315), and with them the commands of
the memory. -/

namespace Sys2Proof.MemoryTiers

open Sys2Proof Sys2Proof.Machine Sys2Proof.Laws Sys2Proof.HostPort

/-! ### Retirement (R310) -/

section
variable {s : State} {p : Nat}

theorem pcInterfaceFail_retrained (hu : isUp s = true) (hp : pcInService s p = true) :
    pcInterfaceFail s p true = becomeSuspect s p := by
  unfold pcInterfaceFail
  rw [whenUp_up hu, if_neg (by simp [hp]), if_pos rfl]

theorem pcInterfaceFail_lost (hu : isUp s = true) (hp : pcInService s p = true) :
    pcInterfaceFail s p false =
      raiseFault (addRetire s rkPc p 0) St.MEM_PC_FAIL ⟨3, p⟩ (Config.eventDetail (2 * s.out.length)) := by
  unfold pcInterfaceFail
  rw [whenUp_up hu, if_neg (by simp [hp]), if_neg (by decide)]

/-- A pseudo-channel in service that is not yet SUSPECT becomes so, listed and posted. -/
theorem becomeSuspect_first (hp : pcInService s p = true) (hn : ∀ i, tget s.mem.pcs p = some i → i.suspect = false) :
    becomeSuspect s p = openEvent (addRetire (modPc s p (fun i => { i with suspect := true })) rkPc p 0) .error
      St.MEM_PC_SUSPECT ⟨3, p⟩ 0 0 := by
  have fresh : (tget s.mem.pcs p).elim false (fun i => i.suspect) = false := by
    cases h : tget s.mem.pcs p with
    | none => rfl
    | some i => exact hn i h
  unfold becomeSuspect
  rw [if_neg (by simp [hp, fresh])]

theorem pcSuspectCmd_locked (hl : rd s F.SEC_PROT_LOCK_LOCK = 1) (hp : pcInService s p = true) :
    pcSuspectCmd s p = becomeSuspect s p := by
  have present : p < 512 := by
    simp only [pcInService, Bool.and_eq_true, decide_eq_true_eq] at hp
    exact hp.1
  unfold pcSuspectCmd
  rw [bar0_locked hl, if_pos present]

theorem stackRetireCmd_locked (hl : rd s F.SEC_PROT_LOCK_LOCK = 1) (hk : p < 8) :
    stackRetireCmd s p = addRetire { s with mem := { s.mem with stackCmd := (p :: s.mem.stackCmd).dedup } } rkStack p 0 := by
  unfold stackRetireCmd
  rw [bar0_locked hl, if_pos hk]

end

/-! ### Memory-side add (R313) -/

section
variable {s : State} {offset : Nat} {addends : List (BitVec 32)}

theorem atomicAddLine_aligned (hu : isUp s = true) (ha : offset % 64 = 0) (hin : inHbm s offset 64 = true) :
    atomicAddLine s offset addends =
      (readRefusal s offset 64).elim (addLine s offset addends) (fun st => emit s (.status st)) := by
  unfold atomicAddLine
  rw [whenUp_up hu, if_neg (by simp [ha, hin])]
  cases readRefusal s offset 64 <;> rfl

end

/-! ### HDM window (R59, R315) -/

section
variable {s : State} {o : Nat}

theorem hdmServes_disabled {n : Nat} (he : rd s F.HPT_HDM_CFG_EN = 0) : hdmServes s o n = false := by
  simp [hdmServes, he]

theorem hdmHostRead_unserved (hs : hdmServes s (o / 64 * 64) 64 = false) : hdmHostRead s o = s := by
  unfold hdmHostRead
  dsimp only
  rw [if_pos (by simp [hs])]

theorem hdmHostRead_suspect (hs : hdmServes s (64 * o) 64 = true) (ht : touchesSuspect s (hdmLocal s (64 * o)) 64 = true) :
    hdmHostRead s (64 * o) = emit s (.hdmData (List.replicate 64 0) true) := by
  have line : 64 * o / 64 * 64 = 64 * o := by omega
  unfold hdmHostRead
  dsimp only
  rw [line, if_neg (by simp [hs]), if_pos ht]

/-- A line that can be read is answered, and the host may hold it from then on. -/
theorem hdmHostRead_good (hs : hdmServes s (64 * o) 64 = true) (ht : touchesSuspect s (hdmLocal s (64 * o)) 64 = false)
    (hue : touchesUe s (hdmLocal s (64 * o)) 64 = false) :
    hdmHostRead s (64 * o) =
      emit { s with hpt := { s.hpt with hdmHeld := (hdmLocal s (64 * o) / 64 :: s.hpt.hdmHeld).dedup } }
        (.hdmData (readMem s (hdmLocal s (64 * o)) 64) false) := by
  have line : 64 * o / 64 * 64 = 64 * o := by omega
  unfold hdmHostRead
  dsimp only
  rw [line, if_neg (by simp [hs]), if_neg (by simp [ht]), if_neg (by simp [hue])]

theorem hdmHostWrite_served {bytes : List Byte} (hs : hdmServes s o bytes.length = true) (hl : o % 64 + bytes.length ≤ 64) :
    hdmHostWrite s o bytes = storeMem s (hdmLocal s o) bytes := by
  unfold hdmHostWrite
  rw [if_pos (by simp [hs, hl])]

theorem hdmHostWrite_unserved {bytes : List Byte} (hs : hdmServes s o bytes.length = false) : hdmHostWrite s o bytes = s := by
  unfold hdmHostWrite
  rw [if_neg (by simp [hs])]

end

/-- Settles O19: the scrub of a word by its syndrome, retirement, adds, and the HDM window. -/
theorem memoryCommands : Obligations.MemoryCommands := by
  refine ⟨?_, ?_, ?_, ?_, ?_, ?_, ?_, ?_, ?_, ?_, ?_, ?_⟩
  · exact fun s w hu hs hin hal hpc ho h =>
      congrArg Host.Outcome.next ((patrolScrub_hbm hu hs hin hal hpc ho).trans (scrubHbm_clean h))
  · exact fun s w d hu hs hin hal hpc ho h => patrolScrub_hbm_corrected hu hs hin hal hpc ho h
  · exact fun s w hu hs hin hal hpc ho h =>
      congrArg Host.Outcome.next ((patrolScrub_hbm hu hs hin hal hpc ho).trans (scrubHbm_uncorrectable h))
  · exact fun s w hu hs hm h0 => patrolScrub_sram_outcomes hu hs hm h0
  · exact fun s p hu hp => ⟨congrArg Host.Outcome.next (pcInterfaceFail_retrained hu hp),
      congrArg Host.Outcome.next (pcInterfaceFail_lost hu hp)⟩
  · exact fun s p hl hp hn => congrArg Host.Outcome.next ((pcSuspectCmd_locked hl hp).trans (becomeSuspect_first hp hn))
  · exact fun s k hl hk => congrArg Host.Outcome.next (stackRetireCmd_locked hl hk)
  · exact fun s offset addends hu ha hin =>
      ⟨fun hr => next_settle ((atomicAddLine_aligned hu ha hin).trans (by rw [hr]; rfl)),
        fun st hr => next_settle ((atomicAddLine_aligned hu ha hin).trans (by rw [hr]; rfl))⟩
  · exact fun s o hs => ⟨fun ht => congrArg Host.Outcome.next (hdmHostRead_suspect hs ht),
      fun ht hue => congrArg Host.Outcome.next (hdmHostRead_good hs ht hue)⟩
  · exact fun s o bytes hs hl => next_settle (hdmHostWrite_served hs hl)
  · exact fun s o bytes he => ⟨congrArg Host.Outcome.next (hdmHostRead_unserved (hdmServes_disabled he)),
      next_settle (hdmHostWrite_unserved (hdmServes_disabled he))⟩
  · exact fun s a bs => ⟨fun i hi => byteAt_writeMem_inside s a bs hi, fun b hb => byteAt_writeMem_outside s a bs hb⟩

end Sys2Proof.MemoryTiers
end

section
/-! The flash tier goes up and down (R316, R329), and serves sectors (R318, R319, R321). -/

namespace Sys2Proof.Flash

open Sys2Proof Sys2Proof.Machine Sys2Proof.Laws Sys2Proof.HostPort

/-! ### Enable, bring-up and disable (R316, R329) -/

section
variable {s : State} {w : Word}

theorem ftlEnable_idle (hl : rd s F.SEC_PROT_LOCK_LOCK = 1) (hf : bit w 63 = true) (he : rd s F.FLT_CTL_EN = 0)
    (hb : rd s F.FLT_CTL_BUSY = 0) :
    ftlEnable s w = emits (wr (wr (wr s F.FLT_CTL_MAP_BASE_MIB (bits w 19 0)) F.FLT_CTL_BUSY 1) F.FLT_CTL_ERR 0)
      ((List.range 16).map (fun c => .onfi c .bringUp 0 0)) := by
  unfold ftlEnable
  rw [ofForm_of hf, bar0_locked hl, if_neg (by simp [he, hb])]

theorem ftlDisable_enabled (hl : rd s F.SEC_PROT_LOCK_LOCK = 1) (hf : bit w 63 = false) (he : rd s F.FLT_CTL_EN = 1) :
    ftlDisable s w =
      dropMap (wr (wr (wr (wr s F.FLT_CTL_EN 0) F.FLT_CTL_BUSY 0) F.FLT_CAP_UNITS 0) F.FLT_CAP_MAP_MIB 0) := by
  unfold ftlDisable
  rw [ofForm_of (by simp [hf]), bar0_locked hl]
  dsimp only
  rw [if_pos (.inl he)]

/-- A bring-up that is awaited sets EN when a channel is up and the map region is good, and ERR otherwise. -/
theorem ftlBringupDone_awaited {chans : List ChanFound} {bad : List Nat} (hu : isUp s = true) (hb : rd s F.FLT_CTL_BUSY ≠ 0) :
    ftlBringupDone s chans bad =
      let cs := chans.take 16
      let s1 := cs.zipIdx.foldl (fun u p => foundChan u p.2 p.1) s
      let bu := ((cs.filter (fun c => c.trained)).map (fun c => c.blockUnits)).foldl max 0
      let units := (goodBlocks s1 cs bad).length * bu * (256 - rd s F.FLT_CFG_OP) / 256
      let s2 := wr (wr s1 F.FLT_CAP_UNITS units) F.FLT_CAP_MAP_MIB (ceilDiv (8 * units) (2 ^ 20) + Config.mergeMib)
      let s3 := wr { s2 with flt := { FltState.reset with blocks := goodBlocks s1 cs bad, blockUnits := bu } } F.FLT_CTL_BUSY 0
      if chansUp s3 ≠ [] ∧ mapRegionOk s3 = true then wr s3 F.FLT_CTL_EN 1
      else { wr s3 F.FLT_CTL_ERR 1 with flt := FltState.reset } := by
  unfold ftlBringupDone
  rw [whenUp_up hu, if_neg hb]
  dsimp only
  exact if_congr (by simp) rfl rfl

end

/-! ### Sectors read (R318, R321, R327, R329) -/

section
variable {s : State} {c : FlashClient} {sector : Nat}

theorem sectorRead_notReady (hu : isUp s = true) (hr : fltReady s = false) :
    sectorRead s c sector = emit s (.flashReply c sector St.FLT_NOT_READY []) := by
  unfold sectorRead
  rw [whenUp_up hu]
  exact if_pos (by simp [hr])

theorem sectorRead_protected (hu : isUp s = true) (hr : fltReady s = true) (hc : clientOk s c sector 1 = false) :
    sectorRead s c sector = emit s (.flashReply c sector St.FLT_PROT []) := by
  unfold sectorRead
  rw [whenUp_up hu]
  exact (if_neg (by simp [hr])).trans (if_pos (by simp [hc]))

/-- What a client that may use the sector is answered, or the read that the map asks for. -/
theorem sectorRead_allowed (hu : isUp s = true) (hr : fltReady s = true) (hc : clientOk s c sector 1 = true) :
    sectorRead s c sector =
      (bufferedSector s sector).elim
        ((tget s.flt.map (sector / 32)).elim (emit s (.flashReply c sector St.FLT_UNWRITTEN [])) (fun m =>
          if (!m.mask.testBit (sector % 32)) = true then emit s (.flashReply c sector St.FLT_UNWRITTEN [])
          else if (!chanUp s (fltChan m.block)) = true then emit s (.flashReply c sector St.FLT_UNCORR [])
          else emit (modFlt s (fun t => { t with reads := t.reads ++ [⟨some c, sector, m.block⟩] }))
            (.onfi (fltChan m.block) .readPage m.block m.slot)))
        (fun d => emit s (.flashReply c sector St.OK d)) := by
  unfold sectorRead
  rw [whenUp_up hu]
  refine (if_neg (by simp [hr])).trans ((if_neg (by simp [hc])).trans ?_)
  cases bufferedSector s sector with
  | some d => rfl
  | none => cases tget s.flt.map (sector / 32) <;> rfl

section
variable (hu : isUp s = true) (hr : fltReady s = true) (hc : clientOk s c sector 1 = true)
include hu hr hc

/-- The newest copy that is not yet in flash answers. -/
theorem sectorRead_buffered {d : List Byte} (hd : bufferedSector s sector = some d) :
    sectorRead s c sector = emit s (.flashReply c sector St.OK d) := by
  rw [sectorRead_allowed hu hr hc, hd]
  rfl

theorem sectorRead_unmapped (hd : bufferedSector s sector = none) (hm : tget s.flt.map (sector / 32) = none) :
    sectorRead s c sector = emit s (.flashReply c sector St.FLT_UNWRITTEN []) := by
  rw [sectorRead_allowed hu hr hc, hd, hm]
  rfl

/-- A sector that the unit's mask holds, on a channel in service, is read from its page. -/
theorem sectorRead_mapped {m : UnitMap} (hd : bufferedSector s sector = none) (hm : tget s.flt.map (sector / 32) = some m)
    (hbit : m.mask.testBit (sector % 32) = true) (hup : chanUp s (fltChan m.block) = true) :
    sectorRead s c sector = emit (modFlt s (fun t => { t with reads := t.reads ++ [⟨some c, sector, m.block⟩] }))
      (.onfi (fltChan m.block) .readPage m.block m.slot) := by
  rw [sectorRead_allowed hu hr hc, hd, hm]
  exact (if_neg (by simp [hbit])).trans (if_neg (by simp [hup]))

end

end

/-! ### Sectors that come from flash (R321 to R323) -/

/-- The state in which a read is no longer outstanding and the soft retries that it took are counted. -/
def readEnded (s : State) (r : FltRead) (retries : Nat) : State :=
  bumpBy { s with flt := { s.flt with reads := s.flt.reads.erase r } } F.FLT_RETRY_CNT_COUNT retries

section
variable {s : State} {sector : Nat} {r : FltRead} {o : CodewordOutcome}

/-- A read that is outstanding gives its client what the codeword held, and a codeword that held nothing is counted. -/
theorem sectorReadData_outstanding (hu : isUp s = true) (hr : s.flt.reads.find? (fun r => r.sector == sector) = some r) :
    sectorReadData s sector o =
      let read := readEnded s r (retriesOf s o)
      let counted := if (goodData o).isNone = true then bump read F.FLT_UE_CNT_COUNT else read
      eraseWhenDone (countRead (giveSector counted r (goodData o)) r.block (retriesOf s o)) r.block := by
  unfold sectorReadData
  rw [whenUp_up hu]
  simp only [hr]
  rfl

end

/-! ### Sectors written (R318 to R320, R329) -/

section
variable {s : State} {c : FlashClient} {sector : Nat} {data : List (List Byte)}

theorem sectorWrite_notReady (hu : isUp s = true) (hr : fltReady s = false) :
    sectorWrite s c sector data = emit s (.flashReply c sector St.FLT_NOT_READY []) := by
  unfold sectorWrite
  rw [whenUp_up hu]
  exact if_pos (by simp [hr])

theorem sectorWrite_protected (hu : isUp s = true) (hr : fltReady s = true) (hc : clientOk s c sector data.length = false) :
    sectorWrite s c sector data = emit s (.flashReply c sector St.FLT_PROT []) := by
  unfold sectorWrite
  rw [whenUp_up hu]
  exact (if_neg (by simp [hr])).trans (if_pos (by simp [hc]))

theorem sectorWrite_noSpace (hu : isUp s = true) (hr : fltReady s = true) (hc : clientOk s c sector data.length = true)
    (hn : rd s F.FLT_CAP_UNITS < ceilDiv (sector + data.length) 32) :
    sectorWrite s c sector data = emit s (.flashReply c sector St.FLT_NO_SPACE []) := by
  unfold sectorWrite
  rw [whenUp_up hu]
  exact (if_neg (by simp [hr])).trans ((if_neg (by simp [hc])).trans (if_pos hn))

/-- Sectors within the capacity join their units' merge buffers, and the client is answered at once (R319). -/
theorem sectorWrite_taken (hu : isUp s = true) (hr : fltReady s = true) (hc : clientOk s c sector data.length = true)
    (hn : ceilDiv (sector + data.length) 32 ≤ rd s F.FLT_CAP_UNITS) :
    sectorWrite s c sector data = emit
      ((((List.range data.length).map (fun i => (sector + i) / 32)).dedup).foldl mergeOn
        (countClient (data.zipIdx.foldl (fun u p => putSector u (sector + p.2) p.1) s) data.length))
      (.flashReply c sector St.OK []) := by
  unfold sectorWrite
  rw [whenUp_up hu]
  exact (if_neg (by simp [hr])).trans ((if_neg (by simp [hc])).trans (if_neg (by omega)))

end

/-- Settles O20: each branch of the flash tier's service, from its enabling to its writes. -/
theorem flashService : Obligations.FlashService := by
  refine ⟨?_, ?_, ?_, ?_, ?_, ?_, ?_, ?_, ?_⟩
  · exact fun s w hl hf he hb => congrArg Host.Outcome.next (ftlEnable_idle hl hf he hb)
  · exact fun s chans bad hu hb => congrArg Host.Outcome.next (ftlBringupDone_awaited hu hb)
  · exact fun s w hl hf he => congrArg Host.Outcome.next (ftlDisable_enabled hl hf he)
  · exact fun s c sector d hu hr hc hd => congrArg Host.Outcome.next (sectorRead_buffered hu hr hc hd)
  · exact fun s c sector m hu hr hc hd hm hbit hup => congrArg Host.Outcome.next (sectorRead_mapped hu hr hc hd hm hbit hup)
  · exact fun s c sector hu => ⟨fun hr => congrArg Host.Outcome.next (sectorRead_notReady hu hr),
      fun hr hc => congrArg Host.Outcome.next (sectorRead_protected hu hr hc),
      fun hr hc hd hm => congrArg Host.Outcome.next (sectorRead_unmapped hu hr hc hd hm)⟩
  · exact fun s sector d r hu hr => ⟨next_settle (sectorReadData_outstanding hu hr),
      next_settle (sectorReadData_outstanding hu hr)⟩
  · exact fun s c sector data hu hr hc hn => congrArg Host.Outcome.next (sectorWrite_taken hu hr hc hn)
  · exact fun s c sector data hu => ⟨fun hr => congrArg Host.Outcome.next (sectorWrite_notReady hu hr),
      fun hr hc => congrArg Host.Outcome.next (sectorWrite_protected hu hr hc),
      fun hr hc hn => congrArg Host.Outcome.next (sectorWrite_noSpace hu hr hc hn)⟩

end Sys2Proof.Flash
end

section
/-! The flash tier's upkeep: merge buffers (R319), programs and erases (R322, R325), collection (R324), levelling, calibration (R317),
and the loss of a channel (R327). -/

namespace Sys2Proof.Flash

open Sys2Proof Sys2Proof.Machine Sys2Proof.Laws Sys2Proof.HostPort

/-! ### Merge buffers and programs (R319, R322, R325) -/

section
variable {s : State} {unit : Nat} {p : FltProg}

theorem mergeTimeout_buffered (hu : isUp s = true) (hb : thas s.flt.bufs unit = true) (hr : fltReady s = true) :
    mergeTimeout s unit =
      mergeOn { s with flt := { s.flt with bufs := tmod s.flt.bufs unit (fun b => { b with due := true }) } } unit := by
  unfold mergeTimeout
  rw [whenUp_up hu, if_pos (by simp [hb, hr])]
  rfl

/-- The four pages of a unit's program are counted before anything else. -/
theorem pageProgramDone_running {ok : Bool} (hu : isUp s = true) (hp : s.flt.progs.find? (fun p => p.unit == unit) = some p) :
    pageProgramDone s unit ok =
      let s1 := bumpBy { s with flt := { s.flt with progs := s.flt.progs.erase p } } F.FLT_NAND_WR_CNT_COUNT 4
      if ok = true then unitStored s1 p else progAgain (retireBlock s1 p.block) p := by
  unfold pageProgramDone
  rw [whenUp_up hu]
  simp only [hp]
  rfl

theorem mapUnit_ofClient (ho : p.old = none) : tget (mapUnit s p).flt.map p.unit = some ⟨p.block, p.slot, p.mask⟩ := by
  unfold mapUnit
  simp only [ho, modFlt, tget_tset_same]

/-- A relocation whose unit has been written again since is dropped. -/
theorem mapUnit_superseded {o : Nat × Nat} {m : UnitMap} (ho : p.old = some o) (hm : tget s.flt.map p.unit = some m)
    (hne : (m.block, m.slot) ≠ o) : mapUnit s p = s := by
  have moved : ¬ (m.block = o.1 ∧ m.slot = o.2) := fun h => hne (Prod.ext h.1 h.2)
  unfold mapUnit
  simp only [ho, hm]
  exact if_neg moved

/-- A relocation of a unit that is still where it was keeps the sectors that the map lists now. -/
theorem mapUnit_relocated {m : UnitMap} (ho : p.old = some (m.block, m.slot)) (hm : tget s.flt.map p.unit = some m) :
    tget (mapUnit s p).flt.map p.unit = some ⟨p.block, p.slot, m.mask⟩ := by
  unfold mapUnit
  simp only [ho, hm, and_self, if_true, modFlt, tget_tset_same]

end

/-! ### Erases (R322) -/

section
variable {s : State} {b : Nat}

theorem blockEraseDone_erased (hu : isUp s = true) (hb : thas s.flt.blocks b = true) (he : (blockOf s b).erasing = true)
    (hl : (blockOf s b).leaving = false) :
    blockEraseDone s b true = mergeAll (moveRest (modBlock (modBlock s b (fun x => { x with erases := x.erases + 1, reads := 0 })) b
      (fun x => { x with erasing := false, moving := false, next := 0, clean := true }))) := by
  unfold blockEraseDone
  rw [whenUp_up hu, if_neg (by simp [hb])]
  refine (if_neg (by decide)).trans ((if_pos he).trans ?_)
  dsimp only
  rw [if_neg (by simp [hl])]

theorem blockEraseDone_failed (hu : isUp s = true) (hb : thas s.flt.blocks b = true) :
    blockEraseDone s b false =
      reprogram (retireBlock (modBlock s b (fun x => { x with erasing := false, moving := false })) b) (fun c => c == b) := by
  unfold blockEraseDone
  rw [whenUp_up hu, if_neg (by simp [hb])]
  exact if_pos (by decide)

end

/-! ### Collection, levelling, calibration and failure (R317, R322, R324, R327) -/

section
variable {s : State} (hu : isUp s = true)
include hu

theorem garbageCollection_found {e : Nat × FltBlock} (hr : fltReady s = true)
    (he : minBy (fun e => validUnits s e.1 * 2 ^ 64 + e.2.age)
      ((usedBlocks s).filter (fun e => e.2.next == s.flt.blockUnits)) = some e) :
    garbageCollection s = moveBlock s e.1 := by
  unfold garbageCollection
  rw [whenUp_up hu, if_neg (by simp [hr])]
  simp only [he]

/-- The least-erased block in use moves when the most-erased one is more than WEAR_DELTA ahead. -/
theorem staticLevelling_found {e : Nat × FltBlock} (hr : fltReady s = true)
    (he : minBy (fun e => e.2.erases) (usedBlocks s) = some e) :
    staticLevelling s =
      if e.2.erases + rd s F.FLT_CFG_WEAR_DELTA < ((usedBlocks s).map (fun e => e.2.erases)).foldl max 0 then moveBlock s e.1
      else s := by
  unfold staticLevelling
  rw [whenUp_up hu, if_neg (by simp [hr])]
  simp only [he]

theorem zqCalibration_ready (hr : fltReady s = true) :
    zqCalibration s = emits s ((chansUp s).map (fun c => .onfi c .zq 0 0)) := by
  unfold zqCalibration
  rw [whenUp_up hu, if_pos hr]

/-- A channel that fails gives up its reads, and its programs go elsewhere. -/
theorem flashChannelFail_up {c : Nat} (hc : c < 16) (hup : chanUp s c = true) :
    flashChannelFail s c =
      reprogram ((s.flt.reads.filter (fun r => fltChan r.block == c)).foldl (fun v r => giveSector v r none)
        (modFlt (chanFailed s c) (fun t => { t with reads := t.reads.filter (fun r => fltChan r.block != c) })))
        (fun b => fltChan b == c) := by
  unfold flashChannelFail
  rw [whenUp_up hu, if_neg (by simp [hc, hup])]

end

/-- Settles O21: what each timer and reply of the flash channels does to blocks, the map and the counters. -/
theorem flashUpkeep : Obligations.FlashUpkeep := by
  refine ⟨?_, ?_, ?_, ?_, ?_, ?_, ?_, ?_, ?_⟩
  · exact fun s unit hu hb hr => congrArg Host.Outcome.next (mergeTimeout_buffered hu hb hr)
  · exact fun s unit p hu hp => ⟨congrArg Host.Outcome.next (pageProgramDone_running hu hp),
      congrArg Host.Outcome.next (pageProgramDone_running hu hp)⟩
  · exact fun s p => ⟨mapUnit_ofClient, fun o m ho hm hne => mapUnit_superseded ho hm hne, fun m ho hm => mapUnit_relocated ho hm⟩
  · exact fun s b hu hb he hl => congrArg Host.Outcome.next (blockEraseDone_erased hu hb he hl)
  · exact fun s b hu hb => congrArg Host.Outcome.next (blockEraseDone_failed hu hb)
  · exact fun s b x hu hr he => congrArg Host.Outcome.next (garbageCollection_found hu hr he)
  · exact fun s b x hu hr he => ⟨fun h => congrArg Host.Outcome.next ((staticLevelling_found hu hr he).trans (if_pos h)),
      fun h => congrArg Host.Outcome.next ((staticLevelling_found hu hr he).trans (if_neg (Nat.not_lt.2 h)))⟩
  · exact fun s hu hr => congrArg Host.Outcome.next (zqCalibration_ready hu hr)
  · exact fun s c hu hc hup => congrArg Host.Outcome.next (flashChannelFail_up hu hc hup)

end Sys2Proof.Flash
end

section
/-! The frames of the Ghemlink ports: training, key exchange, lanes and timeouts (R336, R339, R346). -/

namespace Sys2Proof.Frames

open Sys2Proof Sys2Proof.Machine Sys2Proof.Laws

/-! ### Registers that a frame statement names -/

theorem off_mem_frameOffs {ones : List Field} {arrays : List (Field × Nat)} {f : Field} (h : f ∈ ones) :
    f.off 0 ∈ frameOffs ones arrays := List.mem_append_left _ (List.mem_map_of_mem h)

theorem arrayOff_mem_frameOffs {ones : List Field} {arrays : List (Field × Nat)} {f : Field} {k i : Nat} (h : (f, k) ∈ arrays)
    (hi : i < k) : f.off i ∈ frameOffs ones arrays :=
  List.mem_append_right _ (List.mem_flatMap.2 ⟨(f, k), h, List.mem_map_of_mem (List.mem_range.2 hi)⟩)

theorem frameOffs_subset {ones ones' : List Field} {arrays arrays' : List (Field × Nat)} (h : ones ⊆ ones')
    (k : arrays ⊆ arrays') : frameOffs ones arrays ⊆ frameOffs ones' arrays' := by
  intro o ho
  obtain hm | hm := List.mem_append.1 ho
  · obtain ⟨f, hf, rfl⟩ := List.mem_map.1 hm
    exact off_mem_frameOffs (h hf)
  · obtain ⟨f, hf, hm⟩ := List.mem_flatMap.1 hm
    obtain ⟨i, hi, rfl⟩ := List.mem_map.1 hm
    exact arrayOff_mem_frameOffs (k hf) (List.mem_range.1 hi)

/-! ### Updates and guards within given bounds -/

section
variable {ps : List Part} {offs : List Nat} {s : State}

/-- An operation that writes no register keeps the registers of any bound. -/
theorem Keeps.widen {qs : List Part} {t : State} (h : Keeps qs [] s t) (hp : qs ⊆ ps) : Keeps ps offs s t :=
  h.mono hp (List.nil_subset offs)

theorem keeps_wri_of_mem {f : Field} {i : Nat} (h : f.off i ∈ offs) (v : Nat) : Keeps ps offs s (wri s f i v) :=
  (keeps_wri s f i v).mono (List.nil_subset ps) (by simpa using h)

theorem keeps_addSat_of_mem {f : Field} {i : Nat} (h : f.off i ∈ offs) (n : Nat) : Keeps ps offs s (addSat s f i n) :=
  keeps_wri_of_mem h _

theorem keeps_ite {b : Prop} [Decidable b] {t u : State} (h : Keeps ps offs s t) (k : Keeps ps offs s u) :
    Keeps ps offs s (if b then t else u) := by
  split
  · exact h
  · exact k

/-- An operand that does not have the form of its command changes nothing. -/
theorem keeps_ofForm_of {b : Bool} {t : State} (h : b = true → Keeps ps offs s t) : Keeps ps offs s (ofForm b s t) := by
  unfold ofForm
  split
  next hb => exact h hb
  · exact .refl s

theorem keeps_bar0_of_mem {f : State → State} (hp : [.ras, .out] ⊆ ps) (ho : F.SEC_REJECT_CNT_COUNT.off 0 ∈ offs)
    (h : Keeps ps offs s (f s)) : Keeps ps offs s (bar0 s f) :=
  (keeps_bar0 h).mono (List.append_subset.2 ⟨hp, List.Subset.refl ps⟩) (List.cons_subset.2 ⟨ho, List.Subset.refl offs⟩)

end

end Sys2Proof.Frames

namespace Sys2Proof.Fabric

open Sys2Proof Sys2Proof.Machine Sys2Proof.Laws Sys2Proof.Frames

/-! ### The state of a port (R336, R339) -/

/-- The registers that a port's link writes by itself: status, error counts, and which continuity ports are ACTIVE. -/
def linkOffs : List Nat :=
  frameOffs [F.CON_STAT_PORTS_UP] [(F.GLK_PORT_STAT_LANE_OK, 60), (F.GLK_PORT_ERR_CNT_RETRAIN, 60)]

/-- What a port's link changes by itself. -/
abbrev LinkKeeps (s t : State) : Prop := Keeps [.hpt, .ras, .glk, .out] linkOffs s t

theorem linkKeeps_setPort (s : State) (n : Nat) (p : GPort) : LinkKeeps s (setPort s n p) :=
  (keeps_setPort s n p).widen (by decide)

theorem linkKeeps_linkChange (s : State) (n : Nat) (st : Status) : LinkKeeps s (linkChange s n st) :=
  (keeps_postEvent ..).widen (by decide)

section
variable {n : Nat} (hn : n < 60)
include hn

/-- The fields of a port's status stand in one register. -/
theorem linkKeeps_stat {f : Field} (s : State) (v : Nat) (hf : f.off n = F.GLK_PORT_STAT_LANE_OK.off n := by rfl) :
    LinkKeeps s (wri s f n v) :=
  keeps_wri_of_mem (hf ▸ arrayOff_mem_frameOffs (by decide) hn) v

/-- The error counts of a port stand in one register. -/
theorem linkKeeps_count {f : Field} (s : State) (k : Nat) (hf : f.off n = F.GLK_PORT_ERR_CNT_RETRAIN.off n := by rfl) :
    LinkKeeps s (addSat s f n k) := keeps_addSat_of_mem (hf ▸ arrayOff_mem_frameOffs (by decide) hn) k

theorem linkKeeps_setPortState (s : State) (st : Nat) : LinkKeeps s (setPortState s n st) := by
  have state := linkKeeps_stat hn (f := F.GLK_PORT_STAT_STATE) s st
  exact keeps_ite (state.andThen (keeps_wri_of_mem (off_mem_frameOffs (by decide)) _)) state

theorem linkKeeps_clearPort (s : State) (retry : Bool) : LinkKeeps s (clearPort s n retry) := by
  unfold clearPort
  exact (linkKeeps_setPort s n _).andThen (linkKeeps_stat hn _ 0) |>.andThen (linkKeeps_stat hn _ 0)
    |>.andThen (linkKeeps_stat hn _ 0)

/-- A port that enters TRAIN loses its own state only, and that is counted and reported. -/
theorem linkKeeps_enterTrain (s : State) (st : Status) (retry : Bool) : LinkKeeps s (enterTrain s n st retry) := by
  unfold enterTrain
  exact (linkKeeps_clearPort hn s retry).andThen (linkKeeps_setPortState hn _ 1) |>.andThen (linkKeeps_count hn _ 1)
    |>.andThen (linkKeeps_linkChange _ n st)

end

/-! ### Training and service (R336, R339, R346) -/

/-- The registers of the port commands, as their frame names them. -/
def portOffs : List Nat :=
  frameOffs [F.SEC_REJECT_CNT_COUNT, F.CON_STAT_PORTS_UP]
    [(F.GLK_PORT_CTL_EN, 60), (F.GLK_PORT_STAT_LANE_OK, 60), (F.GLK_PORT_ERR_CNT_RETRAIN, 60)]

/-- What a command of a port changes. -/
abbrev PortKeeps (s t : State) : Prop := Keeps [.hpt, .ras, .glk, .out] portOffs s t

theorem portKeeps_of_link {s t : State} (h : LinkKeeps s t) : PortKeeps s t :=
  h.mono (List.Subset.refl _) (frameOffs_subset (by decide) (by decide))

/-- A write to a port's control register before the lock is refused. -/
theorem portKeeps_bar0 {s : State} {f : State → State} (h : PortKeeps s (f s)) : PortKeeps s (bar0 s f) :=
  keeps_bar0_of_mem (by decide) (off_mem_frameOffs (by decide)) h

/-- The fields of a port's control stand in one register. -/
theorem portKeeps_ctl {n : Nat} (hn : n < 60) {f : Field} (s : State) (v : Nat)
    (hf : f.off n = F.GLK_PORT_CTL_EN.off n := by rfl) : PortKeeps s (wri s f n v) :=
  keeps_wri_of_mem (hf ▸ arrayOff_mem_frameOffs (by decide) hn) v

theorem portKeeps_setMaxWidth {n : Nat} (hn : n < 60) (s : State) (w : Word) : PortKeeps s (setMaxWidth s n w) :=
  keeps_ite (.refl s) (portKeeps_ctl hn s _)

theorem portKeeps_portEnable (s : State) (n : Nat) (w : Word) : PortKeeps s (portEnable s n w) := by
  refine keeps_ofForm_of (fun hb => portKeeps_bar0 ?_)
  have hn : n < 60 := by simpa using (Bool.and_eq_true_iff.1 hb).2
  have width := portKeeps_setMaxWidth hn s w
  have train (t : State) := portKeeps_of_link (linkKeeps_enterTrain hn t St.OK false)
  exact keeps_ite ((width.andThen (portKeeps_ctl hn _ 1)).andThen (train _)) (keeps_ite (width.andThen (train _)) width)

theorem portKeeps_portDisable (s : State) (n : Nat) (w : Word) : PortKeeps s (portDisable s n w) := by
  refine keeps_ofForm_of (fun hb => portKeeps_bar0 ?_)
  have hn : n < 60 := by simpa using (Bool.and_eq_true_iff.1 hb).2
  have width := portKeeps_setMaxWidth hn s w
  have down (t : State) := portKeeps_of_link ((linkKeeps_clearPort hn t false).andThen (linkKeeps_setPortState hn _ 0))
  exact keeps_ite ((width.andThen (down _)).andThen (portKeeps_ctl hn _ 0)) width

theorem portKeeps_portRetrain (s : State) (n : Nat) : PortKeeps s (portRetrain s n) := by
  refine portKeeps_bar0 ?_
  split
  next h => exact portKeeps_of_link (linkKeeps_enterTrain h.1 s _ _)
  · exact .refl s

theorem linkKeeps_pmdTrainingDone (s : State) (n : Nat) (lanes : BitVec 8) : LinkKeeps s (pmdTrainingDone s n lanes) := by
  unfold pmdTrainingDone
  split
  · exact .refl s
  next h =>
    have hn : n < 60 := Nat.not_le.1 (not_or.1 h).1
    split
    · exact linkKeeps_enterTrain hn s _ _
    · exact (linkKeeps_stat hn s _).andThen (linkKeeps_stat hn _ _) |>.andThen (linkKeeps_setPort _ n _)
        |>.andThen (linkKeeps_setPortState hn _ 2) |>.andThen ((keeps_emit _ _).widen (by decide))

theorem linkKeeps_trainRetry (s : State) (n : Nat) : LinkKeeps s (trainRetry s n) :=
  keeps_ite (.refl s) (linkKeeps_setPort s n _)

theorem linkKeeps_sendCredit (s : State) (n : Nat) (nak : Bool) : LinkKeeps s (sendCredit s n nak) :=
  (linkKeeps_setPort s n _).andThen ((keeps_emit _ _).widen (by decide))

theorem linkKeeps_keyxFrame (s : State) (n : Nat) (f : KeyxMsg) : LinkKeeps s (keyxFrame s n f) := by
  unfold keyxFrame
  dsimp only
  split
  · exact .refl s
  next h =>
    have hn : n < 60 := Nat.not_le.1 (not_or.1 h).1
    have refused (st : Status) (d : Word) : LinkKeeps s (errorEvent (enterTrain s n St.OK true) st (portUnit n) 0 0 0 d) :=
      (linkKeeps_enterTrain hn s _ _).andThen ((keeps_postEvent ..).widen (by decide))
    refine keeps_ite (refused _ _) (keeps_ite (refused _ _) (keeps_ite ?_ (linkKeeps_setPort s n _)))
    exact (linkKeeps_setPort s n _).andThen (linkKeeps_stat hn _ _) |>.andThen (linkKeeps_setPortState hn _ 3)
      |>.andThen (linkKeeps_sendCredit _ n false)

theorem linkKeeps_laneFault (s : State) (n : Nat) (good : BitVec 8) : LinkKeeps s (laneFault s n good) := by
  unfold laneFault
  dsimp only
  split
  · exact .refl s
  next h =>
    have hn : n < 60 := Nat.not_le.1 (not_or.1 h).1
    split
    · exact linkKeeps_enterTrain hn s _ _
    · have narrowed (w v : Nat) := (linkKeeps_stat hn (f := F.GLK_PORT_STAT_WIDTH) s w).andThen
        (linkKeeps_stat hn (f := F.GLK_PORT_STAT_LANE_OK) _ v)
      have resent (t : State) (os : List Output) : LinkKeeps t (emits (addSat t F.GLK_PORT_ERR_CNT_REPLAY n 1) os) :=
        (linkKeeps_count hn t 1).andThen ((keeps_emits _ os).widen (by decide))
      exact keeps_ite (narrowed _ _)
        (((narrowed _ _).andThen (keeps_ite (.refl _) (resent _ _))).andThen (linkKeeps_linkChange _ n _))

theorem linkKeeps_portRxTimeout (s : State) (n : Nat) : LinkKeeps s (portRxTimeout s n) := by
  unfold portRxTimeout
  split
  next h => exact linkKeeps_enterTrain h.1 s _ _
  · exact .refl s

theorem linkKeeps_creditTimeout (s : State) (n vc : Nat) : LinkKeeps s (creditTimeout s n vc) := by
  unfold creditTimeout
  dsimp only
  split
  next h => exact linkKeeps_enterTrain h.1 s _ _
  · exact .refl s

theorem linkKeeps_creditFrameInterval (s : State) (n : Nat) : LinkKeeps s (creditFrameInterval s n) :=
  keeps_ite (linkKeeps_sendCredit s n false) (.refl s)

theorem portOnly_frame (c : Instr) (s : State) (hc : portOnly c = true) : ∃ b, exec c s = .next b ∧ PortKeeps s b := by
  cases c with
  | portEnable n w => exact ⟨_, rfl, portKeeps_portEnable s n w⟩
  | pmdTrainingDone n lanes => exact ⟨_, rfl, portKeeps_of_link (linkKeeps_pmdTrainingDone s n lanes)⟩
  | trainRetry n => exact ⟨_, rfl, portKeeps_of_link (linkKeeps_trainRetry s n)⟩
  | creditTimeout n vc => exact ⟨_, rfl, portKeeps_of_link (linkKeeps_creditTimeout s n vc)⟩
  | creditFrameInterval n => exact ⟨_, rfl, portKeeps_of_link (linkKeeps_creditFrameInterval s n)⟩
  | _ => cases hc

/-- The error counts of a port stand in one register, whichever of them a frame names. -/
theorem portKeeps_namingReplay {s t : State} (h : PortKeeps s t) :
    Keeps [.hpt, .ras, .glk, .out] (frameOffs [F.SEC_REJECT_CNT_COUNT, F.CON_STAT_PORTS_UP]
      [(F.GLK_PORT_CTL_EN, 60), (F.GLK_PORT_STAT_LANE_OK, 60), (F.GLK_PORT_ERR_CNT_REPLAY, 60)]) s t := h

theorem portSettling_frame (c : Instr) (s : State) (hc : portSettling c = true) :
    ∃ b, exec c s = .next (settle s b) ∧ PortKeeps s b := by
  cases c with
  | portDisable n w => exact ⟨_, rfl, portKeeps_portDisable s n w⟩
  | portRetrain n => exact ⟨_, rfl, portKeeps_portRetrain s n⟩
  | keyxFrame n f => exact ⟨_, rfl, portKeeps_of_link (linkKeeps_keyxFrame s n f)⟩
  | laneFault n good => exact ⟨_, rfl, portKeeps_of_link (linkKeeps_laneFault s n good)⟩
  | portRxTimeout n => exact ⟨_, rfl, portKeeps_of_link (linkKeeps_portRxTimeout s n)⟩
  | _ => cases hc

end Sys2Proof.Fabric
end

section
/-! The frames of what passes a port, of the shapers and of the gates (R341 to R371), and with them those of the ports. -/

namespace Sys2Proof.Fabric

open Sys2Proof Sys2Proof.Machine Sys2Proof.Laws Sys2Proof.Frames

/-! ### Frames that arrive (R341, R347, R349) -/

theorem linkKeeps_replay {n : Nat} (hn : n < 60) (s : State) (ack : Nat) : LinkKeeps s (replay s n ack) := by
  have counted (p : GPort) := (linkKeeps_setPort s n p).andThen (linkKeeps_count hn (f := F.GLK_PORT_ERR_CNT_REPLAY) _ 1)
  exact keeps_ite ((counted _).andThen (linkKeeps_enterTrain hn _ _ _)) ((counted _).andThen ((keeps_emits _ _).widen (by decide)))

theorem linkKeeps_nakFrame (s : State) (n : Nat) : LinkKeeps s (nakFrame s n) :=
  keeps_ite (.refl s) ((linkKeeps_setPort s n _).andThen (linkKeeps_sendCredit _ n true))

theorem linkKeeps_badCheck {n : Nat} (hn : n < 60) (s : State) (c : FrameCheck) : LinkKeeps s (badCheck s n c) := by
  have corrupt : LinkKeeps s (nakFrame (addSat s F.GLK_PORT_ERR_CNT_CRC_ERR n 1) n) :=
    (linkKeeps_count hn s 1).andThen (linkKeeps_nakFrame _ n)
  have counted (p : GPort) := (linkKeeps_setPort s n p).andThen (linkKeeps_count hn (f := F.GLK_PORT_ERR_CNT_AUTH_ERR) _ 1)
  cases c with
  | tagFail => exact keeps_ite ((counted _).andThen (linkKeeps_enterTrain hn _ _ _)) ((counted _).andThen (linkKeeps_nakFrame _ n))
  | good => exact corrupt
  | corrupt => exact corrupt

theorem linkKeeps_acceptSeq {n : Nat} (hn : n < 60) (s : State) (ack : Nat) (nak : Bool) : LinkKeeps s (acceptSeq s n ack nak) :=
  keeps_ite ((linkKeeps_setPort s n _).andThen (linkKeeps_replay hn _ ack)) (linkKeeps_setPort s n _)

/-- The counters of the gates: waits and overruns (R368, R369). -/
def gateCounters : List Nat := frameOffs [F.SHP_GATE_WAIT_CNT_COUNT, F.SHP_OVERRUN_CNT_COUNT] []

/-- A port that picks a frame counts in the two registers of the gates only; a flow that finds no entry is met earlier (R362). -/
theorem keeps_servePort_gates (s : State) (n : Nat) (opening : Bool) :
    Keeps [.glk, .shp, .out] gateCounters s (servePort s n opening) := by
  have waits := (keeps_countWaits s n (portOf s n)).mono (ps := [.glk, .shp, .out]) (offs := gateCounters)
    (by decide) (by decide)
  unfold servePort
  refine keeps_ite (.refl s) ?_
  dsimp only
  split
  · exact keeps_ite (.refl s) (waits.andThen ((keeps_setPort _ _ _).widen (by decide)))
  · have sent (p : GPort) (o : Output) (b c : Prop) [Decidable b] [Decidable c] :=
      waits.andThen (keeps_ite (b := b) (keeps_addSat_of_mem (f := F.SHP_OVERRUN_CNT_COUNT) (i := 0) (by decide) 1) (.refl _))
        |>.andThen ((keeps_setPort _ n p).widen (by decide)) |>.andThen ((keeps_emit _ o).widen (by decide))
        |>.andThen (keeps_ite (b := c) ((keeps_emit _ (.keyxFrame n)).widen (by decide)) (.refl _))
    refine keeps_ite ?_ (sent _ _ _ _)
    split
    · exact (sent _ _ _ _).andThen ((keeps_placeFlow _ _ _).widen (by decide))
    · exact sent _ _ _ _

/-- The registers of the frames on the ports, as their frame names them. -/
def trafficOffs : List Nat :=
  frameOffs [F.SHP_GATE_WAIT_CNT_COUNT, F.SHP_OVERRUN_CNT_COUNT, F.CON_STAT_PORTS_UP]
    [(F.GLK_PORT_STAT_LANE_OK, 60), (F.GLK_PORT_ERR_CNT_AUTH_ERR, 60)]

/-- What a frame that arrives changes. -/
abbrev TrafficKeeps (s t : State) : Prop := Keeps [.hpt, .ras, .glk, .shp, .out] trafficOffs s t

/-- The error counts of a port stand in one register, whichever of them a frame names. -/
theorem trafficOffs_eq : trafficOffs = frameOffs [F.SHP_GATE_WAIT_CNT_COUNT, F.SHP_OVERRUN_CNT_COUNT, F.CON_STAT_PORTS_UP]
    [(F.GLK_PORT_STAT_LANE_OK, 60), (F.GLK_PORT_ERR_CNT_RETRAIN, 60)] := rfl

theorem trafficKeeps_of_link {s t : State} (h : LinkKeeps s t) : TrafficKeeps s t :=
  h.mono (by decide) (trafficOffs_eq ▸ frameOffs_subset (by decide) (by decide))

theorem trafficKeeps_servePort (s : State) (n : Nat) (opening : Bool) : TrafficKeeps s (servePort s n opening) :=
  (keeps_servePort_gates s n opening).mono (by decide) (frameOffs_subset (by decide) (List.nil_subset _))

theorem trafficKeeps_creditFrame (s : State) (n : Nat) (f : CreditMsg) : TrafficKeeps s (creditFrame s n f) := by
  unfold creditFrame
  split
  · exact .refl s
  next h =>
    have hn : n < 60 := Nat.not_le.1 (not_or.1 h).1
    have accepted := trafficKeeps_of_link (linkKeeps_acceptSeq hn s f.ack f.nak)
    have credited (p : GPort) := accepted.andThen (trafficKeeps_of_link (linkKeeps_setPort _ n p))
    have tested (t : State) : TrafficKeeps t (beginTest t n) :=
      trafficKeeps_of_link ((linkKeeps_setPortState hn t 4).andThen ((keeps_emit _ _).widen (by decide)))
    exact keeps_ite (trafficKeeps_of_link (linkKeeps_badCheck hn s _)) (keeps_ite (trafficKeeps_of_link (linkKeeps_nakFrame s n))
      (keeps_ite accepted (keeps_ite ((credited _).andThen (tested _)) ((credited _).andThen (trafficKeeps_servePort _ n false)))))

theorem trafficKeeps_dataFrame (s : State) (n : Nat) (f : DataMsg) : TrafficKeeps s (dataFrame s n f) := by
  unfold dataFrame
  split
  · exact .refl s
  next h =>
    have hn : n < 60 := Nat.not_le.1 (not_or.1 h).1
    have bad (c : FrameCheck) := trafficKeeps_of_link (linkKeeps_badCheck hn s c)
    have accepted := trafficKeeps_of_link (linkKeeps_acceptSeq hn s f.ack f.nak)
    have freed (p : GPort) := accepted.andThen (trafficKeeps_of_link (linkKeeps_setPort _ n p))
    have discarded (t : State) := trafficKeeps_of_link ((linkKeeps_count hn (f := F.GLK_PORT_ERR_CNT_BAD_FRAME) t 1).andThen
      ((keeps_openEvent _ .error St.GLK_BAD_FRAME (portUnit n) 0 0).widen (by decide)))
    exact keeps_ite (bad _) (keeps_ite (bad _) (keeps_ite (trafficKeeps_of_link (linkKeeps_nakFrame s n)) (keeps_ite accepted
      (keeps_ite ((freed _).andThen (trafficKeeps_servePort _ n false)) ((freed _).andThen (discarded _))))))

theorem frameSettling_frame (c : Instr) (s : State) (hc : frameSettling c = true) :
    ∃ b, exec c s = .next (settle s b) ∧ TrafficKeeps s b := by
  cases c with
  | creditFrame n f => exact ⟨_, rfl, trafficKeeps_creditFrame s n f⟩
  | dataFrame n f => exact ⟨_, rfl, trafficKeeps_dataFrame s n f⟩
  | _ => cases hc

/-! ### Frames that leave, shapers and gates (R348, R365 to R371) -/

/-- The registers of the shapers and gates, as their frame names them. -/
def shapeOffs : List Nat :=
  frameOffs [F.SEC_REJECT_CNT_COUNT, F.SHP_GATE_WAIT_CNT_COUNT, F.SHP_OVERRUN_CNT_COUNT] [(F.SHP_GATE_CTL_EN, 56)]

/-- What a command of the shapers and gates changes. -/
abbrev ShapeKeeps (s t : State) : Prop := Keeps [.ras, .glk, .shp, .out] shapeOffs s t

theorem shapeKeeps_servePort (s : State) (n : Nat) (opening : Bool) : ShapeKeeps s (servePort s n opening) :=
  (keeps_servePort_gates s n opening).mono (by decide) (frameOffs_subset (by decide) (List.nil_subset _))

theorem shapeKeeps_setPort (s : State) (n : Nat) (p : GPort) : ShapeKeeps s (setPort s n p) :=
  (keeps_setPort s n p).widen (by decide)

theorem shapeKeeps_shp (s : State) (x : ShpState) : ShapeKeeps s { s with shp := x } := (keeps_shp s x).widen (by decide)

theorem shapeKeeps_bar0 {s : State} {f : State → State} (h : ShapeKeeps s (f s)) : ShapeKeeps s (bar0 s f) :=
  keeps_bar0_of_mem (by decide) (off_mem_frameOffs (by decide)) h

theorem shapeKeeps_frameOnWireFinishes (s : State) (n : Nat) : ShapeKeeps s (frameOnWireFinishes s n) :=
  keeps_ite (.refl s) ((shapeKeeps_setPort s n _).andThen (shapeKeeps_servePort _ n false))

theorem shapeKeeps_shaperWrite (s : State) (k : Nat) (w : Word) : ShapeKeeps s (shaperWrite s k w) :=
  keeps_ofForm (shapeKeeps_bar0 (shapeKeeps_shp s _))

theorem shapeKeeps_gateEntryEnd (s : State) (n : Nat) : ShapeKeeps s (gateEntryEnd s n) := by
  unfold gateEntryEnd
  split
  · exact .refl s
  · have begun (x : ShpState) := shapeKeeps_shp s x
    exact keeps_ite (.refl s) (keeps_ite (begun _)
      (((begun _).andThen (keeps_ite (shapeKeeps_setPort _ n _) (.refl _))).andThen (shapeKeeps_servePort _ n true)))

section
variable {n : Nat} (hn : n < 56)
include hn

/-- The fields of a port's gate control stand in one register. -/
theorem shapeKeeps_gateCtl {f : Field} (s : State) (v : Nat) (hf : f.off n = F.SHP_GATE_CTL_EN.off n := by rfl) :
    ShapeKeeps s (wri s f n v) :=
  keeps_wri_of_mem (hf ▸ arrayOff_mem_frameOffs (by decide) hn) v

theorem shapeKeeps_writeBank (s : State) (w : Word) : ShapeKeeps s (writeBank s n w) := by
  unfold writeBank
  exact keeps_ite ((shapeKeeps_gateCtl hn s _).andThen (shapeKeeps_gateCtl hn _ _))
    ((shapeKeeps_gateCtl hn s _).andThen (shapeKeeps_gateCtl hn _ _))

theorem shapeKeeps_writeGateCtl (s : State) (w : Word) : ShapeKeeps s (writeGateCtl s n w) := by
  have asked := (shapeKeeps_writeBank hn s w).andThen
    (keeps_ite (b := bit w 62 = true) (shapeKeeps_gateCtl hn (f := F.SHP_GATE_CTL_PEND) _ 1) (.refl _))
  have opened (x : ShpState) := (asked.andThen (shapeKeeps_shp _ x)).andThen (shapeKeeps_gateCtl hn (f := F.SHP_GATE_CTL_EN) _ 0)
  exact keeps_ite (keeps_ite asked (asked.andThen (shapeKeeps_gateCtl hn _ 1)))
    (keeps_ite ((opened _).andThen (shapeKeeps_servePort _ n false)) (opened _))

end

/-- Both commands of a gate's control are one write of it. -/
theorem shapeKeeps_gateWrite {b : Bool} (s : State) (n : Nat) (w : Word) :
    ShapeKeeps s (ofForm (b && decide (n < 56)) s (bar0 s (fun s => writeGateCtl s n w))) :=
  keeps_ofForm_of (fun hb => shapeKeeps_bar0 (shapeKeeps_writeGateCtl (by simpa using (Bool.and_eq_true_iff.1 hb).2) s w))

theorem shapeOnly_frame (c : Instr) (s : State) (hc : shapeOnly c = true) : ∃ b, exec c s = .next b ∧ ShapeKeeps s b := by
  cases c with
  | frameOnWireFinishes n => exact ⟨_, rfl, shapeKeeps_frameOnWireFinishes s n⟩
  | shaperWrite k w => exact ⟨_, rfl, shapeKeeps_shaperWrite s k w⟩
  | gateEntryEnd n => exact ⟨_, rfl, shapeKeeps_gateEntryEnd s n⟩
  | gateSwapRequest n w => exact ⟨_, rfl, shapeKeeps_gateWrite s n w⟩
  | gateEnable n w => exact ⟨_, rfl, shapeKeeps_gateWrite s n w⟩
  | _ => cases hc

/-- Settles O51: each command's own effect keeps all but its parts and registers, operation by operation. -/
theorem fabricFrames : Obligations.FabricFrames := by
  refine ⟨fun c s hc => ?_, fun c s hc => ?_, fun c s hc => ?_, fun c s hc => ?_⟩
  · obtain ⟨b, hb, k⟩ := portOnly_frame c s hc
    exact ⟨b, hb, k.eq_overlay, k.regsKept_arrays⟩
  · obtain ⟨b, hb, k⟩ := portSettling_frame c s hc
    exact ⟨b, hb, k.eq_overlay, (portKeeps_namingReplay k).regsKept_arrays⟩
  · obtain ⟨b, hb, k⟩ := shapeOnly_frame c s hc
    exact ⟨b, hb, k.eq_overlay, k.regsKept_arrays⟩
  · obtain ⟨b, hb, k⟩ := frameSettling_frame c s hc
    exact ⟨b, hb, k.eq_overlay, k.regsKept_arrays⟩

end Sys2Proof.Fabric
end

section
/-! How a port is enabled, trains, exchanges keys, retrains and is disabled (R336, R339, R346). -/

namespace Sys2Proof.Fabric

open Sys2Proof Sys2Proof.Machine Sys2Proof.Laws Sys2Proof.HostPort

/-! ### States of a port -/

section
variable {s : State} {n : Nat}

/-- Only a continuity port's state stands in CON_STAT too (R458). -/
theorem setPortState_fabric (hn : n < 56) (s : State) (st : Nat) : setPortState s n st = wri s F.GLK_PORT_STAT_STATE n st :=
  if_neg (Nat.not_le.2 hn)

theorem setMaxWidth_zero {w : Word} (hw : bits w 1 0 = 0) : setMaxWidth s n w = s := if_pos hw

/-! ### Host writes of a port's control -/

theorem portEnable_trains {w : Word} (hl : rd s F.SEC_PROT_LOCK_LOCK = 1) (he : bit w 63 = true) (hn : n < 60)
    (hd : rdi s F.GLK_PORT_CTL_EN n = 0) (hw : bits w 1 0 = 0) :
    portEnable s n w = enterTrain (wri s F.GLK_PORT_CTL_EN n 1) n St.OK false := by
  unfold portEnable
  rw [ofForm_of (by simp [he, hn]), bar0_locked hl]
  dsimp only
  rw [if_pos hd, setMaxWidth_zero hw]

theorem portDisable_clears {w : Word} (hl : rd s F.SEC_PROT_LOCK_LOCK = 1) (he : bit w 63 = false) (hn : n < 56)
    (hd : rdi s F.GLK_PORT_CTL_EN n = 1) (hw : bits w 1 0 = 0) :
    portDisable s n w = wri (wri (clearPort s n false) F.GLK_PORT_STAT_STATE n 0) F.GLK_PORT_CTL_EN n 0 := by
  have listed : n < 60 := Nat.lt_trans hn (by decide)
  unfold portDisable
  rw [ofForm_of (by simp [he, listed]), bar0_locked hl]
  dsimp only
  rw [if_pos hd, setMaxWidth_zero hw, setPortState_fabric hn]

/-- A port retrains from REJOIN or ACTIVE only. -/
theorem portRetrain_locked (hl : rd s F.SEC_PROT_LOCK_LOCK = 1) (hn : n < 60) :
    portRetrain s n = if portState s n = 4 ∨ portState s n = 5 then enterTrain s n St.OK false else s := by
  unfold portRetrain
  rw [bar0_locked hl]
  simp only [hn, true_and]

/-! ### Training (R336 steps 1 to 3) -/

theorem enterTrain_fabric (hn : n < 56) (st : Status) (retry : Bool) :
    enterTrain s n st retry =
      linkChange (addSat (wri (clearPort s n retry) F.GLK_PORT_STAT_STATE n 1) F.GLK_PORT_ERR_CNT_RETRAIN n 1) n st := by
  unfold enterTrain
  rw [setPortState_fabric hn]

/-- In TRAIN, with no wait to pass first, the good lanes decide. -/
theorem pmdTrainingDone_training (hn : n < 60) (ht : portState s n = 1) (hr : (portOf s n).retry = false) (lanes : BitVec 8) :
    pmdTrainingDone s n lanes =
      (widthFor lanes (maxWidth s n)).elim (enterTrain s n St.OK true) (fun w =>
        emit (setPortState (setPort (wri (wri s F.GLK_PORT_STAT_WIDTH n w) F.GLK_PORT_STAT_LANE_OK n lanes.toNat) n GPort.fresh) n 2)
          (.keyxFrame n)) := by
  unfold pmdTrainingDone
  rw [if_neg (by simp [hn, ht, hr])]
  cases widthFor lanes (maxWidth s n) with
  | none => rfl
  | some w => rfl

theorem trainRetry_training (hn : n < 60) (ht : portState s n = 1) :
    trainRetry s n = setPort s n { portOf s n with retry := false } := if_neg (by simp [hn, ht])

/-! ### Key exchange (R346, R347) -/

section
variable {f : KeyxMsg}

theorem keyxFrame_bad (hn : n < 60) (hk : portState s n = 2) (hg : f.good = false) :
    keyxFrame s n f =
      errorEvent (enterTrain s n St.OK true) St.GLK_KEY_FAIL ⟨6, n⟩ 0 0 0 (Config.eventDetail (2 * s.out.length + 1)) := by
  unfold keyxFrame
  exact (if_neg (by simp [hn, hk])).trans (if_pos (by simp [hg]))

/-- A fabric port takes any peer whose frame checks: only a continuity port's must be the twin. -/
theorem keyxFrame_fabric (hn : n < 56) (hk : portState s n = 2 ∨ (portOf s n).rekey = true) (hg : f.good = true) :
    keyxFrame s n f =
      if portState s n = 2 then
        sendCredit (setPortState
          (wri (setPort s n { portOf s n with freed := grantedCredits s n }) F.GLK_PORT_STAT_PEER n f.peer) n 3) n false
      else setPort s n { portOf s n with rekey := false, gen := ((portOf s n).gen + 1) % 4, sealed_ := 0 } := by
  have listed : n < 60 := Nat.lt_trans hn (by decide)
  unfold keyxFrame
  exact (if_neg (by simp [listed, hk])).trans ((if_neg (by simp [hg])).trans (if_neg (fun h => Nat.not_le.2 hn h.1)))

end

end

/-- Settles O22: each command by the lemma of its case, with the registers of a fabric port. -/
theorem portTraining : Obligations.PortTraining := by
  refine ⟨?_, fun s n st retry hn => enterTrain_fabric hn st retry, ?_, ?_, ?_, ?_, ?_, ?_, ?_, ?_⟩
  · exact fun s n w hl he hn hd hw => congrArg Host.Outcome.next (portEnable_trains hl he hn hd hw)
  · exact fun s n w hl he hn hd hw => next_settle (portDisable_clears hl he hn hd hw)
  · exact fun s n hl hn => ⟨fun ht => next_settle ((portRetrain_locked hl hn).trans (if_pos ht)),
      fun h4 h5 => next_settle ((portRetrain_locked hl hn).trans (if_neg (not_or.2 ⟨h4, h5⟩)))⟩
  · intro s n w lanes hn ht hr hw
    refine congrArg Host.Outcome.next ((pmdTrainingDone_training (Nat.lt_trans hn (by decide)) ht hr lanes).trans ?_)
    rw [maxWidth, hw]
    exact congrArg (fun t => emit t (.keyxFrame n)) (setPortState_fabric hn _ 2)
  · intro s n lanes hn ht hr hw
    refine congrArg Host.Outcome.next ((pmdTrainingDone_training hn ht hr lanes).trans ?_)
    rw [maxWidth, hw]
    rfl
  · exact fun s n hn ht => congrArg Host.Outcome.next (trainRetry_training hn ht)
  · intro s n f hn hk hg
    refine next_settle ((keyxFrame_fabric hn (.inl hk) hg).trans ((if_pos hk).trans ?_))
    rw [setPortState_fabric hn]
    rfl
  · intro s n f hn hs hr hg
    exact next_settle ((keyxFrame_fabric hn (.inr hr) hg).trans (if_neg (by simp [hs])))
  · exact fun s n f hn hk hg => next_settle (keyxFrame_bad hn hk hg)

end Sys2Proof.Fabric
end

section
/-! What frames, lane faults and silences do to a port in service (R336 to R349). -/

namespace Sys2Proof.Fabric

open Sys2Proof Sys2Proof.Machine Sys2Proof.Laws Sys2Proof.HostPort

/-- The lanes that were good and still are (R339). -/
def lanesLeft (s : State) (n : Nat) (good : BitVec 8) : BitVec 8 := BitVec.ofNat 8 (rdi s F.GLK_PORT_STAT_LANE_OK n) &&& good

section
variable {s : State} {n : Nat} (hn : n < 60)
include hn

/-! ### CREDIT frames (R341, R349) -/

section
variable {f : CreditMsg} (hs : 3 ≤ portState s n)
include hs

theorem creditFrame_bad (hc : f.check ≠ .good) : creditFrame s n f = badCheck s n f.check := by
  unfold creditFrame
  rw [if_neg (by simp [hn, hs]), if_pos hc]

theorem creditFrame_outOfOrder (hc : f.check = .good) (hq : f.seq ≠ (portOf s n).rxSeq) : creditFrame s n f = nakFrame s n := by
  unfold creditFrame
  rw [if_neg (by simp [hn, hs]), if_neg (not_not_intro hc), if_pos hq]

/-- A frame in order is accepted; unless its NAK retrains the port, its counts return credits. -/
theorem creditFrame_inOrder (hc : f.check = .good) (hq : f.seq = (portOf s n).rxSeq)
    (ht : portState (acceptSeq s n f.ack f.nak) n ≠ 1) :
    creditFrame s n f =
      let s1 := acceptSeq s n f.ack f.nak
      let s2 := setPort s1 n { portOf s1 n with credits := (List.range 12).map (fun i => (portOf s1 n).credits.getD i 0 +
        (f.counts.getD i 0 + 65536 - (portOf s1 n).credits.getD i 0 % 65536) % 65536) }
      if portState s1 n = 3 then beginTest s2 n else servePort s2 n false := by
  unfold creditFrame
  rw [if_neg (by simp [hn, hs]), if_neg (not_not_intro hc), if_neg (not_not_intro hq)]
  exact if_neg ht

theorem creditFrameInterval_sends : creditFrameInterval s n = sendCredit s n false := if_pos ⟨hn, hs⟩

end

/-! ### Data frames (R334, R341, R349) -/

section
variable {f : DataMsg} (hs : 4 ≤ portState s n)
include hs

theorem dataFrame_bad (hc : f.check ≠ .good) : dataFrame s n f = badCheck s n f.check := by
  unfold dataFrame
  rw [if_neg (by simp [hn, hs]), if_pos hc]

theorem dataFrame_outOfOrder (hc : f.check = .good) (hv : f.vc < 12) (hq : f.seq ≠ (portOf s n).rxSeq) :
    dataFrame s n f = nakFrame s n := by
  unfold dataFrame
  rw [if_neg (by simp [hn, hs]), if_neg (not_not_intro hc), if_neg (Nat.not_le.2 hv), if_pos hq]

/-- A frame in order is accepted; unless its NAK retrains the port, its buffer is freed, and it is kept where the port carries its
class. -/
theorem dataFrame_inOrder (hc : f.check = .good) (hv : f.vc < 12) (hq : f.seq = (portOf s n).rxSeq)
    (ht : portState (acceptSeq s n f.ack f.nak) n ≠ 1) :
    dataFrame s n f =
      let s1 := acceptSeq s n f.ack f.nak
      let s2 := setPort s1 n { portOf s1 n with freed := addAt (portOf s1 n).freed f.vc (ceilDiv f.len 64) }
      if carries n (f.vc / 2) then servePort s2 n false
      else openEvent (addSat s2 F.GLK_PORT_ERR_CNT_BAD_FRAME n 1) .error St.GLK_BAD_FRAME ⟨6, n⟩ 0 0 := by
  unfold dataFrame
  rw [if_neg (by simp [hn, hs]), if_neg (not_not_intro hc), if_neg (Nat.not_le.2 hv), if_neg (not_not_intro hq)]
  exact if_neg ht

end

/-! ### The link test (R336 step 5) -/

section
variable (hs : portState s n = 4)
include hs

theorem linkTestFrame_ofPeer (ok : Bool) : linkTestFrame s n false ok = emit s (.linkTest n true) := by
  unfold linkTestFrame
  rw [if_neg (by simp [hn, hs])]
  exact if_pos (by decide)

theorem linkTestFrame_failed : linkTestFrame s n true false = enterTrain s n St.OK false := by
  unfold linkTestFrame
  rw [if_neg (by simp [hn, hs]), if_neg (by decide)]
  exact if_pos (by decide)

/-- An own frame that passes is counted, and the one that completes the test puts the port in service. -/
theorem linkTestFrame_passed (hl : (portOf s n).tested < 65536) :
    linkTestFrame s n true true =
      let s1 := setPort s n { portOf s n with tested := (portOf s n).tested + 1 }
      if (portOf s n).tested + 1 < 65536 then s1
      else if 56 ≤ n then servePort (setPortState s1 n 5) n false
      else routeTake s1 n := by
  unfold linkTestFrame
  rw [if_neg (by simp [hn, hs]), if_neg (by decide), if_neg (by decide)]
  exact if_neg (Nat.not_le.2 hl)

end

/-! ### Lanes (R339) -/

section
variable {good : BitVec 8} (hs : 2 ≤ portState s n)
include hs

theorem laneFault_noGroup (hw : widthFor (lanesLeft s n good) (rdi s F.GLK_PORT_STAT_WIDTH n) = none) :
    laneFault s n good = enterTrain s n St.GLK_PORT_DOWN false := by
  unfold lanesLeft at hw
  unfold laneFault
  rw [if_neg (by simp [hn, hs])]
  simp only [hw]

/-- With nothing to send again, a port only goes on at its smaller width. -/
theorem laneFault_narrower {w : Nat} (hu : (portOf s n).unacked = [])
    (hw : widthFor (lanesLeft s n good) (rdi s F.GLK_PORT_STAT_WIDTH n) = some w) (hne : w ≠ rdi s F.GLK_PORT_STAT_WIDTH n) :
    laneFault s n good = linkChange (wri (wri s F.GLK_PORT_STAT_WIDTH n w) F.GLK_PORT_STAT_LANE_OK n (lanesLeft s n good).toNat) n
      St.GLK_WIDTH_DOWN := by
  have nothing (v : Nat) : (portOf (wri (wri s F.GLK_PORT_STAT_WIDTH n w) F.GLK_PORT_STAT_LANE_OK n v) n).unacked = [] := hu
  unfold lanesLeft at hw ⊢
  unfold laneFault
  rw [if_neg (by simp [hn, hs])]
  simp only [hw, if_neg hne, nothing, List.isEmpty_nil, if_true]

end

/-! ### Silences, credits that do not come, and the wire (R339, R348) -/

theorem portRxTimeout_active (hs : portState s n = 5) : portRxTimeout s n = enterTrain s n St.GLK_PORT_DOWN false :=
  if_pos ⟨hn, .inr hs⟩

theorem creditTimeout_starved {vc : Nat} {f : GFrame} (hs : portState s n = 5) (hf : f ∈ (portOf s n).queue) (hv : f.vc = vc)
    (hc : (portOf s n).credits.getD vc 0 < (portOf s n).used.getD vc 0 + creditNeed f) :
    creditTimeout s n vc = enterTrain s n St.GLK_CREDIT_TIMEOUT false :=
  if_pos ⟨hn, hs, List.any_eq_true.2 ⟨f, hf, by simpa [hv] using hc⟩⟩

theorem frameOnWireFinishes_sending {f : GFrame} (hw : (portOf s n).wire = some f) :
    frameOnWireFinishes s n = servePort (setPort s n { portOf s n with wire := none }) n false :=
  if_neg (by simp [hn, hw])

end

/-- Settles O23: each command by the lemma of its case. -/
theorem portTraffic : Obligations.PortTraffic := by
  refine ⟨?_, ?_, ?_, ?_, ?_, ?_, ?_, ?_, ?_, ?_⟩
  · intro s n f hn hs hc hq h5
    exact next_settle ((creditFrame_inOrder hn hs hc hq (by simp [h5])).trans (if_neg (by simp [h5])))
  · intro s n f hn hs hc hq h3
    have tested : ∀ t, beginTest t n = emit (wri t F.GLK_PORT_STAT_STATE n 4) (.linkTest n false) := fun t =>
      congrArg (fun u => emit u (.linkTest n false)) (setPortState_fabric hn t 4)
    exact next_settle ((creditFrame_inOrder (Nat.lt_trans hn (by decide)) hs hc hq (by simp [h3])).trans
      ((if_pos h3).trans (tested _)))
  · intro s n f d hn hs
    have h3 : 3 ≤ portState s n := Nat.le_of_lt hs
    exact ⟨fun hc => next_settle (creditFrame_bad hn h3 hc), fun hc hq => next_settle (creditFrame_outOfOrder hn h3 hc hq),
      fun hc => next_settle (dataFrame_bad hn hs hc), fun hc hv hq => next_settle (dataFrame_outOfOrder hn hs hc hv hq)⟩
  · exact fun s n f hn hs hc hv hq ht => next_settle (dataFrame_inOrder hn hs hc hv hq ht)
  · intro s n hn hs
    refine ⟨fun ok => next_settle (linkTestFrame_ofPeer hn hs ok), next_settle (linkTestFrame_failed hn hs), fun hl => ?_,
      fun hl hf => ?_, fun hl hf => ?_⟩
    · exact next_settle ((linkTestFrame_passed hn hs (by omega)).trans (if_pos hl))
    · refine next_settle ((linkTestFrame_passed hn hs (by omega)).trans ?_)
      rw [hl]
      exact if_neg (Nat.not_le.2 hf)
    · refine next_settle ((linkTestFrame_passed hn hs (by omega)).trans ?_)
      rw [hl]
      exact if_pos hf
  · exact fun s n w good hn hs hu hw hne => next_settle (laneFault_narrower hn hs hu hw hne)
  · exact fun s n good hn hs hw => next_settle (laneFault_noGroup hn hs hw)
  · exact fun s n vc f hn hs => ⟨next_settle (portRxTimeout_active hn hs),
      fun hf hv hc => congrArg Host.Outcome.next (creditTimeout_starved hn hs hf hv hc)⟩
  · exact fun s n hn hs => congrArg Host.Outcome.next (creditFrameInterval_sends hn hs)
  · exact fun s n f hn hw => congrArg Host.Outcome.next (frameOnWireFinishes_sending hn hw)

end Sys2Proof.Fabric
end

section
/-! Remote operations at their destination (R352, R355), and what ends, repeats or moves those that this controller has outstanding
(R344, R350, R351, R356). -/

namespace Sys2Proof.Fabric

open Sys2Proof Sys2Proof.Machine Sys2Proof.Laws Sys2Proof.HostPort

/-! ### Operations at their destination (R352) -/

section
variable {s : State} {r : RemoteReq}

/-- Bytes outside the host window are stored in memory. -/
theorem storeAt_local {a : Nat} {bs : List Byte} (h : inHostWindow a bs.length = false) : storeAt s a bs = writeMem s a bs :=
  if_neg (by simp [h])

/-- Outside the host window a write is refused only for lines that it covers in part and that cannot be read. -/
theorem writeRefusal_local {a n : Nat} (h : inHostWindow a n = false) :
    writeRefusal s a n = (partialLines a n).findSome? (fun l => readRefusal s l 64) := if_neg (by simp [h])

/-- Bytes outside the map region are those of memory. -/
theorem localBytes_memory {a n : Nat} (h : inMap s a n = false) : localBytes s a n = readMem s a n := if_neg (by simp [h])

section
variable (hu : isUp s = true)
include hu

section
variable {bytes : List Byte}

theorem put_stores
    (hr : remoteRefusal s r (bytes.length == 0 || decide (4096 < bytes.length) || r.arg != 0) 41 false
      [(r.offset, bytes.length)] [] = none)
    (hh : inHostWindow r.offset bytes.length = false)
    (hw : (partialLines r.offset bytes.length).findSome? (fun l => readRefusal s l 64) = none) :
    put s r bytes = respond (writeMem s r.offset bytes) r.src r.tc r.tag 0 [] := by
  unfold put
  rw [whenUp_up hu]
  simp only [hr, writeRefusal_local hh, hw, storeAt_local hh]

theorem put_refused {st : Status}
    (hr : remoteRefusal s r (bytes.length == 0 || decide (4096 < bytes.length) || r.arg != 0) 41 false
      [(r.offset, bytes.length)] [] = some st) :
    put s r bytes = refuseOp s r st := by
  unfold put
  rw [whenUp_up hu]
  simp only [hr]

theorem putSignal_signals
    (hr : remoteRefusal s r (bytes.length == 0 || decide (4096 < bytes.length) || bits r.arg 63 52 != 0) 41 false
      [(r.offset, bytes.length), (bits r.arg 51 0, 8)] [(bits r.arg 51 0, 8, true)] = none)
    (hh : inHostWindow r.offset bytes.length = false)
    (hw : (partialLines r.offset bytes.length).findSome? (fun l => readRefusal s l 64) = none)
    (hs : readRefusal s (bits r.arg 51 0) 8 = none) :
    putSignal s r bytes =
      let s1 := writeMem s r.offset bytes
      respond (countSignal (writeWord s1 (bits r.arg 51 0) (readWord s1 (bits r.arg 51 0) + 1)) (bits r.arg 51 0)) r.src r.tc r.tag
        0 [] := by
  unfold putSignal
  rw [whenUp_up hu]
  simp only [hr, writeRefusal_local hh, hw, hs, storeAt_local hh, Option.orElse_none]

end

theorem get_reads {host : List Byte}
    (hr : remoteRefusal s r (bits r.arg 12 0 == 0 || decide (4096 < bits r.arg 12 0) || bits r.arg 63 13 != 0) 40 true
      [(r.offset, bits r.arg 12 0)] [] = none)
    (hh : inHostWindow r.offset (bits r.arg 12 0) = false) (hm : inMap s r.offset (bits r.arg 12 0) = false)
    (hd : readRefusal s r.offset (bits r.arg 12 0) = none) :
    Machine.get s r host = respond s r.src r.tc r.tag 0 (readMem s r.offset (bits r.arg 12 0)) := by
  unfold Machine.get
  rw [whenUp_up hu]
  simp only [hr, hh, hm, hd, localBytes_memory hm, Bool.false_eq_true, if_false]

theorem addF32_adds {xs : List (BitVec 32)}
    (hr : remoteRefusal s r (xs.length != 16 || r.arg != 0) 42 false [(r.offset, 64)] [(r.offset, 64, false)] = none)
    (hd : readRefusal s r.offset 64 = none) :
    addF32 s r xs = respond (addLine s r.offset xs) r.src r.tc r.tag 0 [] := by
  unfold addF32
  rw [whenUp_up hu]
  simp only [hr, hd]

/-- An atomic answers the old value, whether or not it writes a new one. -/
theorem atomic64_answers {f : Word → Option Word}
    (hr : remoteRefusal s r (r.arg != 0) 42 false [(r.offset, 8)] [(r.offset, 8, true)] = none)
    (hd : readRefusal s r.offset 8 = none) :
    atomic64 s r f = respond ((f (readWord s r.offset)).elim s (writeWord s r.offset)) r.src r.tc r.tag 0
      (wordBytes (readWord s r.offset)) := by
  unfold atomic64
  rw [whenUp_up hu]
  simp only [hr, hd]
  cases f (readWord s r.offset) <;> rfl

end

/-- A refusal for a cause of its own carries its status and nothing else. -/
theorem refuseOp_plain {st : Status} (hs : st ≠ St.DTM_STALE_MAP) (hb : st ≠ St.GLK_BUSY) :
    refuseOp s r st = respond s r.src r.tc r.tag (at' 0 16 st.toNat) [] := by
  unfold refuseOp
  rw [if_neg hs, if_neg hb]

/-- A stale map is counted and answered with a hint (R399). -/
theorem refuseOp_staleMap :
    refuseOp s r St.DTM_STALE_MAP = respond (bump s F.DTM_STALE_CNT_COUNT) r.src r.tc r.tag
      (mkWord [(0, 16, St.DTM_STALE_MAP.toNat), (16, 20, hintNode s r.epoch)]) [] := if_pos rfl

end

/-! ### Operations outstanding (R344, R350, R351) -/

section
variable {s : State} {tag : Nat} (hu : isUp s = true)
include hu

theorem remoteResponse_late (ho : tget s.glk.ops tag = none) (st : BitVec 16) (arg : Word) (bytes : List Byte) :
    remoteResponse s tag st arg bytes = bump s F.GLK_LATE_CNT_COUNT := by
  unfold remoteResponse
  rw [whenUp_up hu]
  simp only [ho]

/-- An operation that is outstanding waits again, goes elsewhere, or ends, by its status. -/
theorem remoteResponse_awaited {o : RemoteOp} (ho : tget s.glk.ops tag = some o) (st : BitVec 16) (arg : Word) (bytes : List Byte) :
    remoteResponse s tag st arg bytes =
      if st = St.GLK_BUSY then bump s F.GLK_BUSY_CNT_COUNT
      else if st = St.DTM_STALE_MAP then staleAnswered s tag o arg
      else endOp s tag o st arg := by
  unfold remoteResponse
  rw [whenUp_up hu]
  simp only [ho]

theorem respTimeout_ends {o : RemoteOp} (ho : tget s.glk.ops tag = some o) :
    respTimeout s tag = endOp (bump s F.GLK_TIMEOUT_CNT_COUNT) tag o St.GLK_RESP_TIMEOUT 0 := by
  unfold respTimeout
  rw [whenUp_up hu]
  simp only [ho]

/-- An operation is sent again to the node it names, or ends for want of a route. -/
theorem busyRetry_again {o : RemoteOp} (ho : tget s.glk.ops tag = some o) :
    busyRetry s tag = (flowPort s o.dest o.tc o.stripe).elim (endOp s tag o St.GLK_NO_ROUTE 0) (startOp s tag o) := by
  unfold busyRetry
  rw [whenUp_up hu]
  simp only [ho, resend]
  cases flowPort s o.dest o.tc o.stripe <;> rfl

theorem flowMove_moves {f : FlowKey} {n : Nat} (hb : flowBusy s f.dest f.tc f.stripe = false)
    (hp : flowPort s f.dest f.tc f.stripe = some n) :
    flowMove s f = (waitingOps s f).foldl (fun u e => startOp u e.1 e.2 n)
      { s with glk := { s.glk with flows := tset s.glk.flows (flowKeyOf f.dest f.tc f.stripe) n } } := by
  unfold flowMove
  rw [whenUp_up hu, if_neg (by simp [hb])]
  simp only [hp]

theorem collTimeout_fails {c : Nat} (hc : thas s.glk.colls c = true) :
    collTimeout s c = failStep (openEvent { s with glk := { s.glk with colls := tdel s.glk.colls c } } .error St.GLK_COLL_TIMEOUT
      noUnit 0 0) := by
  unfold collTimeout
  rw [whenUp_up hu, if_pos hc]

end

/-- Settles O24: each operation and each answer by the lemma of its case. -/
theorem remoteOperations : Obligations.RemoteOperations := by
  refine ⟨?_, ?_, ?_, ?_, ?_, ?_, ?_, ?_, ?_, ?_, ?_⟩
  · exact fun s r bytes hu hr hh hw => next_settle (put_stores hu hr hh hw)
  · exact fun s r host hu hr hh hm hd => congrArg Host.Outcome.next (get_reads hu hr hh hm hd)
  · exact fun s r xs hu hr hd => next_settle (addF32_adds hu hr hd)
  · refine fun s r v cmp swp hu hr hd => ⟨next_settle (atomic64_answers hu hr hd), next_settle ?_⟩
    refine (atomic64_answers hu hr hd).trans ?_
    split <;> rfl
  · exact fun s r bytes hu hr hh hw hs => next_settle (putSignal_signals hu hr hh hw hs)
  · exact fun s r bytes st hu hr => ⟨next_settle (put_refused hu hr), refuseOp_plain, refuseOp_staleMap⟩
  · intro s tag st arg bytes hu
    have answered {o : RemoteOp} (ho : tget s.glk.ops tag = some o) := remoteResponse_awaited hu ho st arg bytes
    refine ⟨fun ho => next_settle (remoteResponse_late hu ho st arg bytes),
      fun o ho hb => next_settle ((answered ho).trans (if_pos hb)), fun o ho hm => ?_, fun o ho hb hm => ?_⟩
    · have other : st ≠ St.GLK_BUSY := fun hb => absurd (hm.symm.trans hb) (by decide)
      exact next_settle ((answered ho).trans ((if_neg other).trans (if_pos hm)))
    · exact next_settle ((answered ho).trans ((if_neg hb).trans (if_neg hm)))
  · exact fun s tag o hu ho => next_settle (respTimeout_ends hu ho)
  · exact fun s tag n o hu ho => ⟨fun hp => congrArg Host.Outcome.next ((busyRetry_again hu ho).trans (by rw [hp]; rfl)),
      fun hp => congrArg Host.Outcome.next ((busyRetry_again hu ho).trans (by rw [hp]; rfl))⟩
  · exact fun s f n hu hb hp => congrArg Host.Outcome.next (flowMove_moves hu hb hp)
  · exact fun s c hu hc => congrArg Host.Outcome.next (collTimeout_fails hu hc)

end Sys2Proof.Fabric
end

section
/-! What the Reel, the shapers and the time gates do when a slot or an entry ends and when software writes them (R361 to R371). -/

namespace Sys2Proof.Fabric

open Sys2Proof Sys2Proof.Machine Sys2Proof.Laws Sys2Proof.HostPort

/-! ### The Reel and its buckets (R361, R363, R365) -/

/-- With no flow to refill, place or free and no shape to take, a slot advances the slot number only, and the ports pick again:
at slot 0 of a revolution the scan meets an empty overflow list. -/
theorem reelSlot_empty {s : State} (hf : s.shp.flows = []) (hs : s.shp.shapes = []) :
    reelSlot s = serveIdle (admitFlows
      { s with shp := { s.shp with slot := s.shp.slot + 1, flows := [], shapes := [] } }) := by
  unfold reelSlot
  rw [hf, hs]
  by_cases revolved : (s.shp.slot + 1) % 4096 = 0
  · simp only [revolved, ↓reduceIte]
    rfl
  · simp only [revolved, ↓reduceIte]
    rfl

section
variable {s : State} {key : Nat} {f : ShpFlow}

theorem refill_unshaped (hs : shaped s (key % 8) = false) : refill s key f = { f with tokens := shapeBurst s (key % 8) } :=
  if_pos (by simp [hs])

/-- A bucket that holds its BURST or more gains nothing (R365). -/
theorem refill_full (hs : shaped s (key % 8) = true) (hb : shapeBurst s (key % 8) ≤ f.tokens) : refill s key f = f :=
  (if_neg (by simp [hs])).trans (if_pos hb)

theorem refill_gains (hs : shaped s (key % 8) = true) (hb : f.tokens < shapeBurst s (key % 8)) :
    refill s key f = { f with tokens := min (shapeBurst s (key % 8)) (f.tokens + shapeRate s (key % 8)) } :=
  (if_neg (by simp [hs])).trans (if_neg (Nat.not_le.2 hb))

end

theorem shaperWrite_locked {s : State} {k : Nat} {w : Word} (hl : rd s F.SEC_PROT_LOCK_LOCK = 1) (hk : k < 2) :
    shaperWrite s k w = { s with shp := { s.shp with shapes := tset s.shp.shapes k w } } := by
  unfold shaperWrite
  rw [ofForm_of (by simp [hk]), bar0_locked hl]

/-! ### The entries of a list (R366) -/

/-- A port's place in its list once an entry ends: the next entry, or after the last one what MODE says. -/
def gateAfter (s : State) (n : Nat) (g : Gate) : Gate :=
  if g.entry + 1 < gateLen s n then ⟨g.entry + 1, rd s F.GLB_MGMT_CYCLES_COUNT, false⟩
  else if gateRepeat s n then ⟨0, rd s F.GLB_MGMT_CYCLES_COUNT, false⟩ else ⟨g.entry, rd s F.GLB_MGMT_CYCLES_COUNT, true⟩

section
variable {s : State} {n : Nat} {g : Gate}

theorem gateAfter_advances (h : g.entry + 1 < gateLen s n) :
    gateAfter s n g = ⟨g.entry + 1, rd s F.GLB_MGMT_CYCLES_COUNT, false⟩ := if_pos h

theorem gateAfter_repeats (h : gateLen s n ≤ g.entry + 1) (hr : gateRepeat s n = true) :
    gateAfter s n g = ⟨0, rd s F.GLB_MGMT_CYCLES_COUNT, false⟩ := (if_neg (Nat.not_lt.2 h)).trans (if_pos hr)

theorem gateAfter_holds (h : gateLen s n ≤ g.entry + 1) (hr : gateRepeat s n = false) :
    gateAfter s n g = ⟨g.entry, rd s F.GLB_MGMT_CYCLES_COUNT, true⟩ := (if_neg (Nat.not_lt.2 h)).trans (if_neg (by simp [hr]))

/-- A port that is not listed has no frame that waited; one whose entry is not held picks at the opening of the new one. -/
theorem gateEntryEnd_running (hg : tget s.shp.gates n = some g) (hh : g.held = false) (hn : n < 56)
    (he : rdi s F.SHP_GATE_CTL_EN n = 1) (hp : thas s.glk.ports n = false) :
    gateEntryEnd s n =
      if (gateAfter s n g).held then { s with shp := { s.shp with gates := tset s.shp.gates n (gateAfter s n g) } }
      else servePort { s with shp := { s.shp with gates := tset s.shp.gates n (gateAfter s n g) } } n true := by
  have running : ¬(g.held ∨ 56 ≤ n ∨ rdi s F.SHP_GATE_CTL_EN n = 0) := by simp [hh, hn, he]
  unfold gateEntryEnd gateAfter
  simp only [hg, if_neg running, hp]
  by_cases last : gateLen s n ≤ g.entry + 1
  · simp [last, Nat.not_lt.2 last]
  · simp [last, Nat.not_le.1 last]

end

/-! ### Host writes of a port's gate control (R367, R371) -/

section
variable {s : State} {n : Nat} {w : Word}

@[simp] theorem writeBank_glk (s : State) (n : Nat) (w : Word) : (writeBank s n w).glk = s.glk := by
  unfold writeBank
  split <;> rfl

@[simp] theorem writeBank_shp (s : State) (n : Nat) (w : Word) : (writeBank s n w).shp = s.shp := by
  unfold writeBank
  split <;> rfl

/-- Gates that are on stay on when a swap is asked for: PEND is another bit than EN. -/
theorem writeGateCtl_swap (hp : bit w 62 = true) (he : bit w 63 = true) (hs : rdi (writeBank s n w) F.SHP_GATE_CTL_EN n = 1) :
    writeGateCtl s n w = wri (writeBank s n w) F.SHP_GATE_CTL_PEND n 1 := by
  have stillOn : rdi (wri (writeBank s n w) F.SHP_GATE_CTL_PEND n 1) F.SHP_GATE_CTL_EN n = 1 :=
    (rdi_wri_bits _ _ _ _ _ _ (.inl (by decide))).trans hs
  unfold writeGateCtl
  simp only [hp, he, stillOn, ↓reduceIte]

theorem writeGateCtl_on (hp : bit w 62 = false) (he : bit w 63 = true) (hs : rdi (writeBank s n w) F.SHP_GATE_CTL_EN n = 0) :
    writeGateCtl s n w = wri (writeBank s n w) F.SHP_GATE_CTL_EN n 1 := by
  unfold writeGateCtl
  simp [hp, he, hs]

/-- Gates written off forget their list; a port that is not listed has nothing to send. -/
theorem writeGateCtl_off (hp : bit w 62 = false) (he : bit w 63 = false) (hn : thas s.glk.ports n = false) :
    writeGateCtl s n w =
      wri { writeBank s n w with shp := { s.shp with gates := tdel s.shp.gates n } } F.SHP_GATE_CTL_EN n 0 := by
  unfold writeGateCtl
  simp [hp, he, hn]

section
variable (hl : rd s F.SEC_PROT_LOCK_LOCK = 1) (hn : n < 56)
include hl hn

theorem gateSwapRequest_locked (hp : bit w 62 = true) : gateSwapRequest s n w = writeGateCtl s n w := by
  unfold gateSwapRequest
  rw [ofForm_of (by simp [hp, hn]), bar0_locked hl]

theorem gateEnable_locked (hp : bit w 62 = false) : gateEnable s n w = writeGateCtl s n w := by
  unfold gateEnable
  rw [ofForm_of (by simp [hp, hn]), bar0_locked hl]

end

end

/-- Settles O25: each command by the lemma of its case. -/
theorem shapingCommands : Obligations.ShapingCommands := by
  refine ⟨?_, ?_, ?_, ?_, ?_, ?_⟩
  · exact fun s hf hs => congrArg Host.Outcome.next (reelSlot_empty hf hs)
  · exact fun s key f => ⟨fun hs => congrArg ShpFlow.tokens (refill_unshaped hs),
      fun hs hb => congrArg ShpFlow.tokens (refill_gains hs hb), refill_full⟩
  · exact fun s k w hl hk => congrArg Host.Outcome.next (shaperWrite_locked hl hk)
  · intro s n g hg hh hn he hp
    have ended := gateEntryEnd_running hg hh hn he hp
    refine ⟨fun h => congrArg Host.Outcome.next ?_, fun h hr => congrArg Host.Outcome.next ?_,
      fun h hr => congrArg Host.Outcome.next ?_⟩
    · rw [gateAfter_advances h] at ended
      exact ended
    · rw [gateAfter_repeats h hr] at ended
      exact ended
    · rw [gateAfter_holds h hr] at ended
      exact ended
  · exact fun s n w hl hn hp he hs =>
      congrArg Host.Outcome.next ((gateSwapRequest_locked hl hn hp).trans (writeGateCtl_swap hp he hs))
  · intro s n w hl hn hp
    have written := gateEnable_locked hl hn hp
    exact ⟨fun he hs => congrArg Host.Outcome.next (written.trans (writeGateCtl_on hp he hs)),
      fun he hs => congrArg Host.Outcome.next (written.trans (writeGateCtl_off hp he hs))⟩

end Sys2Proof.Fabric
end

section
/-! How MOVEs take a channel, complete, and are stopped by a fault or a reset (R374, R381 to R387). -/

namespace Sys2Proof.Movers

open Sys2Proof Sys2Proof.Machine Sys2Proof.Laws Sys2Proof.HostPort

/-! ### Channels taken (R374, R381) -/

/-- The state in which a waiting MOVE has left its queue and holds a channel. -/
def onChannel (s : State) (w : MoveWait) (key : Nat) (host : List Byte) : State :=
  { s with bmv := { s.bmv with waiting := s.bmv.waiting.erase w, chans := tset s.bmv.chans key ⟨w.flight, w.desc, host, []⟩ } }

/-- The MOVE granted waits for this mover, and none that does has a higher PRIO. -/
theorem nextMove_first {s : State} {m : Nat} {w : MoveWait} (h : nextMove s m = some w) :
    w ∈ s.bmv.waiting ∧ moverFor s w.desc = m ∧
      ∀ v ∈ s.bmv.waiting, moverFor s v.desc = m → 3 - ctxPrio s (flightCtx w.flight) ≤ 3 - ctxPrio s (flightCtx v.flight) := by
  obtain ⟨waits, mine⟩ := List.mem_filter.1 (minBy_mem _ _ _ h)
  exact ⟨waits, beq_iff_eq.1 mine, fun v hv hm => minBy_le _ _ _ h v (List.mem_filter.2 ⟨hv, beq_iff_eq.2 hm⟩)⟩

section
variable {s : State} {m c : Nat} {host : List Byte} {w : MoveWait} (hu : isUp s = true) (hm : m < 8)
  (hs : rdi s F.BMV_MOVER_STATE m = 0) (hw : nextMove s m = some w)
  (hc : firstFree 32 (fun c => !thas s.bmv.chans (32 * m + c)) = some c)
include hu hm hs hw hc

theorem moveChannelGrant_local (hr : mvRemote s w.desc = false) :
    moveChannelGrant s m host = showBusy (onChannel s w (32 * m + c) host) := by
  unfold moveChannelGrant
  rw [whenUp_up hu, if_neg (by simp [hm, hs])]
  simp only [hw, hc, hr, Bool.false_and, Bool.false_eq_true, if_false]
  rfl

theorem moveChannelGrant_remote {s2 : State} {ps : List MovePut} (hr : mvRemote s w.desc = true)
    (hf : srcFault s w.desc (mvSkip w.desc) (sideCount (dstSide w.desc)) = none)
    (hp : sendPuts (onChannel s w (32 * m + c) host) m c w.desc host = (s2, ps, none)) :
    moveChannelGrant s m host = showBusy { s2 with bmv := { s2.bmv with
      chans := tset s2.bmv.chans (32 * m + c) ⟨w.flight, w.desc, host, ps⟩ } } := by
  unfold onChannel at hp
  unfold moveChannelGrant
  rw [whenUp_up hu, if_neg (by simp [hm, hs])]
  simp only [hw, hc, hr, hf, modBmv, hp, Option.isSome_none, Bool.and_false, Bool.false_eq_true, if_false, if_true]

end

/-! ### Movers that stop (R384, R387) -/

theorem stopMover_stopping (s : State) (m : Nat) (st : Status) (done : List Nat) :
    rdi (stopMover s m st done) F.BMV_MOVER_STATE m = 1 := rdi_wri_same _ _ _ _ (by decide)

theorem moverReadFault_running {s : State} {m : Nat} (hu : isUp s = true) (hm : m < 8) (hs : rdi s F.BMV_MOVER_STATE m = 0)
    (hb : busyChans s m ≠ []) (st : BitVec 16) (done : List Nat) : moverReadFault s m st done = stopMover s m st done := by
  unfold moverReadFault
  rw [whenUp_up hu, if_neg (by simp [hm, hs, hb])]

/-- A mover that has written the records of its stopped MOVEs forgets the stop and runs again (R384 step 4). -/
def runAgain (s : State) (m : Nat) : State :=
  wri { s with bmv := { s.bmv with stops := tdel s.bmv.stops m } } F.BMV_MOVER_STATE m 0

/-- The records of the stopped MOVEs come before the event, and the stop is counted after it. -/
theorem moverStopDrained_stopped {s : State} {m : Nat} {x : MoveStop} (hu : isUp s = true) (hx : tget s.bmv.stops m = some x) :
    moverStopDrained s m =
      let s1 := endStopped s m x.status x.done
      let s2 := errorEvent s1 St.BMV_MOVER_STOP noUnit 0 0 (mkWord [(0, 3, m), (16, 16, x.status.toNat)])
        (Config.eventDetail (2 * s1.out.length))
      runAgain (addSat (bump s2 F.BMV_STOP_CNT_COUNT) F.BMV_MOVER_STOPS m 1) m := by
  unfold moverStopDrained
  rw [whenUp_up hu]
  simp only [hx]
  rfl

section
variable {s : State} {m : Nat} {done : List Nat} (hl : rd s F.SEC_PROT_LOCK_LOCK = 1) (hm : m < 8)
include hl hm

theorem moverReset_running {x : MoveStop} (hs : rdi s F.BMV_MOVER_STATE m = 0)
    (hx : tget (stopMover s m St.BMV_RESET done).bmv.stops m = some x) :
    moverReset s m done = runAgain (endStopped (stopMover s m St.BMV_RESET done) m x.status x.done) m := by
  unfold moverReset
  rw [bar0_locked hl, if_neg (Nat.not_le.2 hm), if_neg (not_not.2 hs)]
  simp only [hx]
  rfl

theorem moverReset_stopping (hs : rdi s F.BMV_MOVER_STATE m ≠ 0) :
    moverReset s m done = { s with bmv := { s.bmv with stops := tmod s.bmv.stops m (fun x => { x with reset := true }) } } := by
  unfold moverReset
  rw [bar0_locked hl, if_neg (Nat.not_le.2 hm), if_pos hs]
  rfl

end

/-! ### Running MOVEs that complete or cannot write (R382 to R385) -/

/-- The status of a MOVE whose elements are all written (R377). -/
def fullStatus (s : State) (x : MoveChan) : Status :=
  if mvNumeric s x.desc x.host (mvSkip x.desc) (sideCount (dstSide x.desc)) then 0x0EE0 else St.OK

/-- A DONE within the MOVE's elements stands as it is reported. -/
theorem clampDone_within {x : MoveChan} {n : Nat} (hlo : mvSkip x.desc ≤ n) (hhi : n ≤ sideCount (dstSide x.desc)) :
    clampDone x n = n := by rw [clampDone, Nat.min_eq_right hhi, Nat.max_eq_right hlo]

section
variable {s : State} {m c : Nat} {x : MoveChan} (hu : isUp s = true) (hc : c < 32)
  (hx : tget s.bmv.chans (32 * m + c) = some x) (hs : rdi s F.BMV_MOVER_STATE m = 0)
include hu hc hx hs

theorem moveComplete_remote (hr : mvRemote s x.desc = true) (hp : x.puts = []) :
    moveComplete s m c = endMoveChan
      (bumpBy s F.BMV_BYTES_CNT_COUNT ((sideCount (dstSide x.desc) - mvSkip x.desc) * (dstSide x.desc).width)) (32 * m + c) x
      (fullStatus s x) (sideCount (dstSide x.desc)) := by
  unfold moveComplete
  rw [whenUp_up hu]
  simp only [if_pos hc, hx, hs, hr, hp]
  rfl

section
variable (hr : mvRemote s x.desc = false)
include hr

theorem moveComplete_unreadable {f : Status} (hf : srcFault s x.desc (mvSkip x.desc) (sideCount (dstSide x.desc)) = some f) :
    moveComplete s m c = stopMover s m f [] := by
  unfold moveComplete
  rw [whenUp_up hu]
  simp only [if_pos hc, hx, hs, hr, hf]
  rfl

theorem moveComplete_local (hf : srcFault s x.desc (mvSkip x.desc) (sideCount (dstSide x.desc)) = none)
    (hw : (pieces (dstSide x.desc) ((dstSide x.desc).len * (dstSide x.desc).width) (sideCount (dstSide x.desc) - mvSkip x.desc)
      (mvSkip x.desc) (sideCount (dstSide x.desc))).find?
        (fun p => (writeRefusal s p.2.1 (p.2.2 * (dstSide x.desc).width)).isSome) = none) :
    moveComplete s m c = endMoveChan (writeElems s x.desc x.host (mvSkip x.desc) (sideCount (dstSide x.desc))) (32 * m + c) x
      (fullStatus s x) (sideCount (dstSide x.desc)) := by
  unfold moveComplete
  rw [whenUp_up hu]
  simp only [if_pos hc, hx, hs, hr, hf, hw]
  rfl

/-- The elements below DONE are written; then the fault is the context's, or the one MOVE's (R385). -/
theorem moverWriteFault_local {done : Nat} (hlo : mvSkip x.desc ≤ done) (hhi : done ≤ sideCount (dstSide x.desc))
    (st : BitVec 16) :
    moverWriteFault s m c st done =
      if st = St.HPT_HOST_TIMEOUT ∨ st = St.HPT_HOST_DATA_ERR then
        faultCtx (writeElems s x.desc x.host (mvSkip x.desc) done) (flightCtx x.flight) st
      else endMoveChan (writeElems s x.desc x.host (mvSkip x.desc) done) (32 * m + c) x st done := by
  unfold moverWriteFault
  rw [whenUp_up hu]
  simp only [if_pos hc, hx, hs, hr, clampDone_within hlo hhi, writeFault]
  rfl

end

end

/-- Settles O26: each command by the lemma of its case. -/
theorem moverCommands : Obligations.MoverCommands := by
  refine ⟨?_, ?_, fun s m w => nextMove_first, ?_, ?_, ?_, ?_, ?_, ?_, ?_, ?_⟩
  · exact fun s m c host w hu hm hs hw hc hr => congrArg Host.Outcome.next (moveChannelGrant_local hu hm hs hw hc hr)
  · exact fun s m c host w s2 ps hu hm hs hw hc hr hf hp =>
      congrArg Host.Outcome.next (moveChannelGrant_remote hu hm hs hw hc hr hf hp)
  · exact fun s m c x hu hc hx hs hr hf hw => next_settle (moveComplete_local hu hc hx hs hr hf hw)
  · exact fun s m c x hu hc hx hs hr hp => next_settle (moveComplete_remote hu hc hx hs hr hp)
  · exact fun s m c x f hu hc hx hs hr hf => next_settle (moveComplete_unreadable hu hc hx hs hr hf)
  · exact fun s m st done hu hm hs hb =>
      ⟨congrArg Host.Outcome.next (moverReadFault_running hu hm hs hb st done), stopMover_stopping s m st done⟩
  · exact fun s m x hu hx => congrArg Host.Outcome.next (moverStopDrained_stopped hu hx)
  · intro s m c done st x hu hc hx hs hr hlo hhi
    have faulted := moverWriteFault_local hu hc hx hs hr hlo hhi st
    exact ⟨fun ht hd => next_settle (faulted.trans (if_neg (not_or.2 ⟨ht, hd⟩))),
      fun hh => next_settle (faulted.trans (if_pos hh))⟩
  · exact fun s m done x hl hm hs hx => congrArg Host.Outcome.next (moverReset_running hl hm hs hx)
  · exact fun s m done hl hm hs => congrArg Host.Outcome.next (moverReset_stopping hl hm hs)

end Sys2Proof.Movers
end

section
/-! The queue and the invariants of a step: what every command keeps, an idle cycle keeps too (R485, R548; chapter 95). -/

namespace Sys2Proof.Steps

open Sys2Proof Sys2Proof.Machine Sys2Proof.Laws

/-! ### The command that a step takes -/

theorem step_of_front {s : State} {c : Instr} {rest : List Instr} (h : s.pending = c :: rest) :
    step s = exec c { s with pending := rest } := by
  unfold step
  rw [h]

theorem step_of_empty {s : State} (h : s.pending = []) : step s = .next (idleCycle s) := by
  unfold step
  rw [h]

/-- A step that answers a next state comes, by operations that keep what every operation keeps, of the state with the queue's tail. -/
theorem step_evo {s t : State} (h : step s = .next t) : Evo { s with pending := s.pending.tail } t := by
  cases hp : s.pending with
  | nil =>
    have idle : Evo s t := next_inj ((step_of_empty hp).symm.trans h) ▸ evo_idleCycle (Evo.refl s)
    exact ⟨idle.regs, idle.hbm, idle.pending.trans hp, idle.out, idle.fuses⟩
  | cons c rest => exact evo_exec c _ t ((step_of_front hp).symm.trans h)

/-- Settles O40. -/
theorem stepTakesTheFront : Obligations.StepTakesTheFront := ⟨fun _ _ _ => step_of_front, fun _ => step_of_empty⟩

/-- Settles O41: each arm of `exec` answers a next state. -/
theorem everyCommandCompletes : Obligations.EveryCommandCompletes := by
  intro c s
  cases c <;> exact ⟨_, rfl⟩

/-! ### Invariants -/

/-- The reset state, with the fact that every table of work in it is empty. -/
def quietReset : {s : State // s.quiet = true} := ⟨State.reset, by decide +kernel⟩

/-- Settles O42: at reset no register is listed, memory has no cell, and nothing waits. -/
theorem resetIsCanonical : Obligations.ResetIsCanonical := ⟨rfl, rfl, rfl, rfl, quietReset.2⟩

/-- Settles O43: registers and memory are those of `step_evo`. -/
theorem stepKeepsCanonicalForm : Obligations.StepKeepsCanonicalForm :=
  fun _ _ hregs hmem h => ⟨(step_evo h).regs hregs, (step_evo h).hbm hmem⟩

/-- Settles O44: the queue and the outputs are those of `step_evo`. -/
theorem stepsTakeOneCommandEach : Obligations.StepsTakeOneCommandEach :=
  fun _ _ h => ⟨(step_evo h).pending, (step_evo h).out⟩

/-- Settles O45: the fuses are those of `step_evo`. -/
theorem fusesOnlyRise : Obligations.FusesOnlyRise := fun _ _ h => (step_evo h).fuses

end Sys2Proof.Steps
end

section
/-! The frames of the map and of the twin (R395 to R457). -/

namespace Sys2Proof.Frames

open Sys2Proof Sys2Proof.Machine Sys2Proof.Laws

/-! ### Single updates -/

theorem keeps_dtm (s : State) (x : DtmState) : Keeps [.dtm] [] s { s with dtm := x } :=
  keeps_of_parts rfl (fun p hp => by cases p with
    | dtm => simp at hp
    | _ => rfl)

theorem keeps_con (s : State) (x : ConState) : Keeps [.con] [] s { s with con := x } :=
  keeps_of_parts rfl (fun p hp => by cases p with
    | con => simp at hp
    | _ => rfl)

end Sys2Proof.Frames

namespace Sys2Proof.Datum

open Sys2Proof Sys2Proof.Machine Sys2Proof.Laws Sys2Proof.Frames

/-! ### The map, leases and queries (R395 to R412) -/

/-- The registers that the map's own commands write: DTM_CTL, and the counters of the ports that they send by. -/
def datumOffs : List Nat := F.DTM_CTL_BUSY.off 0 :: frameCounters

/-- What the map's own commands change. -/
abbrev DatumKeeps (s t : State) : Prop := Keeps [.hpt, .ras, .dtm, .glk, .shp, .out] datumOffs s t

theorem datumKeeps_dtm (s : State) (x : DtmState) : DatumKeeps s { s with dtm := x } := (keeps_dtm s x).widen (by decide)

theorem datumKeeps_send (s : State) (dest tc : Nat) (kind : MsgKind) (words : List Word) : DatumKeeps s (send s dest tc kind words) :=
  (keeps_send s dest tc kind words).mono (by decide) (by decide)

theorem datumKeeps_ctl {f : Field} (s : State) (v : Nat) (hf : f.off 0 = F.DTM_CTL_BUSY.off 0 := by rfl) : DatumKeeps s (wr s f v) :=
  keeps_wri_of_mem (hf ▸ by decide) v

theorem datumKeeps_fetchFrom (s : State) (node c : Nat) : DatumKeeps s (fetchFrom s node c) :=
  keeps_ite ((datumKeeps_dtm s _).andThen (datumKeeps_send ..)) (datumKeeps_send ..)

theorem datumKeeps_pushRecords (n : Nat) (s : State) (node c : Nat) : DatumKeeps s (pushRecords n s node c) := by
  induction n generalizing s c with
  | zero => exact .refl s
  | succ n ih =>
    unfold pushRecords
    refine keeps_ite (.refl s) ?_
    split
    · exact keeps_ite ((datumKeeps_send ..).andThen (ih _ _)) (.refl s)
    · exact .refl s

theorem datumKeeps_joinFail (s : State) : DatumKeeps s (joinFail s) :=
  keeps_ite ((datumKeeps_dtm s _).andThen (datumKeeps_ctl _ 0) |>.andThen (datumKeeps_ctl _ 1)
    |>.andThen ((keeps_openEvent ..).widen (by decide))) (datumKeeps_dtm s _)

theorem datumKeeps_sendDtm (s : State) (dest kind : Nat) (loss : Bool) (req subject : Nat) :
    DatumKeeps s (sendDtm s dest kind loss req subject) := (datumKeeps_dtm s _).andThen (datumKeeps_send ..)

theorem datumKeeps_askHome (s : State) (req : Nat) : DatumKeeps s (askHome s req) :=
  (datumKeeps_dtm s _).andThen (datumKeeps_sendDtm ..)

theorem datumKeeps_sendRenew (s : State) (home : Nat) (loss : Bool) : DatumKeeps s (sendRenew s home loss) :=
  (datumKeeps_dtm s _).andThen (datumKeeps_sendDtm ..)

theorem datumKeeps_sendClaims (s : State) (x : Nat) (homes : List Nat) : DatumKeeps s (sendClaims s x homes) :=
  Keeps.foldl (fun s _ => (datumKeeps_dtm s _).andThen (datumKeeps_sendDtm ..)) homes s

/-- The registers of the commands of the map after which nothing settles, as their frame names them. -/
def mapOnlyOffs : List Nat :=
  [F.SEC_REJECT_CNT_COUNT, F.SHP_FULL_CNT_COUNT, F.SHP_GATE_WAIT_CNT_COUNT, F.SHP_OVERRUN_CNT_COUNT, F.DTM_CTL_BASE_MIB].map
    (fun f => f.off 0)

theorem datumKeeps_mapOnly {s t : State} (h : DatumKeeps s t) : Keeps [.hpt, .ras, .dtm, .glk, .shp, .out] mapOnlyOffs s t :=
  h.mono (by decide) (by decide)

theorem keeps_dtmJoin (s : State) (w : Word) : Keeps [.hpt, .ras, .dtm, .glk, .shp, .out] mapOnlyOffs s (dtmJoin s w) := by
  have begun : DatumKeeps s (wr (wr (wr (wr s F.DTM_CTL_SEED (bits w 39 20)) F.DTM_CTL_BASE_MIB (bits w 19 0)) F.DTM_CTL_BUSY 1)
      F.DTM_CTL_ERR 0) :=
    (datumKeeps_ctl s _).andThen (datumKeeps_ctl _ _) |>.andThen (datumKeeps_ctl _ 1) |>.andThen (datumKeeps_ctl _ 0)
  exact keeps_ofForm (keeps_bar0_of_mem (by decide) (by decide) (datumKeeps_mapOnly (keeps_ite (.refl s)
    (keeps_ite (begun.andThen (datumKeeps_dtm _ _) |>.andThen (datumKeeps_send ..)) (begun.andThen (datumKeeps_joinFail _))))))

theorem mapOnly_frame (c : Instr) (s : State) (hc : mapOnly c = true) :
    ∃ b, exec c s = .next b ∧ Keeps [.hpt, .ras, .dtm, .glk, .shp, .out] mapOnlyOffs s b := by
  cases c with
  | surveyRound => exact ⟨_, rfl, datumKeeps_mapOnly (keeps_whenUp (keeps_ite (.refl s) (datumKeeps_send ..)))⟩
  | dtmJoin w => exact ⟨_, rfl, keeps_dtmJoin s w⟩
  | joinTimeout => exact ⟨_, rfl, datumKeeps_mapOnly (keeps_whenUp (keeps_ite (datumKeeps_joinFail s) (.refl s)))⟩
  | renewTimer =>
    exact ⟨_, rfl, datumKeeps_mapOnly (keeps_whenUp (keeps_ite (.refl s) (Keeps.foldl (fun t h => datumKeeps_sendRenew t h _) _ s)))⟩
  | queryTimeout req => exact ⟨_, rfl, datumKeeps_mapOnly (keeps_whenUp (keeps_ite (datumKeeps_askHome s req) (.refl s)))⟩
  | claimResend home seq =>
    exact ⟨_, rfl, datumKeeps_mapOnly (keeps_whenUp (keeps_ite ((datumKeeps_dtm s _).andThen (datumKeeps_sendClaims ..)) (.refl s)))⟩
  | _ => cases hc

/-- The registers of the commands of the map that other work may follow, as their frame names them. -/
def mapSettlingOffs : List Nat :=
  [F.SHP_FULL_CNT_COUNT, F.SHP_GATE_WAIT_CNT_COUNT, F.SHP_OVERRUN_CNT_COUNT, F.DTM_CTL_BUSY, F.DTM_EPOCH_EPOCH,
    F.DTM_STALE_CNT_COUNT, F.DTM_LAPSE_CNT_COUNT, F.DTM_QUERY_CNT_COUNT].map (fun f => f.off 0)

/-- What these commands change. -/
abbrev MapKeeps (s t : State) : Prop := Keeps [.hpt, .ras, .dtm, .glk, .shp, .out] mapSettlingOffs s t

theorem mapKeeps_of_datum {s t : State} (h : DatumKeeps s t) : MapKeeps s t := h.mono (by decide) (by decide)

theorem mapKeeps_joinCopyDone (s : State) (e : Nat) (entries : List (Nat × List Word)) (log : List (List Word)) (ok : Bool) :
    MapKeeps s (joinCopyDone s e entries log ok) := by
  refine keeps_whenUp ?_
  split
  · exact .refl s
  · exact keeps_ite (mapKeeps_of_datum (datumKeeps_joinFail s)) (mapKeeps_of_datum ((datumKeeps_dtm s _).andThen (datumKeeps_ctl _ 0))
      |>.andThen (keeps_wri_of_mem (by decide) _) |>.andThen ((keeps_writeEvent ..).widen (by decide)))

theorem mapKeeps_leaseLapse (s : State) (home : Nat) : MapKeeps s (leaseLapse s home) := by
  refine keeps_whenUp ?_
  split
  · exact keeps_ite ((mapKeeps_of_datum (datumKeeps_dtm s _)).andThen (keeps_addSat_of_mem (by decide) 1)) (.refl s)
  · exact .refl s

theorem mapKeeps_sendAnswer (s : State) (dest seq req owner lepoch : Nat) (st : Status) :
    MapKeeps s (sendAnswer s dest seq req owner lepoch st) := mapKeeps_of_datum (datumKeeps_send ..)

/-- A message for a home is refused by an answer, or does what it asks for. -/
theorem mapKeeps_homeMsg {s : State} {f : State → State} (hf : MapKeeps s (f s)) (kind c : Nat) (w : List Word) (home : Bool) :
    MapKeeps s (homeMsg s kind c w home f) := by
  refine keeps_whenUp (keeps_ite (mapKeeps_sendAnswer ..) (keeps_ite (.refl s) ?_))
  split
  · exact keeps_ite ((keeps_addSat_of_mem (by decide) 1 : MapKeeps s (bump s _)).andThen (mapKeeps_sendAnswer ..))
      ((mapKeeps_of_datum (datumKeeps_fetchFrom ..)).andThen (mapKeeps_sendAnswer ..))
  · exact keeps_ite (mapKeeps_sendAnswer ..) hf

theorem mapKeeps_answerQuery (s : State) (q : HeldQuery) : MapKeeps s (answerQuery s q) := by
  have counted : MapKeeps s (bump s F.DTM_QUERY_CNT_COUNT) := keeps_addSat_of_mem (by decide) 1
  unfold answerQuery
  dsimp only
  split <;> exact counted.andThen (mapKeeps_sendAnswer ..)

theorem mapKeeps_query (s : State) (e : Nat) (ws : List Word) : MapKeeps s (query s e ws) := by
  unfold query
  refine mapKeeps_homeMsg ?_ ..
  dsimp only
  exact keeps_ite (mapKeeps_of_datum (datumKeeps_dtm s _)) (mapKeeps_answerQuery s _)

theorem mapSettling_frame (c : Instr) (s : State) (hc : mapSettling c = true) :
    ∃ b, exec c s = .next (settle s b) ∧ MapKeeps s b := by
  cases c with
  | surveyEpoch src e =>
    exact ⟨_, rfl, mapKeeps_of_datum (keeps_whenUp (keeps_ite (.refl s) (keeps_ite (datumKeeps_fetchFrom ..)
      (keeps_ite (datumKeeps_pushRecords ..) (.refl s)))))⟩
  | joinCopyDone e entries log ok => exact ⟨_, rfl, mapKeeps_joinCopyDone s e entries log ok⟩
  | leaseLapse home => exact ⟨_, rfl, mapKeeps_leaseLapse s home⟩
  | query e ws => exact ⟨_, rfl, mapKeeps_query s e ws⟩
  | _ => cases hc

end Sys2Proof.Datum

namespace Sys2Proof.Continuity

open Sys2Proof Sys2Proof.Machine Sys2Proof.Laws Sys2Proof.Frames

/-! ### The twin (R437 to R457) -/

/-- The registers of the commands of the twin, as their frame names them. -/
def twinOffs : List Nat :=
  [F.SEC_REJECT_CNT_COUNT, F.SHP_FULL_CNT_COUNT, F.SHP_GATE_WAIT_CNT_COUNT, F.SHP_OVERRUN_CNT_COUNT, F.CON_STAT_CMD_STATUS,
    F.CON_BULK_PROG_DONE_GIB, F.CON_MISS_CNT_COUNT, F.CON_CMP_FAIL_CNT_COUNT].map (fun f => f.off 0)

/-- What a command of the twin changes. -/
abbrev TwinKeeps (s t : State) : Prop := Keeps [.hpt, .ras, .con, .glk, .shp, .out] twinOffs s t

theorem twinKeeps_con (s : State) (x : ConState) : TwinKeeps s { s with con := x } := (keeps_con s x).widen (by decide)

theorem twinKeeps_emit (s : State) (o : Output) : TwinKeeps s (emit s o) := (keeps_emit s o).widen (by decide)

theorem twinKeeps_openEvent (s : State) (ty : EvType) (st : Status) (u : UnitRef) (req ctx : Nat) :
    TwinKeeps s (openEvent s ty st u req ctx) := (keeps_openEvent ..).widen (by decide)

theorem twinKeeps_send (s : State) (dest tc : Nat) (kind : MsgKind) (words : List Word) : TwinKeeps s (send s dest tc kind words) :=
  (keeps_send s dest tc kind words).mono (by decide) (by decide)

/-- The fields of CON_STAT stand in one register. -/
theorem twinKeeps_stat {f : Field} (s : State) (v : Nat) (hf : f.off 0 = F.CON_STAT_CMD_STATUS.off 0 := by rfl) :
    TwinKeeps s (wr s f v) := keeps_wri_of_mem (hf ▸ by decide) v

/-- The fields of CON_BULK_PROG stand in one register. -/
theorem twinKeeps_progress {f : Field} (s : State) (v : Nat) (hf : f.off 0 = F.CON_BULK_PROG_DONE_GIB.off 0 := by rfl) :
    TwinKeeps s (wr s f v) := keeps_wri_of_mem (hf ▸ by decide) v

theorem twinKeeps_bar0 {s : State} {f : State → State} (h : TwinKeeps s (f s)) : TwinKeeps s (bar0 s f) :=
  keeps_bar0_of_mem (by decide) (by decide) h

/-! #### Beats and probes -/

theorem twinKeeps_beatSend (s : State) : TwinKeeps s (beatSend s) := by
  refine keeps_whenUp ?_
  split
  · exact .refl s
  · exact keeps_ite (.refl s)
      ((keeps_ite (twinKeeps_emit s _) ((twinKeeps_emit s _).andThen (twinKeeps_send ..))).andThen (twinKeeps_con _ _))

theorem twinKeeps_probe (s : State) : TwinKeeps s (probe s) := by
  unfold probe
  split
  · exact .refl s
  · exact (twinKeeps_con s _).andThen (Keeps.foldl (fun t n => twinKeeps_emit t _) _ _) |>.andThen (twinKeeps_send ..)

theorem twinKeeps_mirrorAckTimeout (s : State) : TwinKeeps s (mirrorAckTimeout s) :=
  keeps_whenUp (keeps_ite (.refl s) (keeps_ite (.refl s) ((twinKeeps_con s _).andThen (twinKeeps_probe _))))

theorem twinKeeps_beatMiss (s : State) : TwinKeeps s (beatMiss s) := by
  have missed (x : ConState) : TwinKeeps s (bump { s with con := x } F.CON_MISS_CNT_COUNT) :=
    (twinKeeps_con s x).andThen (keeps_addSat_of_mem (by decide) 1)
  exact keeps_whenUp (keeps_ite (.refl s) (keeps_ite ((missed _).andThen (twinKeeps_probe _)) (missed _)))

/-! #### The mirror stream -/

theorem twinKeeps_sendMirror (s : State) (mseq : Nat) (b : MirrorBody) : TwinKeeps s (sendMirror s mseq b) := by
  unfold sendMirror
  dsimp only
  split
  · exact (twinKeeps_emit s _).andThen ((keeps_issueOp ..).mono (by decide) (by decide))
  · exact twinKeeps_emit s _

theorem twinKeeps_mirrorOne (s : State) (b : MirrorBody) : TwinKeeps s (mirrorOne s b) := by
  unfold mirrorOne
  split
  · exact twinKeeps_con s _
  · exact keeps_ite ((twinKeeps_con s _).andThen (twinKeeps_sendMirror ..)) (keeps_ite (twinKeeps_con s _) (.refl s))

theorem twinKeeps_mirrorRec (s : State) (b : MirrorBody) : TwinKeeps s (mirrorRec s b) := Keeps.foldl twinKeeps_mirrorOne _ s

theorem twinKeeps_sendNow (s : State) (b : MirrorBody) : TwinKeeps s (sendNow s b) :=
  Keeps.foldl (fun t _ => (twinKeeps_con t _).andThen (twinKeeps_sendMirror ..)) _ s

theorem twinKeeps_replayPass (s : State) : TwinKeeps s (replayPass s) :=
  (twinKeeps_con s _).andThen (Keeps.foldl (fun t _ => (twinKeeps_con t _).andThen (twinKeeps_sendMirror ..)) _ _)

theorem twinKeeps_auditTick (s : State) : TwinKeeps s (auditTick s) := by
  refine keeps_whenUp (keeps_ite (.refl s) ?_)
  dsimp only
  split
  · exact .refl s
  · exact (twinKeeps_con s _).andThen (twinKeeps_mirrorRec ..)

/-! #### The commands of the pair -/

theorem twinKeeps_enterCon (s : State) (st : Nat) (events : List Status) : TwinKeeps s (enterCon s st events) :=
  (twinKeeps_stat s st).andThen (twinKeeps_stat _ _) |>.andThen (Keeps.foldl (fun t _ => twinKeeps_openEvent ..) _ _)

theorem twinKeeps_startSupply (s : State) : TwinKeeps s (startSupply s) :=
  (keeps_ite (.refl s) (twinKeeps_enterCon s 4 _)).andThen (twinKeeps_con _ _) |>.andThen (twinKeeps_stat _ 1)

theorem twinKeeps_startBulk (s : State) : TwinKeeps s (startBulk s) :=
  (twinKeeps_con s _).andThen (twinKeeps_stat _ 2) |>.andThen (twinKeeps_progress _ _) |>.andThen (twinKeeps_progress _ 0)
    |>.andThen (Keeps.foldl twinKeeps_sendNow _ _)

theorem twinKeeps_reintegrate (s : State) (crcMatch : Bool) : TwinKeeps s (reintegrate s crcMatch) := by
  have supplied := twinKeeps_startSupply s
  exact twinKeeps_bar0 (keeps_whenUp (keeps_ite (twinKeeps_stat s _) (keeps_ite
    (keeps_ite (supplied.andThen (twinKeeps_startBulk _) |>.andThen (twinKeeps_stat _ _)) (supplied.andThen (twinKeeps_stat _ _)))
    (.refl s))))

theorem twinKeeps_yield (s : State) : TwinKeeps s (yield s) :=
  twinKeeps_bar0 (keeps_ite (twinKeeps_stat s _) (keeps_ite (twinKeeps_stat s _) (twinKeeps_con s _)))

theorem twinKeeps_reintBulkDone (s : State) : TwinKeeps s (reintBulkDone s) :=
  keeps_whenUp (keeps_ite ((twinKeeps_stat s 3).andThen (twinKeeps_progress _ _) |>.andThen (twinKeeps_replayPass _)) (.refl s))

theorem twinKeeps_compareProbe (s : State) (crc : BitVec 32) : TwinKeeps s (compareProbe s crc) := by
  refine keeps_whenUp (keeps_ite (.refl s) ?_)
  split
  · exact twinKeeps_stat s _
  · have failed : TwinKeeps s (openEvent (bump s F.CON_CMP_FAIL_CNT_COUNT) .error St.CON_PROBE_FAIL noUnit 0 0) :=
      (keeps_addSat_of_mem (by decide) 1).andThen (twinKeeps_openEvent ..)
    exact keeps_ite (.refl s) (keeps_ite (failed.andThen (twinKeeps_con _ _)) failed)

theorem twinSettling_frame (c : Instr) (s : State) (hc : twinSettling c = true) :
    ∃ b, exec c s = .next (settle s b) ∧ TwinKeeps s b := by
  cases c with
  | beatSend => exact ⟨_, rfl, twinKeeps_beatSend s⟩
  | beatMiss => exact ⟨_, rfl, twinKeeps_beatMiss s⟩
  | mirrorAckTimeout => exact ⟨_, rfl, twinKeeps_mirrorAckTimeout s⟩
  | yield => exact ⟨_, rfl, twinKeeps_yield s⟩
  | reintegrate m => exact ⟨_, rfl, twinKeeps_reintegrate s m⟩
  | reintBulkDone => exact ⟨_, rfl, twinKeeps_reintBulkDone s⟩
  | auditTick => exact ⟨_, rfl, twinKeeps_auditTick s⟩
  | compareProbe crc => exact ⟨_, rfl, twinKeeps_compareProbe s crc⟩
  | _ => cases hc

/-- Settles O52: each command's own effect keeps all but its parts and registers, operation by operation. -/
theorem mapFrames : Obligations.MapFrames := by
  refine ⟨fun c s hc => ?_, fun c s hc => ?_, fun c s hc => ?_⟩
  · obtain ⟨b, hb, k⟩ := Datum.mapOnly_frame c s hc
    exact ⟨b, hb, k.eq_overlay, k.regsKept⟩
  · obtain ⟨b, hb, k⟩ := Datum.mapSettling_frame c s hc
    exact ⟨b, hb, k.eq_overlay, k.regsKept⟩
  · obtain ⟨b, hb, k⟩ := twinSettling_frame c s hc
    exact ⟨b, hb, k.eq_overlay, k.regsKept⟩

end Sys2Proof.Continuity
end

section
/-! The composition map: how its records spread, how a controller joins, and what holders, homes and claimants send each other
(R395 to R412). -/

namespace Sys2Proof.Datum

open Sys2Proof Sys2Proof.Machine Sys2Proof.Laws Sys2Proof.Frames Sys2Proof.HostPort

/-! ### Map records (R396, R397) -/

section
variable {s : State} (hu : isUp s = true)
include hu

/-- A record that comes to a controller in a composition is old, next, or too far ahead. -/
theorem mapLogRecord_known {ws : List Word} {e : Nat} {es : List (Nat × List Word)} (hr : recordOf ws = (e, es)) (h0 : epoch s ≠ 0)
    (src : Nat) :
    mapLogRecord s src ws =
      if epochDiff e (epoch s) ≤ 0 then s
      else if epochDiff e (epoch s) = 1 then spreadRecord (advanceEpoch s e es) e es
      else fetchFrom s src e := by
  unfold mapLogRecord
  rw [whenUp_up hu]
  simp only [hr, h0, ne_eq, not_false_eq_true, and_true]

/-- A survey's epoch is this controller's, ahead of it, or behind it, within its log or beyond. -/
theorem surveyEpoch_up (src e : Nat) :
    surveyEpoch s src e =
      if epochDiff e (epoch s) = 0 then s
      else if 0 < epochDiff e (epoch s) then fetchFrom s src e
      else if -64 ≤ epochDiff e (epoch s) then pushRecords 64 s src e else s := by
  unfold surveyEpoch
  rw [whenUp_up hu]

theorem surveyRound_asks (h0 : epoch s ≠ 0) (hp : surveyPeer s ≠ self s) :
    surveyRound s = send s (surveyPeer s) 0 .epoch [at' 0 32 (epoch s)] := by
  unfold surveyRound
  rw [whenUp_up hu, if_neg (not_or.2 ⟨h0, hp⟩)]

end

theorem fetchFrom_near {s : State} {c : Nat} (h0 : epoch s ≠ 0) (hc : epochDiff c (epoch s) ≤ 64) (node : Nat) :
    fetchFrom s node c = send s node 0 .mapFetch [at' 0 32 (epoch s)] :=
  if_neg (not_or.2 ⟨h0, Int.not_lt.2 hc⟩)

theorem fetchFrom_far {s : State} {c : Nat} (h : epoch s = 0 ∨ 64 < epochDiff c (epoch s)) (node : Nat) :
    fetchFrom s node c = send { s with dtm := { s.dtm with copying := some node } } node 0 .mapFetch [0] := if_pos h

theorem pushRecords_logged {s : State} {c : Nat} {es : List (Nat × List Word)} (hd : 0 < epochDiff (epoch s) c)
    (hl : tget s.dtm.log ((c + 1) % 2 ^ 32 % 64) = some ((c + 1) % 2 ^ 32, es)) (node n : Nat) :
    pushRecords (n + 1) s node c =
      pushRecords n (send s node 0 .mapRecord (logWords ((c + 1) % 2 ^ 32) es)) node ((c + 1) % 2 ^ 32) := by
  rw [pushRecords]
  simp only [Int.not_le.2 hd, hl, if_true, if_false]

/-! ### A change of the map (R396, R410, R552) -/

/-- The map, the log and the holders after a record; the scheduler's deficits and the event come later. -/
theorem advanceEpoch_dtm (s : State) (e : Nat) (es : List (Nat × List Word)) :
    (advanceEpoch s e es).dtm = { s.dtm with
      map := es.foldl (fun m x => mapSet m x.1 x.2) s.dtm.map
      log := tset s.dtm.log (e % 64) (e, es)
      since := rd s F.GLB_MGMT_CYCLES_COUNT
      holders := clearRevoked s.dtm.map (es.foldl (fun m x => mapSet m x.1 x.2) s.dtm.map) s.dtm.holders } := by
  refine ((keeps_writeEvent _ .mapChange St.OK 0 0 _ _).parts .dtm (by decide)).trans ?_
  dsimp only
  split <;> rfl

theorem keeps_advanceEpoch (s : State) (e : Nat) (es : List (Nat × List Word)) :
    Keeps [.dtm, .sch, .hpt, .out] [F.DTM_EPOCH_EPOCH.off 0] s (advanceEpoch s e es) := by
  have moved := (keeps_dtm s { s.dtm with
    map := es.foldl (fun m x => mapSet m x.1 x.2) s.dtm.map
    log := tset s.dtm.log (e % 64) (e, es)
    since := rd s F.GLB_MGMT_CYCLES_COUNT
    holders := clearRevoked s.dtm.map (es.foldl (fun m x => mapSet m x.1 x.2) s.dtm.map) s.dtm.holders }).trans
      (keeps_wr _ F.DTM_EPOCH_EPOCH e)
  have restarted := moved.mono (ps := [.dtm, .sch, .hpt, .out]) (offs := [F.DTM_EPOCH_EPOCH.off 0]) (by decide) (by decide)
  exact restarted.andThen (keeps_ite (.refl _) ((keeps_sch _ _).widen (by decide)))
    |>.andThen ((keeps_writeEvent ..).widen (by decide))

theorem epoch_advanceEpoch {s : State} {e : Nat} (he : e < 2 ^ 32) (es : List (Nat × List Word)) :
    epoch (advanceEpoch s e es) = e := by
  have posted (t : State) (d0 d1 : Word) : epoch (writeEvent t .mapChange St.OK 0 0 d0 d1) = epoch t :=
    Scheduling.rd_of_keeps (keeps_writeEvent ..) (by decide)
  have written (t : State) : epoch (wr t F.DTM_EPOCH_EPOCH e) = e :=
    (rd_wr_same t F.DTM_EPOCH_EPOCH e (by decide)).trans (Nat.mod_eq_of_lt he)
  refine (posted _ _ _).trans ?_
  dsimp only
  split <;> exact written _

/-! ### Joining (R395) -/

theorem dtmJoin_alone {s : State} {w : Word} (hl : rd s F.SEC_PROT_LOCK_LOCK = 1) (hw : bit w 63 = true) (h0 : epoch s = 0)
    (hb : rd s F.DTM_CTL_BUSY = 0) :
    dtmJoin s w =
      let s1 := wr (wr (wr (wr s F.DTM_CTL_SEED (bits w 39 20)) F.DTM_CTL_BASE_MIB (bits w 19 0)) F.DTM_CTL_BUSY 1) F.DTM_CTL_ERR 0
      if joinRegionOk s1 then
        send { s1 with dtm := { s1.dtm with copying := some (bits w 39 20) } } (bits w 39 20) 0 .mapFetch [0]
      else joinFail s1 := by
  unfold dtmJoin
  rw [ofForm_of hw, bar0_locked hl, if_neg (by simp [h0, hb])]

theorem dtmJoin_joined {s : State} {w : Word} (hl : rd s F.SEC_PROT_LOCK_LOCK = 1) (hw : bit w 63 = true)
    (h : epoch s ≠ 0 ∨ rd s F.DTM_CTL_BUSY = 1) : dtmJoin s w = s := by
  unfold dtmJoin
  rw [ofForm_of hw, bar0_locked hl, if_pos h]

theorem joinFail_ofJoin {s : State} (hb : rd s F.DTM_CTL_BUSY = 1) :
    joinFail s = openEvent (wr (wr { s with dtm := { s.dtm with copying := none } } F.DTM_CTL_BUSY 0) F.DTM_CTL_ERR 1)
      .error St.DTM_JOIN_FAIL noUnit 0 0 := if_pos hb

section
variable {s : State} {node : Nat} (hu : isUp s = true) (hc : s.dtm.copying = some node)
include hu hc

theorem joinCopyDone_bad (e : Nat) (entries : List (Nat × List Word)) (log : List (List Word)) :
    joinCopyDone s e entries log false = joinFail s := by
  unfold joinCopyDone
  rw [whenUp_up hu, hc]
  rfl

theorem joinCopyDone_good (e : Nat) (entries : List (Nat × List Word)) (log : List (List Word)) :
    joinCopyDone s e entries log true =
      let m := entries.foldl (fun m x => mapSet m (x.1 % 2 ^ 20) ((List.range 4).map (wordAt x.2))) []
      writeEvent (wr (wr { s with dtm := { s.dtm with
        copying := none, map := m, log := (log.map recordOf).foldl (fun l r => tset l (r.1 % 64) r) [],
        since := rd s F.GLB_MGMT_CYCLES_COUNT, holders := clearRevoked s.dtm.map m s.dtm.holders } } F.DTM_CTL_BUSY 0)
        F.DTM_EPOCH_EPOCH (e % 2 ^ 32)) .mapChange St.OK 0 0 (at' 0 32 e) 0 := by
  unfold joinCopyDone
  rw [whenUp_up hu, hc]
  rfl

theorem joinTimeout_copying : joinTimeout s = joinFail s := by
  unfold joinTimeout
  rw [whenUp_up hu, if_pos (by simp [hc])]

end

/-- Settles O27: each command by the lemma of its case. -/
theorem mapSpread : Obligations.MapSpread := by
  refine ⟨?_, ?_, ?_, ?_, ?_, ?_, ?_, ?_, ?_, ?_⟩
  · intro s src e ws es hu hr h0
    have known := mapLogRecord_known hu hr h0 src
    refine ⟨fun hd => next_settle ?_, fun hd => next_settle ?_, fun hd => next_settle ?_⟩
    · rw [known, if_neg (by omega), if_pos hd]
    · rw [known, if_pos hd]
    · rw [known, if_neg (by omega), if_neg (by omega)]
  · intro s e es
    have moved := keeps_advanceEpoch s e es
    have dtm := advanceEpoch_dtm s e es
    refine ⟨by rw [dtm], by rw [dtm]; exact tget_tset_same _ _ _, by rw [dtm], by rw [dtm], moved.parts .hbm (by decide),
      moved.parts .kva (by decide), fun he => epoch_advanceEpoch he es⟩
  · exact fun s node c => ⟨fun h0 hc => fetchFrom_near h0 hc node, fun h => fetchFrom_far h node⟩
  · exact fun s hu h0 hp => congrArg Host.Outcome.next (surveyRound_asks hu h0 hp)
  · intro s src e hu
    have asked := surveyEpoch_up hu src e
    refine ⟨fun hd => next_settle ?_, fun hd => next_settle ?_, fun hd hn => next_settle ?_, fun hd => next_settle ?_⟩
    · rw [asked, if_pos hd]
    · rw [asked, if_neg (by omega), if_pos hd]
    · rw [asked, if_neg (by omega), if_neg (by omega), if_pos hn]
    · rw [asked, if_neg (by omega), if_neg (by omega), if_neg (by omega)]
  · exact fun s node n c es hd hl => pushRecords_logged hd hl node n
  · intro s w hl hw h0 hb
    have alone := dtmJoin_alone hl hw h0 hb
    exact ⟨fun ok => congrArg Host.Outcome.next (alone.trans (if_pos ok)),
      fun bad => congrArg Host.Outcome.next (alone.trans (if_neg (by simp [bad])))⟩
  · exact fun s w hl hw h => congrArg Host.Outcome.next (dtmJoin_joined hl hw h)
  · exact fun s node e entries log hu hc => next_settle (joinCopyDone_good hu hc e entries log)
  · exact fun s node e entries log hu hc => ⟨congrArg Host.Outcome.next (joinTimeout_copying hu hc),
      next_settle (joinCopyDone_bad hu hc e entries log), joinFail_ofJoin⟩

end Sys2Proof.Datum
end

section
/-! Leases, queries and claims: what holders and homes say to each other, and what becomes of the requests (R404 to R412). -/

namespace Sys2Proof.Datum

open Sys2Proof Sys2Proof.Machine Sys2Proof.Laws Sys2Proof.Frames Sys2Proof.HostPort

/-! ### Messages for a home (R398, R401, R406) -/

section
variable {s : State} {w : List Word} {kind c : Nat} {home : Bool} {f : State → State} (hu : isUp s = true)
include hu

theorem homeMsg_bad (hb : dtmBad w = true) :
    homeMsg s kind c w home f = sendAnswer s (mNode w) (mSeq w) (mReq w) 0 0 St.DTM_BAD_MSG := by
  unfold homeMsg
  rw [whenUp_up hu, if_pos hb]

section
variable (hb : dtmBad w = false) (hk : mKind w = kind)
include hb hk

theorem homeMsg_wellFormed :
    homeMsg s kind c w home f =
      match epochRule s c with
      | some st =>
        if st = St.DTM_STALE_MAP then sendAnswer (bump s F.DTM_STALE_CNT_COUNT) (mNode w) (mSeq w) (mReq w) 0 0 st
        else sendAnswer (fetchFrom s (mNode w) c) (mNode w) (mSeq w) (mReq w) 0 0 st
      | none => if !home then sendAnswer s (mNode w) (mSeq w) (mReq w) 0 0 St.DTM_NOT_HOME else f s := by
  unfold homeMsg
  exact (whenUp_up hu).trans ((if_neg (by simp [hb])).trans (if_neg (not_not.2 hk)))

theorem homeMsg_stale (he : epochRule s c = some St.DTM_STALE_MAP) :
    homeMsg s kind c w home f =
      sendAnswer (bump s F.DTM_STALE_CNT_COUNT) (mNode w) (mSeq w) (mReq w) 0 0 St.DTM_STALE_MAP := by
  rw [homeMsg_wellFormed hu hb hk, he]
  rfl

theorem homeMsg_behind (he : epochRule s c = some St.GLK_BUSY) :
    homeMsg s kind c w home f = sendAnswer (fetchFrom s (mNode w) c) (mNode w) (mSeq w) (mReq w) 0 0 St.GLK_BUSY := by
  rw [homeMsg_wellFormed hu hb hk, he]
  exact if_neg (by decide)

theorem homeMsg_notHome (he : epochRule s c = none) (hh : home = false) :
    homeMsg s kind c w home f = sendAnswer s (mNode w) (mSeq w) (mReq w) 0 0 St.DTM_NOT_HOME := by
  rw [homeMsg_wellFormed hu hb hk, he, hh]
  rfl

theorem homeMsg_serves (he : epochRule s c = none) (hh : home = true) : homeMsg s kind c w home f = f s := by
  rw [homeMsg_wellFormed hu hb hk, he, hh]
  rfl

end

end

/-! ### Leases (R405, R410, R411) -/

theorem renewTimer_joined {s : State} (hu : isUp s = true) (h0 : epoch s ≠ 0) :
    renewTimer s = (homesNeeded s).foldl (fun s h => sendRenew s h (twinLossAt s h)) s := by
  unfold renewTimer
  rw [whenUp_up hu, if_neg h0]

section
variable {s : State} {e : Nat} {ws : List Word} (hu : isUp s = true) (hb : dtmBad ws = false) (hk : mKind ws = 1)
  (he : epochRule s e = none) (hh : isHome s = true)
include hu hb hk he hh

theorem renew_known {h : Holder} (hg : tget s.dtm.holders (mNode ws) = some h) :
    renew s e ws =
      if h.revoked then sendAnswer s (mNode ws) (mSeq ws) 0 0 0 St.DTM_LEASE_REVOKED
      else sendAnswer (setHolder s (mNode ws) ⟨true, mLoss ws, false⟩) (mNode ws) (mSeq ws) 0 0 0 St.OK := by
  unfold renew
  rw [homeMsg_serves hu hb hk he hh]
  simp only [hg]

theorem renew_new (hg : tget s.dtm.holders (mNode ws) = none) :
    renew s e ws =
      if 16384 ≤ s.dtm.holders.length then sendAnswer s (mNode ws) (mSeq ws) 0 0 0 St.DTM_HOME_FULL
      else sendAnswer (setHolder s (mNode ws) ⟨true, mLoss ws, false⟩) (mNode ws) (mSeq ws) 0 0 0 St.OK := by
  unfold renew
  rw [homeMsg_serves hu hb hk he hh]
  simp only [hg]

theorem renew_revoked {h : Holder} (hg : tget s.dtm.holders (mNode ws) = some h) (hr : h.revoked = true) :
    renew s e ws = sendAnswer s (mNode ws) (mSeq ws) 0 0 0 St.DTM_LEASE_REVOKED :=
  (renew_known hu hb hk he hh hg).trans (if_pos hr)

/-- A holder that is not revoked, or a new one with room for it, holds its lease from here on. -/
theorem renew_granted (hr : ∀ h, tget s.dtm.holders (mNode ws) = some h → h.revoked = false)
    (hn : tget s.dtm.holders (mNode ws) = none → s.dtm.holders.length < 16384) :
    renew s e ws = sendAnswer (setHolder s (mNode ws) ⟨true, mLoss ws, false⟩) (mNode ws) (mSeq ws) 0 0 0 St.OK := by
  cases hg : tget s.dtm.holders (mNode ws) with
  | some h => exact (renew_known hu hb hk he hh hg).trans (if_neg (by simp [hr h hg]))
  | none => exact (renew_new hu hb hk he hh hg).trans (if_neg (Nat.not_le.2 (hn hg)))

end

section
variable {s : State} (hu : isUp s = true)
include hu

theorem leaseLapse_live {home : Nat} {l : Lease} (hg : tget s.dtm.leases home = some l) (hl : l.live = true) :
    leaseLapse s home =
      bump { s with dtm := { s.dtm with leases := tset s.dtm.leases home { l with live := false } } } F.DTM_LAPSE_CNT_COUNT := by
  unfold leaseLapse
  rw [whenUp_up hu]
  simp only [hg, hl, if_true]

/-- A holder that expires while its twin is neither live nor revoked takes the pair's requests with it. -/
theorem holderExpiry_live {n : Nat} {h : Holder} (hg : tget s.dtm.holders n = some h) (hl : h.live = true)
    (hr : h.revoked = false) :
    holderExpiry s n =
      let s1 := { s with dtm := { s.dtm with holders := tset s.dtm.holders n { h with live := false } } }
      let o := tgetD s1.dtm.holders (eTwin (mapGet s.dtm.map n)) ⟨false, false, false⟩
      if o.live || o.revoked then s1 else losePair s1 n := by
  unfold holderExpiry
  rw [whenUp_up hu]
  simp only [hg, hl, hr, Bool.not_true, Bool.or_false, Bool.false_eq_true, if_false]

end

/-! ### Answers (R405, R410, R412, R447) -/

/-- Results of the steps of an exposed member's requests that it may not deliver, and their pages, are dropped. -/
def dropServed (s : State) (rs : List Nat) : State :=
  rs.foldl (fun u r => freePages { u with smp := { u.smp with results := tdel u.smp.results r } } r) s

section
variable {s : State} {src : Nat} {ws : List Word} (hu : isUp s = true) (hb : dtmBad ws = false) (hk : mKind ws = 4)
include hu hb hk

theorem answer_toQuery (hr : mReq ws ≠ 0) : answer s src ws = answerForQuery s src ws := by
  unfold answer
  rw [whenUp_up hu, if_neg (by simp [hb, hk]), if_pos hr]

theorem answer_toRenew (hr : mReq ws = 0) (hc : tget s.dtm.claims src ≠ some (mSeq ws)) :
    answer s src ws = flushReports (dropServed (answerForRenew s src ws)
      (if exposed s && mSt ws == St.DTM_LEASE_REVOKED && (tget s.dtm.leases src).any (fun l => l.asked == some (mSeq ws))
        then (ownLeases s).filter (fun r => homeOf s.dtm.map r == src) else [])) := by
  unfold answer
  rw [whenUp_up hu, if_neg (by simp [hb, hk]), if_neg (not_not.2 hr), if_neg hc]
  rfl

section
variable {l : Lease} (hr : mReq ws = 0) (hc : tget s.dtm.claims src ≠ some (mSeq ws)) (hl : tget s.dtm.leases src = some l)
  (ha : l.asked = some (mSeq ws))
include hr hc hl ha

theorem answer_renewed (hx : exposed s = false) (hs : mSt ws = St.OK) :
    answer s src ws = flushReports { s with dtm := { s.dtm with leases := tset s.dtm.leases src ⟨true, none⟩ } } := by
  have renewed : answerForRenew s src ws = { s with dtm := { s.dtm with leases := tset s.dtm.leases src ⟨true, none⟩ } } := by
    unfold answerForRenew
    simp only [hl, ha, hs, ne_eq, not_true_eq_false, if_false, if_true]
    have paired : exposed { s with dtm := { s.dtm with leases := tset s.dtm.leases src ⟨true, none⟩ } } = false := hx
    exact if_neg (by simp [paired])
  rw [answer_toRenew hu hb hk hr hc, renewed, hx]
  rfl

/-- A holder told that it is revoked serves its requests at that home no longer. -/
theorem answer_revoked (hs : mSt ws = St.DTM_LEASE_REVOKED) :
    answer s src ws = flushReports (dropServed
      (((s.kva.roots.filter (fun e => e.2.lease != 0 && homeOf s.dtm.map e.1 == src)).map (fun e => e.1)).foldl stopServing
        { s with dtm := { s.dtm with leases := tset s.dtm.leases src ⟨false, none⟩ } })
      (if exposed s then (ownLeases s).filter (fun r => homeOf s.dtm.map r == src) else [])) := by
  have stopped : answerForRenew s src ws =
      ((s.kva.roots.filter (fun e => e.2.lease != 0 && homeOf s.dtm.map e.1 == src)).map (fun e => e.1)).foldl stopServing
        { s with dtm := { s.dtm with leases := tset s.dtm.leases src ⟨false, none⟩ } } := by
    unfold answerForRenew
    simp only [hl, ha, hs, ne_eq, not_true_eq_false, if_false, if_true]
    exact if_neg (by decide)
  rw [answer_toRenew hu hb hk hr hc, stopped]
  simp [hs, hl, ha]

end

end

/-- Settles O28: each command by the lemma of its case. -/
theorem leasesAndHolders : Obligations.LeasesAndHolders := by
  refine ⟨fun s hu h0 => congrArg Host.Outcome.next (renewTimer_joined hu h0), ?_, ?_,
    fun s home l hu hg hl => next_settle (leaseLapse_live hu hg hl), ?_, ?_⟩
  · intro s e ws hu hb hk he hh
    exact ⟨fun hr hn => next_settle (renew_granted hu hb hk he hh hr hn),
      fun h hg hr => next_settle (renew_revoked hu hb hk he hh hg hr),
      fun hg hf => next_settle ((renew_new hu hb hk he hh hg).trans (if_pos hf))⟩
  · intro s e ws hu
    exact ⟨fun hb => next_settle (homeMsg_bad hu hb), fun hb hk he => next_settle (homeMsg_stale hu hb hk he),
      fun hb hk he => next_settle (homeMsg_behind hu hb hk he), fun hb hk he hh => next_settle (homeMsg_notHome hu hb hk he hh)⟩
  · intro s n h hu hg hl hr
    have expired := holderExpiry_live hu hg hl hr
    exact ⟨fun ho => next_settle (expired.trans (if_pos (Bool.or_eq_true_iff.2 ho))),
      fun hol hor => next_settle (expired.trans (if_neg (by rw [hol, hor]; decide)))⟩
  · exact fun s src ws l hu hb hk hr hc hx hl ha hs =>
      next_settle (answer_renewed hu hb hk hr (by rw [hc]; exact nofun) hl ha hx hs)

/-! ### Queries (R407, R412) -/

theorem query_serves {s : State} {e : Nat} {ws : List Word} (hu : isUp s = true) (hb : dtmBad ws = false) (hk : mKind ws = 2)
    (he : epochRule s e = none) (hh : actsAs s (homeOf s.dtm.map (mReq ws)) = true) :
    query s e ws =
      if recordPrepared s (mReq ws) then { s with dtm := { s.dtm with held := s.dtm.held ++ [⟨mNode ws, mSeq ws, mReq ws⟩] } }
      else answerQuery s ⟨mNode ws, mSeq ws, mReq ws⟩ := by
  unfold query
  exact homeMsg_serves hu hb hk he hh

theorem answerQuery_known {s : State} {q : HeldQuery} {h : HomeRec} (hg : tget s.dtm.homes q.req = some h) :
    answerQuery s q = sendAnswer (bump s F.DTM_QUERY_CNT_COUNT) q.node q.seq q.req h.owner h.epoch St.OK := by
  unfold answerQuery
  simp only [bump_dtm, hg]

theorem answerQuery_unknown {s : State} {q : HeldQuery} (hg : tget s.dtm.homes q.req = none) :
    answerQuery s q = sendAnswer (bump s F.DTM_QUERY_CNT_COUNT) q.node q.seq q.req 0 0 St.HPT_REQ_UNKNOWN := by
  unfold answerQuery
  simp only [bump_dtm, hg]

theorem queryTimeout_awaited {s : State} {req : Nat} (hu : isUp s = true) (hq : req ∈ s.dtm.queries) :
    queryTimeout s req = askHome s req := by
  unfold queryTimeout
  rw [whenUp_up hu, if_pos (by simpa using hq)]

/-- The query of a request is no longer outstanding. -/
def queryDone (s : State) (req : Nat) : State :=
  { s with dtm := { s.dtm with queries := s.dtm.queries.filter (· != req) } }

section
variable {s : State} {src : Nat} {ws : List Word} (hq : mReq ws ∈ s.dtm.queries)
include hq

theorem answerForQuery_awaited :
    answerForQuery s src ws =
      if mSt ws = St.OK then
        if mOwner ws = ownGroup s ∨ (s.con.both ∧ mOwner ws = eSibling (ownEntry s)) then
          let s1 := localTake (queryDone s (mReq ws)) [⟨0, rootObj (mReq ws), .putLease (mReq ws) (mEpoch ws)⟩]
          if leaseLive s1 (mReq ws) then modReq s1 (mReq ws) (fun r => { r with doubt := false }) else s1
        else
          let s1 := stopServing (queryDone s (mReq ws)) (mReq ws)
          if role s = 3 then notifyOwner s1 (mReq ws) (mOwner ws) else s1
      else if mSt ws = St.DTM_STALE_MAP ∨ mSt ws = St.DTM_NOT_HOME then
        askHome (send s src 0 .mapFetch [at' 0 32 (epoch s)]) (mReq ws)
      else if mSt ws = St.HPT_REQ_UNKNOWN then stopServing (queryDone s (mReq ws)) (mReq ws)
      else s := if_neg (by simpa using hq)

theorem answerForQuery_unknown (hs : mSt ws = St.HPT_REQ_UNKNOWN) :
    answerForQuery s src ws = stopServing (queryDone s (mReq ws)) (mReq ws) := by
  rw [answerForQuery_awaited hq, hs, if_neg (by decide), if_neg (by decide), if_pos rfl]

/-- A group that the home does not name serves the request no longer; an outside holder would tell the owner. -/
theorem answerForQuery_elsewhere (hs : mSt ws = St.OK) (ho : mOwner ws ≠ ownGroup s) (hc : s.con.both = false) (hr : role s ≠ 3) :
    answerForQuery s src ws = stopServing (queryDone s (mReq ws)) (mReq ws) := by
  rw [answerForQuery_awaited hq, if_pos hs, if_neg (by simp [ho, hc])]
  exact if_neg hr

theorem answerForQuery_notHome (hs : mSt ws = St.DTM_NOT_HOME) :
    answerForQuery s src ws = askHome (send s src 0 .mapFetch [at' 0 32 (epoch s)]) (mReq ws) := by
  rw [answerForQuery_awaited hq, hs, if_neg (by decide), if_pos (.inr rfl)]

theorem answerForQuery_confirmed (hs : mSt ws = St.OK) (ho : mOwner ws = ownGroup s) :
    answerForQuery s src ws =
      let s1 := localTake (queryDone s (mReq ws)) [⟨0, rootObj (mReq ws), .putLease (mReq ws) (mEpoch ws)⟩]
      if leaseLive s1 (mReq ws) then modReq s1 (mReq ws) (fun r => { r with doubt := false }) else s1 := by
  rw [answerForQuery_awaited hq, if_pos hs, if_pos (.inl ho)]

end

/-! ### Claims and buckets (R404, R408, R409) -/

theorem claim_serves {s : State} {e : Nat} {ws : List Word} (hu : isUp s = true) (hb : dtmBad ws = false) (hk : mKind ws = 3)
    (he : epochRule s e = none) (hh : isHome s = true) :
    claim s e ws =
      let x := mSubject ws
      let h := tgetD s.dtm.holders x ⟨false, false, false⟩
      let mine := s.dtm.homes.filter (fun e => e.2.owner == eGroup (mapGet s.dtm.map x) && e.2.owner != 0xFFFF)
      if eTwin (mapGet s.dtm.map (mNode ws)) ≠ x ∨ eState (mapGet s.dtm.map (mNode ws)) = 0 then
        sendAnswer s (mNode ws) (mSeq ws) 0 0 0 St.DTM_CLAIM_REFUSED
      else if h.twinLoss then sendAnswer s (mNode ws) (mSeq ws) 0 0 0 St.DTM_CLAIM_REFUSED
      else if mine.isEmpty then
        sendAnswer (setHolder s x { h with revoked := true }) (mNode ws) (mSeq ws) 0 0 0 St.HPT_REQ_UNKNOWN
      else confirmTakes (sendAnswer (setHolder s x { h with revoked := true }) (mNode ws) (mSeq ws) 0 0 0 St.OK) (mNode ws) (mSeq ws)
        mine := by
  unfold claim
  exact homeMsg_serves hu hb hk he hh

theorem claimResend_awaited {s : State} {home seq : Nat} (hu : isUp s = true) (hc : tget s.dtm.claims home = some seq) :
    claimResend s home seq =
      sendClaims { s with dtm := { s.dtm with claims := tdel s.dtm.claims home } } ((twin s).getD 0) [home] := by
  unfold claimResend
  rw [whenUp_up hu, if_pos hc]

theorem bucketCopy_moving {s : State} {b : Nat} (hu : isUp s = true) (hb : b < 4096)
    (hm : bMoving (mapGet s.dtm.map (bucketBase + b)) = true) (ha : actsAs s (bucketHome s.dtm.map b) = true) :
    bucketCopy s b =
      let recs := s.dtm.homes.filter (fun r => bucketOf r.1 == b)
      (chunks 64 recs.length recs).foldl (fun u c =>
        startTake u ⟨[self u, bNext (mapGet s.dtm.map (bucketBase + b))], 0, epoch u,
          c.map (fun r => ⟨1, ⟨kRegion, 3, r.1⟩, .putHome r.1 r.2⟩)⟩ (.bucket b) .block 15) s := by
  unfold bucketCopy
  rw [whenUp_up hu]
  exact if_neg (by simp [hm, ha, Nat.not_le.2 hb])

/-- Settles O29: each command by the lemma of its case. -/
theorem queriesAndClaims : Obligations.QueriesAndClaims := by
  refine ⟨?_, fun s req hu hq => congrArg Host.Outcome.next (queryTimeout_awaited hu hq), ?_, ?_, ?_,
    fun s home seq hu hc => congrArg Host.Outcome.next (claimResend_awaited hu hc), ?_⟩
  · intro s e ws hu hb hk he hh
    have served := query_serves hu hb hk he hh
    exact ⟨fun hp => next_settle (served.trans (if_pos hp)),
      fun h hp hg => next_settle ((served.trans (if_neg (by simp [hp]))).trans (answerQuery_known hg)),
      fun hp hg => next_settle ((served.trans (if_neg (by simp [hp]))).trans (answerQuery_unknown hg))⟩
  · intro s src ws hu hb hk hr hq
    have asked := answer_toQuery (src := src) hu hb hk hr
    exact ⟨fun hs => next_settle (asked.trans (answerForQuery_unknown hq hs)),
      fun hs ho hc h3 => next_settle (asked.trans (answerForQuery_elsewhere hq hs ho hc h3)),
      fun hs => next_settle (asked.trans (answerForQuery_notHome hq hs))⟩
  · intro s src ws hu hb hk hr hq hs ho s1 hlive
    exact next_settle ((answer_toQuery hu hb hk hr).trans ((answerForQuery_confirmed hq hs ho).trans (if_pos hlive)))
  · intro s e ws hu hb hk he hh
    have served := claim_serves hu hb hk he hh
    refine ⟨fun h => next_settle ?_, fun ht hst hl => ⟨fun hm => next_settle ?_, fun hm => next_settle ?_⟩⟩
    · obtain ht | hst | hl := h
      · exact served.trans (if_pos (.inl ht))
      · exact served.trans (if_pos (.inr hst))
      · exact served.trans ((congrArg (ite _ _) (if_pos hl)).trans (ite_self _))
    · exact served.trans ((if_neg (not_or.2 ⟨not_not.2 ht, hst⟩)).trans ((if_neg (by rw [hl]; decide)).trans
        (if_pos (List.isEmpty_iff.2 hm))))
    · exact served.trans ((if_neg (not_or.2 ⟨not_not.2 ht, hst⟩)).trans ((if_neg (by rw [hl]; decide)).trans
        (if_neg (fun h => hm (List.isEmpty_iff.1 h)))))
  · exact fun s b hu hb hm ha => next_settle (bucketCopy_moving hu hb hm ha)

/-! ### The end of a revocation (R410) -/

theorem tget_tmap {α : Type} (f : Nat → α → α) (t : Tbl α) (k : Nat) : tget (tmap f t) k = (tget t k).map (f k) := by
  induction t with
  | nil => rfl
  | cons p t ih =>
    by_cases h : p.1 = k
    · simp [tget, tmap, h]
    · simpa [tget, tmap, h] using ih

/-- Settles O59: the home answers, the holder stops serving, and only a change from REJOIN to SERVING ends the mark. -/
theorem revokedHolders : Obligations.RevokedHolders := by
  refine ⟨?_, ?_, ?_, ?_⟩
  · exact fun s e ws h hu hb hk he hh hg hr => next_settle (renew_revoked hu hb hk he hh hg hr)
  · intro s src ws l hu hb hk hr hc hl ha hs mine dropped
    refine next_settle ((answer_revoked hu hb hk hr hc hl ha hs).trans (congrArg flushReports ?_))
    split
    · rfl
    · rfl
  · intro old new hs n h hg
    rw [clearRevoked, tget_tmap, hg]
    rfl
  · intro s e es
    rw [advanceEpoch_dtm]

end Sys2Proof.Datum
end

section
/-! The frames of the clocks and sensors, of the granules, and of boot and attestation (R466 to R543). -/

namespace Sys2Proof.Frames

open Sys2Proof Sys2Proof.Machine Sys2Proof.Laws

/-! ### Single updates -/

theorem keeps_clk (s : State) (x : ClkState) : Keeps [.clk] [] s { s with clk := x } :=
  keeps_of_parts rfl (fun p hp => by cases p with
    | clk => simp at hp
    | _ => rfl)

theorem keeps_sec (s : State) (x : SecState) : Keeps [.sec] [] s { s with sec := x } :=
  keeps_of_parts rfl (fun p hp => by cases p with
    | sec => simp at hp
    | _ => rfl)

theorem keeps_mgt (s : State) (x : MgtState) : Keeps [.mgt] [] s { s with mgt := x } :=
  keeps_of_parts rfl (fun p hp => by cases p with
    | mgt => simp at hp
    | _ => rfl)

end Sys2Proof.Frames

namespace Sys2Proof.Management

open Sys2Proof Sys2Proof.Machine Sys2Proof.Laws Sys2Proof.Frames

/-! ### Clocks and sensors (R466 to R471, R536 to R539) -/

/-- The registers of the clocks and sensors, as their frame names them. -/
def clockOffs : List Nat :=
  [F.CLK_STAT_CORE_MHZ, F.CLK_DROOP_CNT_COUNT, F.CLK_TRIM_CNT_COUNT, F.MGT_THERM_STAT_ALERT_CNT].map (fun f => f.off 0)

/-- What a command of the clocks and sensors changes. -/
abbrev ClockKeeps (s t : State) : Prop := Keeps [.clk, .mgt, .out] clockOffs s t

theorem clockKeeps_clk (s : State) (x : ClkState) : ClockKeeps s { s with clk := x } := (keeps_clk s x).widen (by decide)

theorem clockKeeps_mgt (s : State) (x : MgtState) : ClockKeeps s { s with mgt := x } := (keeps_mgt s x).widen (by decide)

theorem clockKeeps_emits (s : State) (os : List Output) : ClockKeeps s (emits s os) := (keeps_emits s os).widen (by decide)

/-- The fields of CLK_STAT stand in one register. -/
theorem clockKeeps_stat {f : Field} (s : State) (v : Nat) (hf : f.off 0 = F.CLK_STAT_CORE_MHZ.off 0 := by rfl) :
    ClockKeeps s (wr s f v) := keeps_wri_of_mem (hf ▸ by decide) v

theorem clockKeeps_clkShow (s : State) : ClockKeeps s (clkShow s) :=
  (clockKeeps_stat s _).andThen (clockKeeps_stat _ _) |>.andThen (clockKeeps_stat _ _)

theorem clockKeeps_trimChange (s s1 : State) : ClockKeeps s1 (trimChange s s1) :=
  (keeps_ite (keeps_addSat_of_mem (by decide) 1) (.refl s1)).andThen (clockKeeps_clkShow _)

theorem clockKeeps_droopTrip (s : State) (site : Nat) : ClockKeeps s (droopTrip s site) :=
  keeps_ite (.refl s) ((keeps_addSat_of_mem (by decide) 1 : ClockKeeps s (bump s _)).andThen (clockKeeps_clk _ _)
    |>.andThen (clockKeeps_stat _ 1) |>.andThen (clockKeeps_clkShow _))

theorem clockKeeps_powerWindow (s : State) (watts : Nat) : ClockKeeps s (powerWindow s watts) := by
  have changed (x : ClkState) := (clockKeeps_clk s x).andThen (clockKeeps_trimChange s _)
  exact keeps_ite (.refl s) (keeps_ite (changed _) (keeps_ite (changed _) (.refl s)))

theorem clockKeeps_idleGate (s : State) (u : CoreUnit) : ClockKeeps s (idleGate s u) :=
  keeps_whenUp (keeps_ite (.refl s) ((clockKeeps_clk s _).andThen (clockKeeps_clkShow _)))

theorem clockKeeps_thermalAlert (s : State) (d k : List Nat) : ClockKeeps s (thermalAlert s d k) := by
  have seen := clockKeeps_mgt s { s.mgt with dieTemps := d.take 32, stackTemps := k.take 8 }
  have raised (x : MgtState) := (seen.andThen (clockKeeps_mgt _ x)).andThen
    (keeps_addSat_of_mem (f := F.MGT_THERM_STAT_ALERT_CNT) (i := 0) (by decide) 1) |>.andThen (clockKeeps_emits _ [.pin 0 false])
  exact keeps_ite seen ((raised _).andThen (clockKeeps_clk _ _) |>.andThen (clockKeeps_trimChange _ _))

theorem clockKeeps_thermalAlertClear (s : State) (d k : List Nat) : ClockKeeps s (thermalAlertClear s d k) := by
  have seen := clockKeeps_mgt s { s.mgt with dieTemps := d.take 32, stackTemps := k.take 8 }
  exact keeps_ite seen (seen.andThen (clockKeeps_mgt _ _) |>.andThen (clockKeeps_emits _ [.pin 0 true])
    |>.andThen (clockKeeps_clk _ _) |>.andThen (clockKeeps_trimChange _ _))

theorem clockOnly_frame (c : Instr) (s : State) (hc : clockOnly c = true) : ∃ b, exec c s = .next b ∧ ClockKeeps s b := by
  cases c with
  | droopTrip site => exact ⟨_, rfl, clockKeeps_droopTrip s site⟩
  | droopClear => exact ⟨_, rfl, clockKeeps_clk s _⟩
  | droopRecovery => exact ⟨_, rfl, keeps_ite ((clockKeeps_stat s 0).andThen (clockKeeps_clkShow _)) (.refl s)⟩
  | powerWindow w => exact ⟨_, rfl, clockKeeps_powerWindow s w⟩
  | idleGate u => exact ⟨_, rfl, clockKeeps_idleGate s u⟩
  | railRecovery => exact ⟨_, rfl, clockKeeps_clk s _⟩
  | crstRelease => exact ⟨_, rfl, clockKeeps_clk s _⟩
  | stackTempPoll ts => exact ⟨_, rfl, clockKeeps_mgt s _⟩
  | thermalAlert d k => exact ⟨_, rfl, clockKeeps_thermalAlert s d k⟩
  | thermalAlertClear d k => exact ⟨_, rfl, clockKeeps_thermalAlertClear s d k⟩
  | thermalTrip => exact ⟨_, rfl, keeps_ite (.refl s) ((clockKeeps_mgt s _).andThen (clockKeeps_emits _ _))⟩
  | _ => cases hc

/-! ### Granules (R476) -/

/-- The registers of the granule commands, as their frame names them. -/
def granuleOffs : List Nat := [F.SEC_REJECT_CNT_COUNT, F.CLK_HBM_CMD_STAT_BUSY].map (fun f => f.off 0)

/-- What a granule command changes. -/
abbrev GranuleKeeps (s t : State) : Prop := Keeps [.clk, .ras, .out] granuleOffs s t

theorem granuleKeeps_clk (s : State) (x : ClkState) : GranuleKeeps s { s with clk := x } := (keeps_clk s x).widen (by decide)

/-- The fields of CLK_HBM_CMD_STAT stand in one register. -/
theorem granuleKeeps_stat {f : Field} (s : State) (v : Nat) (hf : f.off 0 = F.CLK_HBM_CMD_STAT_BUSY.off 0 := by rfl) :
    GranuleKeeps s (wr s f v) := keeps_wri_of_mem (hf ▸ by decide) v

theorem granuleKeeps_hbmCmdEnd (s : State) (st : Status) : GranuleKeeps s (hbmCmdEnd s st) :=
  (granuleKeeps_clk s _).andThen (granuleKeeps_stat _ 0) |>.andThen (granuleKeeps_stat _ _)

theorem granuleKeeps_hbmCmdFail (s : State) (g : Nat) (st : Status) : GranuleKeeps s (hbmCmdFail s g st) :=
  (granuleKeeps_hbmCmdEnd s st).andThen (granuleKeeps_stat _ g)

theorem granuleKeeps_checkEnd (s : State) (c : HbmCmd) : GranuleKeeps s (checkEnd s c) := by
  unfold checkEnd
  split
  · exact granuleKeeps_hbmCmdFail ..
  · exact granuleKeeps_hbmCmdEnd ..

theorem granuleKeeps_checkNext (n : Nat) (s : State) (c : HbmCmd) : GranuleKeeps s (checkNext n s c) := by
  induction n generalizing c with
  | zero => exact granuleKeeps_checkEnd s c
  | succ n ih =>
    exact keeps_ite (granuleKeeps_checkEnd s c) (keeps_ite (ih _)
      ((granuleKeeps_clk s _).andThen ((keeps_emit _ _).widen (by decide))))

theorem granuleKeeps_trustGranule (s : State) (g : Nat) : GranuleKeeps s (trustGranule s g) :=
  (granuleKeeps_clk s _).andThen (granuleKeeps_stat _ _)

theorem granuleKeeps_hbmCmdBegin {f : State → State} (hf : ∀ t, GranuleKeeps t (f t)) (s : State) (clear : Bool) (first countM1 : Nat) :
    GranuleKeeps s (hbmCmdBegin s clear first countM1 f) := by
  have begun := (granuleKeeps_stat (f := F.CLK_HBM_CMD_STAT_BUSY) s 1).andThen (granuleKeeps_stat (f := F.CLK_HBM_CMD_STAT_DONE) _ 0)
    |>.andThen (granuleKeeps_stat (f := F.CLK_HBM_CMD_STAT_STATUS) _ 0)
  exact keeps_ite (granuleKeeps_stat s 1) (keeps_ite (begun.andThen (granuleKeeps_hbmCmdFail ..))
    (begun.andThen (granuleKeeps_clk _ _) |>.andThen (hf _)))

theorem granuleKeeps_bar0 {s : State} {f : State → State} (h : GranuleKeeps s (f s)) : GranuleKeeps s (bar0 s f) :=
  keeps_bar0_of_mem (by decide) (by decide) h

theorem granuleKeeps_hbmCheckReply (s : State) (r : Option (BitVec 32)) : GranuleKeeps s (hbmCheckReply s r) := by
  unfold hbmCheckReply
  split
  · exact .refl s
  · refine keeps_ite (.refl s) ?_
    cases r with
    | none => exact granuleKeeps_hbmCmdFail ..
    | some crc =>
      exact keeps_ite ((granuleKeeps_trustGranule ..).andThen (granuleKeeps_checkNext ..)) (granuleKeeps_checkNext ..)

theorem granuleOnly_frame (c : Instr) (s : State) (hc : granuleOnly c = true) :
    ∃ b, exec c s = .next b ∧ GranuleKeeps s b := by
  cases c with
  | hbmCheck f n =>
    exact ⟨_, rfl, granuleKeeps_bar0 (granuleKeeps_hbmCmdBegin (fun t => keeps_ite (granuleKeeps_hbmCmdFail ..)
      (keeps_ite (granuleKeeps_hbmCmdFail ..) (granuleKeeps_checkNext ..))) s false f n)⟩
  | hbmCheckReply r => exact ⟨_, rfl, granuleKeeps_hbmCheckReply s r⟩
  | hbmCheckCrcRequest g => exact ⟨_, rfl, keeps_whenUp ((keeps_emit s _).widen (by decide))⟩
  | hbmClear f n => exact ⟨_, rfl, granuleKeeps_bar0 (granuleKeeps_hbmCmdBegin Keeps.refl s true f n)⟩
  | _ => cases hc

/-! ### Boot, attestation and error records (R481 to R507) -/

/-- The registers of boot and attestation, as their frame names them. -/
def bootOffs : List Nat := [F.SEC_BOOT_STAT_IMAGE, F.SEC_REJECT_CNT_COUNT, F.RAS_REC_CNT_COUNT].map (fun f => f.off 0)

/-- What a command of boot or attestation changes. -/
abbrev BootKeeps (s t : State) : Prop := Keeps [.sec, .ras, .out] bootOffs s t

theorem bootKeeps_emit (s : State) (o : Output) : BootKeeps s (emit s o) := (keeps_emit s o).widen (by decide)

theorem bootKeeps_sec (s : State) (x : SecState) : BootKeeps s { s with sec := x } := (keeps_sec s x).widen (by decide)

/-- The fields of SEC_BOOT_STAT stand in one register. -/
theorem bootKeeps_stat {f : Field} (s : State) (v : Nat) (hf : f.off 0 = F.SEC_BOOT_STAT_IMAGE.off 0 := by rfl) :
    BootKeeps s (wr s f v) := keeps_wri_of_mem (hf ▸ by decide) v

theorem bootKeeps_prelock (s : State) (write : Bool) : BootKeeps s (prelock s write) :=
  (keeps_prelock s write).mono (by decide) (by decide)

theorem bootKeeps_bootGo (s : State) : BootKeeps s (bootGo s) :=
  keeps_ite (.refl s) ((bootKeeps_stat s 1).andThen (bootKeeps_stat _ 3) |>.andThen (bootKeeps_stat _ 0)
    |>.andThen (bootKeeps_sec _ _) |>.andThen (bootKeeps_emit _ _))

theorem bootKeeps_protWindowWrite (s : State) (a : RegAccess) (w : Word) : BootKeeps s (protWindowWrite s a w) :=
  keeps_ite (.refl s) (keeps_ite (bootKeeps_prelock s true)
    (keeps_ite ((keeps_lockedWrite s).mono (by decide) (by decide)) (bootKeeps_emit s _)))

theorem bootKeeps_spdmAnswer (s : State) (need : Nat) (ok : Bool) (set : Nat) (o : Output) :
    BootKeeps s (spdmAnswer s need ok set o) :=
  keeps_whenUp (keeps_ite (bootKeeps_emit s _) (keeps_ite (bootKeeps_emit s _) ((bootKeeps_sec s _).andThen (bootKeeps_emit _ o))))

theorem bootKeeps_errorRecordWrite (s : State) : BootKeeps s (errorRecordWrite s) := by
  unfold errorRecordWrite writeNext
  split
  · exact .refl s
  · exact ((keeps_ras s _).trans (keeps_ras _ _)).trans (keeps_bump _ F.RAS_REC_CNT_COUNT) |>.mono (by decide) (by decide)

theorem bootOnly_frame (c : Instr) (s : State) (hc : bootOnly c = true) : ∃ b, exec c s = .next b ∧ BootKeeps s b := by
  cases c with
  | bootGo => exact ⟨_, rfl, bootKeeps_bootGo s⟩
  | prelockBar0Access a write => exact ⟨_, rfl, keeps_ite (bootKeeps_prelock s write) (.refl s)⟩
  | protWindowWrite a w => exact ⟨_, rfl, bootKeeps_protWindowWrite s a w⟩
  | bar0Unsupported a write =>
    exact ⟨_, rfl, keeps_ite (bootKeeps_prelock s write) (keeps_ite (bootKeeps_emit s _) (.refl s))⟩
  | spdmGetVersion => exact ⟨_, rfl, bootKeeps_spdmAnswer ..⟩
  | spdmGetCapabilities => exact ⟨_, rfl, bootKeeps_spdmAnswer ..⟩
  | spdmNegotiateAlgorithms p h => exact ⟨_, rfl, bootKeeps_spdmAnswer ..⟩
  | spdmGetDigests => exact ⟨_, rfl, bootKeeps_spdmAnswer ..⟩
  | spdmGetCertificate slot o l => exact ⟨_, rfl, bootKeeps_spdmAnswer ..⟩
  | spdmChallenge slot n => exact ⟨_, rfl, bootKeeps_spdmAnswer ..⟩
  | spdmGetMeasurements i n => exact ⟨_, rfl, bootKeeps_spdmAnswer ..⟩
  | errorRecordWrite => exact ⟨_, rfl, bootKeeps_errorRecordWrite s⟩
  | _ => cases hc

/-- Settles O53: each command's effect keeps all but its parts and registers, operation by operation. -/
theorem managementFrames : Obligations.ManagementFrames := by
  refine ⟨fun c s hc => ?_, fun c s hc => ?_, fun c s hc => ?_⟩
  · obtain ⟨b, hb, k⟩ := clockOnly_frame c s hc
    exact ⟨b, hb, k.eq_overlay, k.regsKept⟩
  · obtain ⟨b, hb, k⟩ := granuleOnly_frame c s hc
    exact ⟨b, hb, k.eq_overlay, k.regsKept⟩
  · obtain ⟨b, hb, k⟩ := bootOnly_frame c s hc
    exact ⟨b, hb, k.eq_overlay, k.regsKept⟩

end Sys2Proof.Management
end

section
/-! Clocks, sensors and granules: what their commands do (R466 to R476, R507 to R512, R536 to R539). -/

namespace Sys2Proof.Management

open Sys2Proof Sys2Proof.Machine Sys2Proof.Laws Sys2Proof.Frames Sys2Proof.HostPort

/-! ### CLK_STAT -/

theorem rd_clkShow_coreMhz (s : State) : rd (clkShow s) F.CLK_STAT_CORE_MHZ = coreRate s % 2048 := rd_wr_same _ _ _ (by decide)

/-- The power state takes at most 2 bits. -/
theorem rd_clkShow_pstate (s : State) :
    rd (clkShow s) F.CLK_STAT_PSTATE = if s.clk.hold then 3 else if trimOn s then 1 else if s.clk.gated = [] then 0 else 2 := by
  unfold clkShow
  rw [rd_wr_apart _ _ _ _ (by decide), rd_wr_apart _ _ _ _ (by decide), rd_wr_same _ _ _ (by decide)]
  cases s.clk.gated <;> simp <;> split_ifs <;> rfl

theorem trimChange_eq (s s1 : State) :
    trimChange s s1 = clkShow (if trimOn s = false ∧ trimOn s1 = true then bump s1 F.CLK_TRIM_CNT_COUNT else s1) := by
  simp [trimChange]

/-! ### Supply sag, the power monitor and gating -/

theorem droopTrip_running {s : State} (site : Nat) (hr : inReset s = false) :
    droopTrip s site = clkShow (wr { bump s F.CLK_DROOP_CNT_COUNT with clk := { s.clk with
      droopSites := (site :: s.clk.droopSites).dedup } } F.CLK_STAT_DROOP 1) := by
  unfold droopTrip
  rw [hr]
  rfl

theorem droopRecovery_clear {s : State} (hd : rd s F.CLK_STAT_DROOP = 1) (hs : s.clk.droopSites = []) :
    droopRecovery s = clkShow (wr s F.CLK_STAT_DROOP 0) := if_pos ⟨hd, hs⟩

section
variable {s : State} {w : Nat} (hr : inReset s = false)
include hr

theorem powerWindow_above (hw : rd s F.CLK_PWR_CFG_LIMIT_W < w) :
    powerWindow s w = trimChange s { s with clk := { s.clk with trimPower := true } } := by
  unfold powerWindow
  rw [if_neg (by simp [hr]), if_pos hw]
  rfl

/-- 95% of the limit is not above it. -/
theorem powerWindow_below (hw : w * 100 < 95 * rd s F.CLK_PWR_CFG_LIMIT_W) :
    powerWindow s w = trimChange s { s with clk := { s.clk with trimPower := false } } := by
  unfold powerWindow
  rw [if_neg (by simp [hr]), if_neg (by omega), if_pos hw]
  rfl

theorem powerWindow_between (hl : 95 * rd s F.CLK_PWR_CFG_LIMIT_W ≤ w * 100) (hw : w ≤ rd s F.CLK_PWR_CFG_LIMIT_W) :
    powerWindow s w = s := by
  unfold powerWindow
  rw [if_neg (by simp [hr]), if_neg (by omega), if_neg (by omega)]

end

theorem idleGate_gates {s : State} {u : CoreUnit} (hu : isUp s = true) (hi : rd s F.CLK_IDLE_CFG_IDLE_US ≠ 0)
    (he : unitExists u = true) (hn : unitNeeded s u = false) (hg : u ∉ s.clk.gated) :
    idleGate s u = clkShow { s with clk := { s.clk with gated := s.clk.gated ++ [u] } } := by
  unfold idleGate
  rw [whenUp_up hu, if_neg (by simp [hi, he, hn, hg])]
  rfl

/-! ### HOLD (R471) -/

section
variable {s : State} (hl : rd s F.SEC_PROT_LOCK_LOCK = 1)
include hl

theorem hold_accepted (hh : s.clk.hold = false) (hm : mayHold s = true) :
    hold s = clkShow (modClk (flushMerge (stopPorts s)) (fun c => { c with hold := true })) := by
  simp [hold, bar0_locked hl, hh, hm]

theorem hold_refused (hh : s.clk.hold = false) (hm : mayHold s = false) : hold s = emit s (.status St.CLK_HOLD_REFUSED) := by
  simp [hold, bar0_locked hl, hh, hm]

theorem resume_notHeld (hh : s.clk.hold = false) : resume s = s := by simp [resume, bar0_locked hl, hh]

theorem resume_held (hh : s.clk.hold = true) :
    resume s = ((List.range 60).filter (fun n => rdi s F.GLK_PORT_CTL_EN n == 1)).foldl
      (fun s n => enterTrain s n St.OK false) (clkShow { s with clk := { s.clk with hold := false } }) := by
  unfold resume
  rw [bar0_locked hl, if_neg (by simp [hh])]
  rfl

end

/-! ### Temperatures (R536 to R539) -/

theorem thermalTrip_first {s : State} (ht : s.mgt.trip = false) :
    thermalTrip s = emits { s with mgt := { s.mgt with trip := true } } [.linksStop, .pin 1 false] := by
  unfold thermalTrip
  rw [ht]
  rfl

/-- The sensors' values stand in no register that the levels are read from. -/
theorem thermalAlert_due {s : State} {d k : List Nat} (ha : s.mgt.alert = false) (hd : alertDue s d k = true) :
    let s1 := { s with mgt := { s.mgt with dieTemps := d.take 32, stackTemps := k.take 8, alert := true } }
    let s2 := emit (bump s1 F.MGT_THERM_STAT_ALERT_CNT) (.pin 0 false)
    thermalAlert s d k = trimChange s2 { s2 with clk := { s2.clk with trimThermal := true } } := by
  have due : alertDue (readSensors s d k) d k = true := hd
  unfold thermalAlert
  rw [if_neg (by simp [due, show (readSensors s d k).mgt.alert = false from ha])]
  rfl

theorem thermalAlertClear_over {s : State} {d k : List Nat} (ha : s.mgt.alert = true) (hd : alertOver s d k = true) :
    let s1 := { s with mgt := { s.mgt with dieTemps := d.take 32, stackTemps := k.take 8, alert := false } }
    let s2 := emit s1 (.pin 0 true)
    thermalAlertClear s d k = trimChange s2 { s2 with clk := { s2.clk with trimThermal := false } } := by
  have below : alertOver (readSensors s d k) d k = true := hd
  unfold thermalAlertClear
  rw [if_neg (by simp [below, show (readSensors s d k).mgt.alert = true from ha])]
  rfl

/-- Settles O35: each command's case by its lemma above. -/
theorem clockStates : Obligations.ClockStates := by
  refine ⟨?droop, ?clear, ?rate, ?power, trimChange_eq, ?idle, ?hold, ?resume, ?poll, ?alert, ?alertClear⟩
  case droop => exact fun s site hr => congrArg Host.Outcome.next (droopTrip_running site hr)
  case clear => exact fun s => ⟨rfl, fun hd hs => congrArg Host.Outcome.next (droopRecovery_clear hd hs)⟩
  case rate => exact fun s => ⟨rd_clkShow_coreMhz s, rd_clkShow_pstate s⟩
  case power =>
    exact fun s w hr => ⟨fun hw => congrArg Host.Outcome.next (powerWindow_above hr hw),
      fun hw => congrArg Host.Outcome.next (powerWindow_below hr hw),
      fun hl hw => congrArg Host.Outcome.next (powerWindow_between hr hl hw)⟩
  case idle => exact fun s u hu hi he hn hg => congrArg Host.Outcome.next (idleGate_gates hu hi he hn hg)
  case hold =>
    exact fun s hl hh => ⟨fun hm => congrArg Host.Outcome.next (hold_accepted hl hh hm),
      fun hm => congrArg Host.Outcome.next (hold_refused hl hh hm)⟩
  case resume =>
    exact fun s hl => ⟨fun hh => congrArg Host.Outcome.next (resume_notHeld hl hh),
      fun hh => congrArg Host.Outcome.next (resume_held hl hh)⟩
  case poll => exact fun s ts => ⟨rfl, fun ht => congrArg Host.Outcome.next (thermalTrip_first ht)⟩
  case alert => exact fun s d k ha hd => congrArg Host.Outcome.next (thermalAlert_due ha hd)
  case alertClear => exact fun s d k ha hd => congrArg Host.Outcome.next (thermalAlertClear_over ha hd)

/-! ### Granules (R476) -/

section
variable {s : State} {f : State → State} {clear : Bool} {first n : Nat}

theorem hbmCmdBegin_busy (hb : rd s F.CLK_HBM_CMD_STAT_BUSY = 1) :
    hbmCmdBegin s clear first n f = wr s F.CLK_HBM_CMD_STAT_LOST 1 := if_pos hb

/-- The status that an accepted CLK_HBM_CMD shows first. -/
def hbmCmdStarted (s : State) : State :=
  wr (wr (wr s F.CLK_HBM_CMD_STAT_BUSY 1) F.CLK_HBM_CMD_STAT_DONE 0) F.CLK_HBM_CMD_STAT_STATUS 0

section
variable (hb : rd s F.CLK_HBM_CMD_STAT_BUSY = 0)
include hb

theorem hbmCmdBegin_pastEnd (hg : granuleCount s < first + n + 1) :
    hbmCmdBegin s clear first n f = hbmCmdFail (hbmCmdStarted s) first St.MEM_BAD_ADDR := by
  unfold hbmCmdBegin
  rw [if_neg (by omega)]
  exact if_pos hg

theorem hbmCmdBegin_within (hg : first + n + 1 ≤ granuleCount s) :
    hbmCmdBegin s clear first n f =
      f (modClk (hbmCmdStarted s) (fun c => { c with hbm := some ⟨clear, first, first + n, none⟩ })) := by
  unfold hbmCmdBegin
  rw [if_neg (by omega)]
  exact if_neg (Nat.not_lt.2 hg)

end
end

/-- What HBM_CHECK does once its granules are accepted. -/
theorem hbmCheck_started {s : State} {first n : Nat} (hl : rd s F.SEC_PROT_LOCK_LOCK = 1) (hb : rd s F.CLK_HBM_CMD_STAT_BUSY = 0)
    (hg : first + n + 1 ≤ granuleCount s) :
    let t := modClk (hbmCmdStarted s) (fun c => { c with hbm := some ⟨false, first, first + n, none⟩ })
    hbmCheck s first n =
      if t.clk.contentsLost then hbmCmdFail t first St.CLK_CHECK_MISMATCH
      else if !continuityUp t then hbmCmdFail t first St.CLK_NO_TWIN
      else checkNext (n + 2) t ⟨false, first, first + n, none⟩ := by
  unfold hbmCheck
  rw [bar0_locked hl, hbmCmdBegin_within hb hg]

section
variable {s : State} {c : HbmCmd} (hc : s.clk.hbm = some c)
include hc

theorem hbmCheckReply_none (hk : c.clear = false) : hbmCheckReply s none = hbmCmdFail s c.next St.CLK_NO_TWIN := by
  simp [hbmCheckReply, hc, hk]

theorem hbmCheckReply_match {crc : BitVec 32} (hk : c.clear = false) (h : crc = granuleCrc s c.next) :
    hbmCheckReply s (some crc) = checkNext (c.last - c.next + 1) (trustGranule s c.next) { c with next := c.next + 1 } := by
  simp [hbmCheckReply, hc, hk, h]

/-- The first mismatch is kept. -/
theorem hbmCheckReply_mismatch {crc : BitVec 32} (hk : c.clear = false) (h : crc ≠ granuleCrc s c.next) (hf : c.failed = none) :
    hbmCheckReply s (some crc) = checkNext (c.last - c.next + 1) s
      { c with next := c.next + 1, failed := some (c.next, St.CLK_CHECK_MISMATCH) } := by
  simp [hbmCheckReply, hc, hk, h, noteMismatch, hf]

theorem hbmClearDone_clear (hk : c.clear = true) :
    hbmClearDone s = hbmCmdEnd (((List.range (c.last + 1 - c.next)).map (fun i => c.next + i)).foldl (fun s g =>
      trustGranule (zeroMem s (g * 2 ^ 30) (min (2 ^ 30) (memTop s - g * 2 ^ 30))) g) s) St.OK := by
  simp [hbmClearDone, hc, hk]

end

theorem hbmCheckCrcRequest_readable {s : State} {g : Nat} (hu : isUp s = true) (hg : g < granuleCount s)
    (hr : readRefusal s (g * 2 ^ 30) (min (2 ^ 30) (memTop s - g * 2 ^ 30)) = none) :
    hbmCheckCrcRequest s g =
      emit s (.message (eTwin (ownEntry s)) 5 .check [at' 0 63 g, at' 0 32 (granuleCrc s g).toNat]) := by
  unfold hbmCheckCrcRequest
  rw [whenUp_up hu]
  have readable : ¬ (granuleCount s ≤ g || (readRefusal s (g * 2 ^ 30) (min (2 ^ 30) (memTop s - g * 2 ^ 30))).isSome) = true := by
    rw [hr]
    simp [hg]
  exact congrArg (fun ws => emit s (.message (eTwin (ownEntry s)) 5 .check ws)) (if_neg readable)

/-! ### Ranges that are fetched again, and error records (R507, R511, R512) -/

section
variable {s : State} {h off : Nat} {bytes : List Byte} (hu : isUp s = true) (ha : rangeAwaited s h off = true)
include hu ha

theorem refetchRangeData_good (hb : bytes.length = 4096) :
    refetchRangeData s h off bytes true = releaseDamaged (writeMem s off bytes) := by
  simp [refetchRangeData, whenUp_up hu, ha, hb]

theorem refetchRangeData_bad (hb : bytes.length = 4096) : refetchRangeData s h off bytes false = refetchFailed s h off := by
  simp [refetchRangeData, whenUp_up hu, ha, hb]

theorem refetchFail_awaited : refetchFail s h off = refetchFailed s h off := by
  simp [refetchFail, whenUp_up hu, ha]

end

theorem writeNext_some {s : State} {r : RasRec} (h : nextRecord s.ras.queue = some r) :
    writeNext s = storeRecord { s with ras := { s.ras with
      queue := s.ras.queue.erase r ++ s.ras.overflow.take 1, overflow := s.ras.overflow.drop 1 } } r := by
  unfold writeNext
  rw [h]

/-- Settles O37: each command's case by its lemma above. -/
theorem granuleCommands : Obligations.GranuleCommands := by
  refine ⟨?start, ?refused, ?reply, ?request, ?done, ?refetch, fun s r h => congrArg Host.Outcome.next (writeNext_some h)⟩
  case start =>
    intro s f n hl hb hg
    have check := hbmCheck_started hl hb hg
    refine ⟨rfl, congrArg Host.Outcome.next ((bar0_locked hl).trans (hbmCmdBegin_within hb hg)), fun hlost => ?_,
      fun hlost hup => ?_, fun hlost hup => ?_⟩
    · exact congrArg Host.Outcome.next (check.trans (if_pos hlost))
    · exact congrArg Host.Outcome.next (check.trans ((if_neg (ne_true_of_eq_false hlost)).trans (if_pos ((Bool.not_eq_true' _).mpr hup))))
    · exact congrArg Host.Outcome.next (check.trans ((if_neg (ne_true_of_eq_false hlost)).trans
        (if_neg (ne_true_of_eq_false ((Bool.not_eq_false' _).mpr hup)))))
  case refused =>
    exact fun s f n hl =>
      ⟨fun hb => ⟨congrArg Host.Outcome.next ((bar0_locked hl).trans (hbmCmdBegin_busy hb)),
        congrArg Host.Outcome.next ((bar0_locked hl).trans (hbmCmdBegin_busy hb))⟩,
      fun hb hg => ⟨congrArg Host.Outcome.next ((bar0_locked hl).trans (hbmCmdBegin_pastEnd hb hg)),
        congrArg Host.Outcome.next ((bar0_locked hl).trans (hbmCmdBegin_pastEnd hb hg))⟩⟩
  case reply =>
    exact fun s c crc hc hk => ⟨congrArg Host.Outcome.next (hbmCheckReply_none hc hk),
      fun h => congrArg Host.Outcome.next (hbmCheckReply_match hc hk h),
      fun h hf => congrArg Host.Outcome.next (hbmCheckReply_mismatch hc hk h hf)⟩
  case request => exact fun s g hu hg hr => congrArg Host.Outcome.next (hbmCheckCrcRequest_readable hu hg hr)
  case done => exact fun s c hc hk => next_settle (hbmClearDone_clear hc hk)
  case refetch =>
    exact fun s h off bytes hu ha => ⟨fun hb => next_settle (refetchRangeData_good hu ha hb),
      fun hb => next_settle (refetchRangeData_bad hu ha hb), congrArg Host.Outcome.next (refetchFail_awaited hu ha)⟩

end Sys2Proof.Management
end

section
/-! Boot and attestation: what their commands do (R481 to R499). -/

namespace Sys2Proof.Management

open Sys2Proof Sys2Proof.Machine Sys2Proof.Laws Sys2Proof.Frames Sys2Proof.HostPort Sys2Proof.Scheduling

/-! ### Boot (R482 to R486) -/

/-- BOOT_GO is taken in WAIT and in FAILED. -/
theorem bootGo_starts {s : State} (hr : inReset s = false) (hs : rd s F.SEC_BOOT_STAT_STAGE = 1 ∨ rd s F.SEC_BOOT_STAT_STAGE = 4)
    (hc : 3 ≤ s.sec.cores) :
    let s1 := wr (wr (wr s F.SEC_BOOT_STAT_STAGE 1) F.SEC_BOOT_STAT_IMAGE 3) F.SEC_BOOT_STAT_STATUS 0
    bootGo s = emit { s1 with sec := { s.sec with image := 0, imageAt := rd s F.SEC_BOOT_ADDR_BASE * 4096 } }
      (.hostRead (.shared none) (rd s F.SEC_BOOT_ADDR_BASE * 4096) 512) := by
  refine if_neg ?_
  rw [hr]
  simpa [hc, or_iff_not_imp_left] using hs

/-- The record that a failed boot raises leaves SEC_BOOT_STAT alone. -/
theorem rd_bootFail_stage (s : State) (st : Status) : rd (bootFail s st) F.SEC_BOOT_STAT_STAGE = 4 := by
  unfold bootFail
  rw [rd_of_keeps (keeps_record ..) (by decide)]
  exact ((rd_wr_apart _ _ _ _ (by decide)).trans (rd_wr_apart _ _ _ _ (by decide))).trans (rd_wr_same _ _ _ (by decide))

section
variable {s : State} {i : BootImage} (hr : inReset s = false) (hi : s.sec.image < 3)
  (hs : rd s F.SEC_BOOT_STAT_STAGE = 1 ∨ rd s F.SEC_BOOT_STAT_STAGE = 2)
include hr hi hs

/-- An image counts while boot reads images. -/
theorem imageFetchDone_reading :
    imageFetchDone s i = match imageFault s i with | some c => bootFail s c | none => imagePassed s i := by
  refine if_neg ?_
  rw [hr]
  simpa [Nat.not_le.2 hi, or_iff_not_imp_left] using hs

theorem imageFetchDone_bad {c : Status} (hf : imageFault s i = some c) : imageFetchDone s i = bootFail s c := by
  rw [imageFetchDone_reading hr hi hs, hf]

theorem imageFetchDone_good (hf : imageFault s i = none) : imageFetchDone s i = imagePassed s i := by
  rw [imageFetchDone_reading hr hi hs, hf]

end

section
variable {s : State} {i : BootImage}

theorem imagePassed_stage1 (h : s.sec.image = 0) :
    let a := s.sec.imageAt + roundUp (512 + i.len) 4096
    let s1 := wr (checkRecords s) F.SEC_BOOT_STAT_STAGE 2
    imagePassed s i = emit { s1 with sec := { s1.sec with image := 1, imageAt := a } } (.hostRead (.shared none) a 512) := by
  unfold imagePassed
  rw [h]
  rfl

theorem imagePassed_runtime (h : s.sec.image = 1) :
    let a := s.sec.imageAt + roundUp (512 + i.len) 4096
    imagePassed s i = emit { s with sec := { s.sec with image := 2, imageAt := a } } (.hostRead (.shared none) a 512) := by
  unfold imagePassed
  rw [h]
  rfl

theorem imagePassed_tables (h : s.sec.image = 2) :
    let s1 := { s with sec := { s.sec with window := tableWords i.payload } }
    imagePassed s i = if tablesOk s1 then finishBoot s1 else bootFail s St.SEC_BAD_PROT := by
  unfold imagePassed
  rw [h]
  rfl

end

/-! ### BAR0 before the lock, and the protection window (R481, R494) -/

theorem prelockBar0Access_refused {s : State} {a : RegAccess} (b : Bool) (hl : rd s F.SEC_PROT_LOCK_LOCK = 0) (hb : bootReg a = false) :
    prelockBar0Access s a b = prelock s b := if_pos ⟨hl, hb⟩

theorem protWindowWrite_locked {s : State} {a : RegAccess} (w : Word) (hw : inWindow a.off = true) (ha : aligned a = true)
    (hl : rd s F.SEC_PROT_LOCK_LOCK = 1) : protWindowWrite s a w = lockedWrite s := by
  simp [protWindowWrite, hw, ha, hl]

/-! ### SPDM (R498, R499) -/

theorem spdmAnswer_down {s : State} {need set : Nat} {ok : Bool} {o : Output} (hu : isUp s = false) : spdmAnswer s need ok set o = s := by
  simp [spdmAnswer, whenUp, hu]

section
variable {s : State} {need set : Nat} {ok : Bool} {o : Output} (hu : isUp s = true)
include hu

theorem spdmAnswer_answered (hn : need ≤ s.sec.spdm) (hok : ok = true) :
    spdmAnswer s need ok set o = emit { s with sec := { s.sec with spdm := set } } o := by
  simp [spdmAnswer, whenUp_up hu, Nat.not_lt.2 hn, hok]

theorem spdmAnswer_early (hn : s.sec.spdm < need) : spdmAnswer s need ok set o = emit s (.spdm 0x7F [0x04] []) := by
  simp [spdmAnswer, whenUp_up hu, hn]

end

/-- Settles O38: each command's case by its lemma above. -/
theorem bootAndAttest : Obligations.BootAndAttest := by
  refine ⟨fun s hr hs hc => congrArg Host.Outcome.next (bootGo_starts hr hs hc), ?bad, ?good, ?prelock, ?window, ?spdm, ?early⟩
  case bad =>
    exact fun s i c hr hi hs hf => ⟨congrArg Host.Outcome.next (imageFetchDone_bad hr hi hs hf), rd_bootFail_stage s c⟩
  case good =>
    exact fun s i hr hs hf =>
      ⟨fun h => congrArg Host.Outcome.next ((imageFetchDone_good hr (by omega) hs hf).trans (imagePassed_stage1 h)),
        fun h => congrArg Host.Outcome.next ((imageFetchDone_good hr (by omega) hs hf).trans (imagePassed_runtime h)),
        fun h => congrArg Host.Outcome.next ((imageFetchDone_good hr (by omega) hs hf).trans (imagePassed_tables h))⟩
  case prelock =>
    exact fun s a hl hb => ⟨congrArg Host.Outcome.next (prelockBar0Access_refused false hl hb),
      congrArg Host.Outcome.next (prelockBar0Access_refused true hl hb)⟩
  case window => exact fun s a w hw ha hl => congrArg Host.Outcome.next (protWindowWrite_locked w hw ha hl)
  case spdm =>
    intro s hu
    have answered {need set : Nat} {o : Output} (hn : need ≤ s.sec.spdm) :=
      congrArg (Host.Outcome.next (φ := Fault) (ρ := Refusal)) (spdmAnswer_answered (set := set) (o := o) hu hn rfl)
    exact ⟨answered (Nat.zero_le _), answered, answered,
      fun h3 => ⟨answered h3, fun _ _ => answered h3, fun _ => answered h3, fun _ => answered h3⟩⟩
  case early =>
    exact fun s n => ⟨fun hu => congrArg Host.Outcome.next (spdmAnswer_down hu),
      fun hu h3 => congrArg Host.Outcome.next (spdmAnswer_early hu h3)⟩

end Sys2Proof.Management
end

section
/-! Register accesses: what a write leaves in its fields, and which fields a read clears (R543 to R545). -/

namespace Sys2Proof.Registers

open Sys2Proof Sys2Proof.Machine Sys2Proof.Laws Sys2Proof.HostPort Sys2Proof.Scheduling

/-! ### Accesses (R543) -/

section
variable {s : State} {a : RegAccess} (hs : served s a = true)
include hs

theorem registerWrite_allowed (w : Word) (hf : refusedForm a = false) : registerWrite s a w = writeReg s a w := by
  simp [registerWrite, hs, hf]

theorem registerWrite_refused (w : Word) (hf : refusedForm a = true) : registerWrite s a w = emit s .bar0Unsupported := by
  simp [registerWrite, hs, hf]

theorem rcFieldRead_allowed (hf : refusedForm a = false) :
    rcFieldRead s a = emit (clearRead s a) (.bar0Data (halfRead a (showReg s (a.off / 8 * 8)))) := by
  simp [rcFieldRead, hs, hf]

theorem bar0Unsupported_refused (b : Bool) (hf : refusedForm a = true) : bar0Unsupported s a b = emit s .bar0Unsupported := by
  simp [bar0Unsupported, hs, hf]

end

/-- Before the lock an access outside the boot registers takes its effect nowhere. -/
theorem accesses_before_lock {s : State} {a : RegAccess} (w : Word) (b : Bool) (hs : served s a = false) :
    registerWrite s a w = prelock s true ∧ rcFieldRead s a = prelock s false ∧ bar0Unsupported s a b = prelock s b := by
  simp [registerWrite, rcFieldRead, bar0Unsupported, hs]

/-! ### Fields after a write (R544, R546) -/

theorem writeReg_command {s t : State} {a : RegAccess} {w : Word} (hw : inWindow (a.off / 8 * 8) = false)
    (hb : bwRegs.contains (a.off / 8 * 8) = false) (hc : commandWrite s a (a.off / 8 * 8) w = some t) : writeReg s a w = t := by
  unfold writeReg
  simp only [hw, hb, hc, Bool.or_false, Bool.false_eq_true, if_false]

section
variable {s : State} {a : RegAccess} {base i : Nat} {v w : Word} {f : FieldDef}

theorem fieldAfter_outside (h : fieldIn a f = false) : fieldAfter s a base i v w f = w := by simp [fieldAfter, h]

theorem fieldAfter_readOnly (h : f.acc = .ro ∨ f.acc = .rc) : fieldAfter s a base i v w f = w := by
  rcases h with h | h <;> simp [fieldAfter, h]

theorem fieldAfter_allowed (hi : fieldIn a f = true) (hf : f.acc = .rw) (hr : inRange base f.lo (fld v f.lo f.width) = true)
    (hs : stateAllows s base f.lo i = true) : fieldAfter s a base i v w f = setFld w f.lo f.width (fld v f.lo f.width) := by
  simp [fieldAfter, hi, hf, hr, hs]

end

/-- Settles O39: each access by its lemma above. -/
theorem registerAccess : Obligations.RegisterAccess := by
  refine ⟨?plain, ?command, ?inRange, ?unchanged, ?read, ?refused, ?locked⟩
  case plain =>
    exact fun s a w r hs hf hw hb hc hr =>
      next_settle ((registerWrite_allowed hs w hf).trans (writeReg_plain rfl hw (by simpa using hb) hc hr))
  case command =>
    exact fun s t a w hs hf hw hb hc =>
      next_settle ((registerWrite_allowed hs w hf).trans (writeReg_command hw (by simpa using hb) hc))
  case inRange =>
    intro s base i v w f hf hr hs h64
    rw [fieldAfter_allowed rfl hf hr hs, fld_setFld_same _ _ _ _ h64, Nat.mod_eq_of_lt (fld_lt ..)]
  case unchanged =>
    rintro s a base i v w f (h | ⟨hf, h⟩ | h)
    · exact fieldAfter_outside h
    · exact fieldAfter_out_of_range s a base i v w f hf h
    · exact fieldAfter_readOnly h
  case read => exact fun s a hs hf => congrArg Host.Outcome.next (rcFieldRead_allowed hs hf)
  case refused =>
    exact fun s a b hs hf => ⟨congrArg Host.Outcome.next (bar0Unsupported_refused hs b hf),
      fun w => next_settle (registerWrite_refused hs w hf)⟩
  case locked =>
    intro s a w b hs
    obtain ⟨written, hread, unsupported⟩ := accesses_before_lock w b hs
    exact ⟨next_settle written, congrArg Host.Outcome.next hread, congrArg Host.Outcome.next unsupported⟩

/-! ### Fields of one register lie apart -/

/-- The fields of a register fit it, and no two of them overlap. -/
abbrev FieldsApart (fs : List FieldDef) : Prop :=
  (∀ f ∈ fs, f.lo + f.width ≤ 64) ∧ fs.Pairwise (fun f g => f.lo + f.width ≤ g.lo ∨ g.lo + g.width ≤ f.lo)

/-- The blocks' register tables. -/
def registerTables : List (List RegDef) :=
  [[], regsGlb, regsSec, regsClk, regsHpt, regsSch, regsTak, regsMxe, regsExp, regsKva, regsAtt, regsSmp, regsGth, regsMem, regsFlt,
    regsGlk, regsShp, regsBmv, regsDtm, regsTrv, regsCon, regsRas, regsMgt]

theorem mem_of_branches {α : Type} {l : List α} {p : Prop} [Decidable p] {x y : α} (hx : x ∈ l) (hy : y ∈ l) :
    (if p then x else y) ∈ l := by
  split <;> assumption

/-- `blockRegs` asks for 22 blocks in turn. -/
theorem blockRegs_mem_registerTables (off : Nat) : blockRegs off ∈ registerTables := by
  unfold blockRegs
  iterate 22 refine mem_of_branches (by simp only [registerTables, List.mem_cons, true_or, or_true]) ?_
  exact List.mem_cons_self

theorem registerTables_fieldsApart : ∀ t ∈ registerTables, ∀ r ∈ t, FieldsApart r.fields := by decide

theorem regAt_fieldsApart {off : Nat} {r : RegDef} (h : regAt off = some r) : FieldsApart r.fields :=
  registerTables_fieldsApart _ (blockRegs_mem_registerTables off) r (List.mem_of_find?_eq_some h)

/-! ### What a read clears (R545) -/

/-- A read clears the read-clear fields that lie wholly in it. -/
def clears (a : RegAccess) (f : FieldDef) : Bool := f.acc == .rc && fieldIn a f

theorem clears_iff {a : RegAccess} {f : FieldDef} : clears a f = true ↔
    f.acc = .rc ∧ (a.size = 8 ∨ (a.off % 8 = 0 ∧ f.lo + f.width ≤ 32) ∨ (a.off % 8 = 4 ∧ 32 ≤ f.lo)) := by
  simp [clears, fieldIn, or_assoc]

/-- One field after a read. -/
def fieldRead (a : RegAccess) (w : Word) (f : FieldDef) : Word := if clears a f then setFld w f.lo f.width 0 else w

theorem fld_fieldRead_same (a : RegAccess) (w : Word) {f : FieldDef} (h : f.lo + f.width ≤ 64) :
    fld (fieldRead a w f) f.lo f.width = if clears a f = true then 0 else fld w f.lo f.width := by
  unfold fieldRead
  split
  · rw [fld_setFld_same _ _ _ _ h, Nat.zero_mod]
  · rfl

theorem fld_fieldRead_apart (a : RegAccess) (w : Word) {f g : FieldDef} (h : f.lo + f.width ≤ g.lo ∨ g.lo + g.width ≤ f.lo) :
    fld (fieldRead a w f) g.lo g.width = fld w g.lo g.width := by
  unfold fieldRead
  split
  · exact fld_setFld_ne _ _ _ _ _ _ h
  · rfl

theorem fld_foldl_fieldRead_apart (a : RegAccess) (fs : List FieldDef) (w : Word) {g : FieldDef}
    (h : ∀ f ∈ fs, f.lo + f.width ≤ g.lo ∨ g.lo + g.width ≤ f.lo) :
    fld (fs.foldl (fieldRead a) w) g.lo g.width = fld w g.lo g.width := by
  induction fs generalizing w with
  | nil => rfl
  | cons f fs ih =>
    obtain ⟨hf, hfs⟩ := List.forall_mem_cons.1 h
    exact (ih _ hfs).trans (fld_fieldRead_apart a w hf)

/-- The fields' turns do not disturb one another. -/
theorem fld_foldl_fieldRead (a : RegAccess) {fs : List FieldDef} (h : FieldsApart fs) (w : Word) {g : FieldDef} (hg : g ∈ fs) :
    fld (fs.foldl (fieldRead a) w) g.lo g.width = if clears a g = true then 0 else fld w g.lo g.width := by
  obtain ⟨hfit, hapart⟩ := h
  induction fs generalizing w with
  | nil => cases hg
  | cons f fs ih =>
    obtain ⟨hf, hfs⟩ := List.pairwise_cons.1 hapart
    obtain ⟨hfit0, hfits⟩ := List.forall_mem_cons.1 hfit
    rcases List.mem_cons.1 hg with rfl | hg
    · have later := fld_foldl_fieldRead_apart a fs (fieldRead a w g) (fun f hm => (hf f hm).symm)
      exact later.trans (fld_fieldRead_same a w hfit0)
    · rw [List.foldl_cons, ih _ hg hfits hfs, fld_fieldRead_apart a w (hf g hg)]

/-- A register without a field to clear is left as it is. -/
theorem foldl_fieldRead_none {a : RegAccess} {fs : List FieldDef} (h : fs.any (clears a) = false) (w : Word) :
    fs.foldl (fieldRead a) w = w := by
  induction fs with
  | nil => rfl
  | cons f fs ih =>
    obtain ⟨hf, hfs⟩ := Bool.or_eq_false_iff.1 h
    rw [List.foldl_cons, show fieldRead a w f = w from if_neg (ne_true_of_eq_false hf), ih hfs]

section
variable {s : State} {a : RegAccess} {r : RegDef} (hr : regAt (a.off / 8 * 8) = some r)
include hr

theorem clearRead_eq : clearRead s a =
    if r.fields.any (clears a) then s.setReg (a.off / 8 * 8) (r.fields.foldl (fieldRead a) (s.reg (a.off / 8 * 8))) else s := by
  unfold clearRead
  dsimp only
  rw [hr]
  rfl

theorem clearRead_regs_only : clearRead s a = { s with regs := (clearRead s a).regs } := by
  rw [clearRead_eq hr]
  split <;> rfl

theorem reg_clearRead : (clearRead s a).reg (a.off / 8 * 8) = r.fields.foldl (fieldRead a) (s.reg (a.off / 8 * 8)) := by
  rw [clearRead_eq hr]
  split
  · exact reg_setReg_same ..
  next h => exact (foldl_fieldRead_none (Bool.eq_false_iff.2 h) _).symm

theorem reg_clearRead_other {o : Nat} (ho : o ≠ a.off / 8 * 8) : (clearRead s a).reg o = s.reg o := by
  rw [clearRead_eq hr]
  split
  · exact reg_setReg_ne _ _ _ _ ho
  · rfl

end

/-- Settles O55: a read clears its fields one by one, and they lie apart. -/
theorem readClearFields : Obligations.ReadClearFields := by
  intro s a r hs hf hr
  refine ⟨_, congrArg Host.Outcome.next (rcFieldRead_allowed hs hf), congrArg (emit · _) (clearRead_regs_only hr), fun f hmem => ?_,
    fun o ho => reg_clearRead_other hr ho⟩
  have cleared := fld_foldl_fieldRead a (regAt_fieldsApart hr) (s.reg (a.off / 8 * 8)) hmem
  rw [if_congr clears_iff rfl rfl] at cleared
  exact (congrArg (fld · f.lo f.width) (reg_clearRead hr)).trans cleared

end Sys2Proof.Registers
end

section
/-! Traverses: opening, legs and the end, case by case (R415 to R432). -/

namespace Sys2Proof.Traverse

open Sys2Proof Sys2Proof.Machine Sys2Proof.Laws Sys2Proof.HostPort

/-! ### Messages between groups (R424) -/

theorem trvMsg_dropped {s : State} {hdr : List Word} {kind : Nat} {bad : Bool} {f : State → State} (hu : isUp s = true)
    (hb : hdrBad hdr = true) : trvMsg s hdr kind bad f = openEvent s .error St.TRV_BAD_MSG noUnit 0 0 := by
  simp [trvMsg, whenUp_up hu, hb]

theorem trvMsg_taken {s : State} {hdr : List Word} {kind : Nat} {bad : Bool} {f : State → State} (hu : isUp s = true)
    (hb : hdrBad hdr = false) (hbad : bad = false) (hk : bits (wordAt hdr 0) 3 0 = kind) : trvMsg s hdr kind bad f = f s := by
  simp [trvMsg, whenUp_up hu, hb, hbad, hk]

/-! ### A Traverse is triggered (R415, R419) -/

theorem beginTraverse_of_root {s : State} {req : Nat} {r : Req} {root : Root} (tr : TraverseTrigger)
    (hroot : tget s.kva.roots req = some root) :
    beginTraverse s req r tr = tryDest (modReq s req (fun q => { q with phase := .traversing })) req r
      { freshTrav (transitWords req r root (groupOf s req) 0 (planFor r tr).1 (planFor r tr).2 (treeTokens s req)) with
        trigger := some tr } := by
  unfold beginTraverse
  rw [hroot]

section
variable {s : State} {tr : TraverseTrigger} {r : Req} (hr : reqOf s (triggerReq tr) = some r)
  (hl : leadsFor s (triggerReq tr) = true) (hf : triggerFits r tr = true) (hp : ∀ q d o f, tr ≠ .park q d o f)
  (ht : travOf s (triggerReq tr) = none) (hk : thas s.kva.reshoots (triggerReq tr) = false)
include hr hl hf hp ht hk

/-- A trigger other than REQ_PARK that meets its conditions begins, or waits for its place. -/
theorem openTraverse_unparked : openTraverse s tr =
    if 256 ≤ travLed s then
      { s with trv := { s.trv with waiting := if s.trv.waiting.contains tr then s.trv.waiting else s.trv.waiting ++ [tr] } }
    else beginTraverse s (triggerReq tr) r tr := by
  unfold openTraverse
  simp only [hr, hl, hf, Bool.not_true, Bool.or_self, Bool.false_eq_true, if_false]
  cases tr with
  | park q d o f => exact absurd rfl (hp q d o f)
  | prefillDone q => simp [ht, hk]
  | handover q g => simp [ht, hk]
  | auto q => simp [ht, hk]

theorem openTraverse_begins (hn : travLed s < 256) : openTraverse s tr = beginTraverse s (triggerReq tr) r tr :=
  (openTraverse_unparked hr hl hf hp ht hk).trans (if_neg (Nat.not_le.2 hn))

theorem openTraverse_waits (hn : 256 ≤ travLed s) (hw : tr ∉ s.trv.waiting) :
    openTraverse s tr = { s with trv := { s.trv with waiting := s.trv.waiting ++ [tr] } } := by
  rw [openTraverse_unparked hr hl hf hp ht hk, if_pos hn, if_neg (by simpa using hw)]

end

section
variable {s : State} {req dst origin flight : Nat} {r : Req} (hr : reqOf s req = some r) (hl : leadsFor s req = true)
include hr hl

theorem openTraverse_park_refused (hc : parkCheck s req r dst ≠ St.OK) :
    openTraverse s (.park req dst origin flight) = answerPark s origin flight (parkCheck s req r dst) 0 := by
  simp [openTraverse, triggerReq, triggerFits, hr, hl, hc]

theorem openTraverse_park_begins (hk : thas s.kva.reshoots req = false) (hn : travLed s < 256) (hc : parkCheck s req r dst = St.OK) :
    openTraverse s (.park req dst origin flight) = beginTraverse s req r (.park req dst origin flight) := by
  simp [openTraverse, triggerReq, triggerFits, hr, hl, hc, hk, Nat.not_le.2 hn]

end

/-! ### The group that a try goes to (R416) -/

section
variable {s : State} {req : Nat} {r : Req} {t : Trav} {tr : TraverseTrigger} (htr : t.trigger = some tr)
include htr

theorem tryDest_fixed {g : Nat} (hg : fixedDest r tr = some g) :
    tryDest s req r t = if t.tried = 0 then openTo s req t g else stayHere s req t t.last := by
  unfold tryDest
  rw [htr]
  dsimp only
  rw [hg]

section
variable {rng : Nat × Nat} (hg : fixedDest r tr = none) (hrng : destRange s r.model (parks tr) = some rng)
include hg hrng

theorem tryDest_exhausted (hn : rng.2 ≤ t.tried) : tryDest s req r t = stayHere s req t t.last := by
  unfold tryDest
  rw [htr]
  dsimp only
  rw [hg, hrng]
  exact if_pos hn

theorem tryDest_next (hn : t.tried < rng.2) (hrole : role s ≠ 4) :
    tryDest s req r t = openTo s req t (destAt req rng t.tried) := by
  unfold tryDest
  rw [htr]
  dsimp only
  rw [hg, hrng]
  exact (if_neg (Nat.not_le.2 hn)).trans (if_neg (fun h => hrole h.2))

end
end

/-! ### OPEN and ACCEPT (R419) -/

section
variable {s : State} {hdr rc : List Word} (hu : isUp s = true) (hb : hdrBad hdr = false) (hrc : transitBad rc = false)
  (hk : bits (wordAt hdr 0) 3 0 = 1)
include hu hb hrc hk

section
variable (hl : leads s (tDst rc) = true) (hg : eGroup (mapGet s.dtm.map (hNode hdr)) ≠ tDst rc)
include hl hg

theorem openMsg_refused (hc : openCheck s (hReq hdr) rc ≠ St.OK) :
    openMsg s hdr rc = sendTrv s (hNode hdr) 2 (openCheck s (hReq hdr) rc) (hSeq hdr) (hReq hdr) (tEpoch rc) := by
  unfold openMsg
  rw [trvMsg_taken hu hb hrc hk]
  simp [hl, hg, hc]

theorem openMsg_accepted (hc : openCheck s (hReq hdr) rc = St.OK) (ht : travOf s (hReq hdr) = none) (hn : travLed s < 256)
    (hp : planOf rc ≠ 3) :
    openMsg s hdr rc = joinTransit (((servers s (tDst rc)).filter (· != self s)).foldl (fun s n =>
      send s n 0 .trv (trvHdr s 1 0 St.OK 0 (hReq hdr) 0 (tEpoch rc) ++ rc))
      (sendTrv (recordTransit s (hReq hdr) rc) (hNode hdr) 2 St.OK (hSeq hdr) (hReq hdr) (tEpoch rc))) (hReq hdr) rc true := by
  unfold openMsg
  rw [trvMsg_taken hu hb hrc hk]
  simp [hl, hg, hc, ht, Nat.not_le.2 hn, hp]

end

theorem openMsg_member (hl : leads s (tDst rc) = false) (hd : tDst rc = ownGroup s)
    (hn : leaderOf s.dtm.map (ownGroup s) = some (hNode hdr)) : openMsg s hdr rc = joinTransit s (hReq hdr) rc false := by
  unfold openMsg
  rw [trvMsg_taken hu hb hrc hk]
  rw [← hd] at hn
  simp only [hl, Bool.false_and, Bool.false_eq_true, if_false]
  exact if_pos ⟨hd, hn⟩

end

section
variable {s : State} {hdr : List Word} {t : Trav} (hu : isUp s = true) (hb : hdrBad hdr = false) (hk : bits (wordAt hdr 0) 3 0 = 2)
  (ht : travOf s (hReq hdr) = some t) (hsrc : t.src = .opening) (he : tEpoch t.words = hEp hdr)
include hu hb hk ht hsrc he

/-- An ACCEPT that answers the OPEN of the source leader. -/
theorem accept_answers : accept s hdr =
    if hSt hdr ≠ St.OK then abandonTrav s (hReq hdr) (hSt hdr)
    else if planOf t.words = 3 then setTrav s (hReq hdr) { t with src := .running }
    else sendCounts (setTrav s (hReq hdr) { t with src := .running }) (hReq hdr) (tModel t.words) (tDst t.words) := by
  unfold accept
  rw [trvMsg_taken hu hb rfl hk, ht]
  exact if_neg (by simp [hsrc, he])

theorem accept_refused (h : hSt hdr ≠ St.OK) : accept s hdr = abandonTrav s (hReq hdr) (hSt hdr) :=
  (accept_answers hu hb hk ht hsrc he).trans (if_pos h)

theorem accept_handover (h : hSt hdr = St.OK) (hp : planOf t.words = 3) :
    accept s hdr = setTrav s (hReq hdr) { t with src := .running } :=
  (accept_answers hu hb hk ht hsrc he).trans ((if_neg (not_not.2 h)).trans (if_pos hp))

theorem accept_runs (h : hSt hdr = St.OK) (hp : planOf t.words ≠ 3) : accept s hdr =
    sendCounts (setTrav s (hReq hdr) { t with src := .running }) (hReq hdr) (tModel t.words) (tDst t.words) :=
  (accept_answers hu hb hk ht hsrc he).trans ((if_neg (not_not.2 h)).trans (if_neg hp))

end

theorem openTimeout_opening {s : State} {req : Nat} {t : Trav} (hu : isUp s = true) (ht : travOf s req = some t)
    (hs : t.src = .opening) : openTimeout s req = openTo s req t (tDst t.words) := by
  simp [openTimeout, whenUp_up hu, ht, hs]

theorem traverseDestRetry_waiting {s : State} {req : Nat} {t : Trav} {r : Req} (hu : isUp s = true) (ht : travOf s req = some t)
    (hs : t.src = .waiting) (hr : reqOf s req = some r) : traverseDestRetry s req = tryDest s req r { t with tried := 0 } := by
  simp [traverseDestRetry, whenUp_up hu, ht, hs, hr]

/-- Settles O30: each trigger's and each message's case by its lemma above. -/
theorem traverseOpening : Obligations.TraverseOpening := by
  refine ⟨?trigger, ?park, ?group, ?refused, ?accepted, ?member, ?layout, ?accept, ?again⟩
  case trigger =>
    exact fun s tr r root hu hr hl hf hp ht hk hroot =>
      ⟨fun hn => next_settle ((whenUp_up hu).trans ((openTraverse_begins hr hl hf hp ht hk hn).trans (beginTraverse_of_root tr hroot))),
        fun hn hw => next_settle ((whenUp_up hu).trans (openTraverse_waits hr hl hf hp ht hk hn hw))⟩
  case park =>
    exact fun s req dst origin flight r root hu hr hl hk hn _ =>
      ⟨fun hc => next_settle ((whenUp_up hu).trans (openTraverse_park_begins hr hl hk hn hc)),
        fun hc => next_settle ((whenUp_up hu).trans (openTraverse_park_refused hr hl hc))⟩
  case group =>
    exact fun s req g r t tr htr =>
      ⟨fun hg h0 => (tryDest_fixed htr hg).trans (if_pos h0), fun hg h0 => (tryDest_fixed htr hg).trans (if_neg h0),
        fun rng hg hrng hn hrole => tryDest_next htr hg hrng hn hrole, fun rng hg hrng hn => tryDest_exhausted htr hg hrng hn⟩
  case refused => exact fun s hdr rc hu hb hrc hk hl hg hc => next_settle (openMsg_refused hu hb hrc hk hl hg hc)
  case accepted =>
    exact fun s hdr rc hu hb hrc hk hl hg hc ht hn hp => next_settle (openMsg_accepted hu hb hrc hk hl hg hc ht hn hp)
  case member => exact fun s hdr rc hu hb hrc hk hl hd hn => next_settle (openMsg_member hu hb hrc hk hl hd hn)
  case layout =>
    exact fun s hdr hu hb => ⟨next_settle (trvMsg_dropped hu hb), next_settle (trvMsg_dropped hu hb),
      next_settle (trvMsg_dropped hu hb), next_settle (trvMsg_dropped hu hb), next_settle (trvMsg_dropped hu hb)⟩
  case accept =>
    exact fun s hdr t hu hb hk ht hsrc he => ⟨fun h hp => next_settle (accept_runs hu hb hk ht hsrc he h hp),
      fun h hp => next_settle (accept_handover hu hb hk ht hsrc he h hp), fun h => next_settle (accept_refused hu hb hk ht hsrc he h)⟩
  case again =>
    exact fun s req t r hu ht => ⟨fun hs => next_settle (openTimeout_opening hu ht hs),
      fun hs hr => next_settle (traverseDestRetry_waiting hu ht hs hr)⟩

end Sys2Proof.Traverse
end

section
/-! The legs of a Traverse and its end (R418 to R432). -/

namespace Sys2Proof.Traverse

open Sys2Proof Sys2Proof.Machine Sys2Proof.Laws Sys2Proof.HostPort

/-! ### Legs at a destination member (R426, R428) -/

theorem runLegs_of {s : State} {req : Nat} {t : Trav} (ht : travOf s req = some t) :
    runLegs s req = checkDone (issueLegs ((wants s req t).length + 1) s req) req := by
  unfold runLegs
  rw [ht]

section
variable {s : State} {req : Nat} {t : Trav} (hu : isUp s = true) (ht : travOf s req = some t)
include hu ht

theorem legReserveRetry_member (hm : t.member = true) :
    legReserveRetry s req = checkDone (issueLegs ((wants s req t).length + 1) s req) req := by
  unfold legReserveRetry
  rw [whenUp_up hu, if_pos (by simp [ht, hm]), runLegs_of ht]

theorem legReserveStall_member {n : Nat} (hm : t.member = true) (hw : wants s req t ≠ [])
    (hl : leaderOf s.dtm.map (tSrc t.words) = some n) :
    legReserveStall s req = sendTrv s n 8 St.TRV_NO_FRAMES 0 req (tEpoch t.words) := by
  simp [legReserveStall, whenUp_up hu, ht, hm, hw, hl]

theorem legTimeout_out {seq : Nat} {l : Leg} (hl : t.legs.find? (fun l => l.seq == seq) = some l) :
    legTimeout s req seq = sendLegReq (setTrav s req { t with legs := t.legs.map (fun x =>
      if x.seq = seq then { l with late := !l.late } else x) }) req t { l with late := !l.late } := by
  unfold legTimeout
  rw [whenUp_up hu, ht]
  dsimp only
  rw [hl]

theorem countEntry_signal {slot : Nat} (hs : slot ∉ t.counts) :
    countEntry s req slot [] true = checkDone (setTrav s req { t with counts := t.counts ++ [slot] }) req := by
  unfold countEntry
  rw [whenUp_up hu, ht]
  simp [hs]

theorem countEntry_inserts {slot : Nat} {w : Word} :
    let first := sliceFirst (modelVocab s (tModel t.words)) (groupSize s) (ownSlot s)
    let r := addCount (tgetD s.smp.counts req []) (bits w 19 0 - first) (bits w 47 32)
    first ≤ bits w 19 0 → bits w 19 0 < first + sliceLen (modelVocab s (tModel t.words)) (groupSize s) (ownSlot s) →
    r.2 = false → countEntry s req slot [w] false = { s with smp := { s.smp with counts := tset s.smp.counts req r.1 } } := by
  intro first r hlo hhi hev
  unfold countEntry
  rw [whenUp_up hu, ht]
  exact (if_neg Bool.false_ne_true).trans ((if_pos ⟨hlo, hhi⟩).trans (if_neg (ne_true_of_eq_false hev)))

end

/-! ### Legs at a source member (R426) -/

section
variable {s : State} {hdr es : List Word} {flash : List (Option (List Byte))} (hu : isUp s = true) (hb : hdrBad hdr = false)
  (hk : bits (wordAt hdr 0) 3 0 = 3) (hn : hNp hdr ≤ 64)
  (he : (List.range (es.length / 2)).any (fun i => bits (wordAt es (2 * i + 1)) 63 24 != 0) = false)
include hu hb hk hn he

theorem legReq_notSource
    (h : (thas s.kva.roots (hReq hdr) || thas s.con.mir.roots (hReq hdr)) = false ∨
      (legPages s (hReq hdr) (hLh hdr) (es.take (2 * hNp hdr)) flash).all
        (fun p => heldHere s (hLh hdr) (pageIdx p.2.1 % 2 ^ 23)) = false) :
    legReq s hdr es flash = send s (hNode hdr) 3 .trv
      (trvHdr s 4 0 St.TRV_NOT_SOURCE (hSeq hdr) (hReq hdr) (hLh hdr) (hEp hdr)) := by
  unfold legReq
  rw [trvMsg_taken hu hb (by rw [he]; simpa using hn) hk]
  refine (if_pos ?_).trans (congrArg (send s (hNode hdr) 3 .trv) (List.append_nil _))
  rcases h with h | h <;> simp only [h, Bool.not_false, Bool.true_or, Bool.or_true]

/-- A request that is pinned here has its counts sent already. -/
theorem legReq_answered (hm : (thas s.kva.roots (hReq hdr) || thas s.con.mir.roots (hReq hdr)) = true) (hp : hReq hdr ∈ s.trv.pins) :
    let ps := legPages s (hReq hdr) (hLh hdr) (es.take (2 * hNp hdr)) flash
    ps.all (fun p => heldHere s (hLh hdr) (pageIdx p.2.1 % 2 ^ 23)) = true → ps.any (fun p => p.2.2.1.state == 0) = false →
    let sent := ps.map (fun p => (p.1, p.2.2.1, pageBytes s p.2.2.1 p.2.2.2))
    let s1 := sendLegData s (hNode hdr) (rd s F.TRV_CFG_CODE == 1 && !sent.any (fun p => p.2.1.kv4))
      (sent.filterMap (fun p => p.2.2.map (fun b => (p.1, b.1, b.2))))
    legReq s hdr es flash = send s1 (hNode hdr) 3 .trv
      (trvHdr s1 4 sent.length St.OK (hSeq hdr) (hReq hdr) (hLh hdr) (hEp hdr) ++ sent.map (fun p => replyEntry p.2.1 p.2.2.isSome)) := by
  intro ps hall hany sent s1
  unfold legReq
  rw [trvMsg_taken hu hb (by rw [he]; simpa using hn) hk]
  have pinned : s.trv.pins.contains (hReq hdr) = true := by simpa using hp
  refine (if_neg (by simp only [hm, ps, hall, Bool.not_true, Bool.or_self, Bool.false_eq_true, not_false_eq_true])).trans
    ((if_neg (ne_true_of_eq_false hany)).trans ?_)
  simp only [pinned, Bool.not_true, Bool.false_and, Bool.false_eq_true, if_false, List.length_map]
  simp only [s1, sent, ps, List.length_map]

end

/-! ### Replies (R426, R429) -/

section
variable {s : State} {hdr es : List Word} {t : Trav} {l : Leg} (hu : isUp s = true) (hb : hdrBad hdr = false)
  (hk : bits (wordAt hdr 0) 3 0 = 4) (he : es.any (fun w => bits w 63 35 != 0 || !([1, 3, 4].contains (bits w 18 16))) = false)
  (ht : travOf s (hReq hdr) = some t) (hl : t.legs.find? (fun l => l.seq == hSeq hdr) = some l)
include hu hb hk he ht hl

theorem legReply_refused (coded : List Byte) (h : hSt hdr ≠ St.OK) :
    legReply s hdr es coded = runLegs (setTrav s (hReq hdr) { t with
      legs := t.legs.filter (fun x => x.seq != l.seq), reserved := t.reserved ++ l.frames }) (hReq hdr) := by
  unfold legReply
  rw [trvMsg_taken hu hb he hk]
  dsimp only
  rw [ht]
  dsimp only
  rw [hl]
  exact if_pos h

theorem legReply_damaged {coded : List Byte} (h : hSt hdr = St.OK) (hc : coded ≠ [])
    (hd : decodeLeg s (travClass s t.words)
      ((l.pages.zipIdx.filter (fun p => bits (wordAt es p.2) 18 16 == 1)).map (fun p => l.frames.getD p.2 0)) coded = none) :
    legReply s hdr es coded = sendLegReq s (hReq hdr) t l := by
  unfold legReply
  rw [trvMsg_taken hu hb he hk]
  dsimp only
  rw [ht]
  dsimp only
  rw [hl]
  dsimp only
  rw [if_neg (not_not.2 h), if_neg (by simpa using hc), hd]

theorem legReply_commits (h : hSt hdr = St.OK) :
    let acts := legActs s (hReq hdr) t l es
    let r := runLocal s .block .plain (acts.flatMap (fun a => a.2))
    let used := (acts.filter (fun a => !a.2.isEmpty && a.1 != 0)).map (fun a => a.1)
    r.2.committed = true →
    legReply s hdr es [] = runLegs (bump (setTrav r.1 (hReq hdr) { t with
      legs := t.legs.filter (fun x => x.seq != l.seq), reserved := t.reserved ++ l.frames.filter (fun f => !used.contains f) })
      F.TRV_LEG_CNT_COUNT) (hReq hdr) := by
  intro acts r used hc
  unfold legReply
  rw [trvMsg_taken hu hb he hk]
  dsimp only
  rw [ht]
  dsimp only
  rw [hl]
  exact (if_neg (not_not.2 h)).trans (if_pos hc)

end

/-- Settles O31: each message's case by its lemma above. -/
theorem traverseLegs : Obligations.TraverseLegs := by
  refine ⟨?retry, ?stall, ?notSource, ?answered, ?commits, ?fails, ?timeout, ?count⟩
  case retry => exact fun s req t hu ht hm => next_settle (legReserveRetry_member hu ht hm)
  case stall => exact fun s req n t hu ht hm hw hl => next_settle (legReserveStall_member hu ht hm hw hl)
  case notSource => exact fun s hdr es flash hu hb hk hn he h => next_settle (legReq_notSource hu hb hk hn he h)
  case answered =>
    exact fun s hdr es flash hu hb hk hn he hm hp hall hany => next_settle (legReq_answered hu hb hk hn he hm hp hall hany)
  case commits => exact fun s hdr es t l hu hb hk he ht hl h hc => next_settle (legReply_commits hu hb hk he ht hl h hc)
  case fails =>
    exact fun s hdr es coded t l hu hb hk he ht hl => ⟨fun h => next_settle (legReply_refused hu hb hk he ht hl coded h),
      fun h hc hd => next_settle (legReply_damaged hu hb hk he ht hl h hc hd)⟩
  case timeout => exact fun s req seq t l hu ht hl => next_settle (legTimeout_out hu ht hl)
  case count =>
    exact fun s req slot t hu ht hs => ⟨next_settle (countEntry_signal hu ht hs),
      fun w hlo hhi hev => next_settle (countEntry_inserts hu ht hlo hhi hev)⟩

/-! ### The closing take (R430) -/

theorem buildClosing_of_leader {s : State} {req src : Nat} {t : Trav} (h : leaderOf s.dtm.map (tSrc t.words) = some src) :
    buildClosing s req t = giveSlate (setTrav s req { t with closing := true }) ⟨[homeOf s.dtm.map req, self s, src], 0, epoch s,
      [⟨0, ⟨kHome, 0, req⟩, .owner (tEpoch t.words) (tSrc t.words) (tEpoch t.words + 1) (tDst t.words)⟩,
       ⟨1, rootObj req, .putLease req (tEpoch t.words + 1)⟩, ⟨2, rootObj req, .putLease req 0⟩]⟩ (.closing req) := by
  unfold buildClosing
  rw [h]

section
variable {s : State} {hdr : List Word} {t : Trav} (hu : isUp s = true) (hb : hdrBad hdr = false) (hk : bits (wordAt hdr 0) 3 0 = 5)
  (ht : travOf s (hReq hdr) = some t) (he : tEpoch t.words = hEp hdr) (hd : t.dst = true) (hn : hNode hdr ∉ t.done)
include hu hb hk ht he hd hn

/-- A member's first DONE is noted, and the last one closes the Traverse. -/
theorem doneMsg_noted :
    let t1 := { t with done := t.done ++ [hNode hdr] }
    doneMsg s hdr = if !t.closing && (servers s (tDst t.words)).all (fun n => t1.done.contains n) then buildClosing s (hReq hdr) t1
      else setTrav s (hReq hdr) t1 := by
  have fresh : t.done.contains (hNode hdr) = false := by simpa using hn
  unfold doneMsg
  rw [trvMsg_taken hu hb rfl hk, if_pos (by simp [ht, he])]
  unfold noteDone
  rw [ht]
  simp only [hd, fresh, Bool.not_true, Bool.false_eq_true, if_false]

theorem doneMsg_last (hc : t.closing = false)
    (hall : (servers s (tDst t.words)).all (fun n => (t.done ++ [hNode hdr]).contains n) = true) :
    doneMsg s hdr = buildClosing s (hReq hdr) { t with done := t.done ++ [hNode hdr] } :=
  (doneMsg_noted hu hb hk ht he hd hn).trans (if_pos (by rw [hc, hall]; rfl))

theorem doneMsg_early (hall : (servers s (tDst t.words)).all (fun n => (t.done ++ [hNode hdr]).contains n) = false) :
    doneMsg s hdr = setTrav s (hReq hdr) { t with done := t.done ++ [hNode hdr] } :=
  (doneMsg_noted hu hb hk ht he hd hn).trans (if_neg (by rw [hall, Bool.and_false]; decide))

end

/-! ### OWNED and RELEASE (R431) -/

theorem owned_eq {s : State} {hdr : List Word} {t : Trav} (hu : isUp s = true) (hb : hdrBad hdr = false)
    (hk : bits (wordAt hdr 0) 3 0 = 6) (ht : travOf s (hReq hdr) = some t) :
    owned s hdr = if hEp hdr = (tEpoch t.words + 1) % 2 ^ 32 then takeOwned s (hReq hdr) (hEp hdr) else s := by
  unfold owned
  rw [trvMsg_taken hu hb rfl hk, ht]

/-- The request leaves the table of the requests served here. -/
def dropReq (s : State) (req : Nat) : State := { s with sch := { s.sch with reqs := tdel s.sch.reqs req } }

theorem release_eq {s : State} {hdr : List Word} {root : Root} (hu : isUp s = true) (hb : hdrBad hdr = false)
    (hk : bits (wordAt hdr 0) 3 0 = 7) (hroot : tget s.kva.roots (hReq hdr) = some root) :
    release s hdr =
      if hEp hdr ≠ 0 ∧ role s = 3 ∧ root.lease ≠ 0 then
        dropReq (localTake (unpin s (hReq hdr)) [⟨0, rootObj (hReq hdr), .putLease (hReq hdr) 0⟩]) (hReq hdr)
      else dropReq (releasePages (unpin (if hEp hdr = 0 then endTrav s (hReq hdr) else s) (hReq hdr)) (hReq hdr)) (hReq hdr) := by
  unfold release
  rw [trvMsg_taken hu hb rfl hk]
  dsimp only
  rw [hroot]
  rfl

/-! ### ABANDON and AUTO_PARK (R418, R432) -/

theorem abandonTrav_votedClosing {s : State} {req : Nat} {t : Trav} (st : Status) (ht : travOf s req = some t)
    (hv : votedClosing s req = true) : abandonTrav s req st = s := by
  unfold abandonTrav
  rw [ht]
  exact if_pos (.inr hv)

theorem abandonTrav_gone {s : State} {req : Nat} {t : Trav} (st : Status) (ht : travOf s req = some t)
    (hsrc : t.src = .running ∨ t.src = .opening) (hv : votedClosing s req = false) :
    abandonTrav s req st = afterAbandon (unpin (setTrav (bump (sendAbandon s req t st) F.TRV_ABANDON_CNT_COUNT) req
      { t with abandoned := true }) req) req t st := by
  unfold abandonTrav
  rw [ht]
  refine if_neg ?_
  rintro (⟨ho, hr⟩ | h)
  · exact hsrc.elim hr ho
  · exact ne_true_of_eq_false hv h

section
variable {s : State} {hdr : List Word} {t : Trav} (hu : isUp s = true) (hb : hdrBad hdr = false) (hk : bits (wordAt hdr 0) 3 0 = 8)
  (ht : travOf s (hReq hdr) = some t) (he : tEpoch t.words = hEp hdr)
include hu hb hk ht he

theorem abandon_source (hsrc : t.src = .running ∨ t.src = .opening) : abandon s hdr = abandonTrav s (hReq hdr) (hSt hdr) := by
  unfold abandon
  rw [trvMsg_taken hu hb rfl hk, ht]
  exact (if_neg (not_not.2 he)).trans (if_pos hsrc)

theorem abandon_destination (hsrc : t.src = .none) (hm : t.member = true) : abandon s hdr = dropTransit s (hReq hdr) t := by
  unfold abandon
  rw [trvMsg_taken hu hb rfl hk, ht]
  exact (if_neg (not_not.2 he)).trans ((if_neg (by simp [hsrc])).trans (if_pos (.inl hm)))

end

theorem autoPark_parks {s : State} {req : Nat} {r : Req} (hu : isUp s = true) (hms : rd s F.TRV_CFG_AUTO_PARK_MS ≠ 0)
    (hr : reqOf s req = some r) (hl : leadsFor s req = true) (hs : r.starved = true) (hp : r.phase = .decode) (ht : travOf s req = none) :
    autoPark s req = parkNow s req r := by
  simp [autoPark, whenUp_up hu, hr, hms, hl, hs, hp, ht]

theorem parkNow_without_result {s : State} {req : Nat} {r : Req} (h : tget s.smp.results req = none) :
    parkNow s req r = openTraverse (modReq (deliverEnd s r req r.pos [] false St.TRV_PARKED) req
      (fun q => { q with phase := .ended, cancel := [] })) (.auto req) := by
  unfold parkNow
  rw [h]

/-- Settles O32: each message's case by its lemma above. -/
theorem traverseEnd : Obligations.TraverseEnd := by
  refine ⟨?done, fun s req src t h => buildClosing_of_leader h, ?owned, ?release, ?abandon, ?park⟩
  case done =>
    exact fun s hdr t hu hb hk ht he hd hn => ⟨fun hc hall => next_settle (doneMsg_last hu hb hk ht he hd hn hc hall),
      fun hall => next_settle (doneMsg_early hu hb hk ht he hd hn hall)⟩
  case owned =>
    exact fun s hdr t hu hb hk ht => ⟨fun h => next_settle ((owned_eq hu hb hk ht).trans (if_pos h)),
      fun h => next_settle ((owned_eq hu hb hk ht).trans (if_neg h))⟩
  case release =>
    intro s hdr root hu hb hk hroot
    have released := release_eq hu hb hk hroot
    refine ⟨fun he hrole hlease => next_settle (released.trans (if_pos ⟨he, hrole, hlease⟩)), fun he hrole => ?_, fun he => ?_⟩
    · exact next_settle (released.trans ((if_neg (fun h => hrole h.2.1)).trans (by rw [if_neg he]; rfl)))
    · exact next_settle (released.trans ((if_neg (fun h => h.1 he)).trans (by rw [if_pos he]; rfl)))
  case abandon =>
    intro s hdr t hu hb hk ht he
    exact ⟨fun hsrc hv => next_settle ((abandon_source hu hb hk ht he hsrc).trans (abandonTrav_gone _ ht hsrc hv)),
      fun hsrc hv => next_settle ((abandon_source hu hb hk ht he hsrc).trans (abandonTrav_votedClosing _ ht hv)),
      fun hsrc hm => next_settle (abandon_destination hu hb hk ht he hsrc hm)⟩
  case park =>
    exact fun s req r hu hms hr hl hs hp ht => ⟨next_settle (autoPark_parks hu hms hr hl hs hp ht), parkNow_without_result⟩

end Sys2Proof.Traverse
end

section
/-! Beats and probes of a pair (R437 to R452). -/

namespace Sys2Proof.Laws

open Sys2Proof Sys2Proof.Machine

/-! ### Words built of fields, and CRC-16 -/

/-- A value placed below a field leaves the field alone. -/
theorem fld_or_at'_below (w : Word) (lo width v lo2 width2 : Nat) (h : lo + width ≤ lo2) :
    fld (w ||| at' lo width v) lo2 width2 = fld w lo2 width2 := by
  apply Nat.eq_of_testBit_eq
  intro k
  have above : ¬ lo2 + k - lo < width := by omega
  simp [fld_testBit, at', BitVec.getLsbD_ofNat, Nat.testBit_shiftLeft, Nat.testBit_mod_two_pow, above]

/-- A word whose values all lie below a field reads zero there. -/
theorem fld_mkWord_above (fs : List (Nat × Nat × Nat)) {lo width : Nat} (h : ∀ f ∈ fs, f.1 + f.2.1 ≤ lo) :
    fld (mkWord fs) lo width = 0 := by
  have fold (w : Word) : fld (fs.foldl (fun w f => w ||| at' f.1 f.2.1 f.2.2) w) lo width = fld w lo width := by
    induction fs generalizing w with
    | nil => rfl
    | cons f fs ih =>
      obtain ⟨hf, hfs⟩ := List.forall_mem_cons.1 h
      exact (ih hfs _).trans (fld_or_at'_below _ _ _ _ _ _ hf)
  exact (fold 0).trans (by simp [fld])

theorem crc16Bit_lt (c : Nat) : crc16Bit c < 2 ^ 16 := by
  unfold crc16Bit
  split
  · exact Nat.xor_lt_two_pow (Nat.mod_lt _ (by decide)) (by decide)
  · omega

theorem foldl_crc16Bit_lt (n c : Nat) : (List.range (n + 1)).foldl (fun c _ => crc16Bit c) c < 2 ^ 16 := by
  rw [List.range_succ, List.foldl_concat]
  exact crc16Bit_lt _

theorem crc16_lt (bs : List Byte) : crc16 bs < 2 ^ 16 := by
  unfold crc16
  exact List.foldlRecOn (motive := fun c => c < 2 ^ 16) bs _ (by decide) (fun _ _ _ _ => foldl_crc16Bit_lt 7 _)

end Sys2Proof.Laws

namespace Sys2Proof.Continuity

open Sys2Proof Sys2Proof.Machine Sys2Proof.Laws Sys2Proof.HostPort

/-! ### Beats (R437, R438) -/

/-- Any word whose bits [63:36] are clear becomes a valid beat by its CRC. -/
theorem beatValid_setFld_beatCrc {w : Word} (h : bits w 47 36 = 0) : beatValid (setFld w 48 16 (beatCrc w)) = true := by
  have low : beatCrc (setFld w 48 16 (beatCrc w)) = beatCrc w :=
    congrArg (fun n => crc16 (natBytes 6 n)) (fld_setFld_ne w 48 16 (beatCrc w) 0 48 (.inr (Nat.le_refl _)))
  have reserved : bits (setFld w 48 16 (beatCrc w)) 47 36 = 0 :=
    (fld_setFld_ne w 48 16 (beatCrc w) 36 12 (.inr (Nat.le_refl _))).trans h
  have crc : bits (setFld w 48 16 (beatCrc w)) 63 48 = beatCrc w :=
    (fld_setFld_same w 48 16 _ (Nat.le_refl _)).trans (Nat.mod_eq_of_lt (crc16_lt _))
  simp [beatValid, low, reserved, crc]

theorem beatValid_beatWord (s : State) : beatValid (beatWord s) = true :=
  beatValid_setFld_beatCrc (fld_mkWord_above _ (by simp))

theorem beatSend_paired {s : State} {t : Nat} (hu : isUp s = true) (ht : liveTwin s = some t) (hc : conState s ≠ 0)
    (hy : s.con.yielding = 0) (hs : rd s F.CON_STAT_SIDEBAND_OK = 1) :
    beatSend s = { emit s (.message t 6 .beat [beatWord s]) with con := { s.con with beatSeq := (s.con.beatSeq + 1) % 2 ^ 16 } } := by
  unfold beatSend
  rw [whenUp_up hu, ht]
  dsimp only
  rw [if_neg (by omega), if_pos hs]
  simp [emit, hy]

section
variable {s : State} {w : Word} (hu : isUp s = true) (hc : conState s ≠ 0)
include hu hc

theorem beat_invalid (sideband : Bool) (hv : beatValid w = false) :
    beat s sideband w = if sideband then { s with con := { s.con with good := 0 } } else s := by
  unfold beat
  rw [whenUp_up hu, if_neg hc, if_pos (by rw [hv]; rfl)]

/-- A beat on a good sideband that lags by fewer than 3. -/
theorem beat_current (hv : beatValid w = true) (hs : rd s F.CON_STAT_SIDEBAND_OK = 1)
    (hlag : (s.con.beatSeq + 2 * 2 ^ 16 - 1 - bits w 31 16) % 2 ^ 16 < 3) :
    beat s true w = flushReports (seeTwin { s with con := { s.con with
      seen := bits w 15 0, misses := 0, lags := 0, twinState := bits w 34 32, held := false, good := 0 } }
      s.con.twinState s.con.misses w) := by
  unfold beat
  rw [whenUp_up hu, if_neg hc, if_neg (by simp [hv])]
  have inTime : decide (3 ≤ (s.con.beatSeq + 2 * 2 ^ 16 - 1 - bits w 31 16) % 2 ^ 16) = false := decide_eq_false (Nat.not_le.2 hlag)
  simp only [inTime, hs]
  rfl

end

/-! ### What a beat brings about (R446, R452, R453) -/

section
variable {s : State} {before misses : Nat} {w : Word}

theorem seeTwin_yields (hy : bit w 35 = true) (hc : conState s = 1) : seeTwin s before misses w = takeover s true := if_pos ⟨hy, hc⟩

section
variable (hy : bit w 35 = false)
include hy

theorem seeTwin_detached (hc : conState s = 1) (hw : bits w 34 32 = 3) : seeTwin s before misses w = detach s := by
  simp [seeTwin, hy, hc, hw]

theorem seeTwin_paired (hc : conState s = 1) (hw : bits w 34 32 = 1) : seeTwin s before misses w = s := by
  simp [seeTwin, hy, hc, hw]

theorem seeTwin_returns (hc : conState s = 2 ∨ conState s = 3) (hw : bits w 34 32 = 5) (ha : rd s F.CON_CTL_AUTO_REINT = 1) :
    seeTwin s before misses w = startSupply s := by
  simp [seeTwin, hy, hc, hw, ha]

end
end

/-! ### Missed beats and probes (R444 to R448) -/

/-- A missed beat, counted. -/
def beatMissed (s : State) : State :=
  bump { s with con := { s.con with misses := s.con.misses + 1, good := 0, held := s.con.held || decide (2 ≤ s.con.misses + 1) } }
    F.CON_MISS_CNT_COUNT

theorem conState_beatMissed (s : State) : conState (beatMissed s) = conState s := rd_bump_apart _ _ _ (by decide)

section
variable {s : State} {t : Nat} (hu : isUp s = true) (hc : conState s ≠ 0) (ht : liveTwin s = some t)
include hu hc ht

theorem beatMiss_eq : beatMiss s =
    if s.con.misses + 1 = 3 ∧ conState (beatMissed s) = 1 ∧ (beatMissed s).con.yielding = 0 then probe (beatMissed s)
    else beatMissed s := by
  unfold beatMiss
  rw [whenUp_up hu, if_neg (by simp [hc, ht])]
  rfl

theorem beatMiss_counted (hm : s.con.misses + 1 ≠ 3) : beatMiss s = beatMissed s :=
  (beatMiss_eq hu hc ht).trans (if_neg (fun h => hm h.1))

theorem beatMiss_third (hm : s.con.misses = 2) (hp : conState s = 1) (hy : s.con.yielding = 0) :
    beatMiss s = probe (beatMissed s) :=
  (beatMiss_eq hu hc ht).trans (if_pos ⟨by rw [hm], (conState_beatMissed s).trans hp, hy⟩)

end

theorem mirrorAckTimeout_paired {s : State} (hu : isUp s = true) (hq : s.con.unacked ≠ []) (hc : conState s = 1)
    (hy : s.con.yielding = 0) : mirrorAckTimeout s = probe { s with con := { s.con with overdue := true } } := by
  simp [mirrorAckTimeout, whenUp_up hu, mirrorFails, hq, hc, hy]

section
variable {s : State} (hu : isUp s = true) (hp : s.con.probing = true)
include hu hp

theorem probeTimeout_probing :
    probeTimeout s = if conState s = 1 then takeover s false else { s with con := { s.con with probing := false } } := by
  unfold probeTimeout
  rw [whenUp_up hu, if_pos hp]

theorem probeReply_echo (hc : conState s = 1) :
    let s1 := { s with con := { s.con with probing := false } }
    probeReply s .echo = openEvent (wr { s1 with con := { s1.con with misses := 0, good := 0 } } F.CON_STAT_SIDEBAND_OK 0) .error
      St.CON_SIDEBAND_FAIL noUnit 0 0 := by
  unfold probeReply
  rw [whenUp_up hu, if_neg (by simp [hp])]
  exact if_pos hc

theorem probeReply_status_paired (w : Word) (hc : conState s = 1) :
    probeReply s (.status w) = detach { s with con := { s.con with probing := false } } := by
  unfold probeReply
  rw [whenUp_up hu, if_neg (by simp [hp])]
  exact if_pos hc

/-- Both members have taken over. -/
theorem probeReply_status_split {w : Word} (hc : conState s = 2) (hw : bits w 63 61 = 2) :
    probeReply s (.status w) = twinLossRenew (enterCon { s with con := { s.con with probing := false } } 6 [St.CON_SPLIT]) := by
  have notPaired : ¬ conState s = 1 := by omega
  unfold probeReply
  rw [whenUp_up hu, if_neg (by simp [hp])]
  exact (if_neg notPaired).trans (if_pos ⟨hc, hw⟩)

end

/-- Settles O33: each event's case by its lemma above. -/
theorem beatsAndProbes : Obligations.BeatsAndProbes := by
  refine ⟨?send, beatValid_beatWord, ?beat, ?invalid, ?seen, fun s before misses w => seeTwin_yields, ?miss, ?ack, ?timeout, ?reply⟩
  case send => exact fun s t hu ht hc hy hs => next_settle (beatSend_paired hu ht hc hy hs)
  case beat => exact fun s w hu hc hv hs hlag => next_settle (beat_current hu hc hv hs hlag)
  case invalid => exact fun s w hu hc hv => ⟨next_settle (beat_invalid hu hc true hv), next_settle (beat_invalid hu hc false hv)⟩
  case seen => exact fun s before misses w hy => ⟨seeTwin_detached hy, seeTwin_paired hy, seeTwin_returns hy⟩
  case miss =>
    exact fun s t hu hc ht => ⟨fun hm => next_settle (beatMiss_counted hu hc ht hm),
      fun hm hp hy => next_settle (beatMiss_third hu hc ht hm hp hy)⟩
  case ack => exact fun s hu hq hc hy => next_settle (mirrorAckTimeout_paired hu hq hc hy)
  case timeout =>
    exact fun s hu hp => ⟨fun hc => next_settle ((probeTimeout_probing hu hp).trans (if_pos hc)),
      fun hc => next_settle ((probeTimeout_probing hu hp).trans (if_neg hc))⟩
  case reply =>
    exact fun s w hu hp => ⟨fun hc => next_settle (probeReply_echo hu hp hc),
      fun hc => next_settle (probeReply_status_paired hu hp w hc), fun hc hw => next_settle (probeReply_status_split hu hp hc hw)⟩

end Sys2Proof.Continuity
end

section
/-! The mirror stream and the commands of the pair (R440 to R458). -/

namespace Sys2Proof.Continuity

open Sys2Proof Sys2Proof.Machine Sys2Proof.Laws Sys2Proof.HostPort

/-! ### Mirror records at the twin (R440, R441, R459) -/

theorem applyMirror_rows_held {s : State} {p : PageKey} (off soff : Nat) (bs sc : List Byte)
    (h : (tgetD s.con.mir.ptes (keyOfPage p) pteNone).state = 1) :
    applyMirror s (.rows p off bs soff sc) =
      some (writeMem (writeMem s (frameAddr s (tgetD s.con.mir.ptes (keyOfPage p) pteNone).frame + off) bs)
        (scaleAddr s (tgetD s.con.mir.ptes (keyOfPage p) pteNone).frame + soff) sc) := congrArg some (if_pos h)

theorem applyMirror_rows_elsewhere {s : State} {p : PageKey} (off soff : Nat) (bs sc : List Byte)
    (h : (tgetD s.con.mir.ptes (keyOfPage p) pteNone).state ≠ 1) : applyMirror s (.rows p off bs soff sc) = some s :=
  congrArg some (if_neg h)

/-- A record that is next in order, and the only one that waits, is applied alone. -/
theorem applyEarly_next {s s2 : State} {body : MirrorBody} {m : Nat} (st : Status) (hm : s.con.applied = m)
    (he : s.con.early = [⟨m, body⟩]) (ha : applyMirror s body = some s2) (hb : auditBad s body = false) :
    applyEarly 1 s st = ({ s2 with
      con := { s2.con with applied := (m + 1) % 2 ^ 48, early := s2.con.early.filter (fun x => x.mseq != m) }
      tak := { s2.tak with mseq := tset s2.tak.mseq ((twin s2).getD 0) (m % 2 ^ 32) } }, st) := by
  have found : s.con.early.find? (fun r => r.mseq == s.con.applied) = some ⟨m, body⟩ := by simp [he, hm]
  unfold applyEarly
  rw [found]
  dsimp only
  rw [ha]
  exact if_neg (ne_true_of_eq_false hb)

section
variable {s : State} {hdr : List Word} {body : MirrorBody} {t : Nat} (hu : isUp s = true) (ht : twin s = some t)
  (h0 : conState s ≠ 0) (h2 : conState s ≠ 2) (h6 : conState s ≠ 6)
include hu ht h0 h2 h6

theorem mirrorRecord_bad
    (hb : bits (wordAt hdr 0) 63 56 ≠ 0 ∨ bits (wordAt hdr 1) 63 12 ≠ 0 ∨ 4080 < bits (wordAt hdr 1) 11 0 ∨
      bits (wordAt hdr 0) 55 48 ≠ kindOf body ∨ bits (wordAt hdr 0) 55 48 = 0 ∨ 13 ≤ bits (wordAt hdr 0) 55 48) :
    let s1 := respond s t 4 (bits (wordAt hdr 2) 31 0)
      (mkWord [(0, 16, St.CON_BAD_RECORD.toNat), (16, 48, (2 ^ 48 + s.con.applied - 1) % 2 ^ 48)]) []
    mirrorRecord s hdr body = if conState s = 1 then detach s1 else s1 := by
  unfold mirrorRecord
  rw [whenUp_up hu, ht]
  exact (if_neg (by simp [h0, h2, h6])).trans (if_pos hb)

theorem mirrorRecord_next {s2 : State} (hz0 : bits (wordAt hdr 0) 63 56 = 0) (hz1 : bits (wordAt hdr 1) 63 12 = 0)
    (hlen : bits (wordAt hdr 1) 11 0 ≤ 4080) (hk : bits (wordAt hdr 0) 55 48 = kindOf body) (hpos : 0 < kindOf body)
    (hlt : kindOf body < 13) (hm : bits (wordAt hdr 0) 47 0 = s.con.applied) (he : s.con.early = []) :
    let s1 := { s with con := { s.con with early := [⟨s.con.applied, body⟩] } }
    applyMirror s1 body = some s2 → auditBad s1 body = false →
    let s3 := { s2 with
      con := { s2.con with applied := (s.con.applied + 1) % 2 ^ 48, early := s2.con.early.filter (fun x => x.mseq != s.con.applied) }
      tak := { s2.tak with mseq := tset s2.tak.mseq ((twin s2).getD 0) (s.con.applied % 2 ^ 32) } }
    mirrorRecord s hdr body = respond s3 t 4 (bits (wordAt hdr 2) 31 0)
      (mkWord [(0, 16, 0), (16, 48, (2 ^ 48 + s3.con.applied - 1) % 2 ^ 48)]) [] := by
  intro s1 ha hb s3
  have wellFormed : ¬ (bits (wordAt hdr 0) 63 56 ≠ 0 ∨ bits (wordAt hdr 1) 63 12 ≠ 0 ∨ 4080 < bits (wordAt hdr 1) 11 0 ∨
      bits (wordAt hdr 0) 55 48 ≠ kindOf body ∨ bits (wordAt hdr 0) 55 48 = 0 ∨ 13 ≤ bits (wordAt hdr 0) 55 48) := by
    omega
  have applied : applyEarly 1 s1 St.OK = (s3, St.OK) := applyEarly_next St.OK rfl rfl ha hb
  unfold mirrorRecord
  rw [whenUp_up hu, ht]
  refine (if_neg (by simp [h0, h2, h6])).trans ((if_neg wellFormed).trans ((if_neg (by omega)).trans ?_))
  rw [hm, he]
  exact congrArg (fun r : State × Status => respond r.1 t 4 (bits (wordAt hdr 2) 31 0)
    (mkWord [(0, 16, r.2.toNat), (16, 48, (2 ^ 48 + r.1.con.applied - 1) % 2 ^ 48)]) []) applied

end

/-- While PAIRED a record is sent at once. -/
theorem mirrorOne_paired {s : State} (b : MirrorBody) (hw : s.con.waiting = none) (hc : conState s = 1) :
    mirrorOne s b = sendMirror { s with con := { s.con with
      mseq := (s.con.mseq + 1) % 2 ^ 48, unacked := s.con.unacked ++ [⟨s.con.mseq, b⟩] } } s.con.mseq b := by
  unfold mirrorOne
  rw [hw]
  exact if_pos hc

/-! ### CON_CTL and CON_CMD (R452, R453, R458) -/

section
variable {s : State} (hl : rd s F.SEC_PROT_LOCK_LOCK = 1)
include hl

section
variable {w : Word}

theorem conEnable_starts (hw : bit w 63 = true) (hr : conRegionsOk s = true) :
    conEnable s w = conStart (wr (wr s F.CON_CTL_AUTO_REINT (bits w 62 62)) F.CON_CTL_EN 1) := by
  simp [conEnable, bar0_locked hl, hw, hr]

theorem conEnable_badRegions (hw : bit w 63 = true) (he : rd s F.CON_CTL_EN = 0) (hr : conRegionsOk s = false) :
    conEnable s w = wr s F.CON_CTL_AUTO_REINT (bits w 62 62) := by
  simp [conEnable, bar0_locked hl, hw, he, hr]

theorem conEnable_stops (hw : bit w 63 = false) :
    conEnable s w = flushReports (conStop (wr (wr s F.CON_CTL_AUTO_REINT (bits w 62 62)) F.CON_CTL_EN 0)) := by
  simp [conEnable, bar0_locked hl, hw]

end

theorem yield_eq : yield s =
    if conBusy s then conStatus s St.CON_CMD_BUSY
    else if conState s ≠ 1 then conStatus s St.CON_NOT_PAIRED
    else { s with con := { s.con with yielding := 1 } } := bar0_locked hl

section
variable (hu : isUp s = true)
include hu

theorem reintegrate_eq (crcMatch : Bool) : reintegrate s crcMatch =
    if conBusy s then conStatus s St.CON_CMD_BUSY
    else if conState s = 2 ∨ conState s = 3 ∨ conState s = 4 then
      if crcMatch then conStatus (startBulk (startSupply s)) St.OK else conStatus (startSupply s) St.CON_CFG_MISMATCH
    else s := (bar0_locked hl).trans (whenUp_up hu)

theorem reintegrate_supplies (crcMatch : Bool) (hb : conBusy s = false) (hc : conState s = 2 ∨ conState s = 3 ∨ conState s = 4) :
    reintegrate s crcMatch =
      if crcMatch then conStatus (startBulk (startSupply s)) St.OK else conStatus (startSupply s) St.CON_CFG_MISMATCH :=
  (reintegrate_eq hl hu crcMatch).trans ((if_neg (ne_true_of_eq_false hb)).trans (if_pos hc))

end
end

/-! ### Reintegration goes on (R453) -/

theorem reintBulkDone_copied {s : State} (hu : isUp s = true) (hc : conState s = 4) (hp : conPhase s = 2) :
    reintBulkDone s = replayPass (wr (wr s F.CON_STAT_PHASE 3) F.CON_BULK_PROG_DONE_GIB (rd s F.CON_BULK_PROG_TOTAL_GIB)) :=
  (whenUp_up hu).trans (if_pos ⟨hc, hp⟩)

theorem reintReplayPassDone_eq {s : State} {t : Nat} (hu : isUp s = true) (ht : twin s = some t) (hc : conState s = 4)
    (hp : 3 ≤ conPhase s) (h0 : s.con.cutover = 0) : reintReplayPassDone s =
      if sumNat (s.con.delta.map (fun r => 16 + bodyBytes r.body)) < rd s F.CON_CFG_DRAIN_KIB * 1024 then
        rejoinMark (wr s F.CON_STAT_PHASE 4) t
      else replayPass s := by
  unfold reintReplayPassDone
  rw [whenUp_up hu, ht]
  exact if_neg (by omega)

/-! ### Compare mode (R456, R457) -/

section
variable {s : State} (hu : isUp s = true) (hc : conState s = 1) (he : rd s F.CON_CMP_CFG_EN = 1)
include hu hc he

theorem auditTick_next {f : Nat} {x : Frame}
    (hf : ((s.kva.frames.filter (fun f => f.2.page.isSome && !f.2.mirror)).find? (fun e => decide (s.con.auditAt ≤ e.1))) = some (f, x)) :
    auditTick s = mirrorRec { s with con := { s.con with auditAt := f + 1 } }
      (.audit (pageOfKey (x.page.getD 0)) (BitVec.ofNat 32 (frameCrc s (pteOf s (x.page.getD 0))))) := by
  unfold auditTick
  rw [whenUp_up hu, if_neg (by omega)]
  dsimp only
  rw [hf]
  rfl

theorem compareProbe_skipped (crc : BitVec 32) {st : Status} (hp : probeCheck s = some st) :
    compareProbe s crc = conStatus s st := by
  unfold compareProbe
  rw [whenUp_up hu, if_neg (by omega), hp]

section
variable {crc : BitVec 32} (hp : probeCheck s = none)
include hp

theorem compareProbe_good (h : crc.toNat = rd s F.CON_CMP_TENS1_EXPECT) : compareProbe s crc = s := by
  unfold compareProbe
  rw [whenUp_up hu, if_neg (by omega), hp]
  exact if_pos h

theorem compareProbe_fails (h : crc.toNat ≠ rd s F.CON_CMP_TENS1_EXPECT) (hy : rd s F.CON_CMP_CFG_YIELD_ON_FAIL = 0) :
    compareProbe s crc = openEvent (bump s F.CON_CMP_FAIL_CNT_COUNT) .error St.CON_PROBE_FAIL noUnit 0 0 := by
  unfold compareProbe
  rw [whenUp_up hu, if_neg (by omega), hp]
  exact (if_neg h).trans (if_neg (by omega))

end
end

/-- Settles O34: each command's case by its lemma above. -/
theorem mirrorAndPair : Obligations.MirrorAndPair := by
  refine ⟨?bad, ?next, ?rows, fun s b => mirrorOne_paired b, ?enable, ?yield, ?reintegrate, ?copied, ?replayed, ?audit, ?probe⟩
  case bad => exact fun s hdr body t hu ht h0 h2 h6 hb => next_settle (mirrorRecord_bad hu ht h0 h2 h6 hb)
  case next =>
    exact fun s s2 hdr body t hu ht h0 h2 h6 hz0 hz1 hlen hk hpos hlt hm he ha hb =>
      next_settle (mirrorRecord_next hu ht h0 h2 h6 hz0 hz1 hlen hk hpos hlt hm he ha hb)
  case rows =>
    exact fun s p off soff bs sc => ⟨applyMirror_rows_held off soff bs sc, applyMirror_rows_elsewhere off soff bs sc⟩
  case enable =>
    exact fun s w hl => ⟨fun hw _ hr => next_settle (conEnable_starts hl hw hr),
      fun hw he hr => next_settle (conEnable_badRegions hl hw he hr), fun hw => next_settle (conEnable_stops hl hw)⟩
  case yield =>
    exact fun s hl => ⟨fun hb => next_settle ((yield_eq hl).trans (if_pos hb)),
      fun hb hc => next_settle ((yield_eq hl).trans ((if_neg (ne_true_of_eq_false hb)).trans (if_pos hc))),
      fun hb hc => next_settle ((yield_eq hl).trans ((if_neg (ne_true_of_eq_false hb)).trans (if_neg (not_not.2 hc))))⟩
  case reintegrate =>
    exact fun s hl hu => ⟨fun hb b => next_settle ((reintegrate_eq hl hu b).trans (if_pos hb)),
      fun hb hc => ⟨next_settle (reintegrate_supplies hl hu true hb hc), next_settle (reintegrate_supplies hl hu false hb hc)⟩⟩
  case copied => exact fun s hu hc hp => next_settle (reintBulkDone_copied hu hc hp)
  case replayed =>
    exact fun s t hu ht hc hp h0 => ⟨fun h => next_settle ((reintReplayPassDone_eq hu ht hc hp h0).trans (if_pos h)),
      fun h => next_settle ((reintReplayPassDone_eq hu ht hc hp h0).trans (if_neg (Nat.not_lt.2 h)))⟩
  case audit => exact fun s f x hu hc he hf => next_settle (auditTick_next hu hc he hf)
  case probe =>
    exact fun s crc hu hc he => ⟨fun st hp => next_settle (compareProbe_skipped hu hc he crc hp),
      fun hp h => next_settle (compareProbe_good hu hc he hp h), fun hp h hy => next_settle (compareProbe_fails hu hc he hp h hy)⟩

end Sys2Proof.Continuity
end
